-- ==== Sys2Proof/Word.lean ====
section
/-! DEFINITION. The word types of the LX9 and their plainest arithmetic (spec/02 R75, spec/07 R209). -/

namespace Sys2Proof

abbrev W8 := BitVec 8
abbrev W16 := BitVec 16
abbrev W32 := BitVec 32
abbrev W64 := BitVec 64

/-- A thread is named by its `tid` (R31, R33). -/
abbrev Tid := Nat

end Sys2Proof
end

