-- ==== Sys2Proof/Syntax.lean ====
section
/-! DEFINITION. The steps of the LX9: one constructor per row of spec/opcode_table.json. The hardware's and the outside
world's steps come first, each whole and indivisible (spec/95), with the data of the event as operands; then the
instruction words (formats of spec/02). The order is for Lean's compiler alone, which can build no constructor with
operands past the 245th: what builds one of those is marked noncomputable. -/

namespace Sys2Proof

/-- Format BR (R53): guard and signed word offset. -/
structure Br where
  pg : BitVec 4
  pn : BitVec 1
  off : BitVec 19
deriving DecidableEq, Repr

/-- Format RR (R50) with one scalar source. -/
structure RrA where
  sa : BitVec 5
  pg : BitVec 4
  pn : BitVec 1
  w : BitVec 1
deriving DecidableEq, Repr

/-- Format RR (R50) with a destination and one scalar source. -/
structure Rr2 where
  sd : BitVec 4
  sa : BitVec 5
  pg : BitVec 4
  pn : BitVec 1
  w : BitVec 1
deriving DecidableEq, Repr

/-- Format RR (R50) with a destination and two scalar sources. -/
structure Rr3 where
  sd : BitVec 4
  sa : BitVec 5
  sb : BitVec 5
  pg : BitVec 4
  pn : BitVec 1
  w : BitVec 1
deriving DecidableEq, Repr

/-- Format RR (R50) with a destination alone. -/
structure RrD where
  sd : BitVec 4
  pg : BitVec 4
  pn : BitVec 1
  w : BitVec 1
deriving DecidableEq, Repr

/-- Format RR of `pred` (R130): a destination predicate and two source predicates. -/
structure Pr3 where
  pd : BitVec 4
  pa : BitVec 4
  pb : BitVec 4
  pg : BitVec 4
  pn : BitVec 1
  w : BitVec 1
deriving DecidableEq, Repr

/-- Format RR of `pred` (R130): a destination predicate and one source predicate. -/
structure Pr2 where
  pd : BitVec 4
  pa : BitVec 4
  pg : BitVec 4
  pn : BitVec 1
  w : BitVec 1
deriving DecidableEq, Repr

/-- Format RI (R51). -/
structure Ri where
  sd : BitVec 4
  sa : BitVec 5
  imm : BitVec 15
deriving DecidableEq, Repr

/-- Format RI (R51) of `li`, whose `SA` is not read (R126). -/
structure RiD where
  sd : BitVec 4
  imm : BitVec 15
deriving DecidableEq, Repr

/-- Format MEM (R55); `rh` is the scope `SC` of `ldacq` and `strel`. -/
structure Mem where
  sd : BitVec 4
  sb : BitVec 5
  sz : BitVec 3
  rh : BitVec 2
  off : BitVec 10
deriving DecidableEq, Repr

/-- Format MEM (R55) of `ldsy` and `stsy`, whose bits [11:10] are ignored (R143). -/
structure MemSy where
  sd : BitVec 4
  sb : BitVec 5
  sz : BitVec 3
  off : BitVec 10
deriving DecidableEq, Repr

/-- Format MEM (R55) of `pf`, which has no `SD` (R143). -/
structure MemPf where
  sb : BitVec 5
  sz : BitVec 3
  rh : BitVec 2
  off : BitVec 10
deriving DecidableEq, Repr

/-- Format EN (R64) of an atomic (R156): address, operand, old value, order, scope, size. -/
structure Amo where
  sa : BitVec 5
  sb : BitVec 5
  sd : BitVec 4
  ord : BitVec 2
  sc : BitVec 2
  sz : BitVec 2
deriving DecidableEq, Repr

/-- Format EN (R64) of a reduction (R156). -/
structure Red where
  sa : BitVec 5
  sb : BitVec 5
  sc : BitVec 2
  sz : BitVec 2
deriving DecidableEq, Repr

/-- Format VV (R57) with two vector sources. -/
structure Vv where
  vd : BitVec 5
  va : BitVec 5
  vb : BitVec 5
  vm : BitVec 3
  ty : BitVec 2
deriving DecidableEq, Repr

/-- Format VV (R57) with one vector source. -/
structure V2 where
  vd : BitVec 5
  va : BitVec 5
  vm : BitVec 3
  ty : BitVec 2
deriving DecidableEq, Repr

/-- Format VS (R58). -/
structure Vs where
  vd : BitVec 5
  va : BitVec 5
  sb : BitVec 5
  vm : BitVec 3
  ty : BitVec 2
deriving DecidableEq, Repr

/-- Format VV of `vcmp`: the destination is a mask (R57). -/
structure Vc where
  md : BitVec 3
  va : BitVec 5
  vb : BitVec 5
  vm : BitVec 3
  ty : BitVec 2
deriving DecidableEq, Repr

/-- Format VS of `vcmps`: the destination is a mask (R58). -/
structure Vcs where
  md : BitVec 3
  va : BitVec 5
  sb : BitVec 5
  vm : BitVec 3
  ty : BitVec 2
deriving DecidableEq, Repr

/-- Format VM (R60). -/
structure Vm where
  v : BitVec 5
  sb : BitVec 5
  si : BitVec 5
  vm : BitVec 3
  rh : BitVec 2
  ew : BitVec 2
  md : BitVec 2
deriving DecidableEq, Repr

/-- Format VM of `vgth` and `vsct`: `vi` is the vector of byte offsets (R60, R61). -/
structure Vg where
  v : BitVec 5
  sb : BitVec 5
  vi : BitVec 5
  vm : BitVec 3
  rh : BitVec 2
  ew : BitVec 2
deriving DecidableEq, Repr

/-- Format MX (R62); the number form is in the constructor. -/
structure Mx where
  ac : BitVec 3
  asel : BitVec 1
  a : BitVec 5
  bsel : BitVec 1
  b : BitVec 5
  da : BitVec 1
  db : BitVec 1
  sk : BitVec 3
deriving DecidableEq, Repr

/-! ## Operands of the steps that are no instruction word

A request in flight carries what its sender put into it, so that the step that performs it needs no table. `id` is the
request's own number and its order of issue. -/

/-- Functions of `amo` and `red` (R157, R159). -/
inductive AmoFn where
  | add | and | or | xor | min | max | minu | maxu | swap | cas | fadd
deriving DecidableEq, Repr

/-- One naturally aligned piece of a load: `n` bytes at `ea`, zero-extended into `w` bits at bit `lo` of the destination;
`lost` is the cause code with which it has failed, 0 while it has not (R249). -/
structure Part where
  ea : W64
  n  : Nat
  lo : Nat
  w  : Nat
  lost : Nat := 0
deriving DecidableEq, Repr

/-- Where a load's value goes (R144, R248). -/
inductive LoadDst where
  /-- one scalar register -/
  | scalar (d : BitVec 4)
  /-- `X[d]` and `X[d+1]` of a quad -/
  | pair (d : BitVec 4)
  /-- a vector register, each part at its own bits -/
  | vec (v : BitVec 5)
  /-- a vector register, one part written to every active element of `w` bits (MD = 2, R248) -/
  | bcast (v : BitVec 5) (mask : BitVec 128) (w : Nat)
deriving DecidableEq, Repr

/-- How a load reads (R151): plainly, or as an acquire at a scope (00 cluster to 11 system). -/
inductive ReadLevel where
  | plain
  | acquire (sc : BitVec 2)
deriving DecidableEq, Repr

/-- A load in flight (R144, R149, R248). -/
structure LoadReq where
  id     : Nat
  tid    : Tid
  core   : Nat
  asid   : W16
  dst    : LoadDst
  parts  : List Part
  level  : ReadLevel
  /-- retention code (R147) -/
  rh     : BitVec 2
deriving DecidableEq, Repr

/-- One piece of a store: the low `n` bytes of `data` at `ea`; `el` is its element's number in a vector store. -/
structure SPart where
  ea   : W64
  n    : Nat
  data : BitVec 128
  el   : Nat := 0
deriving DecidableEq, Repr

/-- A store on its way: to the core that owns the scratchpad word, or to its cluster's store buffer (R145, R299), there with its
retention code (R147). -/
structure StoreReq where
  id    : Nat
  tid   : Tid
  core  : Nat
  asid  : W16
  parts : List SPart
  rh    : BitVec 2 := 3
deriving DecidableEq, Repr

/-- An atomic (a courier of R29) or a reduction (a remote-update thread of R29) in flight. -/
structure AtomReq where
  id   : Nat
  tid  : Tid
  core : Nat
  asid : W16
  fn   : AmoFn
  ea   : W64
  n    : Nat
  b    : W64
  c    : W64
  d    : BitVec 4
  sys  : Bool
deriving DecidableEq, Repr

/-- A sync access waiting at the owner core (R152, R153). -/
structure SyncReq where
  id    : Nat
  tid   : Tid
  asid  : W16
  owner : Nat
  ea    : W64
  off   : Nat
  n     : Nat
  store : Bool
  d     : BitVec 4
  data  : W64
  since : Nat
  /-- cycles after which the wait ends with cause 0x0D; 0 never (R153, R286) -/
  lim   : Nat
deriving DecidableEq, Repr

/-- A message in flight (R172, R441): `d` is the status register of the poster, `none` for hardware posts; `fabric` is the
other package and the port of one that crosses the fabric. -/
structure PostReq where
  id     : Nat
  tid    : Tid
  core   : Nat
  asid   : W16
  sup    : Bool
  d      : Option (BitVec 4)
  dst    : Nat
  prio   : Bool
  wake   : Option Tid
  fabric : Option (W16 × Nat)
  bytes  : BitVec 512
  /-- the other package's answer (R441) -/
  answer : Option W64 := none
deriving DecidableEq, Repr

/-- A migration message (R17, R27): the packed light context and its header (R39, R224, R308). -/
structure MigMsg where
  tid  : Tid
  dest : Nat
  ctx  : BitVec 1280
  /-- the number of the next request at the departure: those below it were sent before (R305) -/
  id   : Nat := 0
deriving DecidableEq, Repr

/-- Forms of an asynchronous copy (R271). -/
inductive CopyKind where
  | lin | tile2d | peer | bcast
deriving DecidableEq, Repr

/-- A copy in flight (R272); `locks` are the tags of its range-lock entries, `lines` the lines it wrote. -/
structure CopyReq where
  id     : Nat
  tid    : Tid
  core   : Nat
  asid   : W16
  d      : BitVec 4
  kind   : CopyKind
  dst    : W64
  src    : W64
  len    : Nat
  rows   : Nat
  sp     : Nat
  dp     : Nat
  pkg    : W16
  cmask  : BitVec 8
  sc     : BitVec 2
  status : W64
  lines  : List Nat
  /-- lines of memory whose read has failed meanwhile (R203, R459) -/
  lost   : List Nat := []
  /-- of a copy that has begun and waits for a bank's wake, the pieces that have moved (R192) -/
  done   : Option Nat := none
deriving DecidableEq, Repr

/-- An `ume.cfg` or `ume.round` in flight (R381, R382): `arg` is the block address or the record count. -/
structure UmeReq where
  id     : Nat
  tid    : Tid
  core   : Nat
  die    : Nat
  ctx    : Nat
  asid   : W16
  d      : BitVec 4
  arg    : W64
  status : W64
  /-- lines of memory whose read has failed meanwhile (R203, R459) -/
  lost   : List Nat := []
deriving DecidableEq, Repr

/-- What a release probe goes to (R311). -/
inductive ProbeTo where
  | slice (die s : Nat)
  | die (d : Nat)
deriving DecidableEq, Repr

/-- A task handed out (R359, R364): launch, ordinal, the walker that gave it (die x 32 + index), the core and, in a
deterministic launch, the lane's first slot. -/
structure TaskReq where
  lid    : W16
  ord    : W32
  walker : Option Nat
  core   : Nat
  slot   : Option Nat
  /-- the cycle at which the start message is at the core (log entry 86) -/
  at_    : Nat
deriving DecidableEq, Repr

/-- A queued ring operation (R413). -/
inductive RingFn where
  | peek (d : BitVec 4) (w : Nat)
  | board (d : BitVec 4) (h : BitVec 2) (buf : Nat)
  | alight (h : BitVec 2) (buf : Nat)
  | rel (h : BitVec 2) (buf : Nat)
  | radd (v : W64) (w : Nat)
  | rmax (v : W64) (w : Nat) (sgn : Bool)
  /-- the clearing of a hold at a pre-emption (R423) -/
  | drop (h : BitVec 2) (buf : Nat)
deriving DecidableEq, Repr

/-- A part that fails, in service or in self-test, and has no spare (R205, R425, R459, R462). -/
inductive FailedPart where
  /-- a core: its instruction store, scratchpad, L1, basting buffer or pipeline -/
  | core (c : Nat)
  /-- a cluster's store buffer, barrier leaf or walker pair -/
  | cluster (k : Nat)
  /-- the sets of a die's L2 that a row touches, by slice × 1,536 + set -/
  | l2Sets (die : Nat) (sets : List Nat)
  /-- a slice's ordering state, or the die's commit arbiter -/
  | ordering (die : Nat)
  /-- the bobbins held in a row of ring storage -/
  | ringRow (bobbins : List Nat)
  /-- an uncorrectable error in a bobbin's payload -/
  | payload (bobbin : Nat)
  /-- an uncorrectable error in a bobbin's metadata at the station of a core -/
  | metadata (bobbin core : Nat)
deriving DecidableEq, Repr

/-- The signed base part of the configuration block (R457), as far as the spec names what it holds: the public keys of R105, the
supervisor program (R458): its ASID and its scratchpad bytes where it names them, its Ozrum file; and the function and the ASID
of each doorbell that the dispatch controllers assign (R449). -/
structure ConfigBlock where
  bytes     : List W8
  keys      : List (W64 × Nat × Nat)
  supAsid   : Option W16
  supFile   : List W8
  supSpad   : Option Nat
  doorbells : List (Nat × Nat × W16)
deriving DecidableEq, Repr

/-- A dispatch controller's firmware (R464), and whether its signature verifies. -/
structure Firmware where
  bytes : List W8
  ok    : Bool
deriving DecidableEq, Repr

/-- Results of the boot steps (R456) as the parts give them: what fails to lock, verify or calibrate, what self-test and memory
initialisation find without a spare, and the firmware of each die's two controllers. -/
structure BootResult where
  pllOk    : Bool
  configOk : Bool
  config   : ConfigBlock
  /-- lanes that will not calibrate: port, lane -/
  badLanes : List (Nat × Nat)
  /-- stacks that will not calibrate -/
  badStacks : List Nat
  failed   : List FailedPart
  /-- field records of the block, by place, whose signature does not verify -/
  badRecords : List Nat
  /-- failing rows of HBM: die, PA -/
  badRows  : List (Nat × Nat)
  active   : List Firmware
  standby  : List Firmware
deriving DecidableEq, Repr

/-- How far the power manager throttled issue in a window (R453). -/
inductive Throttle where
  | none | part | full
deriving DecidableEq, Repr

/-- What the power manager did in the window that ends (R453, R184): how far it throttled issue, and the L1 ways that it now powers
in each core it names. -/
structure PowerWindow where
  throttled : Throttle
  ways      : List (Nat × Nat)
deriving DecidableEq, Repr

/-- A flit as it is received, with the lanes whose segment failed its parity (R433, R435). -/
structure RxFlit where
  bits : BitVec 2048
  bad  : BitVec 8
deriving DecidableEq, Repr

/-- A flit of a copy that another package sends (R439): the port it came over, the copy's number at its sender, and whether it is
the copy's first or last. -/
structure CopyFlit where
  port  : Nat
  id    : Nat
  first : Bool
  last  : Bool
deriving DecidableEq, Repr

/-- A write of a function (R445, R447): 0 is the physical function; `seq` is the number of one that waits for earlier writes. -/
structure HostFn where
  fn  : Nat
  seq : Option Nat
deriving DecidableEq, Repr

/-- A doorbell or a dword of the HWAKE array, written by a function. -/
structure HostReg where
  by_ : HostFn
  n   : Nat
deriving DecidableEq, Repr

/-- Where a host access goes (R446): through a window of a function, to a function's BAR0, or to the address that a window gave when
the access came, with its number. -/
inductive HostAt where
  | win (fn i : Nat)
  | bar0 (fn : Nat)
  | at_ (fn seq : Nat) (asid : W16) (ea : W64)
deriving DecidableEq, Repr

/-- The steps of the LX9. -/
inductive Instr where
  /-- FAULT_MESSAGE_DELIVERY (R170): A fault message held for lack of room is queued once room appears. -/
  | faultMessageDelivery (p : PostReq)
  /-- LOAD_COMPLETION (R144): A load reply arrives, writes the destination register and sets it full. -/
  | loadCompletion (r : LoadReq)
  /-- STORE_PERFORM_AT_HOME (R145): A store is performed at its home and acknowledged. -/
  | storePerformAtHome (r : StoreReq)
  /-- ATOMIC_AT_HOME (R158): An atomic is performed indivisibly at its home and its old value returned. -/
  | atomicAtHome (r : AtomReq)
  /-- REMOTE_UPDATE (R29): A spawned remote-update thread applies a reduction at its home. -/
  | remoteUpdate (r : AtomReq)
  /-- MIGRATION_DEPARTURE (R27): After producers fill and stores drain, the light context is packed and sent to the home core. -/
  | migrationDeparture (tid : Tid) (dest : Nat)
  /-- MIGRATION_ARRIVAL (R28): A migration message is accepted into the arrival queue and unpacked onto the run queue. -/
  | migrationArrival (m : MigMsg)
  /-- CODE_ABSENT (R30): The dispatch controller receives a code-absent message and loads the image by remote stores. -/
  | codeAbsent (core : Nat) (tid : Tid)
  /-- CODE_START_MESSAGE (R30): A start message resumes a thread parked for its code image. -/
  | codeStartMessage (core : Nat) (img : W16) (asid : W16)
  /-- CODE_REFUSAL (R30): A refusal makes the parked thread trap with cause 0x07 at its fetch. -/
  | codeRefusal (tid : Tid) (link : W64)
  /-- SYNC_ACCESS_SERVE (R152): A waiting sync access is served at the owner when its words reach the required state. -/
  | syncAccessServe (r : SyncReq)
  /-- SYNC_RETRY_LIMIT (R153): A sync wait reaching the retry limit traps with cause 0x0D. -/
  | syncRetryLimit (r : SyncReq)
  /-- MAILBOX_DELIVERY (R172): A posted message reaches its core and is queued or refused, possibly setting a wake token. -/
  | mailboxDelivery (p : PostReq)
  /-- RESUME_MESSAGE (R175): A supervisor kind 0x03 message resumes or ends a thread parked by R38. -/
  | resumeMessage (p : PostReq)
  /-- CLUSTER_CONTROL_WRITE (R285): A supervisor kind 0x04 post writes a cluster control register under a mask. -/
  | clusterControlWrite (p : PostReq)
  /-- CLUSTER_CONTROL_READ (R285): A supervisor kind 0x05 post reads a cluster control register and gets a kind 0x06 reply. -/
  | clusterControlRead (p : PostReq)
  /-- BARRIER_RELEASE (R294): The root releases a phase to every core 40 cycles after the last arrival. -/
  | barrierRelease (tag : Nat)
  /-- HELD_FP_TRAP_DELIVERY (R228): A thread held after a floating-point exception takes its trap once the earlier report ends. -/
  | heldFpTrapDelivery (core : Nat)
  /-- MMA_ENGINE_START (R259): The matrix engine starts an accepted queue operation. -/
  | mmaEngineStart (core : Nat)
  /-- MMA_OPERANDS_CONSUMED (R259): At its last occupied cycle an operation consumes its operands and releases its source locks. -/
  | mmaOperandsConsumed (core : Nat)
  /-- MMA_COMPLETION (R196): A queue operation completes 16 cycles later and sets its flags. -/
  | mmaCompletion (core : Nat)
  /-- ACC_TRANSFER_COMPLETION (R265): An acc.ld or acc.st completes and writes its token. -/
  | accTransferCompletion (core : Nat)
  /-- COPY_ENGINE_START (R272): After the release wait, the copy engine checks and moves the bytes. -/
  | copyEngineStart (r : CopyReq)
  /-- COPY_COMPLETION (R272): A copy publishes at its scope and fills its token. -/
  | copyCompletion (r : CopyReq)
  /-- ENGINE_FIRING (R202): A bound operation fires when its inputs hold and its outputs have room. -/
  | engineFiring (core : Nat) (b : Nat)
  /-- FIRING_OPERANDS_CONSUMED (R202): A firing consumes its operands and advances CONS of its inputs. -/
  | firingOperandsConsumed (core : Nat) (b : Nat)
  /-- FIRING_COMPLETION (R202): A firing completes and advances PROD of its outputs. -/
  | firingCompletion (core : Nat) (b : Nat)
  /-- BANK_GATE_EFFECT (R192): A pending gate request takes effect once no lock or engine uses the bank. -/
  | bankGateEffect (core : Nat) (bank : Nat)
  /-- BANK_WAKE_END (R192): A wake ends after 1,200 cycles and parked accesses are performed. -/
  | bankWakeEnd (core : Nat) (bank : Nat)
  /-- ALLOCATION_CLEAR_DONE (R190): Clearing of a new scratchpad allocation finishes and the task's first instruction may issue. -/
  | allocationClearDone (tid : Tid)
  /-- RELEASE_CLEAR_DONE (R191): Clearing of a released allocation finishes and the bytes return to the free pool. -/
  | releaseClearDone (core : Nat) (base : Nat)
  /-- STORE_BUFFER_DRAIN (R281): The cluster store buffer drains an entry to its home slice. -/
  | storeBufferDrain (cluster : Nat) (entry : Nat)
  /-- SIGNATURE_PLACEMENT (R309): The commit arbiter places a write signature and every L1 of the die applies it. -/
  | signaturePlacement (tid : Tid) (sc : BitVec 2)
  /-- RELEASE_PROBE_ECHO (R311): A slice or die interface echoes a release probe. -/
  | releaseProbeEcho (tid : Tid) (tgt : ProbeTo)
  /-- WRITE_LOG_APPEND (R316): A core appends a write-range record and advances HEAD. -/
  | writeLogAppend (core : Nat)
  /-- DIRTY_LOG_MERGE (R401): The cluster agent merges a core's dirty log when it reaches 32 records. -/
  | dirtyLogMerge (core : Nat)
  /-- DEADLOCK_SWEEP (R317): Every 256 network cycles the detector samples the idle lines and traffic. -/
  | deadlockSweep
  /-- CHUNK_COMMIT (R321): At its turn a deterministic chunk is validated and committed or squashed. -/
  | chunkCommit (tid : Tid)
  /-- REGION_SQUASH (R336): A placed commit or release meeting a region's read set squashes and restarts the region. -/
  | regionSquash (tid : Tid)
  /-- TASK_START (R359): A task starts on a core with room, receiving scratchpad, accumulators and its start state. -/
  | taskStart (r : TaskReq)
  /-- LAUNCH_COMPLETION (R358): A launch becomes DONE and decreases its successors' wait counts. -/
  | launchCompletion (lid : W16)
  /-- WALKER_HANDOUT (R364): A walker hands its next ordinal to a served core with room. -/
  | walkerHandout (w : Nat) (core : Nat)
  /-- WALKER_SPLIT (R368): An idle core splits a victim walker's range onto a free walker of its cluster. -/
  | walkerSplit (victim : Nat) (thief : Nat) (free : Nat)
  /-- PREEMPTION_REQUEST (R370): A pre-emption request reaches cores and walkers, stopping starts, hand-outs and splits. -/
  | preemptionRequest
  /-- PREEMPT_SAFE_POINT_STOP (R370): A thread about to issue a safe-point word stops without issuing it. -/
  | preemptSafePointStop (tid : Tid)
  /-- PREEMPT_TIMEOUT_STOP (R370): 3,000 cycles after arrival a thread stops at its next instruction boundary. -/
  | preemptTimeoutStop (tid : Tid)
  /-- PREEMPTION_SAVE (R371): After outstanding work completes, walkers and tasks are written to the save area. -/
  | preemptionSave
  /-- PREEMPTION_RESUME (R373): Tasks and walkers are restored and issue restarts on every core. -/
  | preemptionResume
  /-- UME_CFG_BLOCK_READ (R381): The engine reads the configuration block and loads or refuses the context. -/
  | umeCfgBlockRead (r : UmeReq)
  /-- UME_ROUND_EXECUTION (R377): The engine ranks candidates, commits positions and updates the maps. -/
  | umeRoundExecution (r : UmeReq)
  /-- UME_ROUND_COMPLETION (R385): A round publishes at die scope and fills its token. -/
  | umeRoundCompletion (r : UmeReq)
  /-- STATION_PASSAGE (R414): A bobbin passes a station, which performs its queued operations on it in issue order. -/
  | stationPassage (b : Nat) (st : Nat)
  /-- SEAM_CROSSING (R408): At the seam a dirty bobbin commits and a held bobbin's age advances. -/
  | seamCrossing (b : Nat)
  /-- HOLD_BREAK (R421): A hold reaching 64 seam crossings is broken. -/
  | holdBreak (b : Nat)
  /-- FLIT_DATA (R434): A data flit is received, checked and passed upward if in order. -/
  | flitData (port : Nat) (bits : BitVec 2048) (badLanes : BitVec 8)
  /-- FLIT_REPLAY_REQUEST (R434): A replay request makes the sender resend from the named flit. -/
  | flitReplayRequest (port : Nat) (flit : RxFlit)
  /-- FLIT_ACKNOWLEDGE (R434): An acknowledge-only flit frees replay-buffer entries. -/
  | flitAcknowledge (port : Nat) (flit : RxFlit)
  /-- FLIT_IDLE (R433): An idle flit is received. -/
  | flitIdle (port : Nat) (flit : RxFlit)
  /-- LANE_SPARING (R435): A lane with 16 consecutive retries is replaced by the spare and the port retrains. -/
  | laneSparing (port : Nat) (lane : Nat)
  /-- PORT_TRAINING (R436): A port trains and negotiates its protocol version. -/
  | portTraining (port : Nat) (offered : List Nat)
  /-- PORT_SURPRISE_DOWN (R455): A port loses lock, discards replay buffers and ends its traffic with 0x21. -/
  | portSurpriseDown (port : Nat)
  /-- COPY_PEER_ARRIVAL (R439): The destination package translates and performs incoming copy writes and acknowledges. -/
  | copyPeerArrival (src : W16) (asid : W16) (dst : W64) (bytes : List W8) (sc : BitVec 2) (tag : CopyFlit)
  /-- FABRIC_MESSAGE_ARRIVAL (R441): A message from another package is queued at its destination core. -/
  | fabricMessageArrival (p : PostReq)
  /-- HOST_WRITE (R447): A host write through a window is translated and performed at its home. -/
  | hostWrite (win : HostAt) (off : Nat) (bytes : List W8) (relaxed : Bool)
  /-- HOST_READ (R447): A host read through a window is served at the home. -/
  | hostRead (win : HostAt) (off : Nat) (n : Nat)
  /-- DOORBELL_WRITE (R449): A 64-byte host doorbell write posts a kind 0x08 message to a core. -/
  | doorbellWrite (db : HostReg) (bytes : List W8)
  /-- HWAKE_WRITE (R449): A host write sets host-wake bits of ASIDs. -/
  | hwakeWrite (j : HostReg) (v : W64)
  /-- MGMT_READ_REGISTER (R450): Management command 0x01 reads a register. -/
  | mgmtReadRegister (off : Nat)
  /-- MGMT_WRITE_REGISTER (R450): Management command 0x02 writes a register. -/
  | mgmtWriteRegister (off : Nat) (v : W64)
  /-- MGMT_LOAD_OZRUM (R109): Management command 0x03 verifies and loads an Ozrum file or rejects it. -/
  | mgmtLoadOzrum (asid : W16) (file : List W8)
  /-- MGMT_ARM_LAUNCH (R356): Management command 0x04 arms a launch record. -/
  | mgmtArmLaunch (lid : W16)
  /-- TRAY_QUIESCE (R454): Tray command QUIESCE pre-empts launches and refuses new arms and traffic. -/
  | trayQuiesce
  /-- TRAY_DRAIN (R454): Tray command DRAIN completes traffic in flight and clears routes. -/
  | trayDrain
  /-- TRAY_POWEROFF (R454): Tray command POWEROFF powers the tray down. -/
  | trayPoweroff
  /-- TRAY_REINSERTION (R454): A reinserted tray trains its ports and returns to SERVING. -/
  | trayReinsertion (offered : List Nat)
  /-- PKGID_WRITE (R438): A write of PKGID sets or clears the package id, refused if it changes a valid id. -/
  | pkgidWrite (v : W64)
  /-- ROUTE_ENTRY_WRITE (R438): A write of a route entry sets its ports for later traffic. -/
  | routeEntryWrite (pkg : Nat) (v : W64)
  /-- PCAP_REGISTER_WRITE (R452): A write of a power-capping register is clamped and may set CLMP. -/
  | pcapRegisterWrite (off : Nat) (v : W64)
  /-- PCAP_STATUS_CLEAR (R452): Writing ones clears CLMP or OVER. -/
  | pcapStatusClear (v : W64)
  /-- WRLOG_WRITE (R315): A write of an ASID's WRLOG copies the pointer into all four dies' tables. -/
  | wrlogWrite (a : W16) (v : W64)
  /-- LRVER_WRITE (R352): A write of LRVER changes the accepted launch-record versions for later loads and arms. -/
  | lrverWrite (a : W16) (v : W64)
  /-- REGISTER_WRITE (R451): A write to any other package register stores its value. -/
  | registerWrite (host : Option HostFn) (off : Nat) (v : W64)
  /-- POWER_WINDOW_BOUNDARY (R453): At each averaging window boundary the power manager sets EFF and throttles; `done` says what
else it did (R184). -/
  | powerWindowBoundary (avg : Nat) (done : PowerWindow)
  /-- POWER_ON_RESET (R456): The boot engine runs PLL lock, calibration, self-test, memory initialisation and measured boot. -/
  | powerOnReset (b : BootResult)
  /-- HEARTBEAT_MISS (R463): The active controller misses its 10 ms heartbeat and the standby takes over. -/
  | heartbeatMiss (die : Nat) (fw : List W8) (ok : Bool)
  /-- FIRMWARE_UPDATE (R463): An update command makes the standby load new firmware and take over. -/
  | firmwareUpdate (die : Nat) (fw : List W8) (ok : Bool)
  /-- CORE_LASTING_FAULT (R205): A lasting fault parks every thread of the core and posts a core fault. -/
  | coreLastingFault (part : FailedPart)
  /-- HBM_UNCORRECTABLE_READ (R459): An uncorrectable HBM read is retried and a lasting fault retires the row. -/
  | hbmUncorrectableRead (die : Nat) (pa : Nat) (again : Bool) (rewritten : Bool)
  /-- TRANSLATION_PROBE (R392): A home die translates a mobile thread's probe and returns the translation. -/
  | translationProbe (tid : Tid)
  /-- FAULT_ANSWER_RETRY (R398): The controller answers retry and held accesses replay in arrival order. -/
  | faultAnswerRetry (die : Nat) (page : Nat) (entryAt : Option Nat) (entry : W64)
  /-- FAULT_ANSWER_FAIL (R398): The controller answers fail and held accesses end with cause 0x09. -/
  | faultAnswerFail (die : Nat) (page : Nat)
  /-- SPDM_GET_VERSION (R465): Answer an SPDM GET_VERSION request. -/
  | spdmGetVersion
  /-- SPDM_GET_CAPABILITIES (R465): Answer an SPDM GET_CAPABILITIES request. -/
  | spdmGetCapabilities
  /-- SPDM_NEGOTIATE_ALGORITHMS (R465): Answer an SPDM NEGOTIATE_ALGORITHMS request. -/
  | spdmNegotiateAlgorithms (req : List W8)
  /-- SPDM_GET_DIGESTS (R465): Answer an SPDM GET_DIGESTS request. -/
  | spdmGetDigests
  /-- SPDM_GET_CERTIFICATE (R465): Answer an SPDM GET_CERTIFICATE request. -/
  | spdmGetCertificate (off : Nat) (n : Nat)
  /-- SPDM_CHALLENGE (R465): Answer an SPDM CHALLENGE request with a signature. -/
  | spdmChallenge (nonce : BitVec 256)
  /-- SPDM_GET_MEASUREMENTS (R465): Return the eight measurement registers, signed. -/
  | spdmGetMeasurements (nonce : BitVec 256)
  /-- TID_RELEASE_MESSAGE (R33): A tid-release message from the core where a thread ended reaches the thread's creating core, which clears that context's tid reservation bit. -/
  | tidReleaseMessage (tid : Tid)
  /-- MEASUREMENT_EXTEND_REQUEST (R464): On a host request the dispatch controller extends measurement register 5, 6 or 7 with a digest. -/
  | measurementExtendRequest (idx : Nat) (d : BitVec 512)
  /-- BRA (R114): Branch, when the guard holds, to PC plus the signed 19-bit word offset. -/
  | bra (o : Br)
  /-- CALL (R114): Branch to PC plus the offset and write the link value of the next word to s14. -/
  | call (o : Br)
  /-- JR_GO (R116): Jump to the link value held in a register. -/
  | jrGo (o : RrA)
  /-- JR_LINK (R116): Jump to a link value and write the return link value to SD. -/
  | jrLink (o : Rr2)
  /-- JR_RET (R116): Jump to a link value, marked as a return. -/
  | jrRet (o : RrA)
  /-- TASK_EXIT (R118): Drain the thread's producers and stores, release at package scope, release hold buffers and accumulators, and free the context. -/
  | taskExit
  /-- TASK_YIELD (R119): Vacate the barrel slot and requeue the thread at the tail of the run queue. -/
  | taskYield
  /-- TASK_PARK (R120): Consume the wake token, or park until the token is set. -/
  | taskPark
  /-- TASK_HALT_HALT (R121): Supervisor halts a core of its cluster at the next instruction boundary. -/
  | taskHaltHalt (sa : BitVec 5) (sd : BitVec 4)
  /-- TASK_HALT_RESUME (R121): Supervisor resumes a halted core of its cluster. -/
  | taskHaltResume (sa : BitVec 5) (sd : BitVec 4)
  /-- TASK_HALT_RETIRE (R121): Supervisor retires a halted core of its cluster from placement. -/
  | taskHaltRetire (sa : BitVec 5) (sd : BitVec 4)
  /-- TRAP_SYS (R166): Complete and raise a system call trap, cause 0x15. -/
  | trapSys (code : BitVec 6)
  /-- TRAP_BRK (R166): Complete and raise a breakpoint trap, cause 0x16. -/
  | trapBrk (code : BitVec 6)
  /-- TRAP_ASSERT (R166): Raise an assert trap, cause 0x17, when the named predicate is false. -/
  | trapAssert (pa : BitVec 4) (code : BitVec 6)
  /-- ERET (R167): Restore the hint latch from the shadow, clear IH and continue at epc. -/
  | eret
  /-- SYSR_GET (R168): Read a system register into a scalar register. -/
  | sysrGet (sd : BitVec 4) (sel : BitVec 6)
  /-- SYSR_SET (R168): Write a system register from a scalar register. -/
  | sysrSet (sa : BitVec 5) (sel : BitVec 6)
  /-- SYSR_SETB (R168): OR a scalar value into a system register. -/
  | sysrSetb (sa : BitVec 5) (sel : BitVec 6)
  /-- SYSR_CLRB (R168): Clear the bits of a system register that a scalar value names. -/
  | sysrClrb (sa : BitVec 5) (sel : BitVec 6)
  /-- MODE_SETRM (R169): Set the rounding mode from the immediate. -/
  | modeSetrm (rm : BitVec 3)
  /-- MODE_MOBILE (R169): Make the thread mobile after the checks of R25. -/
  | modeMobile
  /-- MODE_ANCHOR (R169): Clear MOB, anchoring the thread. -/
  | modeAnchor
  /-- MODE_GETFL (R169): Read the six sticky flags into a scalar register. -/
  | modeGetfl (sd : BitVec 4)
  /-- MODE_CLRFL (R169): Clear the sticky flags named by the immediate mask. -/
  | modeClrfl (mask : BitVec 6)
  /-- MBX_POST (R172): Release and post a 64-byte message to a core's mailbox, with a status token. -/
  | mbxPost (sa : BitVec 5) (sb : BitVec 5) (sd : BitVec 4) (prio : BitVec 1)
  /-- MBX_FETCH (R173): Copy and remove the oldest queued message of the ASID into LOCAL memory. -/
  | mbxFetch (sa : BitVec 5) (sd : BitVec 4)
  /-- MBX_COUNT (R173): Read the counts of queued messages by priority. -/
  | mbxCount (sd : BitVec 4)
  /-- WAIT_FULL (R176): Park until a named register is full. -/
  | waitFull (r : BitVec 4)
  /-- WAIT_ANY (R176): Park until any register in a mask is full and write the lowest such number. -/
  | waitAny (sa : BitVec 5) (sd : BitVec 4)
  /-- ALU_ADD (R122): Integer add. -/
  | aluAdd (o : Rr3)
  /-- ALU_SUB (R122): Integer subtract. -/
  | aluSub (o : Rr3)
  /-- ALU_MUL (R122): Integer multiply, low half. -/
  | aluMul (o : Rr3)
  /-- ALU_MULH (R122): Signed multiply, upper half. -/
  | aluMulh (o : Rr3)
  /-- ALU_MULHU (R122): Unsigned multiply, upper half. -/
  | aluMulhu (o : Rr3)
  /-- ALU_AND (R122): Bitwise and. -/
  | aluAnd (o : Rr3)
  /-- ALU_OR (R122): Bitwise or. -/
  | aluOr (o : Rr3)
  /-- ALU_XOR (R122): Bitwise exclusive or. -/
  | aluXor (o : Rr3)
  /-- ALU_ANDN (R122): a AND NOT b. -/
  | aluAndn (o : Rr3)
  /-- ALU_ORN (R122): a OR NOT b. -/
  | aluOrn (o : Rr3)
  /-- ALU_SHL (R122): Shift left by b mod n. -/
  | aluShl (o : Rr3)
  /-- ALU_SHR (R122): Logical shift right by b mod n. -/
  | aluShr (o : Rr3)
  /-- ALU_SRA (R122): Arithmetic shift right by b mod n. -/
  | aluSra (o : Rr3)
  /-- ALU_ROT (R122): Rotate left by b mod n. -/
  | aluRot (o : Rr3)
  /-- ALU_MIN (R122): Signed minimum. -/
  | aluMin (o : Rr3)
  /-- ALU_MAX (R122): Signed maximum. -/
  | aluMax (o : Rr3)
  /-- ALX_MINU (R122): Unsigned minimum. -/
  | alxMinu (o : Rr3)
  /-- ALX_MAXU (R122): Unsigned maximum. -/
  | alxMaxu (o : Rr3)
  /-- ALX_DIV (R123): Signed division truncating toward zero, never trapping. -/
  | alxDiv (o : Rr3)
  /-- ALX_DIVU (R123): Unsigned division, never trapping. -/
  | alxDivu (o : Rr3)
  /-- ALX_REM (R123): Signed remainder with the sign of the dividend. -/
  | alxRem (o : Rr3)
  /-- ALX_REMU (R123): Unsigned remainder. -/
  | alxRemu (o : Rr3)
  /-- ALX_CLZ (R122): Count leading zero bits. -/
  | alxClz (o : Rr2)
  /-- ALX_CTZ (R122): Count trailing zero bits. -/
  | alxCtz (o : Rr2)
  /-- ALX_POPC (R122): Count one bits. -/
  | alxPopc (o : Rr2)
  /-- ALX_BREV (R122): Reverse the bit order. -/
  | alxBrev (o : Rr2)
  /-- ALX_BSWAP (R122): Reverse the byte order. -/
  | alxBswap (o : Rr2)
  /-- ALX_SEL (R122): Bitwise select of a and b under the mask held in SD. -/
  | alxSel (o : Rr3)
  /-- ALX_LEA1 (R122): a plus b shifted left by 1. -/
  | alxLea1 (o : Rr3)
  /-- ALX_LEA2 (R122): a plus b shifted left by 2. -/
  | alxLea2 (o : Rr3)
  /-- ALX_LEA3 (R122): a plus b shifted left by 3. -/
  | alxLea3 (o : Rr3)
  /-- ALX_LEA4 (R122): a plus b shifted left by 4. -/
  | alxLea4 (o : Rr3)
  /-- BITS_EXT (R124): Extract a sign-extended bit field. -/
  | bitsExt (o : Rr3)
  /-- BITS_EXTU (R124): Extract a zero-extended bit field. -/
  | bitsExtu (o : Rr3)
  /-- BITS_INS (R124): Insert a bit field into SD. -/
  | bitsIns (o : Rr3)
  /-- MOV_MOV (R125): Copy a scalar register. -/
  | movMov (o : Rr2)
  /-- MOV_MOVP (R125): Copy the predicate word into a scalar register. -/
  | movMovp (o : RrD)
  /-- MOV_SETP (R125): Set predicates p1-p15 from a scalar register. -/
  | movSetp (o : RrA)
  /-- MOV_ZX8 (R125): Zero-extend the low 8 bits. -/
  | movZx8 (o : Rr2)
  /-- MOV_ZX16 (R125): Zero-extend the low 16 bits. -/
  | movZx16 (o : Rr2)
  /-- MOV_ZX32 (R125): Zero-extend the low 32 bits. -/
  | movZx32 (o : Rr2)
  /-- MOV_SX8 (R125): Sign-extend the low 8 bits. -/
  | movSx8 (o : Rr2)
  /-- MOV_SX16 (R125): Sign-extend the low 16 bits. -/
  | movSx16 (o : Rr2)
  /-- MOV_SX32 (R125): Sign-extend the low 32 bits. -/
  | movSx32 (o : Rr2)
  /-- ADDI (R126): Add an immediate. -/
  | addi (o : Ri)
  /-- ANDI (R126): And with an immediate. -/
  | andi (o : Ri)
  /-- ORI (R126): Or with an immediate. -/
  | ori (o : Ri)
  /-- XORI (R126): Exclusive or with an immediate. -/
  | xori (o : Ri)
  /-- SHLI (R126): Shift left by an immediate. -/
  | shli (o : Ri)
  /-- SHRI (R126): Logical shift right by an immediate. -/
  | shri (o : Ri)
  /-- SRAI (R126): Arithmetic shift right by an immediate. -/
  | srai (o : Ri)
  /-- LI (R126): Load an immediate. -/
  | li (o : RiD)
  /-- LHI (R126): Replace the high 32 bits with an immediate, keeping the low half. -/
  | lhi (o : Ri)
  /-- MULI (R126): Multiply by an immediate. -/
  | muli (o : Ri)
  /-- FPU_FADD (R132): Floating-point add. -/
  | fpuFadd (o : Rr3)
  /-- FPU_FSUB (R132): Floating-point subtract. -/
  | fpuFsub (o : Rr3)
  /-- FPU_FMUL (R132): Floating-point multiply. -/
  | fpuFmul (o : Rr3)
  /-- FPU_FDIV (R132): Floating-point divide. -/
  | fpuFdiv (o : Rr3)
  /-- FPU_FSQRT (R132): Floating-point square root. -/
  | fpuFsqrt (o : Rr2)
  /-- FPU_FMIN (R133): Floating-point minimum. -/
  | fpuFmin (o : Rr3)
  /-- FPU_FMAX (R133): Floating-point maximum. -/
  | fpuFmax (o : Rr3)
  /-- FPU_FABS (R132): Clear the sign bit. -/
  | fpuFabs (o : Rr2)
  /-- FPU_FNEG (R132): Invert the sign bit. -/
  | fpuFneg (o : Rr2)
  /-- FPU_FSGNJ (R132): Magnitude of x with the sign of y. -/
  | fpuFsgnj (o : Rr3)
  /-- FPU_FMA (R132): Fused x times y plus SD. -/
  | fpuFma (o : Rr3)
  /-- FPU_FMS (R132): Fused x times y minus SD. -/
  | fpuFms (o : Rr3)
  /-- FPU_FNMA (R132): Fused SD minus x times y. -/
  | fpuFnma (o : Rr3)
  /-- FPU_FCLASS (R134): Write the one-hot class mask of the operand. -/
  | fpuFclass (o : Rr2)
  /-- FCVT_I2F (R135): Convert INT64 to float. -/
  | fcvtI2f (o : Rr2)
  /-- FCVT_U2F (R135): Convert UINT64 to float. -/
  | fcvtU2f (o : Rr2)
  /-- FCVT_F2I (R136): Convert float to INT64. -/
  | fcvtF2i (o : Rr2)
  /-- FCVT_F2U (R136): Convert float to UINT64. -/
  | fcvtF2u (o : Rr2)
  /-- FCVT_F2F (R135): Convert between FP64 and FP32. -/
  | fcvtF2f (o : Rr2)
  /-- FCVT_TOBF16 (R135): Convert float to BF16. -/
  | fcvtTobf16 (o : Rr2)
  /-- FCVT_FROMBF16 (R135): Widen BF16 to float exactly. -/
  | fcvtFrombf16 (o : Rr2)
  /-- FCVT_TOFP16 (R135): Convert float to FP16. -/
  | fcvtTofp16 (o : Rr2)
  /-- FCVT_FROMFP16 (R135): Widen FP16 to float exactly. -/
  | fcvtFromfp16 (o : Rr2)
  /-- FCMP_FEQ (R137): Ordered float equality into a predicate. -/
  | fcmpFeq (o : Rr3)
  /-- FCMP_FLT (R137): Ordered float less-than into a predicate. -/
  | fcmpFlt (o : Rr3)
  /-- FCMP_FLE (R137): Ordered float less-or-equal into a predicate. -/
  | fcmpFle (o : Rr3)
  /-- FCMP_FUN (R137): Unordered test into a predicate. -/
  | fcmpFun (o : Rr3)
  /-- CMP_EQ (R128): Integer equality into a predicate. -/
  | cmpEq (o : Rr3)
  /-- CMP_NE (R128): Integer inequality into a predicate. -/
  | cmpNe (o : Rr3)
  /-- CMP_LT (R128): Signed less-than into a predicate. -/
  | cmpLt (o : Rr3)
  /-- CMP_LTU (R128): Unsigned less-than into a predicate. -/
  | cmpLtu (o : Rr3)
  /-- CMP_LE (R128): Signed less-or-equal into a predicate. -/
  | cmpLe (o : Rr3)
  /-- CMP_LEU (R128): Unsigned less-or-equal into a predicate. -/
  | cmpLeu (o : Rr3)
  /-- CMP_GT (R128): Signed greater-than into a predicate. -/
  | cmpGt (o : Rr3)
  /-- CMP_GTU (R128): Unsigned greater-than into a predicate. -/
  | cmpGtu (o : Rr3)
  /-- CMP_GE (R128): Signed greater-or-equal into a predicate. -/
  | cmpGe (o : Rr3)
  /-- CMP_GEU (R128): Unsigned greater-or-equal into a predicate. -/
  | cmpGeu (o : Rr3)
  /-- CMP_TST (R128): Test whether a AND b is nonzero. -/
  | cmpTst (o : Rr3)
  /-- CEQI (R129): Compare equal with an immediate into a predicate. -/
  | ceqi (o : Ri)
  /-- CLTI (R129): Signed less-than an immediate into a predicate. -/
  | clti (o : Ri)
  /-- CLTUI (R129): Unsigned less-than an immediate into a predicate. -/
  | cltui (o : Ri)
  /-- PRED_AND (R130): Predicate and. -/
  | predAnd (o : Pr3)
  /-- PRED_OR (R130): Predicate or. -/
  | predOr (o : Pr3)
  /-- PRED_XOR (R130): Predicate exclusive or. -/
  | predXor (o : Pr3)
  /-- PRED_ANDN (R130): Predicate a AND NOT b. -/
  | predAndn (o : Pr3)
  /-- PRED_NOT (R130): Predicate not. -/
  | predNot (o : Pr2)
  /-- PRED_MOV (R130): Predicate copy. -/
  | predMov (o : Pr2)
  /-- LD (R144): Check the address, empty the destination and issue a zero-extending load. -/
  | ld (o : Mem)
  /-- ST (R145): Check the address and send a store into the core's write path. -/
  | st (o : Mem)
  /-- LDACQ (R149): Load with an acquire at the scope, parking until the value is read. -/
  | ldacq (o : Mem)
  /-- STREL (R150): Release at the scope, then store. -/
  | strel (o : Mem)
  /-- LDSY (R152): Sync load: wait at the owner until the words are full, read them and leave them empty. -/
  | ldsy (o : MemSy)
  /-- STSY (R152): Sync store: wait at the owner until the words are empty, write them and set them full. -/
  | stsy (o : MemSy)
  /-- PF (R155): Prefetch the line holding the address towards the core. -/
  | pf (o : MemPf)
  /-- AMO_ADD (R157): Atomic add at the home, returning the old value. -/
  | amoAdd (o : Amo)
  /-- AMO_AND (R157): Atomic and at the home. -/
  | amoAnd (o : Amo)
  /-- AMO_OR (R157): Atomic or at the home. -/
  | amoOr (o : Amo)
  /-- AMO_XOR (R157): Atomic exclusive or at the home. -/
  | amoXor (o : Amo)
  /-- AMO_MIN (R157): Atomic signed minimum at the home. -/
  | amoMin (o : Amo)
  /-- AMO_MAX (R157): Atomic signed maximum at the home. -/
  | amoMax (o : Amo)
  /-- AMO_MINU (R157): Atomic unsigned minimum at the home. -/
  | amoMinu (o : Amo)
  /-- AMO_MAXU (R157): Atomic unsigned maximum at the home. -/
  | amoMaxu (o : Amo)
  /-- AMO_SWAP (R157): Atomic swap at the home. -/
  | amoSwap (o : Amo)
  /-- AMO_CAS (R157): Atomic compare-and-set at the home against the value in SD. -/
  | amoCas (o : Amo)
  /-- AMO_FADD (R157): Atomic floating-point add at the home, FP32 or FP64. -/
  | amoFadd (o : Amo)
  /-- RED_ADD (R159): Spawn a remote-update thread that adds at the home. -/
  | redAdd (o : Red)
  /-- RED_FADD (R159): Spawn a remote floating-point add. -/
  | redFadd (o : Red)
  /-- RED_MIN (R159): Spawn a remote signed minimum. -/
  | redMin (o : Red)
  /-- RED_MAX (R159): Spawn a remote signed maximum. -/
  | redMax (o : Red)
  /-- RED_OR (R159): Spawn a remote or. -/
  | redOr (o : Red)
  /-- RED_AND (R159): Spawn a remote and. -/
  | redAnd (o : Red)
  /-- FENCE_ACQ (R160): Wait for earlier loads and atomics and make later loads acquire at the scope. -/
  | fenceAcq (sc : BitVec 2)
  /-- FENCE_REL (R160): Park until the release wait of the scope is over, then clear touched bits. -/
  | fenceRel (sc : BitVec 2)
  /-- FENCE_FULL (R161): Release then acquire at the scope, ordering ring operations at package or system scope. -/
  | fenceFull (sc : BitVec 2)
  /-- GO (R162): Migrate a mobile thread to the home of an address without accessing it. -/
  | go (sa : BitVec 5)
  /-- VF_ADD (R236): Vector float add. -/
  | vfAdd (o : Vv)
  /-- VF_SUB (R236): Vector float subtract. -/
  | vfSub (o : Vv)
  /-- VF_MUL (R236): Vector float multiply. -/
  | vfMul (o : Vv)
  /-- VF_FMA (R236): Vector fused multiply-add into VD. -/
  | vfFma (o : Vv)
  /-- VF_FMS (R236): Vector fused multiply-subtract. -/
  | vfFms (o : Vv)
  /-- VF_FNMA (R236): Vector fused negated multiply-add. -/
  | vfFnma (o : Vv)
  /-- VF_MIN (R236): Vector float minimum. -/
  | vfMin (o : Vv)
  /-- VF_MAX (R236): Vector float maximum. -/
  | vfMax (o : Vv)
  /-- VF_ABS (R236): Vector float absolute value. -/
  | vfAbs (o : V2)
  /-- VF_NEG (R236): Vector float negation. -/
  | vfNeg (o : V2)
  /-- VF_DIV (R236): Vector float divide. -/
  | vfDiv (o : Vv)
  /-- VF_SQRT (R236): Vector float square root. -/
  | vfSqrt (o : V2)
  /-- VFS_ADD (R236): Vector-scalar float add. -/
  | vfsAdd (o : Vs)
  /-- VFS_SUB (R236): Vector-scalar float subtract. -/
  | vfsSub (o : Vs)
  /-- VFS_MUL (R236): Vector-scalar float multiply. -/
  | vfsMul (o : Vs)
  /-- VFS_FMA (R236): Vector-scalar fused multiply-add. -/
  | vfsFma (o : Vs)
  /-- VFS_FMS (R236): Vector-scalar fused multiply-subtract. -/
  | vfsFms (o : Vs)
  /-- VFS_FNMA (R236): Vector-scalar fused negated multiply-add. -/
  | vfsFnma (o : Vs)
  /-- VFS_MIN (R236): Vector-scalar float minimum. -/
  | vfsMin (o : Vs)
  /-- VFS_MAX (R236): Vector-scalar float maximum. -/
  | vfsMax (o : Vs)
  /-- VFS_ABS (R236): Vector float absolute value, VS form. -/
  | vfsAbs (o : V2)
  /-- VFS_NEG (R236): Vector float negation, VS form. -/
  | vfsNeg (o : V2)
  /-- VFS_DIV (R236): Vector-scalar float divide. -/
  | vfsDiv (o : Vs)
  /-- VFS_SQRT (R236): Vector float square root, VS form. -/
  | vfsSqrt (o : V2)
  /-- VI_ADD (R237): Vector integer add. -/
  | viAdd (o : Vv)
  /-- VI_SUB (R237): Vector integer subtract. -/
  | viSub (o : Vv)
  /-- VI_MUL (R237): Vector integer multiply. -/
  | viMul (o : Vv)
  /-- VI_MULH (R237): Vector signed multiply, upper half. -/
  | viMulh (o : Vv)
  /-- VI_MIN (R237): Vector signed minimum. -/
  | viMin (o : Vv)
  /-- VI_MAX (R237): Vector signed maximum. -/
  | viMax (o : Vv)
  /-- VI_MINU (R237): Vector unsigned minimum. -/
  | viMinu (o : Vv)
  /-- VI_MAXU (R237): Vector unsigned maximum. -/
  | viMaxu (o : Vv)
  /-- VI_ABS (R237): Vector integer absolute value. -/
  | viAbs (o : V2)
  /-- VI_NEG (R237): Vector integer negation. -/
  | viNeg (o : V2)
  /-- VI_ADDS (R237): Vector saturating signed add. -/
  | viAdds (o : Vv)
  /-- VI_SUBS (R237): Vector saturating signed subtract. -/
  | viSubs (o : Vv)
  /-- VIS_ADD (R237): Vector-scalar integer add. -/
  | visAdd (o : Vs)
  /-- VIS_SUB (R237): Vector-scalar integer subtract. -/
  | visSub (o : Vs)
  /-- VIS_MUL (R237): Vector-scalar integer multiply. -/
  | visMul (o : Vs)
  /-- VIS_MULH (R237): Vector-scalar signed multiply, upper half. -/
  | visMulh (o : Vs)
  /-- VIS_MIN (R237): Vector-scalar signed minimum. -/
  | visMin (o : Vs)
  /-- VIS_MAX (R237): Vector-scalar signed maximum. -/
  | visMax (o : Vs)
  /-- VIS_MINU (R237): Vector-scalar unsigned minimum. -/
  | visMinu (o : Vs)
  /-- VIS_MAXU (R237): Vector-scalar unsigned maximum. -/
  | visMaxu (o : Vs)
  /-- VIS_ABS (R237): Vector integer absolute value, VS form. -/
  | visAbs (o : V2)
  /-- VIS_NEG (R237): Vector integer negation, VS form. -/
  | visNeg (o : V2)
  /-- VIS_ADDS (R237): Vector-scalar saturating add. -/
  | visAdds (o : Vs)
  /-- VIS_SUBS (R237): Vector-scalar saturating subtract. -/
  | visSubs (o : Vs)
  /-- VL_AND (R238): Vector bitwise and. -/
  | vlAnd (o : Vv)
  /-- VL_OR (R238): Vector bitwise or. -/
  | vlOr (o : Vv)
  /-- VL_XOR (R238): Vector bitwise exclusive or. -/
  | vlXor (o : Vv)
  /-- VL_ANDN (R238): Vector a AND NOT b. -/
  | vlAndn (o : Vv)
  /-- VL_SHL (R238): Vector shift left. -/
  | vlShl (o : Vv)
  /-- VL_SHR (R238): Vector logical shift right. -/
  | vlShr (o : Vv)
  /-- VL_SRA (R238): Vector arithmetic shift right. -/
  | vlSra (o : Vv)
  /-- VLS_AND (R238): Vector-scalar bitwise and. -/
  | vlsAnd (o : Vs)
  /-- VLS_OR (R238): Vector-scalar bitwise or. -/
  | vlsOr (o : Vs)
  /-- VLS_XOR (R238): Vector-scalar exclusive or. -/
  | vlsXor (o : Vs)
  /-- VLS_ANDN (R238): Vector-scalar a AND NOT b. -/
  | vlsAndn (o : Vs)
  /-- VLS_SHL (R238): Vector shift left by a scalar count. -/
  | vlsShl (o : Vs)
  /-- VLS_SHR (R238): Vector logical shift right by a scalar count. -/
  | vlsShr (o : Vs)
  /-- VLS_SRA (R238): Vector arithmetic shift right by a scalar count. -/
  | vlsSra (o : Vs)
  /-- VCMP_FEQ (R239): Vector float equality into a mask. -/
  | vcmpFeq (o : Vc)
  /-- VCMP_FLT (R239): Vector float less-than into a mask. -/
  | vcmpFlt (o : Vc)
  /-- VCMP_FLE (R239): Vector float less-or-equal into a mask. -/
  | vcmpFle (o : Vc)
  /-- VCMP_FUN (R239): Vector unordered test into a mask. -/
  | vcmpFun (o : Vc)
  /-- VCMP_IEQ (R239): Vector integer equality into a mask. -/
  | vcmpIeq (o : Vc)
  /-- VCMP_ILT (R239): Vector signed less-than into a mask. -/
  | vcmpIlt (o : Vc)
  /-- VCMP_ILTU (R239): Vector unsigned less-than into a mask. -/
  | vcmpIltu (o : Vc)
  /-- VCMP_ILE (R239): Vector signed less-or-equal into a mask. -/
  | vcmpIle (o : Vc)
  /-- VCMPS_FEQ (R239): Vector-scalar float equality into a mask. -/
  | vcmpsFeq (o : Vcs)
  /-- VCMPS_FLT (R239): Vector-scalar float less-than into a mask. -/
  | vcmpsFlt (o : Vcs)
  /-- VCMPS_FLE (R239): Vector-scalar float less-or-equal into a mask. -/
  | vcmpsFle (o : Vcs)
  /-- VCMPS_FUN (R239): Vector-scalar unordered test into a mask. -/
  | vcmpsFun (o : Vcs)
  /-- VCMPS_IEQ (R239): Vector-scalar integer equality into a mask. -/
  | vcmpsIeq (o : Vcs)
  /-- VCMPS_ILT (R239): Vector-scalar signed less-than into a mask. -/
  | vcmpsIlt (o : Vcs)
  /-- VCMPS_ILTU (R239): Vector-scalar unsigned less-than into a mask. -/
  | vcmpsIltu (o : Vcs)
  /-- VCMPS_ILE (R239): Vector-scalar signed less-or-equal into a mask. -/
  | vcmpsIle (o : Vcs)
  /-- VSEL (R240): Select lanes of VA or VB by a mask. -/
  | vsel (o : Vv)
  /-- VCVT_NARROW (R242): Narrow float elements to a smaller format by the rounding mode. -/
  | vcvtNarrow (o : Vv)
  /-- VCVT_NARROWS (R242): Narrow float elements with stochastic rounding. -/
  | vcvtNarrows (o : Vv)
  /-- VCVT_WIDEN (R242): Widen elements to the float type, optionally scaled. -/
  | vcvtWiden (o : Vv)
  /-- VCVT_I2F (R242): Convert integer elements to float. -/
  | vcvtI2f (o : Vv)
  /-- VCVT_F2I (R242): Convert float elements to integers. -/
  | vcvtF2i (o : Vv)
  /-- VRED_FSUM (R219): Float sum of the active elements in a fixed pairwise tree. -/
  | vredFsum (o : V2)
  /-- VRED_FMAX (R220): Float maximum over the active elements. -/
  | vredFmax (o : V2)
  /-- VRED_FMIN (R220): Float minimum over the active elements. -/
  | vredFmin (o : V2)
  /-- VRED_ISUM (R220): Integer sum modulo 2^32 of the active elements. -/
  | vredIsum (o : V2)
  /-- VRED_IMAX (R220): Signed maximum of the active elements. -/
  | vredImax (o : V2)
  /-- VRED_IMIN (R220): Signed minimum of the active elements. -/
  | vredImin (o : V2)
  /-- VRED_AND (R220): Bitwise and of the active elements. -/
  | vredAnd (o : V2)
  /-- VRED_OR (R220): Bitwise or of the active elements. -/
  | vredOr (o : V2)
  /-- VPERM_PERM (R245): Permute elements by per-element indices. -/
  | vpermPerm (o : Vv)
  /-- VPERM_ROT (R245): Rotate elements by k. -/
  | vpermRot (o : Vv)
  /-- VPERM_BCASTL (R245): Broadcast element k. -/
  | vpermBcastl (o : Vv)
  /-- VPERM_ZIP (R245): Interleave two vectors. -/
  | vpermZip (o : Vv)
  /-- VPERM_UNZIP (R245): De-interleave even and odd elements. -/
  | vpermUnzip (o : V2)
  /-- VPERM_COMPRESS (R245): Pack the active elements to the front and zero the rest. -/
  | vpermCompress (o : V2)
  /-- VPERM_EXPAND (R245): Spread leading elements to the active positions. -/
  | vpermExpand (o : V2)
  /-- VPERM_IOTA (R245): Write each element's index. -/
  | vpermIota (vd : BitVec 5) (vm : BitVec 3) (ty : BitVec 2)
  /-- VSF_EX2 (R246): Vector 2^x. -/
  | vsfEx2 (o : V2)
  /-- VSF_LG2 (R246): Vector log2. -/
  | vsfLg2 (o : V2)
  /-- VSF_RCP (R246): Vector reciprocal. -/
  | vsfRcp (o : V2)
  /-- VSF_RSQRT (R246): Vector reciprocal square root. -/
  | vsfRsqrt (o : V2)
  /-- VSF_SIN (R246): Vector sine. -/
  | vsfSin (o : V2)
  /-- VSF_COS (R246): Vector cosine. -/
  | vsfCos (o : V2)
  /-- VSF_TANH (R246): Vector hyperbolic tangent. -/
  | vsfTanh (o : V2)
  /-- VSF_SIGM (R246): Vector logistic sigmoid. -/
  | vsfSigm (o : V2)
  /-- VMV_SPLAT (R247): Write a scalar into every active element. -/
  | vmvSplat (vd : BitVec 5) (sb : BitVec 5) (vm : BitVec 3) (ty : BitVec 2)
  /-- VMV_EXTRACT (R247): Sign-extend one element into a scalar register. -/
  | vmvExtract (sd : BitVec 4) (va : BitVec 5) (sb : BitVec 5) (ty : BitVec 2)
  /-- VMV_INSERT (R247): Write a scalar into one element. -/
  | vmvInsert (vd : BitVec 5) (sa : BitVec 5) (sb : BitVec 5) (ty : BitVec 2)
  /-- VMV_MTOS (R247): Copy one half of a mask into a scalar register. -/
  | vmvMtos (sd : BitVec 4) (half : BitVec 1) (ma : BitVec 3)
  /-- VMV_STOM (R247): Copy a scalar register into one half of a mask. -/
  | vmvStom (half : BitVec 1) (md : BitVec 3) (sb : BitVec 5)
  /-- VLD (R248): Vector load, unit-stride, strided or broadcast, making V pending. -/
  | vld (o : Vm)
  /-- VST (R248): Vector store, unit-stride or strided. -/
  | vst (o : Vm)
  /-- VGTH (R248): Vector gather by per-lane byte offsets. -/
  | vgth (o : Vg)
  /-- VSCT (R248): Vector scatter by per-lane byte offsets. -/
  | vsct (o : Vg)
  /-- GANG_FORM (R289): Open a pending gang and wait for its members to join. -/
  | gangForm (sa : BitVec 5) (sd : BitVec 4)
  /-- GANG_JOIN (R289): Join a pending gang led from a named core; the last join forms the gang. -/
  | gangJoin (sa : BitVec 5) (sd : BitVec 4)
  /-- GANG_DISBAND (R289): End the formed gang after this word. -/
  | gangDisband
  /-- GANG_IDX (R289): Read the gang index register. -/
  | gangIdx (sd : BitVec 4)
  /-- MMA_E4M3 (R259): Check and queue a scaled E4M3 matrix product into an accumulator. -/
  | mmaE4m3 (o : Mx)
  /-- MMA_E5M2 (R259): Check and queue a scaled E5M2 matrix product. -/
  | mmaE5m2 (o : Mx)
  /-- MMA_E4M3E5M2 (R259): Check and queue a scaled E4M3 by E5M2 matrix product. -/
  | mmaE4m3e5m2 (o : Mx)
  /-- MMA_E2M1 (R259): Check and queue a block-scaled E2M1 matrix product. -/
  | mmaE2m1 (o : Mx)
  /-- MMA_BF16 (R259): Check and queue a BF16 matrix product. -/
  | mmaBf16 (o : Mx)
  /-- MMA_FP16 (R259): Check and queue an FP16 matrix product. -/
  | mmaFp16 (o : Mx)
  /-- MMA_I8 (R259): Check and queue an INT8 matrix product. -/
  | mmaI8 (o : Mx)
  /-- MMA_U8I8 (R259): Check and queue a UINT8 by INT8 matrix product. -/
  | mmaU8i8 (o : Mx)
  /-- ACC_ZERO (R265): Queue the zeroing of an accumulator. -/
  | accZero (an : BitVec 3)
  /-- ACC_LD (R265): Queue a load of an accumulator from memory with a token. -/
  | accLd (sa : BitVec 5) (sb : BitVec 5) (sd : BitVec 4) (sc : BitVec 2) (an : BitVec 3)
  /-- ACC_ST (R265): Queue a store of an accumulator to memory with a token. -/
  | accSt (sa : BitVec 5) (sb : BitVec 5) (sd : BitVec 4) (sc : BitVec 2) (an : BitVec 3)
  /-- ACC_ROW_READ (R265): Copy one accumulator row into a vector register. -/
  | accRowRead (va : BitVec 5) (sb : BitVec 5) (an : BitVec 3)
  /-- ACC_ROW_WRITE (R265): Copy a vector register into one accumulator row. -/
  | accRowWrite (va : BitVec 5) (sb : BitVec 5) (an : BitVec 3)
  /-- ACC_SCALE (R265): Queue the scaling of every accumulator element. -/
  | accScale (sa : BitVec 5) (an : BitVec 3)
  /-- SKD_SET (R263): Configure a sparsity stream. -/
  | skdSet (sa : BitVec 5) (sb : BitVec 5) (sk : BitVec 2)
  /-- SKD_RESET (R263): Reset a sparsity stream's position. -/
  | skdReset (sk : BitVec 2)
  /-- SKD_POS (R263): Read a sparsity stream register. -/
  | skdPos (sd : BitVec 4) (sk : BitVec 2)
  /-- CB_CFG (R266): Configure a circular buffer. -/
  | cbCfg (sa : BitVec 5) (sb : BitVec 5) (sd : BitVec 4) (n : BitVec 4)
  /-- CB_PUT (R266): Release and advance a buffer's PROD. -/
  | cbPut (sa : BitVec 5) (sd : BitVec 4) (n : BitVec 4)
  /-- CB_GET (R266): Release and advance a buffer's CONS. -/
  | cbGet (sa : BitVec 5) (sd : BitVec 4) (n : BitVec 4)
  /-- CB_ROOM (R266): Read a buffer's room. -/
  | cbRoom (sd : BitVec 4) (n : BitVec 4)
  /-- CB_COUNT (R266): Read a buffer's count, ERR and BND. -/
  | cbCount (sd : BitVec 4) (n : BitVec 4)
  /-- CB_WAIT (R266): Park until a buffer's count or room reaches a value, then acquire. -/
  | cbWait (sa : BitVec 5) (room : BitVec 1) (n : BitVec 4)
  /-- ENG_BIND (R270): Bind an engine operation from a LOCAL descriptor. -/
  | engBind (sa : BitVec 5) (sd : BitVec 4)
  /-- ENG_ARM (R270): Arm a binding to fire whenever allowed. -/
  | engArm (sa : BitVec 5)
  /-- ENG_ONCE (R270): Arm a binding for one firing. -/
  | engOnce (sa : BitVec 5)
  /-- ENG_UNBIND (R270): Stop and free a binding after its firing in flight. -/
  | engUnbind (sa : BitVec 5)
  /-- ENG_STAT (R270): Read a binding's state and firing count. -/
  | engStat (sa : BitVec 5) (sd : BitVec 4)
  /-- COPY_LIN (R272): Issue a linear asynchronous copy with a token. -/
  | copyLin (sa : BitVec 5) (sb : BitVec 5) (sd : BitVec 4) (c : BitVec 2)
  /-- COPY_TILE2D (R272): Issue a two-dimensional asynchronous copy with a token. -/
  | copyTile2d (sa : BitVec 5) (sb : BitVec 5) (sd : BitVec 4) (c : BitVec 2)
  /-- COPY_PEER (R439): Issue a copy of RAW bytes to global memory of another package. -/
  | copyPeer (sa : BitVec 5) (sb : BitVec 5) (sd : BitVec 4) (c : BitVec 2)
  /-- COPY_BCAST (R272): Issue a broadcast copy to the scratchpads of named cluster cores. -/
  | copyBcast (sa : BitVec 5) (sb : BitVec 5) (sd : BitVec 4) (c : BitVec 2)
  /-- BANK_FMTSET (R274): Set a scratchpad bank's format code. -/
  | bankFmtset (sa : BitVec 5) (sd : BitVec 4) (n : BitVec 4)
  /-- BANK_FMTGET (R274): Read a bank's state register. -/
  | bankFmtget (sd : BitVec 4) (n : BitVec 4)
  /-- BANK_GATE (R274): Request power-gating of a bank. -/
  | bankGate (n : BitVec 4)
  /-- BANK_WAKE (R274): Start a wake of a gated bank. -/
  | bankWake (n : BitVec 4)
  /-- RLK_QUERY (R276): Read half of a range-lock entry. -/
  | rlkQuery (sa : BitVec 5) (sd : BitVec 4) (h : BitVec 1)
  /-- RLK_DROP (R276): Supervisor invalidates a range-lock entry. -/
  | rlkDrop (sa : BitVec 5)
  /-- BAR_REG (R296): Register the thread on a barrier tag. -/
  | barReg (sa : BitVec 5) (sb : BitVec 5) (sd : BitVec 4) (bn : BitVec 3)
  /-- BAR_ARRIVE (R296): Arrive for the next phase of a tag. -/
  | barArrive (sd : BitVec 4) (bn : BitVec 3)
  /-- BAR_WAIT (R296): Park until a phase of a tag has completed. -/
  | barWait (sa : BitVec 5) (bn : BitVec 3)
  /-- BAR_ARRW (R296): Arrive and wait for the same phase. -/
  | barArrw (sd : BitVec 4) (bn : BitVec 3)
  /-- BAR_DROP (R297): Remove the thread from a barrier tag. -/
  | barDrop (bn : BitVec 3)
  /-- AR_BEGIN (R326): Release, checkpoint and open an atomic region with a step id. -/
  | arBegin (sa : BitVec 5) (sd : BitVec 4)
  /-- AR_ABORT (R337): End the region without a place, restore the checkpoint and continue after ar.begin. -/
  | arAbort
  /-- AR_DRAW (R332): Write the region's draw for its step id. -/
  | arDraw (sd : BitVec 4)
  /-- AR_STATUS (R339): Read LAST, how the latest region ended. -/
  | arStatus (sd : BitVec 4)
  /-- PCOMMIT (R333): Take a place, validate, and publish or discard the region by its ratio and draw. -/
  | pcommit (sa : BitVec 5) (sd : BitVec 4)
  /-- ANNEAL_CFG (R345): Configure and enable the launch's annealing unit. -/
  | annealCfg (sa : BitVec 5) (sb : BitVec 5) (sd : BitVec 4)
  /-- ANNEAL_OFF (R345): Disable ratio scaling. -/
  | annealOff (sd : BitVec 4)
  /-- ANNEAL_RESET (R345): Reset OFFSET and the window counters. -/
  | annealReset (sd : BitVec 4)
  /-- CACHE_WB (R323): Write back dirty lines of a range to HBM. -/
  | cacheWb (sa : BitVec 5) (sb : BitVec 5)
  /-- CACHE_INV (R323): Invalidate lines of a range in the core's L1. -/
  | cacheInv (sa : BitVec 5) (sb : BitVec 5)
  /-- CACHE_HARVEST (R401): Merge the cluster's dirty-page logs. -/
  | cacheHarvest
  /-- CACHE_RETAIN (R323): Set the retention code of L2 lines of a range. -/
  | cacheRetain (sa : BitVec 5) (sb : BitVec 5) (code : BitVec 2)
  /-- CACHE_TLBI (R397): Supervisor invalidates translations in every die's TLB and core caches. -/
  | cacheTlbi (sa : BitVec 5) (sb : BitVec 5) (kind : BitVec 2)
  /-- LREC_PATCH (R355): Write the patchable bits of a dword of a resting launch record. -/
  | lrecPatch (sa : BitVec 5) (sb : BitVec 5) (sd : BitVec 4) (n : BitVec 5)
  /-- LREC_ARM (R356): Release, check and arm a launch record, loading the walkers. -/
  | lrecArm (sa : BitVec 5) (sd : BitVec 4)
  /-- LREC_QUERY (R355): Read a dword of a launch record. -/
  | lrecQuery (sa : BitVec 5) (sd : BitVec 4) (n : BitVec 5)
  /-- LREC_CANCEL (R360): Cancel a busy launch record. -/
  | lrecCancel (sa : BitVec 5) (sd : BitVec 4)
  /-- LREC_WAIT (R361): Park until a record is in a rest state, then acquire. -/
  | lrecWait (sa : BitVec 5) (sd : BitVec 4)
  /-- WALK_NEXT (R367): Release, retire the current tile and take the walker's next ordinal. -/
  | walkNext (sd : BitVec 4)
  /-- WALK_INFO (R366): Read walker and tile-grid information by selector. -/
  | walkInfo (sd : BitVec 4) (sel : BitVec 6)
  /-- UME_CFG (R381): Configure or release an unmasking-engine context. -/
  | umeCfg (sa : BitVec 5) (sd : BitVec 4) (ctx : BitVec 4)
  /-- UME_ROUND (R382): Release and request a round of a context with a token. -/
  | umeRound (sa : BitVec 5) (sd : BitVec 4) (ctx : BitVec 4)
  /-- UME_STAT (R383): Read a context's status by selector. -/
  | umeStat (sd : BitVec 4) (sel : BitVec 2) (ctx : BitVec 4)
  /-- UME_DIRTY (R383): Read the latest round's dirty-list counts. -/
  | umeDirty (sd : BitVec 4) (ctx : BitVec 4)
  /-- RING_PEEK (R415): Queue a read of a committed dword or the metadata of a bobbin. -/
  | ringPeek (sa : BitVec 5) (sd : BitVec 4) (w : BitVec 4)
  /-- RING_BOARD (R416): Queue a board of a bobbin into a hold buffer and park. -/
  | ringBoard (sa : BitVec 5) (sd : BitVec 4) (hn : BitVec 2)
  /-- RING_HGET (R417): Read a dword of a hold copy. -/
  | ringHget (sd : BitVec 4) (w : BitVec 3) (hn : BitVec 2)
  /-- RING_HSET (R417): Write a dword of a hold copy. -/
  | ringHset (sa : BitVec 5) (w : BitVec 3) (hn : BitVec 2)
  /-- RING_ALIGHT (R418): Queue the write-back of a hold copy as the bobbin's pending payload. -/
  | ringAlight (hn : BitVec 2)
  /-- RING_REL (R418): Queue the release of a hold without writing. -/
  | ringRel (hn : BitVec 2)
  /-- RING_RADD (R419): Queue an add into a pending dword in passing. -/
  | ringRadd (sa : BitVec 5) (sb : BitVec 5) (w : BitVec 3)
  /-- RING_RMAX (R419): Queue a maximum into a pending dword in passing. -/
  | ringRmax (sa : BitVec 5) (sb : BitVec 5) (sgn : BitVec 1) (w : BitVec 3)
  /-- MSG_SEND (R441): Release at system scope and send a 64-byte message to a core of another package. -/
  | msgSend (sa : BitVec 5) (sb : BitVec 5) (sd : BitVec 4) (prio : BitVec 1)
  /-- MSG_RECV (R442): Copy and remove the oldest fabric message of the ASID, acquiring at system scope. -/
  | msgRecv (sa : BitVec 5) (sd : BitVec 4)
  /-- MSG_PROBE (R443): Report whether a package is reachable and by which links. -/
  | msgProbe (sa : BitVec 5) (sd : BitVec 4)
  /-- HINT_IMMX (R65): Record high immediate bits in the hint latch. -/
  | hintImmx (p : BitVec 24)
  /-- HINT_SCL (R65): Record the scale vector register in the hint latch. -/
  | hintScl (v : BitVec 5)
  /-- HINT_LAT (R65): Record an expected latency class in the hint latch. -/
  | hintLat (lat : BitVec 3)
  /-- HINT_RH (R65): Record a retention code in the hint latch. -/
  | hintRh (code : BitVec 2)
  /-- HINT_SRK (R65): Record a stochastic-rounding key modifier in the hint latch. -/
  | hintSrk (k : BitVec 24)
  /-- HINT_NOP (R65): Take an issue turn with no latch effect. -/
  | hintNop
  /-- HINT_UNNAMED (R73): Hint codes 0xF6-0xFE execute as hint.nop. -/
  | hintUnnamed (op : BitVec 8) (p : BitVec 24)
  /-- ILLEGAL_WORD_ZEROS (R70): Issuing the all-zero word traps with cause 0x01. -/
  | illegalWordZeros
  /-- ILLEGAL_WORD_ONES (R70): Issuing the all-ones word traps with cause 0x01. -/
  | illegalWordOnes
  /-- RESERVED_ENCODING (R72): Issuing a reserved encoding parks every thread of the core and posts a core fault. -/
  | reservedEncoding (w : W32)
deriving DecidableEq, Repr

end Sys2Proof
end

