-- ==== Sys2Proof/WellFormed.lean ====
section
/-! DEFINITION. Well-formed steps: the field conditions whose breach is a reserved encoding (R56, R61, R63, R71,
R157, R159, R241, R248, R254, R271, R323, R365, R412). The bits of a word that no field of `Instr` holds are checked
by the decoder. A step that is no instruction word carries no such condition. -/

namespace Sys2Proof

/-- `TY` = 11 is reserved (R59, R71). -/
def tyOk (ty : BitVec 2) : Bool := ty != 3#2

/-- `SZ` 5-7 are reserved (R71). -/
def szOk (sz : BitVec 3) : Bool := decide (sz.toNat ≤ 4)

/-- `SZ` 5-7 and a quad with an odd `SD` are reserved (R56, R71). -/
def memOk (o : Mem) : Bool := szOk o.sz && !(o.sz == 4#3 && o.sd.getLsbD 0)

/-- `ldsy` and `stsy` accept `SZ` 2 and 3 (R143). -/
def memSyOk (o : MemSy) : Bool := o.sz == 2#3 || o.sz == 3#3

/-- `fadd` accepts sizes 4 and 8 (R157, R159). -/
def faddSzOk (sz : BitVec 2) : Bool := sz.getLsbD 1

/-- `EW` = 3 is reserved (R71). -/
def ewOk (ew : BitVec 2) : Bool := ew != 3#2

/-- `EW` = 3 and `MD` = 3 are reserved (R71). -/
def vmOk (o : Vm) : Bool := ewOk o.ew && o.md != 3#2

/-- `vst` has no broadcast (R248). -/
def vstOk (o : Vm) : Bool := o.md != 2#2

/-- A register-group field is 0 or 16, a descriptor field an even register (R63). -/
def mxOperandOk (sel : BitVec 1) (f : BitVec 5) : Bool :=
  if sel = 1#1 then !f.getLsbD 0 else f == 0#5 || f == 16#5

/-- The field conditions of every MX form (R63, R71). -/
def mxOk (o : Mx) : Bool := mxOperandOk o.asel o.a && mxOperandOk o.bsel o.b && decide (o.sk.toNat ≤ 4)

/-- Forms 3-7 take no sparsity stream (R254). -/
def mxNoSk (o : Mx) : Bool := o.sk == 0#3

/-- A 16-bit form's register group starts at `v0` (R254). -/
def mxGroup16 (o : Mx) : Bool := !(o.asel == 0#1 && o.a == 16#5) && !(o.bsel == 0#1 && o.b == 16#5)

/-- Codes that narrow, narrows and widen accept (R241). -/
def cvtNarrowOk (ty : BitVec 2) (code : BitVec 5) : Bool :=
  if ty = 0#2 then decide (2 ≤ code.toNat) && decide (code.toNat ≤ 6)
  else decide (4 ≤ code.toNat) && decide (code.toNat ≤ 6)

/-- Codes that i2f and f2i accept (R241). -/
def cvtIntOk (code : BitVec 5) : Bool := decide (7 ≤ code.toNat) && decide (code.toNat ≤ 9)

/-- A register pair starts at an even register (R271). -/
def evenSrc (f : BitVec 5) : Bool := !f.getLsbD 0

/-- `walk.next` may not name `s0`-`s3` or `s5` (R365). -/
def walkNextOk (sd : BitVec 4) : Bool := decide (4 ≤ sd.toNat) && sd != 5#4

/-- The field conditions of a step. -/
def wellFormed : Instr → Bool
  | .faultMessageDelivery _ => true
  | .loadCompletion _ => true
  | .storePerformAtHome _ => true
  | .atomicAtHome _ => true
  | .remoteUpdate _ => true
  | .migrationDeparture _ _ => true
  | .migrationArrival _ => true
  | .codeAbsent _ _ => true
  | .codeStartMessage _ _ _ => true
  | .codeRefusal _ _ => true
  | .syncAccessServe _ => true
  | .syncRetryLimit _ => true
  | .mailboxDelivery _ => true
  | .resumeMessage _ => true
  | .clusterControlWrite _ => true
  | .clusterControlRead _ => true
  | .barrierRelease _ => true
  | .heldFpTrapDelivery _ => true
  | .mmaEngineStart _ => true
  | .mmaOperandsConsumed _ => true
  | .mmaCompletion _ => true
  | .accTransferCompletion _ => true
  | .copyEngineStart _ => true
  | .copyCompletion _ => true
  | .engineFiring _ _ => true
  | .firingOperandsConsumed _ _ => true
  | .firingCompletion _ _ => true
  | .bankGateEffect _ _ => true
  | .bankWakeEnd _ _ => true
  | .allocationClearDone _ => true
  | .releaseClearDone _ _ => true
  | .storeBufferDrain _ _ => true
  | .signaturePlacement _ _ => true
  | .releaseProbeEcho _ _ => true
  | .writeLogAppend _ => true
  | .dirtyLogMerge _ => true
  | .deadlockSweep => true
  | .chunkCommit _ => true
  | .regionSquash _ => true
  | .taskStart _ => true
  | .launchCompletion _ => true
  | .walkerHandout _ _ => true
  | .walkerSplit _ _ _ => true
  | .preemptionRequest => true
  | .preemptSafePointStop _ => true
  | .preemptTimeoutStop _ => true
  | .preemptionSave => true
  | .preemptionResume => true
  | .umeCfgBlockRead _ => true
  | .umeRoundExecution _ => true
  | .umeRoundCompletion _ => true
  | .stationPassage _ _ => true
  | .seamCrossing _ => true
  | .holdBreak _ => true
  | .flitData _ _ _ => true
  | .flitReplayRequest _ _ => true
  | .flitAcknowledge _ _ => true
  | .flitIdle _ _ => true
  | .laneSparing _ _ => true
  | .portTraining _ _ => true
  | .portSurpriseDown _ => true
  | .copyPeerArrival _ _ _ _ _ _ => true
  | .fabricMessageArrival _ => true
  | .hostWrite _ _ _ _ => true
  | .hostRead _ _ _ => true
  | .doorbellWrite _ _ => true
  | .hwakeWrite _ _ => true
  | .mgmtReadRegister _ => true
  | .mgmtWriteRegister _ _ => true
  | .mgmtLoadOzrum _ _ => true
  | .mgmtArmLaunch _ => true
  | .trayQuiesce => true
  | .trayDrain => true
  | .trayPoweroff => true
  | .trayReinsertion _ => true
  | .pkgidWrite _ => true
  | .routeEntryWrite _ _ => true
  | .pcapRegisterWrite _ _ => true
  | .pcapStatusClear _ => true
  | .wrlogWrite _ _ => true
  | .lrverWrite _ _ => true
  | .registerWrite _ _ _ => true
  | .powerWindowBoundary _ _ => true
  | .powerOnReset _ => true
  | .heartbeatMiss _ _ _ => true
  | .firmwareUpdate _ _ _ => true
  | .coreLastingFault _ => true
  | .hbmUncorrectableRead _ _ _ _ => true
  | .translationProbe _ => true
  | .faultAnswerRetry _ _ _ _ => true
  | .faultAnswerFail _ _ => true
  | .spdmGetVersion => true
  | .spdmGetCapabilities => true
  | .spdmNegotiateAlgorithms _ => true
  | .spdmGetDigests => true
  | .spdmGetCertificate _ _ => true
  | .spdmChallenge _ => true
  | .spdmGetMeasurements _ => true
  | .tidReleaseMessage _ => true
  | .measurementExtendRequest _ _ => true
  | .bra _ => true
  | .call _ => true
  | .jrGo _ => true
  | .jrLink _ => true
  | .jrRet _ => true
  | .taskExit => true
  | .taskYield => true
  | .taskPark => true
  | .taskHaltHalt _ _ => true
  | .taskHaltResume _ _ => true
  | .taskHaltRetire _ _ => true
  | .trapSys _ => true
  | .trapBrk _ => true
  | .trapAssert _ _ => true
  | .eret => true
  | .sysrGet _ _ => true
  | .sysrSet _ _ => true
  | .sysrSetb _ _ => true
  | .sysrClrb _ _ => true
  | .modeSetrm _ => true
  | .modeMobile => true
  | .modeAnchor => true
  | .modeGetfl _ => true
  | .modeClrfl _ => true
  | .mbxPost _ _ _ _ => true
  | .mbxFetch _ _ => true
  | .mbxCount _ => true
  | .waitFull _ => true
  | .waitAny _ _ => true
  | .aluAdd _ => true
  | .aluSub _ => true
  | .aluMul _ => true
  | .aluMulh _ => true
  | .aluMulhu _ => true
  | .aluAnd _ => true
  | .aluOr _ => true
  | .aluXor _ => true
  | .aluAndn _ => true
  | .aluOrn _ => true
  | .aluShl _ => true
  | .aluShr _ => true
  | .aluSra _ => true
  | .aluRot _ => true
  | .aluMin _ => true
  | .aluMax _ => true
  | .alxMinu _ => true
  | .alxMaxu _ => true
  | .alxDiv _ => true
  | .alxDivu _ => true
  | .alxRem _ => true
  | .alxRemu _ => true
  | .alxClz _ => true
  | .alxCtz _ => true
  | .alxPopc _ => true
  | .alxBrev _ => true
  | .alxBswap _ => true
  | .alxSel _ => true
  | .alxLea1 _ => true
  | .alxLea2 _ => true
  | .alxLea3 _ => true
  | .alxLea4 _ => true
  | .bitsExt _ => true
  | .bitsExtu _ => true
  | .bitsIns _ => true
  | .movMov _ => true
  | .movMovp _ => true
  | .movSetp _ => true
  | .movZx8 _ => true
  | .movZx16 _ => true
  | .movZx32 _ => true
  | .movSx8 _ => true
  | .movSx16 _ => true
  | .movSx32 _ => true
  | .addi _ => true
  | .andi _ => true
  | .ori _ => true
  | .xori _ => true
  | .shli _ => true
  | .shri _ => true
  | .srai _ => true
  | .li _ => true
  | .lhi _ => true
  | .muli _ => true
  | .fpuFadd _ => true
  | .fpuFsub _ => true
  | .fpuFmul _ => true
  | .fpuFdiv _ => true
  | .fpuFsqrt _ => true
  | .fpuFmin _ => true
  | .fpuFmax _ => true
  | .fpuFabs _ => true
  | .fpuFneg _ => true
  | .fpuFsgnj _ => true
  | .fpuFma _ => true
  | .fpuFms _ => true
  | .fpuFnma _ => true
  | .fpuFclass _ => true
  | .fcvtI2f _ => true
  | .fcvtU2f _ => true
  | .fcvtF2i _ => true
  | .fcvtF2u _ => true
  | .fcvtF2f _ => true
  | .fcvtTobf16 _ => true
  | .fcvtFrombf16 _ => true
  | .fcvtTofp16 _ => true
  | .fcvtFromfp16 _ => true
  | .fcmpFeq _ => true
  | .fcmpFlt _ => true
  | .fcmpFle _ => true
  | .fcmpFun _ => true
  | .cmpEq _ => true
  | .cmpNe _ => true
  | .cmpLt _ => true
  | .cmpLtu _ => true
  | .cmpLe _ => true
  | .cmpLeu _ => true
  | .cmpGt _ => true
  | .cmpGtu _ => true
  | .cmpGe _ => true
  | .cmpGeu _ => true
  | .cmpTst _ => true
  | .ceqi _ => true
  | .clti _ => true
  | .cltui _ => true
  | .predAnd _ => true
  | .predOr _ => true
  | .predXor _ => true
  | .predAndn _ => true
  | .predNot _ => true
  | .predMov _ => true
  | .ld o => memOk o
  | .st o => memOk o
  | .ldacq o => memOk o
  | .strel o => memOk o
  | .ldsy o => memSyOk o
  | .stsy o => memSyOk o
  | .pf o => szOk o.sz
  | .amoAdd _ => true
  | .amoAnd _ => true
  | .amoOr _ => true
  | .amoXor _ => true
  | .amoMin _ => true
  | .amoMax _ => true
  | .amoMinu _ => true
  | .amoMaxu _ => true
  | .amoSwap _ => true
  | .amoCas _ => true
  | .amoFadd o => faddSzOk o.sz
  | .redAdd _ => true
  | .redFadd o => faddSzOk o.sz
  | .redMin _ => true
  | .redMax _ => true
  | .redOr _ => true
  | .redAnd _ => true
  | .fenceAcq _ => true
  | .fenceRel _ => true
  | .fenceFull _ => true
  | .go _ => true
  | .vfAdd o => tyOk o.ty
  | .vfSub o => tyOk o.ty
  | .vfMul o => tyOk o.ty
  | .vfFma o => tyOk o.ty
  | .vfFms o => tyOk o.ty
  | .vfFnma o => tyOk o.ty
  | .vfMin o => tyOk o.ty
  | .vfMax o => tyOk o.ty
  | .vfAbs o => tyOk o.ty
  | .vfNeg o => tyOk o.ty
  | .vfDiv o => tyOk o.ty
  | .vfSqrt o => tyOk o.ty
  | .vfsAdd o => tyOk o.ty
  | .vfsSub o => tyOk o.ty
  | .vfsMul o => tyOk o.ty
  | .vfsFma o => tyOk o.ty
  | .vfsFms o => tyOk o.ty
  | .vfsFnma o => tyOk o.ty
  | .vfsMin o => tyOk o.ty
  | .vfsMax o => tyOk o.ty
  | .vfsAbs o => tyOk o.ty
  | .vfsNeg o => tyOk o.ty
  | .vfsDiv o => tyOk o.ty
  | .vfsSqrt o => tyOk o.ty
  | .viAdd o => tyOk o.ty
  | .viSub o => tyOk o.ty
  | .viMul o => tyOk o.ty
  | .viMulh o => tyOk o.ty
  | .viMin o => tyOk o.ty
  | .viMax o => tyOk o.ty
  | .viMinu o => tyOk o.ty
  | .viMaxu o => tyOk o.ty
  | .viAbs o => tyOk o.ty
  | .viNeg o => tyOk o.ty
  | .viAdds o => tyOk o.ty
  | .viSubs o => tyOk o.ty
  | .visAdd o => tyOk o.ty
  | .visSub o => tyOk o.ty
  | .visMul o => tyOk o.ty
  | .visMulh o => tyOk o.ty
  | .visMin o => tyOk o.ty
  | .visMax o => tyOk o.ty
  | .visMinu o => tyOk o.ty
  | .visMaxu o => tyOk o.ty
  | .visAbs o => tyOk o.ty
  | .visNeg o => tyOk o.ty
  | .visAdds o => tyOk o.ty
  | .visSubs o => tyOk o.ty
  | .vlAnd o => tyOk o.ty
  | .vlOr o => tyOk o.ty
  | .vlXor o => tyOk o.ty
  | .vlAndn o => tyOk o.ty
  | .vlShl o => tyOk o.ty
  | .vlShr o => tyOk o.ty
  | .vlSra o => tyOk o.ty
  | .vlsAnd o => tyOk o.ty
  | .vlsOr o => tyOk o.ty
  | .vlsXor o => tyOk o.ty
  | .vlsAndn o => tyOk o.ty
  | .vlsShl o => tyOk o.ty
  | .vlsShr o => tyOk o.ty
  | .vlsSra o => tyOk o.ty
  | .vcmpFeq o => tyOk o.ty
  | .vcmpFlt o => tyOk o.ty
  | .vcmpFle o => tyOk o.ty
  | .vcmpFun o => tyOk o.ty
  | .vcmpIeq o => tyOk o.ty
  | .vcmpIlt o => tyOk o.ty
  | .vcmpIltu o => tyOk o.ty
  | .vcmpIle o => tyOk o.ty
  | .vcmpsFeq o => tyOk o.ty
  | .vcmpsFlt o => tyOk o.ty
  | .vcmpsFle o => tyOk o.ty
  | .vcmpsFun o => tyOk o.ty
  | .vcmpsIeq o => tyOk o.ty
  | .vcmpsIlt o => tyOk o.ty
  | .vcmpsIltu o => tyOk o.ty
  | .vcmpsIle o => tyOk o.ty
  | .vsel o => tyOk o.ty
  | .vcvtNarrow o => tyOk o.ty && cvtNarrowOk o.ty o.vb
  | .vcvtNarrows o => tyOk o.ty && cvtNarrowOk o.ty o.vb
  | .vcvtWiden o => tyOk o.ty && cvtNarrowOk o.ty o.vb
  | .vcvtI2f o => tyOk o.ty && cvtIntOk o.vb
  | .vcvtF2i o => tyOk o.ty && cvtIntOk o.vb
  | .vredFsum o => tyOk o.ty
  | .vredFmax o => tyOk o.ty
  | .vredFmin o => tyOk o.ty
  | .vredIsum o => tyOk o.ty
  | .vredImax o => tyOk o.ty
  | .vredImin o => tyOk o.ty
  | .vredAnd o => tyOk o.ty
  | .vredOr o => tyOk o.ty
  | .vpermPerm o => tyOk o.ty
  | .vpermRot o => tyOk o.ty
  | .vpermBcastl o => tyOk o.ty
  | .vpermZip o => tyOk o.ty
  | .vpermUnzip o => tyOk o.ty
  | .vpermCompress o => tyOk o.ty
  | .vpermExpand o => tyOk o.ty
  | .vpermIota _ _ ty => tyOk ty
  | .vsfEx2 o => tyOk o.ty
  | .vsfLg2 o => tyOk o.ty
  | .vsfRcp o => tyOk o.ty
  | .vsfRsqrt o => tyOk o.ty
  | .vsfSin o => tyOk o.ty
  | .vsfCos o => tyOk o.ty
  | .vsfTanh o => tyOk o.ty
  | .vsfSigm o => tyOk o.ty
  | .vmvSplat _ _ _ ty => tyOk ty
  | .vmvExtract _ _ _ ty => tyOk ty
  | .vmvInsert _ _ _ ty => tyOk ty
  | .vmvMtos _ _ _ => true
  | .vmvStom _ _ _ => true
  | .vld o => vmOk o
  | .vst o => vmOk o && vstOk o
  | .vgth o => ewOk o.ew
  | .vsct o => ewOk o.ew
  | .gangForm _ _ => true
  | .gangJoin _ _ => true
  | .gangDisband => true
  | .gangIdx _ => true
  | .mmaE4m3 o => mxOk o
  | .mmaE5m2 o => mxOk o
  | .mmaE4m3e5m2 o => mxOk o
  | .mmaE2m1 o => mxOk o && mxNoSk o
  | .mmaBf16 o => mxOk o && mxNoSk o && mxGroup16 o
  | .mmaFp16 o => mxOk o && mxNoSk o && mxGroup16 o
  | .mmaI8 o => mxOk o && mxNoSk o
  | .mmaU8i8 o => mxOk o && mxNoSk o
  | .accZero _ => true
  | .accLd _ _ _ _ _ => true
  | .accSt _ _ _ _ _ => true
  | .accRowRead _ _ _ => true
  | .accRowWrite _ _ _ => true
  | .accScale _ _ => true
  | .skdSet _ _ _ => true
  | .skdReset _ => true
  | .skdPos _ _ => true
  | .cbCfg _ _ _ _ => true
  | .cbPut _ _ _ => true
  | .cbGet _ _ _ => true
  | .cbRoom _ _ => true
  | .cbCount _ _ => true
  | .cbWait _ _ _ => true
  | .engBind _ _ => true
  | .engArm _ => true
  | .engOnce _ => true
  | .engUnbind _ => true
  | .engStat _ _ => true
  | .copyLin sa _ _ _ => evenSrc sa
  | .copyTile2d sa sb _ _ => evenSrc sa && evenSrc sb
  | .copyPeer sa _ _ _ => evenSrc sa
  | .copyBcast sa _ _ _ => evenSrc sa
  | .bankFmtset _ _ _ => true
  | .bankFmtget _ _ => true
  | .bankGate _ => true
  | .bankWake _ => true
  | .rlkQuery _ _ _ => true
  | .rlkDrop _ => true
  | .barReg _ _ _ _ => true
  | .barArrive _ _ => true
  | .barWait _ _ => true
  | .barArrw _ _ => true
  | .barDrop _ => true
  | .arBegin _ _ => true
  | .arAbort => true
  | .arDraw _ => true
  | .arStatus _ => true
  | .pcommit _ _ => true
  | .annealCfg _ _ _ => true
  | .annealOff _ => true
  | .annealReset _ => true
  | .cacheWb _ _ => true
  | .cacheInv _ _ => true
  | .cacheHarvest => true
  | .cacheRetain _ _ _ => true
  | .cacheTlbi _ _ kind => kind != 3#2
  | .lrecPatch _ _ _ _ => true
  | .lrecArm _ _ => true
  | .lrecQuery _ _ _ => true
  | .lrecCancel _ _ => true
  | .lrecWait _ _ => true
  | .walkNext sd => walkNextOk sd
  | .walkInfo _ _ => true
  | .umeCfg _ _ _ => true
  | .umeRound _ _ _ => true
  | .umeStat _ _ _ => true
  | .umeDirty _ _ => true
  | .ringPeek _ _ w => decide (w.toNat ≤ 8)
  | .ringBoard _ _ _ => true
  | .ringHget _ _ _ => true
  | .ringHset _ _ _ => true
  | .ringAlight _ => true
  | .ringRel _ => true
  | .ringRadd _ _ _ => true
  | .ringRmax _ _ _ _ => true
  | .msgSend _ _ _ _ => true
  | .msgRecv _ _ => true
  | .msgProbe _ _ => true
  | .hintImmx _ => true
  | .hintScl _ => true
  | .hintLat _ => true
  | .hintRh _ => true
  | .hintSrk _ => true
  | .hintNop => true
  | .hintUnnamed op _ => decide (0xF6 ≤ op.toNat) && decide (op.toNat ≤ 0xFE)
  | .illegalWordZeros => true
  | .illegalWordOnes => true
  | .reservedEncoding _ => true

end Sys2Proof
end

