-- ==== Sys2Proof/Decode.lean ====
section
/-! DEFINITION. The decoder, total on every word and rejecting by name, and the encoder, both from the formats and the
opcode map of spec/02 (R46-R73). Unused fields are ignored by the decoder and written as zero by the encoder (R48). -/

namespace Sys2Proof

/-- Why a word is a reserved encoding (R71). -/
inductive Reject where
  /-- a major opcode shown as "·" in R67, or another word of opcode 0x00 or 0xFF (R70) -/
  | reservedOpcode
  /-- a function value not listed in R68 -/
  | reservedFunction
  /-- a reserved value of a field, or a field condition that does not hold -/
  | reservedField
deriving DecidableEq, Repr

/-- The major opcode `OP`, bits [31:24] (R46). -/
def opOf (w : W32) : BitVec 8 := w.extractLsb' 24 8

/-! Format RR. -/
/-- Field [23:20] of format RR. -/
def rrFn (w : W32) : BitVec 4 := w.extractLsb' 20 4
/-- Field [19:16] of format RR. -/
def rrSd (w : W32) : BitVec 4 := w.extractLsb' 16 4
/-- Field [15:11] of format RR. -/
def rrSa (w : W32) : BitVec 5 := w.extractLsb' 11 5
/-- Field [10:6] of format RR. -/
def rrSb (w : W32) : BitVec 5 := w.extractLsb' 6 5
/-- Field [5:2] of format RR. -/
def rrPg (w : W32) : BitVec 4 := w.extractLsb' 2 4
/-- Field [1:1] of format RR. -/
def rrPn (w : W32) : BitVec 1 := w.extractLsb' 1 1
/-- Field [0:0] of format RR. -/
def rrW (w : W32) : BitVec 1 := w.extractLsb' 0 1
/-- The word of format RR with the given fields. -/
def encRR (op : BitVec 8) (fn : BitVec 4) (sd : BitVec 4) (sa : BitVec 5) (sb : BitVec 5) (pg : BitVec 4) (pn : BitVec 1) (w : BitVec 1) : W32 :=
  op ++ fn ++ sd ++ sa ++ sb ++ pg ++ pn ++ w

/-! Format RI. -/
/-- Field [23:20] of format RI. -/
def riSd (w : W32) : BitVec 4 := w.extractLsb' 20 4
/-- Field [19:15] of format RI. -/
def riSa (w : W32) : BitVec 5 := w.extractLsb' 15 5
/-- Field [14:0] of format RI. -/
def riImm (w : W32) : BitVec 15 := w.extractLsb' 0 15
/-- The word of format RI with the given fields. -/
def encRI (op : BitVec 8) (sd : BitVec 4) (sa : BitVec 5) (imm : BitVec 15) : W32 :=
  op ++ sd ++ sa ++ imm

/-! Format BR. -/
/-- Field [23:20] of format BR. -/
def brPg (w : W32) : BitVec 4 := w.extractLsb' 20 4
/-- Field [19:19] of format BR. -/
def brPn (w : W32) : BitVec 1 := w.extractLsb' 19 1
/-- Field [18:0] of format BR. -/
def brOff (w : W32) : BitVec 19 := w.extractLsb' 0 19
/-- The word of format BR with the given fields. -/
def encBR (op : BitVec 8) (pg : BitVec 4) (pn : BitVec 1) (off : BitVec 19) : W32 :=
  op ++ pg ++ pn ++ off

/-! Format MEM. -/
/-- Field [23:20] of format MEM. -/
def memSd (w : W32) : BitVec 4 := w.extractLsb' 20 4
/-- Field [19:15] of format MEM. -/
def memSb (w : W32) : BitVec 5 := w.extractLsb' 15 5
/-- Field [14:12] of format MEM. -/
def memSz (w : W32) : BitVec 3 := w.extractLsb' 12 3
/-- Field [11:10] of format MEM. -/
def memRh (w : W32) : BitVec 2 := w.extractLsb' 10 2
/-- Field [9:0] of format MEM. -/
def memOff (w : W32) : BitVec 10 := w.extractLsb' 0 10
/-- The word of format MEM with the given fields. -/
def encMEM (op : BitVec 8) (sd : BitVec 4) (sb : BitVec 5) (sz : BitVec 3) (rh : BitVec 2) (off : BitVec 10) : W32 :=
  op ++ sd ++ sb ++ sz ++ rh ++ off

/-! Format VV. -/
/-- Field [23:20] of format VV. -/
def vvFn (w : W32) : BitVec 4 := w.extractLsb' 20 4
/-- Field [19:15] of format VV. -/
def vvVd (w : W32) : BitVec 5 := w.extractLsb' 15 5
/-- Field [14:10] of format VV. -/
def vvVa (w : W32) : BitVec 5 := w.extractLsb' 10 5
/-- Field [9:5] of format VV. -/
def vvVb (w : W32) : BitVec 5 := w.extractLsb' 5 5
/-- Field [4:2] of format VV. -/
def vvVm (w : W32) : BitVec 3 := w.extractLsb' 2 3
/-- Field [1:0] of format VV. -/
def vvTy (w : W32) : BitVec 2 := w.extractLsb' 0 2
/-- The word of format VV with the given fields. -/
def encVV (op : BitVec 8) (fn : BitVec 4) (vd : BitVec 5) (va : BitVec 5) (vb : BitVec 5) (vm : BitVec 3) (ty : BitVec 2) : W32 :=
  op ++ fn ++ vd ++ va ++ vb ++ vm ++ ty

/-! Format VM. -/
/-- Field [23:19] of format VM. -/
def vmV (w : W32) : BitVec 5 := w.extractLsb' 19 5
/-- Field [18:14] of format VM. -/
def vmSb (w : W32) : BitVec 5 := w.extractLsb' 14 5
/-- Field [13:9] of format VM. -/
def vmSi (w : W32) : BitVec 5 := w.extractLsb' 9 5
/-- Field [8:6] of format VM. -/
def vmVm (w : W32) : BitVec 3 := w.extractLsb' 6 3
/-- Field [5:4] of format VM. -/
def vmRh (w : W32) : BitVec 2 := w.extractLsb' 4 2
/-- Field [3:2] of format VM. -/
def vmEw (w : W32) : BitVec 2 := w.extractLsb' 2 2
/-- Field [1:0] of format VM. -/
def vmMd (w : W32) : BitVec 2 := w.extractLsb' 0 2
/-- The word of format VM with the given fields. -/
def encVM (op : BitVec 8) (v : BitVec 5) (sb : BitVec 5) (si : BitVec 5) (vm : BitVec 3) (rh : BitVec 2) (ew : BitVec 2) (md : BitVec 2) : W32 :=
  op ++ v ++ sb ++ si ++ vm ++ rh ++ ew ++ md

/-! Format MX. -/
/-- Field [23:21] of format MX. -/
def mxAc (w : W32) : BitVec 3 := w.extractLsb' 21 3
/-- Field [20:20] of format MX. -/
def mxAsel (w : W32) : BitVec 1 := w.extractLsb' 20 1
/-- Field [19:15] of format MX. -/
def mxA (w : W32) : BitVec 5 := w.extractLsb' 15 5
/-- Field [14:14] of format MX. -/
def mxBsel (w : W32) : BitVec 1 := w.extractLsb' 14 1
/-- Field [13:9] of format MX. -/
def mxB (w : W32) : BitVec 5 := w.extractLsb' 9 5
/-- Field [8:8] of format MX. -/
def mxDa (w : W32) : BitVec 1 := w.extractLsb' 8 1
/-- Field [7:7] of format MX. -/
def mxDb (w : W32) : BitVec 1 := w.extractLsb' 7 1
/-- Field [6:4] of format MX. -/
def mxSk (w : W32) : BitVec 3 := w.extractLsb' 4 3
/-- Field [3:0] of format MX. -/
def mxMf (w : W32) : BitVec 4 := w.extractLsb' 0 4
/-- The word of format MX with the given fields. -/
def encMX (op : BitVec 8) (ac : BitVec 3) (asel : BitVec 1) (a : BitVec 5) (bsel : BitVec 1) (b : BitVec 5) (da : BitVec 1) (db : BitVec 1) (sk : BitVec 3) (mf : BitVec 4) : W32 :=
  op ++ ac ++ asel ++ a ++ bsel ++ b ++ da ++ db ++ sk ++ mf

/-! Format EN. -/
/-- Field [23:20] of format EN. -/
def enFn (w : W32) : BitVec 4 := w.extractLsb' 20 4
/-- Field [19:15] of format EN. -/
def enSa (w : W32) : BitVec 5 := w.extractLsb' 15 5
/-- Field [14:10] of format EN. -/
def enSb (w : W32) : BitVec 5 := w.extractLsb' 10 5
/-- Field [9:6] of format EN. -/
def enSd (w : W32) : BitVec 4 := w.extractLsb' 6 4
/-- Field [5:0] of format EN. -/
def enImm (w : W32) : BitVec 6 := w.extractLsb' 0 6
/-- The word of format EN with the given fields. -/
def encEN (op : BitVec 8) (fn : BitVec 4) (sa : BitVec 5) (sb : BitVec 5) (sd : BitVec 4) (imm : BitVec 6) : W32 :=
  op ++ fn ++ sa ++ sb ++ sd ++ imm

/-! Format HI. -/
/-- Field [23:0] of format HI. -/
def hiP (w : W32) : BitVec 24 := w.extractLsb' 0 24
/-- The word of format HI with the given fields. -/
def encHI (op : BitVec 8) (p : BitVec 24) : W32 :=
  op ++ p

/-- Bits that an entry says must be 0: a nonzero value is reserved (R71). -/
def zeros (mask : W32) (w : W32) (i : Instr) : Except Reject Instr :=
  if w &&& mask = 0#32 then .ok i else .error .reservedField

/-- Opcodes whose `FN` must be 0 (R68): the field conditions of the instruction decide the rest (R71). -/
def gate (i : Instr) : Except Reject Instr :=
  if wellFormed i then .ok i else .error .reservedField

/-- Opcode 0x01 (R68). -/
def decode01 (w : W32) : Except Reject Instr :=
  .ok (.bra ⟨brPg w, brPn w, brOff w⟩)

/-- Opcode 0x02 (R68). -/
def decode02 (w : W32) : Except Reject Instr :=
  .ok (.call ⟨brPg w, brPn w, brOff w⟩)

/-- Opcode 0x03 (R68). -/
def decode03 (w : W32) : Except Reject Instr :=
  match (rrFn w).toNat with
  | 0 => .ok (.jrGo ⟨rrSa w, rrPg w, rrPn w, rrW w⟩)
  | 1 => .ok (.jrLink ⟨rrSd w, rrSa w, rrPg w, rrPn w, rrW w⟩)
  | 2 => .ok (.jrRet ⟨rrSa w, rrPg w, rrPn w, rrW w⟩)
  | _ => .error .reservedFunction

/-- Opcode 0x04 (R68). -/
def decode04 (w : W32) : Except Reject Instr :=
  match (enFn w).toNat with
  | 0 => .ok (.taskExit)
  | 1 => .ok (.taskYield)
  | 2 => .ok (.taskPark)
  | 3 =>
    match (enImm w).toNat with
    | 0 => .ok (.taskHaltHalt (enSa w) (enSd w))
    | 1 => .ok (.taskHaltResume (enSa w) (enSd w))
    | 2 => .ok (.taskHaltRetire (enSa w) (enSd w))
    | _ => .error .reservedField
  | _ => .error .reservedFunction

/-- Opcode 0x05 (R68). -/
def decode05 (w : W32) : Except Reject Instr :=
  match (enFn w).toNat with
  | 0 => .ok (.trapSys (enImm w))
  | 1 => .ok (.trapBrk (enImm w))
  | 2 => zeros 0x00080000 w (.trapAssert ((enSa w).extractLsb' 0 4) (enImm w))
  | _ => .error .reservedFunction

/-- Opcode 0x06 (R68). -/
def decode06 (w : W32) : Except Reject Instr :=
  match (enFn w).toNat with
  | 0 => .ok (.eret)
  | _ => .error .reservedFunction

/-- Opcode 0x07 (R68). -/
def decode07 (w : W32) : Except Reject Instr :=
  match (enFn w).toNat with
  | 0 => .ok (.sysrGet (enSd w) (enImm w))
  | 1 => .ok (.sysrSet (enSa w) (enImm w))
  | 2 => .ok (.sysrSetb (enSa w) (enImm w))
  | 3 => .ok (.sysrClrb (enSa w) (enImm w))
  | _ => .error .reservedFunction

/-- Opcode 0x08 (R68). -/
def decode08 (w : W32) : Except Reject Instr :=
  match (enFn w).toNat with
  | 0 => zeros 0x00000038 w (.modeSetrm ((enImm w).extractLsb' 0 3))
  | 1 => .ok (.modeMobile)
  | 2 => .ok (.modeAnchor)
  | 3 => .ok (.modeGetfl (enSd w))
  | 4 => .ok (.modeClrfl (enImm w))
  | _ => .error .reservedFunction

/-- Opcode 0x09 (R68). -/
def decode09 (w : W32) : Except Reject Instr :=
  match (enFn w).toNat with
  | 0 => .ok (.mbxPost (enSa w) (enSb w) (enSd w) ((enImm w).extractLsb' 0 1))
  | 1 => .ok (.mbxFetch (enSa w) (enSd w))
  | 2 => .ok (.mbxCount (enSd w))
  | _ => .error .reservedFunction

/-- Opcode 0x0A (R68). -/
def decode0A (w : W32) : Except Reject Instr :=
  match (enFn w).toNat with
  | 0 => zeros 0x00080000 w (.waitFull ((enSa w).extractLsb' 0 4))
  | 1 => .ok (.waitAny (enSa w) (enSd w))
  | _ => .error .reservedFunction

/-- Opcode 0x10 (R68). -/
def decode10 (w : W32) : Except Reject Instr :=
  match (rrFn w).toNat with
  | 0 => .ok (.aluAdd ⟨rrSd w, rrSa w, rrSb w, rrPg w, rrPn w, rrW w⟩)
  | 1 => .ok (.aluSub ⟨rrSd w, rrSa w, rrSb w, rrPg w, rrPn w, rrW w⟩)
  | 2 => .ok (.aluMul ⟨rrSd w, rrSa w, rrSb w, rrPg w, rrPn w, rrW w⟩)
  | 3 => .ok (.aluMulh ⟨rrSd w, rrSa w, rrSb w, rrPg w, rrPn w, rrW w⟩)
  | 4 => .ok (.aluMulhu ⟨rrSd w, rrSa w, rrSb w, rrPg w, rrPn w, rrW w⟩)
  | 5 => .ok (.aluAnd ⟨rrSd w, rrSa w, rrSb w, rrPg w, rrPn w, rrW w⟩)
  | 6 => .ok (.aluOr ⟨rrSd w, rrSa w, rrSb w, rrPg w, rrPn w, rrW w⟩)
  | 7 => .ok (.aluXor ⟨rrSd w, rrSa w, rrSb w, rrPg w, rrPn w, rrW w⟩)
  | 8 => .ok (.aluAndn ⟨rrSd w, rrSa w, rrSb w, rrPg w, rrPn w, rrW w⟩)
  | 9 => .ok (.aluOrn ⟨rrSd w, rrSa w, rrSb w, rrPg w, rrPn w, rrW w⟩)
  | 10 => .ok (.aluShl ⟨rrSd w, rrSa w, rrSb w, rrPg w, rrPn w, rrW w⟩)
  | 11 => .ok (.aluShr ⟨rrSd w, rrSa w, rrSb w, rrPg w, rrPn w, rrW w⟩)
  | 12 => .ok (.aluSra ⟨rrSd w, rrSa w, rrSb w, rrPg w, rrPn w, rrW w⟩)
  | 13 => .ok (.aluRot ⟨rrSd w, rrSa w, rrSb w, rrPg w, rrPn w, rrW w⟩)
  | 14 => .ok (.aluMin ⟨rrSd w, rrSa w, rrSb w, rrPg w, rrPn w, rrW w⟩)
  | 15 => .ok (.aluMax ⟨rrSd w, rrSa w, rrSb w, rrPg w, rrPn w, rrW w⟩)
  | _ => .error .reservedFunction

/-- Opcode 0x11 (R68). -/
def decode11 (w : W32) : Except Reject Instr :=
  match (rrFn w).toNat with
  | 0 => .ok (.alxMinu ⟨rrSd w, rrSa w, rrSb w, rrPg w, rrPn w, rrW w⟩)
  | 1 => .ok (.alxMaxu ⟨rrSd w, rrSa w, rrSb w, rrPg w, rrPn w, rrW w⟩)
  | 2 => .ok (.alxDiv ⟨rrSd w, rrSa w, rrSb w, rrPg w, rrPn w, rrW w⟩)
  | 3 => .ok (.alxDivu ⟨rrSd w, rrSa w, rrSb w, rrPg w, rrPn w, rrW w⟩)
  | 4 => .ok (.alxRem ⟨rrSd w, rrSa w, rrSb w, rrPg w, rrPn w, rrW w⟩)
  | 5 => .ok (.alxRemu ⟨rrSd w, rrSa w, rrSb w, rrPg w, rrPn w, rrW w⟩)
  | 6 => .ok (.alxClz ⟨rrSd w, rrSa w, rrPg w, rrPn w, rrW w⟩)
  | 7 => .ok (.alxCtz ⟨rrSd w, rrSa w, rrPg w, rrPn w, rrW w⟩)
  | 8 => .ok (.alxPopc ⟨rrSd w, rrSa w, rrPg w, rrPn w, rrW w⟩)
  | 9 => .ok (.alxBrev ⟨rrSd w, rrSa w, rrPg w, rrPn w, rrW w⟩)
  | 10 => .ok (.alxBswap ⟨rrSd w, rrSa w, rrPg w, rrPn w, rrW w⟩)
  | 11 => .ok (.alxSel ⟨rrSd w, rrSa w, rrSb w, rrPg w, rrPn w, rrW w⟩)
  | 12 => .ok (.alxLea1 ⟨rrSd w, rrSa w, rrSb w, rrPg w, rrPn w, rrW w⟩)
  | 13 => .ok (.alxLea2 ⟨rrSd w, rrSa w, rrSb w, rrPg w, rrPn w, rrW w⟩)
  | 14 => .ok (.alxLea3 ⟨rrSd w, rrSa w, rrSb w, rrPg w, rrPn w, rrW w⟩)
  | 15 => .ok (.alxLea4 ⟨rrSd w, rrSa w, rrSb w, rrPg w, rrPn w, rrW w⟩)
  | _ => .error .reservedFunction

/-- Opcode 0x12 (R68). -/
def decode12 (w : W32) : Except Reject Instr :=
  match (rrFn w).toNat with
  | 0 => .ok (.bitsExt ⟨rrSd w, rrSa w, rrSb w, rrPg w, rrPn w, rrW w⟩)
  | 1 => .ok (.bitsExtu ⟨rrSd w, rrSa w, rrSb w, rrPg w, rrPn w, rrW w⟩)
  | 2 => .ok (.bitsIns ⟨rrSd w, rrSa w, rrSb w, rrPg w, rrPn w, rrW w⟩)
  | _ => .error .reservedFunction

/-- Opcode 0x13 (R68). -/
def decode13 (w : W32) : Except Reject Instr :=
  match (rrFn w).toNat with
  | 0 => .ok (.movMov ⟨rrSd w, rrSa w, rrPg w, rrPn w, rrW w⟩)
  | 1 => .ok (.movMovp ⟨rrSd w, rrPg w, rrPn w, rrW w⟩)
  | 2 => .ok (.movSetp ⟨rrSa w, rrPg w, rrPn w, rrW w⟩)
  | 3 => .ok (.movZx8 ⟨rrSd w, rrSa w, rrPg w, rrPn w, rrW w⟩)
  | 4 => .ok (.movZx16 ⟨rrSd w, rrSa w, rrPg w, rrPn w, rrW w⟩)
  | 5 => .ok (.movZx32 ⟨rrSd w, rrSa w, rrPg w, rrPn w, rrW w⟩)
  | 6 => .ok (.movSx8 ⟨rrSd w, rrSa w, rrPg w, rrPn w, rrW w⟩)
  | 7 => .ok (.movSx16 ⟨rrSd w, rrSa w, rrPg w, rrPn w, rrW w⟩)
  | 8 => .ok (.movSx32 ⟨rrSd w, rrSa w, rrPg w, rrPn w, rrW w⟩)
  | _ => .error .reservedFunction

/-- Opcode 0x14 (R68). -/
def decode14 (w : W32) : Except Reject Instr :=
  .ok (.addi ⟨riSd w, riSa w, riImm w⟩)

/-- Opcode 0x15 (R68). -/
def decode15 (w : W32) : Except Reject Instr :=
  .ok (.andi ⟨riSd w, riSa w, riImm w⟩)

/-- Opcode 0x16 (R68). -/
def decode16 (w : W32) : Except Reject Instr :=
  .ok (.ori ⟨riSd w, riSa w, riImm w⟩)

/-- Opcode 0x17 (R68). -/
def decode17 (w : W32) : Except Reject Instr :=
  .ok (.xori ⟨riSd w, riSa w, riImm w⟩)

/-- Opcode 0x18 (R68). -/
def decode18 (w : W32) : Except Reject Instr :=
  .ok (.shli ⟨riSd w, riSa w, riImm w⟩)

/-- Opcode 0x19 (R68). -/
def decode19 (w : W32) : Except Reject Instr :=
  .ok (.shri ⟨riSd w, riSa w, riImm w⟩)

/-- Opcode 0x1A (R68). -/
def decode1A (w : W32) : Except Reject Instr :=
  .ok (.srai ⟨riSd w, riSa w, riImm w⟩)

/-- Opcode 0x1B (R68). -/
def decode1B (w : W32) : Except Reject Instr :=
  .ok (.li ⟨riSd w, riImm w⟩)

/-- Opcode 0x1C (R68). -/
def decode1C (w : W32) : Except Reject Instr :=
  .ok (.lhi ⟨riSd w, riSa w, riImm w⟩)

/-- Opcode 0x1D (R68). -/
def decode1D (w : W32) : Except Reject Instr :=
  .ok (.muli ⟨riSd w, riSa w, riImm w⟩)

/-- Opcode 0x20 (R68). -/
def decode20 (w : W32) : Except Reject Instr :=
  match (rrFn w).toNat with
  | 0 => .ok (.fpuFadd ⟨rrSd w, rrSa w, rrSb w, rrPg w, rrPn w, rrW w⟩)
  | 1 => .ok (.fpuFsub ⟨rrSd w, rrSa w, rrSb w, rrPg w, rrPn w, rrW w⟩)
  | 2 => .ok (.fpuFmul ⟨rrSd w, rrSa w, rrSb w, rrPg w, rrPn w, rrW w⟩)
  | 3 => .ok (.fpuFdiv ⟨rrSd w, rrSa w, rrSb w, rrPg w, rrPn w, rrW w⟩)
  | 4 => .ok (.fpuFsqrt ⟨rrSd w, rrSa w, rrPg w, rrPn w, rrW w⟩)
  | 5 => .ok (.fpuFmin ⟨rrSd w, rrSa w, rrSb w, rrPg w, rrPn w, rrW w⟩)
  | 6 => .ok (.fpuFmax ⟨rrSd w, rrSa w, rrSb w, rrPg w, rrPn w, rrW w⟩)
  | 7 => .ok (.fpuFabs ⟨rrSd w, rrSa w, rrPg w, rrPn w, rrW w⟩)
  | 8 => .ok (.fpuFneg ⟨rrSd w, rrSa w, rrPg w, rrPn w, rrW w⟩)
  | 9 => .ok (.fpuFsgnj ⟨rrSd w, rrSa w, rrSb w, rrPg w, rrPn w, rrW w⟩)
  | 10 => .ok (.fpuFma ⟨rrSd w, rrSa w, rrSb w, rrPg w, rrPn w, rrW w⟩)
  | 11 => .ok (.fpuFms ⟨rrSd w, rrSa w, rrSb w, rrPg w, rrPn w, rrW w⟩)
  | 12 => .ok (.fpuFnma ⟨rrSd w, rrSa w, rrSb w, rrPg w, rrPn w, rrW w⟩)
  | 13 => .ok (.fpuFclass ⟨rrSd w, rrSa w, rrPg w, rrPn w, rrW w⟩)
  | _ => .error .reservedFunction

/-- Opcode 0x21 (R68). -/
def decode21 (w : W32) : Except Reject Instr :=
  match (rrFn w).toNat with
  | 0 => .ok (.fcvtI2f ⟨rrSd w, rrSa w, rrPg w, rrPn w, rrW w⟩)
  | 1 => .ok (.fcvtU2f ⟨rrSd w, rrSa w, rrPg w, rrPn w, rrW w⟩)
  | 2 => .ok (.fcvtF2i ⟨rrSd w, rrSa w, rrPg w, rrPn w, rrW w⟩)
  | 3 => .ok (.fcvtF2u ⟨rrSd w, rrSa w, rrPg w, rrPn w, rrW w⟩)
  | 4 => .ok (.fcvtF2f ⟨rrSd w, rrSa w, rrPg w, rrPn w, rrW w⟩)
  | 5 => .ok (.fcvtTobf16 ⟨rrSd w, rrSa w, rrPg w, rrPn w, rrW w⟩)
  | 6 => .ok (.fcvtFrombf16 ⟨rrSd w, rrSa w, rrPg w, rrPn w, rrW w⟩)
  | 7 => .ok (.fcvtTofp16 ⟨rrSd w, rrSa w, rrPg w, rrPn w, rrW w⟩)
  | 8 => .ok (.fcvtFromfp16 ⟨rrSd w, rrSa w, rrPg w, rrPn w, rrW w⟩)
  | _ => .error .reservedFunction

/-- Opcode 0x22 (R68). -/
def decode22 (w : W32) : Except Reject Instr :=
  match (rrFn w).toNat with
  | 0 => .ok (.fcmpFeq ⟨rrSd w, rrSa w, rrSb w, rrPg w, rrPn w, rrW w⟩)
  | 1 => .ok (.fcmpFlt ⟨rrSd w, rrSa w, rrSb w, rrPg w, rrPn w, rrW w⟩)
  | 2 => .ok (.fcmpFle ⟨rrSd w, rrSa w, rrSb w, rrPg w, rrPn w, rrW w⟩)
  | 3 => .ok (.fcmpFun ⟨rrSd w, rrSa w, rrSb w, rrPg w, rrPn w, rrW w⟩)
  | _ => .error .reservedFunction

/-- Opcode 0x30 (R68). -/
def decode30 (w : W32) : Except Reject Instr :=
  match (rrFn w).toNat with
  | 0 => .ok (.cmpEq ⟨rrSd w, rrSa w, rrSb w, rrPg w, rrPn w, rrW w⟩)
  | 1 => .ok (.cmpNe ⟨rrSd w, rrSa w, rrSb w, rrPg w, rrPn w, rrW w⟩)
  | 2 => .ok (.cmpLt ⟨rrSd w, rrSa w, rrSb w, rrPg w, rrPn w, rrW w⟩)
  | 3 => .ok (.cmpLtu ⟨rrSd w, rrSa w, rrSb w, rrPg w, rrPn w, rrW w⟩)
  | 4 => .ok (.cmpLe ⟨rrSd w, rrSa w, rrSb w, rrPg w, rrPn w, rrW w⟩)
  | 5 => .ok (.cmpLeu ⟨rrSd w, rrSa w, rrSb w, rrPg w, rrPn w, rrW w⟩)
  | 6 => .ok (.cmpGt ⟨rrSd w, rrSa w, rrSb w, rrPg w, rrPn w, rrW w⟩)
  | 7 => .ok (.cmpGtu ⟨rrSd w, rrSa w, rrSb w, rrPg w, rrPn w, rrW w⟩)
  | 8 => .ok (.cmpGe ⟨rrSd w, rrSa w, rrSb w, rrPg w, rrPn w, rrW w⟩)
  | 9 => .ok (.cmpGeu ⟨rrSd w, rrSa w, rrSb w, rrPg w, rrPn w, rrW w⟩)
  | 10 => .ok (.cmpTst ⟨rrSd w, rrSa w, rrSb w, rrPg w, rrPn w, rrW w⟩)
  | _ => .error .reservedFunction

/-- Opcode 0x31 (R68). -/
def decode31 (w : W32) : Except Reject Instr :=
  .ok (.ceqi ⟨riSd w, riSa w, riImm w⟩)

/-- Opcode 0x32 (R68). -/
def decode32 (w : W32) : Except Reject Instr :=
  .ok (.clti ⟨riSd w, riSa w, riImm w⟩)

/-- Opcode 0x33 (R68). -/
def decode33 (w : W32) : Except Reject Instr :=
  .ok (.cltui ⟨riSd w, riSa w, riImm w⟩)

/-- Opcode 0x34 (R68). -/
def decode34 (w : W32) : Except Reject Instr :=
  match (rrFn w).toNat with
  | 0 => zeros 0x00008400 w (.predAnd ⟨rrSd w, (rrSa w).extractLsb' 0 4, (rrSb w).extractLsb' 0 4, rrPg w, rrPn w, rrW w⟩)
  | 1 => zeros 0x00008400 w (.predOr ⟨rrSd w, (rrSa w).extractLsb' 0 4, (rrSb w).extractLsb' 0 4, rrPg w, rrPn w, rrW w⟩)
  | 2 => zeros 0x00008400 w (.predXor ⟨rrSd w, (rrSa w).extractLsb' 0 4, (rrSb w).extractLsb' 0 4, rrPg w, rrPn w, rrW w⟩)
  | 3 => zeros 0x00008400 w (.predAndn ⟨rrSd w, (rrSa w).extractLsb' 0 4, (rrSb w).extractLsb' 0 4, rrPg w, rrPn w, rrW w⟩)
  | 4 => zeros 0x00008400 w (.predNot ⟨rrSd w, (rrSa w).extractLsb' 0 4, rrPg w, rrPn w, rrW w⟩)
  | 5 => zeros 0x00008400 w (.predMov ⟨rrSd w, (rrSa w).extractLsb' 0 4, rrPg w, rrPn w, rrW w⟩)
  | _ => .error .reservedFunction

/-- Opcode 0x40 (R68). -/
def decode40 (w : W32) : Except Reject Instr :=
  .ok (.ld ⟨memSd w, memSb w, memSz w, memRh w, memOff w⟩)

/-- Opcode 0x41 (R68). -/
def decode41 (w : W32) : Except Reject Instr :=
  .ok (.st ⟨memSd w, memSb w, memSz w, memRh w, memOff w⟩)

/-- Opcode 0x42 (R68). -/
def decode42 (w : W32) : Except Reject Instr :=
  .ok (.ldacq ⟨memSd w, memSb w, memSz w, memRh w, memOff w⟩)

/-- Opcode 0x43 (R68). -/
def decode43 (w : W32) : Except Reject Instr :=
  .ok (.strel ⟨memSd w, memSb w, memSz w, memRh w, memOff w⟩)

/-- Opcode 0x44 (R68). -/
def decode44 (w : W32) : Except Reject Instr :=
  .ok (.ldsy ⟨memSd w, memSb w, memSz w, memOff w⟩)

/-- Opcode 0x45 (R68). -/
def decode45 (w : W32) : Except Reject Instr :=
  .ok (.stsy ⟨memSd w, memSb w, memSz w, memOff w⟩)

/-- Opcode 0x46 (R68). -/
def decode46 (w : W32) : Except Reject Instr :=
  .ok (.pf ⟨memSb w, memSz w, memRh w, memOff w⟩)

/-- Opcode 0x47 (R68). -/
noncomputable def decode47 (w : W32) : Except Reject Instr :=
  match (enFn w).toNat with
  | 0 => .ok (.amoAdd ⟨enSa w, enSb w, enSd w, (enImm w).extractLsb' 4 2, (enImm w).extractLsb' 2 2, (enImm w).extractLsb' 0 2⟩)
  | 1 => .ok (.amoAnd ⟨enSa w, enSb w, enSd w, (enImm w).extractLsb' 4 2, (enImm w).extractLsb' 2 2, (enImm w).extractLsb' 0 2⟩)
  | 2 => .ok (.amoOr ⟨enSa w, enSb w, enSd w, (enImm w).extractLsb' 4 2, (enImm w).extractLsb' 2 2, (enImm w).extractLsb' 0 2⟩)
  | 3 => .ok (.amoXor ⟨enSa w, enSb w, enSd w, (enImm w).extractLsb' 4 2, (enImm w).extractLsb' 2 2, (enImm w).extractLsb' 0 2⟩)
  | 4 => .ok (.amoMin ⟨enSa w, enSb w, enSd w, (enImm w).extractLsb' 4 2, (enImm w).extractLsb' 2 2, (enImm w).extractLsb' 0 2⟩)
  | 5 => .ok (.amoMax ⟨enSa w, enSb w, enSd w, (enImm w).extractLsb' 4 2, (enImm w).extractLsb' 2 2, (enImm w).extractLsb' 0 2⟩)
  | 6 => .ok (.amoMinu ⟨enSa w, enSb w, enSd w, (enImm w).extractLsb' 4 2, (enImm w).extractLsb' 2 2, (enImm w).extractLsb' 0 2⟩)
  | 7 => .ok (.amoMaxu ⟨enSa w, enSb w, enSd w, (enImm w).extractLsb' 4 2, (enImm w).extractLsb' 2 2, (enImm w).extractLsb' 0 2⟩)
  | 8 => .ok (.amoSwap ⟨enSa w, enSb w, enSd w, (enImm w).extractLsb' 4 2, (enImm w).extractLsb' 2 2, (enImm w).extractLsb' 0 2⟩)
  | 9 => .ok (.amoCas ⟨enSa w, enSb w, enSd w, (enImm w).extractLsb' 4 2, (enImm w).extractLsb' 2 2, (enImm w).extractLsb' 0 2⟩)
  | 10 => .ok (.amoFadd ⟨enSa w, enSb w, enSd w, (enImm w).extractLsb' 4 2, (enImm w).extractLsb' 2 2, (enImm w).extractLsb' 0 2⟩)
  | _ => .error .reservedFunction

/-- Opcode 0x48 (R68). -/
noncomputable def decode48 (w : W32) : Except Reject Instr :=
  match (enFn w).toNat with
  | 0 => zeros 0x00000030 w (.redAdd ⟨enSa w, enSb w, (enImm w).extractLsb' 2 2, (enImm w).extractLsb' 0 2⟩)
  | 1 => zeros 0x00000030 w (.redFadd ⟨enSa w, enSb w, (enImm w).extractLsb' 2 2, (enImm w).extractLsb' 0 2⟩)
  | 2 => zeros 0x00000030 w (.redMin ⟨enSa w, enSb w, (enImm w).extractLsb' 2 2, (enImm w).extractLsb' 0 2⟩)
  | 3 => zeros 0x00000030 w (.redMax ⟨enSa w, enSb w, (enImm w).extractLsb' 2 2, (enImm w).extractLsb' 0 2⟩)
  | 4 => zeros 0x00000030 w (.redOr ⟨enSa w, enSb w, (enImm w).extractLsb' 2 2, (enImm w).extractLsb' 0 2⟩)
  | 5 => zeros 0x00000030 w (.redAnd ⟨enSa w, enSb w, (enImm w).extractLsb' 2 2, (enImm w).extractLsb' 0 2⟩)
  | _ => .error .reservedFunction

/-- Opcode 0x49 (R68). -/
noncomputable def decode49 (w : W32) : Except Reject Instr :=
  match (enFn w).toNat with
  | 0 => .ok (.fenceAcq ((enImm w).extractLsb' 0 2))
  | 1 => .ok (.fenceRel ((enImm w).extractLsb' 0 2))
  | 2 => .ok (.fenceFull ((enImm w).extractLsb' 0 2))
  | _ => .error .reservedFunction

/-- Opcode 0x4A (R68). -/
noncomputable def decode4A (w : W32) : Except Reject Instr :=
  match (enFn w).toNat with
  | 0 => .ok (.go (enSa w))
  | _ => .error .reservedFunction

/-- Opcode 0x50 (R68). -/
noncomputable def decode50 (w : W32) : Except Reject Instr :=
  match (vvFn w).toNat with
  | 0 => .ok (.vfAdd ⟨vvVd w, vvVa w, vvVb w, vvVm w, vvTy w⟩)
  | 1 => .ok (.vfSub ⟨vvVd w, vvVa w, vvVb w, vvVm w, vvTy w⟩)
  | 2 => .ok (.vfMul ⟨vvVd w, vvVa w, vvVb w, vvVm w, vvTy w⟩)
  | 3 => .ok (.vfFma ⟨vvVd w, vvVa w, vvVb w, vvVm w, vvTy w⟩)
  | 4 => .ok (.vfFms ⟨vvVd w, vvVa w, vvVb w, vvVm w, vvTy w⟩)
  | 5 => .ok (.vfFnma ⟨vvVd w, vvVa w, vvVb w, vvVm w, vvTy w⟩)
  | 6 => .ok (.vfMin ⟨vvVd w, vvVa w, vvVb w, vvVm w, vvTy w⟩)
  | 7 => .ok (.vfMax ⟨vvVd w, vvVa w, vvVb w, vvVm w, vvTy w⟩)
  | 8 => .ok (.vfAbs ⟨vvVd w, vvVa w, vvVm w, vvTy w⟩)
  | 9 => .ok (.vfNeg ⟨vvVd w, vvVa w, vvVm w, vvTy w⟩)
  | 10 => .ok (.vfDiv ⟨vvVd w, vvVa w, vvVb w, vvVm w, vvTy w⟩)
  | 11 => .ok (.vfSqrt ⟨vvVd w, vvVa w, vvVm w, vvTy w⟩)
  | _ => .error .reservedFunction

/-- Opcode 0x51 (R68). -/
noncomputable def decode51 (w : W32) : Except Reject Instr :=
  match (vvFn w).toNat with
  | 0 => .ok (.vfsAdd ⟨vvVd w, vvVa w, vvVb w, vvVm w, vvTy w⟩)
  | 1 => .ok (.vfsSub ⟨vvVd w, vvVa w, vvVb w, vvVm w, vvTy w⟩)
  | 2 => .ok (.vfsMul ⟨vvVd w, vvVa w, vvVb w, vvVm w, vvTy w⟩)
  | 3 => .ok (.vfsFma ⟨vvVd w, vvVa w, vvVb w, vvVm w, vvTy w⟩)
  | 4 => .ok (.vfsFms ⟨vvVd w, vvVa w, vvVb w, vvVm w, vvTy w⟩)
  | 5 => .ok (.vfsFnma ⟨vvVd w, vvVa w, vvVb w, vvVm w, vvTy w⟩)
  | 6 => .ok (.vfsMin ⟨vvVd w, vvVa w, vvVb w, vvVm w, vvTy w⟩)
  | 7 => .ok (.vfsMax ⟨vvVd w, vvVa w, vvVb w, vvVm w, vvTy w⟩)
  | 8 => .ok (.vfsAbs ⟨vvVd w, vvVa w, vvVm w, vvTy w⟩)
  | 9 => .ok (.vfsNeg ⟨vvVd w, vvVa w, vvVm w, vvTy w⟩)
  | 10 => .ok (.vfsDiv ⟨vvVd w, vvVa w, vvVb w, vvVm w, vvTy w⟩)
  | 11 => .ok (.vfsSqrt ⟨vvVd w, vvVa w, vvVm w, vvTy w⟩)
  | _ => .error .reservedFunction

/-- Opcode 0x52 (R68). -/
noncomputable def decode52 (w : W32) : Except Reject Instr :=
  match (vvFn w).toNat with
  | 0 => .ok (.viAdd ⟨vvVd w, vvVa w, vvVb w, vvVm w, vvTy w⟩)
  | 1 => .ok (.viSub ⟨vvVd w, vvVa w, vvVb w, vvVm w, vvTy w⟩)
  | 2 => .ok (.viMul ⟨vvVd w, vvVa w, vvVb w, vvVm w, vvTy w⟩)
  | 3 => .ok (.viMulh ⟨vvVd w, vvVa w, vvVb w, vvVm w, vvTy w⟩)
  | 4 => .ok (.viMin ⟨vvVd w, vvVa w, vvVb w, vvVm w, vvTy w⟩)
  | 5 => .ok (.viMax ⟨vvVd w, vvVa w, vvVb w, vvVm w, vvTy w⟩)
  | 6 => .ok (.viMinu ⟨vvVd w, vvVa w, vvVb w, vvVm w, vvTy w⟩)
  | 7 => .ok (.viMaxu ⟨vvVd w, vvVa w, vvVb w, vvVm w, vvTy w⟩)
  | 8 => .ok (.viAbs ⟨vvVd w, vvVa w, vvVm w, vvTy w⟩)
  | 9 => .ok (.viNeg ⟨vvVd w, vvVa w, vvVm w, vvTy w⟩)
  | 10 => .ok (.viAdds ⟨vvVd w, vvVa w, vvVb w, vvVm w, vvTy w⟩)
  | 11 => .ok (.viSubs ⟨vvVd w, vvVa w, vvVb w, vvVm w, vvTy w⟩)
  | _ => .error .reservedFunction

/-- Opcode 0x53 (R68). -/
noncomputable def decode53 (w : W32) : Except Reject Instr :=
  match (vvFn w).toNat with
  | 0 => .ok (.visAdd ⟨vvVd w, vvVa w, vvVb w, vvVm w, vvTy w⟩)
  | 1 => .ok (.visSub ⟨vvVd w, vvVa w, vvVb w, vvVm w, vvTy w⟩)
  | 2 => .ok (.visMul ⟨vvVd w, vvVa w, vvVb w, vvVm w, vvTy w⟩)
  | 3 => .ok (.visMulh ⟨vvVd w, vvVa w, vvVb w, vvVm w, vvTy w⟩)
  | 4 => .ok (.visMin ⟨vvVd w, vvVa w, vvVb w, vvVm w, vvTy w⟩)
  | 5 => .ok (.visMax ⟨vvVd w, vvVa w, vvVb w, vvVm w, vvTy w⟩)
  | 6 => .ok (.visMinu ⟨vvVd w, vvVa w, vvVb w, vvVm w, vvTy w⟩)
  | 7 => .ok (.visMaxu ⟨vvVd w, vvVa w, vvVb w, vvVm w, vvTy w⟩)
  | 8 => .ok (.visAbs ⟨vvVd w, vvVa w, vvVm w, vvTy w⟩)
  | 9 => .ok (.visNeg ⟨vvVd w, vvVa w, vvVm w, vvTy w⟩)
  | 10 => .ok (.visAdds ⟨vvVd w, vvVa w, vvVb w, vvVm w, vvTy w⟩)
  | 11 => .ok (.visSubs ⟨vvVd w, vvVa w, vvVb w, vvVm w, vvTy w⟩)
  | _ => .error .reservedFunction

/-- Opcode 0x54 (R68). -/
noncomputable def decode54 (w : W32) : Except Reject Instr :=
  match (vvFn w).toNat with
  | 0 => .ok (.vlAnd ⟨vvVd w, vvVa w, vvVb w, vvVm w, vvTy w⟩)
  | 1 => .ok (.vlOr ⟨vvVd w, vvVa w, vvVb w, vvVm w, vvTy w⟩)
  | 2 => .ok (.vlXor ⟨vvVd w, vvVa w, vvVb w, vvVm w, vvTy w⟩)
  | 3 => .ok (.vlAndn ⟨vvVd w, vvVa w, vvVb w, vvVm w, vvTy w⟩)
  | 4 => .ok (.vlShl ⟨vvVd w, vvVa w, vvVb w, vvVm w, vvTy w⟩)
  | 5 => .ok (.vlShr ⟨vvVd w, vvVa w, vvVb w, vvVm w, vvTy w⟩)
  | 6 => .ok (.vlSra ⟨vvVd w, vvVa w, vvVb w, vvVm w, vvTy w⟩)
  | _ => .error .reservedFunction

/-- Opcode 0x55 (R68). -/
noncomputable def decode55 (w : W32) : Except Reject Instr :=
  match (vvFn w).toNat with
  | 0 => .ok (.vlsAnd ⟨vvVd w, vvVa w, vvVb w, vvVm w, vvTy w⟩)
  | 1 => .ok (.vlsOr ⟨vvVd w, vvVa w, vvVb w, vvVm w, vvTy w⟩)
  | 2 => .ok (.vlsXor ⟨vvVd w, vvVa w, vvVb w, vvVm w, vvTy w⟩)
  | 3 => .ok (.vlsAndn ⟨vvVd w, vvVa w, vvVb w, vvVm w, vvTy w⟩)
  | 4 => .ok (.vlsShl ⟨vvVd w, vvVa w, vvVb w, vvVm w, vvTy w⟩)
  | 5 => .ok (.vlsShr ⟨vvVd w, vvVa w, vvVb w, vvVm w, vvTy w⟩)
  | 6 => .ok (.vlsSra ⟨vvVd w, vvVa w, vvVb w, vvVm w, vvTy w⟩)
  | _ => .error .reservedFunction

/-- Opcode 0x56 (R68). -/
noncomputable def decode56 (w : W32) : Except Reject Instr :=
  match (vvFn w).toNat with
  | 0 => .ok (.vcmpFeq ⟨(vvVd w).extractLsb' 0 3, vvVa w, vvVb w, vvVm w, vvTy w⟩)
  | 1 => .ok (.vcmpFlt ⟨(vvVd w).extractLsb' 0 3, vvVa w, vvVb w, vvVm w, vvTy w⟩)
  | 2 => .ok (.vcmpFle ⟨(vvVd w).extractLsb' 0 3, vvVa w, vvVb w, vvVm w, vvTy w⟩)
  | 3 => .ok (.vcmpFun ⟨(vvVd w).extractLsb' 0 3, vvVa w, vvVb w, vvVm w, vvTy w⟩)
  | 4 => .ok (.vcmpIeq ⟨(vvVd w).extractLsb' 0 3, vvVa w, vvVb w, vvVm w, vvTy w⟩)
  | 5 => .ok (.vcmpIlt ⟨(vvVd w).extractLsb' 0 3, vvVa w, vvVb w, vvVm w, vvTy w⟩)
  | 6 => .ok (.vcmpIltu ⟨(vvVd w).extractLsb' 0 3, vvVa w, vvVb w, vvVm w, vvTy w⟩)
  | 7 => .ok (.vcmpIle ⟨(vvVd w).extractLsb' 0 3, vvVa w, vvVb w, vvVm w, vvTy w⟩)
  | _ => .error .reservedFunction

/-- Opcode 0x57 (R68). -/
noncomputable def decode57 (w : W32) : Except Reject Instr :=
  match (vvFn w).toNat with
  | 0 => .ok (.vcmpsFeq ⟨(vvVd w).extractLsb' 0 3, vvVa w, vvVb w, vvVm w, vvTy w⟩)
  | 1 => .ok (.vcmpsFlt ⟨(vvVd w).extractLsb' 0 3, vvVa w, vvVb w, vvVm w, vvTy w⟩)
  | 2 => .ok (.vcmpsFle ⟨(vvVd w).extractLsb' 0 3, vvVa w, vvVb w, vvVm w, vvTy w⟩)
  | 3 => .ok (.vcmpsFun ⟨(vvVd w).extractLsb' 0 3, vvVa w, vvVb w, vvVm w, vvTy w⟩)
  | 4 => .ok (.vcmpsIeq ⟨(vvVd w).extractLsb' 0 3, vvVa w, vvVb w, vvVm w, vvTy w⟩)
  | 5 => .ok (.vcmpsIlt ⟨(vvVd w).extractLsb' 0 3, vvVa w, vvVb w, vvVm w, vvTy w⟩)
  | 6 => .ok (.vcmpsIltu ⟨(vvVd w).extractLsb' 0 3, vvVa w, vvVb w, vvVm w, vvTy w⟩)
  | 7 => .ok (.vcmpsIle ⟨(vvVd w).extractLsb' 0 3, vvVa w, vvVb w, vvVm w, vvTy w⟩)
  | _ => .error .reservedFunction

/-- Opcode 0x58 (R68). -/
noncomputable def decode58 (w : W32) : Except Reject Instr :=
  match (vvFn w).toNat with
  | 0 => .ok (.vsel ⟨vvVd w, vvVa w, vvVb w, vvVm w, vvTy w⟩)
  | _ => .error .reservedFunction

/-- Opcode 0x59 (R68). -/
noncomputable def decode59 (w : W32) : Except Reject Instr :=
  match (vvFn w).toNat with
  | 0 => .ok (.vcvtNarrow ⟨vvVd w, vvVa w, vvVb w, vvVm w, vvTy w⟩)
  | 1 => .ok (.vcvtNarrows ⟨vvVd w, vvVa w, vvVb w, vvVm w, vvTy w⟩)
  | 2 => .ok (.vcvtWiden ⟨vvVd w, vvVa w, vvVb w, vvVm w, vvTy w⟩)
  | 3 => .ok (.vcvtI2f ⟨vvVd w, vvVa w, vvVb w, vvVm w, vvTy w⟩)
  | 4 => .ok (.vcvtF2i ⟨vvVd w, vvVa w, vvVb w, vvVm w, vvTy w⟩)
  | _ => .error .reservedFunction

/-- Opcode 0x5A (R68). -/
noncomputable def decode5A (w : W32) : Except Reject Instr :=
  match (vvFn w).toNat with
  | 0 => .ok (.vredFsum ⟨vvVd w, vvVa w, vvVm w, vvTy w⟩)
  | 1 => .ok (.vredFmax ⟨vvVd w, vvVa w, vvVm w, vvTy w⟩)
  | 2 => .ok (.vredFmin ⟨vvVd w, vvVa w, vvVm w, vvTy w⟩)
  | 3 => .ok (.vredIsum ⟨vvVd w, vvVa w, vvVm w, vvTy w⟩)
  | 4 => .ok (.vredImax ⟨vvVd w, vvVa w, vvVm w, vvTy w⟩)
  | 5 => .ok (.vredImin ⟨vvVd w, vvVa w, vvVm w, vvTy w⟩)
  | 6 => .ok (.vredAnd ⟨vvVd w, vvVa w, vvVm w, vvTy w⟩)
  | 7 => .ok (.vredOr ⟨vvVd w, vvVa w, vvVm w, vvTy w⟩)
  | _ => .error .reservedFunction

/-- Opcode 0x5B (R68). -/
noncomputable def decode5B (w : W32) : Except Reject Instr :=
  match (vvFn w).toNat with
  | 0 => .ok (.vpermPerm ⟨vvVd w, vvVa w, vvVb w, vvVm w, vvTy w⟩)
  | 1 => .ok (.vpermRot ⟨vvVd w, vvVa w, vvVb w, vvVm w, vvTy w⟩)
  | 2 => .ok (.vpermBcastl ⟨vvVd w, vvVa w, vvVb w, vvVm w, vvTy w⟩)
  | 3 => .ok (.vpermZip ⟨vvVd w, vvVa w, vvVb w, vvVm w, vvTy w⟩)
  | 4 => .ok (.vpermUnzip ⟨vvVd w, vvVa w, vvVm w, vvTy w⟩)
  | 5 => .ok (.vpermCompress ⟨vvVd w, vvVa w, vvVm w, vvTy w⟩)
  | 6 => .ok (.vpermExpand ⟨vvVd w, vvVa w, vvVm w, vvTy w⟩)
  | 7 => .ok (.vpermIota (vvVd w) (vvVm w) (vvTy w))
  | _ => .error .reservedFunction

/-- Opcode 0x5C (R68). -/
noncomputable def decode5C (w : W32) : Except Reject Instr :=
  match (vvFn w).toNat with
  | 0 => .ok (.vsfEx2 ⟨vvVd w, vvVa w, vvVm w, vvTy w⟩)
  | 1 => .ok (.vsfLg2 ⟨vvVd w, vvVa w, vvVm w, vvTy w⟩)
  | 2 => .ok (.vsfRcp ⟨vvVd w, vvVa w, vvVm w, vvTy w⟩)
  | 3 => .ok (.vsfRsqrt ⟨vvVd w, vvVa w, vvVm w, vvTy w⟩)
  | 4 => .ok (.vsfSin ⟨vvVd w, vvVa w, vvVm w, vvTy w⟩)
  | 5 => .ok (.vsfCos ⟨vvVd w, vvVa w, vvVm w, vvTy w⟩)
  | 6 => .ok (.vsfTanh ⟨vvVd w, vvVa w, vvVm w, vvTy w⟩)
  | 7 => .ok (.vsfSigm ⟨vvVd w, vvVa w, vvVm w, vvTy w⟩)
  | _ => .error .reservedFunction

/-- Opcode 0x5D (R68). -/
noncomputable def decode5D (w : W32) : Except Reject Instr :=
  match (vvFn w).toNat with
  | 0 => .ok (.vmvSplat (vvVd w) (vvVb w) (vvVm w) (vvTy w))
  | 1 => zeros 0x00080000 w (.vmvExtract ((vvVd w).extractLsb' 0 4) (vvVa w) (vvVb w) (vvTy w))
  | 2 => .ok (.vmvInsert (vvVd w) (vvVa w) (vvVb w) (vvTy w))
  | 3 => zeros 0x000843E3 w (.vmvMtos ((vvVd w).extractLsb' 0 4) ((vvVa w).extractLsb' 3 1) ((vvVa w).extractLsb' 0 3))
  | 4 => zeros 0x00087C03 w (.vmvStom ((vvVd w).extractLsb' 3 1) ((vvVd w).extractLsb' 0 3) (vvVb w))
  | _ => .error .reservedFunction

/-- Opcode 0x60 (R68). -/
noncomputable def decode60 (w : W32) : Except Reject Instr :=
  .ok (.vld ⟨vmV w, vmSb w, vmSi w, vmVm w, vmRh w, vmEw w, vmMd w⟩)

/-- Opcode 0x61 (R68). -/
noncomputable def decode61 (w : W32) : Except Reject Instr :=
  .ok (.vst ⟨vmV w, vmSb w, vmSi w, vmVm w, vmRh w, vmEw w, vmMd w⟩)

/-- Opcode 0x62 (R68). -/
noncomputable def decode62 (w : W32) : Except Reject Instr :=
  zeros 0x00000003 w (.vgth ⟨vmV w, vmSb w, vmSi w, vmVm w, vmRh w, vmEw w⟩)

/-- Opcode 0x63 (R68). -/
noncomputable def decode63 (w : W32) : Except Reject Instr :=
  zeros 0x00000003 w (.vsct ⟨vmV w, vmSb w, vmSi w, vmVm w, vmRh w, vmEw w⟩)

/-- Opcode 0x64 (R68). -/
noncomputable def decode64 (w : W32) : Except Reject Instr :=
  match (enFn w).toNat with
  | 0 => .ok (.gangForm (enSa w) (enSd w))
  | 1 => .ok (.gangJoin (enSa w) (enSd w))
  | 2 => .ok (.gangDisband)
  | 3 => .ok (.gangIdx (enSd w))
  | _ => .error .reservedFunction

/-- Opcode 0x70 (R68). -/
noncomputable def decode70 (w : W32) : Except Reject Instr :=
  match (mxMf w).toNat with
  | 0 => .ok (.mmaE4m3 ⟨mxAc w, mxAsel w, mxA w, mxBsel w, mxB w, mxDa w, mxDb w, mxSk w⟩)
  | 1 => .ok (.mmaE5m2 ⟨mxAc w, mxAsel w, mxA w, mxBsel w, mxB w, mxDa w, mxDb w, mxSk w⟩)
  | 2 => .ok (.mmaE4m3e5m2 ⟨mxAc w, mxAsel w, mxA w, mxBsel w, mxB w, mxDa w, mxDb w, mxSk w⟩)
  | 3 => .ok (.mmaE2m1 ⟨mxAc w, mxAsel w, mxA w, mxBsel w, mxB w, mxDa w, mxDb w, mxSk w⟩)
  | 4 => .ok (.mmaBf16 ⟨mxAc w, mxAsel w, mxA w, mxBsel w, mxB w, mxDa w, mxDb w, mxSk w⟩)
  | 5 => .ok (.mmaFp16 ⟨mxAc w, mxAsel w, mxA w, mxBsel w, mxB w, mxDa w, mxDb w, mxSk w⟩)
  | 6 => .ok (.mmaI8 ⟨mxAc w, mxAsel w, mxA w, mxBsel w, mxB w, mxDa w, mxDb w, mxSk w⟩)
  | 7 => .ok (.mmaU8i8 ⟨mxAc w, mxAsel w, mxA w, mxBsel w, mxB w, mxDa w, mxDb w, mxSk w⟩)
  | _ => .error .reservedFunction

/-- Opcode 0x71 (R68). -/
noncomputable def decode71 (w : W32) : Except Reject Instr :=
  match (enFn w).toNat with
  | 0 => zeros 0x00000038 w (.accZero ((enImm w).extractLsb' 0 3))
  | 1 => zeros 0x00000020 w (.accLd (enSa w) (enSb w) (enSd w) ((enImm w).extractLsb' 3 2) ((enImm w).extractLsb' 0 3))
  | 2 => zeros 0x00000020 w (.accSt (enSa w) (enSb w) (enSd w) ((enImm w).extractLsb' 3 2) ((enImm w).extractLsb' 0 3))
  | 3 =>
    if (enImm w).getLsbD 3 then zeros 0x00000030 w (.accRowWrite (enSa w) (enSb w) ((enImm w).extractLsb' 0 3)) else zeros 0x00000030 w (.accRowRead (enSa w) (enSb w) ((enImm w).extractLsb' 0 3))
  | 4 => zeros 0x00000038 w (.accScale (enSa w) ((enImm w).extractLsb' 0 3))
  | _ => .error .reservedFunction

/-- Opcode 0x72 (R68). -/
noncomputable def decode72 (w : W32) : Except Reject Instr :=
  match (enFn w).toNat with
  | 0 => zeros 0x0000003C w (.skdSet (enSa w) (enSb w) ((enImm w).extractLsb' 0 2))
  | 1 => zeros 0x0000003C w (.skdReset ((enImm w).extractLsb' 0 2))
  | 2 => zeros 0x0000003C w (.skdPos (enSd w) ((enImm w).extractLsb' 0 2))
  | _ => .error .reservedFunction

/-- Opcode 0x80 (R68). -/
noncomputable def decode80 (w : W32) : Except Reject Instr :=
  match (enFn w).toNat with
  | 0 => zeros 0x00000030 w (.cbCfg (enSa w) (enSb w) (enSd w) ((enImm w).extractLsb' 0 4))
  | 1 => zeros 0x00000030 w (.cbPut (enSa w) (enSd w) ((enImm w).extractLsb' 0 4))
  | 2 => zeros 0x00000030 w (.cbGet (enSa w) (enSd w) ((enImm w).extractLsb' 0 4))
  | 3 => zeros 0x00000030 w (.cbRoom (enSd w) ((enImm w).extractLsb' 0 4))
  | 4 => zeros 0x00000030 w (.cbCount (enSd w) ((enImm w).extractLsb' 0 4))
  | 5 => zeros 0x00000020 w (.cbWait (enSa w) ((enImm w).extractLsb' 4 1) ((enImm w).extractLsb' 0 4))
  | _ => .error .reservedFunction

/-- Opcode 0x81 (R68). -/
noncomputable def decode81 (w : W32) : Except Reject Instr :=
  match (enFn w).toNat with
  | 0 => .ok (.engBind (enSa w) (enSd w))
  | 1 => .ok (.engArm (enSa w))
  | 2 => .ok (.engOnce (enSa w))
  | 3 => .ok (.engUnbind (enSa w))
  | 4 => .ok (.engStat (enSa w) (enSd w))
  | _ => .error .reservedFunction

/-- Opcode 0x82 (R68). -/
noncomputable def decode82 (w : W32) : Except Reject Instr :=
  match (enFn w).toNat with
  | 0 => zeros 0x0000003C w (.copyLin (enSa w) (enSb w) (enSd w) ((enImm w).extractLsb' 0 2))
  | 1 => zeros 0x0000003C w (.copyTile2d (enSa w) (enSb w) (enSd w) ((enImm w).extractLsb' 0 2))
  | 2 => zeros 0x0000003C w (.copyPeer (enSa w) (enSb w) (enSd w) ((enImm w).extractLsb' 0 2))
  | 3 => zeros 0x0000003C w (.copyBcast (enSa w) (enSb w) (enSd w) ((enImm w).extractLsb' 0 2))
  | _ => .error .reservedFunction

/-- Opcode 0x83 (R68). -/
noncomputable def decode83 (w : W32) : Except Reject Instr :=
  match (enFn w).toNat with
  | 0 => zeros 0x00000030 w (.bankFmtset (enSa w) (enSd w) ((enImm w).extractLsb' 0 4))
  | 1 => zeros 0x00000030 w (.bankFmtget (enSd w) ((enImm w).extractLsb' 0 4))
  | 2 => zeros 0x00000030 w (.bankGate ((enImm w).extractLsb' 0 4))
  | 3 => zeros 0x00000030 w (.bankWake ((enImm w).extractLsb' 0 4))
  | _ => .error .reservedFunction

/-- Opcode 0x84 (R68). -/
noncomputable def decode84 (w : W32) : Except Reject Instr :=
  match (enFn w).toNat with
  | 0 => zeros 0x0000003E w (.rlkQuery (enSa w) (enSd w) ((enImm w).extractLsb' 0 1))
  | 1 => .ok (.rlkDrop (enSa w))
  | _ => .error .reservedFunction

/-- Opcode 0x90 (R68). -/
noncomputable def decode90 (w : W32) : Except Reject Instr :=
  match (enFn w).toNat with
  | 0 => zeros 0x00000038 w (.barReg (enSa w) (enSb w) (enSd w) ((enImm w).extractLsb' 0 3))
  | 1 => zeros 0x00000038 w (.barArrive (enSd w) ((enImm w).extractLsb' 0 3))
  | 2 => zeros 0x00000038 w (.barWait (enSa w) ((enImm w).extractLsb' 0 3))
  | 3 => zeros 0x00000038 w (.barArrw (enSd w) ((enImm w).extractLsb' 0 3))
  | 4 => zeros 0x00000038 w (.barDrop ((enImm w).extractLsb' 0 3))
  | _ => .error .reservedFunction

/-- Opcode 0x91 (R68). -/
noncomputable def decode91 (w : W32) : Except Reject Instr :=
  match (enFn w).toNat with
  | 0 => .ok (.arBegin (enSa w) (enSd w))
  | 1 => .ok (.arAbort)
  | 2 => .ok (.arDraw (enSd w))
  | 3 => .ok (.arStatus (enSd w))
  | _ => .error .reservedFunction

/-- Opcode 0x92 (R68). -/
noncomputable def decode92 (w : W32) : Except Reject Instr :=
  match (enFn w).toNat with
  | 0 => .ok (.pcommit (enSa w) (enSd w))
  | _ => .error .reservedFunction

/-- Opcode 0x93 (R68). -/
noncomputable def decode93 (w : W32) : Except Reject Instr :=
  match (enFn w).toNat with
  | 0 => .ok (.annealCfg (enSa w) (enSb w) (enSd w))
  | 1 => .ok (.annealOff (enSd w))
  | 2 => .ok (.annealReset (enSd w))
  | _ => .error .reservedFunction

/-- Opcode 0xA0 (R68). -/
noncomputable def decodeA0 (w : W32) : Except Reject Instr :=
  match (enFn w).toNat with
  | 0 => zeros 0x0000003F w (.cacheWb (enSa w) (enSb w))
  | 1 => zeros 0x0000003F w (.cacheInv (enSa w) (enSb w))
  | 2 => zeros 0x0000003F w (.cacheHarvest)
  | 3 => zeros 0x0000003C w (.cacheRetain (enSa w) (enSb w) ((enImm w).extractLsb' 0 2))
  | 4 => zeros 0x0000003C w (.cacheTlbi (enSa w) (enSb w) ((enImm w).extractLsb' 0 2))
  | _ => .error .reservedFunction

/-- Opcode 0xA1 (R68). -/
noncomputable def decodeA1 (w : W32) : Except Reject Instr :=
  match (enFn w).toNat with
  | 0 => zeros 0x00000020 w (.lrecPatch (enSa w) (enSb w) (enSd w) ((enImm w).extractLsb' 0 5))
  | 1 => .ok (.lrecArm (enSa w) (enSd w))
  | 2 => zeros 0x00000020 w (.lrecQuery (enSa w) (enSd w) ((enImm w).extractLsb' 0 5))
  | 3 => .ok (.lrecCancel (enSa w) (enSd w))
  | 4 => .ok (.lrecWait (enSa w) (enSd w))
  | _ => .error .reservedFunction

/-- Opcode 0xA2 (R68). -/
noncomputable def decodeA2 (w : W32) : Except Reject Instr :=
  match (enFn w).toNat with
  | 0 => .ok (.walkNext (enSd w))
  | 1 => .ok (.walkInfo (enSd w) (enImm w))
  | _ => .error .reservedFunction

/-- Opcode 0xA3 (R68). -/
noncomputable def decodeA3 (w : W32) : Except Reject Instr :=
  match (enFn w).toNat with
  | 0 => zeros 0x00000030 w (.umeCfg (enSa w) (enSd w) ((enImm w).extractLsb' 0 4))
  | 1 => zeros 0x00000030 w (.umeRound (enSa w) (enSd w) ((enImm w).extractLsb' 0 4))
  | 2 => .ok (.umeStat (enSd w) ((enImm w).extractLsb' 4 2) ((enImm w).extractLsb' 0 4))
  | 3 => zeros 0x00000030 w (.umeDirty (enSd w) ((enImm w).extractLsb' 0 4))
  | _ => .error .reservedFunction

/-- Opcode 0xB0 (R68). -/
noncomputable def decodeB0 (w : W32) : Except Reject Instr :=
  match (enFn w).toNat with
  | 0 => zeros 0x00000030 w (.ringPeek (enSa w) (enSd w) ((enImm w).extractLsb' 0 4))
  | 1 => zeros 0x0000003C w (.ringBoard (enSa w) (enSd w) ((enImm w).extractLsb' 0 2))
  | 2 => zeros 0x00000020 w (.ringHget (enSd w) ((enImm w).extractLsb' 2 3) ((enImm w).extractLsb' 0 2))
  | 3 => zeros 0x00000020 w (.ringHset (enSa w) ((enImm w).extractLsb' 2 3) ((enImm w).extractLsb' 0 2))
  | 4 => zeros 0x0000003C w (.ringAlight ((enImm w).extractLsb' 0 2))
  | 5 => zeros 0x0000003C w (.ringRel ((enImm w).extractLsb' 0 2))
  | 6 => zeros 0x00000038 w (.ringRadd (enSa w) (enSb w) ((enImm w).extractLsb' 0 3))
  | 7 => zeros 0x00000030 w (.ringRmax (enSa w) (enSb w) ((enImm w).extractLsb' 3 1) ((enImm w).extractLsb' 0 3))
  | _ => .error .reservedFunction

/-- Opcode 0xB1 (R68). -/
noncomputable def decodeB1 (w : W32) : Except Reject Instr :=
  match (enFn w).toNat with
  | 0 => zeros 0x0000003E w (.msgSend (enSa w) (enSb w) (enSd w) ((enImm w).extractLsb' 0 1))
  | 1 => zeros 0x0000003F w (.msgRecv (enSa w) (enSd w))
  | 2 => zeros 0x0000003F w (.msgProbe (enSa w) (enSd w))
  | _ => .error .reservedFunction

/-- Opcode 0xF0 (R68). -/
noncomputable def decodeF0 (w : W32) : Except Reject Instr :=
  .ok (.hintImmx (hiP w))

/-- Opcode 0xF1 (R68). -/
noncomputable def decodeF1 (w : W32) : Except Reject Instr :=
  .ok (.hintScl ((hiP w).extractLsb' 0 5))

/-- Opcode 0xF2 (R68). -/
noncomputable def decodeF2 (w : W32) : Except Reject Instr :=
  .ok (.hintLat ((hiP w).extractLsb' 0 3))

/-- Opcode 0xF3 (R68). -/
noncomputable def decodeF3 (w : W32) : Except Reject Instr :=
  .ok (.hintRh ((hiP w).extractLsb' 0 2))

/-- Opcode 0xF4 (R68). -/
noncomputable def decodeF4 (w : W32) : Except Reject Instr :=
  .ok (.hintSrk (hiP w))

/-- Opcode 0xF5 (R68). -/
def decodeF5 (w : W32) : Except Reject Instr :=
  .ok (.hintNop)

/-- The opcode map (R67): which instruction a word's major opcode and function name. -/
noncomputable def decodeOp (w : W32) : Except Reject Instr :=
  match (opOf w).toNat with
  | 0x01 => decode01 w
  | 0x02 => decode02 w
  | 0x03 => decode03 w
  | 0x04 => decode04 w
  | 0x05 => decode05 w
  | 0x06 => decode06 w
  | 0x07 => decode07 w
  | 0x08 => decode08 w
  | 0x09 => decode09 w
  | 0x0A => decode0A w
  | 0x10 => decode10 w
  | 0x11 => decode11 w
  | 0x12 => decode12 w
  | 0x13 => decode13 w
  | 0x14 => decode14 w
  | 0x15 => decode15 w
  | 0x16 => decode16 w
  | 0x17 => decode17 w
  | 0x18 => decode18 w
  | 0x19 => decode19 w
  | 0x1A => decode1A w
  | 0x1B => decode1B w
  | 0x1C => decode1C w
  | 0x1D => decode1D w
  | 0x20 => decode20 w
  | 0x21 => decode21 w
  | 0x22 => decode22 w
  | 0x30 => decode30 w
  | 0x31 => decode31 w
  | 0x32 => decode32 w
  | 0x33 => decode33 w
  | 0x34 => decode34 w
  | 0x40 => decode40 w
  | 0x41 => decode41 w
  | 0x42 => decode42 w
  | 0x43 => decode43 w
  | 0x44 => decode44 w
  | 0x45 => decode45 w
  | 0x46 => decode46 w
  | 0x47 => decode47 w
  | 0x48 => decode48 w
  | 0x49 => decode49 w
  | 0x4A => decode4A w
  | 0x50 => decode50 w
  | 0x51 => decode51 w
  | 0x52 => decode52 w
  | 0x53 => decode53 w
  | 0x54 => decode54 w
  | 0x55 => decode55 w
  | 0x56 => decode56 w
  | 0x57 => decode57 w
  | 0x58 => decode58 w
  | 0x59 => decode59 w
  | 0x5A => decode5A w
  | 0x5B => decode5B w
  | 0x5C => decode5C w
  | 0x5D => decode5D w
  | 0x60 => decode60 w
  | 0x61 => decode61 w
  | 0x62 => decode62 w
  | 0x63 => decode63 w
  | 0x64 => decode64 w
  | 0x70 => decode70 w
  | 0x71 => decode71 w
  | 0x72 => decode72 w
  | 0x80 => decode80 w
  | 0x81 => decode81 w
  | 0x82 => decode82 w
  | 0x83 => decode83 w
  | 0x84 => decode84 w
  | 0x90 => decode90 w
  | 0x91 => decode91 w
  | 0x92 => decode92 w
  | 0x93 => decode93 w
  | 0xA0 => decodeA0 w
  | 0xA1 => decodeA1 w
  | 0xA2 => decodeA2 w
  | 0xA3 => decodeA3 w
  | 0xB0 => decodeB0 w
  | 0xB1 => decodeB1 w
  | 0xF0 => decodeF0 w
  | 0xF1 => decodeF1 w
  | 0xF2 => decodeF2 w
  | 0xF3 => decodeF3 w
  | 0xF4 => decodeF4 w
  | 0xF5 => decodeF5 w
  | 0xF6 => .ok (.hintUnnamed (opOf w) (hiP w))
  | 0xF7 => .ok (.hintUnnamed (opOf w) (hiP w))
  | 0xF8 => .ok (.hintUnnamed (opOf w) (hiP w))
  | 0xF9 => .ok (.hintUnnamed (opOf w) (hiP w))
  | 0xFA => .ok (.hintUnnamed (opOf w) (hiP w))
  | 0xFB => .ok (.hintUnnamed (opOf w) (hiP w))
  | 0xFC => .ok (.hintUnnamed (opOf w) (hiP w))
  | 0xFD => .ok (.hintUnnamed (opOf w) (hiP w))
  | 0xFE => .ok (.hintUnnamed (opOf w) (hiP w))
  | _ => .error .reservedOpcode

/-- What a word is: an instruction, or a reserved encoding by name. The two illegal words come first (R70). -/
noncomputable def decode (w : W32) : Except Reject Instr :=
  if w = 0x00000000#32 then .ok .illegalWordZeros
  else if w = 0xFFFFFFFF#32 then .ok .illegalWordOnes
  else
    match decodeOp w with
    | .ok i => gate i
    | .error r => .error r

/-- The step that issuing a word performs: a reserved encoding is a step of its own (R72). -/
noncomputable def decodeIssue (w : W32) : Instr :=
  match decode w with
  | .ok i => i
  | .error _ => .reservedEncoding w

/-- The word of four bytes in little-endian order (R46). -/
def wordOfBytes (b0 b1 b2 b3 : W8) : W32 := b3 ++ b2 ++ b1 ++ b0

/-- The four bytes of a word in little-endian order (R46). -/
def bytesOfWord (w : W32) : List W8 :=
  [w.extractLsb' 0 8, w.extractLsb' 8 8, w.extractLsb' 16 8, w.extractLsb' 24 8]

/-- The instruction that stands in four bytes. -/
noncomputable def decodeBytes : List W8 → Option Instr
  | [b0, b1, b2, b3] => (decode (wordOfBytes b0 b1 b2 b3)).toOption
  | _ => none

/-- The instruction the decoder reads from a word of the opcode table: every Korvel word has 32 bits (R46), so bits
above `nbits` are 0. -/
noncomputable def decodeTableWord (nbits w : Nat) : Option Instr :=
  decodeBytes (bytesOfWord (BitVec.ofNat 32 (w % 2 ^ nbits)))

/-- The word of a step that is an instruction word; `none` for the other steps. -/
def encode : Instr → Option W32
  | .faultMessageDelivery _ => none
  | .loadCompletion _ => none
  | .storePerformAtHome _ => none
  | .atomicAtHome _ => none
  | .remoteUpdate _ => none
  | .migrationDeparture _ _ => none
  | .migrationArrival _ => none
  | .codeAbsent _ _ => none
  | .codeStartMessage _ _ _ => none
  | .codeRefusal _ _ => none
  | .syncAccessServe _ => none
  | .syncRetryLimit _ => none
  | .mailboxDelivery _ => none
  | .resumeMessage _ => none
  | .clusterControlWrite _ => none
  | .clusterControlRead _ => none
  | .barrierRelease _ => none
  | .heldFpTrapDelivery _ => none
  | .mmaEngineStart _ => none
  | .mmaOperandsConsumed _ => none
  | .mmaCompletion _ => none
  | .accTransferCompletion _ => none
  | .copyEngineStart _ => none
  | .copyCompletion _ => none
  | .engineFiring _ _ => none
  | .firingOperandsConsumed _ _ => none
  | .firingCompletion _ _ => none
  | .bankGateEffect _ _ => none
  | .bankWakeEnd _ _ => none
  | .allocationClearDone _ => none
  | .releaseClearDone _ _ => none
  | .storeBufferDrain _ _ => none
  | .signaturePlacement _ _ => none
  | .releaseProbeEcho _ _ => none
  | .writeLogAppend _ => none
  | .dirtyLogMerge _ => none
  | .deadlockSweep => none
  | .chunkCommit _ => none
  | .regionSquash _ => none
  | .taskStart _ => none
  | .launchCompletion _ => none
  | .walkerHandout _ _ => none
  | .walkerSplit _ _ _ => none
  | .preemptionRequest => none
  | .preemptSafePointStop _ => none
  | .preemptTimeoutStop _ => none
  | .preemptionSave => none
  | .preemptionResume => none
  | .umeCfgBlockRead _ => none
  | .umeRoundExecution _ => none
  | .umeRoundCompletion _ => none
  | .stationPassage _ _ => none
  | .seamCrossing _ => none
  | .holdBreak _ => none
  | .flitData _ _ _ => none
  | .flitReplayRequest _ _ => none
  | .flitAcknowledge _ _ => none
  | .flitIdle _ _ => none
  | .laneSparing _ _ => none
  | .portTraining _ _ => none
  | .portSurpriseDown _ => none
  | .copyPeerArrival _ _ _ _ _ _ => none
  | .fabricMessageArrival _ => none
  | .hostWrite _ _ _ _ => none
  | .hostRead _ _ _ => none
  | .doorbellWrite _ _ => none
  | .hwakeWrite _ _ => none
  | .mgmtReadRegister _ => none
  | .mgmtWriteRegister _ _ => none
  | .mgmtLoadOzrum _ _ => none
  | .mgmtArmLaunch _ => none
  | .trayQuiesce => none
  | .trayDrain => none
  | .trayPoweroff => none
  | .trayReinsertion _ => none
  | .pkgidWrite _ => none
  | .routeEntryWrite _ _ => none
  | .pcapRegisterWrite _ _ => none
  | .pcapStatusClear _ => none
  | .wrlogWrite _ _ => none
  | .lrverWrite _ _ => none
  | .registerWrite _ _ _ => none
  | .powerWindowBoundary _ _ => none
  | .powerOnReset _ => none
  | .heartbeatMiss _ _ _ => none
  | .firmwareUpdate _ _ _ => none
  | .coreLastingFault _ => none
  | .hbmUncorrectableRead _ _ _ _ => none
  | .translationProbe _ => none
  | .faultAnswerRetry _ _ _ _ => none
  | .faultAnswerFail _ _ => none
  | .spdmGetVersion => none
  | .spdmGetCapabilities => none
  | .spdmNegotiateAlgorithms _ => none
  | .spdmGetDigests => none
  | .spdmGetCertificate _ _ => none
  | .spdmChallenge _ => none
  | .spdmGetMeasurements _ => none
  | .tidReleaseMessage _ => none
  | .measurementExtendRequest _ _ => none
  | .bra o => some (encBR 0x01#8 o.pg o.pn o.off)
  | .call o => some (encBR 0x02#8 o.pg o.pn o.off)
  | .jrGo o => some (encRR 0x03#8 0#4 0#4 o.sa 0#5 o.pg o.pn o.w)
  | .jrLink o => some (encRR 0x03#8 1#4 o.sd o.sa 0#5 o.pg o.pn o.w)
  | .jrRet o => some (encRR 0x03#8 2#4 0#4 o.sa 0#5 o.pg o.pn o.w)
  | .taskExit => some (encEN 0x04#8 0#4 0#5 0#5 0#4 0#6)
  | .taskYield => some (encEN 0x04#8 1#4 0#5 0#5 0#4 0#6)
  | .taskPark => some (encEN 0x04#8 2#4 0#5 0#5 0#4 0#6)
  | .taskHaltHalt sa sd => some (encEN 0x04#8 3#4 sa 0#5 sd 0#6)
  | .taskHaltResume sa sd => some (encEN 0x04#8 3#4 sa 0#5 sd 1#6)
  | .taskHaltRetire sa sd => some (encEN 0x04#8 3#4 sa 0#5 sd 2#6)
  | .trapSys code => some (encEN 0x05#8 0#4 0#5 0#5 0#4 code)
  | .trapBrk code => some (encEN 0x05#8 1#4 0#5 0#5 0#4 code)
  | .trapAssert pa code => some (encEN 0x05#8 2#4 (0#1 ++ pa) 0#5 0#4 code)
  | .eret => some (encEN 0x06#8 0#4 0#5 0#5 0#4 0#6)
  | .sysrGet sd sel => some (encEN 0x07#8 0#4 0#5 0#5 sd sel)
  | .sysrSet sa sel => some (encEN 0x07#8 1#4 sa 0#5 0#4 sel)
  | .sysrSetb sa sel => some (encEN 0x07#8 2#4 sa 0#5 0#4 sel)
  | .sysrClrb sa sel => some (encEN 0x07#8 3#4 sa 0#5 0#4 sel)
  | .modeSetrm rm => some (encEN 0x08#8 0#4 0#5 0#5 0#4 (0#3 ++ rm))
  | .modeMobile => some (encEN 0x08#8 1#4 0#5 0#5 0#4 0#6)
  | .modeAnchor => some (encEN 0x08#8 2#4 0#5 0#5 0#4 0#6)
  | .modeGetfl sd => some (encEN 0x08#8 3#4 0#5 0#5 sd 0#6)
  | .modeClrfl mask => some (encEN 0x08#8 4#4 0#5 0#5 0#4 mask)
  | .mbxPost sa sb sd prio => some (encEN 0x09#8 0#4 sa sb sd (0#5 ++ prio))
  | .mbxFetch sa sd => some (encEN 0x09#8 1#4 sa 0#5 sd 0#6)
  | .mbxCount sd => some (encEN 0x09#8 2#4 0#5 0#5 sd 0#6)
  | .waitFull r => some (encEN 0x0A#8 0#4 (0#1 ++ r) 0#5 0#4 0#6)
  | .waitAny sa sd => some (encEN 0x0A#8 1#4 sa 0#5 sd 0#6)
  | .aluAdd o => some (encRR 0x10#8 0#4 o.sd o.sa o.sb o.pg o.pn o.w)
  | .aluSub o => some (encRR 0x10#8 1#4 o.sd o.sa o.sb o.pg o.pn o.w)
  | .aluMul o => some (encRR 0x10#8 2#4 o.sd o.sa o.sb o.pg o.pn o.w)
  | .aluMulh o => some (encRR 0x10#8 3#4 o.sd o.sa o.sb o.pg o.pn o.w)
  | .aluMulhu o => some (encRR 0x10#8 4#4 o.sd o.sa o.sb o.pg o.pn o.w)
  | .aluAnd o => some (encRR 0x10#8 5#4 o.sd o.sa o.sb o.pg o.pn o.w)
  | .aluOr o => some (encRR 0x10#8 6#4 o.sd o.sa o.sb o.pg o.pn o.w)
  | .aluXor o => some (encRR 0x10#8 7#4 o.sd o.sa o.sb o.pg o.pn o.w)
  | .aluAndn o => some (encRR 0x10#8 8#4 o.sd o.sa o.sb o.pg o.pn o.w)
  | .aluOrn o => some (encRR 0x10#8 9#4 o.sd o.sa o.sb o.pg o.pn o.w)
  | .aluShl o => some (encRR 0x10#8 10#4 o.sd o.sa o.sb o.pg o.pn o.w)
  | .aluShr o => some (encRR 0x10#8 11#4 o.sd o.sa o.sb o.pg o.pn o.w)
  | .aluSra o => some (encRR 0x10#8 12#4 o.sd o.sa o.sb o.pg o.pn o.w)
  | .aluRot o => some (encRR 0x10#8 13#4 o.sd o.sa o.sb o.pg o.pn o.w)
  | .aluMin o => some (encRR 0x10#8 14#4 o.sd o.sa o.sb o.pg o.pn o.w)
  | .aluMax o => some (encRR 0x10#8 15#4 o.sd o.sa o.sb o.pg o.pn o.w)
  | .alxMinu o => some (encRR 0x11#8 0#4 o.sd o.sa o.sb o.pg o.pn o.w)
  | .alxMaxu o => some (encRR 0x11#8 1#4 o.sd o.sa o.sb o.pg o.pn o.w)
  | .alxDiv o => some (encRR 0x11#8 2#4 o.sd o.sa o.sb o.pg o.pn o.w)
  | .alxDivu o => some (encRR 0x11#8 3#4 o.sd o.sa o.sb o.pg o.pn o.w)
  | .alxRem o => some (encRR 0x11#8 4#4 o.sd o.sa o.sb o.pg o.pn o.w)
  | .alxRemu o => some (encRR 0x11#8 5#4 o.sd o.sa o.sb o.pg o.pn o.w)
  | .alxClz o => some (encRR 0x11#8 6#4 o.sd o.sa 0#5 o.pg o.pn o.w)
  | .alxCtz o => some (encRR 0x11#8 7#4 o.sd o.sa 0#5 o.pg o.pn o.w)
  | .alxPopc o => some (encRR 0x11#8 8#4 o.sd o.sa 0#5 o.pg o.pn o.w)
  | .alxBrev o => some (encRR 0x11#8 9#4 o.sd o.sa 0#5 o.pg o.pn o.w)
  | .alxBswap o => some (encRR 0x11#8 10#4 o.sd o.sa 0#5 o.pg o.pn o.w)
  | .alxSel o => some (encRR 0x11#8 11#4 o.sd o.sa o.sb o.pg o.pn o.w)
  | .alxLea1 o => some (encRR 0x11#8 12#4 o.sd o.sa o.sb o.pg o.pn o.w)
  | .alxLea2 o => some (encRR 0x11#8 13#4 o.sd o.sa o.sb o.pg o.pn o.w)
  | .alxLea3 o => some (encRR 0x11#8 14#4 o.sd o.sa o.sb o.pg o.pn o.w)
  | .alxLea4 o => some (encRR 0x11#8 15#4 o.sd o.sa o.sb o.pg o.pn o.w)
  | .bitsExt o => some (encRR 0x12#8 0#4 o.sd o.sa o.sb o.pg o.pn o.w)
  | .bitsExtu o => some (encRR 0x12#8 1#4 o.sd o.sa o.sb o.pg o.pn o.w)
  | .bitsIns o => some (encRR 0x12#8 2#4 o.sd o.sa o.sb o.pg o.pn o.w)
  | .movMov o => some (encRR 0x13#8 0#4 o.sd o.sa 0#5 o.pg o.pn o.w)
  | .movMovp o => some (encRR 0x13#8 1#4 o.sd 0#5 0#5 o.pg o.pn o.w)
  | .movSetp o => some (encRR 0x13#8 2#4 0#4 o.sa 0#5 o.pg o.pn o.w)
  | .movZx8 o => some (encRR 0x13#8 3#4 o.sd o.sa 0#5 o.pg o.pn o.w)
  | .movZx16 o => some (encRR 0x13#8 4#4 o.sd o.sa 0#5 o.pg o.pn o.w)
  | .movZx32 o => some (encRR 0x13#8 5#4 o.sd o.sa 0#5 o.pg o.pn o.w)
  | .movSx8 o => some (encRR 0x13#8 6#4 o.sd o.sa 0#5 o.pg o.pn o.w)
  | .movSx16 o => some (encRR 0x13#8 7#4 o.sd o.sa 0#5 o.pg o.pn o.w)
  | .movSx32 o => some (encRR 0x13#8 8#4 o.sd o.sa 0#5 o.pg o.pn o.w)
  | .addi o => some (encRI 0x14#8 o.sd o.sa o.imm)
  | .andi o => some (encRI 0x15#8 o.sd o.sa o.imm)
  | .ori o => some (encRI 0x16#8 o.sd o.sa o.imm)
  | .xori o => some (encRI 0x17#8 o.sd o.sa o.imm)
  | .shli o => some (encRI 0x18#8 o.sd o.sa o.imm)
  | .shri o => some (encRI 0x19#8 o.sd o.sa o.imm)
  | .srai o => some (encRI 0x1A#8 o.sd o.sa o.imm)
  | .li o => some (encRI 0x1B#8 o.sd 0#5 o.imm)
  | .lhi o => some (encRI 0x1C#8 o.sd o.sa o.imm)
  | .muli o => some (encRI 0x1D#8 o.sd o.sa o.imm)
  | .fpuFadd o => some (encRR 0x20#8 0#4 o.sd o.sa o.sb o.pg o.pn o.w)
  | .fpuFsub o => some (encRR 0x20#8 1#4 o.sd o.sa o.sb o.pg o.pn o.w)
  | .fpuFmul o => some (encRR 0x20#8 2#4 o.sd o.sa o.sb o.pg o.pn o.w)
  | .fpuFdiv o => some (encRR 0x20#8 3#4 o.sd o.sa o.sb o.pg o.pn o.w)
  | .fpuFsqrt o => some (encRR 0x20#8 4#4 o.sd o.sa 0#5 o.pg o.pn o.w)
  | .fpuFmin o => some (encRR 0x20#8 5#4 o.sd o.sa o.sb o.pg o.pn o.w)
  | .fpuFmax o => some (encRR 0x20#8 6#4 o.sd o.sa o.sb o.pg o.pn o.w)
  | .fpuFabs o => some (encRR 0x20#8 7#4 o.sd o.sa 0#5 o.pg o.pn o.w)
  | .fpuFneg o => some (encRR 0x20#8 8#4 o.sd o.sa 0#5 o.pg o.pn o.w)
  | .fpuFsgnj o => some (encRR 0x20#8 9#4 o.sd o.sa o.sb o.pg o.pn o.w)
  | .fpuFma o => some (encRR 0x20#8 10#4 o.sd o.sa o.sb o.pg o.pn o.w)
  | .fpuFms o => some (encRR 0x20#8 11#4 o.sd o.sa o.sb o.pg o.pn o.w)
  | .fpuFnma o => some (encRR 0x20#8 12#4 o.sd o.sa o.sb o.pg o.pn o.w)
  | .fpuFclass o => some (encRR 0x20#8 13#4 o.sd o.sa 0#5 o.pg o.pn o.w)
  | .fcvtI2f o => some (encRR 0x21#8 0#4 o.sd o.sa 0#5 o.pg o.pn o.w)
  | .fcvtU2f o => some (encRR 0x21#8 1#4 o.sd o.sa 0#5 o.pg o.pn o.w)
  | .fcvtF2i o => some (encRR 0x21#8 2#4 o.sd o.sa 0#5 o.pg o.pn o.w)
  | .fcvtF2u o => some (encRR 0x21#8 3#4 o.sd o.sa 0#5 o.pg o.pn o.w)
  | .fcvtF2f o => some (encRR 0x21#8 4#4 o.sd o.sa 0#5 o.pg o.pn o.w)
  | .fcvtTobf16 o => some (encRR 0x21#8 5#4 o.sd o.sa 0#5 o.pg o.pn o.w)
  | .fcvtFrombf16 o => some (encRR 0x21#8 6#4 o.sd o.sa 0#5 o.pg o.pn o.w)
  | .fcvtTofp16 o => some (encRR 0x21#8 7#4 o.sd o.sa 0#5 o.pg o.pn o.w)
  | .fcvtFromfp16 o => some (encRR 0x21#8 8#4 o.sd o.sa 0#5 o.pg o.pn o.w)
  | .fcmpFeq o => some (encRR 0x22#8 0#4 o.sd o.sa o.sb o.pg o.pn o.w)
  | .fcmpFlt o => some (encRR 0x22#8 1#4 o.sd o.sa o.sb o.pg o.pn o.w)
  | .fcmpFle o => some (encRR 0x22#8 2#4 o.sd o.sa o.sb o.pg o.pn o.w)
  | .fcmpFun o => some (encRR 0x22#8 3#4 o.sd o.sa o.sb o.pg o.pn o.w)
  | .cmpEq o => some (encRR 0x30#8 0#4 o.sd o.sa o.sb o.pg o.pn o.w)
  | .cmpNe o => some (encRR 0x30#8 1#4 o.sd o.sa o.sb o.pg o.pn o.w)
  | .cmpLt o => some (encRR 0x30#8 2#4 o.sd o.sa o.sb o.pg o.pn o.w)
  | .cmpLtu o => some (encRR 0x30#8 3#4 o.sd o.sa o.sb o.pg o.pn o.w)
  | .cmpLe o => some (encRR 0x30#8 4#4 o.sd o.sa o.sb o.pg o.pn o.w)
  | .cmpLeu o => some (encRR 0x30#8 5#4 o.sd o.sa o.sb o.pg o.pn o.w)
  | .cmpGt o => some (encRR 0x30#8 6#4 o.sd o.sa o.sb o.pg o.pn o.w)
  | .cmpGtu o => some (encRR 0x30#8 7#4 o.sd o.sa o.sb o.pg o.pn o.w)
  | .cmpGe o => some (encRR 0x30#8 8#4 o.sd o.sa o.sb o.pg o.pn o.w)
  | .cmpGeu o => some (encRR 0x30#8 9#4 o.sd o.sa o.sb o.pg o.pn o.w)
  | .cmpTst o => some (encRR 0x30#8 10#4 o.sd o.sa o.sb o.pg o.pn o.w)
  | .ceqi o => some (encRI 0x31#8 o.sd o.sa o.imm)
  | .clti o => some (encRI 0x32#8 o.sd o.sa o.imm)
  | .cltui o => some (encRI 0x33#8 o.sd o.sa o.imm)
  | .predAnd o => some (encRR 0x34#8 0#4 o.pd (0#1 ++ o.pa) (0#1 ++ o.pb) o.pg o.pn o.w)
  | .predOr o => some (encRR 0x34#8 1#4 o.pd (0#1 ++ o.pa) (0#1 ++ o.pb) o.pg o.pn o.w)
  | .predXor o => some (encRR 0x34#8 2#4 o.pd (0#1 ++ o.pa) (0#1 ++ o.pb) o.pg o.pn o.w)
  | .predAndn o => some (encRR 0x34#8 3#4 o.pd (0#1 ++ o.pa) (0#1 ++ o.pb) o.pg o.pn o.w)
  | .predNot o => some (encRR 0x34#8 4#4 o.pd (0#1 ++ o.pa) 0#5 o.pg o.pn o.w)
  | .predMov o => some (encRR 0x34#8 5#4 o.pd (0#1 ++ o.pa) 0#5 o.pg o.pn o.w)
  | .ld o => some (encMEM 0x40#8 o.sd o.sb o.sz o.rh o.off)
  | .st o => some (encMEM 0x41#8 o.sd o.sb o.sz o.rh o.off)
  | .ldacq o => some (encMEM 0x42#8 o.sd o.sb o.sz o.rh o.off)
  | .strel o => some (encMEM 0x43#8 o.sd o.sb o.sz o.rh o.off)
  | .ldsy o => some (encMEM 0x44#8 o.sd o.sb o.sz 0#2 o.off)
  | .stsy o => some (encMEM 0x45#8 o.sd o.sb o.sz 0#2 o.off)
  | .pf o => some (encMEM 0x46#8 0#4 o.sb o.sz o.rh o.off)
  | .amoAdd o => some (encEN 0x47#8 0#4 o.sa o.sb o.sd (o.ord ++ o.sc ++ o.sz))
  | .amoAnd o => some (encEN 0x47#8 1#4 o.sa o.sb o.sd (o.ord ++ o.sc ++ o.sz))
  | .amoOr o => some (encEN 0x47#8 2#4 o.sa o.sb o.sd (o.ord ++ o.sc ++ o.sz))
  | .amoXor o => some (encEN 0x47#8 3#4 o.sa o.sb o.sd (o.ord ++ o.sc ++ o.sz))
  | .amoMin o => some (encEN 0x47#8 4#4 o.sa o.sb o.sd (o.ord ++ o.sc ++ o.sz))
  | .amoMax o => some (encEN 0x47#8 5#4 o.sa o.sb o.sd (o.ord ++ o.sc ++ o.sz))
  | .amoMinu o => some (encEN 0x47#8 6#4 o.sa o.sb o.sd (o.ord ++ o.sc ++ o.sz))
  | .amoMaxu o => some (encEN 0x47#8 7#4 o.sa o.sb o.sd (o.ord ++ o.sc ++ o.sz))
  | .amoSwap o => some (encEN 0x47#8 8#4 o.sa o.sb o.sd (o.ord ++ o.sc ++ o.sz))
  | .amoCas o => some (encEN 0x47#8 9#4 o.sa o.sb o.sd (o.ord ++ o.sc ++ o.sz))
  | .amoFadd o => some (encEN 0x47#8 10#4 o.sa o.sb o.sd (o.ord ++ o.sc ++ o.sz))
  | .redAdd o => some (encEN 0x48#8 0#4 o.sa o.sb 0#4 (0#2 ++ o.sc ++ o.sz))
  | .redFadd o => some (encEN 0x48#8 1#4 o.sa o.sb 0#4 (0#2 ++ o.sc ++ o.sz))
  | .redMin o => some (encEN 0x48#8 2#4 o.sa o.sb 0#4 (0#2 ++ o.sc ++ o.sz))
  | .redMax o => some (encEN 0x48#8 3#4 o.sa o.sb 0#4 (0#2 ++ o.sc ++ o.sz))
  | .redOr o => some (encEN 0x48#8 4#4 o.sa o.sb 0#4 (0#2 ++ o.sc ++ o.sz))
  | .redAnd o => some (encEN 0x48#8 5#4 o.sa o.sb 0#4 (0#2 ++ o.sc ++ o.sz))
  | .fenceAcq sc => some (encEN 0x49#8 0#4 0#5 0#5 0#4 (0#4 ++ sc))
  | .fenceRel sc => some (encEN 0x49#8 1#4 0#5 0#5 0#4 (0#4 ++ sc))
  | .fenceFull sc => some (encEN 0x49#8 2#4 0#5 0#5 0#4 (0#4 ++ sc))
  | .go sa => some (encEN 0x4A#8 0#4 sa 0#5 0#4 0#6)
  | .vfAdd o => some (encVV 0x50#8 0#4 o.vd o.va o.vb o.vm o.ty)
  | .vfSub o => some (encVV 0x50#8 1#4 o.vd o.va o.vb o.vm o.ty)
  | .vfMul o => some (encVV 0x50#8 2#4 o.vd o.va o.vb o.vm o.ty)
  | .vfFma o => some (encVV 0x50#8 3#4 o.vd o.va o.vb o.vm o.ty)
  | .vfFms o => some (encVV 0x50#8 4#4 o.vd o.va o.vb o.vm o.ty)
  | .vfFnma o => some (encVV 0x50#8 5#4 o.vd o.va o.vb o.vm o.ty)
  | .vfMin o => some (encVV 0x50#8 6#4 o.vd o.va o.vb o.vm o.ty)
  | .vfMax o => some (encVV 0x50#8 7#4 o.vd o.va o.vb o.vm o.ty)
  | .vfAbs o => some (encVV 0x50#8 8#4 o.vd o.va 0#5 o.vm o.ty)
  | .vfNeg o => some (encVV 0x50#8 9#4 o.vd o.va 0#5 o.vm o.ty)
  | .vfDiv o => some (encVV 0x50#8 10#4 o.vd o.va o.vb o.vm o.ty)
  | .vfSqrt o => some (encVV 0x50#8 11#4 o.vd o.va 0#5 o.vm o.ty)
  | .vfsAdd o => some (encVV 0x51#8 0#4 o.vd o.va o.sb o.vm o.ty)
  | .vfsSub o => some (encVV 0x51#8 1#4 o.vd o.va o.sb o.vm o.ty)
  | .vfsMul o => some (encVV 0x51#8 2#4 o.vd o.va o.sb o.vm o.ty)
  | .vfsFma o => some (encVV 0x51#8 3#4 o.vd o.va o.sb o.vm o.ty)
  | .vfsFms o => some (encVV 0x51#8 4#4 o.vd o.va o.sb o.vm o.ty)
  | .vfsFnma o => some (encVV 0x51#8 5#4 o.vd o.va o.sb o.vm o.ty)
  | .vfsMin o => some (encVV 0x51#8 6#4 o.vd o.va o.sb o.vm o.ty)
  | .vfsMax o => some (encVV 0x51#8 7#4 o.vd o.va o.sb o.vm o.ty)
  | .vfsAbs o => some (encVV 0x51#8 8#4 o.vd o.va 0#5 o.vm o.ty)
  | .vfsNeg o => some (encVV 0x51#8 9#4 o.vd o.va 0#5 o.vm o.ty)
  | .vfsDiv o => some (encVV 0x51#8 10#4 o.vd o.va o.sb o.vm o.ty)
  | .vfsSqrt o => some (encVV 0x51#8 11#4 o.vd o.va 0#5 o.vm o.ty)
  | .viAdd o => some (encVV 0x52#8 0#4 o.vd o.va o.vb o.vm o.ty)
  | .viSub o => some (encVV 0x52#8 1#4 o.vd o.va o.vb o.vm o.ty)
  | .viMul o => some (encVV 0x52#8 2#4 o.vd o.va o.vb o.vm o.ty)
  | .viMulh o => some (encVV 0x52#8 3#4 o.vd o.va o.vb o.vm o.ty)
  | .viMin o => some (encVV 0x52#8 4#4 o.vd o.va o.vb o.vm o.ty)
  | .viMax o => some (encVV 0x52#8 5#4 o.vd o.va o.vb o.vm o.ty)
  | .viMinu o => some (encVV 0x52#8 6#4 o.vd o.va o.vb o.vm o.ty)
  | .viMaxu o => some (encVV 0x52#8 7#4 o.vd o.va o.vb o.vm o.ty)
  | .viAbs o => some (encVV 0x52#8 8#4 o.vd o.va 0#5 o.vm o.ty)
  | .viNeg o => some (encVV 0x52#8 9#4 o.vd o.va 0#5 o.vm o.ty)
  | .viAdds o => some (encVV 0x52#8 10#4 o.vd o.va o.vb o.vm o.ty)
  | .viSubs o => some (encVV 0x52#8 11#4 o.vd o.va o.vb o.vm o.ty)
  | .visAdd o => some (encVV 0x53#8 0#4 o.vd o.va o.sb o.vm o.ty)
  | .visSub o => some (encVV 0x53#8 1#4 o.vd o.va o.sb o.vm o.ty)
  | .visMul o => some (encVV 0x53#8 2#4 o.vd o.va o.sb o.vm o.ty)
  | .visMulh o => some (encVV 0x53#8 3#4 o.vd o.va o.sb o.vm o.ty)
  | .visMin o => some (encVV 0x53#8 4#4 o.vd o.va o.sb o.vm o.ty)
  | .visMax o => some (encVV 0x53#8 5#4 o.vd o.va o.sb o.vm o.ty)
  | .visMinu o => some (encVV 0x53#8 6#4 o.vd o.va o.sb o.vm o.ty)
  | .visMaxu o => some (encVV 0x53#8 7#4 o.vd o.va o.sb o.vm o.ty)
  | .visAbs o => some (encVV 0x53#8 8#4 o.vd o.va 0#5 o.vm o.ty)
  | .visNeg o => some (encVV 0x53#8 9#4 o.vd o.va 0#5 o.vm o.ty)
  | .visAdds o => some (encVV 0x53#8 10#4 o.vd o.va o.sb o.vm o.ty)
  | .visSubs o => some (encVV 0x53#8 11#4 o.vd o.va o.sb o.vm o.ty)
  | .vlAnd o => some (encVV 0x54#8 0#4 o.vd o.va o.vb o.vm o.ty)
  | .vlOr o => some (encVV 0x54#8 1#4 o.vd o.va o.vb o.vm o.ty)
  | .vlXor o => some (encVV 0x54#8 2#4 o.vd o.va o.vb o.vm o.ty)
  | .vlAndn o => some (encVV 0x54#8 3#4 o.vd o.va o.vb o.vm o.ty)
  | .vlShl o => some (encVV 0x54#8 4#4 o.vd o.va o.vb o.vm o.ty)
  | .vlShr o => some (encVV 0x54#8 5#4 o.vd o.va o.vb o.vm o.ty)
  | .vlSra o => some (encVV 0x54#8 6#4 o.vd o.va o.vb o.vm o.ty)
  | .vlsAnd o => some (encVV 0x55#8 0#4 o.vd o.va o.sb o.vm o.ty)
  | .vlsOr o => some (encVV 0x55#8 1#4 o.vd o.va o.sb o.vm o.ty)
  | .vlsXor o => some (encVV 0x55#8 2#4 o.vd o.va o.sb o.vm o.ty)
  | .vlsAndn o => some (encVV 0x55#8 3#4 o.vd o.va o.sb o.vm o.ty)
  | .vlsShl o => some (encVV 0x55#8 4#4 o.vd o.va o.sb o.vm o.ty)
  | .vlsShr o => some (encVV 0x55#8 5#4 o.vd o.va o.sb o.vm o.ty)
  | .vlsSra o => some (encVV 0x55#8 6#4 o.vd o.va o.sb o.vm o.ty)
  | .vcmpFeq o => some (encVV 0x56#8 0#4 (0#2 ++ o.md) o.va o.vb o.vm o.ty)
  | .vcmpFlt o => some (encVV 0x56#8 1#4 (0#2 ++ o.md) o.va o.vb o.vm o.ty)
  | .vcmpFle o => some (encVV 0x56#8 2#4 (0#2 ++ o.md) o.va o.vb o.vm o.ty)
  | .vcmpFun o => some (encVV 0x56#8 3#4 (0#2 ++ o.md) o.va o.vb o.vm o.ty)
  | .vcmpIeq o => some (encVV 0x56#8 4#4 (0#2 ++ o.md) o.va o.vb o.vm o.ty)
  | .vcmpIlt o => some (encVV 0x56#8 5#4 (0#2 ++ o.md) o.va o.vb o.vm o.ty)
  | .vcmpIltu o => some (encVV 0x56#8 6#4 (0#2 ++ o.md) o.va o.vb o.vm o.ty)
  | .vcmpIle o => some (encVV 0x56#8 7#4 (0#2 ++ o.md) o.va o.vb o.vm o.ty)
  | .vcmpsFeq o => some (encVV 0x57#8 0#4 (0#2 ++ o.md) o.va o.sb o.vm o.ty)
  | .vcmpsFlt o => some (encVV 0x57#8 1#4 (0#2 ++ o.md) o.va o.sb o.vm o.ty)
  | .vcmpsFle o => some (encVV 0x57#8 2#4 (0#2 ++ o.md) o.va o.sb o.vm o.ty)
  | .vcmpsFun o => some (encVV 0x57#8 3#4 (0#2 ++ o.md) o.va o.sb o.vm o.ty)
  | .vcmpsIeq o => some (encVV 0x57#8 4#4 (0#2 ++ o.md) o.va o.sb o.vm o.ty)
  | .vcmpsIlt o => some (encVV 0x57#8 5#4 (0#2 ++ o.md) o.va o.sb o.vm o.ty)
  | .vcmpsIltu o => some (encVV 0x57#8 6#4 (0#2 ++ o.md) o.va o.sb o.vm o.ty)
  | .vcmpsIle o => some (encVV 0x57#8 7#4 (0#2 ++ o.md) o.va o.sb o.vm o.ty)
  | .vsel o => some (encVV 0x58#8 0#4 o.vd o.va o.vb o.vm o.ty)
  | .vcvtNarrow o => some (encVV 0x59#8 0#4 o.vd o.va o.vb o.vm o.ty)
  | .vcvtNarrows o => some (encVV 0x59#8 1#4 o.vd o.va o.vb o.vm o.ty)
  | .vcvtWiden o => some (encVV 0x59#8 2#4 o.vd o.va o.vb o.vm o.ty)
  | .vcvtI2f o => some (encVV 0x59#8 3#4 o.vd o.va o.vb o.vm o.ty)
  | .vcvtF2i o => some (encVV 0x59#8 4#4 o.vd o.va o.vb o.vm o.ty)
  | .vredFsum o => some (encVV 0x5A#8 0#4 o.vd o.va 0#5 o.vm o.ty)
  | .vredFmax o => some (encVV 0x5A#8 1#4 o.vd o.va 0#5 o.vm o.ty)
  | .vredFmin o => some (encVV 0x5A#8 2#4 o.vd o.va 0#5 o.vm o.ty)
  | .vredIsum o => some (encVV 0x5A#8 3#4 o.vd o.va 0#5 o.vm o.ty)
  | .vredImax o => some (encVV 0x5A#8 4#4 o.vd o.va 0#5 o.vm o.ty)
  | .vredImin o => some (encVV 0x5A#8 5#4 o.vd o.va 0#5 o.vm o.ty)
  | .vredAnd o => some (encVV 0x5A#8 6#4 o.vd o.va 0#5 o.vm o.ty)
  | .vredOr o => some (encVV 0x5A#8 7#4 o.vd o.va 0#5 o.vm o.ty)
  | .vpermPerm o => some (encVV 0x5B#8 0#4 o.vd o.va o.vb o.vm o.ty)
  | .vpermRot o => some (encVV 0x5B#8 1#4 o.vd o.va o.vb o.vm o.ty)
  | .vpermBcastl o => some (encVV 0x5B#8 2#4 o.vd o.va o.vb o.vm o.ty)
  | .vpermZip o => some (encVV 0x5B#8 3#4 o.vd o.va o.vb o.vm o.ty)
  | .vpermUnzip o => some (encVV 0x5B#8 4#4 o.vd o.va 0#5 o.vm o.ty)
  | .vpermCompress o => some (encVV 0x5B#8 5#4 o.vd o.va 0#5 o.vm o.ty)
  | .vpermExpand o => some (encVV 0x5B#8 6#4 o.vd o.va 0#5 o.vm o.ty)
  | .vpermIota vd vm ty => some (encVV 0x5B#8 7#4 vd 0#5 0#5 vm ty)
  | .vsfEx2 o => some (encVV 0x5C#8 0#4 o.vd o.va 0#5 o.vm o.ty)
  | .vsfLg2 o => some (encVV 0x5C#8 1#4 o.vd o.va 0#5 o.vm o.ty)
  | .vsfRcp o => some (encVV 0x5C#8 2#4 o.vd o.va 0#5 o.vm o.ty)
  | .vsfRsqrt o => some (encVV 0x5C#8 3#4 o.vd o.va 0#5 o.vm o.ty)
  | .vsfSin o => some (encVV 0x5C#8 4#4 o.vd o.va 0#5 o.vm o.ty)
  | .vsfCos o => some (encVV 0x5C#8 5#4 o.vd o.va 0#5 o.vm o.ty)
  | .vsfTanh o => some (encVV 0x5C#8 6#4 o.vd o.va 0#5 o.vm o.ty)
  | .vsfSigm o => some (encVV 0x5C#8 7#4 o.vd o.va 0#5 o.vm o.ty)
  | .vmvSplat vd sb vm ty => some (encVV 0x5D#8 0#4 vd 0#5 sb vm ty)
  | .vmvExtract sd va sb ty => some (encVV 0x5D#8 1#4 (0#1 ++ sd) va sb 0#3 ty)
  | .vmvInsert vd sa sb ty => some (encVV 0x5D#8 2#4 vd sa sb 0#3 ty)
  | .vmvMtos sd half ma => some (encVV 0x5D#8 3#4 (0#1 ++ sd) (0#1 ++ half ++ ma) 0#5 0#3 0#2)
  | .vmvStom half md sb => some (encVV 0x5D#8 4#4 (0#1 ++ half ++ md) 0#5 sb 0#3 0#2)
  | .vld o => some (encVM 0x60#8 o.v o.sb o.si o.vm o.rh o.ew o.md)
  | .vst o => some (encVM 0x61#8 o.v o.sb o.si o.vm o.rh o.ew o.md)
  | .vgth o => some (encVM 0x62#8 o.v o.sb o.vi o.vm o.rh o.ew 0#2)
  | .vsct o => some (encVM 0x63#8 o.v o.sb o.vi o.vm o.rh o.ew 0#2)
  | .gangForm sa sd => some (encEN 0x64#8 0#4 sa 0#5 sd 0#6)
  | .gangJoin sa sd => some (encEN 0x64#8 1#4 sa 0#5 sd 0#6)
  | .gangDisband => some (encEN 0x64#8 2#4 0#5 0#5 0#4 0#6)
  | .gangIdx sd => some (encEN 0x64#8 3#4 0#5 0#5 sd 0#6)
  | .mmaE4m3 o => some (encMX 0x70#8 o.ac o.asel o.a o.bsel o.b o.da o.db o.sk 0#4)
  | .mmaE5m2 o => some (encMX 0x70#8 o.ac o.asel o.a o.bsel o.b o.da o.db o.sk 1#4)
  | .mmaE4m3e5m2 o => some (encMX 0x70#8 o.ac o.asel o.a o.bsel o.b o.da o.db o.sk 2#4)
  | .mmaE2m1 o => some (encMX 0x70#8 o.ac o.asel o.a o.bsel o.b o.da o.db o.sk 3#4)
  | .mmaBf16 o => some (encMX 0x70#8 o.ac o.asel o.a o.bsel o.b o.da o.db o.sk 4#4)
  | .mmaFp16 o => some (encMX 0x70#8 o.ac o.asel o.a o.bsel o.b o.da o.db o.sk 5#4)
  | .mmaI8 o => some (encMX 0x70#8 o.ac o.asel o.a o.bsel o.b o.da o.db o.sk 6#4)
  | .mmaU8i8 o => some (encMX 0x70#8 o.ac o.asel o.a o.bsel o.b o.da o.db o.sk 7#4)
  | .accZero an => some (encEN 0x71#8 0#4 0#5 0#5 0#4 (0#3 ++ an))
  | .accLd sa sb sd sc an => some (encEN 0x71#8 1#4 sa sb sd (0#1 ++ sc ++ an))
  | .accSt sa sb sd sc an => some (encEN 0x71#8 2#4 sa sb sd (0#1 ++ sc ++ an))
  | .accRowRead va sb an => some (encEN 0x71#8 3#4 va sb 0#4 (0#3 ++ an))
  | .accRowWrite va sb an => some (encEN 0x71#8 3#4 va sb 0#4 (1#3 ++ an))
  | .accScale sa an => some (encEN 0x71#8 4#4 sa 0#5 0#4 (0#3 ++ an))
  | .skdSet sa sb sk => some (encEN 0x72#8 0#4 sa sb 0#4 (0#4 ++ sk))
  | .skdReset sk => some (encEN 0x72#8 1#4 0#5 0#5 0#4 (0#4 ++ sk))
  | .skdPos sd sk => some (encEN 0x72#8 2#4 0#5 0#5 sd (0#4 ++ sk))
  | .cbCfg sa sb sd n => some (encEN 0x80#8 0#4 sa sb sd (0#2 ++ n))
  | .cbPut sa sd n => some (encEN 0x80#8 1#4 sa 0#5 sd (0#2 ++ n))
  | .cbGet sa sd n => some (encEN 0x80#8 2#4 sa 0#5 sd (0#2 ++ n))
  | .cbRoom sd n => some (encEN 0x80#8 3#4 0#5 0#5 sd (0#2 ++ n))
  | .cbCount sd n => some (encEN 0x80#8 4#4 0#5 0#5 sd (0#2 ++ n))
  | .cbWait sa room n => some (encEN 0x80#8 5#4 sa 0#5 0#4 (0#1 ++ room ++ n))
  | .engBind sa sd => some (encEN 0x81#8 0#4 sa 0#5 sd 0#6)
  | .engArm sa => some (encEN 0x81#8 1#4 sa 0#5 0#4 0#6)
  | .engOnce sa => some (encEN 0x81#8 2#4 sa 0#5 0#4 0#6)
  | .engUnbind sa => some (encEN 0x81#8 3#4 sa 0#5 0#4 0#6)
  | .engStat sa sd => some (encEN 0x81#8 4#4 sa 0#5 sd 0#6)
  | .copyLin sa sb sd c => some (encEN 0x82#8 0#4 sa sb sd (0#4 ++ c))
  | .copyTile2d sa sb sd c => some (encEN 0x82#8 1#4 sa sb sd (0#4 ++ c))
  | .copyPeer sa sb sd c => some (encEN 0x82#8 2#4 sa sb sd (0#4 ++ c))
  | .copyBcast sa sb sd c => some (encEN 0x82#8 3#4 sa sb sd (0#4 ++ c))
  | .bankFmtset sa sd n => some (encEN 0x83#8 0#4 sa 0#5 sd (0#2 ++ n))
  | .bankFmtget sd n => some (encEN 0x83#8 1#4 0#5 0#5 sd (0#2 ++ n))
  | .bankGate n => some (encEN 0x83#8 2#4 0#5 0#5 0#4 (0#2 ++ n))
  | .bankWake n => some (encEN 0x83#8 3#4 0#5 0#5 0#4 (0#2 ++ n))
  | .rlkQuery sa sd h => some (encEN 0x84#8 0#4 sa 0#5 sd (0#5 ++ h))
  | .rlkDrop sa => some (encEN 0x84#8 1#4 sa 0#5 0#4 0#6)
  | .barReg sa sb sd bn => some (encEN 0x90#8 0#4 sa sb sd (0#3 ++ bn))
  | .barArrive sd bn => some (encEN 0x90#8 1#4 0#5 0#5 sd (0#3 ++ bn))
  | .barWait sa bn => some (encEN 0x90#8 2#4 sa 0#5 0#4 (0#3 ++ bn))
  | .barArrw sd bn => some (encEN 0x90#8 3#4 0#5 0#5 sd (0#3 ++ bn))
  | .barDrop bn => some (encEN 0x90#8 4#4 0#5 0#5 0#4 (0#3 ++ bn))
  | .arBegin sa sd => some (encEN 0x91#8 0#4 sa 0#5 sd 0#6)
  | .arAbort => some (encEN 0x91#8 1#4 0#5 0#5 0#4 0#6)
  | .arDraw sd => some (encEN 0x91#8 2#4 0#5 0#5 sd 0#6)
  | .arStatus sd => some (encEN 0x91#8 3#4 0#5 0#5 sd 0#6)
  | .pcommit sa sd => some (encEN 0x92#8 0#4 sa 0#5 sd 0#6)
  | .annealCfg sa sb sd => some (encEN 0x93#8 0#4 sa sb sd 0#6)
  | .annealOff sd => some (encEN 0x93#8 1#4 0#5 0#5 sd 0#6)
  | .annealReset sd => some (encEN 0x93#8 2#4 0#5 0#5 sd 0#6)
  | .cacheWb sa sb => some (encEN 0xA0#8 0#4 sa sb 0#4 0#6)
  | .cacheInv sa sb => some (encEN 0xA0#8 1#4 sa sb 0#4 0#6)
  | .cacheHarvest => some (encEN 0xA0#8 2#4 0#5 0#5 0#4 0#6)
  | .cacheRetain sa sb code => some (encEN 0xA0#8 3#4 sa sb 0#4 (0#4 ++ code))
  | .cacheTlbi sa sb kind => some (encEN 0xA0#8 4#4 sa sb 0#4 (0#4 ++ kind))
  | .lrecPatch sa sb sd n => some (encEN 0xA1#8 0#4 sa sb sd (0#1 ++ n))
  | .lrecArm sa sd => some (encEN 0xA1#8 1#4 sa 0#5 sd 0#6)
  | .lrecQuery sa sd n => some (encEN 0xA1#8 2#4 sa 0#5 sd (0#1 ++ n))
  | .lrecCancel sa sd => some (encEN 0xA1#8 3#4 sa 0#5 sd 0#6)
  | .lrecWait sa sd => some (encEN 0xA1#8 4#4 sa 0#5 sd 0#6)
  | .walkNext sd => some (encEN 0xA2#8 0#4 0#5 0#5 sd 0#6)
  | .walkInfo sd sel => some (encEN 0xA2#8 1#4 0#5 0#5 sd sel)
  | .umeCfg sa sd ctx => some (encEN 0xA3#8 0#4 sa 0#5 sd (0#2 ++ ctx))
  | .umeRound sa sd ctx => some (encEN 0xA3#8 1#4 sa 0#5 sd (0#2 ++ ctx))
  | .umeStat sd sel ctx => some (encEN 0xA3#8 2#4 0#5 0#5 sd (sel ++ ctx))
  | .umeDirty sd ctx => some (encEN 0xA3#8 3#4 0#5 0#5 sd (0#2 ++ ctx))
  | .ringPeek sa sd w => some (encEN 0xB0#8 0#4 sa 0#5 sd (0#2 ++ w))
  | .ringBoard sa sd hn => some (encEN 0xB0#8 1#4 sa 0#5 sd (0#4 ++ hn))
  | .ringHget sd w hn => some (encEN 0xB0#8 2#4 0#5 0#5 sd (0#1 ++ w ++ hn))
  | .ringHset sa w hn => some (encEN 0xB0#8 3#4 sa 0#5 0#4 (0#1 ++ w ++ hn))
  | .ringAlight hn => some (encEN 0xB0#8 4#4 0#5 0#5 0#4 (0#4 ++ hn))
  | .ringRel hn => some (encEN 0xB0#8 5#4 0#5 0#5 0#4 (0#4 ++ hn))
  | .ringRadd sa sb w => some (encEN 0xB0#8 6#4 sa sb 0#4 (0#3 ++ w))
  | .ringRmax sa sb sgn w => some (encEN 0xB0#8 7#4 sa sb 0#4 (0#2 ++ sgn ++ w))
  | .msgSend sa sb sd prio => some (encEN 0xB1#8 0#4 sa sb sd (0#5 ++ prio))
  | .msgRecv sa sd => some (encEN 0xB1#8 1#4 sa 0#5 sd 0#6)
  | .msgProbe sa sd => some (encEN 0xB1#8 2#4 sa 0#5 sd 0#6)
  | .hintImmx p => some (encHI 0xF0#8 p)
  | .hintScl v => some (encHI 0xF1#8 (0#19 ++ v))
  | .hintLat lat => some (encHI 0xF2#8 (0#21 ++ lat))
  | .hintRh code => some (encHI 0xF3#8 (0#22 ++ code))
  | .hintSrk k => some (encHI 0xF4#8 k)
  | .hintNop => some (encHI 0xF5#8 0#24)
  | .hintUnnamed op p => some (encHI op p)
  | .illegalWordZeros => some 0x00000000#32
  | .illegalWordOnes => some 0xFFFFFFFF#32
  | .reservedEncoding w => some w

/-- A step that is an instruction word, or a word that is none. -/
def isWord (i : Instr) : Bool := (encode i).isSome

end Sys2Proof
end

