-- ==== Sys2Proof/Config.lean ====
section
/-! DEFINITION. What the spec leaves open: values with no body, so that no proof can see them and a claim holds whatever
they are. A value read afresh each time is such a constant applied to the counter `fresh` of the state (log entry 5). -/

namespace Sys2Proof.Config

/-- Which of the values that R222 allows a special function has at an argument: function, type, magnitude bits of the
argument (log entry 9). -/
opaque sfPick : Nat → BitVec 2 → Nat → Nat

/-- Where `ex2` and `sigm` step from one representable value to the next: function, type, bits of the lower value; the
first argument, as a signed count of encodings, that has the upper one (R222: they never decrease; log entry 9). -/
opaque sfStep : Nat → BitVec 2 → Nat → Int

/-- The signature over an SPDM response: ECDSA P-521 with the device identity key over the bytes (R465; log entry 10). -/
opaque spdmSign : List W8 → BitVec 1056

/-- The certificate chain of the die (R465; log entry 10). -/
opaque certChain : List W8

/-- Digests of what step 5 of the boot measures (R464): register, place in its order. -/
opaque bootDigest : Nat → Nat → BitVec 512

/-- The bytes of the configuration block's field part, by its records as numbers (R457): their form is not given. -/
opaque fieldBytes : List (List Nat) → List W8

/-- Where a byte of a stack lies, by its stack and offset: pseudo-channel, bank and row (R389 fixes no more than the stack). -/
opaque hbmPlace : Nat → Nat → Nat × Nat × Nat

/-- A word that the spec leaves open (log entry 5). -/
opaque freeWord : Nat → BitVec 64

end Sys2Proof.Config
end

