-- ==== Sys2Proof/Machine/Float.lean ====
section
/-! DEFINITION. Number formats and exact arithmetic (R206-R227): values are exact rationals m x 2^e over a denominator,
and every result is rounded once. Bits are carried as natural numbers. -/

namespace Sys2Proof.Machine

/-- A floating-point format (R206, R207). -/
structure Fmt where
  ebits : Nat
  mbits : Nat
  bias  : Nat
  /-- exponent all ones holds infinities and NaNs -/
  ieee  : Bool
  /-- S.1111.111 alone is a NaN (E4M3) -/
  oneNan : Bool := false
deriving DecidableEq, Repr

def fp64 : Fmt := ⟨11, 52, 1023, true, false⟩
def fp32 : Fmt := ⟨8, 23, 127, true, false⟩
def bf16 : Fmt := ⟨8, 7, 127, true, false⟩
def fp16 : Fmt := ⟨5, 10, 15, true, false⟩
def e4m3 : Fmt := ⟨4, 3, 7, false, true⟩
def e5m2 : Fmt := ⟨5, 2, 15, true, false⟩
def e2m1 : Fmt := ⟨2, 1, 1, false, false⟩

def Fmt.width (f : Fmt) : Nat := 1 + f.ebits + f.mbits
/-- The exponent of the lowest mantissa bit of a subnormal. -/
def Fmt.qmin (f : Fmt) : Int := 1 - (f.bias : Int) - f.mbits
/-- Magnitude bits of the largest finite value (R206). -/
def Fmt.maxBits (f : Fmt) : Nat :=
  if f.ieee then (2 ^ f.ebits - 1) * 2 ^ f.mbits - 1
  else if f.oneNan then 2 ^ (f.ebits + f.mbits) - 2 else 2 ^ (f.ebits + f.mbits) - 1
def Fmt.infBits (f : Fmt) : Nat := (2 ^ f.ebits - 1) * 2 ^ f.mbits
/-- The canonical NaN (R207); E2M1 has none and takes +0. -/
def Fmt.nanBits (f : Fmt) : Nat :=
  if f.ieee then f.infBits + 2 ^ (f.mbits - 1) else if f.oneNan then 0x7F else 0
def Fmt.signBit (f : Fmt) : Nat := 2 ^ (f.ebits + f.mbits)

/-- A decoded value. -/
inductive FVal where
  | nan (signalling : Bool)
  | inf (neg : Bool)
  | fin (neg : Bool) (m : Nat) (e : Int)
deriving DecidableEq, Repr

/-- Decode an encoding (R206, R207). Every NaN of an 8-bit format is quiet. -/
def Fmt.unpack (f : Fmt) (b : Nat) : FVal :=
  let neg := b / f.signBit % 2 == 1
  let mag := b % f.signBit
  let ex := mag / 2 ^ f.mbits
  let m := mag % 2 ^ f.mbits
  if f.ieee && ex == 2 ^ f.ebits - 1 then
    if m = 0 then .inf neg else .nan (decide (f.mbits > 2) && m / 2 ^ (f.mbits - 1) % 2 == 0)
  else if f.oneNan && mag == 0x7F then .nan false
  else if ex = 0 then .fin neg m f.qmin
  else .fin neg (m + 2 ^ f.mbits) (f.qmin + ex - 1)

def FVal.isNan : FVal → Bool | .nan _ => true | _ => false
def FVal.isSnan : FVal → Bool | .nan s => s | _ => false
def FVal.isInf : FVal → Bool | .inf _ => true | _ => false
def FVal.isZero : FVal → Bool | .fin _ m _ => m == 0 | _ => false
def FVal.neg? : FVal → Bool | .nan _ => false | .inf n => n | .fin n _ _ => n
def FVal.negate : FVal → FVal | .nan s => .nan s | .inf n => .inf (!n) | .fin n m e => .fin (!n) m e

/-! Flags, in the order of STATUS[8:3] (R18). -/
def fNV : BitVec 6 := 1
def fDZ : BitVec 6 := 2
def fOF : BitVec 6 := 4
def fUF : BitVec 6 := 8
def fNX : BitVec 6 := 16
def fSRSUB : BitVec 6 := 32

/-- Rounding modes (R212); the stochastic mode carries its draw as a multiple of 2^-24 (R225), and `det` takes its place
in a deterministic launch (R227). -/
inductive Mode where
  | rne | rtz | rup | rdn | rna | det
  | sr (u : Nat)
deriving DecidableEq, Repr

/-- STATUS.RM for an instruction that is no conversion: stochastic rounds to nearest even (R19, R131). -/
def modeOf (rm : BitVec 3) : Mode :=
  match rm.toNat with
  | 1 => .rtz | 2 => .rup | 3 => .rdn | 4 => .rna | _ => .rne

/-- Whether the quotient `n + r/d` is rounded away from zero (R212, R225). -/
def Mode.up (md : Mode) (neg : Bool) (n r d : Nat) : Bool :=
  match md with
  | .rne | .det => decide (2 * r > d) || (decide (2 * r = d) && n % 2 == 1)
  | .rtz => false
  | .rup => !neg && decide (r ≠ 0)
  | .rdn => neg && decide (r ≠ 0)
  | .rna => decide (2 * r ≥ d)
  | .sr u => decide (u * d < r * 2 ^ 24)

/-- floor(log2(num / den)) for num, den > 0. -/
def ilog2 (num den : Nat) : Int :=
  let g : Int := (Nat.log2 num : Int) - Nat.log2 den
  -- num / den lies in [2^(g-1), 2^(g+1))
  if g ≥ 0 then (if num ≥ den * 2 ^ g.toNat then g else g - 1)
  else (if num * 2 ^ (-g).toNat ≥ den then g else g - 1)

/-- Quotient, remainder and divisor of num x 2^e / den in units of 2^q. -/
def quant (num den : Nat) (e q : Int) : Nat × Nat × Nat :=
  let n := if e ≥ q then num * 2 ^ (e - q).toNat else num
  let d := if e ≥ q then den else den * 2 ^ (q - e).toNat
  (n / d, n % d, d)

/-- A rounded result: its bits, the flags it raises, and whether it is inexact and within range (R227). -/
structure FRes where
  v  : Nat
  fl : BitVec 6 := 0
  draw : Bool := false
deriving DecidableEq, Repr

def Fmt.signed (f : Fmt) (neg : Bool) (mag : Nat) : Nat := if neg then mag + f.signBit else mag

/-- The overflowed result (R213). -/
def Fmt.overflow (f : Fmt) (md : Mode) (neg : Bool) : FRes :=
  let big := f.maxBits
  let mag := if !f.ieee then big
    else match md with
      | .rtz => big
      | .rup => if neg then big else f.infBits
      | .rdn => if neg then f.infBits else big
      | _ => f.infBits
  ⟨f.signed neg mag, fOF ||| fNX, false⟩

/-- Round num x 2^e / den, not zero, to a format (R131, R212, R213, R225). -/
def Fmt.round (f : Fmt) (md : Mode) (neg : Bool) (num den : Nat) (e : Int) : FRes :=
  let ex := ilog2 num den + e
  let q := max (ex - f.mbits) f.qmin
  let (n, r, d) := quant num den e q
  let n1 := if md.up neg n r d then n + 1 else n
  let mag := (q - f.qmin).toNat * 2 ^ f.mbits + n1
  -- a stochastic conversion of a value above the largest finite one overflows as RNE does (R225)
  let above := mag > f.maxBits || (match md with
    | .sr _ | .det => decide ((q - f.qmin).toNat * 2 ^ f.mbits + n ≥ f.maxBits) && r != 0 ||
        decide ((q - f.qmin).toNat * 2 ^ f.mbits + n > f.maxBits)
    | _ => false)
  if above then
    match md with
    | .sr _ | .det =>
      -- to nearest even, which may still give the largest finite value (log entry 28)
      if (q - f.qmin).toNat * 2 ^ f.mbits + (if Mode.rne.up neg n r d then n + 1 else n) > f.maxBits then f.overflow .rne neg
      else { f.overflow .rne neg with v := f.signed neg f.maxBits }
    | m => f.overflow m neg
  else
    -- tininess after rounding: with an unbounded exponent the result stays below the smallest normal (R131)
    let tiny := decide (ex < 1 - (f.bias : Int)) &&
      (let (n2, r2, d2) := quant num den e (ex - f.mbits)
       let n3 := if md.up neg n2 r2 d2 then n2 + 1 else n2
       !(decide (ex + 1 = 1 - (f.bias : Int)) && n3 == 2 ^ (f.mbits + 1)))
    let inexact := r != 0
    ⟨f.signed neg mag, (if inexact then fNX else 0) ||| (if inexact && tiny then fUF else 0), inexact⟩

def Fmt.nan (f : Fmt) (nv : Bool) : FRes := ⟨f.nanBits, if nv then fNV else 0, false⟩
def Fmt.inf (f : Fmt) (neg : Bool) : FRes := ⟨f.signed neg f.infBits, 0, false⟩
def Fmt.zero (f : Fmt) (neg : Bool) : FRes := ⟨f.signed neg 0, 0, false⟩

/-- Round an exact value, a zero kept with the sign given. -/
def Fmt.roundZ (f : Fmt) (md : Mode) (neg : Bool) (num den : Nat) (e : Int) : FRes :=
  if num = 0 then f.zero neg else f.round md neg num den e

/-- An exact sum of two dyadic values as sign, magnitude and exponent; `none` for an exact zero. -/
def dyAdd (n1 : Bool) (m1 : Nat) (e1 : Int) (n2 : Bool) (m2 : Nat) (e2 : Int) : Int × Int :=
  let e := min e1 e2
  let a : Int := (m1 * 2 ^ (e1 - e).toNat : Nat)
  let b : Int := (m2 * 2 ^ (e2 - e).toNat : Nat)
  ((if n1 then -a else a) + (if n2 then -b else b), e)

/-- round(x + y) (R131, R132). -/
def Fmt.add (f : Fmt) (md : Mode) (x y : FVal) : FRes :=
  match x, y with
  | .nan a, b => f.nan (a || b.isSnan)
  | a, .nan b => f.nan (a.isSnan || b)
  | .inf a, .inf b => if a = b then f.inf a else f.nan true
  | .inf a, _ => f.inf a
  | _, .inf b => f.inf b
  | .fin n1 m1 e1, .fin n2 m2 e2 =>
    let (v, e) := dyAdd n1 m1 e1 n2 m2 e2
    if v = 0 then f.zero (if n1 = n2 then n1 else md == .rdn)
    else f.round md (decide (v < 0)) v.natAbs 1 e

/-- round(x × y) (R132). -/
def Fmt.mul (f : Fmt) (md : Mode) (x y : FVal) : FRes :=
  match x, y with
  | .nan a, b => f.nan (a || b.isSnan)
  | a, .nan b => f.nan (a.isSnan || b)
  | .inf a, b => if b.isZero then f.nan true else f.inf (xor a b.neg?)
  | a, .inf b => if a.isZero then f.nan true else f.inf (xor a.neg? b)
  | .fin n1 m1 e1, .fin n2 m2 e2 => f.roundZ md (xor n1 n2) (m1 * m2) 1 (e1 + e2)

/-- round(x / y) (R132). -/
def Fmt.div (f : Fmt) (md : Mode) (x y : FVal) : FRes :=
  match x, y with
  | .nan a, b => f.nan (a || b.isSnan)
  | a, .nan b => f.nan (a.isSnan || b)
  | .inf a, b => if b.isInf then f.nan true else f.inf (xor a b.neg?)
  | a, .inf b => f.zero (xor a.neg? b)
  | .fin n1 m1 e1, .fin n2 m2 e2 =>
    if m2 = 0 then
      if m1 = 0 then f.nan true else { f.inf (xor n1 n2) with fl := fDZ }
    else f.roundZ md (xor n1 n2) m1 m2 (e1 - e2)

/-- Bits of the integer square root, from bit `k - 1` down. -/
def isqrtGo (n : Nat) : Nat → Nat → Nat
  | 0, r => r
  | k + 1, r =>
    let c := r + 2 ^ k
    isqrtGo n k (if c * c ≤ n then c else r)
def isqrt (n : Nat) : Nat := isqrtGo n (Nat.log2 n / 2 + 1) 0

/-- round(√x) (R132): enough root bits that the discarded part only decides exactness. -/
def Fmt.sqrt (f : Fmt) (md : Mode) (x : FVal) : FRes :=
  match x with
  | .nan a => f.nan a
  | .inf n => if n then f.nan true else f.inf false
  | .fin n m e =>
    if m = 0 then f.zero n
    else if n then f.nan true
    else
      let k := 2 * f.mbits + 8
      let odd := (e % 2).toNat
      let big := m * 2 ^ odd * 2 ^ (2 * k)
      let r := isqrt big
      f.round md false (2 * r + if r * r = big then 0 else 1) 1 ((e - odd) / 2 - k - 1)

/-- round(x × y + z), the product exact (R132). -/
def Fmt.fma (f : Fmt) (md : Mode) (x y z : FVal) : FRes :=
  let bad := (x.isInf && y.isZero) || (x.isZero && y.isInf)
  if x.isNan || y.isNan || z.isNan then f.nan (bad || x.isSnan || y.isSnan || z.isSnan)
  else if bad then f.nan true
  else
    let ns := xor x.neg? y.neg?
    match x, y, z with
    | .fin _ m1 e1, .fin _ m2 e2, .fin n3 m3 e3 =>
      let (v, e) := dyAdd ns (m1 * m2) (e1 + e2) n3 m3 e3
      if v = 0 then f.zero (if ns = n3 then n3 else md == .rdn)
      else f.round md (decide (v < 0)) v.natAbs 1 e
    | _, _, .inf n3 => if (x.isInf || y.isInf) && ns != n3 then f.nan true else f.inf n3
    | _, _, _ => f.inf ns

/-- x compared with y, both no NaN: negative, zero or positive; zeros are equal. -/
def FVal.cmp : FVal → FVal → Int
  | .fin n1 m1 e1, .fin n2 m2 e2 => (dyAdd n1 m1 e1 (!n2) m2 e2).1
  | .inf a, .inf b => (if a then -1 else 1) - (if b then -1 else 1)
  | .inf a, _ => if a then -1 else 1
  | _, .inf b => if b then 1 else -1
  | _, _ => 0

/-- The order of fmin and fmax: −0 below +0 (R133). -/
def FVal.below (x y : FVal) : Bool :=
  decide (x.cmp y < 0) || (x.isZero && y.isZero && x.neg? && !y.neg?)
/-- fmin and fmax (R133). -/
def Fmt.minmax (f : Fmt) (wantMax : Bool) (a b : Nat) : FRes :=
  let x := f.unpack a
  let y := f.unpack b
  let fl := if x.isSnan || y.isSnan then fNV else 0
  if x.isNan && y.isNan then ⟨f.nanBits, fl, false⟩
  else if x.isNan then ⟨b, fl, false⟩
  else if y.isNan then ⟨a, fl, false⟩
  else ⟨if (if wantMax then y.below x else x.below y) then a else b, fl, false⟩

/-- The class mask of R134. -/
def Fmt.classMask (f : Fmt) (b : Nat) : Nat :=
  match f.unpack b with
  | .nan s => if s then 2 ^ 8 else 2 ^ 9
  | .inf n => if n then 1 else 2 ^ 7
  | .fin n m _ =>
    let sub := decide (m < 2 ^ f.mbits)
    if m = 0 then (if n then 2 ^ 3 else 2 ^ 4)
    else if sub then (if n then 2 ^ 2 else 2 ^ 5)
    else (if n then 2 else 2 ^ 6)

/-- Conversion between float formats (R135, R213): an infinity or a NaN into a format that lacks it has the value of R213
and raises NV; a signalling NaN raises NV. -/
def Fmt.convert (f : Fmt) (md : Mode) (x : FVal) : FRes :=
  match x with
  | .nan s => ⟨f.nanBits, if s || (!f.ieee && !f.oneNan) then fNV else 0, false⟩
  | .inf n => if f.ieee then f.inf n else ⟨f.signed n f.maxBits, fNV, false⟩
  | .fin n m e => f.roundZ md n m 1 e

/-- Conversion of an integer. -/
def Fmt.ofInt (f : Fmt) (md : Mode) (v : Int) : FRes := f.roundZ md (decide (v < 0)) v.natAbs 1 0

/-- Conversion to an integer in [lo, hi] (R136, R214). -/
def toIntRes (md : Mode) (lo hi : Int) (x : FVal) : Int × BitVec 6 × Bool :=
  match x with
  | .nan _ => (0, fNV, false)
  | .inf n => (if n then lo else hi, fNV, false)
  | .fin n m e =>
    let (q, r, d) := quant m 1 e 0
    let q1 := if md.up n q r d then q + 1 else q
    let v : Int := if n then -(q1 : Int) else q1
    if v > hi then (hi, fNV, false)
    else if v < lo then (lo, fNV, false)
    else (v, if r != 0 then fNX else 0, r != 0)

/-! ## The draw function (R223) -/

def drawPass (h : BitVec 32) : BitVec 32 := (h ^^^ (h >>> 16)) * 0x45D9F3B5
/-- DRAW(key, step) in units of 2^-24. -/
def drawU (key step : W64) : Nat :=
  let k := key.extractLsb' 0 32 ^^^ key.extractLsb' 32 32
  let t := step.extractLsb' 0 32 ^^^ step.extractLsb' 32 32
  let h := drawPass (drawPass (k + 0x9E3779B9 * (t + 1)))
  ((h ^^^ (h >>> 16)) >>> 8).toNat

/-- FP32 bits of a draw (R332): exact. -/
def drawFp32 (u : Nat) : W64 := BitVec.ofNat 64 (fp32.roundZ .rne false u 1 (-24)).v

/-! ## Number-format codes (R186, R210) -/

/-- What an element of a format code is. -/
inductive Elem where
  | raw
  | flt (f : Fmt)
  | int (bits : Nat) (signed : Bool)
deriving DecidableEq, Repr

def elemOf (code : Nat) : Elem :=
  match code with
  | 1 => .flt fp32 | 2 => .flt bf16 | 3 => .flt fp16 | 4 => .flt e4m3 | 5 => .flt e5m2 | 6 => .flt e2m1
  | 7 => .int 8 true | 8 => .int 8 false | 9 => .int 32 true | _ => .raw
/-- Bits of an element. -/
def Elem.bits : Elem → Nat
  | .raw => 8
  | .flt f => f.width
  | .int b _ => b
def intRange (bits : Nat) (signed : Bool) : Int × Int :=
  if signed then (-(2 ^ (bits - 1) : Int), 2 ^ (bits - 1) - 1) else (0, 2 ^ bits - 1)
def intVal (bits : Nat) (signed : Bool) (v : Nat) : Int :=
  if signed && decide (v ≥ 2 ^ (bits - 1)) then (v : Int) - 2 ^ bits else v
def intBits (bits : Nat) (v : Int) : Nat := (v % (2 ^ bits : Int)).toNat

/-- The conversions of copies between banks (R188), which raise nothing. -/
def copyConvert (src dst : Elem) (v : Nat) : Nat :=
  match src, dst with
  | .flt a, .flt b => (b.convert .rne (a.unpack v)).v
  | .flt a, .int n sg => intBits n (toIntRes .rne (intRange n sg).1 (intRange n sg).2 (a.unpack v)).1
  | .int n sg, .flt b => (b.ofInt .rne (intVal n sg v)).v
  | .int n sg, .int k sk =>
    let x := intVal n sg v
    intBits k (max (intRange k sk).1 (min (intRange k sk).2 x))
  | _, _ => v

/-! ## Matrix sums (R216-R218) -/

/-- What a promotion group has met so far: exact sum in units of 2^q, infinities, a NaN, a zero times infinity, and
whether every product was −0. -/
structure Group where
  sum  : Int := 0
  pinf : Bool := false
  ninf : Bool := false
  nan  : Bool := false
  zinf : Bool := false
  allNegZero : Bool := true
deriving DecidableEq, Repr

/-- Add a product to a group whose unit is 2^q, q below every product's exponent. -/
def Group.addProd (g : Group) (q : Int) (x y : FVal) : Group :=
  match x, y with
  | .fin n1 m1 e1, .fin n2 m2 e2 =>
    let v : Int := (m1 * m2 * 2 ^ (e1 + e2 - q).toNat : Nat)
    let neg := xor n1 n2
    { g with sum := g.sum + (if neg then -v else v), allNegZero := g.allNegZero && (v == 0 && neg) }
  | .nan _, _ => { g with nan := true, allNegZero := false }
  | _, .nan _ => { g with nan := true, allNegZero := false }
  | a, b =>
    if a.isZero || b.isZero then { g with zinf := true, allNegZero := false }
    else if xor a.neg? b.neg? then { g with ninf := true, allNegZero := false }
    else { g with pinf := true, allNegZero := false }

/-- p of R216, and whether the group sets NV (R218). -/
def Group.p (g : Group) (q : Int) : Nat × Bool :=
  let nv := g.zinf || (g.pinf && g.ninf)
  if g.nan || nv then (fp32.nanBits, nv)
  else if g.pinf then (fp32.infBits, false)
  else if g.ninf then (fp32.signed true fp32.infBits, false)
  else if g.sum = 0 then (fp32.signed g.allNegZero 0, false)
  else ((fp32.round .rne (decide (g.sum < 0)) g.sum.natAbs 1 q).v, false)

/-- A valid scale is a positive normal number (R211). -/
def scaleOk (b : Nat) : Bool := decide (b / 2 ^ 31 = 0) && decide (1 ≤ b / 2 ^ 23) && decide (b / 2 ^ 23 ≤ 254)

def mulRne (a b : Nat) : Nat := (fp32.mul .rne (fp32.unpack a) (fp32.unpack b)).v
def addRne (a b : Nat) : Nat := (fp32.add .rne (fp32.unpack a) (fp32.unpack b)).v

/-- A product of zero and infinity (R218). -/
def zeroTimesInf (a b : FVal) : Bool := (a.isZero && b.isInf) || (a.isInf && b.isZero)

/-- One group applied to an accumulator element: the new element, NV and OF (R216, R218). `inf` says that the group had
an infinite or NaN operand. -/
def applyGroup (acc p : Nat) (inf : Bool) (scales : Option (Nat × Nat)) : Nat × Bool × Bool :=
  let (q, bad, zi) := match scales with
    | none => (p, false, false)
    | some (sa, sb) =>
      let s := mulRne sa sb
      if scaleOk sa && scaleOk sb then (mulRne p s, false, zeroTimesInf (fp32.unpack p) (fp32.unpack s))
      else (fp32.nanBits, true, false)
  let fin := fun b => match fp32.unpack b with | .fin _ _ _ => true | _ => false
  if bad then (fp32.nanBits, true, false)
  else
    let r := addRne acc q
    (r, zi, fin acc && !inf && (fp32.unpack r).isInf)

end Sys2Proof.Machine
end

