-- ==== Sys2Proof/Machine/Tab.lean ====
section
/-! DEFINITION. Sparse tables with natural-number keys: lists sorted by key, no key twice. Memory, full/empty words and
every array of registers that is mostly at its reset value are such tables (log entry 1). -/

namespace Sys2Proof.Machine

/-- A table: keys rise strictly. -/
abbrev Tab (α : Type) := List (Nat × α)

/-- The entry at a key. -/
def Tab.find {α : Type} : Tab α → Nat → Option α
  | [], _ => none
  | (k, v) :: r, a => if k = a then some v else Tab.find r a

/-- The entry at a key, or the value an unlisted key has. -/
def Tab.getD {α : Type} (t : Tab α) (a : Nat) (d : α) : α := (t.find a).getD d

/-- Remove what is listed at a key. -/
def Tab.erase {α : Type} : Tab α → Nat → Tab α
  | [], _ => []
  | (k, v) :: r, a => if k = a then Tab.erase r a else (k, v) :: Tab.erase r a

/-- Write the entry at a key. -/
def Tab.set {α : Type} : Tab α → Nat → α → Tab α
  | [], a, x => [(a, x)]
  | (k, v) :: r, a, x =>
    if a < k then (a, x) :: (k, v) :: r
    else if k = a then (a, x) :: r
    else (k, v) :: Tab.set r a x

/-- Write a value in the canonical form: the value an unlisted key has is not listed. -/
def Tab.put {α : Type} [DecidableEq α] (t : Tab α) (d : α) (a : Nat) (x : α) : Tab α :=
  if x = d then t.erase a else t.set a x

/-- Change the entry at a key, starting from `d` where there is none. -/
def Tab.modD {α : Type} (t : Tab α) (a : Nat) (d : α) (f : α → α) : Tab α := t.set a (f (t.getD a d))

/-- The keys rise strictly. -/
def Tab.sorted {α : Type} : Tab α → Bool
  | [] => true
  | [_] => true
  | (a, _) :: (b, y) :: r => decide (a < b) && Tab.sorted ((b, y) :: r)

/-- The canonical form of a table whose unlisted keys read `d`: keys rise strictly and no entry holds `d`. -/
def Tab.wf {α : Type} [DecidableEq α] (d : α) (t : Tab α) : Bool := t.sorted && t.all (fun e => decide (e.2 ≠ d))

/-- Insert by an order that holds between elements in place. -/
def insertBy {α : Type} (le : α → α → Bool) (x : α) : List α → List α
  | [] => [x]
  | y :: r => if le x y then x :: y :: r else y :: insertBy le x r

/-- A list in an order, equal elements as they stood. -/
def sortBy {α : Type} (le : α → α → Bool) (l : List α) : List α := l.foldr (insertBy le) []

/-- Numbers in ascending order. -/
def sortNat (l : List Nat) : List Nat := sortBy (fun a b => decide (a ≤ b)) l

end Sys2Proof.Machine
end

