-- ==== Sys2Proof/Machine/State.lean ====
section
/-! DEFINITION. The state of one LX9 package as plain data: every register, queue and memory that spec/ names. A field's
default is its value right after reset; INVENTORY.md lists each with its rule. Arrays that are mostly at their reset
value are sparse tables (`Tab`). -/

namespace Sys2Proof.Machine

/-- Why the machine stops with a fault: none of these is a trap, which is a next state. -/
inductive Fault where
  /-- Raised by `step` alone: no thread and no event can come next although one must (never reached from a state with a
  detector sweep due); safe, the machine stops where the hardware would idle. -/
  | idle
deriving DecidableEq, Repr

/-- Why a step has no next state. -/
inductive Refusal where
  /-- Raised by `exec` for an instruction that has no meaning in the model; safe, nothing is claimed of it. -/
  | notModelled (mnemonic : String)
  /-- Raised by an event whose precondition does not hold in this state: the hardware does not perform that step now;
  safe (log entry 8). -/
  | notOffered (event : String)
  /-- Raised by an instruction word when the issuing thread does not exist or cannot issue; safe (log entry 8). -/
  | notIssuing
deriving DecidableEq, Repr

/-- Trap causes (R36). -/
inductive Cause where
  | illegal | reserved | privilege | emptyReg | misaligned | addressSpace | localProt | page | peerAbsent | lock | fp
  | syncLimit | ring | gang | deadlock | determinism | memError | scale | codeAbsent | sys | brk | assert
deriving DecidableEq, Repr

/-- What a parked thread waits for (R20, R178). -/
inductive Wait where
  /-- a scalar register is full -/
  | reg (n : BitVec 4)
  /-- some register of a mask is full (R176) -/
  | anyReg (m : W16)
  /-- a vector register is not pending (R234) -/
  | vreg (v : BitVec 5)
  /-- every long-latency producer has filled (R118, R326) -/
  | producers
  /-- every load and atomic has filled (R160) -/
  | loads
  /-- every store, atomic and reduction is acknowledged (R118) -/
  | drained
  /-- fewer than 32 outstanding accesses (R142) -/
  | slots32
  /-- an older load of the thread has read the bytes this store writes (R45) -/
  | war (id : Nat)
  /-- an entry of a line (address divided by 64) in the cluster's buffer has drained (R151, R283, R330) -/
  | entry (va : Nat)
  /-- a release has completed (R151) -/
  | release
  /-- the thread's request number `id` is done -/
  | request (id : Nat)
  /-- the wake token (R120) -/
  | token
  /-- the supervisor branch of R38, at this trap_pc -/
  | supervisor
  /-- held by R228 -/
  | fpHeld
  /-- a start message for the thread's image (R30) -/
  | code
  /-- room in the cluster store buffer (R281) -/
  | storeRoom
  /-- room in the range-lock table (R199) -/
  | lockRoom (n : Nat)
  /-- room in the matrix engine's queue (R196) -/
  | mmaRoom
  /-- no queued operation uses the accumulator (R196) -/
  | acc (a : Nat)
  /-- no queued operation reads the vector register (R197) -/
  | vsrc (v : BitVec 5)
  /-- room in the dirty log (R400) -/
  | dirtyRoom
  /-- room in the write-range log buffer (R5, R316) -/
  | logRoom
  /-- a bank has woken (R192) -/
  | bank (b : Nat)
  /-- the count or room of a circular buffer (R267) -/
  | cbCount (cb n : Nat)
  | cbRoom (cb n : Nat)
  /-- a binding is idle (R270) -/
  | engine (b : Nat)
  /-- a barrier tag's DONE has reached a phase (R296) -/
  | barrier (tag : Nat) (k : W32)
  /-- a gang of the thread's slot is formed or pending (R289, R291) -/
  | gangJoin (leader : Nat)
  | gangForm
  /-- the die's priority is the thread's (R336) -/
  | place
  /-- the arbiter admits the place of a region that commits with a ratio (R336, R347) -/
  | placeAt (ratio : W32)
  /-- the turn of the deterministic lane (R320) -/
  | turn
  /-- the core's lines with an unacknowledged store have gone (R307, R323) -/
  | merge
  /-- every home echoes a maintenance operation (R323) -/
  | echo
  /-- a launch record's state (R361) -/
  | launch (lid : W16) (st : BitVec 8)
  /-- the ring has room at the station or an operation has reached its point (R413, R161) -/
  | stationRoom
  | ringDone
  | ringHold (h : BitVec 2)
  /-- the active controller of a die (R463) -/
  | controller (die : Nat)
  /-- a walker's answer (R367) -/
  | walker
  /-- the clearing of the task's scratchpad (R190) -/
  | clearing
  /-- the controller's answer to a translation fault (R399) -/
  | translation
  /-- the end of a halt (R121) -/
  | halt (core : Nat)
  /-- earlier copies to another package (R441) -/
  | peerCopy (pkg : W16)
deriving DecidableEq, Repr

/-- How a thread stands with the barrel (R178, R179). -/
inductive Run where
  /-- ready since a cycle, in no slot -/
  | ready (since : Nat)
  /-- in its slot; its next turn is at or after a cycle -/
  | slot (next : Nat)
  | parked (w : Wait)
  /-- waiting to depart to a home core, or in a migration message (R27) -/
  | departing (dest : Nat)
  | travelling (dest : Nat)
  /-- stopped by a pre-emption (R370) or a halt of its core (R121); where it stood before -/
  | stopped (parkedBySup : Bool)
deriving DecidableEq, Repr

/-- The light context (R16) and what is kept beside it (R38, R39, R120, R224). -/
structure Ctx where
  x      : Vector W64 16 := Vector.replicate 16 0
  fe     : W16 := 0xFFFF
  pred   : W16 := 1
  pc     : W32 := 0
  img    : W16 := 0
  asid   : W16 := 0
  lid    : W16 := 0
  ord    : W32 := 0
  status : W32 := 0
  hint   : W64 := 0
  shadow : W64 := 0
  ecause : W16 := 0
  epc    : BitVec 48 := 0
  eval   : W64 := 0
  evec   : W64 := 0
  cvc    : W32 := 0
  wake   : Bool := false
deriving DecidableEq, Repr

/-- A set of lines (R331): the first 64 exactly, how many there were, and a signature. -/
structure LineSet where
  lines : List Nat := []
  count : Nat := 0
  sig   : BitVec 1024 := 0
deriving DecidableEq, Repr

/-- An element of a store whose bytes a line of the basting buffer holds (R249): the store's number among those held, its place in
it, its address and bytes. -/
structure HeldEl where
  acc : Nat
  el  : Nat
  ea  : W64
  n   : Nat
deriving DecidableEq, Repr

/-- A line held in the basting buffer (R319, R329): its address divided by 64, its byte mask and bytes, the new full/empty bits
of its words (bits 15:0 say which words are changed, bits 31:16 the new values), and the elements stored to it. -/
structure HeldLine where
  va   : Nat
  mask : W64
  data : BitVec 512
  fe   : W32 := 0
  els  : List HeldEl := []
deriving DecidableEq, Repr

/-- A release in progress (R151, R311). -/
structure Release where
  scope  : BitVec 2
  probes : List ProbeTo
  placed : Bool := false
deriving DecidableEq, Repr

/-- What a thread owes the memory system. -/
structure MemOrder where
  tbm      : W64 := 0
  tbmd     : BitVec 4 := 0
  peerWr   : Nat := 0
  wsig     : BitVec 1024 := 0
  rel      : Option Release := none
  /-- deferred reports waiting: cause, address, whether the supervisor branch takes it (R141) -/
  deferred : List (Cause × W64 × Bool) := []
  /-- the word's request has been served: its re-issue completes it (R152) -/
  acquired : Bool := false
  /-- a cache form that has begun: it completes before a save (R324) -/
  acts     : Bool := false
  /-- the address whose translation the thread waits for, and whether it is a write (R392) -/
  probe    : Option (W64 × Bool) := none
  /-- the controller has answered "fail" while the thread was on its way to the table entry's home core (R392) -/
  probeFail : Bool := false
  /-- the number of the request the instruction waits for (R149, R152) -/
  waitId   : Nat := 0
  /-- lines that the thread has read from its cluster's buffer or its L1, as a signature: a cluster-scope release also
  applies these (R151) -/
  rsig     : BitVec 1024 := 0
  /-- the thread's latest acquire of package scope: loads numbered from here on read past the entries that its cluster's buffer
  held then (R151, R160) -/
  acqFrom  : Option Nat := none
  /-- the error with which a sync access of a member of a formed gang has ended: it traps at the gang's next turn (R163) -/
  syncErr  : Option Cause := none
  /-- the answer that a parked `lrec.wait` has got (R361) -/
  reply    : Option W64 := none
  /-- stores whose elements fail one by one: access number, lowest failing element so far, its address and cause (R249) -/
  failing  : List (Nat × Nat × W64 × Cause) := []
deriving DecidableEq, Repr

/-- A hold-buffer name of a thread (R411). -/
inductive HoldState where
  | empty | waiting | held | busy | lost
deriving DecidableEq, Repr

structure HoldName where
  st     : HoldState := .empty
  buf    : Nat := 0
  bobbin : Nat := 0
  /-- of a LOST name: 1 a timeout, 2 a pre-emption (R421, R423) -/
  why    : Nat := 1
deriving DecidableEq, Repr

/-- A barrier registration (R295): tag, ARR, and the phase of a `bar.arrw` whose arrival was counted (R298). -/
structure BarReg where
  arr   : W32
  arrw  : Option W32 := none
deriving DecidableEq, Repr

/-- A checkpoint (R327, R321). -/
structure Checkpoint where
  x      : Vector W64 16 := Vector.replicate 16 0
  pred   : W16 := 1
  status : W32 := 0
  hint   : W64 := 0
  cvc    : W32 := 0
  pc     : W32 := 0
  img    : W16 := 0
  masks  : Tab (BitVec 128) := []
deriving DecidableEq, Repr

/-- An open region (R326-R336). -/
structure Region where
  cp     : Checkpoint := {}
  sd     : BitVec 4 := 0
  step   : W64 := 0
  held   : List HeldLine := []
  reads  : LineSet := {}
  vsaved : Tab (BitVec 4096) := []
  /-- place in the package region order at which it began (R334) -/
  begun  : Nat := 0
  /-- the cycle by which it is to be squashed (R336) -/
  due    : Option Nat := none
deriving DecidableEq, Repr

/-- What a chunk of one word, or a region chunk, does at its lane's turn (R343, R345). -/
inductive TurnOp where
  | none
  /-- `pcommit`: the ratio's bits, `SD` -/
  | commit (ratio : W32) (sd : BitVec 4)
  /-- `anneal`: function, `X[A]`, `X[B]`, `SD` -/
  | anneal (fn : Nat) (a b : W64) (sd : BitVec 4)
deriving DecidableEq, Repr

/-- How a chunk ended (R319, R343, R345). -/
inductive ChunkEnd where
  | running
  /-- the 1,024th word -/
  | full
  /-- `task.exit` -/
  | exit
  /-- before a word whose wait is not satisfied -/
  | wait
  /-- before a 17th line, or a 17th staged ring write (R424) -/
  | lines
  /-- a trap, to be taken after the commit: cause, detail, value, supervisor branch, and the trapping word (R41) -/
  | trap (c : Cause) (detail : W8) (v : W64) (sup : Bool) (word : W32)
  /-- before `ar.begin` or `anneal`, after `ume.round` -/
  | boundary
  /-- an overflow or an abort of its region (R337), with its code: the restore waits for the lane's turn (R343) -/
  | over_ (code : Nat)
  /-- at a word that acts at its lane's turn -/
  | turn (op : TurnOp)
  /-- committed, but for its staged ring writes (R424), with how it ended -/
  | ring (was : ChunkEnd)
deriving DecidableEq, Repr

/-- Stages of a queue operation or a firing (R196, R259, R202): `held` waits for a translation (R398). -/
inductive QStage where
  | queued | started | consumed | held
deriving DecidableEq, Repr

/-- An engine binding (R268-R270): its descriptor, the firing in flight (its number and stage), and what `eng.bind` recorded
for KIND 3 (accumulator, scale lanes). -/
structure Binding where
  tid    : Tid
  desc   : BitVec 256
  armed  : Bool := false
  once   : Bool := false
  asid   : W16
  bd0    : W64 := 0
  acc    : Nat := 0
  vs     : BitVec 16384 := 0
  /-- number of the `eng.arm` or `eng.once` that lets it fire (R312) -/
  armId  : Nat := 0
  /-- the firing in flight -/
  id     : Nat := 0
  stage  : Option QStage := none
  fired  : W32 := 0
  /-- status of the firing in flight, whether it is a source's fault, and the lines it wrote -/
  status : W64 := 0
  srcBad : Bool := false
  pageFail : Bool := false
  lines  : List Nat := []
  /-- lines of memory whose read has failed during the firing (R203, R459) -/
  lost   : List Nat := []
deriving DecidableEq, Repr

/-- A circular buffer's register written by a word of a chunk, to act at its commit (R266, R319): a new register, or a pointer
advanced with the write signature that its release carries. -/
inductive CbOp where
  | cfg (n : Nat) (reg : BitVec 256)
  | move (n : Nat) (put : Bool) (x : W32) (sig : BitVec 1024)
deriving DecidableEq, Repr

/-- A barrier word's effect on its tag (R296-R298): a registration with CORES and THREADS, an arrival (of a `bar.arrw` or not), a
`bar.arrw` that has completed, a drop. -/
inductive BarOp where
  | reg (n cores threads : Nat)
  | arrive (n : Nat) (wait : Bool)
  | seen (n : Nat)
  | drop (n : Nat)
deriving DecidableEq, Repr

/-- A deterministic chunk (R319-R321). -/
structure Chunk where
  cp     : Checkpoint := {}
  vregs  : Tab (BitVec 4096) := []
  words  : Nat := 0
  held   : List HeldLine := []
  reads  : LineSet := {}
  ring   : List (Nat × RingFn) := []
  /-- unmasking rounds that start at the commit (R384), and the registers of contexts that its words have configured or
  released, to be loaded there (log entry 78) -/
  ume    : List UmeReq := []
  umeRegs : Tab (BitVec 1024) := []
  /-- what its barrier words do to their tags at the commit, in order (log entry 12) -/
  bars   : List BarOp := []
  /-- commits placed when it began (R321), and the first request number of its words -/
  begun  : Nat := 0
  firstId : Nat := 0
  /-- accumulators and sparsity streams as they were before its words changed them -/
  accs   : Tab (BitVec 131072) := []
  sks    : Tab W64 := []
  /-- what its words do to the engines at the commit: buffer registers, and bindings armed (index, once, request number) -/
  cbs    : List CbOp := []
  arms   : List (Nat × Bool × Nat) := []
  /-- bindings and bank formats as they were before its words changed them -/
  engs   : Tab (Option Binding) := []
  fmts   : Tab W32 := []
  /-- elements of the store at its first word that earlier chunks have written -/
  part   : Nat := 0
  ended  : ChunkEnd := .running
  open_  : Bool := false
  /-- LAST as it was (R336, R339) -/
  last   : W64 := 0
deriving DecidableEq, Repr

/-- Gang membership (R288-R293). -/
structure Gang where
  leader : Tid
  size   : Nat
  slot   : Nat
  formed : Bool
  members : List Tid
  /-- the follower's resume point -/
  resume : W32 := 0
  resumeImg : W16 := 0
deriving DecidableEq, Repr

/-- What a thread has from its launch. -/
structure LaunchPart where
  seed   : W64 := 0
  prio   : BitVec 2 := 0
  /-- the walker that gave the tile, and whether the thread's task holds a tile (R366, R367) -/
  walker : Option Nat := none
  tile   : Bool := false
  /-- scratchpad allocation: base and bytes (R190, R359) -/
  spBase : Nat := 0
  spLen  : Nat := 0
  /-- deterministic lane: logical core x 16 + slot (R320) -/
  lane   : Option Nat := none
  /-- granted accumulators, physical numbers (R258) -/
  accs   : List Nat := []
  /-- the thread is to end: its next turn goes on with `task.exit` (R118, R175) -/
  exiting : Bool := false
  /-- it was ended by the supervisor (R175, R351 STATUS) -/
  killed : Bool := false
  /-- slots reserved for the task (R359) -/
  slots  : Nat := 0
  /-- registers of the task still clearing (R190) -/
  clearing : Bool := false
deriving DecidableEq, Repr

/-- A thread: its context, where it is, and what it holds. -/
structure Thread where
  c      : Ctx := {}
  core   : Nat := 0
  cidx   : Nat := 0
  bslot  : Option Nat := none
  bound  : Option Nat := none
  run    : Run := .ready 0
  mo     : MemOrder := {}
  lau    : LaunchPart := {}
  holds  : Tab HoldName := []
  bars   : Tab BarReg := []
  gang   : Option Gang := none
  /-- of a leader: its gang lost its latest turn (R290) -/
  gangWait : Bool := false
  /-- every member of the gang waited in that turn: the gang counts as parked (R290) -/
  gangIdle : Bool := false
  region : Option Region := none
  /-- the slices of a sparsity stream's entry that a parked `mma` has taken (R259) -/
  slices : Option W8 := none
  /-- it lent its slot back and stands at the head of the ready order of its priority (R180) -/
  lent : Bool := false
  /-- squashes of its region in a row (R336) -/
  squashes : Nat := 0
  /-- the read set of the run that was squashed last (R336) -/
  lastReads : LineSet := {}
  last   : W64 := 0
  /-- elements of the vector store at the PC that the lane's chunks have written: the rest fell to the next chunk (R253, R319
  case 4) -/
  part   : Nat := 0
  chunk  : Chunk := {}
deriving DecidableEq, Repr

/-- A line of an L1 (R307): physical line number, ASID, bytes. `pending`: it holds a store that its home has not
acknowledged; `leaving`: it goes at the acknowledgement, and no lookup finds it; `code`: its retention code (R184);
`ecc`: errors in its eight 64-bit words, coded as in `State.ecc` (R205). -/
structure L1Line where
  line : Nat
  asid : W16
  data : BitVec 512
  pending : Bool := false
  leaving : Bool := false
  code : BitVec 2 := 0
  ecc : Tab (BitVec 3) := []
deriving DecidableEq, Repr

/-- A range-lock entry (R198). -/
structure Lock where
  start : W64
  blks  : W32
  dest  : Bool
  tag   : W8
  id    : Nat
deriving DecidableEq, Repr

/-- A translation (R391, R396). -/
structure Xlat where
  asid  : W16
  space : BitVec 4
  vpage : Nat
  size  : BitVec 2
  entry : W64
  /-- the core has marked it dirty (R400) -/
  dirty : Bool := false
deriving DecidableEq, Repr

/-- A scratchpad allocation (R190, R280, R359). -/
structure Alloc where
  base : Nat
  len  : Nat
  asid : W16
  tid  : Tid
  /-- released, its bytes still being cleared (R191) -/
  freed : Bool := false
  due  : Nat := 0
deriving DecidableEq, Repr

/-- What a release has still to clear at a cycle, at 1 KiB per cycle from the bottom: the bytes that the clear has passed are
free (R191). -/
def Alloc.left (a : Alloc) (cycle : Nat) : Alloc :=
  let done := if a.freed then a.len - 1024 * (a.due - cycle) else 0
  { a with base := a.base + done, len := a.len - done }

/-- A code image in the instruction store (R193). -/
structure Image where
  id   : W16
  base : Nat
  len  : Nat
  asid : W16
deriving DecidableEq, Repr

/-- A line of an L2 slice (R302, R303): its line number, retention code, whether HBM lacks its bytes, and the 16-byte sectors
it takes. -/
structure L2Line where
  line    : Nat
  code    : BitVec 2 := 0
  dirty   : Bool := false
  sectors : Nat := 4
deriving DecidableEq, Repr

/-- A record of a write-range log buffer (R316). -/
structure WlogRec where
  asid  : W16
  start : W64
  lines : Nat
deriving DecidableEq, Repr

/-- A record of a dirty log (R400). -/
structure DirtyRec where
  vpage : W64
  asid  : W16
  size  : BitVec 2
  frame : W32
deriving DecidableEq, Repr

/-- A core's SRAM side. -/
structure CoreMem where
  l1     : List L1Line := []
  locks  : Tab Lock := []
  bank   : Tab W32 := []
  /-- pending gate requests, and the cycle at which each wake ends (R192) -/
  gateReq : List Nat := []
  waking : Tab Nat := []
  /-- threads that a bank's wake has made ready and whose word has not issued again: thread, bank, PC (R192) -/
  woken  : List (Tid × Nat × W32) := []
  allocs : List Alloc := []
  lpu    : Tab W64 := []
  tcache : List Xlat := []
  wlog   : List WlogRec := []
  dlog   : List DirtyRec := []
  /-- corrected single-bit errors (R205) -/
  fixed  : Nat := 0
  /-- powered L1 ways (R184) -/
  ways   : Nat := 12
deriving DecidableEq, Repr

/-- An operand of the matrix engine: a register group, its first register (its bits are copied at issue, R197), or a
descriptor with its direction bit (R254, R256). -/
inductive MmaSrc where
  | regs (first : Nat) (dir : Bool)
  | desc (base ctl : W64) (dir : Bool)
deriving DecidableEq, Repr

/-- What a matrix-engine queue operation is (R196, R265). -/
inductive QKind where
  | mma | zero | ld | st | scale
deriving DecidableEq, Repr

/-- A matrix-engine queue operation: its number, thread, form (`FN` of R254), physical accumulator, operands and the
slices it keeps (R262), its scale lanes (R257), and of a transfer its token, address, pitch, ASID and scope (R265). -/
structure MmaOp where
  id     : Nat
  tid    : Tid
  kind   : QKind
  form   : Nat := 0
  acc    : Nat
  a      : MmaSrc := .regs 0 false
  b      : MmaSrc := .regs 0 false
  keep   : W8 := 0xFF
  vs     : BitVec 16384 := 0
  /-- operand bits: a register group's from issue, a descriptor's once consumed -/
  va     : BitVec 131072 := 0
  vb     : BitVec 131072 := 0
  token  : BitVec 4 := 0
  addr   : W64 := 0
  arg    : W64 := 0
  asid   : W16 := 0
  sc     : BitVec 2 := 0
  stage  : QStage := .queued
  /-- a page of the transfer cannot be resolved (R398) -/
  pageFail : Bool := false
  /-- the binding whose firing it is (R269) -/
  bind   : Option Nat := none
  /-- the address of an uncorrectable error in an operand (R260) -/
  bad    : Option W64 := none
  /-- lines of memory whose read has failed meanwhile (R203, R459) -/
  lost   : List Nat := []
deriving DecidableEq, Repr

/-- A core's engines. -/
structure CoreEng where
  cb     : Tab (BitVec 256) := []
  /-- write signatures that the releases before a buffer's pointers carry (R267) -/
  cbSig  : Tab (BitVec 1024) := []
  /-- the latest `cb.put` of a buffer: its thread, and the number of the next request at it (R312) -/
  cbPut  : Tab (Tid × Nat) := []
  eng    : Tab Binding := []
  sk     : Tab W64 := []
  acc    : Tab (BitVec 131072) := []
  accUsed : Tab Tid := []
  queue  : List MmaOp := []
  opno   : BitVec 7 := 0
deriving DecidableEq, Repr

/-- A queued mailbox message (R170); `pkg` is the sending package of one that came over the fabric (R442). -/
structure Msg where
  prio  : Bool
  asid  : W16
  bytes : BitVec 512
  pkg   : Option W16 := none
deriving DecidableEq, Repr

/-- How a core runs (R72, R121, R205, R286). -/
inductive CoreMode where
  | running | halted | faulted | retired
deriving DecidableEq, Repr

/-- A thread held by R228: its slot, its window and its report; the trapping word where the thread stands at its `ar.begin`
(R41, R338); and whether it has been let go, to report at its next turn. -/
structure FpHold where
  tid    : Tid
  slot   : Nat
  window : Nat
  addr   : W64
  detail : W8
  word   : Option W32 := none
  freed  : Bool := false
deriving DecidableEq, Repr

/-- A core's control side. -/
structure CoreCtl where
  images  : List Image := []
  mailbox : List Msg := []
  arrivals : List MigMsg := []
  tidMask : W64 := 0
  mode    : CoreMode := .running
  /-- the thread at a reserved word (R72) -/
  reserver : Option Tid := none
  fpHeld  : List FpHold := []
  /-- the thread whose floating-point report is in progress (R228) -/
  fpRep   : Option Tid := none
  lanes   : Tab Tid := []
deriving DecidableEq, Repr

/-- A station operation waiting for its bobbin (R413). -/
structure RingOp where
  id  : Nat
  tid : Tid
  bobbin : Nat
  fn  : RingFn
  since : Nat
  status : W64 := 0
deriving DecidableEq, Repr

/-- A physical hold buffer (R411). -/
structure HoldBuf where
  used   : Bool := false
  data   : BitVec 512 := 0
  bobbin : Nat := 0
  tid    : Tid := 0
  lost   : Bool := false
deriving DecidableEq, Repr

/-- A register that a performed ring operation fills 16 cycles after its passage (R406): the ring cycle, the thread, the register and
its value; the bobbin of a poisoned peek (R415); a board's request. -/
structure RingFill where
  at_ : Nat
  tid : Tid
  d   : BitVec 4
  v   : W64
  bad : Option Nat := none
  req : Option Nat := none
  bobbin : Nat := 0
deriving DecidableEq, Repr

/-- A core's ring station. -/
structure CoreRing where
  win     : Tab W64 := []
  bufs    : Tab HoldBuf := []
  queue   : List RingOp := []
  /-- adds and maxima of threads not yet past the seam (R161): bobbin, thread -/
  seamWait : List (Nat × Tid) := []
  fills   : List RingFill := []
deriving DecidableEq, Repr

/-- A core. -/
structure Core where
  m : CoreMem := {}
  e : CoreEng := {}
  k : CoreCtl := {}
  r : CoreRing := {}
deriving DecidableEq, Repr

/-- A barrel slot's vector state (R24). -/
structure Slot where
  v : Tab (BitVec 4096) := []
  m : Tab (BitVec 128) := []
deriving DecidableEq, Repr

/-- An entry of a cluster store buffer (R281): virtual line (address / 64), mask, bytes, the threads that wrote it with the
numbers of their accesses (R142), and the threads that read it before it drained (R151). -/
structure CsbEntry where
  id      : Nat
  asid    : W16
  va      : Nat
  mask    : W64
  data    : BitVec 512
  writers : List (Tid × Nat)
  readers : List Tid := []
  cores   : List Nat := []
  /-- its drain has begun: it takes no more stores (R281) -/
  draining : Bool := false
  /-- per access, its lowest element in the line and that one's address (R249) -/
  firsts  : List (Nat × Nat × W64) := []
  /-- the retention code of its latest store (R147) -/
  code    : BitVec 2 := 3
deriving DecidableEq, Repr

/-- A cluster. -/
structure Cluster where
  csb     : List CsbEntry := []
  /-- the network cycle from which the next drain is due within four (R281) -/
  drainAt : Nat := 0
  synclim : W32 := 65536
  flagacc : BitVec 6 := 0
  /-- the cycle at which a flag was set last, and the flags set in it (R287) -/
  flagAt  : Nat := 0
  flagNew : BitVec 6 := 0
  supTid  : Option Tid := none
deriving DecidableEq, Repr

/-- A held access (R398): the page and the step that replays. -/
structure HeldFault where
  page : Nat
  asid : W16
  ev   : Instr
  entryAt : Nat
  /-- waits in the die interface: 4,096 translations are in progress (R396) -/
  waits : Bool := false
deriving DecidableEq, Repr

/-- A tile walker (R362): its launch, its range, the ordinals put back at its head (R373, R460), its served cores, what
it has handed out that has not retired (R358), and the launch's place in the order of arming (R364). -/
structure Walker where
  lid    : W16 := 0
  active : Bool := false
  cursor : Nat := 0
  fin    : Nat := 0
  head   : List Nat := []
  cores  : List Nat := []
  inflight : List Nat := []
  /-- the order of its launch's arming (R364) -/
  armed  : Nat := 0
deriving DecidableEq, Repr

/-- A code image as the dispatch controllers keep it (R99), with its safe points and live masks (R106). -/
structure CodeImage where
  asid  : W16
  id    : W16
  words : List W32
  safe  : List (Nat × W64) := []
deriving DecidableEq, Repr

/-- The scratchpad initialisation of a launch (R100): format bytes, offset, bytes. -/
structure SpadInit where
  fmts : List W8
  off  : Nat
  data : List W8
deriving DecidableEq, Repr

/-- An entry of a commit order (R309, R334): a write set with its place. -/
structure Placed where
  place : Nat
  set   : LineSet
  region : Bool
deriving DecidableEq, Repr

/-- What `ume.stat` and `ume.dirty` report of a round (R383). -/
structure UmeStat where
  klast   : Nat := 0
  masked  : Nat := 0
  nan     : Bool := false
  dovf    : Bool := false
  read    : Nat := 0
  drop    : Nat := 0
  written : Nat := 0
  total   : Nat := 0
deriving DecidableEq, Repr

/-- An unmasking context (R375): its register, the report of the latest completed round, the error of the latest round to
end, and of the round in flight its report and the lines it wrote. -/
structure UmeCtx where
  reg   : BitVec 1024 := 0
  st    : UmeStat := {}
  bad   : Bool := false
  err   : W8 := 0
  pend  : UmeStat := {}
  lines : List Nat := []
deriving DecidableEq, Repr

/-- What a journal entry records (R463). -/
inductive JournalFn where
  | arm (lid : W16)
  | state (lid : W16)
  | completion (lid : W16)
  | decrement (lid : W16)
  | faultAnswer (page : Nat)
  | command
deriving DecidableEq, Repr

/-- A dispatch controller pair (R463): which is active and whether it lives, its journal by sequence number, the last number that
the standby's mirror has, the pending kicks by record, and the completions that wait. -/
structure Controller where
  active  : Nat := 0
  alive   : Bool := true
  seqno   : W64 := 0
  journal : List (W64 × JournalFn) := []
  mirror  : W64 := 0
  kicks   : Tab Bool := []
  queue   : List W16 := []
deriving DecidableEq, Repr

/-- An annealing unit (R344). -/
structure Anneal where
  offset : BitVec 16 := 0
  step   : BitVec 16 := 0
  thresh : BitVec 16 := 0
  window : W32 := 0
  decay  : BitVec 17 := 0x10000
  wcnt   : W32 := 0
  wpub   : W32 := 0
  en     : Bool := false
deriving DecidableEq, Repr

/-- A die. The bases of its translation roots and log pointers and its frames are the dispatch controller's choice
(R315, R394, R466; log entry 11). -/
structure Die where
  /-- the L2's sets by slice × 1,536 + set, least recently used line first (R302, R303) -/
  l2      : Tab (List L2Line) := []
  tlb     : List Xlat := []
  held    : List HeldFault := []
  /-- held accesses that an answer has let go on, by page in the order of their arrival (R398) -/
  replays : List (Nat × Instr) := []
  rootBase : Nat := 0
  logBase : Nat := 0x100000
  /-- the next free 64 KiB frame -/
  nextFrame : Nat := 32
  pantry  : Tab (BitVec 2048) := []
  /-- the pantry's partition: the ASID that a free record is kept for, where it is kept (R101) -/
  owner   : Tab W16 := []
  spad    : Tab SpadInit := []
  walkers : Tab Walker := []
  ume     : Tab UmeCtx := []
  replicas : List (Nat × BitVec 512) := []
  prio    : Option Tid := none
  prioWait : List Tid := []
  /-- the cycle at which `prio` got its priority (R336) -/
  prioSince : Nat := 0
  anneal  : Tab Anneal := []
  ctl     : Controller := {}
  /-- rows of HBM retired: pseudo-channel, bank and row (R459) -/
  rows    : List (Nat × Nat × Nat) := []
  /-- pseudo-channels retired (R461) -/
  chans   : List Nat := []
  /-- transient errors counted (R459) -/
  soft    : Nat := 0
  /-- disabled sets of the L2 (R462) -/
  l2Off   : List Nat := []
  /-- a slice's ordering state or the commit arbiter has failed: the die is out of placement (R462) -/
  failed  : Bool := false
deriving DecidableEq, Repr

/-- The die keeps at most 4,096 translations in progress (R396). -/
def Die.full (d : Die) : Bool := decide (4096 ≤ d.held.countP fun h => !h.waits)

/-- A bobbin of the ring (R407). -/
structure Bobbin where
  com  : BitVec 512 := 0
  pend : BitVec 512 := 0
  meta_ : W64 := 0
deriving DecidableEq, Repr

/-- A core's part of a barrier tag (R295): THREADS, how many have registered, and whether its arrival for the open
phase has gone up. Which threads have arrived is in their ARR. -/
structure TagCore where
  threads : Nat := 0
  reg     : Nat := 0
  sent    : Bool := false
deriving DecidableEq, Repr

/-- A barrier tag (R294, R295): its ASID, CORES, DONE, the cores' parts, the arrivals counted at the root, the cycle of
the latest arrival or leave, and the cycle at which the open phase is released. -/
structure BarTag where
  owner   : Option W16 := none
  cores   : Nat := 0
  done    : W32 := 0
  parts   : Tab TagCore := []
  counted : Nat := 0
  last    : Nat := 0
  release : Option Nat := none
deriving DecidableEq, Repr

/-- The ring. -/
structure Ring where
  bob    : Tab Bobbin := []
  /-- the latest step of each bobbin: twice its ring cycle, plus one for a station's passage -/
  passed : Tab Nat := []
  part   : Tab W64 := []
  retired : List Nat := []
deriving DecidableEq, Repr

/-- A deterministic launch in the commit schedule (R320, R343). -/
structure DetLaunch where
  round : Nat := 0
  lane  : Nat := 0
  next  : W64 := 0
  commits : List Placed := []
  count : Nat := 0
  /-- core and first slot of each lane, in order (R374) -/
  lanes : List (Nat × Nat) := []
deriving DecidableEq, Repr

/-- A port (R433-R436). -/
structure Port where
  up      : Bool := false
  version : Nat := 0
  spare   : Option Nat := none
  retries : Tab Nat := []
  sendSeq : W16 := 0
  recvSeq : W16 := 0
  /-- a replay request has been sent and its flit has not come yet (R434) -/
  asked   : Bool := false
  /-- data flits sent and not yet acknowledged, in order: at most 64 (R434) -/
  replay  : List (BitVec 2048) := []
  /-- flits held back: class, destination, payload (R434) -/
  hold    : List (Nat × Nat × List W8) := []
  /-- the flit from which a resend is owed while the port may not carry data (R438) -/
  owed    : Option Nat := none
  /-- messages and copy flits passed upward and not yet performed, in order (R434, R448) -/
  inbox   : List Instr := []
  /-- copies, by package and number, that have ended with a fault and whose later flits go (R204, R439) -/
  failed  : List (W16 × Nat) := []
  lanes   : BitVec 9 := 0x1FF
  down    : Bool := false
deriving DecidableEq, Repr

/-- What an event of the management transport reports (R450, R460, R462). -/
inductive DevEvent where
  | deadlock
  | coreFault (core : Nat)
  | laneSpared (port lane : Nat)
  | portDown (port : Nat)
  | coreRetired (core : Nat)
  | launchCancelled (lid : W16)
  | clusterRetired (cluster : Nat)
  /-- the die leaves placement (R462) -/
  | dieFailed (die : Nat)
  | rowRetired (die pa : Nat)
  | channelRetired (die pa : Nat)
  | l2Retired (die : Nat) (sets : List Nat)
  | ringRetired (bobbins : List Nat)
deriving DecidableEq, Repr

/-- A repair record of the configuration block's field part (R457): what the controllers retire in service. -/
inductive Repair where
  | part (p : FailedPart)
  | lane (port lane : Nat)
  | row (die pa : Nat)
  | channel (die chan : Nat)
deriving DecidableEq, Repr

/-- Answers to SPDM requests (R465). -/
inductive Spdm where
  | version | capabilities | algorithms | digests | certificate | challengeAuth | measurements
deriving DecidableEq, Repr

/-- What leaves the package (R434, R447, R450, R465). -/
inductive Sent where
  | event (e : DevEvent)
  | reply (bytes : List W8)
  | readData (bytes : List W8)
  | flit (port : Nat) (bits : BitVec 2048)
  | spdm (a : Spdm) (payload : List W8)
deriving DecidableEq, Repr

/-- States of a tray (R454). -/
inductive TrayState where
  | serving | quiesced | drained | off
deriving DecidableEq, Repr

/-- The outer registers of the package (R438, R446-R457, R464). -/
structure Outer where
  boot     : W64 := 0
  pkgid    : W64 := 0
  route    : Tab W64 := []
  /-- the next place of each route (R437) -/
  turns    : Tab Nat := []
  pcap     : Tab W64 := []
  wbase    : Tab W64 := []
  wasid    : Tab W64 := []
  hwake    : Tab W64 := []
  lrver    : Tab W64 := []
  wrlog    : Tab W64 := []
  allow    : Tab W64 := []
  /-- by doorbell, the function and the ASID that the controllers assign to it (R449) -/
  doorbell : Tab (Nat × W16) := []
  /-- the function of each ASID (R445): 0, the physical one, where none is assigned -/
  fnOf     : Tab Nat := []
  /-- the field part of the configuration block in management flash: it outlasts the power (R457) -/
  repairs  : List Repair := []
  meas     : Tab (BitVec 512) := []
  tray     : TrayState := .serving
  /-- the public keys that files are verified with, by identifier (R105): from the configuration block -/
  keys     : List (W64 × Nat × Nat) := []
  ports    : Tab Port := []
  sent     : List Sent := []
deriving DecidableEq, Repr

/-- Pre-emption (R370-R373). -/
inductive PreState where
  | none
  /-- requested at a cycle -/
  | requested (at_ : Nat)
  | saved
deriving DecidableEq, Repr

/-- The package-wide agents. -/
structure Pkg where
  tags    : Tab BarTag := []
  place   : Nat := 0
  order   : List Placed := []
  det     : Tab DetLaunch := []
  pre     : PreState := .none
  /-- launches pre-empted, whether they were being cancelled, and their saved tasks with the offsets of their records (R371) -/
  saved   : List (W16 × Bool × List (Tid × Nat)) := []
  sweeps  : Nat := 0
  moved   : Bool := false
  /-- the next sweep of the deadlock detector, in network cycles: three to a cycle (R3, R317) -/
  nextSweep : Nat := 256
  /-- tasks admitted and not exited, in order, with their launch and ordinal, for the declared ranges (R314) -/
  admitted : List (W16 × W32) := []
  images  : List CodeImage := []
  /-- what the loader has placed for an ASID: 64 KiB pages of data (first, count) and bobbins (first, count) (R102, R466) -/
  pages   : List (W16 × Nat × Nat) := []
  bobbins : List (W16 × Nat × Nat) := []
  /-- the next free address of the save pools (R351) -/
  saveNext : Nat := 0x10000000000
  /-- ASIDs whose loading policy requires a signature (R109): none at reset, the model's choice (log entry 21) -/
  signed  : List W16 := []
  /-- armed launches that wait for a free walker (R362) -/
  waiting : List W16 := []
  /-- in which order the launches were armed (R364), by LID -/
  armedAt : Tab Nat := []
deriving DecidableEq, Repr

/-- The state of the package. `agenda` to `word` are the model's own (log entries 3 and 5). -/
structure State where
  cycle    : Nat := 0
  threads  : Tab Thread := []
  cores    : Tab Core := []
  slots    : Tab Slot := []
  clusters : Tab Cluster := []
  dies     : Tab Die := []
  ring     : Ring := {}
  pkg      : Pkg := {}
  out      : Outer := {}
  mem      : Tab W8 := []
  fe       : Tab Bool := []
  /-- check bits (R194, R205): words of scratchpads and instruction stores by key; 1 a single-bit error, 2 an uncorrectable
  one, 3 one in a failing cell, 4 a failing cell that has been rewritten -/
  ecc      : Tab (BitVec 3) := []
  agenda   : List Instr := []
  pool     : List Instr := []
  plan     : List Nat := []
  nextId   : Nat := 0
  fresh    : Nat := 0
  cur      : Tid := 0
  word     : W32 := 0
deriving DecidableEq, Repr

/-- The machine right after reset. -/
def State.reset : State := {}

end Sys2Proof.Machine
end

