-- ==== Sys2Proof/Machine/Ops.lean ====
section
/-! DEFINITION. Named operations over threads, cores, mailboxes and memory bytes; taking a trap (R38) and returning from
one, each once. -/

namespace Sys2Proof.Machine

/-! ## Access to the tables -/

def State.thread? (s : State) (t : Tid) : Option Thread := s.threads.find t
def State.setThread (s : State) (t : Tid) (th : Thread) : State := { s with threads := s.threads.set t th }
/-- Change a thread, if it exists. -/
def State.modThread (s : State) (t : Tid) (f : Thread → Thread) : State :=
  match s.threads.find t with
  | some th => s.setThread t (f th)
  | none => s
def State.core (s : State) (n : Nat) : Core := s.cores.getD n {}
def State.setCore (s : State) (n : Nat) (c : Core) : State := { s with cores := s.cores.set n c }
def State.modCore (s : State) (n : Nat) (f : Core → Core) : State := s.setCore n (f (s.core n))
def State.modM (s : State) (n : Nat) (f : CoreMem → CoreMem) : State := s.modCore n fun c => { c with m := f c.m }
def State.modE (s : State) (n : Nat) (f : CoreEng → CoreEng) : State := s.modCore n fun c => { c with e := f c.e }
def State.modK (s : State) (n : Nat) (f : CoreCtl → CoreCtl) : State := s.modCore n fun c => { c with k := f c.k }
def State.modR (s : State) (n : Nat) (f : CoreRing → CoreRing) : State := s.modCore n fun c => { c with r := f c.r }
def State.cluster (s : State) (n : Nat) : Cluster := s.clusters.getD n {}
def State.modCluster (s : State) (n : Nat) (f : Cluster → Cluster) : State :=
  { s with clusters := s.clusters.set n (f (s.cluster n)) }
def State.die (s : State) (n : Nat) : Die := s.dies.getD n {}
def State.modDie (s : State) (n : Nat) (f : Die → Die) : State := { s with dies := s.dies.set n (f (s.die n)) }
def State.modPkg (s : State) (f : Pkg → Pkg) : State := { s with pkg := f s.pkg }
def State.modOut (s : State) (f : Outer → Outer) : State := { s with out := f s.out }
/-- Something left the package. -/
def State.send (s : State) (m : Sent) : State := s.modOut fun o => { o with sent := o.sent ++ [m] }
/-- The controllers append a retirement to the configuration block's field part (R457). -/
def State.record (s : State) (r : Repair) : State := s.modOut fun o => { o with repairs := o.repairs ++ [r] }
/-- Add a step in flight. -/
def State.push (s : State) (i : Instr) : State := { s with pool := s.pool ++ [i] }
/-- A step that must come next, before those already due. -/
def State.urge (s : State) (i : Instr) : State := { s with agenda := i :: s.agenda }
/-- A fresh request number. -/
def State.takeId (s : State) : Nat × State := (s.nextId, { s with nextId := s.nextId + 1 })
/-- A value that the spec leaves open (log entry 5). -/
def State.freeWord (s : State) : W64 × State := (Config.freeWord s.fresh, { s with fresh := s.fresh + 1 })

/-! ## Core numbers (00 R9) -/

def dieOf (core : Nat) : Nat := core / 128
def clusterOf (core : Nat) : Nat := core / 8

/-! ## The status word (R18) -/

def Thread.rm (t : Thread) : BitVec 3 := t.c.status.extractLsb' 0 3
def Thread.flags (t : Thread) : BitVec 6 := t.c.status.extractLsb' 3 6
def Thread.ft (t : Thread) : BitVec 5 := t.c.status.extractLsb' 9 5
def Thread.mob (t : Thread) : Bool := t.c.status.getLsbD 14
def Thread.sup (t : Thread) : Bool := t.c.status.getLsbD 15
def Thread.det (t : Thread) : Bool := t.c.status.getLsbD 16
def Thread.vx (t : Thread) : Bool := t.c.status.getLsbD 17
def Thread.ih (t : Thread) : Bool := t.c.status.getLsbD 18
def Thread.rg (t : Thread) : Bool := t.c.status.getLsbD 19
def Thread.gm (t : Thread) : Bool := t.c.status.getLsbD 20

/-- Replace `len` bits from bit `lo`. -/
def setBits (w : W32) (lo len : Nat) (v : W32) : W32 :=
  let m : W32 := ((1#32 <<< len) - 1#32) <<< lo
  (w &&& ~~~m) ||| ((v <<< lo) &&& m)

def Thread.modC (t : Thread) (f : Ctx → Ctx) : Thread := { t with c := f t.c }
def Thread.setStatusBits (t : Thread) (lo len : Nat) (v : W32) : Thread :=
  t.modC fun c => { c with status := setBits c.status lo len v }
def Thread.setBit (t : Thread) (i : Nat) (b : Bool) : Thread := t.setStatusBits i 1 (if b then 1 else 0)
/-- Set sticky flags (R18): `f` has NV, DZ, OF, UF, NX, SRSUB from bit 0. -/
def Thread.orFlags (t : Thread) (f : BitVec 6) : Thread :=
  t.modC fun c => { c with status := c.status ||| (f.zeroExtend 32 <<< 3) }

/-! ## Registers (R16, R20, R21) -/

def Thread.x (t : Thread) (n : BitVec 4) : W64 := t.c.x.get n.toFin
def Thread.full (t : Thread) (n : BitVec 4) : Bool := t.c.fe.getLsbD n.toNat
/-- Write a scalar register and set it full (R21). -/
def Thread.setX (t : Thread) (n : BitVec 4) (v : W64) : Thread :=
  t.modC fun c => { c with x := c.x.set n.toNat v n.isLt, fe := c.fe ||| (1#16 <<< n.toNat) }
/-- A long-latency producer empties its destination (R20). -/
def Thread.empty (t : Thread) (n : BitVec 4) : Thread :=
  t.modC fun c => { c with fe := c.fe &&& ~~~(1#16 <<< n.toNat) }
/-- Predicate `n`; `p0` reads true (R16). -/
def Thread.p (t : Thread) (n : BitVec 4) : Bool := n == 0 || t.c.pred.getLsbD n.toNat
/-- Write a predicate; a write to `p0` is ignored (R16). -/
def Thread.setP (t : Thread) (n : BitVec 4) (b : Bool) : Thread :=
  if n = 0 then t
  else t.modC fun c =>
    { c with pred := if b then c.pred ||| (1#16 <<< n.toNat) else c.pred &&& ~~~(1#16 <<< n.toNat) }
def Thread.setPc (t : Thread) (pc : W32) : Thread := t.modC fun c => { c with pc := pc }
/-- The link value of the next word (R115). -/
def Thread.link (t : Thread) : W64 := (0#16 : BitVec 16) ++ t.c.img ++ (t.c.pc + 1)
/-- Where an instruction is: image and PC (R115). -/
def Thread.here (t : Thread) : W64 := (0#16 : BitVec 16) ++ t.c.img ++ t.c.pc
/-- The word is over: the next one follows and the hint latch is consumed (R23). -/
def Thread.retire (t : Thread) : Thread := t.modC fun c => { c with pc := c.pc + 1, hint := 0 }

/-! ## The hint latch (R22) -/

def Thread.immx? (t : Thread) : Option (BitVec 24) :=
  if t.c.hint.getLsbD 58 then some (t.c.hint.extractLsb' 0 24) else none
def Thread.srk (t : Thread) : BitVec 24 := if t.c.hint.getLsbD 59 then t.c.hint.extractLsb' 24 24 else 0
def Thread.scl? (t : Thread) : Option (BitVec 5) :=
  if t.c.hint.getLsbD 60 then some (t.c.hint.extractLsb' 48 5) else none
def Thread.rhh? (t : Thread) : Option (BitVec 2) :=
  if t.c.hint.getLsbD 61 then some (t.c.hint.extractLsb' 53 2) else none

/-! ## Slots: vector registers and masks (R24) -/

/-- The number of a thread's slot in the package; a thread in no slot keeps its bound slot's. -/
def Thread.slotNo (t : Thread) : Nat := t.core * 16 + (t.bslot.getD (t.bound.getD 0))
def State.slotState (s : State) (k : Nat) : Slot := s.slots.getD k {}
def State.vreg (s : State) (t : Thread) (v : BitVec 5) : BitVec 4096 := (s.slotState t.slotNo).v.getD v.toNat 0
def State.setVreg (s : State) (t : Thread) (v : BitVec 5) (x : BitVec 4096) : State :=
  { s with slots := s.slots.modD t.slotNo {} fun k => { k with v := k.v.put 0 v.toNat x } }
/-- Mask `n`; `m0` reads all ones (R24). -/
def State.mask (s : State) (t : Thread) (n : BitVec 3) : BitVec 128 :=
  if n = 0 then BitVec.allOnes 128 else (s.slotState t.slotNo).m.getD n.toNat 0
/-- Write a mask; a write to `m0` is ignored (R24). -/
def State.setMask (s : State) (t : Thread) (n : BitVec 3) (x : BitVec 128) : State :=
  if n = 0 then s
  else { s with slots := s.slots.modD t.slotNo {} fun k => { k with m := k.m.put 0 n.toNat x } }

/-! ## Readiness (R178, R179) -/

/-- A thread becomes ready now; one that kept its slot goes on in it. -/
def Thread.wakeAt (t : Thread) (now : Nat) : Thread :=
  match t.bslot with
  | some _ => { t with run := .slot (now + 16) }
  | none => { t with run := .ready now }
def Thread.isParked (t : Thread) : Bool := match t.run with | .parked _ => true | _ => false
def Thread.parkedSup (t : Thread) : Bool :=
  match t.run with
  | .parked .supervisor => true
  | .stopped b => b
  | _ => false
def State.makeReady (s : State) (t : Tid) : State := s.modThread t fun th => th.wakeAt s.cycle
/-- Waits that keep the slot (R291). -/
def Wait.keepsSlot : Wait → Bool
  | .gangForm => true
  | .gangJoin _ => true
  | _ => false
/-- Park (R178): the slot is vacated, but by a member of a formed gang (R290) and in R291. -/
def Thread.park (t : Thread) (w : Wait) : Thread :=
  if t.gm then t
  else if w.keepsSlot then { t with run := .parked w }
  else { t with run := .parked w, bslot := none }

/-! ## Memory bytes

Keys: die x 2^38 + PA for HBM (R304, R389), then the scratchpads, then the instruction stores (log entry 1). -/

def physKey (die pa : Nat) : Nat := die * 0x4000000000 + pa
def spKey (core off : Nat) : Nat := 0x100000000000 + core * 0x100000 + off
def isKey (core off : Nat) : Nat := 0x200000000000 + core * 0x40000 + off
/-- What an unlisted byte reads as (log entry 1). -/
def unlisted : W8 := 0
def readByte (m : Tab W8) (k : Nat) : W8 := m.getD k unlisted
def writeByte (m : Tab W8) (k : Nat) (b : W8) : Tab W8 := m.put unlisted k b
/-- The little-endian value of `n` bytes (R75). -/
def readLE (m : Tab W8) (k : Nat) : Nat → Nat
  | 0 => 0
  | n + 1 => (readByte m k).toNat + 256 * readLE m (k + 1) n
/-- Write the low `n` bytes of a number, the lowest first (R75). -/
def writeLE (m : Tab W8) (k : Nat) : Nat → Nat → Tab W8
  | 0, _ => m
  | n + 1, v => writeLE (writeByte m k (BitVec.ofNat 8 v)) (k + 1) n (v / 256)
/-- Write the bytes of `v` whose bit of `mask` is set, from byte `i` on. -/
def writeMasked (m : Tab W8) (k : Nat) (mask : Nat) : Nat → Nat → Tab W8
  | 0, _ => m
  | n + 1, v =>
    writeMasked (if mask % 2 = 1 then writeByte m k (BitVec.ofNat 8 v) else m) (k + 1) (mask / 2) n (v / 256)
/-- Memory's canonical form: addresses rise strictly and no entry holds what an unlisted byte reads as. -/
abbrev Memory.wf (m : Tab W8) : Prop := Tab.wf unlisted m = true
def State.rd (s : State) (k n : Nat) : Nat := readLE s.mem k n
/-- Check bits after a range is rewritten (R205): errors of whole words go, those of failing cells come back. -/
def rewritten (t : Tab (BitVec 3)) (k n : Nat) : Tab (BitVec 3) :=
  let whole := fun (e : Nat × BitVec 3) => decide (k ≤ e.1) && decide (e.1 + 4 ≤ k + n)
  (t.filter fun e => !(whole e && decide (e.2.toNat < 3))).map fun e => if whole e && e.2 == 3 then (e.1, 4) else e
def State.wr (s : State) (k n v : Nat) : State := { s with mem := writeLE s.mem k n v, ecc := rewritten s.ecc k n }
/-- Scratchpad and instruction-store bytes set to zero (R190). -/
def State.zero (s : State) (k n : Nat) : State :=
  { s with mem := s.mem.filter fun e => decide (e.1 < k) || decide (k + n ≤ e.1), ecc := rewritten s.ecc k n }
/-- A read of checked words (R194, R205), on a core: whether an uncorrectable error stands in them. Single-bit errors are
corrected and counted; a failing cell that has been rewritten is a lasting fault of the core. -/
def State.eccRead (s : State) (core k n : Nat) : Bool × State :=
  if s.ecc.isEmpty then (false, s)
  else
    let meets := fun (e : Nat × BitVec 3) => decide (e.1 < k + n) && decide (k < e.1 + 4)
    let single := fun (e : Nat × BitVec 3) => meets e && e.2 == 1
    let s1 := { s with ecc := s.ecc.filter fun e => !single e }.modM core fun m =>
      { m with fixed := m.fixed + (s.ecc.filter single).length }
    (s.ecc.any fun e => meets e && decide (2 ≤ e.2.toNat),
      if s.ecc.any fun e => meets e && e.2 == 4 then s1.urge (.coreLastingFault (.core core)) else s1)
/-- The key of the first word of a range in which an uncorrectable error stands. -/
def State.eccBad (s : State) (k n : Nat) : Option Nat :=
  (s.ecc.find? fun e => decide (e.1 < k + n) && decide (k < e.1 + 4) && decide (2 ≤ e.2.toNat)).map fun e => e.1
/-- The full/empty bit of the scratchpad word at an offset (R189); `fe` lists the empty words. -/
def State.feFull (s : State) (core off : Nat) : Bool := !s.fe.getD (spKey core (off / 4 * 4)) false
def State.setFe (s : State) (core off : Nat) (full : Bool) : State :=
  { s with fe := s.fe.put false (spKey core (off / 4 * 4)) (!full) }
/-- Every full/empty bit of a range set full (R190). -/
def State.fillFe (s : State) (core off n : Nat) : State :=
  { s with fe := s.fe.filter fun e => decide (e.1 < spKey core off) || decide (spKey core (off + n) ≤ e.1) }

/-! ## Messages (R41, R170, R171) -/

/-- A little-endian field of a 64-byte message at a byte offset. -/
def msgField (off : Nat) (v : Nat) : BitVec 512 := BitVec.ofNat 512 (v <<< (8 * off))
def msgGet (m : BitVec 512) (off len : Nat) : Nat := (m.extractLsb' (8 * off) (8 * len)).toNat
/-- Replace a field of a message. -/
def msgPut (m : BitVec 512) (off len : Nat) (v : Nat) : BitVec 512 :=
  let k : BitVec 512 := BitVec.ofNat 512 ((2 ^ (8 * len) - 1) <<< (8 * off))
  (m &&& ~~~k) ||| (msgField off v &&& k)

def State.coreMode (s : State) (n : Nat) : CoreMode := (s.core n).k.mode
/-- Where a core's fault messages go: core 7 of its cluster, or of the lowest cluster of the die that is not retired
(R284). -/
def State.supCore (s : State) (core : Nat) : Nat :=
  let own := core / 8 * 8 + 7
  if s.coreMode own = .retired then
    let alive := (List.range 16).find? fun k => decide (s.coreMode (dieOf core * 128 + k * 8 + 7) ≠ .retired)
    dieOf core * 128 + (alive.getD 0) * 8 + 7
  else own
/-- A core is in placement (R460, R462): not retired, on a die that has not left it. -/
def State.placed (s : State) (core : Nat) : Bool := s.coreMode core != .retired && !(s.die (dieOf core)).failed
/-- The active controller of a die lives (R463). -/
def State.ctlAlive (s : State) (die : Nat) : Bool := (s.die die).ctl.alive
/-- Room for a message: low priority is refused at 12 entries, high at 16 (R170). -/
def mailRoom (k : CoreCtl) (prio : Bool) : Bool := decide (k.mailbox.length < if prio then 16 else 12)
def State.mailPut (s : State) (core : Nat) (m : Msg) : State :=
  s.modK core fun k => { k with mailbox := k.mailbox ++ [m] }

def Cause.code : Cause → W8
  | .illegal => 0x01 | .reserved => 0x02 | .privilege => 0x04 | .emptyReg => 0x05 | .misaligned => 0x06
  | .addressSpace => 0x07 | .localProt => 0x08 | .page => 0x09 | .peerAbsent => 0x0A | .lock => 0x0B | .fp => 0x0C
  | .syncLimit => 0x0D | .ring => 0x0E | .gang => 0x0F | .deadlock => 0x10 | .determinism => 0x11 | .memError => 0x12
  | .scale => 0x13 | .codeAbsent => 0x14 | .sys => 0x15 | .brk => 0x16 | .assert => 0x17

/-- Causes that go to the user vector (R36); a deadlock goes to the supervisor's own (R318). -/
def Cause.toUser : Cause → Bool
  | .illegal | .privilege | .emptyReg | .misaligned | .addressSpace | .localProt | .peerAbsent | .lock | .fp | .syncLimit
  | .ring | .gang | .scale | .assert | .deadlock => true
  | .reserved | .page | .determinism | .memError | .codeAbsent | .sys | .brk => false

/-- The fault message of R41. -/
def faultMsg (kind : Nat) (ecause : W16) (tid core : Nat) (c : Ctx) (word : W32) (epc eval : W64) : BitVec 512 :=
  msgField 0 1 ||| msgField 1 kind ||| msgField 2 ecause.toNat ||| msgField 4 tid ||| msgField 8 core |||
    msgField 10 c.lid.toNat ||| msgField 12 word.toNat ||| msgField 16 epc.toNat ||| msgField 24 eval.toNat |||
    msgField 32 c.ord.toNat ||| msgField 36 c.asid.toNat

/-- A post of the thread to a core at a priority, numbered below `id`, is still on its way (R170). -/
def State.postsBefore (s : State) (t : Tid) (dst : Nat) (prio : Bool) (pkg : Option W16) (id : Nat) : Bool :=
  s.pool.any fun i => match i with
    | .mailboxDelivery q | .faultMessageDelivery q =>
      q.tid == t && q.dst == dst && (q.fabric.map fun f => f.1) == pkg && q.prio == prio && decide (q.id < id)
    | _ => false

/-- Post a fault message to the cluster supervisor at high priority; one that finds no room, or an older post of the thread
to that core still on its way, is held at its sender (R38, R170). -/
def State.postFault (s : State) (core : Nat) (tid : Tid) (asid : W16) (m : BitVec 512) : State :=
  let dst := s.supCore core
  if mailRoom (s.core dst).k true && !s.postsBefore tid dst true none s.nextId then
    s.mailPut dst { prio := true, asid := asid, bytes := m }
  else
    let (id, s1) := s.takeId
    s1.push (.faultMessageDelivery ⟨id, tid, core, asid, true, none, dst, true, none, none, m, none⟩)

/-- `ecause`: the detail above the cause code (R31). -/
def ecauseOf (c : Cause) (detail : W8) : W16 := detail ++ c.code

/-- The held thread that reports next: the earliest window, then the lowest slot. -/
def nextHold (l : List FpHold) : Option FpHold :=
  l.foldl (fun a h => match a with
    | none => some h
    | some b => if h.window < b.window ∨ (h.window = b.window ∧ h.slot < b.slot) then some h else some b) none
/-- Where no report is in progress, the held thread that is next is let go (R228): it becomes ready, and reports at the first
turn that R179 allows. One that has kept its slot reports at the end of its window. -/
def State.freeHold (s : State) (core : Nat) : State :=
  if (s.core core).k.fpRep.isSome then s
  else match nextHold (s.core core).k.fpHeld with
    | none => s
    | some h =>
      if (s.threads.find h.tid).any fun u => u.run == .parked .fpHeld then
        (s.modK core fun k => { k with fpHeld := k.fpHeld.map fun x => if x.tid = h.tid then { x with freed := true } else x }).makeReady
          h.tid
      else s
/-- A thread's floating-point report ends (R228): the report slot is freed, and the next held thread is let go. -/
def State.endFpReport (s : State) (core : Nat) (t : Tid) : State :=
  if (s.core core).k.fpRep = some t then
    let s1 := s.modK core fun k => { k with fpRep := none }
    if (s.core core).k.fpHeld.isEmpty then s1 else (s1.push (.heldFpTrapDelivery core)).freeHold core
  else s

/-- The user branch of R38. -/
def Thread.enterHandler (t : Thread) (cause : Cause) (detail : W8) (v : W64) (tpc : W32) : Thread :=
  (t.modC fun c => { c with
    ecause := ecauseOf cause detail, epc := c.img ++ tpc, eval := v, shadow := c.hint, hint := 0,
    pc := c.evec.extractLsb' 0 32, img := c.evec.extractLsb' 32 16 }).setBit 18 true

/-- The image that a thread's IMG names in its core's instruction store. -/
def State.imageOf (s : State) (core : Nat) (asid img : W16) : Option Image :=
  (s.core core).k.images.find? fun i => i.id == img && i.asid == asid
/-- The instruction word at a place in a core's instruction store (R193); zero where the image is not held or ends before it,
the model's choice (log entry 13). -/
def State.wordAt (s : State) (core : Nat) (asid img : W16) (pc : W32) : W32 :=
  match s.imageOf core asid img with
  | some i => if i.len ≤ pc.toNat then 0 else BitVec.ofNat 32 (s.rd (isKey core (4 * (i.base + pc.toNat))) 4)
  | none => 0

/-- Causes whose trap_pc is the word after the trapping one (R36). -/
def Cause.after : Cause → Bool
  | .sys | .brk | .assert => true
  | _ => false

/-- The PC of the word that traps, from trap_pc (R36, R339). -/
def trapWord (c : Cause) (tpc : W32) : W32 := if c.after then tpc - 1 else tpc

/-- Trap entry (R38): the user vector where the cause is deliverable, a handler is named and none runs; else the thread
parks at trap_pc and the supervisor gets a fault message, which carries the trapping word, `word` where trap_pc does not tell
it (R338). DESIGN CHOICE (log entry 13): of a cause that no word raises (0x0F of the other members of a gang, R41) the word at
trap_pc, and zero where no word was fetched (0x07 of a PC outside the image, or of a refused image). -/
def State.trapEntry (s : State) (t : Tid) (cause : Cause) (detail : W8) (v : W64) (tpc : W32) (supOnly : Bool := false)
    (word : Option W32 := none) : State :=
  match s.threads.find t with
  | none => s
  | some th =>
    if cause.toUser && th.c.evec.getLsbD 63 && !th.ih && !supOnly then
      let h := { th with slices := none }.enterHandler cause detail v tpc
      s.setThread t (if th.isParked then h.wakeAt s.cycle else h)
    else
      let s1 := s.setThread t
        { (th.modC fun c => { c with pc := tpc }) with run := .parked .supervisor, bslot := none, slices := none }
      let s2 := s1.postFault th.core t th.c.asid
        (faultMsg 1 (ecauseOf cause detail) t th.core th.c
          (word.getD (s.wordAt th.core th.c.asid th.c.img (trapWord cause tpc))) ((0#16 : BitVec 16) ++ th.c.img ++ tpc) v)
      s2.endFpReport th.core t

/-- Return from a handler (R38, R167): the latch comes back from the shadow, IH falls, `epc` is next. -/
def Thread.leaveHandler (t : Thread) : Thread :=
  (t.modC fun c => { c with
    hint := c.shadow, pc := c.epc.extractLsb' 0 32, img := c.epc.extractLsb' 32 16 }).setBit 18 false

/-- What a meaning's own part answers: the word is over; it traps precisely; it has completed and then traps (causes
0x15 to 0x17); it parks at the word; it has no meaning here. -/
inductive Res where
  | done (s : State)
  | trap (s : State) (c : Cause) (detail : W8) (v : W64)
  | trapNext (s : State) (c : Cause) (v : W64)
  | park (s : State) (w : Wait)
  | refuse (r : Refusal)

/-- Go on with the state of a finished part. -/
def Res.andThen (r : Res) (f : State → Res) : Res :=
  match r with
  | .done s => f s
  | r => r

end Sys2Proof.Machine
end

