-- ==== Sys2Proof/Machine/Operands.lean ====
section
/-! DEFINITION. Operand forms: source fields with their E bit, guards, immediates, effective addresses, and the checks
that every word meets before its own part (R69, R74, R76). -/

namespace Sys2Proof.Machine

/-- The register of a scalar source field (R49). -/
def fieldReg (f : BitVec 5) : BitVec 4 := f.extractLsb' 0 4
/-- The E bit of a scalar source field (R49). -/
def fieldE (f : BitVec 5) : Bool := f.getLsbD 4
/-- A destination or implicit source read with E = 0. -/
def plainField (n : BitVec 4) : BitVec 5 := 0#1 ++ n
/-- The second register of a pair, with the field's E policy. -/
def fieldNext (f : BitVec 5) : BitVec 5 := f.extractLsb' 4 1 ++ (fieldReg f + 1)
/-- The value of a source field. -/
def Thread.src (t : Thread) (f : BitVec 5) : W64 := t.x (fieldReg f)

/-- The guard of an RR or BR word holds (R69). -/
def Thread.guardOk (t : Thread) (pg : BitVec 4) (pn : BitVec 1) : Bool := xor (t.p pg) (pn == 1)

/-- The immediate of an RI word (R52). -/
def Thread.immRI (t : Thread) (imm : BitVec 15) : W64 :=
  match t.immx? with
  | none => imm.signExtend 64
  | some h => (h ++ imm).signExtend 64

/-- The scaled offset of a MEM word (R56). -/
def Thread.offMEM (t : Thread) (off : BitVec 10) : W64 :=
  match t.immx? with
  | none => off.signExtend 64
  | some h => (h ++ off).signExtend 64

/-- The effective address of a MEM word (R56). -/
def Thread.eaMEM (t : Thread) (sb : BitVec 5) (sz : BitVec 3) (off : BitVec 10) : W64 :=
  t.src sb + (t.offMEM off <<< sz.toNat)

/-- The target of a BR word (R54). -/
def Thread.target (t : Thread) (off : BitVec 19) : W32 := t.c.pc + off.signExtend 32

/-- The retention code an access carries (R66, R147). -/
def Thread.retention (t : Thread) (rh : BitVec 2) : BitVec 2 := (t.rhh?).getD rh

/-- What a word names, for the checks every word meets (R74). -/
structure Issue where
  /-- supervisor-only (R35) -/
  sup  : Bool := false
  /-- barred to a mobile thread (R26) -/
  anch : Bool := false
  guard : Option (BitVec 4 × BitVec 1) := none
  /-- scalar sources in field order (R76) -/
  srcs : List (BitVec 5) := []
  /-- scalar destinations -/
  dsts : List (BitVec 4) := []
  /-- vector registers named (R234) -/
  vecs : List (BitVec 5) := []
  /-- it names a vector register or a mask as destination (R25) -/
  vx   : Bool := false
  /-- a branch, call or jump: the leader decides for a gang (R113) -/
  flow : Bool := false

/-- What the checks of R74 before a word's own part say. -/
inductive Pre where
  | go
  | off
  | trap (c : Cause) (v : W64)
  | park (w : Wait)

/-- The first empty source whose E bit is 1, in field order (R74 step 6). -/
def Thread.eTrap (t : Thread) : List (BitVec 5) → Option (BitVec 4)
  | [] => none
  | f :: r => if !t.full (fieldReg f) && fieldE f then some (fieldReg f) else t.eTrap r

/-- The first register of a list that is empty (R74 step 7). -/
def Thread.firstEmpty (t : Thread) : List (BitVec 4) → Option (BitVec 4)
  | [] => none
  | n :: r => if t.full n then t.firstEmpty r else some n

/-- Steps 3 to 7 of R74. `pend` says which vector registers are pending (R234). -/
def Thread.precheck (t : Thread) (q : Issue) (word : W32) (pend : BitVec 5 → Bool) : Pre :=
  if q.sup && !t.sup then .trap .privilege (word.zeroExtend 64)
  else if q.anch && t.mob then .trap .privilege 2
  else
    let guarded := match q.guard with
      | none => true
      | some (pg, pn) => t.guardOk pg pn
    if !guarded then .off
    else
      match t.eTrap q.srcs with
      | some n => .trap .emptyReg (n.zeroExtend 64)
      | none =>
        match t.firstEmpty (q.srcs.map fieldReg ++ q.dsts) with
        | some n => .park (.reg n)
        | none =>
          match q.vecs.find? pend with
          | some v => .park (.vreg v)
          | none => .go

/-- The low `n` bits of a word, n = 32 or 64 by `W` (R110). -/
def opWidth (w : BitVec 1) : Nat := if w = 1 then 64 else 32
/-- A result of width n, sign-extended to 64 bits (R110). -/
def sextW (w : BitVec 1) (v : W64) : W64 := if w = 1 then v else (v.extractLsb' 0 32).signExtend 64

end Sys2Proof.Machine
end

