-- ==== Sys2Proof/Machine/Mem.lean ====
section
/-! DEFINITION. Addresses (R139, R390), translation (R391-R396), the checks at issue (R140) and where an access is
performed (R141, R280), the L1s (R307), the cluster store buffers (R281) and the bytes at their homes (R304). -/

namespace Sys2Proof.Machine

/-! ## Addresses -/

/-- Where an address points (R139): a scratchpad byte of a core of the package, or a global virtual byte. -/
inductive Place where
  | sp (core off : Nat)
  | glob (space : Nat) (va : Nat)
deriving DecidableEq, Repr

def spaceOf (ea : W64) : Nat := (ea.extractLsb' 52 4).toNat

/-- The address rules of R139, for an issuing core. -/
def resolve (core : Nat) (ea : W64) : Option Place :=
  let off := (ea.extractLsb' 0 20).toNat
  if ea.extractLsb' 56 8 ≠ 0 then none
  else match spaceOf ea with
    | 0 => if ea.extractLsb' 20 32 = 0 ∧ off < 655360 then some (.sp core off) else none
    | 1 => if ea.extractLsb' 23 29 = 0 ∧ off < 655360 then
        some (.sp (core / 8 * 8 + (ea.extractLsb' 20 3).toNat) off) else none
    | 2 => if ea.extractLsb' 32 20 = 0 ∧ ea.extractLsb' 20 3 = 0 ∧ off < 655360 then
        some (.sp ((ea.extractLsb' 23 9).toNat) off) else none
    | 4 | 5 | 6 | 7 | 8 => if ea.extractLsb' 48 4 = 0 then
        some (.glob (spaceOf ea) (ea.extractLsb' 0 48).toNat) else none
    | _ => none

/-- One number for an address, the same for every form that names one byte. -/
def Place.key (p : Place) : Nat :=
  match p with
  | .sp c o => spKey c o
  | .glob k va => 0x1000000000000000 + k * 0x1000000000000 + va

/-- The exclusive-or of the sixteen 2-bit groups of VA[47:16] (R390). -/
def granuleDie (va : Nat) : Nat → Nat
  | 0 => 0
  | n + 1 => (va / 2 ^ (16 + 2 * n) % 4) ^^^ granuleDie va n

/-- The home die of a global address (R390). -/
def homeDie (space va : Nat) : Nat := if space = 8 then granuleDie va 16 else space - 4

/-- The home slice of a die-local physical address (R304). -/
def sliceOf (pa : Nat) : Nat :=
  (pa / 64 % 64) ^^^ (pa / 2 ^ 12 % 64) ^^^ (pa / 2 ^ 18 % 64) ^^^ (pa / 2 ^ 24 % 64) ^^^ (pa / 2 ^ 30 % 64) ^^^
    (pa / 2 ^ 36 % 4)
/-- The core beside a slice (00 R9): slice k sits beside core (k mod 4) x 2 of cluster k div 4. -/
def coreBeside (die slice : Nat) : Nat := die * 128 + slice / 4 * 8 + slice % 4 * 2

/-- The line number L of R308: die x 2^32 + PA[37:6]. -/
def lineOf (key : Nat) : Nat := key / 64
/-- The two signature bits of a line (R308). -/
def sigBits (l : Nat) : BitVec 1024 :=
  let i1 := (l ^^^ (l >>> 10) ^^^ (l >>> 20)) % 1024
  let i2 := ((l >>> 5) ^^^ (l >>> 15) ^^^ (l >>> 25)) % 1024
  (1#1024 <<< i1) ||| (1#1024 <<< i2)
/-- A signature hits a line when both its bits are set (R309). -/
def sigHits (g : BitVec 1024) (l : Nat) : Bool := decide (g &&& sigBits l = sigBits l)

/-! ## Translation -/

def pageBytes (size : BitVec 2) : Nat := if size = 2 then 2 ^ 30 else if size = 1 then 2 ^ 21 else 2 ^ 16

/-- Keys of host memory, the target of pages with TGT = 1 (R395), lie apart (log entry 1). -/
def hostKey (a : Nat) : Nat := 0x4000000000000 + a

/-- The memory key an entry gives for an address. -/
def Xlat.key (x : Xlat) (die va : Nat) : Nat :=
  let a := (x.entry.extractLsb' 16 36).toNat * 65536 + va % pageBytes x.size
  if x.entry.extractLsb' 6 2 = 1 then hostKey a else physKey die a

/-- A leaf's reserved bits, target, frame alignment and range (R395). -/
def leafOk (space : Nat) (e : W64) (size : BitVec 2) : Bool :=
  let frame := (e.extractLsb' 16 36).toNat * 65536
  let tgt := e.extractLsb' 6 2
  e.extractLsb' 8 8 == 0 && e.extractLsb' 52 12 == 0 && decide (tgt.toNat ≤ 1) && frame % pageBytes size == 0 &&
    (tgt == 1 || decide (frame + pageBytes size ≤ 0x3000000000)) && !(space == 8 && size != 0)
/-- A table entry's reserved bits, alignment and range (R395). -/
def tableOk (e : W64) (align : Nat) : Bool :=
  let next := (e.extractLsb' 8 44).toNat * 256
  e.extractLsb' 2 6 == 0 && e.extractLsb' 52 12 == 0 && next % align == 0 && decide (next < 0x3000000000)

/-- Index of a level of the walk (R395). -/
def walkIndex (va : Nat) : Nat → Nat
  | 1 => va / 2 ^ 39 % 512
  | 2 => va / 2 ^ 30 % 512
  | 3 => va / 2 ^ 21 % 512
  | _ => va / 2 ^ 16 % 32

/-- The table walk (R395), `n` levels to go: the leaf with its page size, or the address of the entry at which the walk
stopped. -/
def walk (m : Tab W8) (die space va : Nat) : Nat → Nat → Except Nat (W64 × BitVec 2)
  | 0, base => .error base
  | n + 1, base =>
    let level := 4 - n
    let at_ := base + 8 * walkIndex va level
    let e : W64 := BitVec.ofNat 64 (readLE m (physKey die at_) 8)
    if !e.getLsbD 0 then .error at_
    else if e.getLsbD 1 then
      let size : BitVec 2 := if level = 2 then 2 else if level = 3 then 1 else 0
      if level = 1 then .error at_
      else if leafOk space e size then .ok (e, size) else .error at_
    else if level = 4 then .error at_
    else if tableOk e (if level = 3 then 256 else 4096) then
      walk m die space va n ((e.extractLsb' 8 44).toNat * 256)
    else .error at_

/-- The address of the entry at which a walk ends, whether it faults there or finds its leaf. -/
def walkEnd (m : Tab W8) (die va : Nat) : Nat → Nat → Nat
  | 0, base => base
  | n + 1, base =>
    let level := 4 - n
    let at_ := base + 8 * walkIndex va level
    let e : W64 := BitVec.ofNat 64 (readLE m (physKey die at_) 8)
    if e.getLsbD 0 && !e.getLsbD 1 && level != 4 && tableOk e (if level = 3 then 256 else 4096) then
      walkEnd m die va n ((e.extractLsb' 8 44).toNat * 256)
    else at_

/-- The TLB's leaf for an address (R396). -/
def Die.tlbHit (d : Die) (asid : W16) (space va : Nat) : Option Xlat := d.tlb.find? fun x =>
  x.asid == asid && x.space.toNat == space && va / pageBytes x.size == x.vpage / pageBytes x.size

/-- Translate at the home die (R391): the TLB, else the walk from the die's root table (R394). `.error` names the table
entry at which it stopped, a leaf with W = 0 for a write among them (R395). -/
def State.translate (s : State) (asid : W16) (space va : Nat) (write : Bool) : Except Nat Xlat :=
  let die := homeDie space va
  let d := s.die die
  let rootAt := d.rootBase + 16 * asid.toNat + (if space = 8 then 8 else 0)
  let hit := d.tlbHit asid space va
  let root := readLE s.mem (physKey die rootAt) 8
  let stop := if root = 0 then rootAt else walkEnd s.mem die va 4 root
  match hit with
  | some x => if write && !x.entry.getLsbD 2 then .error stop else .ok x
  | none =>
    if root = 0 then .error rootAt
    else match walk s.mem die space va 4 root with
      | .error a => .error a
      | .ok (e, size) =>
        if write && !e.getLsbD 2 then .error stop
        else .ok ⟨asid, BitVec.ofNat 4 space, va / pageBytes size * pageBytes size, size, e, false⟩

/-- A request that misses the TLB of a die with 4,096 translations in progress waits (R396): the error names no entry. -/
def State.xlateWaits (s : State) (asid : W16) (space va : Nat) : Bool :=
  (s.die (homeDie space va)).full && ((s.die (homeDie space va)).tlbHit asid space va).isNone
/-- Translate for an access at its home die, which holds it where this is an error (R396, R398). -/
def State.xlate (s : State) (asid : W16) (space va : Nat) (write : Bool) : Except Nat Xlat :=
  if s.xlateWaits asid space va then .error 0 else s.translate asid space va write

/-- The home die of an address has lost its ordering state or its arbiter: every access there ends with cause 0x12 (R462). -/
def State.homeFails (s : State) (space va : Nat) : Bool := (s.die (homeDie space va)).failed

/-- The memory key of a global byte under an ASID, when its page has a translation. -/
def State.keyOf (s : State) (asid : W16) (space va : Nat) : Option Nat :=
  match s.translate asid space va false with
  | .ok x => some (x.key (homeDie space va) va)
  | .error _ => none

def Xlat.same (x y : Xlat) : Bool := x.asid == y.asid && x.space == y.space && x.vpage == y.vpage && x.size == y.size

/-- The die keeps the translation in its TLB (R396), and the reply carries it to the issuing core's cache (R391); one that has
changed takes the place of the old. -/
def State.keepXlat (s : State) (core : Nat) (x : Xlat) : State :=
  let die := homeDie x.space.toNat x.vpage
  let s1 := s.modDie die fun d =>
    if d.tlb.any x.same then d else { d with tlb := (d.tlb ++ [x]).drop (d.tlb.length + 1 - 65536) }
  s1.modM core fun m =>
    match m.tcache.find? x.same with
    | some y => if y.entry = x.entry then m
        else { m with tcache := m.tcache.map fun z => if z.same x then { x with dirty := z.dirty } else z }
    | none => { m with tcache := (m.tcache ++ [x]).drop (m.tcache.length + 1 - 256) }

/-- The translation that a core holds for a page (R391). -/
def State.heldXlat (s : State) (core : Nat) (asid : W16) (space va : Nat) : Option Xlat :=
  (s.core core).m.tcache.find? fun x =>
    x.asid == asid && x.space.toNat == space && va / pageBytes x.size == x.vpage / pageBytes x.size

/-! ## Checks -/

/-- A range of `n` bytes meets a range-lock entry (R198, R275: a striped entry covers bank offsets of every bank), and one
that bars its kind (R199). -/
def Lock.covers (l : Lock) (core key n : Nat) : Bool :=
  let len := 64 * (l.blks.toNat + 1)
  if l.tag.getLsbD 7 then
    (List.range 16).any fun b =>
      let a := spKey core (b * 40960 + l.start.toNat)
      decide (a < key + n) && decide (key < a + min len (40960 - l.start.toNat))
  else match resolve core l.start with
  | none => false
  | some p =>
    let a := p.key / 64 * 64
    decide (a < key + n) && decide (key < a + len)
def Lock.bars (l : Lock) (core key n : Nat) (isLoad : Bool) : Bool := l.covers core key n && (l.dest || !isLoad)
def State.lockHit (s : State) (core key n : Nat) (isLoad : Bool) : Bool :=
  (s.core core).m.locks.any fun e => e.2.bars core key n isLoad

/-- The bytes lie inside the local protection window of the ASID (R393). -/
def State.lpuOk (s : State) (core : Nat) (asid : W16) (off n : Nat) : Bool :=
  (s.core core).m.lpu.any fun e =>
    e.2.getLsbD 56 && e.2.extractLsb' 40 16 == asid && decide ((e.2.extractLsb' 0 20).toNat ≤ off) &&
      decide (off + n ≤ (e.2.extractLsb' 20 20).toNat)

/-- `CHECK(ea, n)` (R140). -/
def State.check (s : State) (t : Thread) (ea : W64) (n : Nat) (isLoad : Bool) : Option Cause :=
  match resolve t.core ea with
  | none => some .addressSpace
  | some p =>
    if ea.toNat % n ≠ 0 then some .misaligned
    else
      let loc := match p with
        | .sp c off => c == t.core && !t.sup && !s.lpuOk c t.c.asid off n
        | .glob _ _ => false
      if loc then some .localProt
      else if s.lockHit t.core p.key n isLoad then some .lock
      else none

/-- The owner holds a live allocation of the ASID with every byte (R280). -/
def State.allocOk (s : State) (core : Nat) (asid : W16) (off n : Nat) : Bool :=
  (s.core core).m.allocs.any fun a =>
    a.asid == asid && !a.freed && decide (a.base ≤ off) && decide (off + n ≤ a.base + a.len)

/-- The checks where a scratchpad access is performed (R141), for an access from another core. -/
def State.ownerCheck (s : State) (from_ core : Nat) (asid : W16) (off n : Nat) (isLoad : Bool) : Option Cause :=
  if from_ = core then none
  else if !s.allocOk core asid off n then some .peerAbsent
  else if s.lockHit core (spKey core off) n isLoad then some .lock
  else none

/-! ## Banks (R182, R186, R192) -/

def bankOf (off : Nat) : Nat := off / 40960
def State.bankReg (s : State) (core b : Nat) : W32 := (s.core core).m.bank.getD b 0
def State.bankAsleep (s : State) (core b : Nat) : Bool :=
  (s.bankReg core b).getLsbD 4 || (s.bankReg core b).getLsbD 5
/-- An access to a gated bank starts a wake of 1,200 cycles (R192). GATED reads 0 from here on, while WAKING reads 1: the model's
choice (log entry 81). -/
def State.touchBank (s : State) (core b : Nat) : State :=
  let r := s.bankReg core b
  if r.getLsbD 4 && !r.getLsbD 5 then
    (s.modM core fun m => { m with
      bank := m.bank.put 0 b (setBits r 4 2 0b10), waking := m.waking.set b (s.cycle + 1200) }).push (.bankWakeEnd core b)
  else s
/-- The bank of a range that is not awake. -/
def State.sleeping (s : State) (core off n : Nat) : Option Nat :=
  if s.bankAsleep core (bankOf off) then some (bankOf off)
  else if s.bankAsleep core (bankOf (off + n - 1)) then some (bankOf (off + n - 1))
  else none

/-! ## Held bytes of regions and chunks (R319, R329) -/

/-- The one address that a core's held bytes go under: a PEER or space 0x2 address that names the core is the LOCAL one, and
every form that names one byte of another scratchpad is its space 0x2 form (R139). -/
def canonEa (core : Nat) (ea : W64) : W64 :=
  match resolve core ea with
  | some (.sp c off) => if c = core then BitVec.ofNat 64 off else BitVec.ofNat 64 (2 * 2 ^ 52 + c * 2 ^ 23 + off)
  | _ => ea

def heldAt (h : List HeldLine) (va : Nat) : Option HeldLine := h.find? fun l => l.va == va
/-- Every one of `n` bytes at `va` (inside one line) is held. -/
def heldCovers (h : List HeldLine) (va n : Nat) : Bool :=
  match heldAt h (va / 64) with
  | none => false
  | some l => (List.range n).all fun i => l.mask.getLsbD (va % 64 + i)
/-- Overlay `n` bytes read at `va` (inside one line) with the held ones. -/
def overlayHeld (h : List HeldLine) (va n : Nat) (v : Nat) : Nat :=
  match heldAt h (va / 64) with
  | none => v
  | some l =>
    let o := va % 64
    let m := l.mask.toNat >>> o
    let byteMask := (List.range n).foldl (fun a i => if m.testBit i then a ||| (255 <<< (8 * i)) else a) 0
    (v &&& (2 ^ (8 * n) - 1 - byteMask)) ||| ((l.data.toNat >>> (8 * o)) &&& byteMask)
/-- Merge `n` bytes at `va` (inside one line) into held lines. -/
def holdWrite (h : List HeldLine) (va n v : Nat) : List HeldLine :=
  let o := va % 64
  let bm : W64 := BitVec.ofNat 64 ((2 ^ n - 1) <<< o)
  let dm : BitVec 512 := BitVec.ofNat 512 ((2 ^ (8 * n) - 1) <<< (8 * o))
  let d : BitVec 512 := BitVec.ofNat 512 ((v % 2 ^ (8 * n)) <<< (8 * o))
  match heldAt h (va / 64) with
  | none => h ++ [{ va := va / 64, mask := bm, data := d }]
  | some _ => h.map fun l =>
      if l.va = va / 64 then { l with mask := l.mask ||| bm, data := (l.data &&& ~~~dm) ||| d } else l
/-- The number of the next store among held ones. -/
def nextAcc (h : List HeldLine) : Nat := h.foldl (fun a l => l.els.foldl (fun a e => max a (e.acc + 1)) a) 0
/-- Merge a part of store number `acc` of a core into held lines. -/
def holdPart (core : Nat) (h : List HeldLine) (acc : Nat) (p : SPart) : List HeldLine :=
  let va := (canonEa core p.ea).toNat
  (holdWrite h va p.n p.data.toNat).map fun l =>
    if l.va = va / 64 then { l with els := l.els ++ [⟨acc, p.el, p.ea, p.n⟩] } else l

def LineSet.add (g : LineSet) (l : Nat) : LineSet :=
  if g.lines.contains l then g
  else { lines := if g.count < 64 then g.lines ++ [l] else g.lines, count := g.count + 1, sig := g.sig ||| sigBits l }
/-- Both sets together. -/
def LineSet.union (a b : LineSet) : LineSet :=
  let c := b.lines.foldl LineSet.add a
  { c with count := c.count + (b.count - b.lines.length), sig := c.sig ||| b.sig }
/-- A write set meets a read set (R331). -/
def LineSet.meets (w r : LineSet) : Bool :=
  if w.count ≤ 64 ∧ r.count ≤ 64 then w.lines.any r.lines.contains
  else r.lines.any (sigHits w.sig) || w.lines.any (sigHits r.sig) || (w.sig &&& r.sig != 0 && w.count > 64 && r.count > 64)

/-- The held lines that a thread's own reads see first. -/
def Thread.held (t : Thread) : List HeldLine :=
  match t.region with
  | some r => r.held
  | none => t.chunk.held
/-- Bytes that a thread reads, with those it holds over them. -/
def Thread.overHeld (t : Thread) (ea : W64) (n v : Nat) : Nat := overlayHeld t.held (canonEa t.core ea).toNat n v
/-- Enter a line into the read set of the open region or chunk (R165, R330). -/
def Thread.noteRead (t : Thread) (l : Nat) : Thread :=
  match t.region with
  | some r => { t with region := some { r with reads := r.reads.add l } }
  | none => if t.det then { t with chunk := { t.chunk with reads := t.chunk.reads.add l } } else t

/-! ## L1 copies (R184, R307) -/

/-- The words of a line with an error that `n` bytes at an offset meet (R205). -/
def L1Line.errs (l : L1Line) (o n : Nat) : Tab (BitVec 3) :=
  l.ecc.filter fun e => decide (8 * e.1 < o + n) && decide (o < 8 * e.1 + 8)
/-- An uncorrectable error stands in the bytes. -/
def L1Line.failed (l : L1Line) (o n : Nat) : Bool := (l.errs o n).any fun e => decide (2 ≤ e.2.toNat)
/-- Errors of a copy whose bytes are written anew: those of a failing cell come back (R205); that the new bytes stand in the same
cells is the model's choice (log entry 7). -/
def renewed (ecc : Tab (BitVec 3)) : Tab (BitVec 3) := (ecc.filter fun e => decide (3 ≤ e.2.toNat)).map fun e => (e.1, 4)

/-- A usable copy: one that is to go at its acknowledgement is found no more. -/
def State.l1Find (s : State) (core : Nat) (asid : W16) (line : Nat) : Option L1Line :=
  (s.core core).m.l1.find? fun l => l.line == line && l.asid == asid && !l.leaving
/-- The place in the order in which lines give way: short-lived, default, long-lived (R147, R184). -/
def retentionRank (code : BitVec 2) : Nat := if code = 1 then 0 else if code = 2 then 2 else 1
/-- The first element of the lowest rank. -/
def lowestRank {α : Type} (rank : α → Nat) (l : List α) : Option α :=
  l.foldl (fun a x => match a with
    | none => some x
    | some b => if rank x < rank b then some x else a) none
/-- Room for one more line in a set: the oldest line of the lowest retention class goes, never a pending one. Which line goes
is the model's choice, and so is the set: the physical line number modulo 512 (R182, R307). `none` without room. -/
def l1Room (ways set : Nat) (l : List L1Line) : Option (List L1Line) :=
  let inSet := l.filter fun x => x.line % 512 == set
  if inSet.length < ways then some l
  else match lowestRank (fun (x : L1Line) => retentionRank x.code) (inSet.filter fun x => !x.pending) with
    | some v => some (l.erase v)
    | none => none
/-- An entry of the core's cluster buffer that the core has written holds the line: its copy is pending (R307). -/
def State.l1Pending (s : State) (core : Nat) (asid : W16) (va : Nat) : Bool :=
  (s.cluster (clusterOf core)).csb.any fun e => e.asid == asid && e.va == va && e.cores.contains core
/-- Fill a line that is read at its home (R307); `va` is its virtual line. -/
def State.l1Fill (s : State) (core : Nat) (asid : W16) (line va : Nat) (d : BitVec 512) (code : BitVec 2) : State :=
  let p := s.l1Pending core asid va
  s.modM core fun m =>
    let old := m.l1.find? fun x => x.line == line && x.asid == asid
    match l1Room m.ways (line % 512) (m.l1.filter fun x => !(x.line == line && x.asid == asid)) with
    | some l => { m with l1 := l ++ [{ line := line, asid := asid, data := d, pending := p, code := code
                                       ecc := (old.map fun x => renewed x.ecc).getD [] }] }
    | none => { m with l1 := m.l1.filter fun x => !(x.line == line && x.asid == asid) }
/-- New bytes for a copy, if there is one (R45, R307). -/
def State.l1Renew (s : State) (core : Nat) (asid : W16) (line : Nat) (d : BitVec 512) : State :=
  s.modM core fun m => { m with
    l1 := m.l1.map fun x => if x.line == line && x.asid == asid then { x with data := d, ecc := renewed x.ecc } else x }
/-- Invalidate copies: a pending one goes at its acknowledgement (R307). -/
def dropLines (p : L1Line → Bool) (l : List L1Line) : List L1Line :=
  (l.filter fun x => !p x || x.pending).map fun x => if p x then { x with leaving := true } else x
def State.l1Drop (s : State) (core : Nat) (p : L1Line → Bool) : State :=
  s.modM core fun m => { m with l1 := dropLines p m.l1 }
def State.l1DropLine (s : State) (core line : Nat) : State := s.l1Drop core fun x => x.line == line
/-- Apply a write signature to some cores' L1s (R309). -/
def State.applySig (s : State) (p : Nat → Bool) (g : BitVec 1024) : State :=
  { s with
    cores := s.cores.map fun e =>
      if p e.1 then (e.1, { e.2 with m := { e.2.m with l1 := dropLines (fun x => sigHits g x.line) e.2.m.l1 } }) else e }
/-- The acknowledgement of a store reaches a core (R307): its copy is pending no more, unless a later entry of the line still
holds a store of the core; a copy that was to go goes. -/
def State.l1Acked (s : State) (core : Nat) (asid : W16) (line va : Nat) : State :=
  if s.l1Pending core asid va then s
  else s.modM core fun m => { m with
    l1 := (m.l1.filter fun x => !(x.line == line && x.asid == asid && x.leaving)).map fun x =>
      if x.line == line && x.asid == asid then { x with pending := false } else x }

/-- The newest `n` lines of every set. -/
def l1Newest (n : Nat) (l : List L1Line) : List L1Line :=
  l.reverse.foldl (fun (a : List L1Line) x => if a.countP (fun y => y.line % 512 == x.line % 512) < n then x :: a else a) []
/-- The power manager sets a core's powered L1 ways (R184), 4, 8 or 12: the lines of a gated way, the oldest of each set, go; one
that holds a store not yet at its home goes once it is. -/
def State.gateWays (s : State) (core n : Nat) : State :=
  if n = 4 ∨ n = 8 ∨ n = 12 then
    s.modM core fun m => { m with ways := n, l1 := let kept := l1Newest n m.l1; dropLines (fun x => !kept.contains x) m.l1 }
  else s

/-! ## The L2 (R302, R303) -/

/-- Every value of a line lies within `b` bits (signed) of its first. -/
def deltaFits (d : BitVec 512) (b : Nat) : Bool :=
  (List.range 8).all fun i =>
    let x := (d.extractLsb' (64 * i) 64 - d.extractLsb' 0 64).toInt
    decide (-(2 ^ (b - 1) : Int) ≤ x) && decide (x < 2 ^ (b - 1))
/-- Sectors of the smallest encoding of a line (R302). -/
def lineSectors (d : BitVec 512) : Nat :=
  if deltaFits d 8 then 1 else if deltaFits d 16 then 2 else if deltaFits d 32 then 3 else 4
/-- The slice and set of a line of a die, as one number: which set of its slice is the model's choice. -/
def l2Set (line : Nat) : Nat := sliceOf (line * 64 % 0x4000000000) * 1536 + line / 64 % 1536
/-- Evict until a line of `n` sectors fits: 32 tags, 64 sectors; the least recently used line of the lowest class goes
(R303). -/
def l2Evict (n : Nat) : Nat → List L2Line → List L2Line
  | 0, l => l
  | f + 1, l =>
    if l.length < 32 ∧ (l.map L2Line.sectors).sum + n ≤ 64 then l
    else match lowestRank (fun (x : L2Line) => retentionRank x.code) l with
      | some v => l2Evict n f (l.erase v)
      | none => l
/-- At most 24 long-lived lines: the least recently used ones become default (R303). -/
def l2Long (l : List L2Line) : List L2Line :=
  let long := l.filter fun x => x.code == 2
  let out := long.take (long.length - 24)
  l.map fun x => if out.contains x then { x with code := 0 } else x
/-- An access to a line in its set: with code 11 it allocates nothing and leaves the code (R303). -/
def l2Use (l : List L2Line) (line : Nat) (code : BitVec 2) (write : Bool) (sectors : Nat) : List L2Line :=
  let others := l.filter fun x => x.line != line
  match l.find? fun x => x.line == line with
  | some v =>
    l2Long (l2Evict sectors 33 others ++
      [{ v with code := if code = 3 then v.code else code, dirty := v.dirty || write, sectors := sectors }])
  | none =>
    if code = 3 then l
    else l2Long (l2Evict sectors 33 others ++ [{ line := line, code := code, dirty := write, sectors := sectors }])
/-- The home slice of a line of HBM serves an access (R303); a disabled set keeps no line (R462). -/
def State.l2Touch (s : State) (line : Nat) (code : BitVec 2) (write : Bool) : State :=
  if 0x400000000 ≤ line || (s.die (line / 0x100000000)).l2Off.contains (l2Set line) then s
  else
    let n := lineSectors (BitVec.ofNat 512 (s.rd (line * 64) 64))
    s.modDie (line / 0x100000000) fun d => { d with l2 := d.l2.modD (l2Set line) [] fun l => l2Use l line code write n }

/-! ## The cluster store buffer (R281-R283) -/

/-- The entry that stores to a line merge into: one that has not begun to drain (R281). -/
def State.csbFind (s : State) (cl : Nat) (asid : W16) (va : Nat) : Option CsbEntry :=
  (s.cluster cl).csb.find? fun e => e.asid == asid && e.va == va && !e.draining
/-- Every entry of a line, the oldest first. -/
def State.csbAll (s : State) (cl : Nat) (asid : W16) (va : Nat) : List CsbEntry :=
  (s.cluster cl).csb.filter fun e => e.asid == asid && e.va == va
/-- The bytes of a mask. -/
def maskBytes (mask : W64) : BitVec 512 :=
  BitVec.ofNat 512 ((List.range 64).foldl (fun a i => if mask.getLsbD i then a ||| (255 <<< (8 * i)) else a) 0)
/-- Bytes of a line with the buffer's bytes over them (R282). -/
def overLine (base : BitVec 512) (mask : W64) (d : BitVec 512) : BitVec 512 :=
  let m := maskBytes mask
  (base &&& ~~~m) ||| (d &&& m)
/-- Take `n` bytes of a line, from offset `o`. -/
def lineBytes (d : BitVec 512) (o n : Nat) : Nat := (d.toNat >>> (8 * o)) % 2 ^ (8 * n)

/-- The bytes of a line at its home. -/
def State.homeLine (s : State) (line : Nat) : BitVec 512 := BitVec.ofNat 512 (s.rd (line * 64) 64)

/-- Add to a list what it does not hold yet. -/
def addNew {α : Type} [BEq α] (l : List α) (x : α) : List α := if l.contains x then l else l ++ [x]

/-- Enter `n` bytes (inside one line) of access number `acc` of a thread of a core, element `el`, into the buffer: merged into
the line's entry, else a new one behind (R281). -/
def State.csbStore (s : State) (t : Tid) (core : Nat) (asid : W16) (acc : Nat) (p : SPart) (rh : BitVec 2) : State :=
  let cl := clusterOf core
  let ea := p.ea.toNat
  let o := ea % 64
  let bm : W64 := BitVec.ofNat 64 ((2 ^ p.n - 1) <<< o)
  let d : BitVec 512 := BitVec.ofNat 512 ((p.data.toNat % 2 ^ (8 * p.n)) <<< (8 * o))
  match s.csbFind cl asid (ea / 64) with
  | some f => s.modCluster cl fun c => { c with csb := c.csb.map fun e =>
      if e.id = f.id then
        { e with
          mask := e.mask ||| bm, data := overLine e.data bm d, writers := addNew e.writers (t, acc)
          cores := addNew e.cores core, code := if rh = 3 then e.code else rh
          firsts := if e.firsts.any fun x => x.1 == acc then e.firsts else e.firsts ++ [(acc, p.el, p.ea)] }
      else e }
  | none =>
    let (id, s1) := s.takeId
    (s1.modCluster cl fun c => { c with
      drainAt := if c.csb.isEmpty then 3 * s.cycle else c.drainAt
      csb := c.csb ++ [{ id := id, asid := asid, va := ea / 64, mask := bm, data := d, writers := [(t, acc)]
                         cores := [core], firsts := [(acc, p.el, p.ea)], code := rh }] }).push (.storeBufferDrain cl id)

/-- A thread has read bytes of a line that entries hold (R151, R282). -/
def Cluster.noteReader (c : Cluster) (asid : W16) (va : Nat) (t : Tid) : Cluster :=
  { c with
    csb := c.csb.map fun (f : CsbEntry) =>
      if f.asid = asid ∧ f.va = va then { f with readers := addNew f.readers t } else f }

/-! ## Logs (R315, R316, R400, R401) -/

/-- The thread's touched-bank bit and write signature for a line (R148, R308). -/
def Thread.touch (t : Thread) (die key : Nat) : Thread :=
  let m := { t.mo with wsig := t.mo.wsig ||| sigBits (lineOf key) }
  if die = dieOf t.core then { t with mo := { m with tbm := m.tbm ||| (1#64 <<< sliceOf (key % 0x4000000000)) } }
  else { t with mo := { m with tbmd := m.tbmd ||| (1#4 <<< die) } }

/-- A record for the write-range log buffer: a line that directly follows the last record's range extends it (R316). -/
def addWlog (l : List WlogRec) (asid : W16) (va : W64) : List WlogRec :=
  match l.getLast? with
  | some r =>
    if r.asid = asid ∧ r.start.toNat + 64 * r.lines = va.toNat then l.dropLast ++ [{ r with lines := r.lines + 1 }]
    else if r.asid = asid ∧ r.start.toNat ≤ va.toNat ∧ va.toNat < r.start.toNat + 64 * r.lines then l
    else l ++ [⟨asid, va, 1⟩]
  | none => [⟨asid, va, 1⟩]

/-- The issuing core logs a write to a page that it sees clean (R400); `none` when its dirty log is full. -/
def State.noteDirty (s : State) (core : Nat) (asid : W16) (space va : Nat) : Option State :=
  match s.heldXlat core asid space va with
  | none => some s
  | some x =>
    if x.entry.getLsbD 4 || x.dirty then some s
    else if (s.core core).m.dlog.length ≥ 64 then none
    else
      let frame := (x.entry.extractLsb' 16 36).toNat + va % pageBytes x.size / 65536
      let r : DirtyRec := ⟨BitVec.ofNat 64 (space * 2 ^ 52 + x.vpage), asid, x.size,
        BitVec.ofNat 32 (frame / (pageBytes x.size / 65536) * (pageBytes x.size / 65536))⟩
      let s1 := s.modM core fun m => { m with
        dlog := m.dlog ++ [r], tcache := m.tcache.map fun y => if y.same x then { y with dirty := true } else y }
      some (if (s1.core core).m.dlog.length = 32 then s1.push (.dirtyLogMerge core) else s1)

/-- A write performed at its home (R304): the bytes, the slice's line, then every replica of the line is invalidated before
the acknowledgement (R403). -/
def State.writeHome (s : State) (key n v : Nat) : State :=
  let s1 := (s.wr key n v).l2Touch (lineOf key) 0 true
  { s1 with dies := s1.dies.map fun e =>
      (e.1, { e.2 with replicas := e.2.replicas.filter fun r => r.1 ≠ lineOf key }) }
/-- The same for a masked line. -/
def State.writeHomeLine (s : State) (line : Nat) (mask : W64) (d : BitVec 512) (code : BitVec 2 := 0) : State :=
  let s1 := { s with mem := writeMasked s.mem (line * 64) mask.toNat 64 d.toNat }.l2Touch line code true
  { s1 with dies := s1.dies.map fun e => (e.1, { e.2 with replicas := e.2.replicas.filter fun r => r.1 ≠ line }) }

/-- The OVF byte of an ASID's log descriptor, where the ASID has a log and its page a translation (R315). -/
def State.ovfKey (s : State) (asid : Nat) (p : W64) : Option Nat :=
  if p = 0 then none
  else match resolve 0 p with
    | some (.glob space va) => (s.keyOf (BitVec.ofNat 16 asid) space va).map fun k => k + 20
    | _ => none
/-- A write by software: OVF of a log descriptor is cleared by a 1 and left by a 0 (R315: RW1C). `hit` says which bytes the
write covers. -/
def State.soft (s : State) (hit : Nat → Bool) (f : State → State) : State :=
  s.out.wrlog.foldl (fun a e => match s.ovfKey e.1 e.2 with
    | some k =>
      if hit k then
        let o := readByte s.mem k
        let n := readByte a.mem k
        { a with mem := writeByte a.mem k ((n &&& 0xFD) ||| (o &&& 2 &&& ~~~n)) }
      else a
    | none => a) (f s)
def State.softHome (s : State) (key n v : Nat) : State :=
  s.soft (fun k => decide (key ≤ k) && decide (k < key + n)) fun s => s.writeHome key n v
def State.softHomeLine (s : State) (line : Nat) (mask : W64) (d : BitVec 512) (code : BitVec 2 := 0) : State :=
  s.soft (fun k => k / 64 == line && mask.getLsbD (k % 64)) fun s => s.writeHomeLine line mask d code

/-- The descriptor of an ASID's write-range log, for a die: the key of its 32 bytes; nothing where the ASID has no log; or a
translation fault at an address (R315, R398). -/
inductive LogAt where
  | none
  | at_ (key : Nat)
  | fault (ea : W64) (entryAt : Nat)
def State.wlogDesc (s : State) (die : Nat) (asid : W16) : LogAt :=
  let p := s.rd (physKey die ((s.die die).logBase + 8 * asid.toNat)) 8
  if p = 0 then .none
  else match resolve 0 (BitVec.ofNat 64 p) with
    | some (.glob space va) => match s.xlate asid space va true with
      | .ok x => .at_ (x.key (homeDie space va) va)
      | .error a => .fault (BitVec.ofNat 64 p) a
    | _ => .none

/-- How an append to a log's ring ends: done, or a translation fault. -/
inductive Appended where
  | ok (s : State)
  | fault (ea : W64) (entryAt : Nat)

/-- Append a record to the ring of its ASID's log and advance HEAD (R316): `writer` is the number in the record; a full ring
sets OVF; without a log, or with EN = 0, nothing is recorded. -/
def State.appendLog (s : State) (die writer : Nat) (r : WlogRec) : Appended :=
  match s.wlogDesc die r.asid with
  | .none => .ok s
  | .fault ea a => .fault ea a
  | .at_ k =>
    let base : W64 := BitVec.ofNat 64 (s.rd k 8)
    let size := s.rd (k + 8) 4
    let head := s.rd (k + 12) 4
    let tail := s.rd (k + 16) 4
    let flags := s.rd (k + 20) 1
    if flags % 2 = 0 ∨ size = 0 then .ok s
    else if (head + 2 ^ 32 - tail) % 2 ^ 32 ≥ size then .ok (s.writeHome (k + 20) 1 (flags ||| 2))
    else
      let ea := base + BitVec.ofNat 64 (16 * (head % size))
      match resolve 0 ea with
      | some (.glob space va) =>
        match s.xlate r.asid space va true with
        | .ok x =>
          let kk := x.key (homeDie space va) va
          let s2 := (s.writeHome kk 8 r.start.toNat).writeHome (kk + 8) 8 (r.lines - 1 + writer * 2 ^ 32)
          .ok (s2.writeHome (k + 12) 4 (head + 1))
        | .error a => .fault ea a
      | _ => .ok s

/-- Append a core's records until none is left or a page of the log has no translation. -/
def State.flushWlog (s : State) (core : Nat) : Nat → State
  | 0 => s
  | n + 1 =>
    match (s.core core).m.wlog with
    | [] => s
    | r :: rest => match s.appendLog (dieOf core) core r with
      | .ok s1 =>
        let s2 := s1.modM core fun m => { m with wlog := rest }
        State.flushWlog (if rest.isEmpty then { s2 with pool := s2.pool.erase (.writeLogAppend core) } else s2) core n
      | .fault _ _ => s

/-- Merge one dirty record (R401): compare-and-set of D in the leaf, unless the leaf is invalid or has changed. -/
def State.mergeDirty (s : State) (r : DirtyRec) : State :=
  let space := (r.vpage.extractLsb' 52 4).toNat
  let va := (r.vpage.extractLsb' 0 48).toNat
  let die := homeDie space va
  let root := readLE s.mem (physKey die ((s.die die).rootBase + 16 * r.asid.toNat + if space = 8 then 8 else 0)) 8
  match walkAt s.mem die space va 4 root with
  | none => s
  | some (at_, e, size) =>
    if size ≠ r.size ∨ (e.extractLsb' 16 32) ≠ r.frame ∨ e.getLsbD 4 then s
    else s.writeHome (physKey die at_) 8 (e ||| 16).toNat
where
  /-- The walk of R395, answering the leaf's own address. -/
  walkAt (m : Tab W8) (die space va : Nat) : Nat → Nat → Option (Nat × W64 × BitVec 2)
    | 0, _ => none
    | n + 1, base =>
      if base = 0 then none
      else
        let at_ := base + 8 * walkIndex va (4 - n)
        let e : W64 := BitVec.ofNat 64 (readLE m (physKey die at_) 8)
        if !e.getLsbD 0 then none
        else if e.getLsbD 1 then some (at_, e, if n = 2 then 2 else if n = 1 then 1 else 0)
        else walkAt m die space va n ((e.extractLsb' 8 44).toNat * 256)

/-- Merge a core's log. -/
def State.mergeLog (s : State) (core : Nat) : State :=
  let l := (s.core core).m.dlog
  l.foldl State.mergeDirty (s.modM core fun m => { m with dlog := [] })

/-- The acknowledgement of a global write reaches the issuing core: the translation it carries, the logged mark (R316),
the dirty record (R400). `none` when the dirty log is full. -/
def State.ackWrite (s : State) (core : Nat) (x : Xlat) (va : Nat) : Option State :=
  let s1 := s.keepXlat core x
  let ea : W64 := BitVec.ofNat 64 (x.space.toNat * 2 ^ 52 + va / 64 * 64)
  let s2 := if x.entry.getLsbD 3 then
      let s2 := s1.modM core fun m => { m with wlog := addWlog m.wlog x.asid ea }
      if (s1.core core).m.wlog.isEmpty then s2.push (.writeLogAppend core) else s2
    else s1
  s2.noteDirty core x.asid x.space.toNat va
/-- The write-range log buffer of a core is full, and the page of the log that its oldest record goes to has no translation: that
address, with the table entry at which the walk stopped (R316, R398). -/
def State.logStop (s : State) (core : Nat) : Option (W64 × Nat) :=
  match (s.core core).m.wlog with
  | [] => none
  | r :: rest =>
    if rest.length < 63 then none
    else match s.appendLog (dieOf core) core r with
      | .fault ea a => some (ea, a)
      | .ok _ => none
/-- The buffer of 64 records takes another one (R5): a full one appends its records first; where the log's page stops it, the
oldest record gives way (log entry 65). -/
def State.wlogSpace (s : State) (core : Nat) : State :=
  if 64 ≤ (s.core core).m.wlog.length then
    (s.flushWlog core 64).modM core fun m => { m with wlog := m.wlog.drop (m.wlog.length - 63) }
  else s
/-- The same for a write that does not wait for its acknowledgement: a full dirty log is merged first and a full write-range
log appended first (R400, R401). -/
def State.ackNow (s : State) (core : Nat) (x : Xlat) (va : Nat) : State :=
  let s0 := s.wlogSpace core
  match s0.ackWrite core x va with
  | some s1 => s1
  | none => ((s0.mergeLog core).ackWrite core x va).getD s0
/-- A core's log buffer takes the records of as many lines as its threads are about to publish, or is empty and is appended as they
go (R5, R316). -/
def State.wlogTakes (s : State) (core n : Nat) : Bool :=
  (s.core core).m.wlog.isEmpty || decide ((s.core core).m.wlog.length + n ≤ 64)
/-- A write at issue finds the dirty log full, and a page of its range that its core sees clean (R400). -/
def State.dirtyFull (s : State) (core : Nat) (asid : W16) (ea : W64) (n : Nat) : Bool :=
  decide (64 ≤ (s.core core).m.dlog.length) && match resolve core ea with
    | some (.glob space va) => (List.range (n / 65536 + 2)).any fun i =>
        (decide (i = 0) || decide (va / 65536 * 65536 + 65536 * i < va + n)) &&
          (s.noteDirty core asid space (if i = 0 then va else va / 65536 * 65536 + 65536 * i)).isNone
    | _ => false
/-- A core's logs have room for the acknowledgement of a write (R316, R400). -/
def State.logRoom (s : State) (core : Nat) : Bool :=
  decide ((s.core core).m.dlog.length < 64) && decide ((s.core core).m.wlog.length < 64)

/-! ## Reading -/

/-- How one part of a load ends. -/
inductive Got where
  | val (v : Nat) (s : State)
  | err (c : Cause) (ea : W64) (s : State)
  /-- a translation fault, with the table entry at which the walk stopped (R398) -/
  | hold (entryAt : Nat)

/-- The copy that a core's L1 holds of a line (R307). -/
def State.l1Copy (s : State) (core : Nat) (asid : W16) (space va : Nat) : Option L1Line :=
  (s.heldXlat core asid space va).bind fun x => s.l1Find core asid (lineOf (x.key (homeDie space va) va))
/-- The copy that a plain load of `n` bytes finds: an uncorrectable error in the words of a clean one is a miss (R205, R307). -/
def State.l1Hit (s : State) (core : Nat) (asid : W16) (space va n : Nat) : Option L1Line :=
  (s.l1Copy core asid space va).filter fun l => l.pending || !l.failed (va % 64) n
/-- A read of a copy's words (R205): single-bit errors are corrected and counted; a word that fails again after it has been
rewritten is a lasting fault. -/
def State.l1Read (s : State) (core : Nat) (l : L1Line) (o n : Nat) : State :=
  let es := l.errs o n
  if es.isEmpty then s
  else
    let single := es.filter fun e => e.2 == 1
    let s1 := s.modM core fun m => { m with
      fixed := m.fixed + single.length
      l1 := m.l1.map fun x => if x.line = l.line ∧ x.asid = l.asid then
        { x with ecc := x.ecc.filter fun e => !single.contains e } else x }
    if es.any fun e => e.2 == 4 then s1.urge (.coreLastingFault (.core core)) else s1

/-- Read `n` bytes inside one line of global memory, for a core (R282, R330, R151, R402). The thread has then read the line
(R151): its releases wait for the entries of the line and apply to its copies. -/
def State.readGlobal (s : State) (t : Tid) (core : Nat) (asid : W16) (space va n : Nat) (level : ReadLevel)
    (rh : BitVec 2) (special : Bool) : Got :=
  let cl := clusterOf core
  let ea := space * 2 ^ 52 + va
  let plain := match level with | .plain => !special | _ => false
  let wide := special || (match level with | .acquire sc => decide (2 ≤ sc.toNat) | .plain => false)
  let note := fun (a : State) (line : Nat) =>
    (a.modCluster cl fun c => c.noteReader asid (ea / 64) t).modThread t fun th =>
      { th with mo := { th.mo with rsig := th.mo.rsig ||| sigBits line } }
  let s := match (if plain then s.l1Copy core asid space va else none) with
    | some l => s.l1Read core l (va % 64) n
    | none => s
  match (if plain then s.l1Hit core asid space va n else none) with
  | some l =>
    if l.failed (va % 64) n then .err .memError (BitVec.ofNat 64 ea) s
    else .val (lineBytes l.data (va % 64) n) (note s l.line)
  | none =>
    if s.homeFails space va then .err .memError (BitVec.ofNat 64 ea) s
    else match s.xlate asid space va false with
    | .error a => .hold a
    | .ok x =>
      let die := homeDie space va
      let line := lineOf (x.key die va)
      let s1 := (s.keepXlat core x).l2Touch line rh false
      let base := s1.homeLine line
      let d := (if wide then [] else s1.csbAll cl asid (ea / 64)).foldl (fun b e => overLine b e.mask e.data) base
      let s2 := note s1 line
      let s3 := if special || rh == 3 then s2.l1Renew core asid line d else s2.l1Fill core asid line (ea / 64) d rh
      let k := dieOf core
      let s4 := if !wide && x.entry.getLsbD 5 && k ≠ die then s3.modDie k fun k =>
          { k with replicas := (k.replicas.filter fun r => r.1 ≠ line) ++ [(line, base)] }
        else s3
      .val (lineBytes d (va % 64) n) s4

/-- Read `n` bytes (inside one line) where they live, as a thread's access (R144, R146, R330). -/
def State.readPlace (s : State) (t : Tid) (core : Nat) (asid : W16) (ea : W64) (n : Nat) (level : ReadLevel)
    (rh : BitVec 2) : Got :=
  let special := match s.threads.find t with
    | some th => th.region.isSome || th.det
    | none => false
  let held := match s.threads.find t with | some th => th.held | none => []
  let at_ := (canonEa core ea).toNat
  if heldCovers held at_ n then .val (overlayHeld held at_ n 0) s
  else match resolve core ea with
  | none => .err .addressSpace ea s
  | some (.sp c off) =>
    match s.ownerCheck core c asid off n true with
    | some cause => .err cause ea s
    | none =>
      let (bad, s1) := s.eccRead c (spKey c off) n
      if bad then .err .memError ea s1
      else .val (overlayHeld held at_ n (s1.rd (spKey c off) n))
        (if special then s1.modThread t fun th => th.noteRead (spKey c off / 64) else s1)
  | some (.glob space va) =>
    match s.readGlobal t core asid space va n level rh special with
    | .val v s1 =>
      let s2 := if special then
          match s1.keyOf asid space va with
          | some k => s1.modThread t fun th => th.noteRead (lineOf k)
          | none => s1
        else s1
      .val (overlayHeld held at_ n v) s2
    | r => r

/-! ## Deferred reports (R141) and held faults (R398) -/

/-- A failed remote access is reported at the thread's next instruction; with IH = 1 or another report waiting the
supervisor takes it (R141). -/
def State.defer (s : State) (t : Tid) (c : Cause) (ea : W64) : State :=
  s.modThread t fun th => { th with mo := { th.mo with
    deferred := th.mo.deferred ++ [(c, ea, th.ih || !th.mo.deferred.isEmpty)] } }

/-- The name of a page of an address space: its ASID in bits 52 and above, its space in bits [51:48], the address of its
64 KiB page below. -/
def pageName (asid : W16) (space va : Nat) : Nat := asid.toNat * 2 ^ 52 + space * 2 ^ 48 + va / 65536 * 65536

/-- The home die holds a step until the controller answers (R398); with 4,096 translations in progress it waits (R396). -/
def State.holdStep (s : State) (die : Nat) (asid : W16) (space va entryAt : Nat) (i : Instr) : State :=
  s.modDie die fun d => { d with held := d.held ++ [⟨pageName asid space va, asid, i, entryAt, d.full⟩] }

/-- Steps in flight, those that a die holds included. -/
def State.inAir (s : State) : List Instr := s.pool ++ s.dies.flatMap fun d => d.2.held.map HeldFault.ev

end Sys2Proof.Machine
end

