-- ==== Sys2Proof/Machine/Region.lean ====
section
/-! DEFINITION. Checkpoints, held lines and the package region order (R327-R338), shared by the instructions of regions,
by traps and by deterministic chunks (R319-R321). -/

namespace Sys2Proof.Machine

/-- STATUS fields of a checkpoint: RM, NV to SRSUB, FT (R327): bits 13:0. -/
def cpStatus : W32 := 0x3FFF

def State.masksOf (s : State) (t : Thread) : Tab (BitVec 128) := (s.slotState t.slotNo).m
/-- The checkpoint of R327. -/
def State.checkpoint (s : State) (t : Thread) : Checkpoint :=
  ⟨t.c.x, t.c.pred, t.c.status &&& cpStatus, t.c.hint, t.c.cvc, t.c.pc, t.c.img, s.masksOf t⟩

/-- Write every item of a checkpoint back, every scalar register full (R327). -/
def Thread.restore (t : Thread) (cp : Checkpoint) : Thread :=
  t.modC fun c => { c with
    x := cp.x, fe := 0xFFFF, pred := cp.pred, status := (c.status &&& ~~~cpStatus) ||| cp.status, hint := cp.hint,
    cvc := cp.cvc, pc := cp.pc, img := cp.img }

/-- A load in flight of a thread. -/
def loadOf (t : Tid) : Instr → Bool
  | .loadCompletion r => r.tid == t
  | _ => false

/-- A load or a translation probe of a thread: what the restore of a checkpoint drops, in flight or held at a die. -/
def readOf (t : Tid) : Instr → Bool
  | .loadCompletion r => r.tid == t
  | .translationProbe u => u == t
  | _ => false

/-- Restore a thread, with its masks and the vector registers given where a slot is bound to it (R24, R327), dropping its
loads in flight. -/
def State.restoreThread (s : State) (t : Tid) (th : Thread) (cp : Checkpoint) (vs : Tab (BitVec 4096)) : State :=
  let u := th.restore cp
  { s with
    threads := s.threads.set t { u with slices := none, mo := { u.mo with probe := none, probeFail := false, waitId := 0, reply := none } }
    slots := match th.bound with
      | some b => s.slots.modD (th.core * 16 + b) {} fun k =>
          { v := vs.foldl (fun a e => a.put 0 e.1 e.2) k.v, m := cp.masks }
      | none => s.slots
    pool := s.pool.filter fun i => !readOf t i
    dies := s.dies.map fun e => (e.1, { e.2 with held := e.2.held.filter fun h => !readOf t h.ev }) }

/-- Close the region of a restored thread: RG falls, its reports are dropped. -/
def Thread.closeRegion (t : Thread) : Thread :=
  ({ t with region := none, mo := { t.mo with deferred := [], acquired := false, rel := none } }).setBit 19 false

/-- Basting lines a region uses (R329). -/
def Region.used (r : Region) : Nat := r.held.length + 8 * r.vsaved.length
/-- Whether a region of a core can obtain `n` more lines (R329); a deterministic lane has sixteen (R319). -/
def State.canHold (s : State) (t : Tid) (th : Thread) (r : Region) (n : Nat) : Bool :=
  if th.det then decide (r.used + n ≤ 16)
  else
    let others := s.threads.filterMap fun e => if e.1 ≠ t ∧ e.2.core = th.core then e.2.region else none
    let used := (others.map Region.used).sum
    let owed := (others.map fun o => 16 - o.used).sum
    decide (r.used + n ≤ 16) || decide (used + r.used + n + owed ≤ 256)

/-- Some region is open in the package. -/
def State.anyRegion (s : State) : Bool := s.threads.any fun e => e.2.region.isSome

/-- A write signature as a write set whose lines are not known exactly (R334). -/
def sigSet (g : BitVec 1024) : LineSet := ⟨[], 65, g⟩

/-- An open region of another thread whose read set a set meets. -/
def Thread.regionMet (t : Thread) (id by_ : Tid) (set : LineSet) : Bool :=
  id != by_ && t.region.any fun r => set.meets r.reads

/-- Take the next place in the package order (R334): every open region that it meets is to be squashed within 64 cycles
(R336). -/
def State.takePlace (s : State) (set : LineSet) (region : Bool) (by_ : Tid) : State :=
  let p := s.pkg.place + 1
  { s with
    pkg := { s.pkg with place := p, order := if s.anyRegion then s.pkg.order ++ [⟨p, set, region⟩] else [] }
    threads := s.threads.map fun e =>
      if e.2.regionMet e.1 by_ set then
        (e.1, { e.2 with region := e.2.region.map fun r => { r with due := some (r.due.getD (s.cycle + 64)) } })
      else e
    pool := s.pool ++ (s.threads.filter fun e => e.2.regionMet e.1 by_ set).map fun e => .regionSquash e.1 }

/-- Validation (R334): no set placed since the region began meets its read set. -/
def State.regionValid (s : State) (r : Region) : Bool :=
  !s.pkg.order.any fun p => decide (r.begun < p.place) && p.set.meets r.reads

/-- A thread is held for a floating-point report no more (R228, R229). -/
def State.dropHold (s : State) (t : Tid) (core : Nat) : State :=
  let held := (s.core core).k.fpHeld
  let rest := held.filter fun h => h.tid ≠ t
  if rest.length = held.length then s
  else
    let s1 := s.modK core fun k => { k with fpHeld := rest }
    if rest.isEmpty then { s1 with pool := s1.pool.erase (.heldFpTrapDelivery core) } else s1.freeHold core

/-- A core parked by a reserved word of a run that is squashed goes on at the restored pc when it is resumed (R72). -/
def State.unreserve (s : State) (t : Tid) (core : Nat) : State :=
  s.modK core fun k => if k.reserver = some t then { k with reserver := none } else k

/-- Squash (R336): discard, restore and run again from the `ar.begin`; after the fourth in a row the region waits for
its die's priority. -/
def State.squashRegion (s : State) (t : Tid) : State :=
  match s.threads.find t with
  | none => s
  | some th =>
    match th.region with
    | none => s
    | some r =>
      let s1 := (s.dropHold t th.core).restoreThread t th.closeRegion r.cp r.vsaved
      let s2 := s1.modThread t fun x => { x with run := (x.wakeAt s.cycle).run, squashes := th.squashes + 1, lastReads := r.reads }
      let s2 := s2.unreserve t th.core
      if th.squashes + 1 = 4 then
        s2.modDie (dieOf th.core) fun d =>
          if d.prio.isNone then { d with prio := some t, prioSince := s.cycle } else { d with prioWait := d.prioWait ++ [t] }
      else s2

/-- The priority of a thread's die passes on when its region ends (R336). -/
def State.endPriority (s : State) (t : Tid) (core : Nat) : State :=
  s.modDie (dieOf core) fun d =>
    if d.prio = some t then { d with prio := d.prioWait.head?, prioWait := d.prioWait.tail, prioSince := s.cycle }
    else { d with prioWait := d.prioWait.filter fun x => x ≠ t }

/-- The LAST word (R339). -/
def lastWord (code : Nat) (cause : W8) (pc : W32) : W64 :=
  BitVec.ofNat 64 (code + cause.toNat * 2 ^ 8 + pc.toNat * 2 ^ 16)

/-- Overflow or abort of a region (R337): discard, restore all but the latch, go on after the `ar.begin` with the status
code. -/
def State.overRegion (s : State) (t : Tid) (th : Thread) (r : Region) (code : Nat) : State :=
  (s.restoreThread t th.closeRegion r.cp r.vsaved).modThread t fun x =>
    ((({ x with last := lastWord code 0 th.c.pc, squashes := 0 }).retire).setX r.sd (BitVec.ofNat 64 code))
/-- A thread's region overflows or is aborted (R337); in a deterministic launch that ends its chunk, which waits for its lane's
turn (R343). -/
def State.endRegion (s : State) (t : Tid) (code : Nat) : State :=
  match s.threads.find t with
  | none => s
  | some th =>
    match th.region with
    | none => s
    | some r =>
      if th.det then s.modThread t fun x => { x.park .turn with chunk := { x.chunk with ended := .over_ code } }
      else (s.overRegion t th r code).endPriority t th.core

/-- Which bytes of a held scratchpad line its owner refuses (R141): the check of every byte, of a changed full/empty bit the
check of its word. -/
def State.heldBad (s : State) (core c : Nat) (asid : W16) (off : Nat) (h : HeldLine) : List (Nat × Cause) :=
  if c = core then []
  else (List.range 64).filterMap fun i =>
    if h.mask.getLsbD i || h.fe.getLsbD (i / 4) then
      (s.ownerCheck core c asid (if h.mask.getLsbD i then off + i else off + i / 4 * 4) (if h.mask.getLsbD i then 1 else 4)
        false).map fun k => (i, k)
    else none

/-- The lines of a held set, by their homes (R331). -/
def State.heldSet (s : State) (core : Nat) (asid : W16) (h : List HeldLine) : LineSet :=
  h.foldl (fun g l =>
    match resolve core (BitVec.ofNat 64 (l.va * 64)) with
    | some (.sp c off) => g.add (spKey c off / 64)
    | some (.glob space va) =>
      match s.keyOf asid space va with
      | some k => g.add (lineOf k)
      | none => g
    | none => g) {}

/-- A thread's release is given up (R43, R141): its probes and its signature are no longer wanted. -/
def State.dropRelease (s : State) (t : Tid) : State :=
  { s with
    pool := s.pool.filter fun i => match i with
      | .releaseProbeEcho u _ | .signaturePlacement u _ => u != t
      | _ => true }.modThread t fun u => { u with mo := { u.mo with rel := none } }

/-! ## Traps, with regions and chunks (R338, R319 case 5) -/

/-- A trap that R38 would take (with `tpc` its trap_pc): inside a region it first validates the region, and either
squashes it and is dropped, or ends the region and is delivered at the `ar.begin` (R338); in a deterministic chunk it
ends the chunk and is taken after the commit (R319). `held` is the trapping word of a report that was held (R228). -/
def State.takeTrap (s : State) (t : Tid) (cause : Cause) (detail : W8) (v : W64) (tpc : W32) (supOnly : Bool := false)
    (held : Option W32 := none) : State :=
  match s.threads.find t with
  | none => s
  | some th =>
    let word := held.getD (s.wordAt th.core th.c.asid th.c.img (trapWord cause tpc))
    match th.region with
    | some r =>
      if th.det then
        s.modThread t fun x =>
          { (x.setPc tpc).park .turn with chunk := { x.chunk with ended := .trap cause detail v supOnly word } }
      else if !s.regionValid r then s.squashRegion t
      else
        let s1 := s.restoreThread t th.closeRegion r.cp r.vsaved
        let s2 := s1.modThread t fun x =>
          { x with last := lastWord 5 cause.code (trapWord cause tpc), squashes := 0 }
        (s2.endPriority t th.core).trapEntry t cause detail v r.cp.pc supOnly (some word)
    | none =>
      if th.det && th.chunk.open_ then
        s.modThread t fun x =>
          { (x.setPc tpc).park .turn with chunk := { x.chunk with ended := .trap cause detail v supOnly word } }
      else s.trapEntry t cause detail v tpc supOnly (some word)

end Sys2Proof.Machine
end

