-- ==== Sys2Proof/Machine/Issue.lean ====
section
/-! DEFINITION. Issuing a word: the order of R74, deferred reports (R141), the hint latch (R23), binding by VX (R25, R180),
gangs (R290, R292), the lazy checkpoint of vector registers (R327) and the words of deterministic chunks (R319). Every
instruction word's meaning goes through `issue`. -/

namespace Sys2Proof.Machine

open Host (Outcome)

/-- A vector register is the destination of a load in flight, one held at a die included (R234, R250). -/
def State.vecPending (s : State) (t : Tid) (v : BitVec 5) : Bool :=
  s.inAir.any fun i => match i with
    | .loadCompletion r => r.tid == t && (match r.dst with
        | .vec d => d == v
        | .bcast d _ _ => d == v
        | _ => false)
    | _ => false

/-- The masks and vector registers of the slot that a thread is about to be bound to enter its open checkpoints: they are
what the restore of them writes back (R321, R327). -/
def State.keepSlot (s : State) (t : Tid) (th : Thread) : State :=
  if th.bound.isSome || (th.region.isNone && !th.chunk.open_) then s
  else
    let k := s.slotState th.slotNo
    s.setThread t { th with
      region := th.region.map fun r => { r with cp := { r.cp with masks := k.m } }
      chunk := if th.chunk.open_ then { th.chunk with cp := { th.chunk.cp with masks := k.m }, vregs := k.v } else th.chunk }

/-- VX rises and the thread is bound to its slot (R25, R180). -/
def Thread.bindVx (t : Thread) : Thread :=
  let u := t.setBit 17 true
  match t.bound with
  | some _ => u
  | none => { u with bound := t.bslot }

/-- Waits that end a deterministic chunk before their word (R165, R277, R298, R319 case 3). -/
def Wait.endsChunk : Wait → Bool
  | .request _ | .barrier _ _ | .cbCount _ _ | .cbRoom _ _ | .launch _ _ => true
  | _ => false

/-- Open a chunk at the word about to issue (R319). -/
def State.openChunk (s : State) (t : Tid) (th : Thread) : State :=
  if th.det && th.lau.lane.isSome && !th.chunk.open_ && !th.lau.exiting then
    let det := s.pkg.det.getD th.c.lid.toNat {}
    s.setThread t { th with
      chunk := { cp := s.checkpoint th, vregs := (s.slotState th.slotNo).v, begun := det.count, open_ := true, firstId := s.nextId,
                 last := th.last, part := th.part } }
  else s

/-- Count a word of a chunk; the 1,024th ends it (R319 case 1), but not while a region is open (R343). -/
def State.countWord (s : State) (t : Tid) : State :=
  match s.threads.find t with
  | none => s
  | some th =>
    if th.chunk.open_ && th.chunk.ended == .running then
      let n := th.chunk.words + 1
      if n = 1024 ∧ th.region.isNone then
        s.setThread t { th.park .turn with chunk := { th.chunk with words := n, ended := .full } }
      else s.setThread t { th with chunk := { th.chunk with words := n } }
    else s

/-- End a chunk at this word. -/
def State.endChunk (s : State) (t : Tid) (e : ChunkEnd) : State :=
  s.modThread t fun th => { th.park .turn with chunk := { th.chunk with ended := e } }

/-- A thread is inside a word that waits, or has acted and has still to retire: no report comes in between
(R141; log entry 40). -/
def Thread.midWord (th : Thread) : Bool := th.mo.acquired || th.mo.waitId != 0

/-- Deliver a deferred report at this word, unless the word has begun before (R141). -/
def State.takeDeferred (s : State) (t : Tid) (th : Thread) : Option State :=
  match th.mo.deferred with
  | [] => none
  | (c, ea, sup) :: r =>
    if th.midWord then none
    else some (((s.setThread t { th with mo := { th.mo with deferred := r } }).dropRelease t).takeTrap t c 1 ea th.c.pc sup)

/-- What a word does after the checks before its own part: `vd` is the vector register it writes. -/
abbrev Body := State → Tid → Thread → Res

/-- The first write to a vector register in a region saves its old value in eight basting lines (R327, R329): `s0` is the
state before the word, `s1` the state after its own part. `none` when the region overflows. -/
def State.saveVec (s0 s1 : State) (t : Tid) (vd : Option (BitVec 5)) : Option State :=
  match s1.threads.find t, vd with
  | some th, some v =>
    match th.region with
    | some r =>
      if (r.vsaved.find v.toNat).isSome then some s1
      else if s1.canHold t th r 8 then
        some (s1.setThread t { th with region := some { r with vsaved := r.vsaved.set v.toNat (s0.vreg th v) } })
      else none
    | none => some s1
  | _, _ => some s1

/-- A floating-point exception is reported by windows of 16 cycles (R228). The lowest slot of a window raises first in it
(R177): where the core has no report open and nobody held, the thread keeps its slot and reports before its next turn; any
other is held, and vacates its slot. -/
def State.holdFp (s : State) (t : Tid) (th : Thread) (detail : W8) (v : W64) (word : Option W32 := none) : State :=
  let k := (s.core th.core).k
  let first := k.fpHeld.isEmpty && k.fpRep.isNone
  let h : FpHold := { tid := t, slot := th.bslot.getD 0, window := s.cycle / 16, addr := v, detail := detail, word := word }
  let s1 := if first && th.bslot.isSome then s
    else s.modThread t fun u => { u with run := .parked .fpHeld, bslot := none }
  let s2 := s1.modK th.core fun k => { k with fpHeld := k.fpHeld ++ [h] }
  if first then s2.push (.heldFpTrapDelivery th.core) else s2

/-- A precise trap of a word: cause 0x0C goes through the windows of R228, unless it ends a deterministic chunk (R319). -/
def State.raiseTrap (s : State) (t : Tid) (th : Thread) (c : Cause) (d : W8) (v : W64) (tpc : W32) : State :=
  if c = .fp ∧ !(th.det && (th.chunk.open_ || th.region.isSome)) then s.holdFp t th d v else s.takeTrap t c d v tpc

/-- The end of a word that a lone thread issued. -/
def State.settle (s : State) (t : Tid) (th : Thread) (vx : Bool) (r : Res) : Outcome State Fault Refusal :=
  match r with
  | .done s1 => .next ((if vx then s1.modThread t Thread.bindVx else s1).countWord t)
  | .trap s1 c d v => .next (s1.raiseTrap t th c d v th.c.pc)
  | .trapNext s1 c v =>
    match s1.threads.find t with
    | some u => .next (s1.takeTrap t c 0 v u.c.pc)
    | none => .next s1
  | .park s1 w =>
    -- a region chunk goes on to its `pcommit` (R343): its word waits in it
    if th.det && th.chunk.open_ && th.region.isNone && w.endsChunk then .next (s1.endChunk t .wait)
    else .next (s1.modThread t fun u => u.park w)
  | .refuse r => .refused r

/-- A finished part with the vector register it writes saved, or the overflow of its region. -/
def State.saved (s0 : State) (t : Tid) (vd : Option (BitVec 5)) (r : Res) : Res :=
  match r with
  | .done s1 => match s0.saveVec s1 t vd with
    | some s2 => .done s2
    | none => .done (s0.endRegion t 3)
  | r => r

/-- A word issued by a thread that is in no formed gang. -/
def State.issueLone (s : State) (t : Tid) (th : Thread) (q : Issue) (vd : Option (BitVec 5)) (body : Body) :
    Outcome State Fault Refusal :=
  match th.precheck q s.word (s.vecPending t) with
  | .trap c v => .next (s.takeTrap t c 0 v th.c.pc)
  | .park w => .next (s.setThread t (th.park w))
  | .off => .next ((s.setThread t th.retire).countWord t)
  | .go =>
    let s1 := if q.vx then s.keepSlot t th else s
    match s1.threads.find t with
    | none => .refused .notIssuing
    | some th1 => s1.settle t th1 q.vx (s1.saved t vd (body s1 t th1))

/-! ## Gangs (R288-R293) -/

/-- Disband a gang: GM falls in every member (R289). -/
def State.disband (s : State) (ms : List Tid) : State :=
  ms.foldl (fun a m => a.modThread m fun u => { u.setBit 20 false with gang := none }) s

/-- A gang member takes cause 0x0F with the trapping member's index (R292): a follower at its resume point, the leader at
the word after. -/
def State.gangTrap (s : State) (m : Tid) (idx : Nat) (next : W32) : State :=
  match s.threads.find m with
  | none => s
  | some u =>
    match u.gang with
    | none => s
    | some g =>
      if g.leader = m then s.takeTrap m .gang 0 (BitVec.ofNat 64 idx) next
      else
        let s1 := s.setThread m (u.modC fun c => { c with img := g.resumeImg, pc := g.resume })
        s1.takeTrap m .gang 0 (BitVec.ofNat 64 idx) g.resume

/-- What a word is for every member of a gang: what it names, its own part, the leader, and whether the leader's guard turns a
branch, call or jump off for all (R113). -/
structure GangWord where
  q    : Issue
  body : Body
  lead : Tid
  off  : Bool

/-- What one member of a gang does at a word: a follower's own guard and target are not read where the leader decides
(R113). -/
def State.memberRes (s : State) (w : GangWord) (m : Tid) : Res :=
  match s.threads.find m with
  | none => .refuse .notIssuing
  | some th =>
    match (if th.midWord then [] else th.mo.deferred) with
    | (c, ea, _) :: r => .trap ((s.setThread m { th with mo := { th.mo with deferred := r } }).dropRelease m) c 1 ea
    | [] =>
      if w.off then .done (s.setThread m th.retire)
      else
        let q1 := if w.q.flow ∧ m ≠ w.lead then { w.q with guard := none, srcs := [] } else w.q
        match th.precheck q1 s.word (s.vecPending m) with
        | .trap .emptyReg v => .park s (.reg (v.extractLsb' 0 4))
        | .trap c v => .trap s c 0 v
        | .park x => .park s x
        | .off => .done (s.setThread m th.retire)
        | .go =>
          let s1 := if w.q.vx then s.keepSlot m th else s
          match s1.threads.find m with
          | none => .refuse .notIssuing
          | some th1 => w.body s1 m th1

/-- What keeps a member from acting at a word: it parks, or its chunk ends before the word. -/
def Res.stops (r : Res) (m : Tid) : Option (State × Option ChunkEnd) :=
  match r with
  | .park s1 w => some (s1, if w.endsChunk then some .wait else none)
  | .done s1 => if (s1.threads.find m).any fun u => u.chunk.ended == .lines then some (s1, some .lines) else none
  | _ => none

/-- The turn that a gang loses (R290): the members that their word parks have begun to wait (their requests, arrivals and
probes are made), the others have done nothing. `none` when no member waits. The last answer says whether all do: `all` of those
before. -/
def State.gangStops (w : GangWord) : List Tid → State → Option (Option ChunkEnd) → Bool → Option (State × Option ChunkEnd × Bool)
  | [], s, a, all => a.map fun e => (s, e, all)
  | m :: ms, s, a, all =>
    match (s.memberRes w m).stops m with
    | some (s1, e) => State.gangStops w ms (if e = some .lines then s else s1) (some ((a.getD none).or e)) all
    | none => State.gangStops w ms s a false

/-- Fold a word over the members: the state and the members that trapped (cause, detail, value); `none` where what one member
does makes another wait, so that the turn is lost. -/
def State.foldGang (w : GangWord) :
    List Tid → State → List (Tid × Cause × W8 × W64) → Option (State × List (Tid × Cause × W8 × W64))
  | [], s, tr => some (s, tr)
  | m :: ms, s, tr =>
    match s.memberRes w m with
    | .done s1 => State.foldGang w ms (if w.q.vx then s1.modThread m Thread.bindVx else s1) tr
    | .trap s1 c d v => State.foldGang w ms s1 (tr ++ [(m, c, d, v)])
    | .trapNext s1 c v => State.foldGang w ms s1 (tr ++ [(m, c, 0, v)])
    | .park _ _ => none
    | .refuse _ => State.foldGang w ms s tr

/-- The chunks of a gang's members end at the same word (R293). -/
def State.endGangChunks (s : State) (ms : List Tid) (e : ChunkEnd) : State :=
  ms.foldl (fun a m => a.modThread m fun u =>
    if u.chunk.open_ && u.chunk.ended == .running then { u with chunk := { u.chunk with ended := e } } else u) s

/-- The members of a formed gang stand at its leader's word (R113, R290). -/
def State.alignGang (s : State) (g : Gang) (l : Thread) : State :=
  g.members.foldl (fun a m => if m = g.leader then a
    else a.modThread m fun u => if u.gm then u.modC fun c => { c with pc := l.c.pc, img := l.c.img } else u) s

/-- A word after which no member trapped: one stream, so the followers go where the leader goes (R113), and the members'
chunks end at the same word. -/
def State.gangGoes (s : State) (g : Gang) (l : Thread) : State :=
  let s2 := g.members.foldl (fun a m => a.countWord m) (s.alignGang g l)
  match g.members.findSome? fun m => (s2.threads.find m).bind fun u =>
      if u.chunk.ended == .running then none else some u.chunk.ended with
  | some e => s2.endGangChunks g.members e
  | none => s2

/-- A word at which members trapped (R292): every other member takes cause 0x0F, the trapping ones their own traps, and the gang
is over. `pc` is the word's. -/
def State.gangBreaks (s : State) (g : Gang) (pc next : W32) (tr : List (Tid × Cause × W8 × W64)) : State :=
  let low := (tr.map fun e => ((s.threads.find e.1).map Thread.core).getD 0 % g.size).foldl min 8
  let after := if tr.any fun e => e.1 == g.leader then pc + 1 else next
  let s1 := g.members.foldl (fun a m => a.modThread m fun u => u.setBit 20 false) s
  let s2 := g.members.foldl (fun a m => if tr.any fun e => e.1 == m then a else a.gangTrap m low after) s1
  let s3 := tr.foldl (fun a e =>
    match a.threads.find e.1 with
    | none => a
    | some u => a.raiseTrap e.1 u e.2.1 e.2.2.1 e.2.2.2 (if e.2.1.after then pc + 1 else pc)) s2
  s3.disband g.members

/-- A word issued by the leader of a formed gang (R290, R292): all members act, or all lose the turn; a trap disbands. -/
def State.issueGang (s : State) (th : Thread) (g : Gang) (q : Issue) (body : Body) : Outcome State Fault Refusal :=
  let w : GangWord := ⟨q, body, g.leader, q.flow && q.guard.any fun p => !th.guardOk p.1 p.2⟩
  let lost := fun (a : State) (all : Bool) => a.modThread g.leader fun u => { u with gangWait := true, gangIdle := all }
  match State.gangStops w g.members s none true with
  | some (s1, e, all) =>
    match e with
    | some e => .next (lost (if th.det then s1.endGangChunks g.members e else s1) all)
    | none => .next (lost s1 all)
  | none =>
    match State.foldGang w g.members ((s.modThread g.leader fun u => { u with gangWait := false, gangIdle := false }).modPkg
        fun p => { p with moved := true }) [] with
    | none => .next (lost s false)
    | some (s1, tr) =>
      match s1.threads.find g.leader with
      | none => .next s1
      | some l => .next (if tr.isEmpty then s1.gangGoes g l else s1.gangBreaks g th.c.pc l.c.pc tr)

/-- Issue a word of the current thread (R74): `q` is what it names, `vd` the vector register it writes, `body` its own
part. -/
def issue (q : Issue) (s : State) (body : Body) (vd : Option (BitVec 5) := none) : Outcome State Fault Refusal :=
  match s.threads.find s.cur with
  | none => .refused .notIssuing
  | some th =>
    match (if th.gm then th.gang else none) with
    | some g =>
      let s1 := g.members.foldl (fun a m => match a.threads.find m with
        | some u => a.openChunk m u
        | none => a) (s.alignGang g th)
      match s1.threads.find s.cur with
      | none => .refused .notIssuing
      | some th1 => s1.issueGang th1 g q body
    | none =>
      match s.takeDeferred s.cur th with
      | some s1 => .next s1
      | none =>
        let s1 := s.openChunk s.cur th
        match s1.threads.find s.cur with
        | none => .refused .notIssuing
        | some th1 => s1.issueLone s.cur th1 q vd body

/-- A part that changes its own thread alone. -/
def onThread (f : Thread → Thread) : Body := fun s t th => .done (s.setThread t (f th))

/-- A word that reads scalar sources and writes one scalar register. -/
def writesX (d : BitVec 4) (f : Thread → W64) : Body := onThread fun th => th.retire.setX d (f th)

/-- Flags set by an instruction enter a cluster's accumulated flags (R286), with the cycle (R287). -/
def Cluster.noteFlags (c : Cluster) (now : Nat) (f : BitVec 6) : Cluster :=
  { c with flagacc := c.flagacc ||| f, flagAt := now, flagNew := if c.flagAt = now then c.flagNew ||| f else f }
/-- A clear of accumulated flags: one that is set anew in the same cycle stays set (R287). -/
def Cluster.clearFlags (c : Cluster) (now : Nat) (f : BitVec 6) : Cluster :=
  { c with flagacc := c.flagacc &&& ~~~(if c.flagAt = now then f &&& ~~~c.flagNew else f) }

/-- Set sticky flags of a thread, and of its cluster's accumulated flags (R18, R286). -/
def State.raise (s : State) (t : Tid) (th : Thread) (f : BitVec 6) : State :=
  if f = 0 then s.setThread t th
  else (s.setThread t (th.orFlags f)).modCluster (clusterOf th.core) fun c => c.noteFlags s.cycle f

end Sys2Proof.Machine
end

