-- ==== Sys2Proof/Machine/Release.lean ====
section
/-! DEFINITION. Release and acquire (R148, R151, R308-R311): the wait, its probes and signature, and what a finished
release clears. A word that is a release parks until its release is over and is then issued again. -/

namespace Sys2Proof.Machine

/-- What a step in flight does to memory, as far as the ordering rules ask: its thread, the bytes it writes, the bytes it
reads. -/
structure InFlight where
  tid    : Tid
  core   : Nat
  asid   : W16
  writes : List (W64 × Nat)
  reads  : List (W64 × Nat)
  id     : Nat
  /-- it leaves the issuing core (R142) -/
  out    : Bool

/-- An address that is not in the core's own scratchpad. -/
def leaves (core : Nat) (ea : W64) : Bool :=
  match resolve core ea with
  | some (.sp c _) => c != core
  | _ => true

/-- A post of a thread: it leaves the core unless it is to the core's own mailbox (R142). -/
def postFlight (p : PostReq) : Option InFlight :=
  if p.d.isSome then some ⟨p.tid, p.core, p.asid, [], [], p.id, p.dst != p.core || p.fabric.isSome⟩ else none

/-- A load of an open region or of a deterministic launch (R330). -/
def State.specialRead (s : State) (t : Tid) : Bool := (s.threads.find t).any fun th => th.region.isSome || th.det
/-- The core's own L1 serves bytes of a load (R307): they leave the core for nothing. -/
def State.l1Serves (s : State) (t : Tid) (core : Nat) (asid : W16) (level : ReadLevel) (ea : W64) (n : Nat) : Bool :=
  match resolve core ea with
  | some (.glob space va) => level == .plain && !s.specialRead t && (s.l1Hit core asid space va n).isSome
  | _ => false

/-- The accesses of threads in flight (R142). -/
def inFlight : Instr → Option InFlight
  | .loadCompletion r =>
    some ⟨r.tid, r.core, r.asid, [], r.parts.map fun p => (p.ea, p.n), r.id, r.parts.any fun p => leaves r.core p.ea⟩
  | .storePerformAtHome r =>
    some ⟨r.tid, r.core, r.asid, r.parts.map fun p => (p.ea, p.n), [], r.id, r.parts.any fun p => leaves r.core p.ea⟩
  | .atomicAtHome a => some ⟨a.tid, a.core, a.asid, [(a.ea, a.n)], [(a.ea, a.n)], a.id, leaves a.core a.ea⟩
  | .remoteUpdate a => some ⟨a.tid, a.core, a.asid, [(a.ea, a.n)], [(a.ea, a.n)], a.id, leaves a.core a.ea⟩
  | .mailboxDelivery p => postFlight p
  | .resumeMessage p => postFlight p
  | .clusterControlWrite p => postFlight p
  | .clusterControlRead p => postFlight p
  | _ => none

/-- A held step counts as in flight (R398). -/
def State.flying (s : State) : List InFlight := s.inAir.filterMap inFlight

/-- A thread's stores in its cluster's buffer or read from it, one entry each. -/
def State.csbOf (s : State) (t : Tid) (th : Thread) (readers : Bool) : List CsbEntry :=
  (s.cluster (clusterOf th.core)).csb.filter fun e => (e.writers.any fun w => w.1 == t) || (readers && e.readers.contains t)

/-- The home die and slice of an address under an ASID; the slice is unknown while the page has no translation. -/
def State.homeOf (s : State) (core : Nat) (asid : W16) (ea : W64) : Option (Nat × Option Nat) :=
  match resolve core ea with
  | some (.glob space va) =>
    some (homeDie space va, (s.keyOf asid space va).map fun k => sliceOf (k % 0x4000000000))
  | _ => none

/-- Homes of a thread's writes that have not been acknowledged: its requests, and its entries in the buffer. -/
def State.openHomes (s : State) (t : Tid) (th : Thread) (readers : Bool) : List (Option (Nat × Option Nat)) :=
  ((s.flying.filter fun f => f.tid == t && !f.writes.isEmpty).flatMap fun f =>
      f.writes.map fun w => s.homeOf f.core f.asid w.1) ++
    (s.csbOf t th readers).map fun e => s.homeOf th.core e.asid (BitVec.ofNat 64 (e.va * 64))

/-- Peer writes still in flight (R148). -/
def State.peerOpen (s : State) (t : Tid) (th : Thread) : Bool :=
  (s.openHomes t th false).any Option.isNone

/-- No write of the thread is open at a probe's target (R311). -/
def State.echoReady (s : State) (t : Tid) (th : Thread) (p : ProbeTo) : Bool :=
  !(s.openHomes t th false).any fun h =>
    match h, p with
    | some (d, k), .slice pd ps => d == pd && (match k with | some k => k == ps | none => true)
    | some (d, _), .die pd => d == pd
    | none, _ => false

/-- No store of the thread is on its way to the buffer or an owner, and no atomic or reduction (R151). -/
def State.sentAll (s : State) (t : Tid) : Bool := !s.flying.any fun f => f.tid == t && !f.writes.isEmpty
/-- Every write that a release of a scope waits for is acknowledged, what the thread has read from the buffer included; each scope
waits for what a cluster-scope release waits for (R151). -/
def State.acked (s : State) (t : Tid) (th : Thread) (sc : BitVec 2) : Bool :=
  s.sentAll t && !(s.openHomes t th true).any fun h =>
    match h with
    | none => true
    | some (d, _) => if sc = 1 then d == dieOf th.core else true

/-- A write to an address may be recorded in its ASID's write-range log (R316): the ASID has one, and the page is marked logged,
or has no translation that would say. -/
def State.mayLog (s : State) (core : Nat) (asid : W16) (ea : W64) : Bool :=
  s.rd (physKey (dieOf core) ((s.die (dieOf core)).logBase + 8 * asid.toNat)) 8 != 0 &&
    match resolve core ea with
    | some (.glob space va) => (match s.xlate asid space va true with
      | .ok x => x.entry.getLsbD 3
      | .error _ => true)
    | _ => false

/-- What a release at any scope waits for on behalf of write-range logs (R316): every record of the thread's ASID is appended, and
no store of the thread to a logged page is still in the buffer, its record yet to come. -/
def State.logged (s : State) (t : Tid) (th : Thread) : Bool :=
  (s.cores.all fun c => !c.2.m.wlog.any fun r => r.asid == th.c.asid) &&
    !(s.csbOf t th false).any fun e => s.mayLog th.core e.asid (BitVec.ofNat 64 (e.va * 64))

/-- A release in progress is over (R151): at cluster scope the peer writes, atomics and reductions are acknowledged; from
die scope on the probes have echoed and the arbiter has placed the signature. -/
def State.releaseOver (s : State) (t : Tid) (th : Thread) (r : Release) : Bool :=
  s.logged t th &&
    (if r.scope = 0 then s.sentAll t
     else r.probes.isEmpty && r.placed)

/-- What a release applies to L1s: the thread's writes, and what it has read (R151: releases are cumulative). -/
def Thread.relSig (t : Thread) : BitVec 1024 := t.mo.wsig ||| t.mo.rsig

/-- What a finished release clears (R148, R308), and the cluster's L1s it applied the signature to. -/
def State.finishRelease (s : State) (t : Tid) (th : Thread) (sc : BitVec 2) : State :=
  let s1 := if sc = 0 then s.applySig (fun c => clusterOf c == clusterOf th.core) th.relSig else s
  s1.modThread t fun u =>
    { u with
      mo := { u.mo with
        rel := none, peerWr := 0
        tbm := if sc = 0 then u.mo.tbm else 0
        tbmd := if 2 ≤ sc.toNat then 0 else u.mo.tbmd
        wsig := if 2 ≤ sc.toNat then 0 else u.mo.wsig
        rsig := if 2 ≤ sc.toNat then 0 else u.mo.rsig } }

/-- The probes of a release (R311). -/
def Thread.probesFor (t : Thread) (sc : BitVec 2) : List ProbeTo :=
  (if sc = 0 then [] else ((List.range 64).filter fun i => t.mo.tbm.getLsbD i).map fun i => .slice (dieOf t.core) i) ++
    (if 2 ≤ sc.toNat then ((List.range 4).filter fun i => t.mo.tbmd.getLsbD i).map .die else [])

/-- Send a release's probes, and its signature from die scope on. -/
def State.startRelease (s : State) (t : Tid) (th : Thread) (sc : BitVec 2) : State :=
  let ps := th.probesFor sc
  let s1 := s.setThread t { th with mo := { th.mo with rel := some ⟨sc, ps, false⟩ } }
  { s1 with
    pool := s1.pool ++ (ps.map fun p => .releaseProbeEcho t p) ++ (if sc = 0 then [] else [.signaturePlacement t sc]) }

/-- A release at a scope, then the rest of the word (R151): parks until the wait is over. In a deterministic launch and in
a region nothing is waited for (R164, R165). -/
def release (sc : BitVec 2) (s : State) (t : Tid) (th : Thread) (k : State → Thread → Res) : Res :=
  if th.det then k s th
  else
    match th.mo.rel with
    | none =>
      let s1 := s.startRelease t th sc
      match s1.threads.find t with
      | none => .refuse .notIssuing
      | some u =>
        if s1.releaseOver t u ⟨sc, u.probesFor sc, false⟩ then
          let s2 := s1.finishRelease t u sc
          match s2.threads.find t with
          | none => .refuse .notIssuing
          | some u2 => k s2 u2
        else .park s1 .release
    | some r =>
      if s.releaseOver t th r then
        let s2 := s.finishRelease t th sc
        match s2.threads.find t with
        | none => .refuse .notIssuing
        | some u2 => k s2 u2
      else .park s .release

/-- Every load and atomic of the thread has filled its register (R160). -/
def State.loadsDone (s : State) (t : Tid) : Bool :=
  !s.inAir.any fun i => match i with
    | .loadCompletion r => r.tid == t
    | .atomicAtHome a => a.tid == t
    | .syncAccessServe r => r.tid == t
    | _ => false
/-- Every long-latency producer of the thread has filled (R118). -/
def State.producersDone (s : State) (t : Tid) (th : Thread) : Bool :=
  th.c.fe == 0xFFFF && !(s.inAir.any fun i => loadOf t i)

/-- An acquire of a scope that no load carries (R151, R160): the lines of the issuing core's L1 go, so that later loads read past
them; from package scope on, those loads read a line at its home once the entries of it that the buffer now holds have drained.
What enters the buffer or the L1 afterwards is found by plain loads as R282 and R307 say (log entry 18). -/
def State.acquireAt (s : State) (t : Tid) (core : Nat) (sc : BitVec 2) : State :=
  (s.l1Drop core fun _ => true).modThread t fun u =>
    if 2 ≤ sc.toNat then { u with mo := { u.mo with acqFrom := some s.nextId } } else u

/-- The acquire half of a fence (R160): earlier loads and atomics have filled. -/
def acquireFence (sc : BitVec 2) (s : State) (t : Tid) (th : Thread) (k : State → Thread → Res) : Res :=
  if th.det then k s th
  else if !s.loadsDone t then .park s .loads
  else
    let s1 := s.acquireAt t th.core sc
    match s1.threads.find t with
    | none => .refuse .notIssuing
    | some u => k s1 u

/-- A step in flight is a load that the core's own scratchpad or L1 serves. -/
def State.servedHere (s : State) : Instr → Bool
  | .loadCompletion r => r.parts.all fun p => !leaves r.core p.ea || s.l1Serves r.tid r.core r.asid r.level p.ea p.n
  | _ => false
/-- Outstanding accesses that have left the core (R142): requests that neither the thread's own scratchpad nor its L1 serves, and
stores in the buffer. -/
def State.outstanding (s : State) (t : Tid) (th : Thread) : Nat :=
  (((((s.inAir.filter fun i => !s.servedHere i).filterMap inFlight).filter fun f => f.tid == t && f.out).map InFlight.id ++
    (s.cluster (clusterOf th.core)).csb.flatMap fun e =>
      (e.writers.filter fun w => w.1 == t).map fun w => w.2).eraseDups).length

end Sys2Proof.Machine
end

