-- ==== Sys2Proof/Machine/Access.lean ====
section
/-! DEFINITION. Scalar memory words (R143-R162): what they do at issue. The steps that perform the accesses are in
Perform.lean. -/

namespace Sys2Proof.Machine

open Host (Outcome)

/-! ## Before the access: homes of a mobile thread, region addresses, waits -/

/-- Depart for another core (R27): the PC is the migrating instruction. -/
def State.depart (s : State) (t : Tid) (th : Thread) (dest : Nat) : State :=
  (s.setThread t { th with run := .departing dest, bslot := none, bound := none }).push (.migrationDeparture t dest)

/-- Ask the home die for a translation (R392). -/
def State.probeFor (s : State) (t : Tid) (th : Thread) (ea : W64) (write : Bool) : State :=
  (s.setThread t { th with mo := { th.mo with probe := some (ea, write) } }).push (.translationProbe t)

/-- A thread migrates for this access: mobile, no handler, no region (R27, R328). -/
def Thread.migrates (t : Thread) : Bool := t.mob && !t.ih && !t.rg

/-- What a mobile thread checks at the home core before it acts there, precisely (R140, R141): an uncorrectable error in the words
of the core's scratchpad that it is about to read. -/
def homeChecks (s : State) (th : Thread) (ea : W64) (n : Nat) (isLoad : Bool) (k : Res) : Res :=
  if !(th.migrates && isLoad) then k
  else match resolve th.core ea with
    | some (.sp c off) => match s.eccBad (spKey c off) n with
      | some _ => .trap (s.eccRead c (spKey c off) n).2 .memError 0 ea
      | none => k
    | _ => k

/-- A mobile thread goes to the home first (R27, R140, R392), a write whose held translation bars it by a probe, which makes the
write check of R395 (R399); then the rest. -/
def atHome (s : State) (t : Tid) (th : Thread) (ea : W64) (write : Bool) (k : Res) : Res :=
  if th.migrates then
    match resolve th.core ea with
    | none => .trap s .addressSpace 0 ea
    | some (.sp c _) => if c = th.core then k else .done (s.depart t th c)
    | some (.glob space va) =>
      match s.heldXlat th.core th.c.asid space va with
      | none => .park (s.probeFor t th ea write) .translation
      | some x =>
        let die := homeDie space va
        let c := coreBeside die (sliceOf (x.key die va % 0x4000000000))
        if write && !x.entry.getLsbD 2 then .park (s.probeFor t th ea true) .translation
        else if c = th.core then k else .done (s.depart t th c)
  else k

/-- A region reaches only its own scratchpad and global memory (R328); an address of another form that names the own core is
LOCAL (R139). -/
def regionReach (th : Thread) (ea : W64) : Bool :=
  match resolve th.core ea with
  | some (.sp c _) => !th.rg || decide (c = th.core)
  | _ => true

/-- `CHECK` (R140), with the region rule of R328; then the rest. -/
def checked (s : State) (th : Thread) (ea : W64) (n : Nat) (isLoad : Bool) (k : Res) : Res :=
  if !regionReach th ea then .trap s .privilege 0 0xA
  else match s.check th ea n isLoad with
    | some c => .trap s c 0 ea
    | none => k

/-- Start the wakes of the banks that an access meets (R192). -/
def State.wakeFor (s : State) (core : Nat) (ea : W64) (n : Nat) : State :=
  match resolve core ea with
  | some (.sp c off) => (s.touchBank c (bankOf off)).touchBank c (bankOf (off + n - 1))
  | _ => s
/-- A bank of the access that is not awake, with its core. -/
def State.asleepFor (s : State) (core : Nat) (ea : W64) (n : Nat) : Option Nat :=
  match resolve core ea with
  | some (.sp c off) => s.sleeping c off n
  | _ => none

/-- The buffer of the core's cluster holds nothing for the lines of an access (R151, R283). -/
def State.noEntry (s : State) (core : Nat) (asid : W16) (rs : List (W64 × Nat)) : Bool :=
  rs.all fun r => match resolve core r.1 with
    | some (.glob _ _) => (s.csbAll (clusterOf core) asid (r.1.toNat / 64)).isEmpty
    | _ => true

/-- Two byte ranges of one thread meet; every form that names one byte counts. -/
def rangesMeet (core : Nat) (a b : W64 × Nat) : Bool :=
  match resolve core a.1, resolve core b.1 with
  | some p, some q => decide (p.key < q.key + b.2) && decide (q.key < p.key + a.2)
  | _, _ => false

/-- An older load, atomic or reduction of the thread has not yet been performed on bytes that a store writes (R45). -/
def State.olderAccess (s : State) (t : Tid) (core : Nat) (ea : W64) (n : Nat) : Option Nat :=
  ((s.flying.find? fun f => f.tid == t && f.reads.any fun r => rangesMeet core r (ea, n))).map
    InFlight.id

/-! ## Loads (R144, R149) -/

/-- The bytes of a size code. -/
def szBytes (sz : BitVec 3) : Nat := 2 ^ sz.toNat
def dstsOf (d : BitVec 4) (sz : BitVec 3) : List (BitVec 4) := if sz = 4 then [d, d + 1] else [d]
def loadDst (d : BitVec 4) (sz : BitVec 3) : LoadDst := if sz = 4 then .pair d else .scalar d

/-- Send a load on its way: its destinations are empty until it completes (R144). -/
def State.sendLoad (s : State) (t : Tid) (th : Thread) (dst : LoadDst) (parts : List Part) (level : ReadLevel)
    (rh : BitVec 2) (ds : List (BitVec 4)) : State :=
  let (id, s1) := s.takeId
  let s2 := parts.foldl (fun a p => a.wakeFor th.core p.ea p.n) s1
  (s2.setThread t (ds.foldl Thread.empty th.retire)).push
    (.loadCompletion ⟨id, t, th.core, th.c.asid, dst, parts, level, rh⟩)

/-- A load issued now leaves its core (R142). -/
def State.departs (s : State) (t : Tid) (th : Thread) (level : ReadLevel) (a : W64) (n : Nat) : Bool :=
  leaves th.core a && !s.l1Serves t th.core th.c.asid level a n

/-- `ld` and the load of `ldacq`. -/
def loadBody (d : BitVec 4) (sz : BitVec 3) (ea : Thread → W64) (level : ReadLevel) (rh : Thread → BitVec 2) : Body :=
  fun s t th =>
    let a := ea th
    atHome s t th a false <| checked s th a (szBytes sz) true <| homeChecks s th a (szBytes sz) true <|
      if s.departs t th level a (szBytes sz) && decide (32 ≤ s.outstanding t th) then .park s .slots32
      else .done (s.sendLoad t th (loadDst d sz) [⟨a, szBytes sz, 0, 8 * szBytes sz, 0⟩] level (rh th) (dstsOf d sz))

def qLoad (d : BitVec 4) (sb : BitVec 5) (sz : BitVec 3) : Issue := { srcs := [sb], dsts := dstsOf d sz }

/-- `ld` (R144). -/
def execLd (o : Mem) (s : State) : Outcome State Fault Refusal :=
  issue (qLoad o.sd o.sb o.sz) s
    (loadBody o.sd o.sz (fun th => th.eaMEM o.sb o.sz o.off) .plain (fun th => th.retention o.rh))

/-- `ldacq` (R149): a load that reads as an acquire; the thread parks until it has filled. Inside a region it is a plain
access (R164); in a deterministic launch it takes its turn (R165). -/
def execLdacq (o : Mem) (s : State) : Outcome State Fault Refusal :=
  issue (qLoad o.sd o.sb o.sz) s fun s t th =>
    let run := loadBody o.sd o.sz (fun th => th.eaMEM o.sb o.sz o.off) (if th.rg || th.det then .plain else .acquire o.rh)
      (fun th => th.retention 0)
    if th.rg || th.det then run s t th
    else if th.gm then
      if th.mo.acquired then .done (s.setThread t { th.retire with mo := { th.mo with acquired := false } })
      else match run s t th with
        | .done s1 => .park (s1.modThread t fun u =>
            { u with c := { u.c with pc := th.c.pc, hint := th.c.hint }, mo := { u.mo with acquired := true } }) (.reg o.sd)
        | r => r
    else match run s t th with
      | .done s1 => if (s1.threads.find t).any fun u => u.c.pc != th.c.pc then .park s1 (.reg o.sd) else .done s1
      | r => r

/-! ## Stores (R145, R150) -/

/-- The data of a store word. -/
def Thread.storeData (t : Thread) (d : BitVec 4) (sz : BitVec 3) : BitVec 128 :=
  if sz = 4 then t.x (d + 1) ++ t.x d else (t.x d).zeroExtend 128

/-- A part of global memory. -/
def globPart (core : Nat) (p : SPart) : Bool := match resolve core p.ea with | some (.glob _ _) => true | _ => false
/-- Lines of global memory that the parts write and the buffer does not hold yet. -/
def State.newLines (s : State) (core : Nat) (asid : W16) (parts : List SPart) : Nat :=
  ((parts.filter (globPart core)).map fun p => p.ea.toNat / 64).eraseDups.countP fun va => (s.csbFind (clusterOf core) asid va).isNone

/-- Park at a store, starting the wakes of the banks it meets (R192). -/
def parkStore (s : State) (th : Thread) (parts : List SPart) (w : Wait) : Res :=
  match w with
  | .bank b => .park (parts.foldl (fun a p => if leaves th.core p.ea then a else a.wakeFor th.core p.ea p.n) s) (.bank b)
  | w => .park s w

/-- What a store outside regions and chunks waits for at issue: an older access of the bytes, a bank, room in the buffer,
the dirty log, the limit of R142. -/
def State.storeWait (s : State) (t : Tid) (th : Thread) (parts : List SPart) : Option Wait :=
  let war := parts.findSome? fun p => s.olderAccess t th.core p.ea p.n
  match war with
  | some id => some (.war id)
  | none =>
    match parts.findSome? fun p => if leaves th.core p.ea then none else s.asleepFor th.core p.ea p.n with
    | some b => some (.bank b)
    | none =>
      if (parts.any fun p => leaves th.core p.ea) && decide (32 ≤ s.outstanding t th) then some .slots32
      else if (s.cluster (clusterOf th.core)).csb.length + s.newLines th.core th.c.asid parts > 1024 then some .storeRoom
      else if parts.any fun p => match resolve th.core p.ea with
          | some (.glob space va) => (s.noteDirty th.core th.c.asid space va).isNone
          | _ => false
        then some .dirtyRoom
      else none

/-- A global store at issue: the touched-bank mask and signature (R148, R308), and the dirty log when its page shows clean
(R400). -/
def State.storeGlobal (s : State) (t : Tid) (th : Thread) (space va : Nat) : State :=
  let s1 := match s.keyOf th.c.asid space va with
    | none => s
    | some k => s.modThread t fun u => u.touch (homeDie space va) k
  (s1.noteDirty th.core th.c.asid space va).getD s1

/-- A global store reaches its cluster's buffer (R281) and updates the core's own L1 copy (R307). -/
def State.enterBuffer (s : State) (r : StoreReq) (p : SPart) (space va : Nat) : State :=
  let s1 := s.csbStore r.tid r.core r.asid r.id p r.rh
  match s1.keyOf r.asid space va with
  | none => s1
  | some k => match s1.l1Find r.core r.asid (lineOf k) with
    | none => s1
    | some l =>
      let o := va % 64
      let m : W64 := BitVec.ofNat 64 ((2 ^ p.n - 1) <<< o)
      s1.l1Fill r.core r.asid (lineOf k) (p.ea.toNat / 64)
        (overLine l.data m (BitVec.ofNat 512 ((p.data.toNat % 2 ^ (8 * p.n)) <<< (8 * o)))) (if r.rh = 3 then l.code else r.rh)

/-- One part of a store outside regions and chunks, at issue: one of the own scratchpad is performed. -/
def State.storePart (s : State) (t : Tid) (th : Thread) (p : SPart) : State :=
  match resolve th.core p.ea with
  | none => s
  | some (.sp c off) =>
    if c = th.core then s.wr (spKey c off) p.n p.data.toNat else s.wakeFor th.core p.ea p.n
  | some (.glob space va) => s.storeGlobal t th space va

/-- The parts of a store of which another core holds the scratchpad. -/
def peerParts (th : Thread) (parts : List SPart) : List SPart :=
  parts.filter fun p => match resolve th.core p.ea with
    | some (.sp c _) => c != th.core
    | _ => false

/-- A store outside regions and chunks leaves for its places: one access, whatever its parts (R142, R250). Global parts are on
their way to the cluster's buffer (R145, R299), those of another core's scratchpad to their owner. -/
def State.sendStore (s : State) (t : Tid) (th : Thread) (parts : List SPart) (rh : BitVec 2) : State :=
  let (acc, s1) := s.takeId
  let s2 := parts.foldl (fun a p => a.storePart t th p) s1
  let s3 := match parts.filter (globPart th.core) with
    | [] => s2
    | ps => s2.push (.storePerformAtHome ⟨acc, t, th.core, th.c.asid, ps, rh⟩)
  match peerParts th parts with
  | [] => s3
  | ps => (s3.modThread t fun u => { u with mo := { u.mo with peerWr := u.mo.peerWr + 1 } }).push
      (.storePerformAtHome ⟨acc, t, th.core, th.c.asid, ps, rh⟩)

/-- Hold writes in the open region or chunk of a thread of a core (R319, R329). -/
def heldAfter (core : Nat) (h : List HeldLine) (parts : List SPart) : List HeldLine :=
  parts.foldl (fun a p => holdPart core a (nextAcc h) p) h

/-- The parts of a store that a lane's sixteen lines take, in order, and how many they are (R319 case 4): the chunk ends before the
write to a 17th line, and its next one writes the rest. -/
def heldPrefix (core acc : Nat) (h : List HeldLine) : List SPart → Nat → List HeldLine × Nat
  | [], k => (h, k)
  | p :: ps, k =>
    let g := holdPart core h acc p
    if 16 < g.length then (h, k) else heldPrefix core acc g ps (k + 1)

/-- A page that the parts write without a translation: the thread waits for it (R399). -/
def State.untranslated (s : State) (th : Thread) (parts : List SPart) : Option W64 :=
  (parts.find? fun p => match resolve th.core p.ea with
    | some (.glob space va) => (match s.xlate th.c.asid space va true with | .ok _ => false | .error _ => true)
    | _ => false).map SPart.ea

/-- Replace the held lines of the open region, or of the chunk. -/
def Thread.setHeld (t : Thread) (h : List HeldLine) : Thread :=
  match t.region with
  | some r => { t with region := some { r with held := h } }
  | none => { t with chunk := { t.chunk with held := h } }

/-- A store's parts, checked before: held in a region or chunk, else on their way (R145, R165, R329). `after` is the
thread once the word is over. -/
def State.storeAll (s : State) (t : Tid) (th : Thread) (parts : List SPart) (rh : BitVec 2) (after : Thread → Thread) :
    Res :=
  if th.region.isSome || (th.det && th.chunk.open_) then
    match s.untranslated th parts with
    | some ea => .park (s.probeFor t th ea true) .translation
    | none =>
      let h := heldAfter th.core th.held (parts.drop th.part)
      match parts.findSome? fun p => s.olderAccess t th.core p.ea p.n with
      | some id => .park s (.war id)
      | none =>
        match th.region with
        | some r =>
          if s.canHold t th r (h.length - r.held.length) then .done (s.setThread t (after (th.setHeld h)))
          else .done (s.endRegion t 3)
        | none =>
          if 16 < h.length then
            let (g, k) := heldPrefix th.core (nextAcc th.held) th.held (parts.drop th.part) 0
            .done ((s.setThread t { th.setHeld g with part := th.part + k }).endChunk t .lines)
          else .done (s.setThread t { after (th.setHeld h) with part := 0 })
  else
    match s.storeWait t th parts with
    | some w => parkStore s th parts w
    | none => .done ((s.sendStore t th parts rh).modThread t after)

def qStore (d : BitVec 4) (sb : BitVec 5) (sz : BitVec 3) : Issue :=
  { srcs := (dstsOf d sz).map plainField ++ [sb] }

def storeBody (o : Mem) (rh : BitVec 2) : Body := fun s t th =>
  let a := th.eaMEM o.sb o.sz o.off
  atHome s t th a true <| checked s th a (szBytes o.sz) false <|
    s.storeAll t th [⟨a, szBytes o.sz, th.storeData o.sd o.sz, 0⟩] (th.retention rh) Thread.retire

/-- `st` (R145). -/
def execSt (o : Mem) (s : State) : Outcome State Fault Refusal := issue (qStore o.sd o.sb o.sz) s (storeBody o o.rh)

/-- `strel` (R150): a release at its scope, then the store; plain inside a region (R164). -/
def execStrel (o : Mem) (s : State) : Outcome State Fault Refusal :=
  issue (qStore o.sd o.sb o.sz) s fun s t th =>
    let a := th.eaMEM o.sb o.sz o.off
    atHome s t th a true <| checked s th a (szBytes o.sz) false <|
      let parts := [(⟨a, szBytes o.sz, th.storeData o.sd o.sz, 0⟩ : SPart)]
      if th.rg then storeBody o 0 s t th
      else match (if th.mo.rel.isNone && !th.det then s.storeWait t th parts else none) with
        | some w => parkStore s th parts w
        | none => release o.rh s t th fun s th => storeBody o 0 s t th

/-! ## Sync accesses (R152-R154, R165) -/

/-- A word whose request is served by another step: sent once, then waited for; `acquired` says it was served, `syncErr` that
it has ended in an error at the address `ea`. -/
def viaRequest (s : State) (t : Tid) (th : Thread) (ea : W64) (start : Unit → Res) : Res :=
  if th.mo.waitId = 0 then start ()
  else if let some c := th.mo.syncErr then
    .trap (s.setThread t { th with mo := { th.mo with syncErr := none, waitId := 0 } }) c 0 ea
  else if th.mo.acquired then
    .done (s.setThread t { th.retire with mo := { th.mo with acquired := false, waitId := 0 } })
  else .park s (.request th.mo.waitId)

/-- The chunk's view of a scratchpad word's full/empty bit (R165). -/
def viewFull (s : State) (h : List HeldLine) (va : Nat) (core off : Nat) : Bool :=
  match heldAt h (va / 64) with
  | some l =>
    let i := va % 64 / 4
    if l.fe.getLsbD i then l.fe.getLsbD (16 + i) else s.feFull core off
  | none => s.feFull core off
/-- Hold a full/empty change of the words of an access. -/
def holdFe (h : List HeldLine) (va n : Nat) (full : Bool) : List HeldLine :=
  let i := va % 64 / 4
  let m : W32 := BitVec.ofNat 32 ((2 ^ (n / 4) - 1) <<< i)
  let set := fun (l : HeldLine) =>
    { l with fe := (l.fe &&& ~~~(m <<< 16)) ||| m ||| (if full then m <<< 16 else 0) }
  match heldAt h (va / 64) with
  | none => h ++ [set { va := va / 64, mask := 0, data := 0 }]
  | some _ => h.map fun l => if l.va = va / 64 then set l else l

/-- A sync access inside a deterministic chunk (R165); the owner's checks are precise (R152). -/
def syncChunk (o : MemSy) (store : Bool) (a : W64) (n c off : Nat) (s : State) (t : Tid) (th : Thread) : Res :=
  match s.ownerCheck th.core c th.c.asid off n false, s.asleepFor th.core a n with
  | some k, _ => .trap s k 0 a
  | none, some b => .park (s.wakeFor th.core a n) (.bank b)
  | none, none =>
    let va := (canonEa th.core a).toNat
    let want := !store
    let ok := viewFull s th.chunk.held va c off == want && (n == 4 || viewFull s th.chunk.held (va + 4) c (off + 4) == want)
    if !ok then .park s (.request 0)
    else
      let v := overlayHeld th.chunk.held va n (s.rd (spKey c off) n)
      let h := holdFe (if store then heldAfter th.core th.chunk.held [⟨a, n, th.storeData o.sd o.sz, 0⟩] else th.chunk.held) va n store
      if 16 < h.length then .done (s.endChunk t .lines)
      else
        let u := ((th.noteRead (spKey c off / 64)).setHeld h).retire
        .done (s.setThread t (if store then u else u.setX o.sd (BitVec.ofNat 64 v)))

/-- `ldsy` and `stsy` at issue. -/
def syncBody (o : MemSy) (store : Bool) : Body := fun s t th =>
  let a := th.eaMEM o.sb o.sz o.off
  let n := szBytes o.sz
  if th.rg then .trap s .privilege 0 0x6
  else viaRequest s t th a fun _ =>
    match resolve th.core a with
    | some (.glob _ _) => .trap s .addressSpace 0 a
    | some (.sp c off) =>
      atHome s t th a store <| checked s th a n false <| homeChecks s th a n (!store) <|
      if th.det && th.chunk.open_ then syncChunk o store a n c off s t th
      else if leaves th.core a && decide (32 ≤ s.outstanding t th) then .park s .slots32
      else
        let go : State → Thread → Res := fun s th =>
          let (id0, s1) := s.takeId
          let id := id0 + 1
          let s2 := (s1.wakeFor th.core a n).setThread t
            { (if store then th else th.empty o.sd) with mo := { th.mo with waitId := id, acquired := false } }
          let lim := (s.cluster (clusterOf c)).synclim.toNat
          let q : SyncReq := ⟨id, t, th.c.asid, c, a, off, n, store, o.sd,
            if n = 4 then ((th.x o.sd).extractLsb' 0 32).zeroExtend 64 else th.x o.sd, s.cycle, lim⟩
          let s3 := s2.push (.syncAccessServe q)
          .park (if lim = 0 then s3 else s3.push (.syncRetryLimit q)) (.request id)
        if store then release 0 s t th fun s th => go s th else go s th
    | none => .trap s .addressSpace 0 a

/-- `ldsy` (R152). -/
def execLdsy (o : MemSy) (s : State) : Outcome State Fault Refusal :=
  issue { srcs := [o.sb], dsts := [o.sd] } s (syncBody o false)
/-- `stsy` (R152). -/
def execStsy (o : MemSy) (s : State) : Outcome State Fault Refusal :=
  issue { srcs := [plainField o.sd, o.sb] } s (syncBody o true)

/-! ## Prefetch (R155) -/

/-- `pf` (R155): a line that could be loaded is brought to the L1, but under bypass. It never parks and never traps: with an
empty base register it is dropped (the model's choice). It acts alike inside a region (R164) and a deterministic launch. -/
def execPf (o : MemPf) (s : State) : Outcome State Fault Refusal :=
  issue {} s fun s t th =>
    let a := th.eaMEM o.sb o.sz o.off
    let skip := (s.check th a (szBytes o.sz) true).isSome || !th.full (fieldReg o.sb)
    let s1 := match resolve th.core a with
      | some (.glob space va) =>
        if skip then s
        else match s.readGlobal t th.core th.c.asid space (va / 64 * 64) 64 .plain (th.retention o.rh) false with
          | .val _ s1 => s1
          | _ => s
      | _ => s
    .done (s1.modThread t Thread.retire)

/-! ## Atomics and reductions (R156-R159) -/

/-- f(old, b, c) at a width of `n` bytes (R157). -/
def amoApply (fn : AmoFn) (n : Nat) (old b c : Nat) : Nat :=
  let w := 8 * n
  let sg := intVal w true
  match fn with
  | .add => (old + b) % 2 ^ w
  | .and => old &&& b
  | .or => old ||| b
  | .xor => old ^^^ b
  | .min => if sg old ≤ sg b then old else b
  | .max => if sg old ≥ sg b then old else b
  | .minu => min old b
  | .maxu => max old b
  | .swap => b
  | .cas => if old = c then b else old
  | .fadd =>
    let f := if n = 8 then fp64 else fp32
    (f.add .rne (f.unpack old) (f.unpack b)).v

/-- An atomic or reduction inside a region or chunk: a load and a held store (R164, R319, R330). -/
def amoHeld (fn : AmoFn) (n : Nat) (a : W64) (b c : W64) (d : Option (BitVec 4)) (s : State) (t : Tid) (th : Thread) : Res :=
  match s.untranslated th [⟨a, n, 0, 0⟩] with
  | some ea => .park (s.probeFor t th ea true) .translation
  | none =>
    if !s.noEntry th.core th.c.asid [(a, n)] then .park s (.entry (a.toNat / 64))
    else if let some b := s.asleepFor th.core a n then .park (s.wakeFor th.core a n) (.bank b)
    else match s.readPlace t th.core th.c.asid a n .plain 0 with
    | .err cause ea s1 => .trap s1 cause 0 ea
    | .hold _ => .park (s.probeFor t th a true) .translation
    | .val old s1 =>
      match s1.threads.find t with
      | none => .refuse .notIssuing
      | some th1 =>
        let new := amoApply fn n old (b.toNat % 2 ^ (8 * n)) (c.toNat % 2 ^ (8 * n))
        s1.storeAll t th1 [⟨a, n, BitVec.ofNat 128 new, 0⟩] 0 fun u =>
          match d with
          | some d => u.retire.setX d (BitVec.ofNat 64 old)
          | none => u.retire

/-- Send an atomic or reduction to its home: the touched-bank bit and signature are set at issue where the home is known
(R148, R308). -/
def State.sendAtomic (s : State) (t : Tid) (th : Thread) (fn : AmoFn) (a : W64) (n : Nat) (b c : W64) (d : BitVec 4)
    (red sys : Bool) : State :=
  let (id, s1) := s.takeId
  let s2 := s1.wakeFor th.core a n
  let m := BitVec.ofNat 64 (2 ^ (8 * n) - 1)
  let q : AtomReq := ⟨id, t, th.core, th.c.asid, fn, a, n, b &&& m, c &&& m, d, sys⟩
  let u := (if red then th.retire else th.retire.empty d)
  let u2 := match resolve th.core a with
    | some (.glob space va) =>
      match s2.keyOf th.c.asid space va with
      | some k => u.touch (homeDie space va) k
      | none => u
    | _ => u
  (s2.setThread t u2).push (if red then .remoteUpdate q else .atomicAtHome q)

def amoBody (fn : AmoFn) (o : Amo) : Body := fun s t th =>
  let a := th.src o.sa
  let n := 2 ^ o.sz.toNat
  let b := th.src o.sb
  let c := th.x o.sd
  let acq := o.ord == 1 || o.ord == 3
  let rel := o.ord == 2 || o.ord == 3
  if th.gm && th.mo.acquired then .done (s.setThread t { th.retire with mo := { th.mo with acquired := false } })
  else atHome s t th a true <| checked s th a n false <| homeChecks s th a n true <|
    if th.region.isSome || (th.det && th.chunk.open_) then amoHeld fn n a b c (some o.sd) s t th
    else if leaves th.core a && decide (32 ≤ s.outstanding t th) then .park s .slots32
    else if s.dirtyFull th.core th.c.asid a n then .park s .dirtyRoom
    else
      let go : State → Thread → Res := fun s th =>
        let s1 := s.sendAtomic t th fn a n b c o.sd false (acq && o.sc == 3)
        if acq && !th.det then
          if th.gm then .park (s1.modThread t fun u =>
              { u with c := { u.c with pc := th.c.pc, hint := th.c.hint }, mo := { u.mo with acquired := true } }) (.reg o.sd)
          else .park s1 (.reg o.sd)
        else .done s1
      if rel then release o.sc s t th go else go s th

def qAmo (o : Amo) : Issue := { srcs := [o.sa, o.sb, plainField o.sd], dsts := [o.sd] }
def redBody (fn : AmoFn) (o : Red) : Body := fun s t th =>
  let a := th.src o.sa
  let n := 2 ^ o.sz.toNat
  checked s th a n false <|
    if th.region.isSome || (th.det && th.chunk.open_) then amoHeld fn n a (th.src o.sb) 0 none s t th
    else if leaves th.core a && decide (32 ≤ s.outstanding t th) then .park s .slots32
    else if s.dirtyFull th.core th.c.asid a n then .park s .dirtyRoom
    else .done (s.sendAtomic t th fn a n (th.src o.sb) 0 0 true false)
def qRed (o : Red) : Issue := { srcs := [o.sa, o.sb] }

/-- `amo.add` (R157). -/
def execAmoAdd (o : Amo) (s : State) : Outcome State Fault Refusal := issue (qAmo o) s (amoBody .add o)
/-- `amo.and` (R157). -/
def execAmoAnd (o : Amo) (s : State) : Outcome State Fault Refusal := issue (qAmo o) s (amoBody .and o)
/-- `amo.or` (R157). -/
def execAmoOr (o : Amo) (s : State) : Outcome State Fault Refusal := issue (qAmo o) s (amoBody .or o)
/-- `amo.xor` (R157). -/
def execAmoXor (o : Amo) (s : State) : Outcome State Fault Refusal := issue (qAmo o) s (amoBody .xor o)
/-- `amo.min` (R157). -/
def execAmoMin (o : Amo) (s : State) : Outcome State Fault Refusal := issue (qAmo o) s (amoBody .min o)
/-- `amo.max` (R157). -/
def execAmoMax (o : Amo) (s : State) : Outcome State Fault Refusal := issue (qAmo o) s (amoBody .max o)
/-- `amo.minu` (R157). -/
def execAmoMinu (o : Amo) (s : State) : Outcome State Fault Refusal := issue (qAmo o) s (amoBody .minu o)
/-- `amo.maxu` (R157). -/
def execAmoMaxu (o : Amo) (s : State) : Outcome State Fault Refusal := issue (qAmo o) s (amoBody .maxu o)
/-- `amo.swap` (R157). -/
def execAmoSwap (o : Amo) (s : State) : Outcome State Fault Refusal := issue (qAmo o) s (amoBody .swap o)
/-- `amo.cas` (R157). -/
def execAmoCas (o : Amo) (s : State) : Outcome State Fault Refusal := issue (qAmo o) s (amoBody .cas o)
/-- `amo.fadd` (R157). -/
def execAmoFadd (o : Amo) (s : State) : Outcome State Fault Refusal := issue (qAmo o) s (amoBody .fadd o)
/-- `red.add` (R159). -/
def execRedAdd (o : Red) (s : State) : Outcome State Fault Refusal := issue (qRed o) s (redBody .add o)
/-- `red.fadd` (R159). -/
def execRedFadd (o : Red) (s : State) : Outcome State Fault Refusal := issue (qRed o) s (redBody .fadd o)
/-- `red.min` (R159). -/
def execRedMin (o : Red) (s : State) : Outcome State Fault Refusal := issue (qRed o) s (redBody .min o)
/-- `red.max` (R159). -/
def execRedMax (o : Red) (s : State) : Outcome State Fault Refusal := issue (qRed o) s (redBody .max o)
/-- `red.or` (R159). -/
def execRedOr (o : Red) (s : State) : Outcome State Fault Refusal := issue (qRed o) s (redBody .or o)
/-- `red.and` (R159). -/
def execRedAnd (o : Red) (s : State) : Outcome State Fault Refusal := issue (qRed o) s (redBody .and o)

/-! ## Fences and `go` (R160-R162) -/

/-- Ring operations of the thread that a full fence at package scope or wider waits for (R161): those queued at its
station, and adds, maxima and alightings not yet past the seam; at whichever core it issued them (R425). -/
def State.ringOpen (s : State) (t : Tid) : Bool :=
  s.cores.any fun c => (c.2.r.queue.any fun o => o.tid == t && (match o.fn with
    | .peek _ _ | .alight _ _ | .radd _ _ | .rmax _ _ _ => true
    | _ => false)) || c.2.r.seamWait.any fun e => e.2 == t

/-- `fence.acq` (R160). -/
def execFenceAcq (sc : BitVec 2) (s : State) : Outcome State Fault Refusal :=
  issue {} s fun s t th =>
    if th.rg then .trap s .privilege 0 0x6
    else acquireFence sc s t th fun s th => .done (s.setThread t th.retire)
/-- `fence.rel` (R160). -/
def execFenceRel (sc : BitVec 2) (s : State) : Outcome State Fault Refusal :=
  issue {} s fun s t th =>
    if th.rg then .trap s .privilege 0 0x6
    else release sc s t th fun s th => .done (s.setThread t th.retire)
/-- `fence.full` (R160, R161): release first, then acquire; from package scope on it also waits for the ring. -/
def execFenceFull (sc : BitVec 2) (s : State) : Outcome State Fault Refusal :=
  issue {} s fun s t th =>
    if th.rg then .trap s .privilege 0 0x6
    else if !th.det && !s.loadsDone t then .park s .loads
    else if !th.det && decide (2 ≤ sc.toNat) && s.ringOpen t then .park s .ringDone
    else release sc s t th fun s th => acquireFence sc s t th fun s th => .done (s.setThread t th.retire)

/-- `go` (R162): to the home of an address, which is not accessed; no effect for an anchored thread, in a handler, or at
home. -/
def execGo (sa : BitVec 5) (s : State) : Outcome State Fault Refusal :=
  issue { srcs := [sa] } s fun s t th =>
    let a := th.src sa
    if th.rg then .trap s .privilege 0 0x6
    else match resolve th.core a with
      | none => .trap s .addressSpace 0 a
      | some p =>
        if !th.mob || th.ih then .done (s.setThread t th.retire)
        else match p with
          | .sp c _ => if c = th.core then .done (s.setThread t th.retire) else .done (s.depart t th.retire c)
          | .glob space va =>
            match s.heldXlat th.core th.c.asid space va with
            | none => .park (s.probeFor t th a false) .translation
            | some x =>
              let die := homeDie space va
              let c := coreBeside die (sliceOf (x.key die va % 0x4000000000))
              if c = th.core then .done (s.setThread t th.retire) else .done (s.depart t th.retire c)

end Sys2Proof.Machine
end

