-- ==== Sys2Proof/Machine/Perform.lean ====
section
/-! DEFINITION. The steps that perform memory accesses where the bytes live, and those of migration, translation, logs and
bank wakes. Each is a step in flight (`pool`), whole and indivisible (spec/95), offered when its condition holds. -/

namespace Sys2Proof.Machine

open Host (Outcome)

/-- A step in flight is performed: it must be offered (in flight, its condition holding), and leaves the pool. -/
def perform (name : String) (i : Instr) (ok : Bool) (s : State) (k : State → State) : Outcome State Fault Refusal :=
  if s.pool.contains i && ok then .next (k { s with pool := s.pool.erase i }) else .refused (.notOffered name)

/-- No older access of the thread in flight meets these bytes (R45). -/
def State.noOlder (s : State) (t : Tid) (id core : Nat) (rs : List (W64 × Nat)) : Bool :=
  !(s.flying.any fun f => f.tid == t && decide (f.id < id) &&
      (f.reads ++ f.writes).any fun a => rs.any fun b => rangesMeet core a b)

/-- Every bank that an access meets is awake (R192). -/
def State.awakeFor (s : State) (core : Nat) (rs : List (W64 × Nat)) : Bool :=
  rs.all fun r => (s.asleepFor core r.1 r.2).isNone

/-- The port of a core outside the issuing core's cluster, as a destination (R305). -/
def corePort (c : Nat) : Nat × Nat := (4 + c, 0)
/-- The destination ports of an access (R305): die and slice of each global byte range (R304), and the core of another cluster whose
scratchpad it reaches. -/
def State.portsOf (s : State) (core : Nat) (asid : W16) (rs : List (W64 × Nat)) : List (Nat × Nat) :=
  rs.filterMap fun r => match resolve core r.1 with
    | some (.glob space va) => (s.keyOf asid space va).map fun k => (homeDie space va, sliceOf (k % 0x4000000000))
    | some (.sp c _) => if clusterOf c = clusterOf core then none else some (corePort c)
    | none => none

/-! ## Loads -/

/-- The buffer has no entry that was there at the thread's latest acquire of package scope, of the lines of a load issued after
it (R151, R160). -/
def State.acquiredPast (s : State) (r : LoadReq) : Bool :=
  match (s.threads.find r.tid).bind fun th => th.mo.acqFrom with
  | none => true
  | some n => decide (r.id < n) || r.parts.all fun p => match resolve r.core p.ea with
      | some (.glob _ _) => (s.csbAll (clusterOf r.core) r.asid (p.ea.toNat / 64)).all fun e => decide (n ≤ e.id)
      | _ => true
/-- A load leaves its core: no older access of the thread meets it, its banks are awake, and an acquire at package scope or a
region's load finds no entry of the line in the buffer. -/
def loadSent (s : State) (r : LoadReq) : Bool :=
  let rs := r.parts.map fun p => (p.ea, p.n)
  s.noOlder r.tid r.id r.core rs && s.awakeFor r.core rs && s.acquiredPast r &&
    (match r.level with
     | .acquire sc => sc.toNat < 2 || s.noEntry r.core r.asid rs
     | .plain => !s.specialRead r.tid || s.noEntry r.core r.asid rs)
/-- The parts of a load that its L1 does not serve (R305: only they use the network). -/
def State.missed (s : State) (r : LoadReq) : List (W64 × Nat) :=
  (r.parts.filter fun p => !s.l1Serves r.tid r.core r.asid r.level p.ea p.n).map fun p => (p.ea, p.n)

/-- An atomic or reduction leaves its core: no older access of its thread meets it, the line has no entry in the issuing
cluster's buffer (R283), and the bank is awake. -/
def atomSent (s : State) (a : AtomReq) : Bool :=
  s.noOlder a.tid a.id a.core [(a.ea, a.n)] && s.awakeFor a.core [(a.ea, a.n)] && s.noEntry a.core a.asid [(a.ea, a.n)]

/-- A store leaves for its places: no older access of its thread meets it, and its banks are awake (R45, R192). -/
def storeSent (s : State) (r : StoreReq) : Bool :=
  let rs := r.parts.map fun p => (p.ea, p.n)
  s.noOlder r.tid r.id r.core rs && s.awakeFor r.core rs
/-- The destination ports of a store's parts: global parts go to the cluster's buffer first. -/
def State.storePorts (s : State) (r : StoreReq) : List (Nat × Nat) :=
  s.portsOf r.core r.asid ((r.parts.filter fun p => !globPart r.core p).map fun p => (p.ea, p.n))
/-- A migration message finds a place at its core (R28). -/
def State.seatFree (s : State) (core : Nat) : Bool :=
  !((s.threads.filter fun e => e.2.core == core && (match e.2.run with | .travelling _ => false | _ => true)).length == 64 &&
    (s.core core).k.arrivals.length == 16)
/-- Messages from one port to another arrive in the order in which they were sent (R305): none older than `id` of the core is on its
way to a port of the list. -/
def State.inOrder (s : State) (core id : Nat) (ports : List (Nat × Nat)) : Bool :=
  ports.isEmpty || !(s.pool.any fun i => match i with
    | .loadCompletion r => r.core == core && decide (r.id < id) && loadSent s r &&
        (s.portsOf core r.asid (s.missed r)).any ports.contains
    | .storePerformAtHome r => r.core == core && decide (r.id < id) && storeSent s r && (s.storePorts r).any ports.contains
    | .atomicAtHome a | .remoteUpdate a => a.core == core && decide (a.id < id) && atomSent s a &&
        (s.portsOf core a.asid [(a.ea, a.n)]).any ports.contains
    | .migrationArrival m => ((s.threads.find m.tid).any fun u => u.core == core) && decide (m.id < id) && s.seatFree m.dest &&
        ports.contains (corePort m.dest)
    | _ => false)

/-- A load may complete: it has left its core, and nothing sent before it to its slices is still on its way. -/
def loadReady (s : State) (r : LoadReq) : Bool :=
  loadSent s r && s.inOrder r.core r.id (s.portsOf r.core r.asid (s.missed r))

/-- How the parts of a load have been read: the value and the failed parts, or a translation fault at an address. -/
inductive Parts where
  | val (v : Nat) (errs : List (Cause × W64)) (s : State)
  | hold (ea : W64) (entryAt : Nat)

/-- A cause of R141 from its code. -/
def lostCause (n : Nat) : Cause := if n = 9 then .page else .memError
/-- The bytes of a load's parts at their places; a part that fails reads zero (R141, R249). -/
def loadParts (r : LoadReq) : List Part → State → Nat → List (Cause × W64) → Parts
  | [], s, acc, errs => .val acc errs s
  | p :: ps, s, acc, errs =>
    if p.lost ≠ 0 then loadParts r ps s acc (errs ++ [(lostCause p.lost, p.ea)])
    else match s.readPlace r.tid r.core r.asid p.ea p.n r.level r.rh with
    | .val v s1 => loadParts r ps s1 (acc ||| ((v % 2 ^ p.w) <<< p.lo)) errs
    | .err c ea s1 => loadParts r ps s1 acc (errs ++ [(c, ea)])
    | .hold a => .hold p.ea a

/-- Which bits of the destination a load's parts write. -/
def partsMask (ps : List Part) : Nat := ps.foldl (fun a p => a ||| ((2 ^ p.w - 1) <<< p.lo)) 0

/-- Spread one element over the active elements of a register (R248). -/
def bcastBits (mask : BitVec 128) (w v : Nat) : Nat × Nat :=
  let n := 4096 / w
  (List.range n).foldl (fun (a, m) e =>
    if mask.getLsbD (e * w / 32) then (a ||| (v <<< (e * w)), m ||| ((2 ^ w - 1) <<< (e * w))) else (a, m)) (0, 0)

/-- Write a load's destination and set it full (R144, R248). -/
def State.fillDst (s : State) (t : Tid) (r : LoadReq) (v : Nat) : State :=
  match s.threads.find t with
  | none => s
  | some th =>
    let putV := fun (vd : BitVec 5) (x m : Nat) =>
      s.setVreg th vd (BitVec.ofNat 4096 ((s.vreg th vd).toNat &&& (2 ^ 4096 - 1 - m) ||| x))
    match r.dst with
    | .scalar d => s.setThread t (th.setX d (BitVec.ofNat 64 v))
    | .pair d => s.setThread t ((th.setX d (BitVec.ofNat 64 v)).setX (d + 1) (BitVec.ofNat 64 (v / 2 ^ 64)))
    | .vec d => putV d v (partsMask r.parts)
    | .bcast d mask w =>
      let (x, m) := bcastBits mask w v
      putV d x m

/-- The page and table entry of a held access (R398). -/
def placeOfEa (core : Nat) (ea : W64) : Nat × Nat :=
  match resolve core ea with
  | some (.glob space va) => (space, va)
  | _ => (8, 0)

/-- Hold a step at the home die of an address (R398). -/
def State.holdAt (s : State) (core : Nat) (asid : W16) (ea : W64) (entryAt : Nat) (i : Instr) : State :=
  let (space, va) := placeOfEa core ea
  s.holdStep (homeDie space va) asid space va entryAt i

/-- The first failure of an access is reported; it names the lowest failing element (R249). -/
def State.deferFirst (s : State) (t : Tid) (errs : List (Cause × W64)) : State :=
  match errs with
  | [] => s
  | (c, ea) :: _ => s.defer t c ea

/-- LOAD_COMPLETION (R144): the reply fills the register; a failure writes zero and is a deferred report (R141); a
translation fault is held (R398). A system-scope acquire first invalidates the issuing core's L1 (R151). -/
def execLoadCompletion (r : LoadReq) (s : State) : Outcome State Fault Refusal :=
  perform "LOAD_COMPLETION" (.loadCompletion r) (loadReady s r) s fun s =>
    let s := if r.level == .acquire 3 then s.l1Drop r.core fun _ => true else s
    match loadParts r r.parts s 0 [] with
    | .val v errs s1 => (s1.fillDst r.tid r v).deferFirst r.tid errs
    | .hold ea a => s.holdAt r.core r.asid ea a (.loadCompletion r)

/-! ## Stores, atomics and reductions -/

/-- A store may be performed: it has left, nothing sent before it to its cores is still on its way, and the buffer has room for the
lines that it enters (R281, R305). -/
def storeReady (s : State) (r : StoreReq) : Bool :=
  storeSent s r && s.inOrder r.core r.id (s.storePorts r) &&
    decide ((s.cluster (clusterOf r.core)).csb.length + s.newLines r.core r.asid r.parts ≤ 1024)

/-- An element of a store has failed (R249): the lowest one of the access is kept. -/
def State.noteFail (s : State) (t : Tid) (acc el : Nat) (ea : W64) (c : Cause) : State :=
  s.modThread t fun u => { u with mo := { u.mo with
    failing := match u.mo.failing.find? fun f => f.1 == acc with
      | none => u.mo.failing ++ [(acc, el, ea, c)]
      | some _ => u.mo.failing.map fun f => if f.1 = acc ∧ el < f.2.1 then (acc, el, ea, c) else f } }
/-- Some part of an access is still to be performed. -/
def State.accessOpen (s : State) (t : Tid) (acc : Nat) : Bool :=
  (s.flying.any fun f => f.tid == t && f.id == acc) ||
    s.clusters.any fun c => c.2.csb.any fun e => e.writers.contains (t, acc)
/-- An access whose last part has been performed reports its lowest failing element (R141, R249). -/
def State.endAccess (s : State) (t : Tid) (acc : Nat) : State :=
  match ((s.threads.find t).bind fun u => u.mo.failing.find? fun f => f.1 == acc) with
  | none => s
  | some f =>
    if s.accessOpen t acc then s
    else (s.modThread t fun u => { u with mo := { u.mo with failing := u.mo.failing.filter fun g => g.1 != acc } }).defer t
      f.2.2.2 f.2.2.1

/-- STORE_PERFORM_AT_HOME (R145): at the owner core of a scratchpad word, after the checks of R141; acknowledged. A store to global
memory reaches its cluster's buffer (R281, R299), from which STORE_BUFFER_DRAIN takes it to its home. -/
def execStorePerformAtHome (r : StoreReq) (s : State) : Outcome State Fault Refusal :=
  perform "STORE_PERFORM_AT_HOME" (.storePerformAtHome r) (storeReady s r) s fun s =>
    let s1 := if r.parts.any (globPart r.core) then s
      else s.modThread r.tid fun u => { u with mo := { u.mo with peerWr := u.mo.peerWr - 1 } }
    (r.parts.foldl (fun (a : State) p =>
      match resolve r.core p.ea with
      | some (.sp c off) =>
        match a.ownerCheck r.core c r.asid off p.n false with
        | some cause => a.noteFail r.tid r.id p.el p.ea cause
        | none => a.wr (spKey c off) p.n p.data.toNat
      | some (.glob space va) => a.enterBuffer r p space va
      | none => a) s1).endAccess r.tid r.id

/-- An atomic or reduction may be performed: it has left its core, nothing sent before it to its slice is still on its way, and
the issuing core's logs have room for its acknowledgement. -/
def atomReady (s : State) (a : AtomReq) : Bool :=
  atomSent s a && s.inOrder a.core a.id (s.portsOf a.core a.asid [(a.ea, a.n)]) && s.logRoom a.core

/-- Perform an atomic's function at its home, indivisibly (R157, R158): the old value. -/
def State.atomic (s : State) (a : AtomReq) (i : Instr) (k : State → Nat → State) (fail : State → Cause → State) : State :=
  match resolve a.core a.ea with
  | none => fail s .addressSpace
  | some (.sp c off) =>
    match s.ownerCheck a.core c a.asid off a.n false with
    | some cause => fail s cause
    | none =>
      let (bad, s) := s.eccRead c (spKey c off) a.n
      if bad then fail s .memError
      else
        let old := s.rd (spKey c off) a.n
        k (s.wr (spKey c off) a.n (amoApply a.fn a.n old a.b.toNat a.c.toNat)) old
  | some (.glob space va) =>
    if s.homeFails space va then fail s .memError
    else match s.xlate a.asid space va true with
    | .error at_ => s.holdAt a.core a.asid a.ea at_ i
    | .ok x =>
      let die := homeDie space va
      let key := x.key die va
      let old := s.rd key a.n
      let s1 := s.softHome key a.n (amoApply a.fn a.n old a.b.toNat a.c.toNat)
      let s2 := (s1.l1DropLine a.core (lineOf key)).modThread a.tid fun u => u.touch die key
      k (s2.ackNow a.core x va) old

/-- ATOMIC_AT_HOME (R158): the old value returns and fills the register; a system-scope acquire has first invalidated the
issuing core's L1 (R151). -/
def execAtomicAtHome (a : AtomReq) (s : State) : Outcome State Fault Refusal :=
  perform "ATOMIC_AT_HOME" (.atomicAtHome a) (atomReady s a) s fun s =>
    (if a.sys then s.l1Drop a.core fun _ => true else s).atomic a (.atomicAtHome a)
      (fun s old => s.modThread a.tid fun u => u.setX a.d (BitVec.ofNat 64 old))
      (fun s c => (s.modThread a.tid fun u => u.setX a.d 0).defer a.tid c a.ea)

/-- REMOTE_UPDATE (R29): the update returns nothing; a failure is a deferred report (R159). -/
def execRemoteUpdate (a : AtomReq) (s : State) : Outcome State Fault Refusal :=
  perform "REMOTE_UPDATE" (.remoteUpdate a) (atomReady s a) s fun s =>
    s.atomic a (.remoteUpdate a) (fun s _ => s) (fun s c => s.defer a.tid c a.ea)

/-! ## The cluster store buffer (R281) -/

def drainEntry (s : State) (cl id : Nat) : Option CsbEntry := (s.cluster cl).csb.find? fun e => e.id == id
/-- An entry may drain: the older ones of its line have (R281), and its acknowledgement finds room in the logs of the cores
that wrote it. -/
def drainReady (s : State) (cl id : Nat) : Bool :=
  (drainEntry s cl id).any fun e => e.cores.all s.logRoom && (s.csbAll cl e.asid e.va).all fun f => decide (id ≤ f.id)

/-- The drain of an entry has begun: it is held at its home, and later stores to the line take a new entry (R281, R398). -/
def State.beginDrain (s : State) (cl id : Nat) : State :=
  s.modCluster cl fun c => { c with csb := c.csb.map fun e => if e.id = id then { e with draining := true } else e }

/-- An entry leaves the buffer: its cores' copies are pending no more (R307), its accesses may be over (R249). -/
def State.endEntry (s : State) (cl : Nat) (e : CsbEntry) (line : Option Nat) : State :=
  let s1 := s.modCluster cl fun c => { c with csb := c.csb.filter fun f => f.id ≠ e.id }
  let s2 := match line with
    | some l => e.cores.foldl (fun a c => a.l1Acked c e.asid l e.va) s1
    | none => s1
  e.writers.foldl (fun a w => a.endAccess w.1 w.2) s2

/-- An entry's stores have failed at their home: each access reports at its lowest element there (R249), and the cores' copies that
hold the store go. -/
def State.failEntry (s : State) (cl : Nat) (e : CsbEntry) (c : Cause) : State :=
  let s1 := e.writers.foldl (fun a w => match e.firsts.find? fun f => f.1 == w.2 with
    | some f => a.noteFail w.1 w.2 f.2.1 f.2.2 c
    | none => a) s
  (e.cores.foldl (fun a c => a.modM c fun m =>
    { m with l1 := m.l1.filter fun l => !(l.pending && l.asid == e.asid) }) s1).endEntry cl e none

/-- STORE_BUFFER_DRAIN (R281): the entry is written at its home; the write is acknowledged to the cores that made it. -/
def execStoreBufferDrain (cl id : Nat) (s : State) : Outcome State Fault Refusal :=
  perform "STORE_BUFFER_DRAIN" (.storeBufferDrain cl id) (drainReady s cl id) s fun s =>
    match drainEntry s cl id with
    | none => s
    | some e =>
      let core := cl * 8
      let ea : W64 := BitVec.ofNat 64 (e.va * 64)
      match resolve core ea with
      | some (.glob space va) =>
        if s.homeFails space va then s.failEntry cl e .memError
        else match s.xlate e.asid space va true with
        | .error a => (s.beginDrain cl id).holdAt core e.asid ea a (.storeBufferDrain cl id)
        | .ok x =>
          let die := homeDie space va
          let key := x.key die va
          let s1 := (s.softHomeLine (lineOf key) e.mask e.data e.code).modCluster cl fun c =>
            { c with drainAt := max (c.drainAt + 4) (3 * s.cycle) }
          let s2 := s1.endEntry cl e (some (lineOf key))
          let s3 := e.cores.foldl (fun a c => a.ackNow c x va) s2
          e.writers.foldl (fun a w => a.modThread w.1 fun u => u.touch die key) s3
      | _ => s

/-! ## Releases (R309, R311) -/

def echoOk (s : State) (t : Tid) (p : ProbeTo) : Bool :=
  (s.threads.find t).any fun th => s.echoReady t th p

/-- RELEASE_PROBE_ECHO (R311): the thread's writes to that slice or die are performed; the probe echoes. -/
def execReleaseProbeEcho (t : Tid) (p : ProbeTo) (s : State) : Outcome State Fault Refusal :=
  perform "RELEASE_PROBE_ECHO" (.releaseProbeEcho t p) (echoOk s t p) s fun s =>
    s.modThread t fun u =>
      { u with
        mo := { u.mo with rel := u.mo.rel.map fun r => { r with probes := r.probes.erase p } } }

/-- A write set or signature that a priority region delays (R336): it meets what the region has read, in this run or in the
run squashed last. Of two priority regions the one that got its priority first is not delayed, at one cycle the one of the
lower die (log entry 27). -/
def State.delayed (s : State) (set : LineSet) (by_ : Tid) : Bool :=
  let mine := (s.dies.find? fun d => d.2.prio == some by_).map fun d => (d.2.prioSince, d.1)
  s.dies.any fun d => match d.2.prio with
    | none => false
    | some t => t != by_ && !(mine.any fun m => decide (m.1 < d.2.prioSince ∨ (m.1 = d.2.prioSince ∧ m.2 < d.1))) &&
      (s.threads.find t).any fun u => (u.region.any fun r => set.meets r.reads) || set.meets u.lastReads

/-- The arbiter places a signature once the probes have echoed and every write it covers is acknowledged. -/
def placeReady (s : State) (t : Tid) (sc : BitVec 2) : Bool :=
  (s.threads.find t).any fun th =>
    (th.mo.rel.any fun r => r.probes.isEmpty) && s.acked t th sc && !s.delayed (sigSet th.mo.wsig) t

/-- SIGNATURE_PLACEMENT (R309): the next place in the order; every L1 of the die, from package scope on of every die,
applies the signature. -/
def execSignaturePlacement (t : Tid) (sc : BitVec 2) (s : State) : Outcome State Fault Refusal :=
  perform "SIGNATURE_PLACEMENT" (.signaturePlacement t sc) (placeReady s t sc) s fun s =>
    match s.threads.find t with
    | none => s
    | some th =>
      let s1 := s.applySig (fun c => decide (2 ≤ sc.toNat) || dieOf c == dieOf th.core) th.relSig
      let s2 := s1.modThread t fun u =>
        { u with
          mo := { u.mo with rel := u.mo.rel.map fun r => { r with placed := true } } }
      s2.takePlace (sigSet th.mo.wsig) false t

/-! ## Sync accesses (R152, R153) -/

/-- The words of a sync access are in the state it waits for. -/
def syncMet (s : State) (r : SyncReq) : Bool :=
  s.feFull r.owner r.off == !r.store && (r.n == 4 || s.feFull r.owner (r.off + 4) == !r.store)
/-- Where an access stands in the order of service: arrival at the owner, then core, then slot (R153). -/
def syncOrder (s : State) (r : SyncReq) : Nat × Nat × Nat :=
  match s.threads.find r.tid with
  | some th => (r.since, th.core, th.bslot.getD (th.bound.getD 0))
  | none => (r.since, 0, 0)
def before3 (a b : Nat × Nat × Nat) : Bool :=
  decide (a.1 < b.1) || (a.1 == b.1 && (decide (a.2.1 < b.2.1) || (a.2.1 == b.2.1 && decide (a.2.2 < b.2.2))))
/-- No access of the same kind on the same words comes before this one. -/
def syncFirst (s : State) (r : SyncReq) : Bool :=
  !(s.pool.any fun i => match i with
    | .syncAccessServe q => q.owner == r.owner && q.store == r.store && decide (q.off < r.off + r.n) &&
        decide (r.off < q.off + q.n) && before3 (syncOrder s q) (syncOrder s r)
    | _ => false)
/-- The checks at the owner (R141, R152). -/
def syncError (s : State) (r : SyncReq) : Option Cause :=
  match s.threads.find r.tid with
  | none => none
  | some th => s.ownerCheck th.core r.owner r.asid r.off r.n false
def syncReady (s : State) (r : SyncReq) : Bool :=
  (syncError s r).isSome || ((s.sleeping r.owner r.off r.n).isNone && syncMet s r && syncFirst s r &&
    (s.threads.find r.tid).all fun th => s.noOlder r.tid r.id th.core [(r.ea, r.n)])

/-- A sync access ends in an error (R152, R153): its register is full and unchanged; it traps at the instruction, a member of a
formed gang at the gang's next turn, where the gang disbands (R163). -/
def State.syncFails (s : State) (r : SyncReq) (th : Thread) (c : Cause) : State :=
  let u := if r.store then th else th.setX r.d (th.x r.d)
  if th.gm then s.setThread r.tid { u with mo := { u.mo with syncErr := some c } }
  else (s.setThread r.tid { u with mo := { u.mo with waitId := 0, acquired := false } }).takeTrap r.tid c 0 r.ea th.c.pc

/-- The retry limit of an access that is over no longer runs. -/
def dropLimit (r : SyncReq) (s : State) : State := { s with pool := s.pool.erase (.syncRetryLimit r) }

/-- SYNC_ACCESS_SERVE (R152): the words are read or written and their bits changed, indivisibly; an `ldsy` is a
cluster-scope acquire after it reads (R154); an error is precise and changes nothing. -/
def execSyncAccessServe (r : SyncReq) (s : State) : Outcome State Fault Refusal :=
  perform "SYNC_ACCESS_SERVE" (.syncAccessServe r) (syncReady s r) s fun s =>
    let s := dropLimit r s
    match s.threads.find r.tid with
    | none => s
    | some th =>
      match syncError s r with
      | some c => s.syncFails r th c
      | none =>
        let (bad, s) := if r.store then (false, s) else s.eccRead r.owner (spKey r.owner r.off) r.n
        let th := (s.threads.find r.tid).getD th
        if bad then
          -- R205: reported through R141, the word and its bit unchanged
          (s.setThread r.tid { th.setX r.d 0 with mo := { th.mo with acquired := true } }).defer r.tid .memError r.ea
        else
        let v := s.rd (spKey r.owner r.off) r.n
        let s1 := if r.store then s.wr (spKey r.owner r.off) r.n r.data.toNat else s
        let s2 := (s1.setFe r.owner r.off r.store).setFe r.owner (r.off + r.n - 4) r.store
        let u := { th with mo := { th.mo with acquired := true } }
        let s3 := s2.setThread r.tid (if r.store then u else u.setX r.d (BitVec.ofNat 64 v))
        if r.store then s3 else s3.l1Drop th.core fun _ => true

/-- The wait has lasted the limit, and the access does not end otherwise: neither its word nor its owner's check lets it (R153,
R301). -/
def limitReady (s : State) (r : SyncReq) : Bool := decide (r.since + r.lim ≤ s.cycle) && !syncReady s r

/-- SYNC_RETRY_LIMIT (R153): cause 0x0D, the word and its bit unchanged. -/
def execSyncRetryLimit (r : SyncReq) (s : State) : Outcome State Fault Refusal :=
  perform "SYNC_RETRY_LIMIT" (.syncRetryLimit r) (limitReady s r && s.pool.contains (.syncAccessServe r)) s fun s =>
    let s := { s with pool := s.pool.erase (.syncAccessServe r) }
    match s.threads.find r.tid with
    | none => s
    | some th => s.syncFails r th .syncLimit

/-! ## Migration (R17, R27, R28) -/

/-- The packed light context (R17): 160 bytes, little-endian. -/
def packCtx (c : Ctx) : BitVec 1280 :=
  let f := fun (off v : Nat) => BitVec.ofNat 1280 (v <<< (8 * off))
  let xs := (List.range 16).foldl (fun a i => a ||| f (8 * i) (c.x.get (BitVec.ofNat 4 i).toFin).toNat) 0
  xs ||| f 128 c.fe.toNat ||| f 130 (c.pred ||| 1).toNat ||| f 132 c.pc.toNat ||| f 136 c.img.toNat ||| f 138 c.asid.toNat |||
    f 140 c.lid.toNat ||| f 144 c.ord.toNat ||| f 148 c.status.toNat ||| f 152 c.hint.toNat
/-- Unpack a light context over what is carried beside it (R17, R39): reserved bytes are ignored. -/
def unpackCtx (b : BitVec 1280) (c : Ctx) : Ctx :=
  let g := fun (off len : Nat) => (b.extractLsb' (8 * off) (8 * len)).toNat
  { c with
    x := (List.range 16).foldl (fun v i => v.set (i % 16) (BitVec.ofNat 64 (g (8 * i) 8)) (Nat.mod_lt _ (by decide))) c.x
    fe := BitVec.ofNat 16 (g 128 2), pred := BitVec.ofNat 16 (g 130 2) ||| 1, pc := BitVec.ofNat 32 (g 132 4)
    img := BitVec.ofNat 16 (g 136 2), asid := BitVec.ofNat 16 (g 138 2), lid := BitVec.ofNat 16 (g 140 2) &&& 0x3FFF
    ord := BitVec.ofNat 32 (g 144 4), status := BitVec.ofNat 32 (g 148 4), hint := BitVec.ofNat 64 (g 152 8) }

/-- Context indices of a core in use. -/
def State.usedCtx (s : State) (core : Nat) : List Nat :=
  (s.threads.filter fun e => e.2.core == core && (match e.2.run with | .travelling _ => false | _ => true)).map fun e =>
    e.2.cidx
/-- A free context of a core. -/
def State.freeCtx (s : State) (core : Nat) : Option Nat := (List.range 64).find? fun i => !(s.usedCtx core).contains i

/-- Unpack an arrived context onto the run queue; a thread whose probe is held is parked (R392). The lines of the core's L1 that it may read are fetched afresh (R45). -/
def State.unpack (s : State) (m : MigMsg) (i : Nat) : State :=
  let s1 := s.l1Drop m.dest fun _ => true
  s1.modThread m.tid fun u =>
    { u with c := unpackCtx m.ctx u.c, core := m.dest, cidx := i
             run := if u.mo.probe.isSome then .parked .translation else .ready s.cycle, bslot := none, bound := none }

/-- A context of a core has been freed: the oldest waiting arrival takes it (R28). -/
def State.seatArrival (s : State) (core : Nat) : State :=
  match (s.core core).k.arrivals, s.freeCtx core with
  | m :: r, some i => (s.modK core fun k => { k with arrivals := r }).unpack m i
  | _, _ => s

/-- A thread's probe is given up. -/
def State.dropProbe (s : State) (t : Tid) : State :=
  { s with
    pool := s.pool.erase (.translationProbe t)
    dies := s.dies.map fun (e : Nat × Die) => (e.1, { e.2 with held := e.2.held.filter fun h => h.ev != Instr.translationProbe t }) }.modThread t
      fun u => { u with mo := { u.mo with probe := none, probeFail := false } }

/-- Ring operations of a thread still queued (R425). -/
def State.ringQueued (s : State) (t : Tid) : Bool := s.cores.any fun c => c.2.r.queue.any fun o => o.tid == t

/-- A thread departs once its producers have filled, its ring operations and its stores, and those it has read in the buffer, are
performed; or to take a report that arrives meanwhile (R27, R141, R425). -/
def departReady (s : State) (t : Tid) : Bool :=
  (s.threads.find t).any fun th => !th.mo.deferred.isEmpty || (s.producersDone t th && s.acked t th 2 && !s.ringQueued t)

/-- MIGRATION_DEPARTURE (R27): the touched-bank mask is cleared, the light context packed and sent. -/
def execMigrationDeparture (t : Tid) (dest : Nat) (s : State) : Outcome State Fault Refusal :=
  perform "MIGRATION_DEPARTURE" (.migrationDeparture t dest) (departReady s t) s fun s =>
    match s.threads.find t with
    | none => s
    | some th =>
      if !th.mo.deferred.isEmpty then (s.dropProbe t).modThread t fun u => { u with run := .ready s.cycle }
      else
        let s1 := s.setThread t
          { th with run := .travelling dest, mo := { th.mo with tbm := 0, tbmd := 0, peerWr := 0 } }
        (s1.seatArrival th.core).push (.migrationArrival ⟨t, dest, packCtx th.c, s.nextId⟩)

def arriveReady (s : State) (m : MigMsg) : Bool :=
  ((s.threads.find m.tid).all fun u => s.inOrder u.core m.id [corePort m.dest]) && ((s.freeCtx m.dest).isSome || decide ((s.core m.dest).k.arrivals.length < 16))

/-- MIGRATION_ARRIVAL (R28): into a free context, else into the arrival queue of 16. -/
def execMigrationArrival (m : MigMsg) (s : State) : Outcome State Fault Refusal :=
  perform "MIGRATION_ARRIVAL" (.migrationArrival m) (arriveReady s m) s fun s =>
    match s.freeCtx m.dest with
    | some i => s.unpack m i
    | none => s.modK m.dest fun k => { k with arrivals := k.arrivals ++ [m] }

/-! ## Translation (R392, R398) -/

/-- A thread is on its way to another core. -/
def Thread.moving (th : Thread) : Bool := match th.run with
  | .departing _ | .travelling _ => true
  | _ => false
/-- A probe is performed in place: before its thread departs, or once it is parked where the walk stopped. -/
def probeReady (s : State) (t : Tid) : Bool := (s.threads.find t).any fun th => th.mo.probe.isSome && !th.moving

/-- The translation has come: the thread goes on, unless it has been stopped meanwhile. -/
def Thread.translated (u : Thread) (now : Nat) : Thread :=
  { u with run := if u.run = .parked .translation then .ready now else u.run, mo := { u.mo with probe := none, probeFail := false } }
/-- A probe has failed (R392): cause 0x09, precise at the access. -/
def State.probeFails (s : State) (t : Tid) (th : Thread) : State :=
  (s.setThread t (th.translated s.cycle)).takeTrap t .page 0 ((th.mo.probe.map fun p => p.1).getD 0) th.c.pc

/-- TRANSLATION_PROBE (R392): the home die translates and the core keeps the translation. A fault is held at the die (R398), and
with it a mobile thread departs for the home core of the table entry at which the walk stopped, as R27 lays down: it waits there
for the answer. -/
def execTranslationProbe (t : Tid) (s : State) : Outcome State Fault Refusal :=
  perform "TRANSLATION_PROBE" (.translationProbe t) (probeReady s t) s fun s =>
    match s.threads.find t with
    | none => s
    | some th =>
      match th.mo.probe with
      | none => s
      | some (ea, wr) =>
        if th.mo.probeFail then s.probeFails t th
        else match resolve th.core ea with
        | some (.glob space va) =>
          match s.xlate th.c.asid space va wr with
          | .ok x =>
            (s.keepXlat th.core x).modThread t fun u => u.translated s.cycle
          | .error a =>
            let die := homeDie space va
            let dest := coreBeside die (sliceOf (a % 0x4000000000))
            let s1 := s.holdAt th.core th.c.asid ea a (.translationProbe t)
            if th.migrates && th.core ≠ dest && th.run == .parked .translation && !s.xlateWaits th.c.asid space va then
              s1.depart t th dest
            else s1
        | _ => s.modThread t fun u => u.translated s.cycle

/-! ## Logs (R316, R401) -/

def wlogReady (s : State) (core : Nat) : Bool := !(s.core core).m.wlog.isEmpty

/-- WRITE_LOG_APPEND (R316): the oldest record of a core's buffer goes to the ring; a translation fault is held (R398). -/
def execWriteLogAppend (core : Nat) (s : State) : Outcome State Fault Refusal :=
  perform "WRITE_LOG_APPEND" (.writeLogAppend core) (wlogReady s core) s fun s =>
    match (s.core core).m.wlog with
    | [] => s
    | r :: rest =>
      match s.appendLog (dieOf core) core r with
      | .fault ea a => s.holdAt core r.asid ea a (.writeLogAppend core)
      | .ok s1 =>
        let s2 := s1.modM core fun m => { m with wlog := rest }
        if rest.isEmpty then s2 else s2.push (.writeLogAppend core)

/-- DIRTY_LOG_MERGE (R401). -/
def execDirtyLogMerge (core : Nat) (s : State) : Outcome State Fault Refusal :=
  perform "DIRTY_LOG_MERGE" (.dirtyLogMerge core) true s fun s => s.mergeLog core

/-! ## Bank wakes (R192) -/

def wakeDue (s : State) (core bank : Nat) : Bool :=
  match (s.core core).m.waking.find bank with
  | some d => decide (d ≤ s.cycle)
  | none => false

/-- BANK_WAKE_END (R192): every word reads zero, every bit is full, FMT stays. -/
def execBankWakeEnd (core bank : Nat) (s : State) : Outcome State Fault Refusal :=
  perform "BANK_WAKE_END" (.bankWakeEnd core bank) (wakeDue s core bank) s fun s =>
    let s1 := (s.zero (spKey core (bank * 40960)) 40960).fillFe core (bank * 40960) 40960
    let s2 := s1.modM core fun m =>
      { m with bank := m.bank.put 0 bank (setBits (s1.bankReg core bank) 4 2 0), waking := m.waking.erase bank }
    s2

end Sys2Proof.Machine
end

