-- ==== Sys2Proof/Machine/Cache.lean ====
section
/-! DEFINITION. Cache and translation maintenance (R323, R324, R397, R401). -/

namespace Sys2Proof.Machine

open Host (Outcome)

/-- The range of a `cache` form: its space, and its first and last virtual lines; none for a scratchpad address or a
length of 0. -/
def cacheRange (core : Nat) (a b : W64) : Option (Nat × Nat × Nat) :=
  let n := (b.extractLsb' 0 40).toNat
  match resolve core a with
  | some (.glob space va) => if n = 0 then none else some (space, va / 64, (va + n - 1) / 64)
  | _ => none

/-- The checks of every `cache` form that names a range (R323, R324). -/
def cacheChecks (s : State) (th : Thread) (a : W64) (k : Res) : Res :=
  if th.rg then .trap s .privilege 0 0x6
  else if (resolve th.core a).isNone then .trap s .addressSpace 0 a
  else k

/-- The lines at their homes that a range of virtual lines names, first and last for each page with a translation (R323). -/
def State.rangeLines (s : State) (asid : W16) (space lo hi : Nat) : List (Nat × Nat) :=
  (List.range (hi / 1024 - lo / 1024 + 1)).filterMap fun i =>
    let a := max lo ((lo / 1024 + i) * 1024)
    let b := min hi ((lo / 1024 + i) * 1024 + 1023)
    (s.keyOf asid space (a * 64)).map fun k => (lineOf k, lineOf k + (b - a))
/-- Change the L2's lines of a range (R303, R323). -/
def State.mapL2 (s : State) (rs : List (Nat × Nat)) (f : L2Line → L2Line) : State :=
  { s with
    dies := s.dies.map fun (e : Nat × Die) => (e.1, { e.2 with
      l2 := e.2.l2.map fun x => (x.1, l2Long (x.2.map fun l =>
        if rs.any fun r => decide (r.1 ≤ l.line) && decide (l.line ≤ r.2) then f l else l)) }) }
/-- A form that acts at the homes: its effect, then the echoes, for which the thread parks (R323). The homes act in the step in
which the word issues, and every echo has come when the word issues again (log entry 6). -/
def cacheEchoes (s : State) (t : Tid) (th : Thread) (act : State → State) : Res :=
  if th.mo.acts then .done (s.setThread t { th.retire with mo := { th.mo with acquired := false, acts := false } })
  else .park ((act s).modThread t fun u => { u with mo := { u.mo with acquired := true, acts := true } }) .echo
/-- Change the L2's lines of a form's range at their homes. -/
def State.atHomes (s : State) (th : Thread) (sa sb : BitVec 5) (f : L2Line → L2Line) : State :=
  match cacheRange th.core (th.src sa) (th.src sb) with
  | none => s
  | some (space, lo, hi) => s.mapL2 (s.rangeLines th.c.asid space lo hi) f

/-- `cache.wb` (R323): dirty lines of the range are written to HBM and stay valid. -/
def execCacheWb (sa sb : BitVec 5) (s : State) : Outcome State Fault Refusal :=
  issue { srcs := [sa, sb] } s fun s t th =>
    cacheChecks s th (th.src sa) <| cacheEchoes s t th fun s => s.atHomes th sa sb fun l => { l with dirty := false }

/-- Whether an L1 line goes with a range: it stays only when the translations that the core holds put it outside. -/
def CoreMem.lineInRange (m : CoreMem) (asid : W16) (space lo hi : Nat) (l : L1Line) : Bool :=
  let vas := m.tcache.filterMap fun x =>
    let die := homeDie x.space.toNat x.vpage
    let first := lineOf (x.key die x.vpage)
    if x.asid = asid ∧ first ≤ l.line ∧ l.line < first + pageBytes x.size / 64 then
      some (x.space.toNat, x.vpage / 64 + (l.line - first))
    else none
  l.asid == asid && (vas.isEmpty || vas.any fun v => v.1 == space && decide (lo ≤ v.2) && decide (v.2 ≤ hi))

/-- `cache.inv` (R307, R323): a line goes with the range when a translation that the core holds, or the page tables, put it inside;
one whose store has not been acknowledged goes at the acknowledgement, for which the thread waits. -/
def execCacheInv (sa sb : BitVec 5) (s : State) : Outcome State Fault Refusal :=
  issue { srcs := [sa, sb] } s fun s t th =>
    cacheChecks s th (th.src sa) <|
      match cacheRange th.core (th.src sa) (th.src sb) with
      | none => .done (s.setThread t th.retire)
      | some (space, lo, hi) =>
        let phys := s.rangeLines th.c.asid space lo hi
        let hit := fun (l : L1Line) => (s.core th.core).m.lineInRange th.c.asid space lo hi l ||
          (l.asid == th.c.asid && phys.any fun r => decide (r.1 ≤ l.line) && decide (l.line ≤ r.2))
        let s1 := if th.mo.acquired then s else s.l1Drop th.core hit
        if (s1.core th.core).m.l1.any fun l => l.leaving && hit l then
          .park (s1.setThread t { th with mo := { th.mo with acquired := true, acts := true } }) .merge
        else .done (s1.setThread t { th.retire with mo := { th.mo with acquired := false, acts := false } })

/-- `cache.harvest` (R401): every record that the cluster's cores have appended is merged or dropped. -/
def execCacheHarvest (s : State) : Outcome State Fault Refusal :=
  issue {} s fun s t th =>
    if th.rg then .trap s .privilege 0 0x6
    else cacheEchoes s t th fun s =>
      let cl := clusterOf th.core
      let s1 := (List.range 8).foldl (fun a i => a.mergeLog (cl * 8 + i)) s
      { s1 with
        pool := s1.pool.filter fun i => match i with
          | .dirtyLogMerge c => decide (c / 8 ≠ cl)
          | _ => true }

/-- `cache.retain` (R303, R323): the L2's lines of the range take a retention code; 11 sets short-lived. -/
def execCacheRetain (sa sb : BitVec 5) (code : BitVec 2) (s : State) : Outcome State Fault Refusal :=
  issue { srcs := [sa, sb] } s fun s t th =>
    cacheChecks s th (th.src sa) <|
      .done ((s.atHomes th sa sb fun l => { l with code := if code = 3 then 1 else code }).setThread t th.retire)

/-- The translations that a `cache.tlbi` removes (R323). -/
def tlbiHits (core : Nat) (a b : W64) (kind : BitVec 2) (x : Xlat) : Bool :=
  if kind = 2 then true
  else if kind = 1 then x.asid == b.extractLsb' 0 16
  else match resolve core a with
    | some (.glob space va) =>
      x.asid == b.extractLsb' 0 16 && x.space.toNat == space && va / pageBytes x.size == x.vpage / pageBytes x.size
    | _ => false

/-- `cache.tlbi` (R323, R397): the translations leave every die's TLB and every core. An access is translated and performed
in one step here, so none is left that an entry translated before. -/
def execCacheTlbi (sa sb : BitVec 5) (kind : BitVec 2) (s : State) : Outcome State Fault Refusal :=
  issue { sup := true, srcs := [sa, sb] } s fun s t th =>
    cacheChecks s th (th.src sa) <| cacheEchoes s t th fun s =>
      let hit := tlbiHits th.core (th.src sa) (th.src sb) kind
      { s with
        dies := s.dies.map fun (e : Nat × Die) => (e.1, { e.2 with tlb := e.2.tlb.filter fun x => !hit x })
        cores := s.cores.map fun (e : Nat × Core) =>
          (e.1, { e.2 with m := { e.2.m with tcache := e.2.m.tcache.filter fun x => !hit x } }) }

end Sys2Proof.Machine
end

