-- ==== Sys2Proof/Machine/Engine.lean ====
section
/-! DEFINITION. What the engines of a core share (ch. 06, 09): range locks (R198-R200, R275), the release that an engine
operation waits for and what its completion publishes (R265, R272, R273, R312), engine accesses with their codes (R203),
the routes to other packages (R437, R438) and the walk of a copy through bank formats (R186-R188). -/

namespace Sys2Proof.Machine

/-! ## Buffer registers (R201) -/

abbrev CbReg := BitVec 256
def cbBase (c : CbReg) : W64 := c.extractLsb' 0 64
def cbCap (c : CbReg) : Nat := (c.extractLsb' 64 32).toNat
def cbEsz (c : CbReg) : Nat := (c.extractLsb' 96 4).toNat
def cbProd (c : CbReg) : W32 := c.extractLsb' 128 32
def cbCons (c : CbReg) : W32 := c.extractLsb' 160 32
def cbErr (c : CbReg) : W8 := c.extractLsb' 192 8
def cbBnd (c : CbReg) : Bool := c.getLsbD 200
/-- A register from its fields. -/
def cbPack (base : W64) (cap esz : Nat) (prod cons : W32) (err : W8) (bnd : Bool) : CbReg :=
  BitVec.ofNat 256 (base.toNat + cap * 2 ^ 64 + esz * 2 ^ 96 + prod.toNat * 2 ^ 128 + cons.toNat * 2 ^ 160 +
    err.toNat * 2 ^ 192 + if bnd then 2 ^ 200 else 0)
def cbSetProd (c : CbReg) (v : W32) : CbReg := cbPack (cbBase c) (cbCap c) (cbEsz c) v (cbCons c) (cbErr c) (cbBnd c)
def cbSetCons (c : CbReg) (v : W32) : CbReg := cbPack (cbBase c) (cbCap c) (cbEsz c) (cbProd c) v (cbErr c) (cbBnd c)
def cbSetErr (c : CbReg) (v : W8) : CbReg := cbPack (cbBase c) (cbCap c) (cbEsz c) (cbProd c) (cbCons c) v (cbBnd c)
def cbSetBnd (c : CbReg) (v : Bool) : CbReg := cbPack (cbBase c) (cbCap c) (cbEsz c) (cbProd c) (cbCons c) (cbErr c) v
/-- The count, and the room. -/
def cbCount (c : CbReg) : Nat := (cbProd c - cbCons c).toNat
def cbRoom (c : CbReg) : Nat := cbCap c - cbCount c
/-- The address of the element that a pointer is at. -/
def cbElem (c : CbReg) (i : Nat) : Nat := (cbBase c).toNat + i % cbCap c * 2 ^ cbEsz c

def State.cb (s : State) (core n : Nat) : CbReg := (s.core core).e.cb.getD n 0
def State.setCb (s : State) (core n : Nat) (c : CbReg) : State := s.modE core fun e => { e with cb := e.cb.put 0 n c }

def Binding.kind (b : Binding) : Nat := (b.desc.extractLsb' 0 8).toNat
def Binding.inp (b : Binding) : Nat := (b.desc.extractLsb' 8 8).toNat
/-- The output buffer; none for 0xFF. -/
def Binding.out (b : Binding) : Option Nat := if b.desc.extractLsb' 16 8 = 0xFF then none else some (b.desc.extractLsb' 16 8).toNat
def State.binding (s : State) (core i : Nat) : Option Binding := (s.core core).e.eng.find i
def State.setBinding (s : State) (core i : Nat) (b : Binding) : State :=
  s.modE core fun e => { e with eng := e.eng.set i b }
/-- A buffer is the input, the output, of some binding. -/
def State.isInput (s : State) (core n : Nat) : Bool := (s.core core).e.eng.any fun e => e.2.inp == n
def State.isOutput (s : State) (core n : Nat) : Bool := (s.core core).e.eng.any fun e => e.2.out == some n

/-- What an operation of a chunk makes of a buffer's register (R266). -/
def CbOp.on (n : Nat) (c : CbReg) : CbOp → CbReg
  | .cfg m r => if m = n then cbSetBnd r (cbBnd c) else c
  | .move m put x _ => if m ≠ n then c else if put then cbSetProd c (cbProd c + x) else cbSetCons c (cbCons c + x)
/-- A buffer's register as a thread sees it: with what its open chunk has done (R319). -/
def State.cbOf (s : State) (th : Thread) (n : Nat) : CbReg := th.chunk.cbs.foldl (CbOp.on n) (s.cb th.core n)
/-- Perform an operation on a core's buffer registers. -/
def State.cbDo (s : State) (core : Nat) (o : CbOp) : State :=
  match o with
  | .cfg n _ => (s.setCb core n (o.on n (s.cb core n))).modE core fun e => { e with cbSig := e.cbSig.erase n }
  | .move n _ _ sig => (s.setCb core n (o.on n (s.cb core n))).modE core fun e =>
      { e with cbSig := e.cbSig.set n (e.cbSig.getD n 0 ||| sig) }
/-- A thread's `cb.put` lets bindings fire: their firings come after what it did before (R312). -/
def State.notePut (s : State) (core : Nat) (t : Tid) (id : Nat) (o : CbOp) : State :=
  match o with
  | .move n true _ _ => s.modE core fun e => { e with cbPut := e.cbPut.set n (t, id) }
  | _ => s
/-- An operation of a word on its core's buffer registers: kept in an open chunk until its commit. -/
def State.cbWord (s : State) (t : Tid) (th : Thread) (o : CbOp) : State :=
  if th.det && th.chunk.open_ then s.modThread t fun u => { u with chunk := { u.chunk with cbs := u.chunk.cbs ++ [o] } }
  else (s.cbDo th.core o).notePut th.core t s.nextId o
/-- Arm a binding (R270). -/
def State.armBinding (s : State) (core : Nat) (t : Tid) (x : Nat × Bool × Nat) : State :=
  match s.binding core x.1 with
  | some b => s.setBinding core x.1 { b with armed := true, once := x.2.1, tid := t, armId := x.2.2 }
  | none => s
/-- An open chunk keeps what a binding was before its words changed it. -/
def State.keepBinding (s : State) (t : Tid) (i : Nat) (old : Option Binding) : State :=
  s.modThread t fun u =>
    if u.chunk.open_ && (u.chunk.engs.find i).isNone then
      { u with chunk := { u.chunk with engs := u.chunk.engs.set i old } }
    else u
/-- Set or clear BND of every buffer of a core as its bindings name it. -/
def State.refreshBnd (s : State) (core : Nat) : State :=
  (List.range 16).foldl (fun a n =>
    if cbBnd (a.cb core n) == (a.isInput core n || a.isOutput core n) then a
    else a.setCb core n (cbSetBnd (a.cb core n) (a.isInput core n || a.isOutput core n))) s
/-- A squashed chunk's changes to the bindings of its core are undone. -/
def State.restoreBinding (s : State) (core : Nat) (x : Nat × Option Binding) : State :=
  match s.binding core x.1, x.2 with
  | some b, some o => s.setBinding core x.1 { b with armed := o.armed, once := o.once }
  | none, some o => s.setBinding core x.1 { o with stage := none }
  | _, none => s.modE core fun e => { e with eng := e.eng.erase x.1 }

/-! ## Range locks -/

/-- The address of a range as an entry of a core's table names it: LOCAL for this core's scratchpad (R198). -/
def lockStart (core : Nat) (a : Nat) : W64 :=
  let ea : W64 := BitVec.ofNat 64 a
  match resolve core ea with
  | some (.sp c off) => if c = core then BitVec.ofNat 64 off else ea
  | _ => ea
/-- An entry over `n` bytes, widened to whole blocks (R198). -/
def mkLock (core a n : Nat) (dest : Bool) (tag : W8) (id : Nat) : Lock :=
  ⟨lockStart core (a / 64 * 64), BitVec.ofNat 32 (min ((a % 64 + n + 63) / 64 - 1) (2 ^ 32 - 1)), dest, tag, id⟩
/-- Free entries of a core's table. -/
def State.lockSpace (s : State) (core : Nat) : Nat := 32 - (s.core core).m.locks.length
/-- Enter a lock at the lowest free entry. -/
def State.lockAt (s : State) (core : Nat) (l : Lock) : State :=
  s.modM core fun m =>
    match (List.range 32).find? fun i => (m.locks.find i).isNone with
    | some i => { m with locks := m.locks.set i l }
    | none => m
def State.lockAll (s : State) (ls : List (Nat × Lock)) : State := ls.foldl (fun a l => a.lockAt l.1 l.2) s
/-- Every table that the entries go to has room. -/
def State.locksFit (s : State) (ls : List (Nat × Lock)) : Bool :=
  ls.all fun l => decide ((ls.filter fun k => k.1 == l.1).length ≤ s.lockSpace l.1)
/-- Release entries of an operation. -/
def State.unlock (s : State) (id : Nat) (p : Lock → Bool) : State :=
  { s with
    cores := s.cores.map fun (e : Nat × Core) =>
      (e.1, { e.2 with m := { e.2.m with locks := e.2.m.locks.filter fun l => !(l.2.id == id && p l.2) } }) }

/-- Byte ranges that an entry covers, as keys. -/
def Lock.spans (l : Lock) (core : Nat) : List (Nat × Nat) :=
  let len := 64 * (l.blks.toNat + 1)
  if l.tag.getLsbD 7 then
    (List.range 16).map fun b => (spKey core (b * 40960 + l.start.toNat), min len (40960 - l.start.toNat))
  else match resolve core l.start with
    | some p => [(p.key / 64 * 64, len)]
    | none => []
/-- Two entries conflict: they share a byte and one is a destination (R199). -/
def Lock.conflict (a : Lock) (ca : Nat) (b : Lock) (cb : Nat) : Bool :=
  (a.dest || b.dest) && (a.spans ca).any fun x => (b.spans cb).any fun y =>
    decide (x.1 < y.1 + y.2) && decide (y.1 < x.1 + x.2)
/-- The core in whose scratchpad an entry lies. -/
def Lock.holder (l : Lock) (core : Nat) : Option Nat :=
  if l.tag.getLsbD 7 then some core
  else match resolve core l.start with
    | some (.sp c _) => some c
    | _ => none
/-- No entry of an earlier operation conflicts with an operation's own: in its core's table, and for a scratchpad range in
its holder's (R200). -/
def State.lockTurn (s : State) (id : Nat) : Bool :=
  s.cores.all fun k => k.2.m.locks.all fun l => l.2.id != id || s.cores.all fun j =>
    (j.1 != k.1 && l.2.holder k.1 != some j.1) || j.2.m.locks.all fun e =>
      decide (id ≤ e.2.id) || !l.2.conflict k.1 e.2 j.1

/-- The issue number of an engine operation of a core (R275). -/
def State.takeSeq (s : State) (core : Nat) : W8 × State :=
  ((s.core core).e.opno.zeroExtend 8, s.modE core fun e => { e with opno := e.opno + 1 })

/-! ## Order and visibility -/

/-- The cores of a scope. -/
def inScope (core : Nat) (sc : BitVec 2) (c : Nat) : Bool :=
  if sc = 0 then clusterOf c == clusterOf core else if sc = 1 then dieOf c == dieOf core else true

/-- What the issuer did before request `id` is acknowledged as a release at the scope waits for (R151, R312). In a
deterministic launch nothing is waited for (R165). Its earlier loads and atomics have read (R312). -/
def State.engineAcked (s : State) (t : Tid) (core id : Nat) (sc : BitVec 2) : Bool :=
  !(s.flying.any fun f => f.tid == t && !f.reads.isEmpty && decide (f.id < id)) && ((s.threads.find t).any Thread.det ||
    (!(s.flying.any fun f => f.tid == t && !f.writes.isEmpty && decide (f.id < id)) &&
      ((s.threads.find t).all (s.logged t)) &&
      (sc == 0 || !((s.cluster (clusterOf core)).csb.any fun e =>
        ((e.writers.any fun w => w.1 == t && decide (w.2 < id)) || e.readers.contains t) &&
          (match s.homeOf core e.asid (BitVec.ofNat 64 (e.va * 64)) with
           | some (d, _) => decide (2 ≤ sc.toNat) || d == dieOf core
           | none => true)))))

/-- The release half of an engine operation: the issuer's signature is applied at the scope; what a finished release clears
is cleared when none of its writes is open (R148, R151). -/
def State.engineRelease (s : State) (t : Tid) (core : Nat) (sc : BitVec 2) : State :=
  match s.threads.find t with
  | none => s
  | some th =>
    if th.det then s
    else
      let s1 := s.applySig (inScope core sc) th.relSig
      let s2 := if sc = 0 then s1 else s1.takePlace (sigSet th.mo.wsig) false t
      if (s.openHomes t th true).isEmpty then s2.finishRelease t th sc else s2

/-- A written line with its home die. -/
def wrote (die line : Nat) : Nat := die * 2 ^ 64 + line
/-- Written lines enter their thread's touched-bank mask (R385, R405). -/
def State.touchLines (s : State) (t : Tid) (ls : List Nat) : State :=
  s.modThread t fun u => ls.foldl (fun a l => a.touch (l / 2 ^ 64) (l % 2 ^ 64 * 64)) u

/-- Written lines become visible at a scope: they leave its L1s; from die scope on they take a place in the order
(R273, R309). -/
def State.enginePublish (s : State) (t : Tid) (core : Nat) (sc : BitVec 2) (lines : List Nat) : State :=
  if lines.isEmpty then s
  else
    let set := (lines.map fun l => l % 2 ^ 64).foldl LineSet.add {}
    let s1 := s.applySig (inScope core sc) set.sig
    if sc = 0 then s1 else s1.takePlace set false t

/-! ## Accesses -/

/-- A number that no thread has: engine work of an ended thread goes on under it. -/
def noTid : Tid := 0x10000

/-- How an engine access ends: a code of R203 with its address, or a translation fault. -/
inductive EGot where
  | ok (v : Nat) (s : State) (line : Option Nat)
  | err (code : W8) (ea : W64) (s : State)
  | hold (ea : W64) (entryAt : Nat)

/-- Who an engine acts for, in request number `id`. -/
structure Actor where
  id   : Nat
  tid  : Tid
  core : Nat
  asid : W16
  sup  : Bool
  /-- pages that have no translation cannot be resolved -/
  fail : Bool
  /-- lines of memory whose read has failed (R203) -/
  lost : List Nat := []

/-- A scratchpad range as an engine reaches it (R280, R393). -/
def State.engSp (s : State) (a : Actor) (c off n : Nat) (ea : W64) : Option EGot :=
  if c = a.core then (if !a.sup && !s.lpuOk c a.asid off n then some (.err 0x08 ea s) else none)
  else if !s.allocOk c a.asid off n then some (.err 0x0A ea s) else none
/-- A global line of an address is one whose read has failed. -/
def State.engLost (s : State) (a : Actor) (space va : Nat) : Bool :=
  !a.lost.isEmpty && (s.keyOf a.asid space va).any fun k => a.lost.contains (lineOf k)

/-- An operation that a word of its issuer's open chunk has started: its writes are the chunk's (R312, R319). -/
def State.inChunk (s : State) (t : Tid) (id : Nat) : Bool :=
  (s.threads.find t).any fun th => th.det && th.chunk.open_ && decide (th.chunk.firstId ≤ id)
/-- The bytes that the issuer's open chunk holds come first. -/
def State.heldOf (s : State) (t : Tid) (id : Nat) : List HeldLine :=
  if s.inChunk t id then ((s.threads.find t).map fun u => u.chunk.held).getD [] else []

/-- Read `n` bytes inside one line. -/
def State.engRead (s : State) (a : Actor) (ea : W64) (n : Nat) : EGot :=
  let mine := overlayHeld (s.heldOf a.tid a.id) (canonEa a.core ea).toNat n
  match resolve a.core ea with
  | none => .err 0x07 ea s
  | some (.sp c off) => (s.engSp a c off n ea).getD <|
      let (bad, s1) := s.eccRead c (spKey c off) n
      if bad then
        -- the first failing word of the piece (R203)
        .err 0x12 (ea + BitVec.ofNat 64 (((s.eccBad (spKey c off) n).getD (spKey c off)) - spKey c off)) s1
      else .ok (mine (s1.rd (spKey c off) n)) s1 none
  | some (.glob space va) =>
    if s.engLost a space va then .err 0x12 ea s
    else match s.readGlobal a.tid a.core a.asid space va n (.acquire 0) 3 false with
    | .val v s1 => .ok (mine v) s1 none
    | .err c e s1 => .err c.code e s1
    | .hold e => if a.fail then .err 0x09 ea s else .hold ea e

/-- A write of an operation that its issuer's chunk holds until it commits (R319). -/
def State.engHold (s : State) (a : Actor) (ea : W64) (n v : Nat) : State :=
  s.modThread a.tid fun u => { u with
    chunk := { u.chunk with held := holdWrite u.chunk.held (canonEa a.core ea).toNat n v } }

/-- Write `n` bytes inside one line; a part of a line whose read has failed cannot be written. -/
def State.engWrite (s : State) (a : Actor) (ea : W64) (n v : Nat) : EGot :=
  match resolve a.core ea with
  | none => .err 0x07 ea s
  | some (.sp c off) => (s.engSp a c off n ea).getD
      (if s.inChunk a.tid a.id then .ok 0 (s.engHold a ea n v) none else .ok 0 (s.wr (spKey c off) n v) none)
  | some (.glob space va) =>
    if s.homeFails space va then .err 0x12 ea s
    else match s.xlate a.asid space va true with
    | .error e => if a.fail then .err 0x09 ea s else .hold ea e
    | .ok x =>
      if n < 64 && s.engLost a space va then .err 0x12 ea s
      else if s.inChunk a.tid a.id then .ok 0 (s.engHold a ea n v) none
      else if let some (e, a_) := (if x.entry.getLsbD 3 && !a.fail then s.logStop a.core else none) then .hold e a_
      else
      let key := x.key (homeDie space va) va
      let s1 := (s.softHome key n v).l1DropLine a.core (lineOf key)
      let s2 := s1.modThread a.tid fun u => { u with mo := { u.mo with wsig := u.mo.wsig ||| sigBits (lineOf key) } }
      .ok 0 (s2.ackNow a.core x va) (some (wrote (homeDie space va) (lineOf key)))

/-- The banks of ranges, with their cores. -/
def State.banksAsleep (s : State) (core : Nat) (rs : List (Nat × Nat)) : List (Nat × Nat) :=
  rs.flatMap fun r => match resolve core (BitVec.ofNat 64 r.1) with
    | some (.sp c off) => ((List.range 16).filter fun b =>
        r.2 != 0 && decide (b * 40960 < off + r.2) && decide (off < (b + 1) * 40960) && s.bankAsleep c b).map fun b => (c, b)
    | _ => []
/-- Banks of held lines that are not awake. -/
def State.heldAsleep (s : State) (core : Nat) (h : List HeldLine) : List (Nat × Nat) :=
  s.banksAsleep core (h.map fun l => (l.va * 64, 64))
/-- Wake the first of them: the transfer reaches the others later (R192). -/
def State.wakeBanks (s : State) (bs : List (Nat × Nat)) : State :=
  match bs with
  | b :: _ => s.touchBank b.1 b.2
  | [] => s
/-- The first bank is gated, so its wake can be started. -/
def State.anyGated (s : State) (bs : List (Nat × Nat)) : Bool :=
  bs.head?.any fun b => (s.bankReg b.1 b.2).getLsbD 4 && !(s.bankReg b.1 b.2).getLsbD 5

/-- No entry of the core's cluster buffer holds bytes of these ranges, so that an engine's write comes after them in the
line's order (R45, R281). -/
def State.noEntries (s : State) (core : Nat) (asid : W16) (rs : List (Nat × Nat)) : Bool :=
  !(s.cluster (clusterOf core)).csb.any fun e => e.asid == asid && rs.any fun r =>
    r.2 != 0 && decide (e.va * 64 < r.1 + r.2) && decide (r.1 < e.va * 64 + 64)

/-! ## Routes (R437, R438) -/

/-- The package's own id. -/
def State.ownId (s : State) : Nat := s.out.pkgid.toNat % 65536
/-- The ports of a route, in order. -/
def State.routePorts (s : State) (pkg : Nat) : List Nat :=
  let r := (s.out.route.getD pkg 0xFFFFF).toNat
  ((List.range 4).map fun i => r / 2 ^ (5 * i) % 32).filter fun p => decide (p < 18)
/-- The ports of a route that are up and can carry the ids. -/
def State.upPorts (s : State) (pkg : Nat) : List Nat :=
  if !s.out.pkgid.getLsbD 16 then []
  else (s.routePorts pkg).filter fun p =>
    let q := s.out.ports.getD p {}
    q.up && (decide (3 ≤ q.version) || (decide (pkg < 4096) && decide (s.ownId < 4096)))
def State.reachable (s : State) (pkg : Nat) : Bool := pkg == s.ownId || !(s.upPorts pkg).isEmpty
/-- The next port of a route, in turn. -/
def State.nextPort (s : State) (pkg : Nat) : Option (Nat × State) :=
  let ps := s.upPorts pkg
  let k := s.out.turns.getD pkg 0
  (ps[k % ps.length]?).map fun p => (p, s.modOut fun o => { o with turns := o.turns.set pkg (k + 1) })

/-! ## The walk of a copy (R187, R188) -/

/-- A step of a copy: bytes as they stand, or one element, at addresses in nibbles. -/
inductive Piece where
  | raw (src dst n : Nat)
  | conv (src dst : Nat) (sf df : Elem)
deriving DecidableEq, Repr

/-- The format code of the bank that holds an address; global memory counts as RAW (R187). -/
def State.fmtAt (s : State) (core a : Nat) : Nat :=
  match resolve core (BitVec.ofNat 64 a) with
  | some (.sp c off) => (s.bankReg c (bankOf off)).toNat % 16
  | _ => 0

/-- A walk: the pieces, the nibble address at which the destination ends, and the misaligned address at which it stops, with
whether that is the source's. -/
structure Walked where
  pieces : List Piece
  fin    : Nat
  bad    : Option (Nat × Bool)

/-- Walk `left` nibbles from source and destination nibble addresses; `fuel` bounds the steps. A bad length stops it at the
element that the source does not hold whole: the first failing address (R203, R272; log entry 26). Elements of one format that do
not stand at whole bytes go one by one. -/
def State.walkCopy (s : State) (core : Nat) (raw : Bool) :
    Nat → Nat → Nat → Nat → List Piece → Walked
  | 0, _, dn, _, acc => ⟨acc.reverse, dn, none⟩
  | fuel + 1, sn, dn, left, acc =>
    if left = 0 then ⟨acc.reverse, dn, none⟩
    else
      let sf := if raw then 0 else s.fmtAt core (sn / 2)
      let df := if raw then 0 else s.fmtAt core (dn / 2)
      if (sf = df ∨ sf = 0 ∨ df = 0) ∧ !(sf = df && (elemOf sf).bits == 4 && (sn % 2 != 0 || dn % 2 != 0 || left == 1)) then
        if sn % 2 ≠ 0 then ⟨acc.reverse, dn, some (sn / 2, true)⟩
        else if left = 1 then ⟨acc.reverse, dn, some (sn / 2, true)⟩
        else if dn % 2 ≠ 0 then ⟨acc.reverse, dn, some (dn / 2, false)⟩
        else
          let n := min (left / 2) (min (64 - sn / 2 % 64) (64 - dn / 2 % 64))
          State.walkCopy s core raw fuel (sn + 2 * n) (dn + 2 * n) (left - 2 * n) (.raw (sn / 2) (dn / 2) n :: acc)
      else
        let a := (elemOf sf).bits / 4
        let b := (elemOf df).bits / 4
        if sn % a ≠ 0 then ⟨acc.reverse, dn, some (sn / 2, true)⟩
        else if left < a then ⟨acc.reverse, dn, some (sn / 2, true)⟩
        else if dn % b ≠ 0 then ⟨acc.reverse, dn, some (dn / 2, false)⟩
        else State.walkCopy s core raw fuel (sn + a) (dn + b) (left - a) (.conv sn dn (elemOf sf) (elemOf df) :: acc)

/-- The walk of `n` bytes. -/
def State.walkBytes (s : State) (core : Nat) (raw : Bool) (dst src n : Nat) : Walked :=
  s.walkCopy core raw (2 * n) (2 * src) (2 * dst) (2 * n) []

/-- How a run of pieces ends: the lines written; a fault with its code; a translation fault. -/
inductive Moved where
  | ok (s : State) (lines : List Nat)
  | fault (s : State) (lines : List Nat) (code : W8) (ea : W64) (src : Bool)
  | hold (ea : W64) (entryAt : Nat)

def addLine (ls : List Nat) (l : Option Nat) : List Nat :=
  match l with
  | some l => if ls.head? = some l then ls else l :: ls
  | none => ls

/-- Write an element at a nibble address. -/
def State.putElem (s : State) (a : Actor) (dn : Nat) (e : Elem) (v : Nat) : EGot :=
  let ea : W64 := BitVec.ofNat 64 (dn / 2)
  if e.bits = 4 then
    match s.engRead a ea 1 with
    | .ok old s1 _ => s1.engWrite a ea 1 (if dn % 2 = 0 then old / 16 * 16 + v % 16 else old % 16 + v % 16 * 16)
    | r => r
  else s.engWrite a ea (e.bits / 8) v

/-- Move pieces in order. -/
def movePieces (a : Actor) : List Piece → State → List Nat → Moved
  | [], s, ls => .ok s ls
  | p :: ps, s, ls =>
    match p with
    | .raw src dst n =>
      match s.engRead a (BitVec.ofNat 64 src) n with
      | .err c ea s1 => .fault s1 ls c ea true
      | .hold ea e => .hold ea e
      | .ok v s1 _ =>
        match s1.engWrite a (BitVec.ofNat 64 dst) n v with
        | .err c ea s2 => .fault s2 ls c ea false
        | .hold ea e => .hold ea e
        | .ok _ s2 l => movePieces a ps s2 (addLine ls l)
    | .conv src dst sf df =>
      match s.engRead a (BitVec.ofNat 64 (src / 2)) (max 1 (sf.bits / 8)) with
      | .err c ea s1 => .fault s1 ls c ea true
      | .hold ea e => .hold ea e
      | .ok v s1 _ =>
        let x := if sf.bits = 4 then v / 16 ^ (src % 2) % 16 else v
        match s1.putElem a dst df (if sf == df then x else copyConvert sf df x) with
        | .err c ea s2 => .fault s2 ls c ea false
        | .hold ea e => .hold ea e
        | .ok _ s2 l => movePieces a ps s2 (addLine ls l)

/-- Move what a walk gives, up to its misaligned address (R204, R272). -/
def Walked.move (w : Walked) (a : Actor) (s : State) (ls : List Nat) : Moved :=
  match movePieces a w.pieces s ls with
  | .ok s1 l => (match w.bad with
    | some (e, src) => .fault s1 l 0x06 (BitVec.ofNat 64 e) src
    | none => .ok s1 l)
  | r => r

/-- The status of a token or an ERR field (R203): the code over the low 56 address bits. -/
def tokenErr (code : W8) (ea : W64) : W64 := code ++ ea.extractLsb' 0 56

end Sys2Proof.Machine
end

