-- ==== Sys2Proof/Machine/Links.lean ====
section
/-! DEFINITION. Ports and the flits they send (R433, R434): layout, check sum, replay buffers. -/

namespace Sys2Proof.Machine

/-- Little-endian bytes of a number. -/
def leBytes : Nat → Nat → List W8
  | 0, _ => []
  | n + 1, v => BitVec.ofNat 8 v :: leBytes n (v / 256)
/-- The number that little-endian bytes spell. -/
def ofBytes : List W8 → Nat
  | [] => 0
  | b :: r => b.toNat + 256 * ofBytes r
/-! ## Ports and flits (R433, R434) -/

def State.port (s : State) (n : Nat) : Port := s.out.ports.getD n {}
def State.setPort (s : State) (n : Nat) (p : Port) : State := s.modOut fun o => { o with ports := o.ports.set n p }

/-- A little-endian field of a flit at a byte offset. -/
def flitGet (f : BitVec 2048) (off len : Nat) : Nat := (f.extractLsb' (8 * off) (8 * len)).toNat
def flitKind (f : BitVec 2048) : Nat := flitGet f 0 2 / 4096
def flitSeq (f : BitVec 2048) : Nat := flitGet f 0 2 % 4096
def flitAck (f : BitVec 2048) : Nat := flitGet f 2 2 % 4096

/-- One byte of a CRC-32 with polynomial 0x04C1_1DB7, bits taken lowest first. -/
def crcByte (c : W32) (b : W8) : W32 :=
  (List.range 8).foldl (fun a _ => if a.getLsbD 0 then (a >>> 1) ^^^ 0xEDB88320 else a >>> 1) (c ^^^ b.zeroExtend 32)
/-- The CRC of `n` bytes of a flit from byte 0. -/
def flitCrc (f : BitVec 2048) (n : Nat) : W32 :=
  ~~~ ((List.range n).foldl (fun c i => crcByte c (f.extractLsb' (8 * i) 8)) (0xFFFFFFFF : W32))

/-- A flit is well formed (R433): its CRC is good, its kind is known, and no reserved field is set. Under version 2 of the link the
package ids fit 12 bits (R436). -/
def flitGood (ver : Nat) (f : BitVec 2048) : Bool :=
  flitGet f 252 4 == (flitCrc f 252).toNat && decide (flitKind f < 4) && decide (flitGet f 2 2 < 4096) &&
    decide (flitGet f 8 1 < 4) && decide (flitGet f 10 2 < 16) &&
    (decide (3 ≤ ver) || (decide (flitGet f 4 2 < 4096) && decide (flitGet f 6 2 < 4096))) &&
    (if flitKind f = 1 then decide (1 ≤ flitGet f 9 1) && decide (flitGet f 9 1 ≤ 240) else flitGet f 9 1 == 0)

/-- A flit with its CRC. -/
def makeFlit (kind seq ack dst src cls plen ver : Nat) (payload : List W8) : BitVec 2048 :=
  let f := fun (off v : Nat) => v <<< (8 * off)
  let body : BitVec 2048 := BitVec.ofNat 2048 ((seq % 4096 + kind * 4096) + f 2 (ack % 4096) + f 4 dst + f 6 src + f 8 cls +
    f 9 plen + f 10 ver + f 12 (ofBytes (payload.take 240)))
  body ||| BitVec.ofNat 2048 ((flitCrc body 252).toNat <<< 2016)

/-- A port may carry data (R438): the own id is valid and fits the negotiated version. -/
def State.carries (s : State) (p : Port) : Bool :=
  p.up && s.out.pkgid.getLsbD 16 && (decide (3 ≤ p.version) || decide (s.ownId < 4096))

/-- The package's id as a flit of a port names it: a control flit of version 2 has 12 bits for it (R436). -/
def State.srcId (s : State) (p : Port) : Nat := if 3 ≤ p.version then s.ownId else s.ownId % 4096

/-- A control flit of a port: kind, and the sequence number it names. -/
def State.control (s : State) (n : Nat) (kind seq : Nat) : State :=
  let p := s.port n
  s.send (.flit n (makeFlit kind seq ((p.recvSeq.toNat + 4095) % 4096) 0 (s.srcId p) 0 0 p.version []))

/-- Send held flits, in order, while fewer than 64 are unacknowledged (R434); `fuel` bounds them. -/
def State.pumpN (n : Nat) : Nat → State → State
  | 0, s => s
  | k + 1, s =>
    let p := s.port n
    match p.hold with
    | [] => s
    | (cls, dst, l) :: rest =>
      if 64 ≤ p.replay.length then s
      else
        let f := makeFlit 1 p.sendSeq.toNat ((p.recvSeq.toNat + 4095) % 4096) dst (s.srcId p) cls (min 240 l.length) p.version l
        let q := { p with hold := rest, sendSeq := BitVec.ofNat 16 ((p.sendSeq.toNat + 1) % 4096), replay := p.replay ++ [f] }
        State.pumpN n k ((s.setPort n q).send (.flit n f))
/-- Send what a port holds; a port that may not carry data sends none of it (R438). -/
def State.pump (s : State) (n : Nat) : State := if s.carries (s.port n) then State.pumpN n (s.port n).hold.length s else s

/-- A flit joins those that a port holds; one of a high-priority message overtakes those of low priority (R441). -/
def holdFlit (l : List (Nat × Nat × List W8)) (x : Nat × Nat × List W8) : List (Nat × Nat × List W8) :=
  if x.1 = 2 then (l.takeWhile fun e => e.1 != 3) ++ x :: l.dropWhile fun e => e.1 != 3 else l ++ [x]
/-- Send a data flit: it stays in the replay buffer until it is acknowledged, and with 64 before it it is held (R434). -/
def State.emit (s : State) (n cls dst : Nat) (payload : List W8) : State :=
  (s.setPort n { s.port n with hold := holdFlit (s.port n).hold (cls, dst, payload) }).pump n
/-- Send the replay buffer again from a sequence number on (R434); on a port that may not carry data it is owed (R438). -/
def State.resend (s : State) (n seq : Nat) : State :=
  if s.carries (s.port n) then ((s.port n).replay.dropWhile fun f => flitSeq f != seq).foldl (fun a f => a.send (.flit n f)) s
  else s.setPort n { s.port n with owed := some seq }
/-- A port that may carry data again sends what it owes and what it holds. -/
def State.resume (s : State) (n : Nat) : State :=
  if !s.carries (s.port n) then s
  else
    let s1 := match (s.port n).owed with
      | some seq => (s.setPort n { s.port n with owed := none }).resend n seq
      | none => s
    s1.pump n

/-! ## What flits carry

R433 gives a flit's fields, and R439 and R441 say what crosses; where in the payload it stands is the model's choice (log entry
87). -/

/-- A message (R441): 64 bytes, the destination core, the thread to wake with the flag at bit 15, and the number of the post. -/
def messageLoad (bytes : BitVec 512) (dst : Nat) (wake : Option Tid) (id : Nat) : List W8 :=
  leBytes 64 bytes.toNat ++ leBytes 2 dst ++ leBytes 2 (match wake with | some t => t % 32768 + 32768 | none => 0) ++ leBytes 4 id
/-- A flit of a copy (R439): the destination of its bytes, the issuer's ASID, the scope, whether it is the first or the last, the
number of the copy, and at most 224 bytes. -/
def copyLoad (dst : W64) (asid : W16) (sc : BitVec 2) (first last : Bool) (id : Nat) (bytes : List W8) : List W8 :=
  leBytes 8 dst.toNat ++ leBytes 2 asid.toNat ++ leBytes 1 (sc.toNat + (if first then 64 else 0) + if last then 128 else 0) ++
    leBytes 1 0 ++ leBytes 4 id ++ bytes
/-- A reply (R439, R441): the status, the number of what it answers, and whether that is a copy. -/
def replyLoad (v : W64) (id : Nat) (copy : Bool) : List W8 :=
  leBytes 8 v.toNat ++ leBytes 4 id ++ leBytes 1 (if copy then 1 else 0)
/-- Answer a message or a copy of another package over the port it came by. -/
def State.reply (s : State) (n : Nat) (pkg : W16) (v : W64) (id : Nat) (copy : Bool) : State :=
  s.emit n 1 pkg.toNat (replyLoad v id copy)

/-- The bytes of a copy in flits: all but the last full. -/
def copyFlits (asid : W16) (sc : BitVec 2) (id : Nat) : Nat → W64 → Bool → List W8 → List (List W8)
  | 0, _, _, _ => []
  | k + 1, dst, first, l =>
    let part := l.take 224
    let rest := l.drop 224
    copyLoad dst asid sc first rest.isEmpty id part ::
      if rest.isEmpty then [] else copyFlits asid sc id k (dst + 224) false rest

/-- The step that a flit passed upward makes: a message, or part of a copy. -/
def arrivalOf (n : Nat) (f : BitVec 2048) : Instr :=
  let src : W16 := BitVec.ofNat 16 (flitGet f 6 2)
  if 2 ≤ flitGet f 8 1 then
    let w := flitGet f 78 2
    .fabricMessageArrival ⟨flitGet f 80 4, flitGet f 16 4, flitGet f 20 2, BitVec.ofNat 16 (flitGet f 48 2), false, none, flitGet f 76 2 % 512, flitGet f 8 1 == 2,
      if 32768 ≤ w then some (w % 32768) else none, some (src, n), f.extractLsb' 96 512, none⟩
  else
    let k := flitGet f 22 1
    .copyPeerArrival src (BitVec.ofNat 16 (flitGet f 20 2)) (BitVec.ofNat 64 (flitGet f 12 8))
      ((List.range (flitGet f 9 1 - 16)).map fun i => f.extractLsb' (8 * (28 + i)) 8) (BitVec.ofNat 2 k)
      ⟨n, flitGet f 24 4, k / 64 % 2 == 1, k / 128 == 1⟩
/-- A step of another package's message, of its copy. -/
def isMessage : Instr → Bool
  | .fabricMessageArrival _ => true
  | _ => false
/-- The first of a port's messages, or of its copy flits. -/
def Port.next (p : Port) (message : Bool) : Option Instr := p.inbox.find? fun i => isMessage i == message
/-- A step passed upward by a port is over: the next of its kind comes. -/
def State.nextArrival (s : State) (n : Nat) (i : Instr) : State :=
  let s1 := s.setPort n { s.port n with inbox := (s.port n).inbox.erase i }
  match (s1.port n).next (isMessage i) with
  | some j => s1.urge j
  | none => s1
/-- A data flit is passed upward: the first of its kind comes at once, others after those before them (R434, R448). -/
def State.passUp (s : State) (n : Nat) (f : BitVec 2048) : State :=
  let i := arrivalOf n f
  let s1 := s.setPort n { s.port n with inbox := (s.port n).inbox ++ [i] }
  if ((s.port n).next (isMessage i)).isSome then s1 else s1.urge i

/-- A copy from another package ends with a fault here: its sender is told, and its later flits go (R204, R439). -/
def State.failCopy (s : State) (i : Instr) (src : W16) (tag : CopyFlit) (code : W8) (ea : W64) : State :=
  let s1 := s.nextArrival tag.port i
  let s2 := if tag.last then s1
    else s1.setPort tag.port { s1.port tag.port with failed := (s1.port tag.port).failed ++ [(src, tag.id)] }
  s2.reply tag.port src (tokenErr code ea) tag.id true

/-- An answer to what this package sent (R439, R441): the token of a copy may fill, the status of a message too. -/
def answerStep (v : W64) (id : Nat) (copy : Bool) : Instr → Instr
  | .copyCompletion r =>
    if copy && r.kind == .peer && r.id % 2 ^ 32 == id && !r.lines.isEmpty then .copyCompletion { r with status := v, lines := [] }
    else .copyCompletion r
  | .mailboxDelivery p =>
    if !copy && p.fabric.isSome && p.id % 2 ^ 32 == id && p.answer.isNone then .mailboxDelivery { p with answer := some v }
    else .mailboxDelivery p
  | i => i
def State.answered (s : State) (f : BitVec 2048) : State :=
  { s with
    pool := s.pool.map (answerStep (BitVec.ofNat 64 (flitGet f 12 8)) (flitGet f 20 4) (flitGet f 24 1 == 1)) }

end Sys2Proof.Machine
end

