-- ==== Sys2Proof/Machine/Flags.lean ====
section
/-! DEFINITION. Flag computations: how a floating-point result ends its word (R131, R215), and the mode, the conversion
count and SRSUB of a conversion (R225-R227). -/

namespace Sys2Proof.Machine

/-- The flags that are exceptions (R131): a word that traps has no result that a draw would have decided, so it sets no SRSUB
(R227, R232; log entry 79). -/
def exceptions : BitVec 6 := 0x1F

/-- Exceptions that are enabled (R18: FT and the flags have one order). -/
def Thread.trapped (t : Thread) (fl : BitVec 6) : Bool := (fl.extractLsb' 0 5 &&& t.ft) != 0

/-- End a floating-point word: the sticky flags are set; an enabled exception traps with cause 0x0C, its detail naming
the raised exceptions, and nothing is written (R36, R131); else the result is written. -/
def fpEnd (s : State) (t : Tid) (th : Thread) (r : FRes) (wr : Thread → Nat → Thread) : Res :=
  if th.trapped r.fl then .trap (s.raise t th (r.fl &&& exceptions)) .fp ((r.fl.extractLsb' 0 5).zeroExtend 8) 0
  else .done (s.raise t (wr th.retire r.v) r.fl)

/-- Stochastic rounding is selected (R19). -/
def Thread.stochastic (t : Thread) : Bool := t.rm == 5

/-- The rounding of element `e` of a conversion: the draw of R225 under RM = 5, to nearest even in a deterministic
launch, with R225's treatment of a value above the largest finite one (R227). -/
def Thread.cvtMode (t : Thread) (e : Nat) : Mode :=
  if t.stochastic then
    if t.det then .det
    else .sr (drawU (t.lau.seed ^^^ t.srk.zeroExtend 64)
      (t.c.ord.zeroExtend 64 <<< 32 ||| (t.c.cvc + BitVec.ofNat 32 e).zeroExtend 64))
  else modeOf t.rm

/-- The flags of a conversion with SRSUB (R227). -/
def Thread.cvtFlags (t : Thread) (fl : BitVec 6) (draw : Bool) : BitVec 6 :=
  if t.stochastic && t.det && draw then fl ||| fSRSUB else fl

/-- A conversion of `n` elements counts them under RM = 5 (R225, R227). -/
def Thread.countCvt (t : Thread) (n : Nat) : Thread :=
  if t.stochastic then t.modC fun c => { c with cvc := c.cvc + BitVec.ofNat 32 n } else t

/-- End a scalar conversion that rounds (R135). A word that traps counts nothing (R226). -/
def cvtEnd (s : State) (t : Tid) (th : Thread) (r : FRes) (wr : Thread → Nat → Thread) : Res :=
  fpEnd s t th { r with fl := th.cvtFlags r.fl r.draw } fun u v => (wr u v).countCvt 1

end Sys2Proof.Machine
end

