-- ==== Sys2Proof/Machine/Scalar.lean ====
section
/-! DEFINITION. Integer arithmetic and logic, bit fields, moves, immediate forms, compares and predicates (R122-R130). -/

namespace Sys2Proof.Machine

open Host (Outcome)

/-! ## What the words name (R74, R76) -/

def qRr3 (o : Rr3) : Issue := { guard := some (o.pg, o.pn), srcs := [o.sa, o.sb], dsts := [o.sd] }
def qRr2 (o : Rr2) : Issue := { guard := some (o.pg, o.pn), srcs := [o.sa], dsts := [o.sd] }
def qRrD (o : RrD) : Issue := { guard := some (o.pg, o.pn), dsts := [o.sd] }
def qRrA (o : RrA) : Issue := { guard := some (o.pg, o.pn), srcs := [o.sa] }
/-- `SD` names a predicate (R128). -/
def qRr3P (o : Rr3) : Issue := { guard := some (o.pg, o.pn), srcs := [o.sa, o.sb] }
def qPr3 (o : Pr3) : Issue := { guard := some (o.pg, o.pn) }
def qPr2 (o : Pr2) : Issue := { guard := some (o.pg, o.pn) }
def qRi (o : Ri) : Issue := { srcs := [o.sa], dsts := [o.sd] }
def qRiP (o : Ri) : Issue := { srcs := [o.sa] }

/-! ## Operation widths (R110) -/

/-- A binary function at the width that `W` selects, sign-extended. -/
def atW2 (w : BitVec 1) (f : (n : Nat) → BitVec n → BitVec n → BitVec n) (a b : W64) : W64 :=
  if w = 1 then f 64 a b else (f 32 (a.extractLsb' 0 32) (b.extractLsb' 0 32)).signExtend 64
def atW1 (w : BitVec 1) (f : (n : Nat) → BitVec n → BitVec n) (a : W64) : W64 :=
  if w = 1 then f 64 a else (f 32 (a.extractLsb' 0 32)).signExtend 64
/-- A condition at the width that `W` selects. -/
def condW (w : BitVec 1) (f : (n : Nat) → BitVec n → BitVec n → Bool) (a b : W64) : Bool :=
  if w = 1 then f 64 a b else f 32 (a.extractLsb' 0 32) (b.extractLsb' 0 32)

/-! ## Functions (R122, R123) -/

def fnMulh (n : Nat) (a b : BitVec n) : BitVec n := BitVec.ofInt n (a.toInt * b.toInt / 2 ^ n)
def fnMulhu (n : Nat) (a b : BitVec n) : BitVec n := BitVec.ofNat n (a.toNat * b.toNat / 2 ^ n)
def fnShl (n : Nat) (a b : BitVec n) : BitVec n := a <<< (b.toNat % n)
def fnShr (n : Nat) (a b : BitVec n) : BitVec n := a >>> (b.toNat % n)
def fnSra (n : Nat) (a b : BitVec n) : BitVec n := a.sshiftRight (b.toNat % n)
def fnRot (n : Nat) (a b : BitVec n) : BitVec n := (a <<< (b.toNat % n)) ||| (a >>> (n - b.toNat % n))
def fnMin (n : Nat) (a b : BitVec n) : BitVec n := if a.sle b then a else b
def fnMax (n : Nat) (a b : BitVec n) : BitVec n := if b.sle a then a else b
def fnMinu (n : Nat) (a b : BitVec n) : BitVec n := if a.ule b then a else b
def fnMaxu (n : Nat) (a b : BitVec n) : BitVec n := if b.ule a then a else b
/-- Division truncates; by zero it gives all ones (R123). -/
def fnDiv (n : Nat) (a b : BitVec n) : BitVec n := if b = 0 then BitVec.allOnes n else BitVec.ofInt n (a.toInt.tdiv b.toInt)
def fnDivu (n : Nat) (a b : BitVec n) : BitVec n := if b = 0 then BitVec.allOnes n else BitVec.ofNat n (a.toNat / b.toNat)
/-- The remainder takes the dividend's sign; by zero it is the dividend (R123). -/
def fnRem (n : Nat) (a b : BitVec n) : BitVec n := if b = 0 then a else BitVec.ofInt n (a.toInt.tmod b.toInt)
def fnRemu (n : Nat) (a b : BitVec n) : BitVec n := if b = 0 then a else BitVec.ofNat n (a.toNat % b.toNat)
def fnClz (n : Nat) (a : BitVec n) : BitVec n :=
  BitVec.ofNat n (((List.range n).find? fun i => a.getLsbD (n - 1 - i)).getD n)
def fnCtz (n : Nat) (a : BitVec n) : BitVec n := BitVec.ofNat n (((List.range n).find? fun i => a.getLsbD i).getD n)
def fnPopc (n : Nat) (a : BitVec n) : BitVec n := BitVec.ofNat n ((List.range n).countP fun i => a.getLsbD i)
/-- Bits `i` of the result for `i` below `k`, by a rule. -/
def bitsOf (n : Nat) (p : Nat → Bool) : Nat → BitVec n
  | 0 => 0
  | k + 1 => bitsOf n p k ||| (if p k then 1#n <<< k else 0)
def fnBrev (n : Nat) (a : BitVec n) : BitVec n := bitsOf n (fun i => a.getLsbD (n - 1 - i)) n
def fnBswap (n : Nat) (a : BitVec n) : BitVec n := bitsOf n (fun i => a.getLsbD (8 * (n / 8 - 1 - i / 8) + i % 8)) n
def fnLea (k : Nat) (n : Nat) (a b : BitVec n) : BitVec n := a + (b <<< k)

/-- A word of `alu` or `alx` with two sources. -/
def rr3 (o : Rr3) (f : (n : Nat) → BitVec n → BitVec n → BitVec n) (s : State) : Outcome State Fault Refusal :=
  issue (qRr3 o) s (writesX o.sd fun th => atW2 o.w f (th.src o.sa) (th.src o.sb))
/-- A word of `alx` with one source. -/
def rr2 (o : Rr2) (f : (n : Nat) → BitVec n → BitVec n) (s : State) : Outcome State Fault Refusal :=
  issue (qRr2 o) s (writesX o.sd fun th => atW1 o.w f (th.src o.sa))

/-- `alu.add (R122)`. -/
def execAluAdd (o : Rr3) (s : State) : Outcome State Fault Refusal :=
  rr3 o (fun _ a b => a + b) s

/-- `alu.sub (R122)`. -/
def execAluSub (o : Rr3) (s : State) : Outcome State Fault Refusal :=
  rr3 o (fun _ a b => a - b) s

/-- `alu.mul (R122)`. -/
def execAluMul (o : Rr3) (s : State) : Outcome State Fault Refusal :=
  rr3 o (fun _ a b => a * b) s

/-- `alu.mulh (R122)`. -/
def execAluMulh (o : Rr3) (s : State) : Outcome State Fault Refusal :=
  rr3 o (fnMulh) s

/-- `alu.mulhu (R122)`. -/
def execAluMulhu (o : Rr3) (s : State) : Outcome State Fault Refusal :=
  rr3 o (fnMulhu) s

/-- `alu.and (R122)`. -/
def execAluAnd (o : Rr3) (s : State) : Outcome State Fault Refusal :=
  rr3 o (fun _ a b => a &&& b) s

/-- `alu.or (R122)`. -/
def execAluOr (o : Rr3) (s : State) : Outcome State Fault Refusal :=
  rr3 o (fun _ a b => a ||| b) s

/-- `alu.xor (R122)`. -/
def execAluXor (o : Rr3) (s : State) : Outcome State Fault Refusal :=
  rr3 o (fun _ a b => a ^^^ b) s

/-- `alu.andn (R122)`. -/
def execAluAndn (o : Rr3) (s : State) : Outcome State Fault Refusal :=
  rr3 o (fun _ a b => a &&& ~~~b) s

/-- `alu.orn (R122)`. -/
def execAluOrn (o : Rr3) (s : State) : Outcome State Fault Refusal :=
  rr3 o (fun _ a b => a ||| ~~~b) s

/-- `alu.shl (R122)`. -/
def execAluShl (o : Rr3) (s : State) : Outcome State Fault Refusal :=
  rr3 o (fnShl) s

/-- `alu.shr (R122)`. -/
def execAluShr (o : Rr3) (s : State) : Outcome State Fault Refusal :=
  rr3 o (fnShr) s

/-- `alu.sra (R122)`. -/
def execAluSra (o : Rr3) (s : State) : Outcome State Fault Refusal :=
  rr3 o (fnSra) s

/-- `alu.rot (R122)`. -/
def execAluRot (o : Rr3) (s : State) : Outcome State Fault Refusal :=
  rr3 o (fnRot) s

/-- `alu.min (R122)`. -/
def execAluMin (o : Rr3) (s : State) : Outcome State Fault Refusal :=
  rr3 o (fnMin) s

/-- `alu.max (R122)`. -/
def execAluMax (o : Rr3) (s : State) : Outcome State Fault Refusal :=
  rr3 o (fnMax) s

/-- `alx.minu (R122)`. -/
def execAlxMinu (o : Rr3) (s : State) : Outcome State Fault Refusal :=
  rr3 o fnMinu s

/-- `alx.maxu (R122)`. -/
def execAlxMaxu (o : Rr3) (s : State) : Outcome State Fault Refusal :=
  rr3 o fnMaxu s

/-- `alx.div (R123)`. -/
def execAlxDiv (o : Rr3) (s : State) : Outcome State Fault Refusal :=
  rr3 o fnDiv s

/-- `alx.divu (R123)`. -/
def execAlxDivu (o : Rr3) (s : State) : Outcome State Fault Refusal :=
  rr3 o fnDivu s

/-- `alx.rem (R123)`. -/
def execAlxRem (o : Rr3) (s : State) : Outcome State Fault Refusal :=
  rr3 o fnRem s

/-- `alx.remu (R123)`. -/
def execAlxRemu (o : Rr3) (s : State) : Outcome State Fault Refusal :=
  rr3 o fnRemu s

/-- `alx.clz (R122)`. -/
def execAlxClz (o : Rr2) (s : State) : Outcome State Fault Refusal :=
  rr2 o fnClz s

/-- `alx.ctz (R122)`. -/
def execAlxCtz (o : Rr2) (s : State) : Outcome State Fault Refusal :=
  rr2 o fnCtz s

/-- `alx.popc (R122)`. -/
def execAlxPopc (o : Rr2) (s : State) : Outcome State Fault Refusal :=
  rr2 o fnPopc s

/-- `alx.brev (R122)`. -/
def execAlxBrev (o : Rr2) (s : State) : Outcome State Fault Refusal :=
  rr2 o fnBrev s

/-- `alx.bswap (R122)`. -/
def execAlxBswap (o : Rr2) (s : State) : Outcome State Fault Refusal :=
  rr2 o fnBswap s

/-- `alx.sel (R122): the mask is the old destination`. -/
def execAlxSel (o : Rr3) (s : State) : Outcome State Fault Refusal :=
  issue (qRr3 o) s (writesX o.sd fun th => sextW o.w (((th.src o.sa) &&& th.x o.sd) ||| ((th.src o.sb) &&& ~~~(th.x o.sd))))

/-- `alx.lea1 (R122)`. -/
def execAlxLea1 (o : Rr3) (s : State) : Outcome State Fault Refusal :=
  rr3 o (fnLea 1) s

/-- `alx.lea2 (R122)`. -/
def execAlxLea2 (o : Rr3) (s : State) : Outcome State Fault Refusal :=
  rr3 o (fnLea 2) s

/-- `alx.lea3 (R122)`. -/
def execAlxLea3 (o : Rr3) (s : State) : Outcome State Fault Refusal :=
  rr3 o (fnLea 3) s

/-- `alx.lea4 (R122)`. -/
def execAlxLea4 (o : Rr3) (s : State) : Outcome State Fault Refusal :=
  rr3 o (fnLea 4) s

/-! ## Bit fields (R124) -/

/-- The length of a field, cut at bit n - 1. -/
def fieldLen (w : BitVec 1) (desc : W64) : Nat :=
  let pos := (desc.extractLsb' 0 6).toNat
  if pos < opWidth w then min (desc.extractLsb' 8 7).toNat (opWidth w - pos) else 0
/-- The field of a word, and whether its top bit is set. -/
def fieldVal (w : BitVec 1) (v desc : W64) : Nat :=
  v.toNat % 2 ^ opWidth w / 2 ^ (desc.extractLsb' 0 6).toNat % 2 ^ fieldLen w desc
def fieldExt (w : BitVec 1) (v desc : W64) : W64 :=
  let l := fieldLen w desc
  let f := fieldVal w v desc
  if l ≠ 0 ∧ f / 2 ^ (l - 1) % 2 = 1 then BitVec.ofInt 64 ((f : Int) - 2 ^ l) else BitVec.ofNat 64 f
def fieldIns (w : BitVec 1) (d v desc : W64) : W64 :=
  let m : W64 := BitVec.ofNat 64 ((2 ^ fieldLen w desc - 1) <<< (desc.extractLsb' 0 6).toNat)
  (d &&& ~~~m) ||| ((v <<< (desc.extractLsb' 0 6).toNat) &&& m)

/-- `bits.ext (R124)`. -/
def execBitsExt (o : Rr3) (s : State) : Outcome State Fault Refusal :=
  issue (qRr3 o) s (writesX o.sd fun th => sextW o.w (fieldExt o.w (th.src o.sa) (th.src o.sb)))

/-- `bits.extu (R124)`. -/
def execBitsExtu (o : Rr3) (s : State) : Outcome State Fault Refusal :=
  issue (qRr3 o) s (writesX o.sd fun th => sextW o.w (BitVec.ofNat 64 (fieldVal o.w (th.src o.sa) (th.src o.sb))))

/-- `bits.ins (R124)`. -/
def execBitsIns (o : Rr3) (s : State) : Outcome State Fault Refusal :=
  issue (qRr3 o) s (writesX o.sd fun th => sextW o.w (fieldIns o.w (th.x o.sd) (th.src o.sa) (th.src o.sb)))

/-! ## Moves (R125) -/

/-- `mov.mov (R125)`. -/
def execMovMov (o : Rr2) (s : State) : Outcome State Fault Refusal :=
  issue (qRr2 o) s (writesX o.sd fun th => th.src o.sa)

/-- `mov.movp (R125): bit 0 reads 1`. -/
def execMovMovp (o : RrD) (s : State) : Outcome State Fault Refusal :=
  issue (qRrD o) s (writesX o.sd fun th => (th.c.pred ||| 1).zeroExtend 64)

/-- `mov.setp (R125): bit 0 and bits above 15 are ignored`. -/
def execMovSetp (o : RrA) (s : State) : Outcome State Fault Refusal :=
  issue (qRrA o) s (onThread fun th => th.retire.modC fun c => { c with pred := (th.src o.sa).extractLsb' 0 16 ||| 1 })

/-- `mov.zx8 (R125)`. -/
def execMovZx8 (o : Rr2) (s : State) : Outcome State Fault Refusal :=
  issue (qRr2 o) s (writesX o.sd fun th => ((th.src o.sa).extractLsb' 0 8).zeroExtend 64)

/-- `mov.zx16 (R125)`. -/
def execMovZx16 (o : Rr2) (s : State) : Outcome State Fault Refusal :=
  issue (qRr2 o) s (writesX o.sd fun th => ((th.src o.sa).extractLsb' 0 16).zeroExtend 64)

/-- `mov.zx32 (R125)`. -/
def execMovZx32 (o : Rr2) (s : State) : Outcome State Fault Refusal :=
  issue (qRr2 o) s (writesX o.sd fun th => ((th.src o.sa).extractLsb' 0 32).zeroExtend 64)

/-- `mov.sx8 (R125)`. -/
def execMovSx8 (o : Rr2) (s : State) : Outcome State Fault Refusal :=
  issue (qRr2 o) s (writesX o.sd fun th => ((th.src o.sa).extractLsb' 0 8).signExtend 64)

/-- `mov.sx16 (R125)`. -/
def execMovSx16 (o : Rr2) (s : State) : Outcome State Fault Refusal :=
  issue (qRr2 o) s (writesX o.sd fun th => ((th.src o.sa).extractLsb' 0 16).signExtend 64)

/-- `mov.sx32 (R125)`. -/
def execMovSx32 (o : Rr2) (s : State) : Outcome State Fault Refusal :=
  issue (qRr2 o) s (writesX o.sd fun th => ((th.src o.sa).extractLsb' 0 32).signExtend 64)

/-! ## Immediate forms (R126) -/

/-- `addi (R126)`. -/
def execAddi (o : Ri) (s : State) : Outcome State Fault Refusal :=
  issue (qRi o) s (writesX o.sd fun th => th.src o.sa + th.immRI o.imm)

/-- `andi (R126)`. -/
def execAndi (o : Ri) (s : State) : Outcome State Fault Refusal :=
  issue (qRi o) s (writesX o.sd fun th => th.src o.sa &&& th.immRI o.imm)

/-- `ori (R126)`. -/
def execOri (o : Ri) (s : State) : Outcome State Fault Refusal :=
  issue (qRi o) s (writesX o.sd fun th => th.src o.sa ||| th.immRI o.imm)

/-- `xori (R126)`. -/
def execXori (o : Ri) (s : State) : Outcome State Fault Refusal :=
  issue (qRi o) s (writesX o.sd fun th => th.src o.sa ^^^ th.immRI o.imm)

/-- `shli (R126)`. -/
def execShli (o : Ri) (s : State) : Outcome State Fault Refusal :=
  issue (qRi o) s (writesX o.sd fun th => th.src o.sa <<< ((th.immRI o.imm).toNat % 64))

/-- `shri (R126)`. -/
def execShri (o : Ri) (s : State) : Outcome State Fault Refusal :=
  issue (qRi o) s (writesX o.sd fun th => th.src o.sa >>> ((th.immRI o.imm).toNat % 64))

/-- `srai (R126)`. -/
def execSrai (o : Ri) (s : State) : Outcome State Fault Refusal :=
  issue (qRi o) s (writesX o.sd fun th => (th.src o.sa).sshiftRight ((th.immRI o.imm).toNat % 64))

/-- `li (R126): `SA` is not read (R111)`. -/
def execLi (o : RiD) (s : State) : Outcome State Fault Refusal :=
  issue { dsts := [o.sd] } s (writesX o.sd fun th => th.immRI o.imm)

/-- `lhi (R126)`. -/
def execLhi (o : Ri) (s : State) : Outcome State Fault Refusal :=
  issue (qRi o) s (writesX o.sd fun th => (th.immRI o.imm).extractLsb' 0 32 ++ (th.src o.sa).extractLsb' 0 32)

/-- `muli (R126)`. -/
def execMuli (o : Ri) (s : State) : Outcome State Fault Refusal :=
  issue (qRi o) s (writesX o.sd fun th => th.src o.sa * th.immRI o.imm)

/-! ## Compares and predicates (R128-R130) -/

/-- A word that writes one predicate. -/
def writesP (d : BitVec 4) (f : Thread → Bool) : Body := onThread fun th => th.retire.setP d (f th)
def cmpBody (o : Rr3) (f : (n : Nat) → BitVec n → BitVec n → Bool) (s : State) : Outcome State Fault Refusal :=
  issue (qRr3P o) s (writesP o.sd fun th => condW o.w f (th.src o.sa) (th.src o.sb))

/-- `cmp.eq (R128)`. -/
def execCmpEq (o : Rr3) (s : State) : Outcome State Fault Refusal :=
  cmpBody o (fun _ a b => a == b) s

/-- `cmp.ne (R128)`. -/
def execCmpNe (o : Rr3) (s : State) : Outcome State Fault Refusal :=
  cmpBody o (fun _ a b => a != b) s

/-- `cmp.lt (R128)`. -/
def execCmpLt (o : Rr3) (s : State) : Outcome State Fault Refusal :=
  cmpBody o (fun _ a b => a.slt b) s

/-- `cmp.ltu (R128)`. -/
def execCmpLtu (o : Rr3) (s : State) : Outcome State Fault Refusal :=
  cmpBody o (fun _ a b => a.ult b) s

/-- `cmp.le (R128)`. -/
def execCmpLe (o : Rr3) (s : State) : Outcome State Fault Refusal :=
  cmpBody o (fun _ a b => a.sle b) s

/-- `cmp.leu (R128)`. -/
def execCmpLeu (o : Rr3) (s : State) : Outcome State Fault Refusal :=
  cmpBody o (fun _ a b => a.ule b) s

/-- `cmp.gt (R128)`. -/
def execCmpGt (o : Rr3) (s : State) : Outcome State Fault Refusal :=
  cmpBody o (fun _ a b => b.slt a) s

/-- `cmp.gtu (R128)`. -/
def execCmpGtu (o : Rr3) (s : State) : Outcome State Fault Refusal :=
  cmpBody o (fun _ a b => b.ult a) s

/-- `cmp.ge (R128)`. -/
def execCmpGe (o : Rr3) (s : State) : Outcome State Fault Refusal :=
  cmpBody o (fun _ a b => b.sle a) s

/-- `cmp.geu (R128)`. -/
def execCmpGeu (o : Rr3) (s : State) : Outcome State Fault Refusal :=
  cmpBody o (fun _ a b => b.ule a) s

/-- `cmp.tst (R128)`. -/
def execCmpTst (o : Rr3) (s : State) : Outcome State Fault Refusal :=
  cmpBody o (fun _ a b => a &&& b != 0) s

/-- `ceqi (R129)`. -/
def execCeqi (o : Ri) (s : State) : Outcome State Fault Refusal :=
  issue (qRiP o) s (writesP o.sd fun th => th.src o.sa == th.immRI o.imm)

/-- `clti (R129)`. -/
def execClti (o : Ri) (s : State) : Outcome State Fault Refusal :=
  issue (qRiP o) s (writesP o.sd fun th => (th.src o.sa).slt (th.immRI o.imm))

/-- `cltui (R129)`. -/
def execCltui (o : Ri) (s : State) : Outcome State Fault Refusal :=
  issue (qRiP o) s (writesP o.sd fun th => (th.src o.sa).ult (th.immRI o.imm))

/-- `pred.and (R130)`. -/
def execPredAnd (o : Pr3) (s : State) : Outcome State Fault Refusal :=
  issue (qPr3 o) s (writesP o.pd fun th => th.p o.pa && th.p o.pb)

/-- `pred.or (R130)`. -/
def execPredOr (o : Pr3) (s : State) : Outcome State Fault Refusal :=
  issue (qPr3 o) s (writesP o.pd fun th => th.p o.pa || th.p o.pb)

/-- `pred.xor (R130)`. -/
def execPredXor (o : Pr3) (s : State) : Outcome State Fault Refusal :=
  issue (qPr3 o) s (writesP o.pd fun th => xor (th.p o.pa) (th.p o.pb))

/-- `pred.andn (R130)`. -/
def execPredAndn (o : Pr3) (s : State) : Outcome State Fault Refusal :=
  issue (qPr3 o) s (writesP o.pd fun th => th.p o.pa && !th.p o.pb)

/-- `pred.not (R130)`. -/
def execPredNot (o : Pr2) (s : State) : Outcome State Fault Refusal :=
  issue (qPr2 o) s (writesP o.pd fun th => !th.p o.pa)

/-- `pred.mov (R130)`. -/
def execPredMov (o : Pr2) (s : State) : Outcome State Fault Refusal :=
  issue (qPr2 o) s (writesP o.pd fun th => th.p o.pa)

end Sys2Proof.Machine
end

