-- ==== Sys2Proof/Machine/Fpu.lean ====
section
/-! DEFINITION. Scalar floating point (R131-R137). -/

namespace Sys2Proof.Machine

open Host (Outcome)

def wFmt (w : BitVec 1) : Fmt := if w = 1 then fp64 else fp32
/-- A source in the format that `W` selects (R131). -/
def Thread.fsrc (t : Thread) (w : BitVec 1) (f : BitVec 5) : Nat := (t.src f).toNat % 2 ^ (wFmt w).width
def Thread.fdst (t : Thread) (w : BitVec 1) (d : BitVec 4) : Nat := (t.x d).toNat % 2 ^ (wFmt w).width

/-- An `fpu` word with two sources. -/
def fpu3 (o : Rr3) (f : Fmt → Mode → Thread → FVal → FVal → FRes) (s : State) : Outcome State Fault Refusal :=
  issue (qRr3 o) s fun s t th =>
    fpEnd s t th (f (wFmt o.w) (modeOf th.rm) th ((wFmt o.w).unpack (th.fsrc o.w o.sa)) ((wFmt o.w).unpack (th.fsrc o.w o.sb)))
      fun u v => u.setX o.sd (BitVec.ofNat 64 v)
/-- An `fpu` word with one source. -/
def fpu2 (o : Rr2) (f : Fmt → Mode → FVal → FRes) (s : State) : Outcome State Fault Refusal :=
  issue (qRr2 o) s fun s t th =>
    fpEnd s t th (f (wFmt o.w) (modeOf th.rm) ((wFmt o.w).unpack (th.fsrc o.w o.sa)))
      fun u v => u.setX o.sd (BitVec.ofNat 64 v)
/-- The addend of a fused word: the old destination (R132). -/
def addend (o : Rr3) (th : Thread) : FVal := (wFmt o.w).unpack (th.fdst o.w o.sd)

/-- `fpu.fadd` (R132). -/
def execFpuFadd (o : Rr3) (s : State) : Outcome State Fault Refusal :=
  fpu3 o (fun f m _ x y => f.add m x y) s

/-- `fpu.fsub` (R132). -/
def execFpuFsub (o : Rr3) (s : State) : Outcome State Fault Refusal :=
  fpu3 o (fun f m _ x y => f.add m x y.negate) s

/-- `fpu.fmul` (R132). -/
def execFpuFmul (o : Rr3) (s : State) : Outcome State Fault Refusal :=
  fpu3 o (fun f m _ x y => f.mul m x y) s

/-- `fpu.fdiv` (R132). -/
def execFpuFdiv (o : Rr3) (s : State) : Outcome State Fault Refusal :=
  fpu3 o (fun f m _ x y => f.div m x y) s

/-- `fpu.fsqrt` (R132). -/
def execFpuFsqrt (o : Rr2) (s : State) : Outcome State Fault Refusal :=
  fpu2 o (fun f m x => f.sqrt m x) s

/-- `fpu.fmin` (R133). -/
def execFpuFmin (o : Rr3) (s : State) : Outcome State Fault Refusal :=
  issue (qRr3 o) s fun s t th =>
    fpEnd s t th ((wFmt o.w).minmax false (th.fsrc o.w o.sa) (th.fsrc o.w o.sb)) fun u v => u.setX o.sd (BitVec.ofNat 64 v)

/-- `fpu.fmax` (R133). -/
def execFpuFmax (o : Rr3) (s : State) : Outcome State Fault Refusal :=
  issue (qRr3 o) s fun s t th =>
    fpEnd s t th ((wFmt o.w).minmax true (th.fsrc o.w o.sa) (th.fsrc o.w o.sb)) fun u v => u.setX o.sd (BitVec.ofNat 64 v)

/-- The sign bit of the format that `W` selects. -/
def signOf (w : BitVec 1) : W64 := BitVec.ofNat 64 (wFmt w).signBit
/-- The low bits of the format that `W` selects; an FP32 result has zeros above (R131). -/
def cutW (w : BitVec 1) (v : W64) : W64 := if w = 1 then v else (v.extractLsb' 0 32).zeroExtend 64

/-- `fpu.fabs` (R132): a bit operation. -/
def execFpuFabs (o : Rr2) (s : State) : Outcome State Fault Refusal :=
  issue (qRr2 o) s (writesX o.sd fun th => cutW o.w (th.src o.sa) &&& ~~~(signOf o.w))

/-- `fpu.fneg` (R132): a bit operation. -/
def execFpuFneg (o : Rr2) (s : State) : Outcome State Fault Refusal :=
  issue (qRr2 o) s (writesX o.sd fun th => cutW o.w (th.src o.sa) ^^^ signOf o.w)

/-- `fpu.fsgnj` (R132): a bit operation. -/
def execFpuFsgnj (o : Rr3) (s : State) : Outcome State Fault Refusal :=
  issue (qRr3 o) s (writesX o.sd fun th =>
    (cutW o.w (th.src o.sa) &&& ~~~(signOf o.w)) ||| (cutW o.w (th.src o.sb) &&& signOf o.w))

/-- `fpu.fma` (R132). -/
def execFpuFma (o : Rr3) (s : State) : Outcome State Fault Refusal :=
  fpu3 o (fun f m th x y => f.fma m x y (addend o th)) s

/-- `fpu.fms` (R132). -/
def execFpuFms (o : Rr3) (s : State) : Outcome State Fault Refusal :=
  fpu3 o (fun f m th x y => f.fma m x y (addend o th).negate) s

/-- `fpu.fnma` (R132): z - x × y. -/
def execFpuFnma (o : Rr3) (s : State) : Outcome State Fault Refusal :=
  fpu3 o (fun f m th x y => f.fma m x.negate y (addend o th)) s

/-- `fpu.fclass` (R134). -/
def execFpuFclass (o : Rr2) (s : State) : Outcome State Fault Refusal :=
  issue (qRr2 o) s (writesX o.sd fun th => BitVec.ofNat 64 ((wFmt o.w).classMask (th.fsrc o.w o.sa)))

/-! ## Conversions (R135, R136) -/

/-- A conversion that rounds (R135, R224-R227). -/
def cvtRound (o : Rr2) (f : Mode → Thread → FRes) (s : State) : Outcome State Fault Refusal :=
  issue (qRr2 o) s fun s t th => cvtEnd s t th (f (th.cvtMode 0) th) fun u v => u.setX o.sd (BitVec.ofNat 64 v)
/-- A conversion that is exact (R135). -/
def cvtExact (o : Rr2) (f : Thread → FRes) (s : State) : Outcome State Fault Refusal :=
  issue (qRr2 o) s fun s t th => fpEnd s t th (f th) fun u v => u.setX o.sd (BitVec.ofNat 64 v)
/-- A result of `toIntRes` as 64 bits. -/
def intRes (r : Int × BitVec 6 × Bool) : FRes := ⟨intBits 64 r.1, r.2.1, r.2.2⟩

/-- `fcvt.i2f` (R135). -/
def execFcvtI2f (o : Rr2) (s : State) : Outcome State Fault Refusal :=
  cvtRound o (fun m th => (wFmt o.w).ofInt m (th.src o.sa).toInt) s

/-- `fcvt.u2f` (R135). -/
def execFcvtU2f (o : Rr2) (s : State) : Outcome State Fault Refusal :=
  cvtRound o (fun m th => (wFmt o.w).ofInt m ((th.src o.sa).toNat : Int)) s

/-- `fcvt.f2i` (R136). -/
def execFcvtF2i (o : Rr2) (s : State) : Outcome State Fault Refusal :=
  cvtRound o (fun m th => intRes (toIntRes m (-(2 ^ 63)) (2 ^ 63 - 1) ((wFmt o.w).unpack (th.fsrc o.w o.sa)))) s

/-- `fcvt.f2u` (R136). -/
def execFcvtF2u (o : Rr2) (s : State) : Outcome State Fault Refusal :=
  cvtRound o (fun m th => intRes (toIntRes m 0 (2 ^ 64 - 1) ((wFmt o.w).unpack (th.fsrc o.w o.sa)))) s

/-- `fcvt.f2f` (R135): `W` = 0 narrows FP64, `W` = 1 widens FP32 exactly. -/
def execFcvtF2f (o : Rr2) (s : State) : Outcome State Fault Refusal :=
  if o.w = 1 then cvtExact o (fun th => fp64.convert .rne (fp32.unpack (th.fsrc 0 o.sa))) s
  else cvtRound o (fun m th => fp32.convert m (fp64.unpack (th.fsrc 1 o.sa))) s

/-- `fcvt.tobf16` (R135). -/
def execFcvtTobf16 (o : Rr2) (s : State) : Outcome State Fault Refusal :=
  cvtRound o (fun m th => bf16.convert m ((wFmt o.w).unpack (th.fsrc o.w o.sa))) s

/-- `fcvt.frombf16` (R135). -/
def execFcvtFrombf16 (o : Rr2) (s : State) : Outcome State Fault Refusal :=
  cvtExact o (fun th => (wFmt o.w).convert .rne (bf16.unpack ((th.src o.sa).toNat % 2 ^ 16))) s

/-- `fcvt.tofp16` (R135). -/
def execFcvtTofp16 (o : Rr2) (s : State) : Outcome State Fault Refusal :=
  cvtRound o (fun m th => fp16.convert m ((wFmt o.w).unpack (th.fsrc o.w o.sa))) s

/-- `fcvt.fromfp16` (R135). -/
def execFcvtFromfp16 (o : Rr2) (s : State) : Outcome State Fault Refusal :=
  cvtExact o (fun th => (wFmt o.w).convert .rne (fp16.unpack ((th.src o.sa).toNat % 2 ^ 16))) s

/-! ## Compares (R137) -/

/-- An `fcmp` word: the condition on two ordered values, what an unordered pair gives, and whether a quiet NaN raises
NV. -/
def fcmpBody (o : Rr3) (c : Int → Bool) (un quietNv : Bool) (s : State) : Outcome State Fault Refusal :=
  issue (qRr3P o) s fun s t th =>
    let x := (wFmt o.w).unpack (th.fsrc o.w o.sa)
    let y := (wFmt o.w).unpack (th.fsrc o.w o.sb)
    let nan := x.isNan || y.isNan
    let nv := x.isSnan || y.isSnan || (nan && quietNv)
    fpEnd s t th ⟨if (if nan then un else c (x.cmp y)) then 1 else 0, if nv then fNV else 0, false⟩
      fun u v => u.setP o.sd (v == 1)

/-- `fcmp.feq` (R137). -/
def execFcmpFeq (o : Rr3) (s : State) : Outcome State Fault Refusal :=
  fcmpBody o (fun k => k == 0) false false s

/-- `fcmp.flt` (R137). -/
def execFcmpFlt (o : Rr3) (s : State) : Outcome State Fault Refusal :=
  fcmpBody o (fun k => decide (k < 0)) false true s

/-- `fcmp.fle` (R137). -/
def execFcmpFle (o : Rr3) (s : State) : Outcome State Fault Refusal :=
  fcmpBody o (fun k => decide (k ≤ 0)) false true s

/-- `fcmp.fun` (R137). -/
def execFcmpFun (o : Rr3) (s : State) : Outcome State Fault Refusal :=
  fcmpBody o (fun _ => false) true false s

end Sys2Proof.Machine
end

