-- ==== Sys2Proof/Machine/Special.lean ====
section
/-! DEFINITION. Special functions (R222). The exact value is enclosed between two rationals by integer arithmetic on
fixed-point numbers of 420 fraction bits; the result is one of the representable values next to it, which one is left
open (log entry 9). -/

namespace Sys2Proof.Machine

/-! ## Fixed-point enclosures -/

/-- Fraction bits. -/
def fxP : Nat := 420
def fxOne : Nat := 2 ^ fxP

/-- Sum of t/1 + t z/3 + t z²/5 + …, with z a fixed-point number: atanh and, alternating, arctan. -/
def oddSeries (alt : Bool) (p z : Nat) : Nat → Nat → Nat → Int
  | 0, _, _ => 0
  | n + 1, k, t =>
    let rest := oddSeries alt p z n (k + 2) (t * z / 2 ^ p)
    (t / k : Nat) + (if alt then -rest else rest)
/-- ln 2 = 2 atanh(1/3). -/
def fxLn2 : Nat := (2 * oddSeries false fxP (fxOne / 9) 140 1 (fxOne / 3)).toNat
/-- Fraction bits of π. -/
def piP : Nat := 720
/-- π by Machin's formula. -/
def fxPi : Nat :=
  (16 * oddSeries true piP (2 ^ piP / 25) 160 1 (2 ^ piP / 5) -
    4 * oddSeries true piP (2 ^ piP / 57121) 60 1 (2 ^ piP / 239)).toNat

/-- Σ y^k / k! from a term on. -/
def expSeries (y : Nat) : Nat → Nat → Nat → Nat
  | 0, _, _ => 0
  | n + 1, k, t => t + expSeries y n (k + 1) (t * y / fxOne / (k + 1))
/-- e^y for 0 ≤ y < 1. -/
def fxExp (y : Nat) : Nat := expSeries y 120 0 fxOne
/-- e^y for y ≥ 0 as fixed-point, by powers of two. -/
def fxExpBig (y : Nat) : Nat := fxExp (y % fxLn2) * 2 ^ (y / fxLn2)

/-- Σ of an alternating series with steps of two: sine from t = r, k = 1; cosine from t = 1, k = 0. -/
def trigSeries (r2 : Nat) : Nat → Nat → Nat → Int
  | 0, _, _ => 0
  | n + 1, k, t => (t : Int) - trigSeries r2 n (k + 2) (t * r2 / fxOne / ((k + 1) * (k + 2)))
def fxSin (r : Nat) : Int := trigSeries (r * r / fxOne) 80 1 r
def fxCos (r : Nat) : Int := trigSeries (r * r / fxOne) 80 0 fxOne

/-- m × 2^e in units of 2^-p, rounded down. -/
def fxOf (p m : Nat) (e : Int) : Nat :=
  if 0 ≤ e + p then m * 2 ^ (e + p).toNat else m / 2 ^ (-(e + p)).toNat

/-- A positive real between lo × 2^e and hi × 2^e. -/
structure Encl where
  neg : Bool
  lo  : Nat
  hi  : Nat
  e   : Int

/-- The enclosure cut at a known bound m × 2^e of the magnitude. -/
def Encl.atMost (c : Encl) (m : Nat) (e : Int) : Encl := { c with hi := min c.hi (m * 2 ^ (e - c.e).toNat) }

/-- An enclosure of num / den with a relative error below 2^-g. -/
def ratio (neg : Bool) (num den g : Nat) : Encl :=
  let q := num * 2 ^ (fxP + g) / den
  ⟨neg, q - q / 2 ^ g - 1, q + q / 2 ^ g + 1, -((fxP + g : Nat) : Int)⟩

/-- 2^x. -/
def enclEx2 (neg : Bool) (m : Nat) (e : Int) : Encl :=
  if 4096 * fxOne ≤ fxOf fxP m (min e 600) then
    if neg then ⟨false, 0, 1, -4000⟩ else ⟨false, 1, 1, 4000⟩
  else
    let x : Int := if neg then -(fxOf fxP m e : Int) else fxOf fxP m e
    let n := x / fxOne
    let fr := (x % fxOne).toNat
    if fr = 0 then ⟨false, 1, 1, n⟩
    else
      let v := fxExp (fr * fxLn2 / fxOne)
      ⟨false, v - 2 ^ 40, v + 2 ^ 40, n - fxP⟩
/-- log2 x of a positive x. -/
def enclLg2 (m : Nat) (e : Int) : Encl :=
  let k := ilog2 m 1
  let n : Int := k + e
  let t := m * 2 ^ fxP / 2 ^ k.toNat
  if t = fxOne then ⟨decide (n < 0), n.natAbs, n.natAbs, 0⟩
  else
    let z := (t - fxOne) * fxOne / (t + fxOne)
    let l := (2 * oddSeries false fxP (z * z / fxOne) 140 1 z) * fxOne / fxLn2
    let v := n * fxOne + l
    ⟨decide (v < 0), v.natAbs - 2 ^ 40, v.natAbs + 2 ^ 40, -(fxP : Int)⟩
/-- 1 / x. -/
def enclRcp (neg : Bool) (m : Nat) (e : Int) : Encl :=
  let q := 2 ^ 600 / m
  ⟨neg, q, if q * m = 2 ^ 600 then q else q + 1, -600 - e⟩
/-- 1 / √x of a positive x. -/
def enclRsqrt (m : Nat) (e : Int) : Encl :=
  let m2 := m * 2 ^ (e % 2).toNat
  let r := isqrt (2 ^ 600 / m2)
  ⟨false, r, if r * r * m2 = 2 ^ 600 then r else r + 1, -300 - (e - e % 2) / 2⟩
/-- sin x or cos x of a positive x. -/
def enclTrig (cosine : Bool) (m : Nat) (e : Int) : Encl :=
  let x := fxOf piP m e
  let k := 2 * x / fxPi
  let r := (2 * x - k * fxPi) * fxOne / 2 ^ (piP + 1)
  let q := (k + if cosine then 1 else 0) % 4
  let v := if q % 2 = 0 then fxSin r else fxCos r
  ⟨decide (2 ≤ q), v.natAbs - 2 ^ 40, v.natAbs + 2 ^ 40, -(fxP : Int)⟩
/-- tanh x of a positive x. -/
def enclTanh (m : Nat) (e : Int) : Encl :=
  if 64 * fxOne ≤ fxOf fxP m (min e 600) then ⟨false, 2 ^ 100 - 1, 2 ^ 100, -100⟩
  else
    let y := fxExpBig (2 * fxOf fxP m e)
    ratio false (y - fxOne) (y + fxOne) 180
/-- 1 / (1 + e^-x). -/
def enclSigm (neg : Bool) (m : Nat) (e : Int) : Encl :=
  if 1024 * fxOne ≤ fxOf fxP m (min e 600) then
    if neg then ⟨false, 0, 1, -1000⟩ else ⟨false, 2 ^ 100 - 1, 2 ^ 100, -100⟩
  else
    let y := fxExpBig (fxOf fxP m e)
    if neg then ratio false fxOne (y + fxOne) 180 else ratio false y (y + fxOne) 180

/-! ## Representable neighbours -/

/-- The magnitude bits next below (or at) and next above (or at) num × 2^e; beyond the largest finite value stands
infinity. -/
def Fmt.neighbours (f : Fmt) (num : Nat) (e : Int) : Nat × Nat :=
  if num = 0 then (0, 0)
  else
    let ex := ilog2 num 1 + e
    let q := max (ex - f.mbits) f.qmin
    let (n, r, _) := quant num 1 e q
    let mag := (q - f.qmin).toNat * 2 ^ f.mbits + n
    (min mag f.infBits, min (if r = 0 then mag else mag + 1) f.infBits)

/-- The eight functions (R246). -/
inductive SfFn where
  | ex2 | lg2 | rcp | rsqrt | sin | cos | tanh | sigm
deriving DecidableEq, Repr

def SfFn.code : SfFn → Nat
  | .ex2 => 0 | .lg2 => 1 | .rcp => 2 | .rsqrt => 3 | .sin => 4 | .cos => 5 | .tanh => 6 | .sigm => 7

/-- The exact value at a finite argument other than zero; |sin x|, |cos x|, tanh |x| and sigm x are at most 1, and |sin x| and
|tanh x| at most |x|, however close the exact value comes. -/
def SfFn.encl (fn : SfFn) (neg : Bool) (m : Nat) (e : Int) : Encl :=
  match fn with
  | .ex2 => enclEx2 neg m e
  | .lg2 => enclLg2 m e
  | .rcp => enclRcp neg m e
  | .rsqrt => enclRsqrt m e
  | .sin => (({ enclTrig false m e with neg := xor neg (enclTrig false m e).neg } : Encl).atMost 1 0).atMost m e
  | .cos => (enclTrig true m e).atMost 1 0
  | .tanh => (({ enclTanh m e with neg := neg } : Encl).atMost 1 0).atMost m e
  | .sigm => (enclSigm neg m e).atMost 1 0

/-- The magnitudes that R222 allows, lowest and highest. An exact value may be missed by one unit, except by `ex2` and
`rcp`, and except a zero. -/
def Fmt.allowed (f : Fmt) (fn : SfFn) (c : Encl) : Nat × Nat :=
  let a := (f.neighbours c.lo c.e).1
  let b := (f.neighbours c.hi c.e).2
  if a = b ∧ a ≠ 0 ∧ (fn = .lg2 ∨ fn = .rsqrt) then (a - 1, min (b + 1) f.infBits) else (a, b)

/-- The result at a finite argument other than zero, and its flags: NX never, OF and UF as R222 says. -/
def Fmt.sfFinite (f : Fmt) (ty : BitVec 2) (fn : SfFn) (x : Nat) (neg : Bool) (m : Nat) (e : Int) : FRes :=
  let c := fn.encl neg m e
  let (a, b) := f.allowed fn c
  let mag := x % f.signBit
  let r :=
    if a = b then a
    else match fn with
      | .ex2 | .sigm =>
        if Config.sfStep fn.code ty a ≤ (if neg then -(mag : Int) else mag) then b else a
      | _ => a + Config.sfPick fn.code ty mag % (b + 1 - a)
  let exact := a == b
  ⟨f.signed c.neg r, (if r = f.infBits then fOF else 0) ||| (if r < 2 ^ f.mbits && !exact then fUF else 0), false⟩

/-- f(x) (R222): the table of special cases, else the finite result. -/
def Fmt.special (f : Fmt) (ty : BitVec 2) (fn : SfFn) (x : Nat) : FRes :=
  let one := f.bias * 2 ^ f.mbits
  let half := (f.bias - 1) * 2 ^ f.mbits
  match f.unpack x with
  | .nan s => f.nan s
  | .inf neg =>
    match fn, neg with
    | .ex2, false => f.inf false
    | .ex2, true => f.zero false
    | .lg2, false => f.inf false
    | .lg2, true => f.nan true
    | .rcp, n => f.zero n
    | .rsqrt, false => f.zero false
    | .rsqrt, true => f.nan true
    | .sin, _ | .cos, _ => f.nan true
    | .tanh, n => ⟨f.signed n one, 0, false⟩
    | .sigm, false => ⟨one, 0, false⟩
    | .sigm, true => f.zero false
  | .fin neg m e =>
    if m = 0 then
      match fn with
      | .ex2 | .cos => ⟨one, 0, false⟩
      | .lg2 => { f.inf true with fl := fDZ }
      | .rcp | .rsqrt => { f.inf neg with fl := fDZ }
      | .sin | .tanh => f.zero neg
      | .sigm => ⟨half, 0, false⟩
    else if neg && (fn == .lg2 || fn == .rsqrt) then f.nan true
    else f.sfFinite ty fn x neg m e

end Sys2Proof.Machine
end

