-- ==== Sys2Proof/Machine/Vector.lean ====
section
/-! DEFINITION. Vector instructions (R230-R253): elements under masks, reductions and permutations over a gang's global
vector, conversions, scalar-vector moves, vector memory. -/

namespace Sys2Proof.Machine

open Host (Outcome)

/-! ## Elements (R230, R231, R59) -/

/-- Element width by the integer reading of `TY`. -/
def tyW (ty : BitVec 2) : Nat := if ty = 0 then 32 else if ty = 1 then 16 else 8
/-- Element format by the float reading of `TY`. -/
def tyF (ty : BitVec 2) : Fmt := if ty = 0 then fp32 else if ty = 1 then bf16 else fp16
/-- Element width of a VM word. -/
def ewW (ew : BitVec 2) : Nat := if ew = 0 then 32 else if ew = 1 then 16 else 8

/-- `n` elements of width `w`, element 0 first. -/
def elsOf (w : Nat) : Nat → Nat → List Nat
  | 0, _ => []
  | n + 1, v => v % 2 ^ w :: elsOf w n (v / 2 ^ w)
def els (w : Nat) (r : BitVec 4096) : List Nat := elsOf w (4096 / w) r.toNat
/-- The bits of a list of elements. -/
def packEls (w : Nat) : List Nat → Nat
  | [] => 0
  | x :: r => x % 2 ^ w + 2 ^ w * packEls w r
def vecOf (w : Nat) (l : List Nat) : BitVec 4096 := BitVec.ofNat 4096 (packEls w l)
/-- The same value in every element. -/
def splat (w v : Nat) : BitVec 4096 := vecOf w (List.replicate (4096 / w) v)
/-- The governing mask bit of element `j`. -/
def active (m : BitVec 128) (w j : Nat) : Bool := m.getLsbD (j * w / 32)

/-- A function on each active element, from element `j` on; an inactive one keeps the old destination. Flags are
ORed. -/
def mapEls (m : BitVec 128) (w : Nat) (f : Nat → Nat → Nat → FRes) :
    Nat → List Nat → List Nat → List Nat → List Nat × BitVec 6
  | j, x :: xs, y :: ys, z :: zs =>
    let (r, fl) := mapEls m w f (j + 1) xs ys zs
    if active m w j then
      let q := f x y z
      (q.v :: r, q.fl ||| fl)
    else (z :: r, fl)
  | _, _, _, _ => ([], 0)

/-! ## Words that name vector registers (R197, R234) -/

/-- Registers in a register-group operand (R254). -/
def groupRegs (form : Nat) : Nat := if form = 3 then 8 else if form = 4 ∨ form = 5 then 32 else 16
/-- An `mma` of the thread has yet to read a group that holds the register (R197). -/
def State.groupBusy (s : State) (t : Tid) (th : Thread) (v : BitVec 5) : Bool :=
  (s.core th.core).e.queue.any fun op =>
    op.tid == t && op.kind == .mma && op.stage != .consumed && [op.a, op.b].any fun x => match x with
      | .regs first _ => decide (first ≤ v.toNat) && decide (v.toNat < first + groupRegs op.form)
      | .desc _ _ _ => false

/-- Issue a word that may write vector register `vd`. -/
def vissue (q : Issue) (vd : Option (BitVec 5)) (s : State) (body : Body) : Outcome State Fault Refusal :=
  issue { q with anch := true } s (fun s t th =>
    match vd with
    | some v => if s.groupBusy t th v then .park s (.vsrc v) else body s t th
    | none => body s t th) vd

def qVv (o : Vv) : Issue := { vecs := [o.vd, o.va, o.vb], vx := true }
def qV2 (o : V2) : Issue := { vecs := [o.vd, o.va], vx := true }
def qVs (o : Vs) : Issue := { srcs := [o.sb], vecs := [o.vd, o.va], vx := true }

/-- End a vector word: sticky flags, a trap with nothing written (R215, R232), else the register. The flags `quiet` raise no trap
(R211); a trap that another flag raises names them too (R229, R243). -/
def vEnd (s : State) (t : Tid) (th : Thread) (vd : BitVec 5) (x : BitVec 4096) (fl : BitVec 6)
    (after : Thread → Thread := id) (quiet : BitVec 6 := 0) : Res :=
  let all := fl ||| quiet
  if th.trapped fl then .trap (s.raise t th (all &&& exceptions)) .fp ((all.extractLsb' 0 5).zeroExtend 8) 0
  else .done ((s.raise t (after th.retire) all).setVreg th vd x)

/-- A word with two vector sources; `f` has x, y and the old destination. -/
def vv (o : Vv) (w : Nat) (f : Thread → Nat → Nat → Nat → FRes) (s : State) : Outcome State Fault Refusal :=
  vissue (qVv o) (some o.vd) s fun s t th =>
    let (r, fl) := mapEls (s.mask th o.vm) w (f th) 0 (els w (s.vreg th o.va)) (els w (s.vreg th o.vb))
      (els w (s.vreg th o.vd))
    vEnd s t th o.vd (vecOf w r) fl
/-- A word with one vector source. -/
def v2 (o : V2) (w : Nat) (f : Thread → Nat → FRes) (s : State) : Outcome State Fault Refusal :=
  vissue (qV2 o) (some o.vd) s fun s t th =>
    let a := els w (s.vreg th o.va)
    let (r, fl) := mapEls (s.mask th o.vm) w (fun x _ _ => f th x) 0 a a (els w (s.vreg th o.vd))
    vEnd s t th o.vd (vecOf w r) fl
/-- A word with a scalar operand (R233). -/
def vs (o : Vs) (w : Nat) (f : Thread → Nat → Nat → Nat → FRes) (s : State) : Outcome State Fault Refusal :=
  vissue (qVs o) (some o.vd) s fun s t th =>
    let b := (th.src o.sb).toNat % 2 ^ w
    let (r, fl) := mapEls (s.mask th o.vm) w (f th) 0 (els w (s.vreg th o.va)) (List.replicate (4096 / w) b)
      (els w (s.vreg th o.vd))
    vEnd s t th o.vd (vecOf w r) fl

/-! ## Floating-point arithmetic (R236) -/

/-- An arithmetic function in an element format. -/
def vfn (f : Fmt) (g : Fmt → Mode → FVal → FVal → FVal → FRes) (th : Thread) (x y z : Nat) : FRes :=
  g f (modeOf th.rm) (f.unpack x) (f.unpack y) (f.unpack z)
def vfAdd1 (f : Fmt) (m : Mode) (x y _z : FVal) : FRes := f.add m x y
def vfSub1 (f : Fmt) (m : Mode) (x y _z : FVal) : FRes := f.add m x y.negate
def vfMul1 (f : Fmt) (m : Mode) (x y _z : FVal) : FRes := f.mul m x y
def vfFma1 (f : Fmt) (m : Mode) (x y z : FVal) : FRes := f.fma m x y z
def vfFms1 (f : Fmt) (m : Mode) (x y z : FVal) : FRes := f.fma m x y z.negate
def vfFnma1 (f : Fmt) (m : Mode) (x y z : FVal) : FRes := f.fma m x.negate y z
def vfDiv1 (f : Fmt) (m : Mode) (x y _z : FVal) : FRes := f.div m x y
/-- The sign bit cleared (R207). -/
def vfAbs1 (f : Fmt) (x : Nat) : FRes := ⟨x % f.signBit, 0, false⟩
/-- The sign bit inverted (R207). -/
def vfNeg1 (f : Fmt) (x : Nat) : FRes := ⟨x ^^^ f.signBit, 0, false⟩

/-- `vf.add` (R236). -/
def execVfAdd (o : Vv) (s : State) : Outcome State Fault Refusal :=
  vv o (tyF o.ty).width (vfn (tyF o.ty) vfAdd1) s

/-- `vf.sub` (R236). -/
def execVfSub (o : Vv) (s : State) : Outcome State Fault Refusal :=
  vv o (tyF o.ty).width (vfn (tyF o.ty) vfSub1) s

/-- `vf.mul` (R236). -/
def execVfMul (o : Vv) (s : State) : Outcome State Fault Refusal :=
  vv o (tyF o.ty).width (vfn (tyF o.ty) vfMul1) s

/-- `vf.fma` (R236). -/
def execVfFma (o : Vv) (s : State) : Outcome State Fault Refusal :=
  vv o (tyF o.ty).width (vfn (tyF o.ty) vfFma1) s

/-- `vf.fms` (R236). -/
def execVfFms (o : Vv) (s : State) : Outcome State Fault Refusal :=
  vv o (tyF o.ty).width (vfn (tyF o.ty) vfFms1) s

/-- `vf.fnma` (R236). -/
def execVfFnma (o : Vv) (s : State) : Outcome State Fault Refusal :=
  vv o (tyF o.ty).width (vfn (tyF o.ty) vfFnma1) s

/-- `vf.min` (R133, R236). -/
def execVfMin (o : Vv) (s : State) : Outcome State Fault Refusal :=
  vv o (tyF o.ty).width (fun _ x y _ => (tyF o.ty).minmax false x y) s

/-- `vf.max` (R133, R236). -/
def execVfMax (o : Vv) (s : State) : Outcome State Fault Refusal :=
  vv o (tyF o.ty).width (fun _ x y _ => (tyF o.ty).minmax true x y) s

/-- `vf.abs` (R236). -/
def execVfAbs (o : V2) (s : State) : Outcome State Fault Refusal :=
  v2 o (tyF o.ty).width (fun _ x => vfAbs1 (tyF o.ty) x) s

/-- `vf.neg` (R236). -/
def execVfNeg (o : V2) (s : State) : Outcome State Fault Refusal :=
  v2 o (tyF o.ty).width (fun _ x => vfNeg1 (tyF o.ty) x) s

/-- `vf.div` (R236). -/
def execVfDiv (o : Vv) (s : State) : Outcome State Fault Refusal :=
  vv o (tyF o.ty).width (vfn (tyF o.ty) vfDiv1) s

/-- `vf.sqrt` (R236). -/
def execVfSqrt (o : V2) (s : State) : Outcome State Fault Refusal :=
  v2 o (tyF o.ty).width (fun th x => (tyF o.ty).sqrt (modeOf th.rm) ((tyF o.ty).unpack x)) s

/-- `vfs.add` (R236). -/
def execVfsAdd (o : Vs) (s : State) : Outcome State Fault Refusal :=
  vs o (tyF o.ty).width (vfn (tyF o.ty) vfAdd1) s

/-- `vfs.sub` (R236). -/
def execVfsSub (o : Vs) (s : State) : Outcome State Fault Refusal :=
  vs o (tyF o.ty).width (vfn (tyF o.ty) vfSub1) s

/-- `vfs.mul` (R236). -/
def execVfsMul (o : Vs) (s : State) : Outcome State Fault Refusal :=
  vs o (tyF o.ty).width (vfn (tyF o.ty) vfMul1) s

/-- `vfs.fma` (R236). -/
def execVfsFma (o : Vs) (s : State) : Outcome State Fault Refusal :=
  vs o (tyF o.ty).width (vfn (tyF o.ty) vfFma1) s

/-- `vfs.fms` (R236). -/
def execVfsFms (o : Vs) (s : State) : Outcome State Fault Refusal :=
  vs o (tyF o.ty).width (vfn (tyF o.ty) vfFms1) s

/-- `vfs.fnma` (R236). -/
def execVfsFnma (o : Vs) (s : State) : Outcome State Fault Refusal :=
  vs o (tyF o.ty).width (vfn (tyF o.ty) vfFnma1) s

/-- `vfs.min` (R133, R236). -/
def execVfsMin (o : Vs) (s : State) : Outcome State Fault Refusal :=
  vs o (tyF o.ty).width (fun _ x y _ => (tyF o.ty).minmax false x y) s

/-- `vfs.max` (R133, R236). -/
def execVfsMax (o : Vs) (s : State) : Outcome State Fault Refusal :=
  vs o (tyF o.ty).width (fun _ x y _ => (tyF o.ty).minmax true x y) s

/-- `vfs.abs` (R236). -/
def execVfsAbs (o : V2) (s : State) : Outcome State Fault Refusal :=
  v2 o (tyF o.ty).width (fun _ x => vfAbs1 (tyF o.ty) x) s

/-- `vfs.neg` (R236). -/
def execVfsNeg (o : V2) (s : State) : Outcome State Fault Refusal :=
  v2 o (tyF o.ty).width (fun _ x => vfNeg1 (tyF o.ty) x) s

/-- `vfs.div` (R236). -/
def execVfsDiv (o : Vs) (s : State) : Outcome State Fault Refusal :=
  vs o (tyF o.ty).width (vfn (tyF o.ty) vfDiv1) s

/-- `vfs.sqrt` (R236). -/
def execVfsSqrt (o : V2) (s : State) : Outcome State Fault Refusal :=
  v2 o (tyF o.ty).width (fun th x => (tyF o.ty).sqrt (modeOf th.rm) ((tyF o.ty).unpack x)) s

/-! ## Integer and logical arithmetic (R237, R238) -/

/-- An integer function on signed views, reduced modulo 2^w. -/
def viS (w : Nat) (g : Int → Int → Int) (x y : Nat) : FRes := ⟨intBits w (g (intVal w true x) (intVal w true y)), 0, false⟩
/-- An integer function on unsigned views. -/
def viU (g : Nat → Nat → Nat) (x y : Nat) : FRes := ⟨g x y, 0, false⟩
/-- Clamp to the signed range. -/
def clampS (w : Nat) (v : Int) : Int := max (intRange w true).1 (min (intRange w true).2 v)
/-- A shift of `w` bits' elements by `b` mod `w`. -/
def vsh (w : Nat) (g : Nat → Nat → Nat) (x y : Nat) : FRes := ⟨g x (y % w), 0, false⟩

/-- `vi.add` (R237). -/
def execViAdd (o : Vv) (s : State) : Outcome State Fault Refusal :=
  vv o (tyW o.ty) (fun _ x y _ => viS (tyW o.ty) (· + ·) x y) s

/-- `vi.sub` (R237). -/
def execViSub (o : Vv) (s : State) : Outcome State Fault Refusal :=
  vv o (tyW o.ty) (fun _ x y _ => viS (tyW o.ty) (· - ·) x y) s

/-- `vi.mul` (R237). -/
def execViMul (o : Vv) (s : State) : Outcome State Fault Refusal :=
  vv o (tyW o.ty) (fun _ x y _ => viS (tyW o.ty) (· * ·) x y) s

/-- `vi.mulh` (R237). -/
def execViMulh (o : Vv) (s : State) : Outcome State Fault Refusal :=
  vv o (tyW o.ty) (fun _ x y _ => viS (tyW o.ty) (fun a b => a * b / 2 ^ (tyW o.ty)) x y) s

/-- `vi.min` (R237). -/
def execViMin (o : Vv) (s : State) : Outcome State Fault Refusal :=
  vv o (tyW o.ty) (fun _ x y _ => viS (tyW o.ty) min x y) s

/-- `vi.max` (R237). -/
def execViMax (o : Vv) (s : State) : Outcome State Fault Refusal :=
  vv o (tyW o.ty) (fun _ x y _ => viS (tyW o.ty) max x y) s

/-- `vi.minu` (R237). -/
def execViMinu (o : Vv) (s : State) : Outcome State Fault Refusal :=
  vv o (tyW o.ty) (fun _ x y _ => viU min x y) s

/-- `vi.maxu` (R237). -/
def execViMaxu (o : Vv) (s : State) : Outcome State Fault Refusal :=
  vv o (tyW o.ty) (fun _ x y _ => viU max x y) s

/-- `vi.abs` (R237). -/
def execViAbs (o : V2) (s : State) : Outcome State Fault Refusal :=
  v2 o (tyW o.ty) (fun _ x => viS (tyW o.ty) (fun a _ => a.natAbs) x x) s

/-- `vi.neg` (R237). -/
def execViNeg (o : V2) (s : State) : Outcome State Fault Refusal :=
  v2 o (tyW o.ty) (fun _ x => viS (tyW o.ty) (fun a _ => -a) x x) s

/-- `vi.adds` (R237). -/
def execViAdds (o : Vv) (s : State) : Outcome State Fault Refusal :=
  vv o (tyW o.ty) (fun _ x y _ => viS (tyW o.ty) (fun a b => clampS (tyW o.ty) (a + b)) x y) s

/-- `vi.subs` (R237). -/
def execViSubs (o : Vv) (s : State) : Outcome State Fault Refusal :=
  vv o (tyW o.ty) (fun _ x y _ => viS (tyW o.ty) (fun a b => clampS (tyW o.ty) (a - b)) x y) s

/-- `vis.add` (R237). -/
def execVisAdd (o : Vs) (s : State) : Outcome State Fault Refusal :=
  vs o (tyW o.ty) (fun _ x y _ => viS (tyW o.ty) (· + ·) x y) s

/-- `vis.sub` (R237). -/
def execVisSub (o : Vs) (s : State) : Outcome State Fault Refusal :=
  vs o (tyW o.ty) (fun _ x y _ => viS (tyW o.ty) (· - ·) x y) s

/-- `vis.mul` (R237). -/
def execVisMul (o : Vs) (s : State) : Outcome State Fault Refusal :=
  vs o (tyW o.ty) (fun _ x y _ => viS (tyW o.ty) (· * ·) x y) s

/-- `vis.mulh` (R237). -/
def execVisMulh (o : Vs) (s : State) : Outcome State Fault Refusal :=
  vs o (tyW o.ty) (fun _ x y _ => viS (tyW o.ty) (fun a b => a * b / 2 ^ (tyW o.ty)) x y) s

/-- `vis.min` (R237). -/
def execVisMin (o : Vs) (s : State) : Outcome State Fault Refusal :=
  vs o (tyW o.ty) (fun _ x y _ => viS (tyW o.ty) min x y) s

/-- `vis.max` (R237). -/
def execVisMax (o : Vs) (s : State) : Outcome State Fault Refusal :=
  vs o (tyW o.ty) (fun _ x y _ => viS (tyW o.ty) max x y) s

/-- `vis.minu` (R237). -/
def execVisMinu (o : Vs) (s : State) : Outcome State Fault Refusal :=
  vs o (tyW o.ty) (fun _ x y _ => viU min x y) s

/-- `vis.maxu` (R237). -/
def execVisMaxu (o : Vs) (s : State) : Outcome State Fault Refusal :=
  vs o (tyW o.ty) (fun _ x y _ => viU max x y) s

/-- `vis.abs` (R237). -/
def execVisAbs (o : V2) (s : State) : Outcome State Fault Refusal :=
  v2 o (tyW o.ty) (fun _ x => viS (tyW o.ty) (fun a _ => a.natAbs) x x) s

/-- `vis.neg` (R237). -/
def execVisNeg (o : V2) (s : State) : Outcome State Fault Refusal :=
  v2 o (tyW o.ty) (fun _ x => viS (tyW o.ty) (fun a _ => -a) x x) s

/-- `vis.adds` (R237). -/
def execVisAdds (o : Vs) (s : State) : Outcome State Fault Refusal :=
  vs o (tyW o.ty) (fun _ x y _ => viS (tyW o.ty) (fun a b => clampS (tyW o.ty) (a + b)) x y) s

/-- `vis.subs` (R237). -/
def execVisSubs (o : Vs) (s : State) : Outcome State Fault Refusal :=
  vs o (tyW o.ty) (fun _ x y _ => viS (tyW o.ty) (fun a b => clampS (tyW o.ty) (a - b)) x y) s

/-- `vl.and` (R238). -/
def execVlAnd (o : Vv) (s : State) : Outcome State Fault Refusal :=
  vv o (tyW o.ty) (fun _ x y _ => viU (· &&& ·) x y) s

/-- `vl.or` (R238). -/
def execVlOr (o : Vv) (s : State) : Outcome State Fault Refusal :=
  vv o (tyW o.ty) (fun _ x y _ => viU (· ||| ·) x y) s

/-- `vl.xor` (R238). -/
def execVlXor (o : Vv) (s : State) : Outcome State Fault Refusal :=
  vv o (tyW o.ty) (fun _ x y _ => viU (· ^^^ ·) x y) s

/-- `vl.andn` (R238). -/
def execVlAndn (o : Vv) (s : State) : Outcome State Fault Refusal :=
  vv o (tyW o.ty) (fun _ x y _ => viU (fun a b => a ^^^ (a &&& b)) x y) s

/-- `vl.shl` (R238). -/
def execVlShl (o : Vv) (s : State) : Outcome State Fault Refusal :=
  vv o (tyW o.ty) (fun _ x y _ => vsh (tyW o.ty) (fun a k => (a <<< k) % 2 ^ (tyW o.ty)) x y) s

/-- `vl.shr` (R238). -/
def execVlShr (o : Vv) (s : State) : Outcome State Fault Refusal :=
  vv o (tyW o.ty) (fun _ x y _ => vsh (tyW o.ty) (fun a k => a >>> k) x y) s

/-- `vl.sra` (R238). -/
def execVlSra (o : Vv) (s : State) : Outcome State Fault Refusal :=
  vv o (tyW o.ty) (fun _ x y _ => vsh (tyW o.ty) (fun a k => intBits (tyW o.ty) (intVal (tyW o.ty) true a / 2 ^ k)) x y) s

/-- `vls.and` (R238). -/
def execVlsAnd (o : Vs) (s : State) : Outcome State Fault Refusal :=
  vs o (tyW o.ty) (fun _ x y _ => viU (· &&& ·) x y) s

/-- `vls.or` (R238). -/
def execVlsOr (o : Vs) (s : State) : Outcome State Fault Refusal :=
  vs o (tyW o.ty) (fun _ x y _ => viU (· ||| ·) x y) s

/-- `vls.xor` (R238). -/
def execVlsXor (o : Vs) (s : State) : Outcome State Fault Refusal :=
  vs o (tyW o.ty) (fun _ x y _ => viU (· ^^^ ·) x y) s

/-- `vls.andn` (R238). -/
def execVlsAndn (o : Vs) (s : State) : Outcome State Fault Refusal :=
  vs o (tyW o.ty) (fun _ x y _ => viU (fun a b => a ^^^ (a &&& b)) x y) s

/-- `vls.shl` (R238). -/
def execVlsShl (o : Vs) (s : State) : Outcome State Fault Refusal :=
  vs o (tyW o.ty) (fun _ x y _ => vsh (tyW o.ty) (fun a k => (a <<< k) % 2 ^ (tyW o.ty)) x y) s

/-- `vls.shr` (R238). -/
def execVlsShr (o : Vs) (s : State) : Outcome State Fault Refusal :=
  vs o (tyW o.ty) (fun _ x y _ => vsh (tyW o.ty) (fun a k => a >>> k) x y) s

/-- `vls.sra` (R238). -/
def execVlsSra (o : Vs) (s : State) : Outcome State Fault Refusal :=
  vs o (tyW o.ty) (fun _ x y _ => vsh (tyW o.ty) (fun a k => intBits (tyW o.ty) (intVal (tyW o.ty) true a / 2 ^ k)) x y) s

/-! ## Compares and select (R239, R240) -/

/-- The lanes of a compare: a lane's bit stays set when its mask bit is and every element of the lane compares true. -/
def cmpEls (m : BitVec 128) (w : Nat) (c : Nat → Nat → Bool × BitVec 6) :
    Nat → List Nat → List Nat → BitVec 128 × BitVec 6
  | j, x :: xs, y :: ys =>
    let (d, fl) := cmpEls m w c (j + 1) xs ys
    if active m w j then
      let (b, g) := c x y
      (if b then d else d &&& ~~~(1#128 <<< (j * w / 32)), fl ||| g)
    else (d, fl)
  | _, _, _ => (m, 0)

/-- End a compare (R239). -/
def cmpEnd (s : State) (t : Tid) (th : Thread) (md : BitVec 3) (r : BitVec 128 × BitVec 6) : Res :=
  if th.trapped r.2 then .trap (s.raise t th r.2) .fp ((r.2.extractLsb' 0 5).zeroExtend 8) 0
  else .done ((s.raise t th.retire r.2).setMask th md r.1)
def vc (o : Vc) (w : Nat) (c : Nat → Nat → Bool × BitVec 6) (s : State) : Outcome State Fault Refusal :=
  vissue { vecs := [o.va, o.vb], vx := true } none s fun s t th =>
    cmpEnd s t th o.md (cmpEls (s.mask th o.vm) w c 0 (els w (s.vreg th o.va)) (els w (s.vreg th o.vb)))
def vcs (o : Vcs) (w : Nat) (c : Nat → Nat → Bool × BitVec 6) (s : State) : Outcome State Fault Refusal :=
  vissue { srcs := [o.sb], vecs := [o.va], vx := true } none s fun s t th =>
    cmpEnd s t th o.md (cmpEls (s.mask th o.vm) w c 0 (els w (s.vreg th o.va))
      (List.replicate (4096 / w) ((th.src o.sb).toNat % 2 ^ w)))
/-- A float condition (R137): on ordered values, what an unordered pair gives, whether a quiet NaN raises NV. -/
def fCond (f : Fmt) (c : Int → Bool) (un quietNv : Bool) (a b : Nat) : Bool × BitVec 6 :=
  let x := f.unpack a
  let y := f.unpack b
  let nan := x.isNan || y.isNan
  (if nan then un else c (x.cmp y), if x.isSnan || y.isSnan || (nan && quietNv) then fNV else 0)
/-- An integer condition on signed views. -/
def iCond (w : Nat) (c : Int → Int → Bool) (a b : Nat) : Bool × BitVec 6 := (c (intVal w true a) (intVal w true b), 0)

/-- `vcmp.feq` (R239). -/
def execVcmpFeq (o : Vc) (s : State) : Outcome State Fault Refusal :=
  vc o (tyF o.ty).width (fCond (tyF o.ty) (fun k => k == 0) false false) s

/-- `vcmp.flt` (R239). -/
def execVcmpFlt (o : Vc) (s : State) : Outcome State Fault Refusal :=
  vc o (tyF o.ty).width (fCond (tyF o.ty) (fun k => decide (k < 0)) false true) s

/-- `vcmp.fle` (R239). -/
def execVcmpFle (o : Vc) (s : State) : Outcome State Fault Refusal :=
  vc o (tyF o.ty).width (fCond (tyF o.ty) (fun k => decide (k ≤ 0)) false true) s

/-- `vcmp.fun` (R239). -/
def execVcmpFun (o : Vc) (s : State) : Outcome State Fault Refusal :=
  vc o (tyF o.ty).width (fCond (tyF o.ty) (fun _ => false) true false) s

/-- `vcmp.ieq` (R239). -/
def execVcmpIeq (o : Vc) (s : State) : Outcome State Fault Refusal :=
  vc o (tyW o.ty) (iCond (tyW o.ty) (fun a b => a == b)) s

/-- `vcmp.ilt` (R239). -/
def execVcmpIlt (o : Vc) (s : State) : Outcome State Fault Refusal :=
  vc o (tyW o.ty) (iCond (tyW o.ty) (fun a b => decide (a < b))) s

/-- `vcmp.iltu` (R239). -/
def execVcmpIltu (o : Vc) (s : State) : Outcome State Fault Refusal :=
  vc o (tyW o.ty) (fun a b => (decide (a < b), 0)) s

/-- `vcmp.ile` (R239). -/
def execVcmpIle (o : Vc) (s : State) : Outcome State Fault Refusal :=
  vc o (tyW o.ty) (iCond (tyW o.ty) (fun a b => decide (a ≤ b))) s

/-- `vcmps.feq` (R239). -/
def execVcmpsFeq (o : Vcs) (s : State) : Outcome State Fault Refusal :=
  vcs o (tyF o.ty).width (fCond (tyF o.ty) (fun k => k == 0) false false) s

/-- `vcmps.flt` (R239). -/
def execVcmpsFlt (o : Vcs) (s : State) : Outcome State Fault Refusal :=
  vcs o (tyF o.ty).width (fCond (tyF o.ty) (fun k => decide (k < 0)) false true) s

/-- `vcmps.fle` (R239). -/
def execVcmpsFle (o : Vcs) (s : State) : Outcome State Fault Refusal :=
  vcs o (tyF o.ty).width (fCond (tyF o.ty) (fun k => decide (k ≤ 0)) false true) s

/-- `vcmps.fun` (R239). -/
def execVcmpsFun (o : Vcs) (s : State) : Outcome State Fault Refusal :=
  vcs o (tyF o.ty).width (fCond (tyF o.ty) (fun _ => false) true false) s

/-- `vcmps.ieq` (R239). -/
def execVcmpsIeq (o : Vcs) (s : State) : Outcome State Fault Refusal :=
  vcs o (tyW o.ty) (iCond (tyW o.ty) (fun a b => a == b)) s

/-- `vcmps.ilt` (R239). -/
def execVcmpsIlt (o : Vcs) (s : State) : Outcome State Fault Refusal :=
  vcs o (tyW o.ty) (iCond (tyW o.ty) (fun a b => decide (a < b))) s

/-- `vcmps.iltu` (R239). -/
def execVcmpsIltu (o : Vcs) (s : State) : Outcome State Fault Refusal :=
  vcs o (tyW o.ty) (fun a b => (decide (a < b), 0)) s

/-- `vcmps.ile` (R239). -/
def execVcmpsIle (o : Vcs) (s : State) : Outcome State Fault Refusal :=
  vcs o (tyW o.ty) (iCond (tyW o.ty) (fun a b => decide (a ≤ b))) s

/-- `vsel` (R240): the mask selects. -/
def execVsel (o : Vv) (s : State) : Outcome State Fault Refusal :=
  vissue (qVv o) (some o.vd) s fun s t th =>
    let (r, _) := mapEls (s.mask th o.vm) 32 (fun x _ _ => ⟨x, 0, false⟩) 0 (els 32 (s.vreg th o.va))
      (els 32 (s.vreg th o.vb)) (els 32 (s.vreg th o.vb))
    vEnd s t th o.vd (vecOf 32 r) 0

/-! ## Conversions (R241-R243) -/

/-- The scale register that the latch names, if the word is scaled (R243). -/
def State.sclOf (s : State) : List (BitVec 5) := ((s.threads.find s.cur).bind Thread.scl?).toList
/-- An exact product with a valid scale (R243). -/
def scaled (x : FVal) (sc : Nat) : FVal :=
  match x, fp32.unpack sc with
  | .fin n m e, .fin _ k f => .fin n (m * k) (e + f)
  | v, _ => v

/-- Convert N elements, N by the wider width; `f` has the element's number and bits. Bits above stay (R242). The last
component says that a draw would have decided a result. -/
def cvtEls (m : BitVec 128) (wide : Nat) (f : Nat → Nat → FRes) :
    Nat → List Nat → List Nat → List Nat × BitVec 6 × Bool
  | j, x :: xs, z :: zs =>
    let (r, fl, d) := cvtEls m wide f (j + 1) xs zs
    if active m wide j then
      let q := f j x
      (q.v :: r, q.fl ||| fl, q.draw || d)
    else (z :: r, fl, d)
  | _, _, _ => ([], 0, false)

/-- A `vcvt` word: source and destination widths, whether it always rounds stochastically (narrows), whether it may draw,
and the conversion of an element under a mode. -/
def cvtWord (o : Vv) (scl : Bool) (ws wd : Nat) (force : Bool) (draws : Bool → Bool)
    (conv : Mode → FVal → FRes) (dec : Nat → FVal) (bad : Nat) (s : State) : Outcome State Fault Refusal :=
  let scs := if scl then s.sclOf else []
  vissue { vecs := [o.vd, o.va] ++ scs, vx := true } (some o.vd) s fun s t th =>
    let sc := if scl then th.scl? else none
    let thr := if force then th.setStatusBits 0 3 5 else th
    let wide := max ws wd
    let n := 4096 / wide
    let sl := sc.map fun v => els 32 (s.vreg th v)
    let (r, fl, dr) := cvtEls (s.mask th o.vm) wide (fun j x =>
        let md := if draws sc.isSome then thr.cvtMode j else .rne
        match sl with
        | none => conv md (dec x)
        | some l =>
          let k := l.getD (j * wide / 32) 0
          if scaleOk k then conv md (scaled (dec x) k) else ⟨bad, 0, false⟩) 0
      (elsOf ws n (s.vreg th o.va).toNat) (elsOf wd n (s.vreg th o.vd).toNat)
    let old := (s.vreg th o.vd).toNat
    let x := packEls wd r + old / 2 ^ (n * wd) * 2 ^ (n * wd)
    let fl1 := if draws sc.isSome then thr.cvtFlags fl dr else fl
    -- an invalid scale sets NV and raises no trap (R211)
    let inv := sl.any fun l => (List.range n).any fun j => active (s.mask th o.vm) wide j && !scaleOk (l.getD (j * wide / 32) 0)
    vEnd s t th o.vd (BitVec.ofNat 4096 x) fl1 (fun u =>
      if draws sc.isSome && thr.stochastic then u.modC fun c => { c with cvc := c.cvc + BitVec.ofNat 32 n } else u)
      (if inv then fNV else 0)

/-- The float format of a code that the word accepts. -/
def codeF (vb : BitVec 5) : Fmt :=
  match elemOf vb.toNat with
  | .flt f => f
  | _ => fp32
def codeBits (vb : BitVec 5) : Nat := (elemOf vb.toNat).bits
def codeInt (vb : BitVec 5) : Nat × Bool :=
  match elemOf vb.toNat with
  | .int b sg => (b, sg)
  | _ => (32, true)

/-- `vcvt.narrow` (R242, R243). -/
def execVcvtNarrow (o : Vv) (s : State) : Outcome State Fault Refusal :=
  cvtWord o true (tyF o.ty).width (codeF o.vb).width false (fun _ => true) (fun md x => (codeF o.vb).convert md x)
    (tyF o.ty).unpack (codeF o.vb).nanBits s
/-- `vcvt.narrows` (R242, R243): stochastic whatever RM says. -/
def execVcvtNarrows (o : Vv) (s : State) : Outcome State Fault Refusal :=
  cvtWord o true (tyF o.ty).width (codeF o.vb).width true (fun _ => true) (fun md x => (codeF o.vb).convert md x)
    (tyF o.ty).unpack (codeF o.vb).nanBits s
/-- `vcvt.widen` (R242, R243): unscaled, exact. -/
def execVcvtWiden (o : Vv) (s : State) : Outcome State Fault Refusal :=
  cvtWord o true (codeF o.vb).width (tyF o.ty).width false (fun scl => scl) (fun md x => (tyF o.ty).convert md x)
    (codeF o.vb).unpack (tyF o.ty).nanBits s
/-- `vcvt.i2f` (R242). -/
def execVcvtI2f (o : Vv) (s : State) : Outcome State Fault Refusal :=
  let (b, sg) := codeInt o.vb
  cvtWord o false b (tyF o.ty).width false (fun _ => true) (fun md x => (tyF o.ty).convert md x)
    (fun v => .fin (decide (intVal b sg v < 0)) (intVal b sg v).natAbs 0) 0 s
/-- `vcvt.f2i` (R214, R242). -/
def execVcvtF2i (o : Vv) (s : State) : Outcome State Fault Refusal :=
  let (b, sg) := codeInt o.vb
  cvtWord o false (tyF o.ty).width b false (fun _ => true)
    (fun md x =>
      let r := toIntRes md (intRange b sg).1 (intRange b sg).2 x
      ⟨intBits b r.1, r.2.1, r.2.2⟩) (tyF o.ty).unpack 0 s

/-! ## The global vector of a gang (R235) -/

/-- The members of a thread's formed gang in member order, or the thread alone. -/
def State.gangLine (s : State) (th : Thread) : List Thread :=
  match (if th.gm then th.gang else none) with
  | some g => sortBy (fun (a b : Thread) => decide (a.core ≤ b.core)) (g.members.filterMap fun m => s.threads.find m)
  | none => [th]
/-- A member's place in the line. -/
def memberNo (l : List Thread) (th : Thread) : Nat := l.findIdx fun u => u.core == th.core
/-- A register across the line. -/
def State.lineEls (s : State) (l : List Thread) (w : Nat) (v : BitVec 5) : List Nat := l.flatMap fun u => els w (s.vreg u v)
/-- The global numbers of the active elements. -/
def State.lineActive (s : State) (l : List Thread) (w : Nat) (vm : BitVec 3) : List Nat :=
  let e := 4096 / w
  (l.zipIdx).flatMap fun u => (List.range e).filterMap fun j =>
    if active (s.mask u.1 vm) w j then some (u.2 * e + j) else none

/-! ## Reductions (R219-R221, R244) -/

/-- A value in a reduction tree: its bits and, for floats, what they stand for. -/
structure Node where
  b : Nat
  v : FVal

/-- One level of the tree. -/
def treeLevel (f : Node → Node → Node × BitVec 6) : List Node → List Node × BitVec 6
  | a :: b :: r =>
    let (c, g) := f a b
    let (l, fl) := treeLevel f r
    (c :: l, g ||| fl)
  | l => (l, 0)
/-- The whole tree. -/
def tree (f : Node → Node → Node × BitVec 6) : Nat → List Node → Node × BitVec 6
  | 0, l => (l.headD ⟨0, .fin false 0 0⟩, 0)
  | n + 1, l =>
    let (l1, fl) := treeLevel f l
    let (r, g) := tree f n l1
    (r, fl ||| g)
/-- Members' values combined in member order, as a left fold (R221). -/
def foldNodes (f : Node → Node → Node × BitVec 6) : Node × BitVec 6 → List (Node × BitVec 6) → Node × BitVec 6
  | a, [] => a
  | a, b :: r =>
    let (c, g) := f a.1 b.1
    foldNodes f (c, a.2 ||| b.2 ||| g) r
def nodeAdd (a b : Node) : Node × BitVec 6 :=
  let r := fp32.add .rne a.v b.v
  (⟨r.v, fp32.unpack r.v⟩, r.fl)
def nodeMinmax (f : Fmt) (wantMax : Bool) (a b : Node) : Node × BitVec 6 :=
  let r := f.minmax wantMax a.b b.b
  (⟨r.v, f.unpack r.v⟩, r.fl)
/-- The leaves of one member: an inactive element is the identity. -/
def State.leaves (s : State) (f : Fmt) (u : Thread) (va : BitVec 5) (vm : BitVec 3) (idn : Node) : List Node :=
  ((els f.width (s.vreg u va)).zipIdx).map fun e =>
    if active (s.mask u vm) f.width e.2 then ⟨e.1, f.unpack e.1⟩ else idn
/-- The float reduction of a thread's line. -/
def State.redLine (s : State) (f : Fmt) (l : List Thread) (o : V2) (idn : Node) (g : Node → Node → Node × BitVec 6) :
    Node × BitVec 6 :=
  match l.map fun u => tree g 9 (s.leaves f u o.va o.vm idn) with
  | [] => (idn, 0)
  | a :: r => foldNodes g a r
/-- A float reduction: `w` is the width at which the result is written. -/
def vredF (o : V2) (w : Nat) (idn : Node) (g : Node → Node → Node × BitVec 6) (s0 : State) : Outcome State Fault Refusal :=
  vissue (qV2 o) (some o.vd) s0 fun s t th =>
    let (r, fl) := s0.redLine (tyF o.ty) (s0.gangLine th) o idn g
    vEnd s t th o.vd (splat w r.b) fl
/-- An integer reduction over the active elements of the line. -/
def vredI (o : V2) (w : Nat) (idn : Nat) (f : Nat → Nat → Nat) (s0 : State) : Outcome State Fault Refusal :=
  vissue (qV2 o) (some o.vd) s0 fun s t th =>
    let l := s0.gangLine th
    let xs := s0.lineEls l (tyW o.ty) o.va
    let r := (s0.lineActive l (tyW o.ty) o.vm).foldl (fun a j => f a (xs.getD j 0)) idn
    vEnd s t th o.vd (splat w r) 0

/-- `vred.fsum` (R219, R244). -/
def execVredFsum (o : V2) (s : State) : Outcome State Fault Refusal :=
  vredF o 32 ⟨2 ^ 31, .fin true 0 0⟩ nodeAdd s
/-- `vred.fmax` (R220, R244). -/
def execVredFmax (o : V2) (s : State) : Outcome State Fault Refusal :=
  let f := tyF o.ty
  vredF o f.width ⟨f.signed true f.infBits, .inf true⟩ (nodeMinmax f true) s
/-- `vred.fmin` (R220, R244). -/
def execVredFmin (o : V2) (s : State) : Outcome State Fault Refusal :=
  let f := tyF o.ty
  vredF o f.width ⟨f.infBits, .inf false⟩ (nodeMinmax f false) s
/-- `vred.isum` (R220, R244): modulo 2^32. -/
def execVredIsum (o : V2) (s : State) : Outcome State Fault Refusal :=
  vredI o 32 0 (fun a x => (a + intBits 32 (intVal (tyW o.ty) true x)) % 2 ^ 32) s
/-- `vred.imax` (R220, R244). -/
def execVredImax (o : V2) (s : State) : Outcome State Fault Refusal :=
  let w := tyW o.ty
  vredI o w (2 ^ (w - 1)) (fun a x => if intVal w true a < intVal w true x then x else a) s
/-- `vred.imin` (R220, R244). -/
def execVredImin (o : V2) (s : State) : Outcome State Fault Refusal :=
  let w := tyW o.ty
  vredI o w (2 ^ (w - 1) - 1) (fun a x => if intVal w true x < intVal w true a then x else a) s
/-- `vred.and` (R220, R244). -/
def execVredAnd (o : V2) (s : State) : Outcome State Fault Refusal :=
  vredI o (tyW o.ty) (2 ^ tyW o.ty - 1) (fun a x => a &&& x) s
/-- `vred.or` (R220, R244). -/
def execVredOr (o : V2) (s : State) : Outcome State Fault Refusal :=
  vredI o (tyW o.ty) 0 (fun a x => a ||| x) s

/-! ## Permutations (R245) -/

/-- What a permutation sees: element width, elements in the line, the line's `VA` and `VB`, its active elements. -/
structure Perm where
  w : Nat
  n : Nat
  a : List Nat
  b : List Nat
  act : List Nat
def State.perm (s : State) (l : List Thread) (w : Nat) (va vb : BitVec 5) (vm : BitVec 3) : Perm :=
  ⟨w, l.length * (4096 / w), s.lineEls l w va, s.lineEls l w vb, s.lineActive l w vm⟩
/-- A permutation: element `j` of the line takes `f p j`; only active ones are written, unless `all`. -/
def vperm (vd va vb : BitVec 5) (vm : BitVec 3) (ty : BitVec 2) (names : List (BitVec 5)) (all : Bool) (f : Perm → Nat → Nat)
    (s0 : State) : Outcome State Fault Refusal :=
  vissue { vecs := vd :: names, vx := true } (some vd) s0 fun s t th =>
    let w := tyW ty
    let l := s0.gangLine th
    let p := s0.perm l w va vb vm
    let base := memberNo l th * (4096 / w)
    let m := if all then BitVec.allOnes 128 else s0.mask th vm
    let r := ((els w (s0.vreg th vd)).zipIdx).map fun e => if active m w e.2 then f p (base + e.2) else e.1
    vEnd s t th vd (vecOf w r) 0

/-- `vperm.perm` (R245). -/
def execVpermPerm (o : Vv) (s : State) : Outcome State Fault Refusal :=
  vperm o.vd o.va o.vb o.vm o.ty [o.va, o.vb] false (fun p j => p.a.getD (p.b.getD j 0 % p.n) 0) s
/-- `vperm.rot` (R245). -/
def execVpermRot (o : Vv) (s : State) : Outcome State Fault Refusal :=
  vperm o.vd o.va o.vb o.vm o.ty [o.va, o.vb] false (fun p j => p.a.getD ((j + p.b.headD 0) % p.n) 0) s
/-- `vperm.bcastl` (R245). -/
def execVpermBcastl (o : Vv) (s : State) : Outcome State Fault Refusal :=
  vperm o.vd o.va o.vb o.vm o.ty [o.va, o.vb] false (fun p _ => p.a.getD (p.b.headD 0 % p.n) 0) s
/-- `vperm.zip` (R245). -/
def execVpermZip (o : Vv) (s : State) : Outcome State Fault Refusal :=
  vperm o.vd o.va o.vb o.vm o.ty [o.va, o.vb] false
    (fun p j => if j % 2 = 0 then p.a.getD (j / 2) 0 else p.b.getD (j / 2) 0) s
/-- `vperm.unzip` (R245). -/
def execVpermUnzip (o : V2) (s : State) : Outcome State Fault Refusal :=
  vperm o.vd o.va o.va o.vm o.ty [o.va] false
    (fun p j => if j < p.n / 2 then p.a.getD (2 * j) 0 else p.a.getD (2 * (j - p.n / 2) + 1) 0) s
/-- `vperm.compress` (R245). -/
def execVpermCompress (o : V2) (s : State) : Outcome State Fault Refusal :=
  vperm o.vd o.va o.va o.vm o.ty [o.va] true
    (fun p j => match p.act[j]? with
      | some i => p.a.getD i 0
      | none => 0) s
/-- `vperm.expand` (R245). -/
def execVpermExpand (o : V2) (s : State) : Outcome State Fault Refusal :=
  vperm o.vd o.va o.va o.vm o.ty [o.va] false (fun p j => p.a.getD (p.act.idxOf j) 0) s
/-- `vperm.iota` (R245). -/
def execVpermIota (vd : BitVec 5) (vm : BitVec 3) (ty : BitVec 2) (s : State) : Outcome State Fault Refusal :=
  vperm vd vd vd vm ty [] false (fun p j => j % 2 ^ p.w) s

/-! ## Special functions (R222, R246) -/

/-- A `vsf` word. -/
def vsf (o : V2) (fn : SfFn) (s : State) : Outcome State Fault Refusal :=
  v2 o (tyF o.ty).width (fun _ x => (tyF o.ty).special o.ty fn x) s
/-- `vsf.ex2` (R222, R246). -/
def execVsfEx2 (o : V2) (s : State) : Outcome State Fault Refusal := vsf o .ex2 s
/-- `vsf.lg2` (R222, R246). -/
def execVsfLg2 (o : V2) (s : State) : Outcome State Fault Refusal := vsf o .lg2 s
/-- `vsf.rcp` (R222, R246). -/
def execVsfRcp (o : V2) (s : State) : Outcome State Fault Refusal := vsf o .rcp s
/-- `vsf.rsqrt` (R222, R246). -/
def execVsfRsqrt (o : V2) (s : State) : Outcome State Fault Refusal := vsf o .rsqrt s
/-- `vsf.sin` (R222, R246). -/
def execVsfSin (o : V2) (s : State) : Outcome State Fault Refusal := vsf o .sin s
/-- `vsf.cos` (R222, R246). -/
def execVsfCos (o : V2) (s : State) : Outcome State Fault Refusal := vsf o .cos s
/-- `vsf.tanh` (R222, R246). -/
def execVsfTanh (o : V2) (s : State) : Outcome State Fault Refusal := vsf o .tanh s
/-- `vsf.sigm` (R222, R246). -/
def execVsfSigm (o : V2) (s : State) : Outcome State Fault Refusal := vsf o .sigm s

/-! ## Scalar-vector moves (R247) -/

/-- `vmv.splat` (R247). -/
def execVmvSplat (vd : BitVec 5) (sb : BitVec 5) (vm : BitVec 3) (ty : BitVec 2) (s : State) : Outcome State Fault Refusal :=
  vissue { srcs := [sb], vecs := [vd], vx := true } (some vd) s fun s t th =>
    let old := els (tyW ty) (s.vreg th vd)
    let (r, _) := mapEls (s.mask th vm) (tyW ty) (fun _ _ _ => ⟨(th.src sb).toNat % 2 ^ tyW ty, 0, false⟩) 0 old old old
    vEnd s t th vd (vecOf (tyW ty) r) 0
/-- `vmv.extract` (R247). -/
def execVmvExtract (sd : BitVec 4) (va sb : BitVec 5) (ty : BitVec 2) (s : State) : Outcome State Fault Refusal :=
  vissue { srcs := [sb], dsts := [sd], vecs := [va] } none s fun s t th =>
    let w := tyW ty
    let x := (els w (s.vreg th va)).getD ((th.src sb).toNat % (4096 / w)) 0
    .done (s.setThread t (th.retire.setX sd (BitVec.ofInt 64 (intVal w true x))))
/-- `vmv.insert` (R247). -/
def execVmvInsert (vd : BitVec 5) (sa sb : BitVec 5) (ty : BitVec 2) (s : State) : Outcome State Fault Refusal :=
  vissue { srcs := [sa, sb], vecs := [vd], vx := true } (some vd) s fun s t th =>
    let w := tyW ty
    let r := (els w (s.vreg th vd)).set ((th.src sb).toNat % (4096 / w)) ((th.src sa).toNat % 2 ^ w)
    vEnd s t th vd (vecOf w r) 0
/-- `vmv.mtos` (R247). -/
def execVmvMtos (sd : BitVec 4) (half : BitVec 1) (ma : BitVec 3) (s : State) : Outcome State Fault Refusal :=
  vissue { dsts := [sd] } none s fun s t th =>
    .done (s.setThread t (th.retire.setX sd ((s.mask th ma).extractLsb' (64 * half.toNat) 64)))
/-- `vmv.stom` (R247). -/
def execVmvStom (half : BitVec 1) (md : BitVec 3) (sb : BitVec 5) (s : State) : Outcome State Fault Refusal :=
  vissue { srcs := [sb], vx := true } none s fun s t th =>
    let m := s.mask th md
    let x := if half = 1 then th.src sb ++ m.extractLsb' 0 64 else m.extractLsb' 64 64 ++ th.src sb
    .done ((s.setThread t th.retire).setMask th md x)

/-! ## Vector memory (R248-R252) -/

/-- The first element that a check at issue fails on (R249): cause, detail value. -/
def firstBad (s : State) (th : Thread) (n : Nat) (isLoad : Bool) : List W64 → Option (Cause × W64)
  | [] => none
  | a :: r =>
    if !regionReach th a then some (.privilege, 0xA)
    else match s.check th a n isLoad with
      | some c => some (c, a)
      | none => firstBad s th n isLoad r
/-- The address of element `j` of a `vld` or `vst` (R248). -/
def vmEa (o : Vm) (th : Thread) (j : Nat) : W64 :=
  if o.md = 1 then th.src o.sb + BitVec.ofNat 64 j * th.src o.si
  else th.src o.sb + BitVec.ofNat 64 (j * ewW o.ew / 8)
/-- Active elements. -/
def actives (m : BitVec 128) (w : Nat) : List Nat := (List.range (4096 / w)).filter (active m w)
def qVm (o : Vm) (vx : Bool) : Issue :=
  { srcs := if o.md = 1 then [o.sb, o.si] else [o.sb], vecs := [o.v], vx := vx }
/-- A vector load, checked: on its way as one access (R250). -/
def sendVec (s : State) (t : Tid) (th : Thread) (dst : LoadDst) (parts : List Part) (rh : BitVec 2) : Res :=
  if (parts.any fun p => s.departs t th .plain p.ea p.n) && decide (32 ≤ s.outstanding t th) then .park s .slots32
  else .done (s.sendLoad t th dst parts .plain rh [])

/-- `vld` (R248-R251). -/
def execVld (o : Vm) (s : State) : Outcome State Fault Refusal :=
  vissue (qVm o true) (some o.v) s fun s t th =>
    let w := ewW o.ew
    let m := s.mask th o.vm
    let js := if o.md = 2 then [0] else actives m w
    match firstBad s th (w / 8) true (js.map (vmEa o th)) with
    | some (c, v) => .trap s c 0 v
    | none =>
      let parts := js.map fun j => (⟨vmEa o th j, w / 8, if o.md = 2 then 0 else w * j, w, 0⟩ : Part)
      sendVec s t th (if o.md = 2 then .bcast o.v m w else .vec o.v) parts (th.retention o.rh)
/-- `vst` (R248-R251): elements in ascending order. -/
def execVst (o : Vm) (s : State) : Outcome State Fault Refusal :=
  vissue (qVm o false) none s fun s t th =>
    let w := ewW o.ew
    let xs := els w (s.vreg th o.v)
    let js := actives (s.mask th o.vm) w
    match firstBad s th (w / 8) false (js.map (vmEa o th)) with
    | some (c, v) => .trap s c 0 v
    | none =>
      s.storeAll t th (js.map fun j => ⟨vmEa o th j, w / 8, BitVec.ofNat 128 (xs.getD j 0), j⟩) (th.retention o.rh)
        Thread.retire

/-- The address of lane `i` of a `vgth` or `vsct` (R248). -/
def vgEa (o : Vg) (th : Thread) (idx : List Nat) (i : Nat) : W64 :=
  th.src o.sb + (BitVec.ofNat 32 (idx.getD i 0)).signExtend 64
/-- `vgth` (R248-R251). -/
def execVgth (o : Vg) (s : State) : Outcome State Fault Refusal :=
  vissue { srcs := [o.sb], vecs := [o.v, o.vi], vx := true } (some o.v) s fun s t th =>
    let n := ewW o.ew / 8
    let idx := els 32 (s.vreg th o.vi)
    let js := actives (s.mask th o.vm) 32
    match firstBad s th n true (js.map (vgEa o th idx)) with
    | some (c, v) => .trap s c 0 v
    | none => sendVec s t th (.vec o.v) (js.map fun i => (⟨vgEa o th idx i, n, 32 * i, 32, 0⟩ : Part)) (th.retention o.rh)
/-- `vsct` (R248-R251): lanes in ascending order. -/
def execVsct (o : Vg) (s : State) : Outcome State Fault Refusal :=
  vissue { srcs := [o.sb], vecs := [o.v, o.vi] } none s fun s t th =>
    let n := ewW o.ew / 8
    let idx := els 32 (s.vreg th o.vi)
    let xs := els 32 (s.vreg th o.v)
    let js := actives (s.mask th o.vm) 32
    match firstBad s th n false (js.map (vgEa o th idx)) with
    | some (c, v) => .trap s c 0 v
    | none =>
      s.storeAll t th (js.map fun i => ⟨vgEa o th idx i, n, BitVec.ofNat 128 (xs.getD i 0), i⟩) (th.retention o.rh)
        Thread.retire

end Sys2Proof.Machine
end

