-- ==== Sys2Proof/Machine/Matrix.lean ====
section
/-! DEFINITION. The matrix engine (R195-R197, R254-R265): `mma`, accumulators, sparsity streams, and the steps of its
queue. -/

namespace Sys2Proof.Machine

open Host (Outcome)

/-! ## Forms (R254) -/

/-- Element codes of the operands of a form. -/
def formA (form : Nat) : Nat :=
  match form with | 0 => 4 | 1 => 5 | 2 => 4 | 3 => 6 | 4 => 2 | 5 => 3 | 6 => 7 | _ => 8
def formB (form : Nat) : Nat :=
  match form with | 0 => 4 | 1 => 5 | 2 => 5 | 3 => 6 | 4 => 2 | 5 => 3 | 6 => 7 | _ => 7
def formBits (form : Nat) : Nat := (elemOf (formA form)).bits
def formScaled (form : Nat) : Bool := decide (form ≤ 3)
/-- Depth of a promotion group (R216). -/
def formG (form : Nat) : Nat := if form = 3 then 32 else 128

/-! ## Stored matrices (R255, R256) -/

/-- Stored rows and elements in each, of the A or the B operand under its direction bit. -/
def storedShape (isA dir : Bool) : Nat × Nat := if isA == dir then (128, 64) else (64, 128)

/-- Blocks of a descriptor operand: block rows R', blocks in each C, and the bank geometry of the code (R185). -/
structure Tile where
  base : Nat
  pitch : Nat
  diag : Bool
  rot  : Nat
  rows : Nat
  cols : Nat
deriving DecidableEq, Repr

/-- The tile of a descriptor on a core: a base that names the core's own scratchpad is its LOCAL address (R139). -/
def tileOf (core : Nat) (base ctl : W64) (shape : Nat × Nat) (w : Nat) : Tile :=
  let cb := shape.2 * w / 8
  ⟨(canonEa core base).toNat, ctl.toNat % 2 ^ 24, ctl.getLsbD 55, ctl.toNat / 2 ^ 48 % 16,
    if cb < 64 then shape.1 * cb / 64 else shape.1, (cb + 63) / 64⟩
/-- DIAG of R185: the LOCAL offset of a block. -/
def diagAt (r c base stride rot : Nat) : Nat := (r + c + rot) % 16 * 40960 + base + (r * stride + c / 16) * 64
/-- LOCAL offset of block (r, c). -/
def Tile.block (t : Tile) (r c : Nat) : Nat :=
  if t.diag then diagAt r c t.base (t.pitch / 64) t.rot else t.base + r * t.pitch + 64 * c
/-- All blocks, row after row. -/
def Tile.blocks (t : Tile) : List Nat := (List.range t.rows).flatMap fun r => (List.range t.cols).map fun c => t.block r c

/-- Slices of 16 K indices (R262) that a block holds, the tile's stored rows being along K or across it. -/
def Tile.slices (t : Tile) (shape : Nat × Nat) (w i : Nat) : List Nat :=
  let r := i / t.cols
  let c := i % t.cols
  if shape.2 = 128 then (List.range 8).filter fun k => decide (c * 512 < (k + 1) * 16 * w) && decide (k * 16 * w < (c + 1) * 512)
  else [(if shape.2 * w < 512 then 512 / (shape.2 * w) * r else r) / 16]
/-- The blocks that the engine reads, with their places in the operand: those that hold K indices of kept slices (R195). -/
def Tile.read (t : Tile) (shape : Nat × Nat) (w : Nat) (keep : W8) : List (Nat × Nat) :=
  t.blocks.zipIdx.filter fun b => (t.slices shape w b.2).any fun k => keep.getLsbD k

/-- The checks of R256, in their order: cause, detail, value. -/
def State.tileCheck (s : State) (core : Nat) (asid : W16) (sup : Bool) (base : W64) (t : Tile) (code : Nat) :
    Option (Cause × W8 × W64) :=
  if !(match resolve core base with | some (.sp c _) => c == core | _ => false) then some (.addressSpace, 0, base)
  else if t.base % 64 ≠ 0 ∨ t.pitch % 64 ≠ 0 ∨ t.pitch = 0 ∨ (!t.diag ∧ t.pitch < 64 * t.cols) then
    some (.misaligned, 0, base)
  else if (if t.diag then 40960 ≤ t.base ∨ t.base + ((t.rows - 1) * t.pitch / 64 + 1) * 64 > 40960
      else t.base + (t.rows - 1) * t.pitch + 64 * t.cols > 655360) then some (.addressSpace, 0, base)
  else
    let bs := t.blocks
    match (if sup then none else bs.find? fun b => !s.lpuOk core asid b 64) with
    | some b => some (.localProt, 0, BitVec.ofNat 64 b)
    | none =>
      let bad := (List.range 16).find? fun k =>
        let f := (s.bankReg core k).toNat % 16
        f != 0 && f != code && bs.any fun b => bankOf b == k
      match bad with
      | some k => some (.addressSpace, 1, BitVec.ofNat 64 ((bs.find? fun b => bankOf b == k).getD 0))
      | none => none

/-- The source lock of a descriptor operand (R275): striped under DIAG. -/
def Tile.lock (t : Tile) (core : Nat) (seq : W8) (id : Nat) : Lock :=
  if t.diag then ⟨BitVec.ofNat 64 t.base, BitVec.ofNat 32 (t.rows * t.pitch / 64 - 1), false, seq ||| 0x80, id⟩
  else mkLock core t.base ((t.rows - 1) * t.pitch + 64 * t.cols) false seq id

/-- The operand bits of blocks, stored rows one after another, with what the issuer's open chunk holds. -/
def State.tileBits (s : State) (core : Nat) (held : List HeldLine) (bs : List (Nat × Nat)) : Nat :=
  bs.foldl (fun a b => a ||| (overlayHeld held b.1 64 (s.rd (spKey core b.1) 64) <<< (512 * b.2))) 0
/-- What reading the blocks does to the check bits, and the address of the first uncorrectable error (R260). -/
def State.tileErrors (s : State) (core : Nat) : List (Nat × Nat) → Option W64 → Option W64 × State
  | [], e => (e, s)
  | b :: bs, e =>
    let (bad, s1) := s.eccRead core (spKey core b.1) 64
    State.tileErrors s1 core bs (e.or (if bad then (s.eccBad (spKey core b.1) 64).map fun k =>
      BitVec.ofNat 64 (k - spKey core 0) else none))

/-! ## Arithmetic (R216-R218) -/

/-- The value of an operand element. -/
def Elem.val (e : Elem) (v : Nat) : FVal :=
  match e with
  | .raw => .fin false v 0
  | .flt f => f.unpack v
  | .int b sg =>
    let x := intVal b sg v
    .fin (decide (x < 0)) x.natAbs 0
def Elem.q (e : Elem) : Int := match e with | .flt f => f.qmin | _ => 0

/-- Rows of a bit string: `n` rows of `m` elements. -/
def rowsOf (e : Elem) (m : Nat) : Nat → Nat → List (List FVal)
  | 0, _ => []
  | n + 1, v => ((elsOf e.bits m (v % 2 ^ (m * e.bits))).map e.val) :: rowsOf e m n (v / 2 ^ (m * e.bits))
/-- Transpose of rows that all have `m` elements. -/
def transposeN {α : Type} : Nat → List (List α) → List (List α)
  | 0, _ => []
  | m + 1, rows => rows.filterMap List.head? :: transposeN m (rows.map List.tail)
/-- The A operand's rows i, and the B operand's columns j, each 128 deep. -/
def operand (e : Elem) (isA dir : Bool) (v : Nat) : List (List FVal) :=
  let sh := storedShape isA dir
  let rows := rowsOf e sh.2 sh.1 v
  if sh.2 = 128 then rows else transposeN sh.2 rows

/-- The exact sum of one group: products of skipped slices count as +0 (R217). -/
def groupSum (q : Int) (keep : W8) : Nat → List FVal → List FVal → Group → Group
  | k, x :: xs, y :: ys, g =>
    groupSum q keep (k + 1) xs ys
      (if keep.getLsbD (k / 16) then g.addProd q x y else { g with allNegZero := false })
  | _, _, _, g => g
/-- An operand of a group that is an infinity or a NaN, in slices kept. -/
def groupInf (keep : W8) : Nat → List FVal → List FVal → Bool
  | k, x :: xs, y :: ys => (keep.getLsbD (k / 16) && (x.isNan || x.isInf || y.isNan || y.isInf)) || groupInf keep (k + 1) xs ys
  | _, _, _ => false

/-- One accumulator element: its groups in ascending order, with NV and OF. `nz` says that products can be −0: those of the
integer forms cannot. -/
def mmaElem (nz : Bool) (q : Int) (keep : W8) (g : Nat) (scales : Nat → Option (Nat × Nat)) :
    Nat → Nat → List FVal → List FVal → Nat → Nat × Bool × Bool
  | 0, _, _, _, acc => (acc, false, false)
  | n + 1, i, xs, ys, acc =>
    let x := xs.take g
    let y := ys.take g
    let (p, nv) := (groupSum q keep (i * g) x y { allNegZero := nz }).p q
    let (r, nv1, ovf) := applyGroup acc p (groupInf keep (i * g) x y) (scales i)
    let (v, nv2, ovf2) := mmaElem nz q keep g scales n (i + 1) (xs.drop g) (ys.drop g) r
    (v, nv || nv1 || nv2, ovf || ovf2)

/-- Lane `l` of register `r` of the scale lanes (R257). -/
def scaleLane (vs : BitVec 16384) (r l : Nat) : Nat := (vs.extractLsb' (4096 * r + 32 * l) 32).toNat
def scalesOf (form : Nat) (vs : BitVec 16384) (i j g : Nat) : Option (Nat × Nat) :=
  if !formScaled form then none
  else if form = 3 then some (scaleLane vs g i, scaleLane vs g (64 + j))
  else some (scaleLane vs 0 i, scaleLane vs 0 64)

/-- A list cut into rows of 64. -/
def chunks64 : Nat → List Nat → List (List Nat)
  | 0, _ => []
  | n + 1, l => l.take 64 :: chunks64 n (l.drop 64)

/-- The accumulator after an `mma` (R216), with NV and OF. -/
def mmaResult (form : Nat) (keep : W8) (vs : BitVec 16384) (dirA dirB : Bool) (va vb acc : Nat) : Nat × Bool × Bool :=
  let ea := elemOf (formA form)
  let eb := elemOf (formB form)
  let as_ := operand ea true dirA va
  let bs := operand eb false dirB vb
  let rows := chunks64 64 (elsOf 32 4096 acc)
  let res := (as_.zip rows).zipIdx.map fun r => (bs.zip r.1.2).zipIdx.map fun c =>
    mmaElem (decide (form ≤ 5)) (ea.q + eb.q) keep (formG form) (scalesOf form vs r.2 c.2) (128 / formG form) 0 r.1.1 c.1.1 c.1.2
  let flat := res.flatten
  (packEls 32 (flat.map fun x => x.1), flat.any fun x => x.2.1, flat.any fun x => x.2.2)

/-- `acc.scale` (R265). -/
def scaleAcc (scale acc : Nat) : Nat × Bool × Bool :=
  let res := (elsOf 32 4096 acc).map fun x =>
    if !scaleOk scale then (fp32.nanBits, true, false)
    else
      let r := fp32.mul .rne (fp32.unpack x) (fp32.unpack scale)
      (r.v, zeroTimesInf (fp32.unpack x) (fp32.unpack scale), r.fl &&& fOF != 0)
  (packEls 32 (res.map fun x => x.1), res.any fun x => x.2.1, res.any fun x => x.2.2)

/-! ## Issue of `mma` (R259) -/

/-- A physical accumulator granted to a thread (R258). -/
def Thread.accOf (th : Thread) (n : BitVec 3) : Option Nat := th.lau.accs[n.toNat]?
/-- First register of a group operand (R81). -/
def groupFirst (a : BitVec 5) : Nat := if a.getLsbD 4 then 16 else 0
def groupList (form first : Nat) : List (BitVec 5) := (List.range (groupRegs form)).map fun i => BitVec.ofNat 5 (first + i)
/-- The scale registers of a form (R257). -/
def scaleRegs (th : Thread) (form : Nat) : List (BitVec 5) :=
  if !formScaled form then []
  else
    let v := th.scl?.getD 31
    if form = 3 then (List.range 4).map fun i => (v &&& 0x1C) + BitVec.ofNat 5 i else [v]

/-- What an `mma` word names. -/
def qMma (form : Nat) (o : Mx) : Issue :=
  { anch := true
    srcs := (if o.asel = 1 then [o.a, fieldNext o.a] else []) ++ (if o.bsel = 1 then [o.b, fieldNext o.b] else [])
    vecs := (if o.asel = 1 then [] else groupList form (groupFirst o.a)) ++
      (if o.bsel = 1 then [] else groupList form (groupFirst o.b)) }

/-- The bits of a register group. -/
def State.groupBits (s : State) (th : Thread) (form first : Nat) : Nat :=
  (List.range (groupRegs form)).foldl (fun a i => a ||| ((s.vreg th (BitVec.ofNat 5 (first + i))).toNat <<< (4096 * i))) 0
/-- Scale lanes as the engine keeps them. -/
def State.scaleBits (s : State) (th : Thread) (form : Nat) : BitVec 16384 :=
  BitVec.ofNat 16384 (((scaleRegs th form).zipIdx).foldl (fun a r => a ||| ((s.vreg th r.1).toNat <<< (4096 * r.2))) 0)

/-- Skip-list fields of a stream (R261). -/
def skStart (v : W64) : Nat := v.toNat % 2 ^ 20
def skLen (v : W64) : Nat := v.toNat / 2 ^ 20 % 65536
def skPosn (v : W64) : Nat := v.toNat / 2 ^ 36 % 65536
def skPack (start len pos : Nat) : W64 := BitVec.ofNat 64 (start + len * 2 ^ 20 + pos * 2 ^ 36)
/-- The slices that an entry keeps (R262): the runs S0, K0, S1, K1 from slice 0 upwards. -/
def sliceMask (e : Nat) : W8 :=
  let s0 := e % 16
  let k0 := e / 16 % 16
  let s1 := e / 256 % 16
  let k1 := e / 4096 % 16
  BitVec.ofNat 8 (((List.range 8).filter fun i =>
    (decide (s0 ≤ i) && decide (i < s0 + k0)) ||
      (decide (s0 + k0 + s1 ≤ i) && decide (i < s0 + k0 + s1 + k1))).foldl (fun a i => a + 2 ^ i) 0)
def State.sk (s : State) (core i : Nat) : W64 := (s.core core).e.sk.getD i 0
/-- Change a stream; a deterministic chunk keeps what it was. -/
def State.setSk (s : State) (t : Tid) (core i : Nat) (v : W64) : State :=
  let old := s.sk core i
  let s1 := s.modThread t fun u =>
    if u.chunk.open_ && (u.chunk.sks.find i).isNone then { u with chunk := { u.chunk with sks := u.chunk.sks.set i old } } else u
  s1.modE core fun e => { e with sk := e.sk.put 0 i v }
/-- The bank of a stream's next entry. -/
def State.skBank (s : State) (core i : Nat) : Option Nat :=
  let v := s.sk core i
  if skLen v = 0 then none else s.sleeping core (skStart v + 2 * skPosn v) 2
/-- Take the entry of stream `i` (R262) for a thread; `own` is the thread when a word of its takes it, so that its chunk keeps
what the stream was. -/
def State.takeSlices (s : State) (t own : Tid) (core i : Nat) (held : List HeldLine) : W8 × State :=
  let v := s.sk core i
  if skLen v = 0 then (0xFF, s)
  else
    let a := skStart v + 2 * skPosn v
    let (bad, s1) := s.eccRead core (spKey core a) 2
    (sliceMask (overlayHeld held a 2 (s.rd (spKey core a) 2)),
      (if bad then s1.defer t .memError (BitVec.ofNat 64 a) else s1).setSk own core i
        (skPack (skStart v) (skLen v) ((skPosn v + 1) % skLen v)))

/-- Queue an operation. -/
def State.enqueue (s : State) (core : Nat) (op : MmaOp) : State := s.modE core fun e => { e with queue := e.queue ++ [op] }
/-- The queue has room (R196). -/
def State.mmaRoom (s : State) (core : Nat) : Bool := decide ((s.core core).e.queue.length < 4)

/-- A descriptor operand of a word: source, tile and format code. -/
def descOf (th : Thread) (form : Nat) (isA : Bool) (f : BitVec 5) (dir : BitVec 1) : MmaSrc × Tile × Nat :=
  let base := th.src f
  let ctl := th.src (fieldNext f)
  (.desc base ctl (dir == 1), tileOf th.core base ctl (storedShape isA (dir == 1)) (formBits form),
    if isA then formA form else formB form)

/-- `mma` (R254, R259); inside a region it traps (R277). -/
def mmaBody (form : Nat) (o : Mx) : Body := fun s t th =>
  if th.rg then .trap s .privilege 0 0x7
  else match th.accOf o.ac with
  | none => .trap s .privilege 0 0x8
  | some acc =>
    let ga := if o.asel = 1 then [] else groupList form (groupFirst o.a)
    let gb := if o.bsel = 1 then [] else groupList form (groupFirst o.b)
    let sr := scaleRegs th form
    match sr.filter fun v => (ga ++ gb).contains v with
    | v :: r => .trap s .scale 0 (BitVec.ofNat 64 (r.foldl (fun a x => min a x.toNat) v.toNat))
    | [] =>
      match sr.find? (s.vecPending t) with
      | some v => .park s (.vreg v)
      | none =>
        let ds := (if o.asel = 1 then [descOf th form true o.a o.da] else []) ++
          (if o.bsel = 1 then [descOf th form false o.b o.db] else [])
        match ds.findSome? fun d => match d.1 with
            | .desc base _ _ => s.tileCheck th.core th.c.asid th.sup base d.2.1 d.2.2
            | .regs _ _ => none with
        | some (c, detail, v) => .trap (s.setThread t { th with slices := none }) c detail v
        | none =>
          match (if o.sk = 0 || th.slices.isSome then none else s.skBank th.core (o.sk.toNat - 1)) with
          | some b => .park (s.touchBank th.core b) (.bank b)
          | none =>
            -- the entry is taken before the queue has room, once (R259)
            let (keep, s1) := match th.slices with
              | some k => (k, s)
              | none => if o.sk = 0 then ((0xFF : W8), s) else s.takeSlices t t th.core (o.sk.toNat - 1) th.held
            let wait := fun (w : Wait) =>
              Res.park (if o.sk = 0 then s1 else s1.modThread t fun u => { u with slices := some keep }) w
            if !s.mmaRoom th.core then wait .mmaRoom
            else if s.lockSpace th.core < ds.length then wait (.lockRoom ds.length)
            else
            let (id, s2) := s1.takeId
            let (seq, s3) := s2.takeSeq th.core
            let s4 := s3.lockAll (ds.map fun d => (th.core, d.2.1.lock th.core seq id))
            let src := fun (sel : BitVec 1) (f : BitVec 5) (dir : BitVec 1) (isA : Bool) =>
              if sel = 1 then (descOf th form isA f dir).1 else .regs (groupFirst f) (dir == 1)
            let bits := fun (sel : BitVec 1) (f : BitVec 5) =>
              BitVec.ofNat 131072 (if sel = 1 then 0 else s.groupBits th form (groupFirst f))
            .done ((s4.enqueue th.core
              { id := id, tid := t, kind := .mma, form := form, acc := acc, keep := keep, asid := th.c.asid
                a := src o.asel o.a o.da true, b := src o.bsel o.b o.db false
                va := bits o.asel o.a, vb := bits o.bsel o.b, vs := s.scaleBits th form }).modThread t fun u =>
                { u.retire with slices := none })

/-- `mma.e4m3` (R254). -/
def execMmaE4m3 (o : Mx) (s : State) : Outcome State Fault Refusal := issue (qMma 0 o) s (mmaBody 0 o)
/-- `mma.e5m2` (R254). -/
def execMmaE5m2 (o : Mx) (s : State) : Outcome State Fault Refusal := issue (qMma 1 o) s (mmaBody 1 o)
/-- `mma.e4m3e5m2` (R254). -/
def execMmaE4m3e5m2 (o : Mx) (s : State) : Outcome State Fault Refusal := issue (qMma 2 o) s (mmaBody 2 o)
/-- `mma.e2m1` (R254). -/
def execMmaE2m1 (o : Mx) (s : State) : Outcome State Fault Refusal := issue (qMma 3 o) s (mmaBody 3 o)
/-- `mma.bf16` (R254). -/
def execMmaBf16 (o : Mx) (s : State) : Outcome State Fault Refusal := issue (qMma 4 o) s (mmaBody 4 o)
/-- `mma.fp16` (R254). -/
def execMmaFp16 (o : Mx) (s : State) : Outcome State Fault Refusal := issue (qMma 5 o) s (mmaBody 5 o)
/-- `mma.i8` (R254). -/
def execMmaI8 (o : Mx) (s : State) : Outcome State Fault Refusal := issue (qMma 6 o) s (mmaBody 6 o)
/-- `mma.u8i8` (R254). -/
def execMmaU8i8 (o : Mx) (s : State) : Outcome State Fault Refusal := issue (qMma 7 o) s (mmaBody 7 o)

/-! ## Accumulators (R264, R265) -/

/-- The accumulator of an `acc` word, outside regions (R258, R277). -/
def withAcc (an : BitVec 3) (k : State → Tid → Thread → Nat → Res) : Body := fun s t th =>
  if th.rg then .trap s .privilege 0 0x7
  else match th.accOf an with
  | none => .trap s .privilege 0 0x8
  | some a => k s t th a

/-- `acc.zero` (R265). -/
def execAccZero (an : BitVec 3) (s : State) : Outcome State Fault Refusal :=
  issue { anch := true } s <| withAcc an fun s t th a =>
    if !s.mmaRoom th.core then .park s .mmaRoom
    else
      let (id, s1) := s.takeId
      let (_, s2) := s1.takeSeq th.core
      .done ((s2.enqueue th.core { id := id, tid := t, kind := .zero, acc := a }).modThread t Thread.retire)

/-- `acc.scale` (R265). -/
def execAccScale (sa : BitVec 5) (an : BitVec 3) (s : State) : Outcome State Fault Refusal :=
  issue { anch := true, srcs := [sa] } s <| withAcc an fun s t th a =>
    if !s.mmaRoom th.core then .park s .mmaRoom
    else
      let (id, s1) := s.takeId
      let (_, s2) := s1.takeSeq th.core
      .done ((s2.enqueue th.core { id := id, tid := t, kind := .scale, acc := a, arg := th.src sa }).modThread t
        Thread.retire)

/-- Row pitch of a transfer (R265). -/
def accPitch (b : W64) : Nat := if b = 0 then 256 else b.toNat

/-- `acc.ld` and `acc.st` at issue (R265): the token empties, the range is locked, the operation is queued. -/
def accMove (st : Bool) (sa sb : BitVec 5) (sd : BitVec 4) (sc : BitVec 2) (an : BitVec 3) (s : State) :
    Outcome State Fault Refusal :=
  issue { anch := true, srcs := [sa, sb], dsts := [sd] } s <| withAcc an fun s t th a =>
    if !s.mmaRoom th.core then .park s .mmaRoom
    else if s.lockSpace th.core < 1 then .park s (.lockRoom 1)
    else if st && th.det && th.chunk.open_ && decide (0 < th.chunk.words) then .done (s.endChunk t .lines)
    else if st && s.dirtyFull th.core th.c.asid (th.src sa) (63 * accPitch (th.src sb) + 256) then .park s .dirtyRoom
    else
      let (id, s1) := s.takeId
      let (seq, s2) := s1.takeSeq th.core
      let addr := th.src sa
      let s3 := s2.lockAt th.core (mkLock th.core addr.toNat (63 * accPitch (th.src sb) + 256) st seq id)
      .done ((s3.enqueue th.core { id := id, tid := t, kind := if st then .st else .ld, acc := a, token := sd, addr := addr
                                   arg := th.src sb, asid := th.c.asid, sc := sc }).setThread t (th.retire.empty sd))
/-- `acc.ld` (R265). -/
def execAccLd (sa sb : BitVec 5) (sd : BitVec 4) (sc : BitVec 2) (an : BitVec 3) (s : State) : Outcome State Fault Refusal :=
  accMove false sa sb sd sc an s
/-- `acc.st` (R265). -/
def execAccSt (sa sb : BitVec 5) (sd : BitVec 4) (sc : BitVec 2) (an : BitVec 3) (s : State) : Outcome State Fault Refusal :=
  accMove true sa sb sd sc an s

/-- An accumulator's bits. -/
def State.accBits (s : State) (core a : Nat) : BitVec 131072 := (s.core core).e.acc.getD a 0
/-- Change an accumulator on behalf of request `id`; a deterministic chunk keeps what it was before its own. -/
def State.setAcc (s : State) (t : Tid) (core id a : Nat) (v : BitVec 131072) : State :=
  let old := s.accBits core a
  let s1 := s.modThread t fun u =>
    if u.chunk.open_ && decide (u.chunk.firstId ≤ id) && (u.chunk.accs.find a).isNone then
      { u with chunk := { u.chunk with accs := u.chunk.accs.set a old } }
    else u
  s1.modE core fun e => { e with acc := e.acc.put 0 a v }
/-- A queued operation names the accumulator. -/
def State.accBusy (s : State) (core a : Nat) : Bool := (s.core core).e.queue.any fun o => o.acc == a

/-- `acc.row` without `wr` (R265): a row to lanes 0-63. -/
def execAccRowRead (va : BitVec 5) (sb : BitVec 5) (an : BitVec 3) (s : State) : Outcome State Fault Refusal :=
  vissue { srcs := [sb], vecs := [va], vx := true } (some va) s <| withAcc an fun s t th a =>
    if s.accBusy th.core a then .park s (.acc a)
    else
      let row := (th.src sb).toNat % 64
      let x := (s.accBits th.core a).extractLsb' (2048 * row) 2048
      let v := (s.vreg th va).extractLsb' 2048 2048 ++ x
      .done ((s.setVreg th va v).modThread t Thread.retire)

/-- Replace a row. -/
def putRow (acc : BitVec 131072) (row : Nat) (x : BitVec 2048) : BitVec 131072 :=
  let m : BitVec 131072 := (BitVec.allOnes 2048).zeroExtend 131072 <<< (2048 * row)
  (acc &&& ~~~m) ||| (x.zeroExtend 131072 <<< (2048 * row))

/-- `acc.row` with `wr` (R265). -/
def execAccRowWrite (va : BitVec 5) (sb : BitVec 5) (an : BitVec 3) (s : State) : Outcome State Fault Refusal :=
  issue { anch := true, srcs := [sb], vecs := [va], vx := true } s <| withAcc an fun s t th a =>
    if s.accBusy th.core a then .park s (.acc a)
    else
      let row := (th.src sb).toNat % 64
      .done ((s.setAcc t th.core s.nextId a (putRow (s.accBits th.core a) row ((s.vreg th va).extractLsb' 0 2048))).modThread
        t Thread.retire)

/-! ## Sparsity streams (R263) -/

/-- `skd.set` (R263). -/
def execSkdSet (sa sb : BitVec 5) (sk : BitVec 2) (s : State) : Outcome State Fault Refusal :=
  issue { srcs := [sa, sb] } s fun s t th =>
    let a := th.src sa
    let start := a.toNat % 2 ^ 20
    let len := (th.src sb).toNat % 65536
    if th.rg then .trap s .privilege 0 0x7
    else if start % 2 = 1 then .trap s .misaligned 0 a
    else if start + 2 * len > 655360 then .trap s .addressSpace 0 a
    else .done ((s.setSk t th.core sk.toNat (skPack start len 0)).modThread t Thread.retire)
/-- `skd.reset` (R263). -/
def execSkdReset (sk : BitVec 2) (s : State) : Outcome State Fault Refusal :=
  issue {} s fun s t th =>
    if th.rg then .trap s .privilege 0 0x7
    else
      let v := s.sk th.core sk.toNat
      .done ((s.setSk t th.core sk.toNat (skPack (skStart v) (skLen v) 0)).modThread t Thread.retire)
/-- `skd.pos` (R263). -/
def execSkdPos (sd : BitVec 4) (sk : BitVec 2) (s : State) : Outcome State Fault Refusal :=
  issue { dsts := [sd] } s fun s t th =>
    if th.rg then .trap s .privilege 0 0x7
    else .done (s.setThread t (th.retire.setX sd (s.sk th.core sk.toNat)))

/-! ## The steps of the queue (R196, R259, R265) -/

/-- Change the operation with a number. -/
def State.modOp (s : State) (core id : Nat) (f : MmaOp → MmaOp) : State :=
  s.modE core fun e => { e with queue := e.queue.map fun o => if o.id = id then f o else o }

/-- The next operation to start: the first that is queued, once all before it are past their last occupied cycle. -/
def State.nextStart (s : State) (core : Nat) : Option MmaOp :=
  match (s.core core).e.queue.dropWhile fun o => o.stage == .consumed with
  | o :: _ => if o.stage == .queued then some o else none
  | [] => none

/-- The scratchpad blocks that an operation reads of an operand, with their places. -/
def MmaOp.blocks (o : MmaOp) (core : Nat) (isA : Bool) : List (Nat × Nat) :=
  match (if isA then o.a else o.b) with
  | .desc base ctl dir =>
    let sh := storedShape isA dir
    if o.kind = .mma then (tileOf core base ctl sh (formBits o.form)).read sh (formBits o.form) o.keep else []
  | .regs _ _ => []
/-- The ranges of a transfer. -/
def MmaOp.range (o : MmaOp) : List (Nat × Nat) :=
  match o.kind with
  | .ld | .st => [(o.addr.toNat, 63 * accPitch o.arg + 256)]
  | _ => []
/-- Banks of an operation that are not awake. -/
def State.opAsleep (s : State) (core : Nat) (o : MmaOp) : List (Nat × Nat) :=
  s.banksAsleep core (o.range ++ (o.blocks core true ++ o.blocks core false).map fun b => (b.1, 64))

/-- The engine may start an operation: no entry of an earlier operation conflicts (R200), a transfer's release wait is over,
and its banks are awake or a wake is to be started (R192). -/
def startReady (s : State) (core : Nat) : Bool :=
  (s.nextStart core).any fun o =>
    s.lockTurn o.id && (o.range.isEmpty || (s.engineAcked o.tid core o.id o.sc && s.noEntries core o.asid o.range)) &&
      ((s.opAsleep core o).isEmpty || s.anyGated (s.opAsleep core o))

/-- MMA_ENGINE_START (R259): a gated bank is woken first; a transfer starts with its release (R265). -/
def execMmaEngineStart (core : Nat) (s : State) : Outcome State Fault Refusal :=
  match s.nextStart core with
  | none => .refused (.notOffered "MMA_ENGINE_START")
  | some o =>
    if !startReady s core then .refused (.notOffered "MMA_ENGINE_START")
    else if !(s.opAsleep core o).isEmpty then .next (s.wakeBanks (s.opAsleep core o))
    else
      let s1 := if o.range.isEmpty then s else s.engineRelease o.tid core o.sc
      .next (s1.modOp core o.id fun x => { x with stage := .started })

/-- The operation that is occupying the engine. -/
def State.running (s : State) (core : Nat) (p : QKind → Bool) : Option MmaOp :=
  (s.core core).e.queue.find? fun o => o.stage == .started && p o.kind
/-- Operations other than transfers. -/
def QKind.computes : QKind → Bool
  | .ld | .st => false
  | _ => true

def consumedReady (s : State) (core : Nat) : Bool := (s.running core QKind.computes).isSome

/-- MMA_OPERANDS_CONSUMED (R259): the scratchpad operands are read; the source locks go (R200). -/
def execMmaOperandsConsumed (core : Nat) (s : State) : Outcome State Fault Refusal :=
  match s.running core QKind.computes with
  | none => .refused (.notOffered "MMA_OPERANDS_CONSUMED")
  | some o =>
    let held := if o.bind.isSome then [] else s.heldOf o.tid o.id
    let bits := fun (isA : Bool) (x : MmaSrc) (v : BitVec 131072) => match x with
      | .desc _ _ _ => BitVec.ofNat 131072 (s.tileBits core held (o.blocks core isA))
      | .regs _ _ => v
    let (bad, s1) := s.tileErrors core (o.blocks core true ++ o.blocks core false) none
    .next ((s1.modOp core o.id fun x =>
      if x.kind = .mma then { x with stage := .consumed, va := bits true x.a x.va, vb := bits false x.b x.vb, bad := bad }
      else { x with stage := .consumed }).unlock o.id fun l => !l.dest)

/-- The head of the queue that has consumed its operands. -/
def State.headDone (s : State) (core : Nat) : Option MmaOp :=
  match (s.core core).e.queue with
  | o :: _ => if o.stage == .consumed && o.kind.computes then some o else none
  | [] => none
def completionReady (s : State) (core : Nat) : Bool := (s.headDone core).isSome

def MmaSrc.dir : MmaSrc → Bool
  | .regs _ d => d
  | .desc _ _ d => d

/-- The accumulator and flags that a finished operation leaves: after an error in an operand every element is the canonical NaN
(R260). -/
def MmaOp.result (o : MmaOp) (acc : Nat) : Nat × Bool × Bool :=
  match o.kind with
  | .mma =>
    if o.bad.isSome then (packEls 32 (List.replicate 4096 fp32.nanBits), false, false)
    else mmaResult o.form o.keep o.vs o.a.dir o.b.dir o.va.toNat o.vb.toNat acc
  | .scale => scaleAcc (o.arg.toNat % 2 ^ 32) acc
  | _ => (0, false, false)

/-- MMA_COMPLETION (R196): the accumulator and the issuing thread's NV and OF (R218), or its deferred report (R260). -/
def execMmaCompletion (core : Nat) (s : State) : Outcome State Fault Refusal :=
  match s.headDone core with
  | none => .refused (.notOffered "MMA_COMPLETION")
  | some o =>
    let (v, nv, ovf) := o.result (s.accBits core o.acc).toNat
    let s1 := s.setAcc (if o.bind.isSome then noTid else o.tid) core o.id o.acc (BitVec.ofNat 131072 v)
    let s2 := s1.modE core fun e => { e with queue := e.queue.filter fun x => x.id ≠ o.id }
    let fl := (if nv then fNV else 0) ||| (if ovf then fOF else 0)
    .next (match o.bad, s2.threads.find o.tid with
      | some ea, _ => s2.defer o.tid .memError ea
      | none, some th => s2.raise o.tid th fl
      | none, none => s2)

/-- The transfer at the head of the queue. -/
def State.headMove (s : State) (core : Nat) : Option MmaOp :=
  match (s.core core).e.queue with
  | o :: _ => if o.stage == .started && !o.kind.computes then some o else none
  | [] => none
def transferReady (s : State) (core : Nat) : Bool := (s.headMove core).isSome

/-- Pieces of row `i` of a transfer, cut at lines: address, bytes, byte offset in the row. -/
def rowPieces (addr : Nat) : List (Nat × Nat × Nat) :=
  let first := 64 - addr % 64
  (List.range 5).filterMap fun i =>
    let lo := if i = 0 then 0 else first + 64 * (i - 1)
    let hi := min 256 (first + 64 * i)
    if lo < hi then some (addr + lo, hi - lo, lo) else none

/-- Move the rows of `acc.st`: lines written, or a fault. -/
def storePieces (a : Actor) (acc : BitVec 131072) : List (Nat × Nat × Nat × Nat) → State → List Nat → Moved
  | [], s, ls => .ok s ls
  | (row, ad, n, o) :: r, s, ls =>
    match s.engWrite a (BitVec.ofNat 64 ad) n ((acc.extractLsb' (2048 * row + 8 * o) (8 * n)).toNat) with
    | .ok _ s1 l => storePieces a acc r s1 (addLine ls l)
    | .err c ea s1 => .fault s1 ls c ea false
    | .hold ea e => .hold ea e

/-- Read the pieces of one row of `acc.ld`. -/
def loadRow (a : Actor) : List (Nat × Nat × Nat) → State → Nat → Except (W8 × W64 × State) (Nat × State) × Option (W64 × Nat)
  | [], s, v => (.ok (v, s), none)
  | (ad, n, o) :: r, s, v =>
    match s.engRead a (BitVec.ofNat 64 ad) n with
    | .ok x s1 _ => loadRow a r s1 (v ||| (x <<< (8 * o)))
    | .err c ea s1 => (.error (c, ea, s1), none)
    | .hold ea e => (.error (0x09, ea, s), some (ea, e))

/-- Move the rows of `acc.ld` into the accumulator; rows before a fault keep their new values. -/
def loadRows (a : Actor) (id acc : Nat) : List (Nat × Nat) → State → Moved
  | [], s => .ok s []
  | (row, ad) :: r, s =>
    match loadRow a (rowPieces ad) s 0 with
    | (.ok (v, s1), _) =>
      loadRows a id acc r (s1.setAcc a.tid a.core id acc (putRow (s1.accBits a.core acc) row (BitVec.ofNat 2048 v)))
    | (.error _, some (ea, e)) => .hold ea e
    | (.error (c, ea, s1), none) => .fault s1 [] c ea true

/-- What a transfer does. -/
def State.moveAcc (s : State) (core : Nat) (o : MmaOp) : Moved :=
  let p := accPitch o.arg
  let a : Actor := ⟨o.id, o.tid, core, o.asid, ((s.threads.find o.tid).map Thread.sup).getD false, o.pageFail, o.lost⟩
  if o.addr.toNat % 16 ≠ 0 ∨ p < 256 ∨ p % 16 ≠ 0 then .fault s [] 0x06 o.addr true
  else
    let at_ := fun (i : Nat) => (o.addr.toNat + i * p) % 2 ^ 64
    if o.kind = .st then
      storePieces a (s.accBits core o.acc) ((List.range 64).flatMap fun i => (rowPieces (at_ i)).map fun q => (i, q)) s []
    else loadRows a o.id o.acc ((List.range 64).map fun i => (i, at_ i)) s

/-- ACC_TRANSFER_COMPLETION (R265): the rows have moved; `acc.st` publishes at its scope; the token fills; the locks go. A
translation fault is held (R398). -/
def execAccTransferCompletion (core : Nat) (s : State) : Outcome State Fault Refusal :=
  match s.headMove core with
  | none => .refused (.notOffered "ACC_TRANSFER_COMPLETION")
  | some o =>
    let finish := fun (a : State) (ls : List Nat) (v : W64) =>
      let s1 := if o.kind = .st then a.enginePublish o.tid core o.sc ls else a
      let s2 := (s1.unlock o.id fun _ => true).modE core fun e => { e with queue := e.queue.filter fun x => x.id ≠ o.id }
      s2.modThread o.tid fun u => u.setX o.token v
    match s.moveAcc core o with
    | .ok s1 ls => .next (finish s1 ls 0)
    | .fault s1 ls c ea _ => .next (finish s1 ls (tokenErr c ea))
    | .hold ea e =>
      .next ((s.modOp core o.id fun x => { x with stage := .held }).holdAt core o.asid ea e (.accTransferCompletion core))

end Sys2Proof.Machine
end

