-- ==== Sys2Proof/Machine/Control.lean ====
section
/-! DEFINITION. Control flow (R114-R116), yielding and parking (R119, R120), traps and return (R166, R167), system registers
and modes (R31, R32, R168, R169), waits on registers (R176), hints (R65, R73) and the illegal words (R70). -/

namespace Sys2Proof.Machine

open Host (Outcome)

/-! ## Branches, calls and jumps -/

/-- The thread follows another's stream in a formed gang: the leader decides (R113). -/
def Thread.follows (th : Thread) (t : Tid) : Bool := th.gm && th.gang.any fun g => g.leader != t

/-- `bra` (R114). -/
def execBra (o : Br) (s : State) : Outcome State Fault Refusal :=
  issue { guard := some (o.pg, o.pn), flow := true } s (onThread fun th => th.retire.setPc (th.target o.off))

/-- `call` (R114): the link goes to `s14`. -/
def execCall (o : Br) (s : State) : Outcome State Fault Refusal :=
  issue { guard := some (o.pg, o.pn), dsts := [14], flow := true } s
    (onThread fun th => (th.retire.setX 14 th.link).setPc (th.target o.off))

/-- `jr` (R116): the target is checked before the link is written; a follower only writes its link (R113). -/
def jumpBody (sa : BitVec 5) (d : Option (BitVec 4)) : Body := fun s t th =>
  let v := th.src sa
  if !th.follows t && v.extractLsb' 32 16 == 0xFFFF then .trap s .addressSpace 0 v
  else
    let u := th.retire.modC fun c => { c with img := v.extractLsb' 32 16, pc := v.extractLsb' 0 32 }
    .done (s.setThread t (match d with | some d => u.setX d th.link | none => u))

/-- `jr.go` (R116). -/
def execJrGo (o : RrA) (s : State) : Outcome State Fault Refusal :=
  issue { qRrA o with flow := true } s (jumpBody o.sa none)
/-- `jr.link` (R116). -/
def execJrLink (o : Rr2) (s : State) : Outcome State Fault Refusal :=
  issue { qRr2 o with flow := true } s (jumpBody o.sa (some o.sd))
/-- `jr.ret` (R116): the effect of `jr.go`. -/
def execJrRet (o : RrA) (s : State) : Outcome State Fault Refusal :=
  issue { qRrA o with flow := true } s (jumpBody o.sa none)

/-! ## Yielding and parking -/

/-- `task.yield` (R119): to the tail of the run queue; only a turn in a deterministic launch and in a gang. -/
def execTaskYield (s : State) : Outcome State Fault Refusal :=
  issue {} s fun s t th =>
    if th.det || th.gm then .done (s.setThread t th.retire)
    else .done (s.setThread t { th.retire with run := .ready s.cycle, bslot := none })

/-- The instruction word as a trap value. -/
def State.wordVal (s : State) : W64 := s.word.zeroExtend 64

/-- `task.park` (R120). -/
def execTaskPark (s : State) : Outcome State Fault Refusal :=
  issue {} s fun s t th =>
    if th.gm then .trap s .privilege 0 0x4
    else if th.det then .trap s .determinism 0 s.wordVal
    else if th.c.wake then .done (s.setThread t (th.retire.modC fun c => { c with wake := false }))
    else .park s .token

/-! ## Traps and return -/

/-- `trap.sys` (R166); inside a region it traps with cause 0x04 (R164). -/
def execTrapSys (code : BitVec 6) (s : State) : Outcome State Fault Refusal :=
  issue {} s fun s t th =>
    if th.rg then .trap s .privilege 0 0x6
    else .trapNext (s.setThread t th.retire) .sys (code.zeroExtend 64)
/-- `trap.brk` (R166). -/
def execTrapBrk (code : BitVec 6) (s : State) : Outcome State Fault Refusal :=
  issue {} s fun s t th => .trapNext (s.setThread t th.retire) .brk (code.zeroExtend 64)
/-- `trap.assert` (R166). -/
def execTrapAssert (pa : BitVec 4) (code : BitVec 6) (s : State) : Outcome State Fault Refusal :=
  issue {} s fun s t th =>
    if th.p pa then .done (s.setThread t th.retire)
    else .trapNext (s.setThread t th.retire) .assert (code.zeroExtend 64)

/-- `eret` (R38, R167): with IH = 0 a privilege trap; it ends a floating-point report (R228). -/
def execEret (s : State) : Outcome State Fault Refusal :=
  issue {} s fun s t th =>
    if !th.ih then .trap s .privilege 0 s.wordVal
    else .done ((s.setThread t th.retire.leaveHandler).endFpReport th.core t)

/-! ## System registers (R31, R32, R168) -/

/-- log2 of a gang's size. -/
def log2Size (n : Nat) : Nat := if n = 8 then 3 else if n = 4 then 2 else if n = 2 then 1 else 0
/-- `gangidx`: member index and log2 size; 0 outside a formed gang. -/
def Thread.gangIdx (th : Thread) : W64 :=
  match (if th.gm then th.gang else none) with
  | some g => BitVec.ofNat 64 (th.core % g.size + 16 * log2Size g.size)
  | none => 0

/-- The value of a system register (R31); a reserved selector reads zero (R32). -/
def sysrVal (t : Tid) (th : Thread) (sel : BitVec 6) : W64 :=
  match sel.toNat with
  | 0x00 => BitVec.ofNat 64 t
  | 0x01 => BitVec.ofNat 64 (th.bslot.getD 0)
  | 0x02 => BitVec.ofNat 64 th.core
  | 0x03 => th.c.ord ++ th.c.asid ++ th.c.lid
  | 0x04 => th.lau.seed
  | 0x05 => th.rm.zeroExtend 64
  | 0x06 => th.flags.zeroExtend 64
  | 0x07 => th.ft.zeroExtend 64
  | 0x08 => (th.c.status.extractLsb' 14 7).zeroExtend 64
  | 0x09 => th.mo.tbm
  | 0x0A => th.mo.tbmd.zeroExtend 64
  | 0x0B => th.c.ecause.zeroExtend 64
  | 0x0C => th.c.epc.zeroExtend 64
  | 0x0D => th.c.eval
  | 0x0E => th.c.evec
  | 0x0F => th.gangIdx
  | _ => 0

/-- Whether a write of a selector is allowed (R31). -/
def sysrWritable (th : Thread) (sel : BitVec 6) : Bool :=
  match sel.toNat with
  | 0x05 | 0x06 | 0x07 => true
  | 0x0B | 0x0C | 0x0D => th.ih
  | 0x0E => th.sup
  | n => decide (0x10 ≤ n)

/-- Write a system register (R31): bits outside its width are ignored; 6 and 7 leave `rm` as it was. -/
def sysrWrite (th : Thread) (sel : BitVec 6) (v : W64) : Thread :=
  match sel.toNat with
  | 0x05 => if 6 ≤ v.toNat % 8 then th else th.setStatusBits 0 3 (v.extractLsb' 0 32)
  | 0x06 => th.setStatusBits 3 6 (v.extractLsb' 0 32)
  | 0x07 => th.setStatusBits 9 5 (v.extractLsb' 0 32)
  | 0x0B => th.modC fun c => { c with ecause := v.extractLsb' 0 16 }
  | 0x0C => th.modC fun c => { c with epc := v.extractLsb' 0 48 }
  | 0x0D => th.modC fun c => { c with eval := v }
  | 0x0E => th.modC fun c => { c with evec := v }
  | _ => th

/-- `sysr.get` (R168). -/
def execSysrGet (sd : BitVec 4) (sel : BitVec 6) (s : State) : Outcome State Fault Refusal :=
  issue { dsts := [sd] } s fun s t th => .done (s.setThread t (th.retire.setX sd (sysrVal t th sel)))

/-- A write of a system register: a new value from the old one and the source. The flags that the word writes as ones, `ones`
of the source, enter the cluster's accumulated flags (R286). -/
def sysrSetBody (sa : BitVec 5) (sel : BitVec 6) (f : W64 → W64 → W64) (ones : W64 → W64) : Body := fun s t th =>
  if sysrWritable th sel then
    let u := sysrWrite th.retire sel (f (sysrVal t th sel) (th.src sa))
    .done (s.raise t u (if sel = 6 then (ones (th.src sa)).extractLsb' 0 6 else 0))
  else .trap s .privilege 0 (sel.zeroExtend 64)
/-- `sysr.set` (R168). -/
def execSysrSet (sa : BitVec 5) (sel : BitVec 6) (s : State) : Outcome State Fault Refusal :=
  issue { srcs := [sa] } s (sysrSetBody sa sel (fun _ v => v) fun v => v)
/-- `sysr.setb` (R168). -/
def execSysrSetb (sa : BitVec 5) (sel : BitVec 6) (s : State) : Outcome State Fault Refusal :=
  issue { srcs := [sa] } s (sysrSetBody sa sel (fun r v => r ||| v) fun v => v)
/-- `sysr.clrb` (R168). -/
def execSysrClrb (sa : BitVec 5) (sel : BitVec 6) (s : State) : Outcome State Fault Refusal :=
  issue { srcs := [sa] } s (sysrSetBody sa sel (fun r v => r &&& ~~~v) fun _ => 0)

/-! ## Modes (R169) -/

/-- `mode.setrm` (R169): 6 and 7 leave RM unchanged. -/
def execModeSetrm (rm : BitVec 3) (s : State) : Outcome State Fault Refusal :=
  issue {} s (onThread fun th => if 6 ≤ rm.toNat then th.retire else th.retire.setStatusBits 0 3 (rm.zeroExtend 32))
/-- `mode.mobile` (R25, R165, R169). -/
def execModeMobile (s : State) : Outcome State Fault Refusal :=
  issue {} s fun s t th =>
    if th.vx || th.ih || th.rg || th.gm || th.sup || !th.bars.isEmpty then .trap s .privilege 0 0x1
    else if th.det then .trap s .determinism 0 s.wordVal
    else .done (s.setThread t (th.retire.setBit 14 true))
/-- The thread sits in a slot that another thread of its core is bound to (R180). -/
def State.lent (s : State) (t : Tid) (th : Thread) : Bool :=
  th.bslot.any fun b => s.threads.any fun e => e.1 != t && e.2.core == th.core && e.2.bound == some b
/-- `mode.anchor` (R169): a thread in a lent slot leaves it, for only a mobile one may borrow (R180). -/
def execModeAnchor (s : State) : Outcome State Fault Refusal :=
  issue {} s fun s t th =>
    let u := th.retire.setBit 14 false
    .done (s.setThread t (if s.lent t th then { u with run := .ready s.cycle, bslot := none } else u))
/-- `mode.getfl` (R169). -/
def execModeGetfl (sd : BitVec 4) (s : State) : Outcome State Fault Refusal :=
  issue { dsts := [sd] } s (writesX sd fun th => th.flags.zeroExtend 64)
/-- `mode.clrfl` (R169). -/
def execModeClrfl (mask : BitVec 6) (s : State) : Outcome State Fault Refusal :=
  issue {} s (onThread fun th => th.retire.setStatusBits 3 6 ((th.flags &&& ~~~mask).zeroExtend 32))

/-! ## Waits on registers (R176) -/

/-- `wait.full` (R176): without reading the value. -/
def execWaitFull (r : BitVec 4) (s : State) : Outcome State Fault Refusal :=
  issue {} s fun s t th => if th.full r then .done (s.setThread t th.retire) else .park s (.reg r)

/-- The lowest full register of a mask. -/
def Thread.lowestFull (th : Thread) (m : W16) : Option Nat :=
  (List.range 16).find? fun i => m.getLsbD i && th.c.fe.getLsbD i

/-- `wait.any` (R164, R165, R176): 16 for an empty mask. -/
def execWaitAny (sa : BitVec 5) (sd : BitVec 4) (s : State) : Outcome State Fault Refusal :=
  issue { srcs := [sa], dsts := [sd] } s fun s t th =>
    let m := (th.src sa).extractLsb' 0 16
    if th.rg then .trap s .privilege 0 0x6
    else if th.det then .trap s .determinism 0 s.wordVal
    else if m = 0 then .done (s.setThread t (th.retire.setX sd 16))
    else match th.lowestFull m with
      | some i => .done (s.setThread t (th.retire.setX sd (BitVec.ofNat 64 i)))
      | none => .park s (.anyReg m)

/-! ## Hints (R22, R65, R73) -/

/-- A hint takes its turn and changes the latch alone: the payload at its bits and its VALID bit. -/
def hintWord (f : W64 → W64) (s : State) : Outcome State Fault Refusal :=
  issue {} s (onThread fun th => th.modC fun c => { c with pc := c.pc + 1, hint := f c.hint })
/-- Record `len` bits at bit `lo` of the latch and set VALID bit `v`. -/
def latchSet (lo len v : Nat) (x : Nat) (h : W64) : W64 :=
  let m : W64 := BitVec.ofNat 64 ((2 ^ len - 1) <<< lo)
  (h &&& ~~~m) ||| BitVec.ofNat 64 (x <<< lo) ||| (1#64 <<< v)
/-- `hint.immx` (R65). -/
def execHintImmx (p : BitVec 24) (s : State) : Outcome State Fault Refusal := hintWord (latchSet 0 24 58 p.toNat) s
/-- `hint.scl` (R65). -/
def execHintScl (v : BitVec 5) (s : State) : Outcome State Fault Refusal := hintWord (latchSet 48 5 60 v.toNat) s
/-- `hint.lat` (R65): recorded, with no effect. -/
def execHintLat (lat : BitVec 3) (s : State) : Outcome State Fault Refusal := hintWord (latchSet 55 3 62 lat.toNat) s
/-- `hint.rh` (R65). -/
def execHintRh (code : BitVec 2) (s : State) : Outcome State Fault Refusal := hintWord (latchSet 53 2 61 code.toNat) s
/-- `hint.srk` (R65). -/
def execHintSrk (k : BitVec 24) (s : State) : Outcome State Fault Refusal := hintWord (latchSet 24 24 59 k.toNat) s
/-- `hint.nop` (R65). -/
def execHintNop (s : State) : Outcome State Fault Refusal := hintWord id s
/-- Hint codes 0xF6-0xFE act as `hint.nop` (R73). -/
def execHintUnnamed (_op : BitVec 8) (_p : BitVec 24) (s : State) : Outcome State Fault Refusal := hintWord id s

/-! ## The illegal words (R70) -/

/-- The all-zero word traps with cause 0x01. -/
def execIllegalWordZeros (s : State) : Outcome State Fault Refusal :=
  issue {} s fun s _ _ => .trap s .illegal 0 0x00000000
/-- The all-ones word traps with cause 0x01. -/
def execIllegalWordOnes (s : State) : Outcome State Fault Refusal :=
  issue {} s fun s _ _ => .trap s .illegal 0 0xFFFFFFFF

end Sys2Proof.Machine
end

