-- ==== Sys2Proof/Machine/System.lean ====
section
/-! DEFINITION. Mailboxes (R170-R175), cluster control registers (R285-R287), reserved encodings (R72), code loading
(R30, R193), reports of floating-point traps (R228, R229) and lasting faults of a core (R205). -/

namespace Sys2Proof.Machine

open Host (Outcome)

/-! ## Posting, fetching, counting (R172-R174) -/

/-- A LOCAL address of 64 bytes for a message (R172). -/
def localMsg (s : State) (th : Thread) (a : W64) (isLoad : Bool) (k : Nat → Res) : Res :=
  match resolve th.core a with
  | some (.sp c off) =>
    if c ≠ th.core then .trap s .addressSpace 0 a
    else match s.check th a 64 isLoad with
      | some cause => .trap s cause 0 a
      | none => k off
  | _ => .trap s .addressSpace 0 a

/-- An access of the thread's own scratchpad that waits for a bank that is not awake (R192). -/
def bankAwake (s : State) (th : Thread) (a : W64) (n : Nat) (k : Unit → Res) : Res :=
  match s.asleepFor th.core a n with
  | some b => .park (s.wakeFor th.core a n) (.bank b)
  | none => k ()

/-- The 64 bytes of a message in the thread's own scratchpad, and the state after they are read: an uncorrectable error is
reported through R141 (R205). -/
def State.msgAt (s : State) (t : Tid) (th : Thread) (a : W64) (off : Nat) : BitVec 512 × State :=
  let (bad, s1) := s.eccRead th.core (spKey th.core off) 64
  (BitVec.ofNat 512 (th.overHeld a 64 (s.rd (spKey th.core off) 64)), if bad then s1.defer t .memError a else s1)

/-- What the hardware writes into a message (R171). -/
def stampMsg (t : Tid) (th : Thread) (m : BitVec 512) : BitVec 512 :=
  msgPut (msgPut (msgPut (msgPut m 0 1 1) 4 4 t) 8 2 th.core) 36 2 th.c.asid.toNat

/-- The kind of a message (R171). -/
def msgKind (m : BitVec 512) : Nat := msgGet m 1 1

/-- The step that delivers a post: supervisors' resume messages and cluster control posts are consumed (R175, R285). -/
def postStep (p : PostReq) : Instr :=
  if p.sup && msgKind p.bytes == 3 then .resumeMessage p
  else if p.sup && p.dst / 8 == p.core / 8 && msgKind p.bytes == 4 then .clusterControlWrite p
  else if p.sup && p.dst / 8 == p.core / 8 && msgKind p.bytes == 5 then .clusterControlRead p
  else .mailboxDelivery p

/-- `mbx.post` after its checks: the release, then the post on its way with an empty status register (R172). -/
def State.postOut (s : State) (t : Tid) (th : Thread) (m : BitVec 512) (a : W64) (sd : BitVec 4) (prio : Bool) : State :=
  let (id, s1) := s.takeId
  let p : PostReq := ⟨id, t, th.core, th.c.asid, th.sup, some sd, (a.extractLsb' 0 9).toNat, prio,
    if a.getLsbD 63 then some (a.extractLsb' 32 15).toNat else none, none, stampMsg t th m, none⟩
  (s1.setThread t (th.retire.empty sd)).push (postStep p)

/-- `mbx.post` (R171, R172). In a deterministic chunk it posts at issue, and again when a squashed chunk runs again: the model's
choice (log entry 80). -/
def execMbxPost (sa sb : BitVec 5) (sd : BitVec 4) (prio : BitVec 1) (s : State) : Outcome State Fault Refusal :=
  issue { srcs := [sa, sb], dsts := [sd] } s fun s t th =>
    if th.rg then .trap s .privilege 0 0x6
    else localMsg s th (th.src sb) true fun off => bankAwake s th (th.src sb) 64 fun _ =>
      let m := (s.msgAt t th (th.src sb) off).1
      let a := th.src sa
      if !th.sup && decide (msgKind m < 0x10) then .trap s .privilege 0 0x5
      else if (a.extractLsb' 0 9).toNat ≠ th.core && decide (32 ≤ s.outstanding t th) then .park s .slots32
      else
        release (if dieOf (a.extractLsb' 0 9).toNat = dieOf th.core then 1 else 2) s t th fun s th =>
          let s1 := (s.msgAt t th (th.src sb) off).2
          .done (s1.postOut t ((s1.threads.find t).getD th) m a sd (prio == 1))

/-- The message that a fetch takes: the oldest of high priority, else the oldest of low. -/
def pickMsg (l : List Msg) (p : Msg → Bool) : Option Msg :=
  match l.find? fun m => p m && m.prio with
  | some m => some m
  | none => l.find? p

/-- `mbx.fetch` (R164, R165, R173): a package-scope acquire, with a message or without; the copy comes after the thread's older
accesses of the bytes (R45). -/
def execMbxFetch (sa : BitVec 5) (sd : BitVec 4) (s : State) : Outcome State Fault Refusal :=
  issue { srcs := [sa], dsts := [sd] } s fun s t th =>
    if th.rg then .trap s .privilege 0 0x6
    else if th.det then .trap s .determinism 0 s.wordVal
    else localMsg s th (th.src sa) false fun off =>
      match pickMsg (s.core th.core).k.mailbox fun m => th.sup || m.asid == th.c.asid with
      | none => .done ((s.acquireAt t th.core 2).modThread t fun u => u.retire.setX sd 1)
      | some m => bankAwake s th (th.src sa) 64 fun _ => match s.olderAccess t th.core (th.src sa) 64 with
        | some id => .park s (.war id)
        | none =>
          let s1 := s.modK th.core fun k => { k with mailbox := k.mailbox.erase m }
          .done (((s1.wr (spKey th.core off) 64 m.bytes.toNat).acquireAt t th.core 2).modThread t fun u => u.retire.setX sd 0)

/-- `mbx.count` (R173). -/
def execMbxCount (sd : BitVec 4) (s : State) : Outcome State Fault Refusal :=
  issue { dsts := [sd] } s fun s t th =>
    if th.det then .trap s .determinism 0 s.wordVal
    else
      let l := (s.core th.core).k.mailbox.filter fun m => th.sup || m.asid == th.c.asid
      let hi := l.countP fun m => m.prio
      .done (s.setThread t (th.retire.setX sd (BitVec.ofNat 64 (hi + 256 * (l.length - hi)))))

/-! ## Delivery (R170, R172) -/

/-- Fill the status register of a post. -/
def State.postStatus (s : State) (p : PostReq) (v : W64) : State :=
  match p.d with
  | some d => s.modThread p.tid fun u => u.setX d v
  | none => s

/-- Queue a message or refuse it (R170, R172): the status. -/
def State.queueMsg (s : State) (p : PostReq) : State × W64 :=
  if s.coreMode p.dst = .retired then (s, 2)
  else if !mailRoom (s.core p.dst).k p.prio then (s, 1)
  else
    let s1 := s.mailPut p.dst { prio := p.prio, asid := p.asid, bytes := p.bytes, pkg := p.fabric.map fun f => f.1 }
    let s2 := match p.wake with
      | some w =>
        match s1.threads.find w with
        | some u => if u.core = p.dst then s1.setThread w (u.modC fun c => { c with wake := true }) else s1
        | none => s1
      | none => s1
    (s2, 0)

/-- An older post of one thread to one core at one priority is still on its way (R170). -/
def olderPost (s : State) (p : PostReq) : Bool := s.postsBefore p.tid p.dst p.prio (p.fabric.map fun f => f.1) p.id

/-- A message can be delivered: no older one is before it, and another package has answered it (R441). -/
def deliveryReady (s : State) (p : PostReq) : Bool := !olderPost s p && (p.fabric.isNone || p.answer.isSome)

/-- Where a held message of the hardware goes: a fault message to the supervisor that its sender has now (R284), the reply of
R285 to its requester. -/
def faultDst (s : State) (p : PostReq) : Nat :=
  if s.coreMode p.dst = .retired ∧ msgKind p.bytes ≠ 6 then s.supCore p.core else p.dst
/-- A held message finds room, behind the older posts of its sender (R170). -/
def faultRoom (s : State) (p : PostReq) : Bool := mailRoom (s.core (faultDst s p)).k true && !olderPost s p

/-- FAULT_MESSAGE_DELIVERY (R170): queued once room appears. -/
def execFaultMessageDelivery (p : PostReq) (s : State) : Outcome State Fault Refusal :=
  perform "FAULT_MESSAGE_DELIVERY" (.faultMessageDelivery p) (faultRoom s p) s fun s =>
    s.mailPut (faultDst s p) { prio := true, asid := p.asid, bytes := p.bytes }

/-- RESUME_MESSAGE (R175): the thread named must be parked there by the supervisor branch of R38. -/
def execResumeMessage (p : PostReq) (s : State) : Outcome State Fault Refusal :=
  perform "RESUME_MESSAGE" (.resumeMessage p) true s fun s =>
    let rfl := msgGet p.bytes 2 1
    let w := msgGet p.bytes 16 4
    match s.threads.find w with
    | none => s.postStatus p (if s.coreMode p.dst = .retired then 2 else 3)
    | some th =>
      if s.coreMode p.dst = .retired then s.postStatus p 2
      else if th.core ≠ p.dst ∨ !th.parkedSup then s.postStatus p 3
      else
        let npc := BitVec.ofNat 64 (msgGet p.bytes 40 8)
        let u := if rfl / 2 % 2 = 1 then { th with lau := { th.lau with exiting := true, killed := true } }
          else
            let u1 := if rfl % 2 = 1 then th.setX 0 (BitVec.ofNat 64 (msgGet p.bytes 24 8)) else th
            if rfl / 4 % 2 = 1 then
              u1.modC fun c => { c with pc := npc.extractLsb' 0 32, img := npc.extractLsb' 32 16 }
            else u1
        (s.setThread w (u.wakeAt s.cycle)).postStatus p 0

/-! ## Cluster control registers (R285-R287) -/

/-- Threads resident in a cluster. -/
def State.threadsOf (s : State) (cl : Nat) : List Thread :=
  (s.threads.filter fun e => clusterOf e.2.core == cl && (match e.2.run with | .travelling _ => false | _ => true)).map
    fun e => e.2
def coreStateCode (m : CoreMode) : Nat :=
  match m with
  | .running => 0 | .halted => 1 | .faulted => 2 | .retired => 3
/-- The value of a cluster control register (R286); 0 for an unknown index. -/
def State.clusterReg (s : State) (cl idx : Nat) : W64 :=
  match idx with
  | 0 => (s.cluster cl).synclim.zeroExtend 64
  | 1 => ((s.threadsOf cl).foldl (fun a th => a ||| th.flags) (0 : BitVec 6)).zeroExtend 64
  | 2 => (s.cluster cl).flagacc.zeroExtend 64
  | 3 => BitVec.ofNat 64 (s.cluster cl).csb.length
  | 4 => BitVec.ofNat 64 ((List.range 8).foldl (fun a i => a + coreStateCode (s.coreMode (cl * 8 + i)) * 4 ^ i) 0)
  | _ => 0

/-- CLUSTER_CONTROL_WRITE (R285, R286): only SYNCLIM and FLAGACC can be written. -/
def execClusterControlWrite (p : PostReq) (s : State) : Outcome State Fault Refusal :=
  perform "CLUSTER_CONTROL_WRITE" (.clusterControlWrite p) true s fun s =>
    let v := BitVec.ofNat 64 (msgGet p.bytes 24 8)
    let m := BitVec.ofNat 64 (msgGet p.bytes 40 8)
    let s1 := match msgGet p.bytes 16 2 with
      | 0 => s.modCluster (clusterOf p.dst) fun c =>
          { c with synclim := (c.synclim &&& ~~~(m.extractLsb' 0 32)) ||| (v &&& m).extractLsb' 0 32 }
      | 2 => s.modCluster (clusterOf p.dst) fun c => c.clearFlags s.cycle ((v &&& m).extractLsb' 0 6)
      | _ => s
    s1.postStatus p 0

/-- CLUSTER_CONTROL_READ (R285): the reply of kind 0x06 goes to the requester's mailbox at high priority. -/
def execClusterControlRead (p : PostReq) (s : State) : Outcome State Fault Refusal :=
  perform "CLUSTER_CONTROL_READ" (.clusterControlRead p) true s fun s =>
    let idx := msgGet p.bytes 16 2
    let m := msgField 0 1 ||| msgField 1 6 ||| msgField 16 idx ||| msgField 24 (s.clusterReg (clusterOf p.dst) idx).toNat
    let s1 := if mailRoom (s.core p.core).k true then s.mailPut p.core { prio := true, asid := p.asid, bytes := m }
      else
        let (id, s1) := s.takeId
        s1.push (.faultMessageDelivery ⟨id, p.tid, p.dst, p.asid, true, none, p.core, true, none, none, m, none⟩)
    s1.postStatus p 0

/-! ## Reserved encodings (R40, R72) -/

/-- RESERVED_ENCODING (R72): every thread of the core parks, and one core-fault message is posted and event 0x80 sent (R450); the members of a gang
park with their leader, whose core alone posts. -/
def execReservedEncoding (w : W32) (s : State) : Outcome State Fault Refusal :=
  issue {} s fun s t th =>
    let s1 := s.modK th.core fun k =>
      { k with mode := .faulted, reserver := if th.follows t then k.reserver else some t }
    if th.follows t then .done s1
    else .done ((s1.postFault th.core t th.c.asid
      (faultMsg 2 (ecauseOf .reserved 0) t th.core th.c w th.here (w.zeroExtend 64))).send (.event (.coreFault th.core)))

/-! ## Code loading (R30, R193) -/

/-- An image that the controllers keep for an ASID (R99). -/
def State.loadedImage (s : State) (asid img : W16) : Option CodeImage :=
  s.pkg.images.find? fun i => i.asid == asid && i.id == img
/-- An image is named by a resident thread of the core. -/
def State.imageUsed (s : State) (core : Nat) (i : Image) : Bool :=
  s.threads.any fun e => e.2.core == core && e.2.c.img == i.id && e.2.c.asid == i.asid
/-- The lowest base at which `n` words fit beside images (R193: eight images, 65,536 words). -/
def fitImage (l : List Image) (n : Nat) : Option Nat :=
  if 8 ≤ l.length then none
  else (0 :: l.map fun i => i.base + i.len).find? fun b =>
    decide (b + n ≤ 65536) && l.all fun i => decide (b + n ≤ i.base) || decide (i.base + i.len ≤ b)
/-- Where an image goes, and the images that stay: those that no resident thread names are evicted when it does not fit
(R193). -/
def State.placeImage (s : State) (core n : Nat) : Option (Nat × List Image) :=
  let l := (s.core core).k.images
  match fitImage l n with
  | some b => some (b, l)
  | none =>
    let kept := l.filter (s.imageUsed core)
    (fitImage kept n).map fun b => (b, kept)
/-- Store words in a core's instruction store. -/
def State.storeWords (s : State) (core base : Nat) : List W32 → State
  | [] => s
  | w :: r => State.storeWords (s.wr (isKey core (4 * base)) 4 w.toNat) core (base + 1) r

/-- The controller can answer, and lives (R463): the image is not loaded for the ASID, or it fits. -/
def codeReady (s : State) (core : Nat) (t : Tid) : Bool :=
  s.ctlAlive (dieOf core) && (s.threads.find t).any fun th =>
    match s.imageOf core th.c.asid th.c.img with
    | some _ => true
    | none =>
      match s.loadedImage th.c.asid th.c.img with
      | none => true
      | some i => (s.placeImage core i.words.length).isSome

/-- CODE_ABSENT (R30): the controller writes the image into the core's store and sends a start message behind it, or a
refusal when the image is not loaded for the ASID. -/
def execCodeAbsent (core : Nat) (t : Tid) (s : State) : Outcome State Fault Refusal :=
  perform "CODE_ABSENT" (.codeAbsent core t) (codeReady s core t) s fun s =>
    match s.threads.find t with
    | none => s
    | some th =>
      match s.imageOf core th.c.asid th.c.img, s.loadedImage th.c.asid th.c.img with
      | some _, _ => s.push (.codeStartMessage core th.c.img th.c.asid)
      | none, none => s.push (.codeRefusal t th.here)
      | none, some i =>
        match s.placeImage core i.words.length with
        | none => s
        | some (b, kept) =>
          let s1 := s.modK core fun k => { k with images := kept ++ [⟨i.id, b, i.words.length, i.asid⟩] }
          (s1.storeWords core b i.words).push (.codeStartMessage core th.c.img th.c.asid)

/-- CODE_START_MESSAGE (R30): the threads parked for the image go on at their saved PC. -/
def execCodeStartMessage (core : Nat) (img asid : W16) (s : State) : Outcome State Fault Refusal :=
  perform "CODE_START_MESSAGE" (.codeStartMessage core img asid) true s fun s =>
    { s with
      threads := s.threads.map fun (e : Nat × Thread) =>
        if e.2.core = core ∧ e.2.c.img = img ∧ e.2.c.asid = asid ∧ e.2.run = .parked .code then
          (e.1, e.2.wakeAt s.cycle)
        else e }

/-- CODE_REFUSAL (R30): cause 0x07 at the fetch, `eval` the link value. -/
def execCodeRefusal (t : Tid) (link : W64) (s : State) : Outcome State Fault Refusal :=
  perform "CODE_REFUSAL" (.codeRefusal t link) true s fun s =>
    match s.threads.find t with
    | none => s
    | some th => s.takeTrap t .addressSpace 0 link th.c.pc

/-! ## Reports of floating-point traps (R228, R229) -/

/-- No report is in progress, and the window of the first one is over. -/
def fpReady (s : State) (core : Nat) : Bool :=
  (s.core core).k.fpRep.isNone && (nextHold (s.core core).k.fpHeld).any fun h => h.freed || decide (h.window < s.cycle / 16)

/-- HELD_FP_TRAP_DELIVERY (R228): cause 0x0C at the thread's own instruction; `eval`[63:48] lists the slots still held. A report
of a region that is squashed instead (R338) is over at once. -/
def execHeldFpTrapDelivery (core : Nat) (s : State) : Outcome State Fault Refusal :=
  perform "HELD_FP_TRAP_DELIVERY" (.heldFpTrapDelivery core) (fpReady s core) s fun s =>
    match nextHold (s.core core).k.fpHeld with
    | none => s
    | some h =>
      let rest := (s.core core).k.fpHeld.erase h
      let mask : W64 := rest.foldl (fun a r => a ||| (1#64 <<< (48 + r.slot))) 0
      let s1 := s.modK core fun k => { k with fpHeld := rest, fpRep := some h.tid }
      match s1.threads.find h.tid with
      | none => s1.endFpReport core h.tid
      | some th =>
        let s2 := s1.takeTrap h.tid .fp h.detail (mask ||| (h.addr &&& 0xFFFFFFFFFFFF)) th.c.pc false h.word
        if th.region.any fun r => !s1.regionValid r then s2.endFpReport core h.tid else s2

/-! ## The core itself (R205) -/

/-- Post a core-fault message with cause 0x12 (R205, R425), and send event 0x80 (R450). -/
def State.postCoreFault (s : State) (core : Nat) (v : W64) : State :=
  (s.postFault core 0xFFFFFFFF 0 (faultMsg 2 (ecauseOf .memError 0) 0xFFFFFFFF core {} 0 0 v)).send (.event (.coreFault core))

end Sys2Proof.Machine
end

