-- ==== Sys2Proof/Machine/Copy.lean ====
section
/-! DEFINITION. Asynchronous copies (R203, R204, R271-R273, R439): issue, the engine's work, completion. -/

namespace Sys2Proof.Machine

open Host (Outcome)

/-! ## What a copy moves -/

/-- The LOCAL or PEER address of a LOCAL offset in core `c` of a cluster, for a core of it. -/
def peerAddr (core c : Nat) (off : Nat) : Nat := if c = core then off else 2 ^ 52 + c % 8 * 2 ^ 20 + off
/-- The cores that a `copy.bcast` writes, in ascending order (R271). -/
def bcastCores (core : Nat) (mask : BitVec 8) : List Nat :=
  ((List.range 8).filter fun i => mask.getLsbD i).map fun i => core / 8 * 8 + i

/-- The runs of a copy: destination, source, bytes of source (R271, R272). -/
def copyRuns (r : CopyReq) : List (Nat × Nat × Nat) :=
  match r.kind with
  | .lin | .peer => [(r.dst.toNat, r.src.toNat, r.len)]
  | .tile2d => (List.range r.rows).map fun i => (r.dst.toNat + i * r.dp, r.src.toNat + i * r.sp, r.len)
  | .bcast => (bcastCores r.core r.cmask).map fun c => (peerAddr r.core c r.dst.toNat, r.src.toNat, r.len)
/-- Nothing is to be moved (R272). -/
def copyEmpty (r : CopyReq) : Bool := r.len == 0 || (r.kind == .tile2d && r.rows == 0)
/-- RAW bytes whatever the banks (R272). -/
def copyRaw (r : CopyReq) : Bool := r.kind == .peer
/-- It leaves the package: a `copy.peer` to the package's own id is a `copy.lin` (R439). -/
def copyLeaves (r : CopyReq) : Bool := r.kind == .peer

/-- The pieces of a copy, in order, up to the first misaligned address. -/
def State.copyPieces (s : State) (r : CopyReq) : Walked :=
  (copyRuns r).foldl (fun a x => match a.bad with
    | some _ => a
    | none =>
      let w := s.walkBytes r.core (copyRaw r) x.1 x.2.1 x.2.2
      { w with pieces := a.pieces ++ w.pieces }) ⟨[], 0, none⟩
/-- Destination bytes of one run. -/
def State.runLen (s : State) (r : CopyReq) (x : Nat × Nat × Nat) : Nat :=
  let w := s.walkBytes r.core (copyRaw r) x.1 x.2.1 x.2.2
  if w.bad.isSome then x.2.2 else (w.fin + 1) / 2 - x.1

/-- The source span (R272). -/
def copySrcSpan (r : CopyReq) : Nat × Nat :=
  (r.src.toNat, if r.kind = .tile2d then (r.rows - 1) * r.sp + r.len else r.len)
/-- The destination spans: of `tile2d` the bounding range, of `bcast` one a core; none of a copy that leaves. -/
def State.dstSpans (s : State) (r : CopyReq) : List (Nat × Nat) :=
  if copyLeaves r then []
  else match r.kind with
    | .tile2d => [(r.dst.toNat, (r.rows - 1) * r.dp + ((copyRuns r).map (s.runLen r)).foldl max 0)]
    | _ => (copyRuns r).map fun x => (x.1, s.runLen r x)

/-- The range-lock entries of a copy, with the tables they go to: a destination in another core's scratchpad is also locked
there (R272). -/
def State.copyLocks (s : State) (r : CopyReq) (seq : W8) : List (Nat × Lock) :=
  if (copyEmpty r) then []
  else
    let src := (r.core, mkLock r.core (copySrcSpan r).1 (copySrcSpan r).2 false seq r.id)
    src :: (s.dstSpans r).flatMap fun d =>
      (r.core, mkLock r.core d.1 d.2 true seq r.id) ::
        match resolve r.core (BitVec.ofNat 64 d.1) with
        | some (.sp c off) => if c = r.core then [] else [(c, mkLock c off d.2 true seq r.id)]
        | _ => []

/-! ## Issue (R271, R272) -/

/-- The request that a copy's registers describe; `own` is the package's own id: a `copy.peer` there is a `copy.lin` (R439). -/
def copyReqOf (own : Nat) (kind : CopyKind) (sa sb : BitVec 5) (sd : BitVec 4) (sc : BitVec 2) (id : Nat) (t : Tid) (th : Thread) :
    CopyReq :=
  let a1 := (th.src (fieldNext sa)).toNat
  let b1 := (th.src (fieldNext sb)).toNat
  let tile := kind == .tile2d
  let here := kind == .peer && a1 / 2 ^ 32 % 65536 == own
  { id := id, tid := t, core := th.core, asid := th.c.asid, d := sd, kind := if here then .lin else kind, dst := th.src sa, src := th.src sb
    len := if tile then a1 % 2 ^ 20 else a1 % 2 ^ 32
    rows := if tile then a1 / 2 ^ 20 % 2 ^ 20 else 0
    sp := if tile then b1 % 2 ^ 24 else 0
    dp := if tile then b1 / 2 ^ 24 % 2 ^ 24 else 0
    pkg := BitVec.ofNat 16 (a1 / 2 ^ 32)
    cmask := BitVec.ofNat 8 (a1 / 2 ^ 32), sc := sc, status := 0, lines := [] }

/-- Lines that an engine operation with these destinations would add to a chunk's held ones, those of the chunk's operations in
flight included (R319 case 4). -/
def State.chunkLines (s : State) (t : Tid) (th : Thread) (dst : List (Nat × Nat)) : Nat :=
  let lines := fun (rs : List (Nat × Nat)) => rs.flatMap fun d => (List.range ((d.1 % 64 + d.2 + 63) / 64)).map fun i => d.1 / 64 + i
  let open_ := s.inAir.flatMap fun i => match i with
    | .copyEngineStart r => if r.tid == t && decide (th.chunk.firstId ≤ r.id) then lines (s.dstSpans r) else []
    | _ => []
  ((th.chunk.held.map HeldLine.va) ++ open_ ++ lines (dst.map fun d => ((canonEa th.core (BitVec.ofNat 64 d.1)).toNat, d.2))).eraseDups.length
/-- An engine operation whose writes would bring a chunk to a 17th line ends it before its word; one that opens a chunk stands alone
in it (R319 case 4; log entry 30). -/
def State.endsLines (s : State) (t : Tid) (th : Thread) (dst : List (Nat × Nat)) : Bool :=
  th.det && th.chunk.open_ && decide (0 < th.chunk.words) && !dst.isEmpty && decide (16 < s.chunkLines t th dst)

/-- A copy at issue: locks, an empty token, and the request is on its way. -/
def copyBody (kind : CopyKind) (sa sb : BitVec 5) (sd : BitVec 4) (sc : BitVec 2) : Body := fun s t th =>
  if th.rg then .trap s .privilege 0 0x7
  else
    let (id, s1) := s.takeId
    let (seq, s2) := s1.takeSeq th.core
    let r := copyReqOf s.ownId kind sa sb sd sc id t th
    let ls := s.copyLocks r seq
    if !s.locksFit ls then .park s (.lockRoom (ls.filter fun l => l.1 == th.core).length)
    else if s.endsLines t th (s.dstSpans r) then .done (s.endChunk t .lines)
    else if (s.dstSpans r).any fun d => s.dirtyFull th.core th.c.asid (BitVec.ofNat 64 d.1) d.2 then .park s .dirtyRoom
    else .done (((s2.lockAll ls).setThread t (th.retire.empty sd)).push (.copyEngineStart r))

def qCopy (sa sb : BitVec 5) (sd : BitVec 4) (tile : Bool) : Issue :=
  { srcs := [sa, fieldNext sa, sb] ++ (if tile then [fieldNext sb] else []), dsts := [sd] }

/-- `copy.lin` (R271). -/
def execCopyLin (sa sb : BitVec 5) (sd : BitVec 4) (c : BitVec 2) (s : State) : Outcome State Fault Refusal :=
  issue (qCopy sa sb sd false) s (copyBody .lin sa sb sd c)
/-- `copy.tile2d` (R271). -/
def execCopyTile2d (sa sb : BitVec 5) (sd : BitVec 4) (c : BitVec 2) (s : State) : Outcome State Fault Refusal :=
  issue (qCopy sa sb sd true) s (copyBody .tile2d sa sb sd c)
/-- `copy.peer` (R271, R439). -/
def execCopyPeer (sa sb : BitVec 5) (sd : BitVec 4) (c : BitVec 2) (s : State) : Outcome State Fault Refusal :=
  issue (qCopy sa sb sd false) s (copyBody .peer sa sb sd c)
/-- `copy.bcast` (R271). -/
def execCopyBcast (sa sb : BitVec 5) (sd : BitVec 4) (c : BitVec 2) (s : State) : Outcome State Fault Refusal :=
  issue (qCopy sa sb sd false) s (copyBody .bcast sa sb sd c)

/-! ## The engine -/

/-- Banks of a piece that are not awake. -/
def State.pieceAsleep (s : State) (core : Nat) (p : Piece) : List (Nat × Nat) :=
  s.banksAsleep core (match p with
    | .raw src dst n => [(src, n), (dst, n)]
    | .conv src dst sf df => [(src / 2, max 1 (sf.bits / 8)), (dst / 2, max 1 (df.bits / 8))])
/-- The pieces that a copy has still to move. -/
def State.copyLeft (s : State) (r : CopyReq) : Walked :=
  let w := s.copyPieces r
  { w with pieces := w.pieces.drop (r.done.getD 0) }
/-- The destination of a `copy.bcast` is no LOCAL offset: the copy writes nothing. -/
def bcastBad (r : CopyReq) : Bool := r.kind == .bcast && (r.dst.extractLsb' 20 44 != 0 || decide (655360 ≤ r.dst.toNat))
/-- Banks that are not awake, in the order in which a copy reaches them (R192). -/
def State.copyAsleep (s : State) (r : CopyReq) : List (Nat × Nat) :=
  if copyEmpty r || bcastBad r then []
  else if copyLeaves r then s.banksAsleep r.core [copySrcSpan r]
  else (s.copyLeft r).pieces.flatMap (s.pieceAsleep r.core)

/-- A copy may start: the release wait is over, no earlier conflicting entry is left (R200), and nothing of the destination
stands in the cluster's buffer. One that waits for a bank at its next piece may go on once it is awake, or may start the wake
(R192). -/
def copyReady (s : State) (r : CopyReq) : Bool :=
  (r.done.isSome || (s.engineAcked r.tid r.core r.id r.sc && s.noEntries r.core r.asid (s.dstSpans r))) && s.lockTurn r.id &&
    (let a := match (s.copyLeft r).pieces with
        | p :: _ => if copyLeaves r then s.copyAsleep r else if copyEmpty r || bcastBad r then [] else s.pieceAsleep r.core p
        | [] => []
     a.isEmpty || s.anyGated a || (r.done.isNone && !copyLeaves r))

/-- A page of the copy cannot be resolved (R398): the request carries all ones in its status until then. -/
def copyActor (r : CopyReq) (s : State) : Actor :=
  ⟨r.id, r.tid, r.core, r.asid, ((s.threads.find r.tid).map Thread.sup).getD false, r.status == BitVec.allOnes 64, r.lost⟩

/-- Read the source bytes of a copy that leaves the package, cut at lines. -/
def readBytes (a : Actor) : Nat → Nat → Nat → State → List W8 → Except (W8 × W64 × Option Nat × State) State × List W8
  | 0, _, _, s, acc => (.ok s, acc)
  | fuel + 1, ad, left, s, acc =>
    if left = 0 then (.ok s, acc)
    else
      let n := min left (64 - ad % 64)
      let ea : W64 := BitVec.ofNat 64 ad
      match s.engRead a ea n with
      | .ok v s1 _ => readBytes a fuel (ad + n) (left - n) s1 (acc ++ (List.range n).map fun i => BitVec.ofNat 8 (v / 2 ^ (8 * i)))
      | .err c e s1 => (.error (c, e, none, s1), acc)
      | .hold e at_ => (.error (0x09, e, some at_, s), acc)

/-- The bytes of a copy leave a port in flits of class 0 (R439). -/
def State.sendBytes (s : State) (port : Nat) (r : CopyReq) (bytes : List W8) : State :=
  (copyFlits r.asid r.sc (r.id % 2 ^ 32) (bytes.length / 224 + 1) r.dst true bytes).foldl (fun a l => a.emit port 0 r.pkg.toNat l) s

/-- Send a copy to another package (R439): unreachable before any byte is sent, else over the next port of the route. A fault at the
source ends it here, and the bytes before it are sent. -/
def State.copyOut (s : State) (r : CopyReq) : Moved :=
  match s.nextPort r.pkg.toNat with
  | none => .fault s [] 0x20 r.dst false
  | some (port, s1) =>
    match readBytes (copyActor r s) (r.len / 64 + 2) r.src.toNat r.len s1 [] with
    | (.ok s2, bytes) => .ok (s2.sendBytes port r bytes) [port]
    | (.error (_, ea, some e, _), _) => .hold ea e
    | (.error (c, ea, none, s2), bytes) => .fault (if bytes.isEmpty then s2 else s2.sendBytes port r bytes) [] c ea true

/-- What the engine does with a copy. -/
def State.copyRun (s : State) (r : CopyReq) : Moved :=
  if (copyEmpty r) then .ok s []
  else if copyLeaves r then s.copyOut r
  else if bcastBad r then .fault s [] 0x07 r.dst false
  else (s.copyLeft r).move (copyActor r s) s (if r.done.isSome then r.lines else [])
/-- What the engine does with a copy that reaches a bank which is not awake (R192): the pieces before move, and how many of all have
then moved. -/
def State.copyPart (s : State) (r : CopyReq) : Moved × Nat :=
  let ps := (s.copyLeft r).pieces.takeWhile fun p => (s.pieceAsleep r.core p).isEmpty
  (movePieces (copyActor r s) ps s (if r.done.isSome then r.lines else []), r.done.getD 0 + ps.length)

/-- COPY_ENGINE_START (R272): the release, the checks, the bytes; a fault stops it (R204); a translation fault is held
(R398). At a gated bank it starts the wake, and it goes on from there (R192). Every source byte has then been read: the source lock goes (R200). -/
def execCopyEngineStart (r : CopyReq) (s : State) : Outcome State Fault Refusal :=
  perform "COPY_ENGINE_START" (.copyEngineStart r) (copyReady s r) s fun s =>
    let s1 := if r.done.isSome then s else s.engineRelease r.tid r.core r.sc
    let fault := fun (s2 : State) (ls : List Nat) (c : W8) (ea : W64) =>
      (s2.unlock r.id fun l => !l.dest).push (.copyCompletion { r with status := tokenErr c ea, lines := if copyLeaves r then [] else ls })
    if (s.copyAsleep r).isEmpty then
      match s1.copyRun r with
      | .ok s2 ls => (s2.unlock r.id fun l => !l.dest).push (.copyCompletion { r with status := 0, lines := ls })
      | .fault s2 ls c ea _ => fault s2 ls c ea
      | .hold ea e => s.holdAt r.core r.asid ea e (.copyEngineStart r)
    else if copyLeaves r then (s1.wakeBanks (s.copyAsleep r)).push (.copyEngineStart { r with done := some 0 })
    else match s1.copyPart r with
      | (.ok s2 ls, n) => (s2.wakeBanks (s.copyAsleep r)).push (.copyEngineStart { r with done := some n, lines := ls })
      | (.fault s2 ls c ea _, _) => fault s2 ls c ea
      | (.hold ea e, _) => s.holdAt r.core r.asid ea e (.copyEngineStart r)

/-- A copy may complete: one that left this package has been acknowledged there, has ended with a fault, or has lost its port
(R439, R455). -/
def copyDone (r : CopyReq) : Bool := !copyLeaves r || r.lines.isEmpty

/-- COPY_COMPLETION (R272, R273): the written lines are published at the scope, the locks go, the token fills
and the lines enter the touched-bank mask (R405). -/
def execCopyCompletion (r : CopyReq) (s : State) : Outcome State Fault Refusal :=
  perform "COPY_COMPLETION" (.copyCompletion r) (copyDone r) s fun s =>
    let s1 := if copyLeaves r then s else (s.enginePublish r.tid r.core r.sc r.lines).touchLines r.tid r.lines
    (s1.unlock r.id fun _ => true).modThread r.tid fun u => u.setX r.d r.status

end Sys2Proof.Machine
end

