-- ==== Sys2Proof/Machine/Bound.lean ====
section
/-! DEFINITION. Circular buffers (R201, R266, R267), bound engine operations and their firings (R202, R268-R270), bank
state (R186, R192, R274) and range-lock queries (R275, R276). -/

namespace Sys2Proof.Machine

open Host (Outcome)

/-- Words of this chapter that a region bars (R277). -/
def outsideRegion (k : State → Tid → Thread → Res) : Body := fun s t th =>
  if th.rg then .trap s .privilege 0 0x7 else k s t th
/-- Words of this chapter that a deterministic launch bars (R277). -/
def noDet (k : State → Tid → Thread → Res) : Body := fun s t th =>
  if th.det then .trap s .determinism 0 s.wordVal else k s t th

/-! ## Buffers -/

/-- The scope of a buffer (R267): cluster when its elements lie in the core's own scratchpad, else package. -/
def cbScope (core : Nat) (c : CbReg) : BitVec 2 :=
  match resolve core (cbBase c) with
  | some (.sp k _) => if k = core then 0 else 2
  | _ => 2

/-! ## Bindings (R268) -/

def Binding.scope (b : Binding) : BitVec 2 := b.desc.extractLsb' 24 2
def Binding.nin (b : Binding) : Nat := (b.desc.extractLsb' 32 32).toNat
def Binding.nout (b : Binding) : Nat := (b.desc.extractLsb' 64 32).toNat
def Binding.word (b : Binding) : W32 := b.desc.extractLsb' 96 32
def Binding.gbase (b : Binding) : W64 := b.desc.extractLsb' 128 64
def Binding.bd1 (b : Binding) : W64 := b.desc.extractLsb' 192 64

/-! ## `cb` (R266, R267) -/

/-- `cb.cfg` (R266). -/
def execCbCfg (sa sb : BitVec 5) (sd : BitVec 4) (n : BitVec 4) (s : State) : Outcome State Fault Refusal :=
  issue { srcs := [sa, sb], dsts := [sd] } s <| outsideRegion fun s t th =>
    let a := th.src sa
    let cap := (th.src sb).toNat % 2 ^ 32
    let esz := (th.src sb).toNat / 2 ^ 32 % 16
    if cbBnd (s.cbOf th n.toNat) then .done (s.setThread t (th.retire.setX sd 1))
    else if cap > 2 ^ 31 ∨ esz > 8 ∨ a.toNat % 2 ^ esz ≠ 0 then .done (s.setThread t (th.retire.setX sd 2))
    else .done ((s.cbWord t th (.cfg n.toNat (cbPack a cap esz 0 0 0 false))).modThread t fun u => u.retire.setX sd 0)

/-- What refuses a `cb.put` or `cb.get` of `x` elements. -/
def State.cbRefusal (s : State) (th : Thread) (n x : Nat) (put : Bool) : Option W64 :=
  let core := th.core
  let c := s.cbOf th n
  if cbCap c = 0 then some 2
  else if (if put then !s.isInput core n && s.isOutput core n else s.isInput core n) then some 3
  else if x > (if put then cbRoom c else cbCount c) then some 1 else none

/-- `cb.put` and `cb.get`: a release, then the pointer (R266, R267). What another thread has done to the buffer during the release
counts: the tests are made again before the pointer moves, the model's choice (log entry 82). -/
def cbMove (put : Bool) (sa : BitVec 5) (sd n : BitVec 4) : Body := fun s t th =>
  let x := (th.src sa).extractLsb' 0 32
  let refuse := fun (s : State) (th : Thread) (v : W64) => Res.done (s.setThread t (th.retire.setX sd v))
  match (if th.mo.rel.isSome then none else s.cbRefusal th n.toNat x.toNat put) with
  | some v => refuse s th v
  | none =>
    let sig := th.relSig
    release (cbScope th.core (s.cbOf th n.toNat)) s t th fun s th =>
      match s.cbRefusal th n.toNat x.toNat put with
      | some v => refuse s th v
      | none => .done ((s.cbWord t th (.move n.toNat put x sig)).modThread t fun u => u.retire.setX sd 0)
/-- `cb.put` (R266). -/
def execCbPut (sa : BitVec 5) (sd n : BitVec 4) (s : State) : Outcome State Fault Refusal :=
  issue { srcs := [sa], dsts := [sd] } s <| outsideRegion (cbMove true sa sd n)
/-- `cb.get` (R266). -/
def execCbGet (sa : BitVec 5) (sd n : BitVec 4) (s : State) : Outcome State Fault Refusal :=
  issue { srcs := [sa], dsts := [sd] } s <| outsideRegion (cbMove false sa sd n)
/-- `cb.room` (R266). -/
def execCbRoom (sd n : BitVec 4) (s : State) : Outcome State Fault Refusal :=
  issue { dsts := [sd] } s <| noDet fun s t th =>
    .done (s.setThread t (th.retire.setX sd (BitVec.ofNat 64 (cbRoom (s.cbOf th n.toNat)))))
/-- `cb.count` (R266). -/
def execCbCount (sd n : BitVec 4) (s : State) : Outcome State Fault Refusal :=
  issue { dsts := [sd] } s <| noDet fun s t th =>
    let c := s.cbOf th n.toNat
    .done (s.setThread t (th.retire.setX sd
      (BitVec.ofNat 64 (cbCount c + (cbErr c).toNat * 2 ^ 32 + if cbBnd c then 2 ^ 40 else 0))))
/-- `cb.wait` (R266): then an acquire at the buffer's scope (R267); the thread has then read what the pointers' releases covered
and what the engine wrote (R313). -/
def execCbWait (sa : BitVec 5) (room : BitVec 1) (n : BitVec 4) (s : State) : Outcome State Fault Refusal :=
  issue { srcs := [sa] } s <| outsideRegion fun s t th =>
    let c := s.cbOf th n.toNat
    let x := (th.src sa).toNat % 2 ^ 32
    if (if room = 1 then cbRoom c else cbCount c) < x then
      .park s (if room = 1 then .cbRoom n.toNat x else .cbCount n.toNat x)
    else
      let sig := (s.core th.core).e.cbSig.getD n.toNat 0
      .done ((s.acquireAt t th.core (cbScope th.core c)).modThread t fun u =>
        { u.retire with mo := { u.mo with rsig := u.mo.rsig ||| sig } })

/-! ## `eng` (R268-R270) -/

/-- A word that a KIND 3 binding may run: `mma` with `BS` = 1 and nothing reserved (R269). -/
def bindWordOk (w : W32) : Bool :=
  let o : Mx := ⟨mxAc w, mxAsel w, mxA w, mxBsel w, mxB w, mxDa w, mxDb w, mxSk w⟩
  let form := (mxMf w).toNat
  w.extractLsb' 24 8 == 0x70 && decide (form ≤ 7) && o.bsel == 1 && mxOk o && (decide (form < 3) || mxNoSk o) &&
    (!(form == 4 || form == 5) || mxGroup16 o)

/-- Bytes of the A operand of a form. -/
def aBytes (form : Nat) : Nat := 64 * 128 * formBits form / 8

/-- A binding descriptor that is not bad (R268, R269), the buffers' registers given. A KIND 3 WORD that names an accumulator that the
thread has not is bad, the model's choice (log entry 83). -/
def State.bindOk (s : State) (th : Thread) (b : Binding) : Bool :=
  let core := th.core
  let ci := s.cbOf th b.inp
  let kindOk := match b.kind with
    | 1 =>
      (match b.out with
       | some o =>
         let co := s.cbOf th o
         let fi := s.fmtAt core (cbBase ci).toNat
         let fo := s.fmtAt core (cbBase co).toNat
         let conv := fi != 0 && fo != 0 && fi != fo
         if cbCap ci = 0 ∨ cbCap co = 0 then true
         else if conv then 2 ^ cbEsz co * (elemOf fi).bits == 2 ^ cbEsz ci * (elemOf fo).bits else cbEsz co == cbEsz ci
       | none => false) && b.nout == b.nin && b.word == 0 && b.bd1 == 0
    | 2 => b.out.isSome && (cbCap ci == 0 || cbEsz ci == 2) && b.nout == b.nin && b.word == 0 && b.bd1 == 0
    | 3 => bindWordOk b.word && (th.accOf (mxAc b.word)).isSome &&
        (cbCap ci == 0 || (cbCap ci % b.nin == 0 && b.nin * 2 ^ cbEsz ci == aBytes (mxMf b.word).toNat))
    | _ => false
  decide (b.inp < 16) && b.out.all (fun o => decide (o < 16)) && b.desc.extractLsb' 26 6 == 0 && decide (1 ≤ b.nin) && kindOk

/-- The scale lanes that a KIND 3 binding records. -/
def State.bindScales (s : State) (th : Thread) (b : Binding) : BitVec 16384 :=
  if b.kind = 3 then s.scaleBits th (mxMf b.word).toNat else 0

/-- Set BND of a binding's buffers. -/
def State.markBound (s : State) (core : Nat) (b : Binding) : State :=
  (b.inp :: b.out.toList).foldl (fun a n => a.setCb core n (cbSetBnd (a.cb core n) true)) s
/-- Free a binding: BND falls in buffers that no other names (R270). -/
def State.freeBinding (s : State) (core i : Nat) : State :=
  match s.binding core i with
  | none => s
  | some b =>
    let s1 := s.modE core fun e => { e with eng := e.eng.erase i }
    (b.inp :: b.out.toList).foldl (fun a n =>
      if a.isInput core n || a.isOutput core n then a else a.setCb core n (cbSetBnd (a.cb core n) false)) s1

/-- A refusal of `eng.bind`. -/
def bindRefusal (code : Nat) : W64 := BitVec.ofNat 64 (2 ^ 63 + code)

/-- `eng.bind` (R270). -/
def execEngBind (sa : BitVec 5) (sd : BitVec 4) (s : State) : Outcome State Fault Refusal :=
  issue { srcs := [sa], dsts := [sd] } s <| outsideRegion fun s t th =>
    let a := th.src sa
    match resolve th.core a with
    | some (.sp c off) =>
      if c ≠ th.core then .trap s .addressSpace 0 a
      else match s.check th a 32 true with
      | some c => .trap s c 0 a
      | none =>
        match s.sleeping th.core off 32 with
        | some b => .park (s.touchBank th.core b) (.bank b)
        | none =>
          let (bad, s0) := s.eccRead th.core (spKey th.core off) 32
          -- R205: a descriptor with an uncorrectable error is reported through R141 and reads as zero
          let s := if bad then s0.defer t .memError a else s0
          let th := (s.threads.find t).getD th
          let desc := BitVec.ofNat 256 (if bad then 0 else th.overHeld a 32 (s.rd (spKey th.core off) 32))
          let b0 : Binding := { tid := t, desc := desc, asid := th.c.asid }
          let b : Binding := { b0 with
            bd0 := b0.gbase, acc := (th.accOf (mxAc b0.word)).getD 0, vs := s.bindScales th b0 }
          match (if b.kind = 3 then (scaleRegs th (mxMf b.word).toNat).find? (s.vecPending t) else none) with
          | some v => .park s (.vreg v)
          | none =>
            let out := fun (v : W64) => Res.done (s.setThread t (th.retire.setX sd v))
            match (List.range 16).find? fun i => (s.binding th.core i).isNone with
            | none => out (bindRefusal 1)
            | some i =>
              if !s.bindOk th b then out (bindRefusal 2)
              else if (b.inp :: b.out.toList).any fun n => cbCap (s.cbOf th n) == 0 then out (bindRefusal 3)
              else if s.isInput th.core b.inp || b.out.any (s.isOutput th.core) then out (bindRefusal 4)
              else .done ((((s.keepBinding t i none).setBinding th.core i b).markBound th.core b).modThread t fun th =>
                (th.retire.setX sd (BitVec.ofNat 64 i)))
    | _ => .trap s .addressSpace 0 a

/-- The binding that `X[A]` names, if the thread's ASID bound it. -/
def State.ownBinding (s : State) (th : Thread) (sa : BitVec 5) : Option (Nat × Binding) :=
  let i := (th.src sa).toNat % 16
  match s.binding th.core i with
  | some b => if b.asid = th.c.asid then some (i, b) else none
  | none => none

/-- Arm a binding; a word of an open chunk does so at the commit (R312, R319). -/
def State.armWord (s : State) (t : Tid) (th : Thread) (x : Nat × Bool × Nat) : State :=
  if th.det && th.chunk.open_ then s.modThread t fun u => { u with chunk := { u.chunk with arms := u.chunk.arms ++ [x] } }
  else s.armBinding th.core t x

/-- `eng.arm` and `eng.once` (R270). -/
def armBody (sa : BitVec 5) (once : Bool) : Body := outsideRegion fun s t th =>
  match s.ownBinding th sa with
  | none => .done (s.setThread t th.retire)
  | some (i, b) =>
    let (id, s1) := s.takeId
    .done ((s1.armWord t th (i, once, id)).modThread t Thread.retire)
/-- `eng.arm` (R270). -/
def execEngArm (sa : BitVec 5) (s : State) : Outcome State Fault Refusal := issue { srcs := [sa] } s (armBody sa false)
/-- `eng.once` (R270). -/
def execEngOnce (sa : BitVec 5) (s : State) : Outcome State Fault Refusal := issue { srcs := [sa] } s (armBody sa true)
/-- `eng.unbind` (R270): the firing in flight completes first. -/
def execEngUnbind (sa : BitVec 5) (s : State) : Outcome State Fault Refusal :=
  issue { srcs := [sa] } s <| outsideRegion fun s t th =>
    match s.ownBinding th sa with
    | none => .done (s.setThread t th.retire)
    | some (i, b) =>
      let s0 := (s.keepBinding t i (some b)).modThread t fun u => { u with
        chunk := { u.chunk with arms := u.chunk.arms.filter fun x => x.1 ≠ i } }
      if b.stage.isSome then .park (s0.setBinding th.core i { b with armed := false }) (.engine i)
      else .done ((s0.freeBinding th.core i).modThread t Thread.retire)
/-- `eng.stat` (R270). -/
def execEngStat (sa : BitVec 5) (sd : BitVec 4) (s : State) : Outcome State Fault Refusal :=
  issue { srcs := [sa], dsts := [sd] } s <| noDet fun s t th =>
    let v : Nat := match s.ownBinding th sa with
      | none => 0
      | some (_, b) => (if b.armed then 2 else 1) + (if b.once then 4 else 0) + b.fired.toNat * 2 ^ 16
    .done (s.setThread t (th.retire.setX sd (BitVec.ofNat 64 v)))

/-! ## Firings (R202, R269) -/

/-- `n` elements from a pointer on, as one or two ranges. -/
def cbRanges (c : CbReg) (p : W32) (n : Nat) : List (Nat × Nat) :=
  let i := p.toNat % cbCap c
  let z := 2 ^ cbEsz c
  if i + n ≤ cbCap c then [(cbElem c i, n * z)]
  else [(cbElem c i, (cbCap c - i) * z), (cbElem c 0, (n - (cbCap c - i)) * z)]
/-- The input elements and the output elements of a firing. -/
def State.firingIn (s : State) (core : Nat) (b : Binding) : List (Nat × Nat) :=
  let c := s.cb core b.inp
  cbRanges c (cbCons c) b.nin
def State.firingOut (s : State) (core : Nat) (b : Binding) : List (Nat × Nat) :=
  match b.out with
  | none => []
  | some o => if b.kind = 3 then [] else cbRanges (s.cb core o) (cbProd (s.cb core o)) b.nout

/-- The `mma` operands of a KIND 3 firing: A from the input elements, B from BD0 and BD1. Where CONS is no multiple of NIN, A is read
on past the buffer's last element: the model's choice (log entry 83). -/
def State.firingTiles (s : State) (core : Nat) (b : Binding) : Tile × Tile × W64 × W64 :=
  let form := (mxMf b.word).toNat
  let sa := storedShape true (mxDa b.word == 1)
  let c := s.cb core b.inp
  let base : W64 := BitVec.ofNat 64 (cbElem c (cbCons c).toNat)
  let ctl : W64 := BitVec.ofNat 64 (max 64 (sa.2 * formBits form / 8))
  (tileOf core base ctl sa (formBits form), tileOf core b.bd0 b.bd1 (storedShape false (mxDb b.word == 1)) (formBits form), base, ctl)

/-- Who a firing acts for: its accesses belong to the arming. -/
def State.firingActor (s : State) (core : Nat) (b : Binding) : Actor :=
  ⟨b.armId, b.tid, core, b.asid, ((s.threads.find b.tid).map Thread.sup).getD false, b.pageFail, b.lost⟩
/-- The ranges that a gather reads at GBASE + index, in order (R269), up to the first index that cannot be read. -/
def State.gatherRanges (s : State) (core : Nat) (b : Binding) : List (Nat × Nat) :=
  match b.kind, b.out with
  | 2, some o =>
    let ci := s.cb core b.inp
    let n := 2 ^ cbEsz (s.cb core o)
    ((List.range b.nin).map fun k =>
      match s.engRead (s.firingActor core b) (BitVec.ofNat 64 (cbElem ci ((cbCons ci).toNat + k))) 4 with
      | .ok x _ _ => some ((b.gbase + (BitVec.ofNat 32 x).signExtend 64).toNat, n)
      | _ => none).takeWhile Option.isSome |>.filterMap id
  | _, _ => []
/-- The range over them all: what the source lock of a gather covers. -/
def boundingRange (rs : List (Nat × Nat)) : List (Nat × Nat) :=
  match rs with
  | [] => []
  | r :: _ =>
    let lo := rs.foldl (fun a x => min a x.1) r.1
    [(lo, rs.foldl (fun a x => max a (x.1 + x.2)) 0 - lo)]

/-- The range-lock entries of a firing. -/
def State.firingLocks (s : State) (core : Nat) (b : Binding) (seq : W8) (id : Nat) : List (Nat × Lock) :=
  (s.firingIn core b ++ boundingRange (s.gatherRanges core b)).map (fun r => (core, mkLock core r.1 r.2 false seq id)) ++
    (s.firingOut core b).map (fun r => (core, mkLock core r.1 r.2 true seq id)) ++
    (if b.kind = 3 then [(core, (s.firingTiles core b).2.1.lock core seq id)] else [])

/-- A bank, not awake, that a firing reads before it enters its locks: indices of a gather, a stream's entry (R192). -/
def State.bindAsleep (s : State) (core : Nat) (b : Binding) : List (Nat × Nat) :=
  if b.kind = 2 then (s.banksAsleep core (s.firingIn core b)).take 1
  else if b.kind = 3 ∧ (mxSk b.word).toNat ≠ 0 then
    (s.skBank core ((mxSk b.word).toNat - 1)).toList.map fun x => (core, x)
  else []

/-- Room for a firing apart from its order: the buffers hold and take the declared counts, the issuer's accesses before the
arming and those before the latest `cb.put` of its input are performed (R312), and tables and queue have room. -/
def State.firable (s : State) (core : Nat) (b : Binding) : Bool :=
  b.armed && b.stage.isNone && s.pkg.pre == .none &&
    decide (b.nin ≤ cbCount (s.cb core b.inp)) &&
    b.out.all (fun o => decide (b.nout ≤ cbRoom (s.cb core o))) &&
    s.engineAcked b.tid core b.armId 2 && (((s.core core).e.cbPut.find b.inp).all fun p => s.engineAcked p.1 core p.2 2) &&
    (s.bindAsleep core b).all (fun x => s.anyGated [x]) &&
    s.locksFit (s.firingLocks core b 0 0) && (b.kind != 3 || s.mmaRoom core)
/-- The lowest binding index of an engine that may fire does (R202). -/
def firingReady (s : State) (core i : Nat) : Bool :=
  match s.binding core i with
  | none => false
  | some b => s.firable core b && !((s.core core).e.eng.any fun e => decide (e.1 < i) && e.2.kind == b.kind && s.firable core e.2)

/-- The checks of a KIND 3 firing: the code and address of the first failure (R204, R256). -/
def State.firingCheck (s : State) (core : Nat) (b : Binding) : Option (W8 × W64) :=
  let form := (mxMf b.word).toNat
  let sup := ((s.threads.find b.tid).map Thread.sup).getD false
  let (ta, tb, base, _) := s.firingTiles core b
  match s.tileCheck core b.asid sup base ta (formA form) with
  | some (c, _, v) => some (c.code, v)
  | none => (s.tileCheck core b.asid sup b.bd0 tb (formB form)).map fun x => (x.1.code, x.2.2)

/-- ENGINE_FIRING (R202): the locks are entered; a streaming `mma` goes to the queue. -/
def execEngineFiring (core i : Nat) (s : State) : Outcome State Fault Refusal :=
  match s.binding core i with
  | none => .refused (.notOffered "ENGINE_FIRING")
  | some b =>
    if !firingReady s core i then .refused (.notOffered "ENGINE_FIRING")
    else if !(s.bindAsleep core b).isEmpty then .next (s.wakeBanks (s.bindAsleep core b))
    else
      let (id, s1) := s.takeId
      let (seq, s2) := s1.takeSeq core
      let b1 : Binding := { b with id := id, stage := some .started, status := 0, srcBad := false, pageFail := false, lines := [], lost := [] }
      if b.kind ≠ 3 then .next ((s2.lockAll (s.firingLocks core b seq id)).setBinding core i b1)
      else match s.firingCheck core b with
      | some (c, ea) => .next (s2.setBinding core i { b1 with status := tokenErr c ea, srcBad := true })
      | none =>
        let form := (mxMf b.word).toNat
        let (_, _, base, ctl) := s.firingTiles core b
        let sk := (mxSk b.word).toNat
        let (keep, s3) := if sk = 0 then ((0xFF : W8), s2) else s2.takeSlices b.tid noTid core (sk - 1) []
        let op : MmaOp :=
          { id := id, tid := b.tid, kind := .mma, form := form, acc := b.acc, keep := keep, vs := b.vs, asid := b.asid
            a := .desc base ctl (mxDa b.word == 1), b := .desc b.bd0 b.bd1 (mxDb b.word == 1), bind := some i }
        .next (((s3.lockAll (s.firingLocks core b seq id)).enqueue core op).setBinding core i b1)

/-- An earlier firing of the same engine is in flight (R202). -/
def State.behind (s : State) (core : Nat) (b : Binding) : Bool :=
  (s.core core).e.eng.any fun e => e.2.stage.isSome && e.2.kind == b.kind && decide (e.2.id < b.id)
/-- Banks of a firing that are not awake. -/
def State.firingAsleep (s : State) (core : Nat) (b : Binding) : List (Nat × Nat) :=
  if b.kind = 3 then [] else s.banksAsleep core (s.firingIn core b ++ s.gatherRanges core b ++ s.firingOut core b)
/-- The operation of a firing is still to consume its operands, or still in the queue. -/
def State.opPending (s : State) (core id : Nat) (consumed : Bool) : Bool :=
  (s.core core).e.queue.any fun o => o.id == id && (!consumed || o.stage != .consumed)

/-- The operands-consumed point of a firing is reached. -/
def firingConsumedReady (s : State) (core i : Nat) : Bool :=
  match s.binding core i with
  | none => false
  | some b =>
    b.stage == some .started &&
      (if b.kind = 3 then decide (b.status ≠ 0) || !s.opPending core b.id true
       else !s.behind core b && s.lockTurn b.id && s.noEntries core b.asid (s.firingOut core b) &&
         ((s.firingAsleep core b).isEmpty || s.anyGated (s.firingAsleep core b)))

/-- Move the elements of a copy or gather firing, one after another. -/
def State.moveElems (s : State) (core : Nat) (b : Binding) (a : Actor) (co : CbReg) : Nat → Nat → State → List Nat → Moved
  | 0, _, st, ls => .ok st ls
  | n + 1, k, st, ls =>
    let ci := s.cb core b.inp
    let src := cbElem ci ((cbCons ci).toNat + k)
    let dst := cbElem co ((cbProd co).toNat + k)
    let run := fun (from_ : Nat) (raw : Bool) (len : Nat) (st : State) =>
      (st.walkBytes core raw dst from_ len).move a st ls
    let one : Moved :=
      if b.kind = 1 then run src false (2 ^ cbEsz ci) st
      else match st.engRead a (BitVec.ofNat 64 src) 4 with
        | .err c ea s1 => .fault s1 ls c ea true
        | .hold ea e => .hold ea e
        | .ok x s1 _ =>
          run ((b.gbase + (BitVec.ofNat 32 x).signExtend 64).toNat) true (2 ^ cbEsz co) s1
    match one with
    | .ok s1 l1 => State.moveElems s core b a co n (k + 1) s1 l1
    | r => r

/-- FIRING_OPERANDS_CONSUMED (R202): the data have been read and moved; CONS of the input advances; the source locks go. A
fault advances no pointer (R204). -/
def execFiringOperandsConsumed (core i : Nat) (s : State) : Outcome State Fault Refusal :=
  match s.binding core i with
  | none => .refused (.notOffered "FIRING_OPERANDS_CONSUMED")
  | some b =>
    if !firingConsumedReady s core i then .refused (.notOffered "FIRING_OPERANDS_CONSUMED")
    else if !(s.firingAsleep core b).isEmpty then .next (s.wakeBanks (s.firingAsleep core b))
    else
      let advance := fun (a : State) =>
        let c := a.cb core b.inp
        (a.setCb core b.inp (cbSetCons c (cbCons c + BitVec.ofNat 32 b.nin))).unlock b.id fun l => !l.dest
      if b.kind = 3 then
        let s1 := s.setBinding core i { b with stage := some .consumed }
        .next (if b.status = 0 then advance s1 else s1)
      else
        match s.moveElems core b (s.firingActor core b) (s.cb core (b.out.getD 0)) b.nin 0 s [] with
        | .ok s1 ls => .next (advance (s1.setBinding core i { b with stage := some .consumed, lines := ls }))
        | .fault s1 ls c ea src =>
          .next ((s1.setBinding core i
            { b with stage := some .consumed, lines := ls, status := tokenErr c ea, srcBad := src }).unlock b.id fun l => !l.dest)
        | .hold ea e =>
          .next ((s.setBinding core i { b with stage := some .held }).holdAt core b.asid ea e
            (.firingOperandsConsumed core i))

def firingDoneReady (s : State) (core i : Nat) : Bool :=
  match s.binding core i with
  | none => false
  | some b => b.stage == some .consumed && !s.behind core b && !(b.kind == 3 && s.opPending core b.id false)

/-- FIRING_COMPLETION (R202): the data become visible at the scope, then PROD of the output advances; a fault goes to ERR
and unbinds (R204). -/
def execFiringCompletion (core i : Nat) (s : State) : Outcome State Fault Refusal :=
  match s.binding core i with
  | none => .refused (.notOffered "FIRING_COMPLETION")
  | some b =>
    if !firingDoneReady s core i then .refused (.notOffered "FIRING_COMPLETION")
    else
      let s1 := (s.enginePublish b.tid core b.scope b.lines).unlock b.id fun _ => true
      if b.status = 0 then
        let s2 := match b.out with
          | some o => s1.cbDo core (.move o true (BitVec.ofNat 32 b.nout)
              ((b.lines.map fun l => l % 2 ^ 64).foldl LineSet.add {}).sig)
          | none => s1
        .next (s2.setBinding core i { b with
          stage := none, fired := b.fired + 1, armed := b.armed && !b.once, once := false
          bd0 := if b.kind = 3 then b.bd0 + BitVec.ofNat 64 (b.bd1.toNat / 2 ^ 24 % 2 ^ 24) else b.bd0 })
      else
        let n := if b.srcBad then b.inp else b.out.getD b.inp
        let s2 := s1.setCb core n (cbSetErr (s1.cb core n) (b.status.extractLsb' 56 8))
        .next (s2.freeBinding core i)

/-! ## Bank state (R274) -/

/-- The whole bank lies in the thread's window (R274); a supervisor passes (R393). -/
def ownBank (n : BitVec 4) (k : State → Tid → Thread → Res) : Body := outsideRegion fun s t th =>
  if !th.sup && !s.lpuOk th.core th.c.asid (n.toNat * 40960) 40960 then
    .trap s .localProt 0 (BitVec.ofNat 64 (n.toNat * 40960))
  else k s t th

/-- A range-lock entry covers a byte of a bank. -/
def State.bankLocked (s : State) (core b : Nat) : Bool :=
  (s.core core).m.locks.any fun l => l.2.covers core (spKey core (b * 40960)) 40960

/-- An open chunk keeps the format that its word changes (R321). -/
def State.keepFmt (s : State) (t : Tid) (core n : Nat) : State :=
  s.modThread t fun u =>
    if u.chunk.open_ && (u.chunk.fmts.find n).isNone then
      { u with chunk := { u.chunk with fmts := u.chunk.fmts.set n (s.bankReg core n &&& 0xF) } }
    else u

/-- `bank.fmtset` (R274). -/
def execBankFmtset (sa : BitVec 5) (sd n : BitVec 4) (s : State) : Outcome State Fault Refusal :=
  issue { srcs := [sa], dsts := [sd] } s <| ownBank n fun s t th =>
    let v := th.src sa
    if s.bankLocked th.core n.toNat then .done (s.setThread t (th.retire.setX sd 2))
    else if v.toNat > 9 then .done (s.setThread t (th.retire.setX sd 1))
    else
      let s1 := (s.keepFmt t th.core n.toNat).modM th.core fun m =>
        { m with bank := m.bank.put 0 n.toNat (setBits (s.bankReg th.core n.toNat) 0 4 (v.extractLsb' 0 32)) }
      .done (s1.modThread t fun u => u.retire.setX sd 0)
/-- `bank.fmtget` (R274). -/
def execBankFmtget (sd n : BitVec 4) (s : State) : Outcome State Fault Refusal :=
  issue { dsts := [sd] } s fun s t th =>
    .done (s.setThread t (th.retire.setX sd ((s.bankReg th.core n.toNat).zeroExtend 64)))
/-- `bank.gate` (R192, R274): a request; the thread continues. -/
def execBankGate (n : BitVec 4) (s : State) : Outcome State Fault Refusal :=
  issue {} s <| ownBank n fun s t th =>
    let b := n.toNat
    let pending := (s.core th.core).m.gateReq.contains b
    let gated := (s.bankReg th.core b).getLsbD 4 && !(s.bankReg th.core b).getLsbD 5
    let s1 := if pending || gated then s
      else (s.modM th.core fun m => { m with gateReq := m.gateReq ++ [b] }).push (.bankGateEffect th.core b)
    .done (s1.setThread t th.retire)
/-- `bank.wake` (R192, R274). -/
def execBankWake (n : BitVec 4) (s : State) : Outcome State Fault Refusal :=
  issue {} s <| ownBank n fun s t th => .done ((s.touchBank th.core n.toNat).setThread t th.retire)

/-- Byte ranges, as a core names them, meet a bank. -/
def usesBank (core b holder : Nat) (rs : List (Nat × Nat)) : Bool :=
  rs.any fun r => match resolve core (BitVec.ofNat 64 r.1) with
    | some (.sp c off) => c == holder && r.2 != 0 && decide (b * 40960 < off + r.2) && decide (off < (b + 1) * 40960)
    | _ => false
/-- An engine operation in progress uses a bank of core `k`, whether its range-lock entries stand or have been dropped (R192, R276):
copies, queue operations, firings. -/
def State.engineUses (s : State) (k b : Nat) : Bool :=
  (s.inAir.any fun i => match i with
    | .copyEngineStart r => usesBank r.core b k (copySrcSpan r :: s.dstSpans r)
    | .copyCompletion r => usesBank r.core b k (s.dstSpans r)
    | _ => false) ||
  s.cores.any fun c =>
    (c.2.e.queue.any fun o => usesBank c.1 b k (o.range ++ (o.blocks c.1 true ++ o.blocks c.1 false).map fun x => (x.1, 64))) ||
    c.2.e.eng.any fun e => e.2.stage.isSome && usesBank c.1 b k (s.firingIn c.1 e.2 ++ s.gatherRanges c.1 e.2 ++ s.firingOut c.1 e.2)

/-- A gate request takes effect: no wake is in progress, no entry covers the bank, no engine operation uses it, and every access
that waited for its wake has been performed, a sync access that the woken contents let go on among them (R192). -/
def gateReady (s : State) (core b : Nat) : Bool :=
  (s.core core).m.gateReq.contains b && !s.bankAsleep core b && !s.bankLocked core b &&
    !(s.threads.any fun t => t.2.core == core && t.2.run == .parked (.bank b)) &&
    !((s.core core).m.woken.any fun w => w.2.1 == b) && !s.engineUses core b &&
    !(s.pool.any fun i => match i with
      | .syncAccessServe r => r.owner == core && (bankOf r.off == b || bankOf (r.off + r.n - 1) == b) && syncReady s r
      | _ => false) &&
    !(s.flying.any fun f => (f.reads ++ f.writes).any fun r => match resolve f.core r.1 with
      | some (.sp c off) => c == core && (bankOf off == b || bankOf (off + r.2 - 1) == b)
      | _ => false)

/-- BANK_GATE_EFFECT (R192). -/
def execBankGateEffect (core b : Nat) (s : State) : Outcome State Fault Refusal :=
  perform "BANK_GATE_EFFECT" (.bankGateEffect core b) (gateReady s core b) s fun s =>
    s.modM core fun m =>
      { m with bank := m.bank.put 0 b (setBits (s.bankReg core b) 4 2 1), gateReq := m.gateReq.filter fun x => x ≠ b }

/-! ## Range-lock queries (R276) -/

/-- An entry as its register reads (R198). -/
def Lock.bits (l : Lock) : BitVec 128 :=
  BitVec.ofNat 128 (l.start.toNat + l.blks.toNat * 2 ^ 64 + 2 ^ 96 + (if l.dest then 2 ^ 97 else 0) + l.tag.toNat * 2 ^ 98)
/-- `rlk.query` (R276). Every field of an invalid entry reads 0, the model's choice (log entry 84). -/
def execRlkQuery (sa : BitVec 5) (sd : BitVec 4) (h : BitVec 1) (s : State) : Outcome State Fault Refusal :=
  issue { srcs := [sa], dsts := [sd] } s <| noDet fun s t th =>
    let v := match (s.core th.core).m.locks.find ((th.src sa).toNat % 32) with
      | some l => l.bits.extractLsb' (64 * h.toNat) 64
      | none => 0
    .done (s.setThread t (th.retire.setX sd v))
/-- `rlk.drop` (R276): the operation runs on unprotected. -/
def execRlkDrop (sa : BitVec 5) (s : State) : Outcome State Fault Refusal :=
  issue { sup := true, srcs := [sa] } s <| outsideRegion fun s t th =>
    .done ((s.modM th.core fun m => { m with locks := m.locks.erase ((th.src sa).toNat % 32) }).setThread t th.retire)

end Sys2Proof.Machine
end

