-- ==== Sys2Proof/Machine/Crypto.lean ====
section
/-! DEFINITION. SHA-512 and the ECDSA check on P-521 (00 R6, R105, R464). The spec names both and does not define them: they
are those of FIPS 180-4 and FIPS 186-4 (PRESUMED, log entry 10). Numbers below 2^64 or below a prime stand as `Nat`. -/

namespace Sys2Proof.Machine

/-! ## SHA-512 -/

/-- The number that big-endian bytes spell. -/
def beNat (l : List W8) : Nat := l.foldl (fun a b => a * 256 + b.toNat) 0
/-- `n` big-endian bytes of a number. -/
def beBytes (n v : Nat) : List W8 := (List.range n).map fun i => BitVec.ofNat 8 (v / 256 ^ (n - 1 - i))

/-- The round constants. -/
def shaK : List Nat :=
  [0x428A2F98D728AE22, 0x7137449123EF65CD, 0xB5C0FBCFEC4D3B2F, 0xE9B5DBA58189DBBC, 0x3956C25BF348B538,
   0x59F111F1B605D019, 0x923F82A4AF194F9B, 0xAB1C5ED5DA6D8118, 0xD807AA98A3030242, 0x12835B0145706FBE,
   0x243185BE4EE4B28C, 0x550C7DC3D5FFB4E2, 0x72BE5D74F27B896F, 0x80DEB1FE3B1696B1, 0x9BDC06A725C71235,
   0xC19BF174CF692694, 0xE49B69C19EF14AD2, 0xEFBE4786384F25E3, 0x0FC19DC68B8CD5B5, 0x240CA1CC77AC9C65] ++
  [0x2DE92C6F592B0275, 0x4A7484AA6EA6E483, 0x5CB0A9DCBD41FBD4, 0x76F988DA831153B5, 0x983E5152EE66DFAB,
   0xA831C66D2DB43210, 0xB00327C898FB213F, 0xBF597FC7BEEF0EE4, 0xC6E00BF33DA88FC2, 0xD5A79147930AA725,
   0x06CA6351E003826F, 0x142929670A0E6E70, 0x27B70A8546D22FFC, 0x2E1B21385C26C926, 0x4D2C6DFC5AC42AED,
   0x53380D139D95B3DF, 0x650A73548BAF63DE, 0x766A0ABB3C77B2A8, 0x81C2C92E47EDAEE6, 0x92722C851482353B] ++
  [0xA2BFE8A14CF10364, 0xA81A664BBC423001, 0xC24B8B70D0F89791, 0xC76C51A30654BE30, 0xD192E819D6EF5218,
   0xD69906245565A910, 0xF40E35855771202A, 0x106AA07032BBD1B8, 0x19A4C116B8D2D0C8, 0x1E376C085141AB53,
   0x2748774CDF8EEB99, 0x34B0BCB5E19B48A8, 0x391C0CB3C5C95A63, 0x4ED8AA4AE3418ACB, 0x5B9CCA4F7763E373,
   0x682E6FF3D6B2B8A3, 0x748F82EE5DEFB2FC, 0x78A5636F43172F60, 0x84C87814A1F0AB72, 0x8CC702081A6439EC] ++
  [0x90BEFFFA23631E28, 0xA4506CEBDE82BDE9, 0xBEF9A3F7B2C67915, 0xC67178F2E372532B, 0xCA273ECEEA26619C,
   0xD186B8C721C0C207, 0xEADA7DD6CDE0EB1E, 0xF57D4F7FEE6ED178, 0x06F067AA72176FBA, 0x0A637DC5A2C898A6,
   0x113F9804BEF90DAE, 0x1B710B35131C471B, 0x28DB77F523047D84, 0x32CAAB7B40C72493, 0x3C9EBE0A15C9BEBC,
   0x431D67C49C100D4C, 0x4CC5D4BECB3E42B6, 0x597F299CFC657E2A, 0x5FCB6FAB3AD6FAEC, 0x6C44198C4A475817]

/-- The eight working words. -/
structure Sha where
  a : Nat
  b : Nat
  c : Nat
  d : Nat
  e : Nat
  f : Nat
  g : Nat
  h : Nat
deriving DecidableEq, Repr

def shaInit : Sha :=
  ⟨0x6A09E667F3BCC908, 0xBB67AE8584CAA73B, 0x3C6EF372FE94F82B, 0xA54FF53A5F1D36F1,
   0x510E527FADE682D1, 0x9B05688C2B3E6C1F, 0x1F83D9ABFB41BD6B, 0x5BE0CD19137E2179⟩

/-- Rotate a 64-bit word right. -/
def rotr64 (x n : Nat) : Nat := (x >>> n) ||| ((x <<< (64 - n)) % 2 ^ 64)
/-- One round: the words and the sixteen schedule words from this round on. -/
def shaRound (p : Sha × List Nat) (k : Nat) : Sha × List Nat :=
  let (s, w) := p
  let w0 := w.headD 0
  let s1 := rotr64 s.e 14 ^^^ rotr64 s.e 18 ^^^ rotr64 s.e 41
  let ch := (s.e &&& s.f) ^^^ ((2 ^ 64 - 1 - s.e) &&& s.g)
  let t1 := s.h + s1 + ch + k + w0
  let s0 := rotr64 s.a 28 ^^^ rotr64 s.a 34 ^^^ rotr64 s.a 39
  let maj := (s.a &&& s.b) ^^^ (s.a &&& s.c) ^^^ (s.b &&& s.c)
  let w1 := w.getD 1 0
  let w14 := w.getD 14 0
  let next := (w0 + (rotr64 w1 1 ^^^ rotr64 w1 8 ^^^ (w1 >>> 7)) + w.getD 9 0 +
    (rotr64 w14 19 ^^^ rotr64 w14 61 ^^^ (w14 >>> 6))) % 2 ^ 64
  (⟨(t1 + s0 + maj) % 2 ^ 64, s.a, s.b, s.c, (s.d + t1) % 2 ^ 64, s.e, s.f, s.g⟩, w.drop 1 ++ [next])
/-- One block of sixteen words. -/
def shaBlock (s : Sha) (w : List Nat) : Sha :=
  let r := (shaK.foldl shaRound (s, w)).1
  let add := fun (x y : Nat) => (x + y) % 2 ^ 64
  ⟨add s.a r.a, add s.b r.b, add s.c r.c, add s.d r.d, add s.e r.e, add s.f r.f, add s.g r.g, add s.h r.h⟩
/-- The big-endian words of a byte string. -/
def words64 : Nat → List W8 → List Nat
  | 0, _ => []
  | n + 1, l => beNat (l.take 8) :: words64 n (l.drop 8)
/-- The padded message: a 1 bit, zeros, and the length in bits in 16 bytes. -/
def shaPad (l : List W8) : List W8 := l ++ 0x80 :: (List.replicate ((239 - l.length % 128) % 128) 0 ++ beBytes 16 (8 * l.length))
/-- The blocks, one after the other. -/
def shaBlocks : Nat → Sha → List Nat → Sha
  | 0, s, _ => s
  | n + 1, s, w => shaBlocks n (shaBlock s (w.take 16)) (w.drop 16)
/-- The digest as one number, its first byte the highest. -/
def shaNat (l : List W8) : Nat :=
  let m := shaPad l
  let s := shaBlocks (m.length / 128) shaInit (words64 (m.length / 8) m)
  [s.a, s.b, s.c, s.d, s.e, s.f, s.g, s.h].foldl (fun v x => v * 2 ^ 64 + x) 0
/-- The digest's 64 bytes, in order. -/
def sha512Bytes (l : List W8) : List W8 := beBytes 64 (shaNat l)
/-- The digest as a word of 64 bytes: its first byte is byte 0. -/
def sha512 (l : List W8) : BitVec 512 := BitVec.ofNat 512 (beNat (sha512Bytes l).reverse)

/-! ## The curve P-521 -/

def p521 : Nat := 2 ^ 521 - 1
/-- The order of the base point. -/
def n521 : Nat :=
  0x1FFFFFFFFFFFFFFFFFFFFFFFFFFFFFFFFFFFFFFFFFFFFFFFFFFFFFFFFFFFFFFFFFA51868783BF2F966B7FCC0148F709A5D03BB5C9B8899C47AEBB6FB71E91386409
def b521 : Nat :=
  0x51953EB9618E1C9A1F929A21A0B68540EEA2DA725B99B315F3B8B489918EF109E156193951EC7E937B1652C0BD3BB1BF073573DF883D2C34F1EF451FD46B503F00
def gx521 : Nat :=
  0xC6858E06B70404E9CD9E3ECB662395B4429C648139053FB521F828AF606B4D3DBAA14B5E77EFE75928FE1DC127A2FFA8DE3348B3C1856A429BF97E7E31C2E5BD66
def gy521 : Nat :=
  0x11839296A789A3BC0045C8A5FB42C7D1BD998F54449579B446817AFBD17273E662C97EE72995EF42640C550B9013FAD0761353C7086A272C24088BE94769FD16650

/-- A difference modulo a prime, of reduced numbers. -/
def subMod (p a b : Nat) : Nat := (a + p - b) % p
/-- A point in Jacobian coordinates; `z` = 0 is the point at infinity. -/
structure Jac where
  x : Nat
  y : Nat
  z : Nat
deriving DecidableEq, Repr

def jacDouble (q : Jac) : Jac :=
  let p := p521
  if q.z = 0 then q
  else
    let zz := q.z * q.z % p
    let yy := q.y * q.y % p
    let m := 3 * (subMod p q.x zz * ((q.x + zz) % p)) % p
    let s := 4 * (q.x * yy) % p
    let x := subMod p (m * m % p) (2 * s % p)
    ⟨x, subMod p (m * subMod p s x % p) (8 * (yy * yy) % p), 2 * (q.y * q.z) % p⟩
def jacAdd (q r : Jac) : Jac :=
  let p := p521
  if q.z = 0 then r
  else if r.z = 0 then q
  else
    let z1 := q.z * q.z % p
    let z2 := r.z * r.z % p
    let u1 := q.x * z2 % p
    let h := subMod p (r.x * z1 % p) u1
    let s1 := q.y * (z2 * r.z % p) % p
    let d := subMod p (r.y * (z1 * q.z % p) % p) s1
    if h = 0 then (if d = 0 then jacDouble q else ⟨0, 1, 0⟩)
    else
      let hh := h * h % p
      let hhh := hh * h % p
      let v := u1 * hh % p
      let x := subMod p (subMod p (d * d % p) hhh) (2 * v % p)
      ⟨x, subMod p (d * subMod p v x % p) (s1 * hhh % p), h * (q.z * r.z % p) % p⟩
/-- u × G + v × Q from bit `i` - 1 down; `gq` is G + Q. -/
def jacMul (u v : Nat) (g q gq : Jac) : Nat → Jac → Jac
  | 0, a => a
  | i + 1, a =>
    let b := jacDouble a
    jacMul u v g q gq i
      (if u.testBit i then (if v.testBit i then jacAdd b gq else jacAdd b g) else if v.testBit i then jacAdd b q else b)
/-- b^e modulo m, from bit `i` - 1 of e down. -/
def powMod (m b e : Nat) : Nat → Nat → Nat
  | 0, a => a
  | i + 1, a =>
    let s := a * a % m
    powMod m b e i (if e.testBit i then s * b % m else s)

/-- The ECDSA check on P-521: a public key, a digest as a number, the signature's integers. -/
def ecdsaOk (qx qy e r s : Nat) : Bool :=
  let p := p521
  let n := n521
  decide (0 < r) && decide (r < n) && decide (0 < s) && decide (s < n) && decide (qx < p) && decide (qy < p) &&
    qy * qy % p == (qx * qx % p * qx + (p - 3) * qx + b521) % p &&
    (let w := powMod n s (n - 2) 521 1
     let g : Jac := ⟨gx521, gy521, 1⟩
     let q : Jac := ⟨qx, qy, 1⟩
     let x := jacMul (e * w % n) (r * w % n) g q (jacAdd g q) 521 ⟨0, 1, 0⟩
     x.z != 0 &&
       (let zz := x.z * x.z % p
        x.x == r * zz % p || (decide (r + n < p) && x.x == (r + n) * zz % p)))

end Sys2Proof.Machine
end

