-- ==== Sys2Proof/Machine/Record.lean ====
section
/-! DEFINITION. Launch records (R350-R353) and the declared ranges that order tasks (R314). -/

namespace Sys2Proof.Machine

/-- The die whose pantry holds a launch's record (R344). -/
def lidDie (lid : W16) : Nat := lid.toNat / 4096 % 4
/-! ## Records (R350-R353) -/

abbrev Rec := BitVec 2048
/-- A little-endian field of a record. -/
def Rec.f (r : Rec) (off len : Nat) : Nat := (r.extractLsb' (8 * off) (8 * len)).toNat
/-- Replace a field. -/
def Rec.put (r : Rec) (off len v : Nat) : Rec :=
  let m : Rec := BitVec.ofNat 2048 ((2 ^ (8 * len) - 1) <<< (8 * off))
  (r &&& ~~~m) ||| (BitVec.ofNat 2048 ((v % 2 ^ (8 * len)) <<< (8 * off)))
def Rec.ver (r : Rec) : Nat := r.f 0 2
def Rec.state (r : Rec) : Nat := r.f 2 1
def Rec.cause (r : Rec) : Nat := r.f 3 1
def Rec.img (r : Rec) : W16 := BitVec.ofNat 16 (r.f 4 2)
def Rec.asid (r : Rec) : W16 := BitVec.ofNat 16 (r.f 6 2)
def Rec.entry (r : Rec) : W32 := BitVec.ofNat 32 (r.f 8 4)
def Rec.trapvec (r : Rec) : W32 := BitVec.ofNat 32 (r.f 12 4)
def Rec.dims (r : Rec) : Nat := r.f 16 1
def Rec.order (r : Rec) : Nat := r.f 17 1
def Rec.group (r : Rec) : Nat := r.f 18 2
def Rec.extent (r : Rec) (d : Nat) : Nat := r.f (20 + 4 * d) 4
def Rec.tile (r : Rec) (d : Nat) : Nat := r.f (36 + 2 * d) 2
def Rec.spad (r : Rec) : Nat := r.f 44 4
def Rec.slots (r : Rec) : Nat := r.f 48 1
def Rec.accs (r : Rec) : Nat := r.f 49 1
def Rec.flags (r : Rec) : Nat := r.f 50 1
def Rec.mobile (r : Rec) : Bool := r.flags % 2 == 1
def Rec.det (r : Rec) : Bool := r.flags / 2 % 2 == 1
def Rec.prio (r : Rec) : Nat := r.flags / 4 % 4
def Rec.winit (r : Rec) : Nat := r.f 51 1
def Rec.wait (r : Rec) : Nat := r.f 52 1
/-- CMASK; version 1 has none (R352). -/
def Rec.cmask (r : Rec) : Nat := if r.ver = 1 then 0xFF else r.f 54 1
def Rec.places (r : Rec) (die cl : Nat) : Bool := (r.f (56 + 2 * die) 2).testBit cl
def Rec.succ (r : Rec) (i : Nat) : Nat := r.f (64 + 2 * i) 2
def Rec.seed (r : Rec) : W64 := BitVec.ofNat 64 (r.f 80 8)
def Rec.save (r : Rec) : W64 := BitVec.ofNat 64 (r.f 88 8)
/-- STATUS[31:0], [47:32] and [55:48]. -/
def Rec.retired (r : Rec) : Nat := r.f 96 4
def Rec.setState (r : Rec) (v : Nat) : Rec := r.put 2 1 v
/-- The rest states (R353). -/
def restState (n : Nat) : Bool := n == 0 || n == 3 || n == 4 || n == 6

def State.rec? (s : State) (lid : W16) : Option Rec :=
  if lid.toNat < 0x4000 then (s.die (lidDie lid)).pantry.find (lid.toNat % 4096) else none
/-- What a completed `lrec.wait` writes: STATE, CAUSE and STATUS[31:0] (R361). -/
def Rec.waitWord (r : Rec) : W64 := BitVec.ofNat 64 (r.state + r.cause * 2 ^ 8 + r.retired * 2 ^ 32)
/-- A record in a rest state answers the threads that wait for it (R361). -/
def State.answerWaits (s : State) (lid : W16) (r : Rec) : State :=
  if restState r.state then
    { s with
      threads := s.threads.map fun (e : Nat × Thread) =>
        if e.2.run = .parked (.launch lid 0) ∧ e.2.c.asid = r.asid ∧ e.2.mo.reply.isNone then
          (e.1, { e.2 with mo := { e.2.mo with reply := some r.waitWord } })
        else e }
  else s
/-- A record changes. -/
def State.setRec (s : State) (lid : W16) (r : Rec) : State :=
  (s.modDie (lidDie lid) fun d => { d with pantry := d.pantry.set (lid.toNat % 4096) r }).answerWaits lid r
def State.modRec (s : State) (lid : W16) (f : Rec → Rec) : State :=
  match s.rec? lid with
  | some r => s.setRec lid (f r)
  | none => s
/-- A thread's own record (R355). -/
def State.ownRec (s : State) (th : Thread) (lid : W16) : Option Rec :=
  (s.rec? lid).filter fun r => r.asid == th.c.asid
/-- A journal entry of a die's active controller, under the next sequence number, and the pending-kick bit of a record (R463). -/
def State.journal (s : State) (die : Nat) (f : JournalFn) : State :=
  s.modDie die fun d => { d with ctl := { d.ctl with seqno := d.ctl.seqno + 1, journal := d.ctl.journal ++ [(d.ctl.seqno + 1, f)] } }
def State.kick (s : State) (lid : W16) (b : Bool) : State :=
  s.modDie (lidDie lid) fun d => { d with ctl := { d.ctl with kicks := d.ctl.kicks.put false (lid.toNat % 4096) b } }

/-! ## Declared ranges (R314, R351) -/

/-- A declared range: first byte and bytes (R351). -/
def Rec.range (r : Rec) (i : Nat) : Nat × Nat := (r.f (168 + 10 * i) 6 * 256, r.f (174 + 10 * i) 4 * 256)

/-- Two byte ranges share a byte. -/
def rangesCross (a b : Nat × Nat) : Bool := decide (0 < a.2) && decide (0 < b.2) && decide (a.1 < b.1 + b.2) && decide (b.1 < a.1 + a.2)
/-- Two tasks of one ASID conflict: a write range of either overlaps any range of the other. -/
def Rec.conflicts (a b : Rec) : Bool :=
  a.asid == b.asid && ((List.range 4).any fun i => (List.range 8).any fun j =>
    rangesCross (a.range (4 + i)) (b.range j) || rangesCross (b.range (4 + i)) (a.range j))
/-- A conflicting task that was admitted before has not exited. -/
def State.heldBack (s : State) (lid : W16) (ord : W32) : Bool :=
  match s.rec? lid with
  | none => false
  | some r =>
    (s.pkg.admitted.takeWhile fun e => !(e.1 == lid && e.2 == ord)).any fun e =>
      (s.rec? e.1).any r.conflicts

end Sys2Proof.Machine
end

