-- ==== Sys2Proof/Machine/File.lean ====
section
/-! DEFINITION. An Ozrum file as bytes (R94-R98, R103-R106): its sections, the checks of its header, symbols, relocations, safe
points, its signature and its default entry. -/

namespace Sys2Proof.Machine

/-! ## The file (R94-R98) -/

/-- A little-endian field of a byte list. -/
def fieldOf (l : List W8) (off n : Nat) : Nat := ofBytes ((l.drop off).take n)
/-- `n` bytes of a list from an offset are zero. -/
def zeroBytes (l : List W8) (off n : Nat) : Bool := fieldOf l off n == 0

/-- A section-table entry (R97). -/
structure Sec where
  kind  : Nat
  flags : Nat
  img   : Nat
  align : Nat
  link  : Nat
  foff  : Nat
  flen  : Nat
  mlen  : Nat
  addr  : Nat
deriving DecidableEq, Repr

def secAt (file : List W8) (at_ : Nat) : Sec :=
  let g := fun (o n : Nat) => fieldOf file (at_ + o) n
  ⟨g 4 2, g 6 2, g 8 2, g 10 2, g 12 4, g 16 8, g 24 8, g 32 8, g 40 8⟩
def secsOf (file : List W8) : List Sec :=
  (List.range (fieldOf file 32 4)).map fun i => secAt file (fieldOf file 24 8 + 48 * i)
/-- The bytes of a section in the file. -/
def Sec.bytes (x : Sec) (file : List W8) : List W8 := (file.drop x.foff).take x.flen
/-- Bytes of a kind's entries. -/
def Sec.entries (x : Sec) (file : List W8) (n : Nat) : List (List W8) :=
  let b := x.bytes file
  (List.range (x.flen / n)).map fun i => (b.drop (n * i)).take n
def ofKind (secs : List Sec) (k : Nat) : List (Nat × Sec) := (secs.zipIdx.map fun e => (e.2, e.1)).filter fun e => e.2.kind == k
def linkedFile (file : List W8) : Bool := fieldOf file 8 4 % 2 == 1
def signedFile (file : List W8) : Bool := fieldOf file 8 4 / 2 % 2 == 1

/-- Header and section checks of R109, in its order: 1 header, 2 section bounds, 3 unknown kinds and reserved fields. R109 does
not list all of what is checked here: an entry size other than 48, more than 4,096 sections, FSIZE other than the length, ALIGN
above 16 and MLEN below FLEN are also refused, the model's choice (log entry 15). -/
def headerError (file : List W8) : Nat :=
  let fsize := fieldOf file 16 8
  let secs := secsOf file
  let spans := (secs.filter fun x => x.flen != 0).map fun x => (x.foff, x.flen)
  if file.length < 128 ∨ fieldOf file 0 4 ≠ 0x4D525A4F ∨ fieldOf file 64 2 ≠ 0x4B56 ∨ fieldOf file 12 4 ≠ 128 ∨
      !(fieldOf file 4 2 == 1 || fieldOf file 4 2 == 2) ∨ fieldOf file 36 4 ≠ 48 ∨ 4096 < fieldOf file 32 4 ∨
      fsize ≠ file.length ∨ fsize < fieldOf file 24 8 + 48 * fieldOf file 32 4 then 1
  else if spans.any (fun p => decide (p.1 < 128) || decide (fsize < p.1 + p.2)) ||
      (spans.zipIdx.any fun p => spans.zipIdx.any fun q => decide (p.2 < q.2) && rangesCross p.1 q.1) then 2
  else if fieldOf file 8 4 / 4 ≠ 0 ∨ !zeroBytes file 76 52 ∨ (1 ≤ secs.length ∧ !zeroBytes file (fieldOf file 24 8) 48) ∨
      secs.any (fun x => decide (x.flags / 8 ≠ 0) || decide (16 < x.align) || decide (x.mlen < x.flen)) ||
      (secs.drop 1).any (fun x => (x.kind == 0 || decide (13 ≤ x.kind)) && x.flags % 2 == 1) ||
      ((ofKind secs 6).flatMap fun e => e.2.entries file 24).any (fun e => !zeroBytes e 22 2) ||
      ((ofKind secs 7).flatMap fun e => e.2.entries file 24).any (fun e => !zeroBytes e 14 2) then 3
  else 0

/-! ## Symbols and relocations (R103, R104) -/

/-- Where the loader puts things: data addresses by section, LIDs by template (section, index), first bobbins by kind 5 entry's
symbol. -/
structure Placing where
  addrs : Tab Nat := []
  lids  : List ((Nat × Nat) × Nat) := []
  rings : List (Nat × Nat) := []

/-- The value of a symbol, where it has one. R103 gives a byte offset in the section; of a data section it is taken from the
section's address, of a scratchpad section from the task's allocation, and of a launch section it names the template whose LID it
is: the model's choices (log entry 16), and so is that VALUE is unsigned. -/
def symValue (secs : List Sec) (p : Placing) (n : Nat) (e : List W8) : Option Nat :=
  let si := fieldOf e 4 4
  let v := fieldOf e 8 8
  match p.rings.find? fun r => r.1 == n with
  | some r => some r.2
  | none =>
    if si = 0xFFFFFFFF then some v
    else match secs[si]? with
      | none => none
      | some x => match x.kind with
        | 1 => some v
        | 2 => some ((p.addrs.getD si 0) + v)
        | 3 => some (x.addr + v - 16)
        | 4 => (p.lids.find? fun l => l.1 == (si, v / 288)).map fun l => l.2
        | _ => none
/-- A symbol in a code section: its image. -/
def symImage (secs : List Sec) (e : List W8) : Option Nat :=
  (secs[fieldOf e 4 4]?).bind fun x => if x.kind = 1 then some x.img else none

/-- Replace bytes of a section. -/
def putBytes (l : List W8) (off : Nat) (b : List W8) : List W8 := l.take off ++ b ++ l.drop (off + b.length)
/-- A value fits `n` bits, signed or unsigned. -/
def fitsBits (v : Int) (n : Nat) : Bool := decide (-(2 ^ (n - 1)) ≤ v) && decide (v < 2 ^ n)
def fitsSigned (v : Int) (n : Nat) : Bool := decide (-(2 ^ (n - 1)) ≤ v) && decide (v < 2 ^ (n - 1))
def asNat (v : Int) (n : Nat) : Nat := (v % (2 ^ n : Int)).toNat

/-- Apply one relocation to the bytes of its target section: `none` when its value does not fit or it has no value. A code symbol
under types 1, 2, 4 and 5 has its link value (R115: image and word offset), and type 7 takes the image of the symbol's code section,
without ADDEND, and rejects a symbol of no code section: the model's choices (log entry 16). -/
def relocate (secs : List Sec) (p : Placing) (syms : List (List W8)) (l : List W8) (e : List W8) : Option (List W8) :=
  let off := fieldOf e 0 8
  let n := fieldOf e 8 4
  let add : Int := (BitVec.ofNat 64 (fieldOf e 16 8)).toInt
  let word := fun (o : Nat) => fieldOf l o 4
  let put := fun (o k v : Nat) => if o + k ≤ l.length then some (putBytes l o (leBytes k v)) else none
  let pair := fun (x y : Nat) => if off + 8 ≤ l.length then some (putBytes l off (leBytes 4 x ++ leBytes 4 y)) else none
  (syms[n]?).bind fun sym =>
    (symValue secs p n sym).bind fun base =>
      let code := (symImage secs sym).isSome
      let v : Int := base + add
      let link : Int := if code then ((symImage secs sym).getD 0 * 2 ^ 32 : Nat) + v / 4 else v
      match fieldOf e 12 2 with
      | 1 => put off 8 (asNat link 64)
      | 2 => if fitsBits link 32 then put off 4 (asNat link 32) else none
      | 3 =>
        let d := v / 4 - ((off / 4 : Nat) : Int)
        if fitsSigned d 19 then put off 4 (word off / 2 ^ 19 * 2 ^ 19 + asNat d 19) else none
      | 4 => if fitsSigned link 39 then
          pair (word off / 2 ^ 24 * 2 ^ 24 + asNat link 39 / 2 ^ 15) (word (off + 4) / 2 ^ 15 * 2 ^ 15 + asNat link 15) else none
      | 5 =>
        let size := 2 ^ (word (off + 4) / 2 ^ 12 % 8)
        let q := link / size
        if link % size = 0 ∧ fitsSigned q 34 then
          pair (word off / 2 ^ 24 * 2 ^ 24 + asNat q 34 / 2 ^ 10) (word (off + 4) / 2 ^ 10 * 2 ^ 10 + asNat q 10) else none
      | 6 => if fitsBits v 16 then put off 2 (asNat v 16) else none
      | 7 => ((symImage secs sym).bind fun i => put off 2 i)
      | 8 => if fitsBits v 16 then put off 2 (asNat v 16) else none
      | _ => none

/-- The bytes of a section after its relocations, which may reach its zero tail (R97). -/
def relocated (file : List W8) (secs : List Sec) (p : Placing) (syms : List (List W8)) (i : Nat) (x : Sec) : Option (List W8) :=
  match (ofKind secs 7).filter fun r => r.2.link == i with
  | [] => some (x.bytes file)
  | rs => rs.foldl (fun a r => (r.2.entries file 24).foldl (fun b e => b.bind fun l => relocate secs p syms l e) a)
      (some (x.bytes file ++ List.replicate (x.mlen - x.flen) 0))

/-- Safe points of an image with their masks (R106): `none` when a rule is broken. -/
def safePoints (file : List W8) (secs : List Sec) (img : Nat) (words : Nat) : Option (List (Nat × W64)) :=
  let offs := ((ofKind secs 8).filter fun e => e.2.link == img).flatMap fun e => (e.2.entries file 4).map ofBytes
  let masks := ((ofKind secs 9).filter fun e => e.2.link == img).flatMap fun e => (e.2.entries file 8).map ofBytes
  if offs.length = masks.length ∧ offs.all (fun o => decide (o < words)) ∧
      (offs.zip (offs.drop 1)).all (fun p => decide (p.1 < p.2)) then
    some (offs.zip (masks.map (BitVec.ofNat 64)))
  else none

/-! ## Signature and default entry (R95, R105) -/

/-- A public key that the device holds: its identifier and its point. -/
abbrev Keys := List (W64 × Nat × Nat)
/-- The signature block verifies under the key that it names (R105); a key that the device does not hold verifies nothing. -/
def signatureOk (keys : Keys) (file : List W8) : Bool :=
  let o := fieldOf file 56 8
  fieldOf file o 4 == 0x47535A4F && fieldOf file (o + 4) 2 == 1 && fieldOf file (o + 6) 2 == 1 && fieldOf file (o + 16) 8 == o &&
    fieldOf file 16 8 == o + 160 && zeroBytes file (o + 156) 4 &&
    (match keys.find? fun k => k.1.toNat == fieldOf file (o + 8) 8 with
     | none => false
     | some k => ecdsaOk k.2.1 k.2.2 (shaNat (file.take o)) (beNat ((file.drop (o + 24)).take 66))
         (beNat ((file.drop (o + 90)).take 66)))

/-- The words of a code section. -/
def codeWords (b : List W8) (mlen : Nat) : List W32 := (List.range (mlen / 4)).map fun i => BitVec.ofNat 32 (fieldOf b (4 * i) 4)
/-- The default entry of a file (R95): image id, words, word offset; `none` where it names no code section that an instruction
store holds (R99). -/
def defaultEntry (file : List W8) : Option (W16 × List W32 × W32) :=
  ((secsOf file)[fieldOf file 70 2]?).bind fun x =>
    if x.kind = 1 ∧ x.mlen % 4 = 0 ∧ x.mlen ≤ 262144 then
      some (BitVec.ofNat 16 x.img, codeWords (x.bytes file) x.mlen, BitVec.ofNat 32 (fieldOf file 72 4))
    else none

end Sys2Proof.Machine
end

