-- ==== Sys2Proof/Machine/Cluster.lean ====
section
/-! DEFINITION. Gangs (R288-R293) and barriers (R294-R298). -/

namespace Sys2Proof.Machine

open Host (Outcome)

/-! ## Gangs -/

/-- A word that the rules of R164 bar inside a region. -/
def noRegion (th : Thread) (s : State) (k : Res) : Res := if th.rg then .trap s .privilege 0 0x6 else k

/-- The first core of the aligned group of `n` cores that holds a core (R288). -/
def groupBase (core n : Nat) : Nat := core / 8 * 8 + core % 8 / n * n
/-- A gang is pending or formed in a slot of some core of a group: its own group meets this one. -/
def State.gangIn (s : State) (base n slot : Nat) : Bool :=
  s.threads.any fun e => e.2.gang.any fun g =>
    let b := groupBase e.2.core g.size
    g.slot == slot && decide (b < base + n) && decide (base < b + g.size)

/-- The common checks of `gang.form` and `gang.join` (R289); a mobile thread is caught before. -/
def gangChecks (th : Thread) (s : State) (k : Res) : Res :=
  noRegion th s (if th.gm then .trap s .privilege 0 0x4 else k)

/-- Formation (R289, R290): GM rises in every member, and every follower takes the leader's stream. -/
def State.formGang (s : State) (g : Gang) (u : Thread) : State :=
  g.members.foldl (fun a m => a.modThread m fun v =>
    let w := (v.setBit 20 true).modC fun c => { c with pc := u.c.pc, img := u.c.img }
    { w with gang := v.gang.map fun x => { x with formed := true, members := g.members }, run := .slot (a.cycle + 16) }) s

/-- `gang.form` (R289): the gang is pending until its last member has joined; the word is then issued again and ends. -/
def execGangForm (sa : BitVec 5) (sd : BitVec 4) (s : State) : Outcome State Fault Refusal :=
  issue { anch := true, srcs := [sa], dsts := [sd] } s fun s t th =>
    gangChecks th s <|
      match th.gang with
      | some g =>
        if g.formed then
          let u := (th.retire.setX sd 0)
          .done ((s.setThread t u).formGang g u)
        else .park s .gangForm
      | none =>
        let n := (th.src sa).toNat
        let slot := th.bslot.getD 0
        let base := groupBase th.core n
        if !(n == 2 || n == 4 || n == 8) || (slot == 0 && decide (base % 8 + n = 8)) then
          .done (s.setThread t (th.retire.setX sd 1))
        else if s.gangIn base n slot then .done (s.setThread t (th.retire.setX sd 2))
        else .park (s.setThread t { th with
          gang := some { leader := t, size := n, slot := slot, formed := false, members := [t] } }) .gangForm

/-- The thread in a slot of a core that leads a pending gang there (R289). -/
def State.pendingLeader (s : State) (core slot : Nat) : Option (Tid × Gang) :=
  s.threads.findSome? fun e =>
    match e.2.gang with
    | some g => if g.leader = e.1 ∧ e.2.core = core ∧ g.slot = slot ∧ !g.formed then some (e.1, g) else none
    | none => none

/-- Record a join (R289): the last one completes the gang, and its leader's word goes on. -/
def State.recordJoin (s : State) (t : Tid) (th : Thread) (lead : Tid) (g : Gang) : State :=
  let g1 := { g with members := g.members ++ [t], formed := decide (g.members.length + 1 = g.size) }
  let s1 := s.setThread t { th with gang := some { g1 with resume := th.c.pc, resumeImg := th.c.img } }
  s1.modThread lead fun u =>
    let v := { u with gang := some g1 }
    if g1.formed then { v with run := .slot (s.cycle + 16) } else v

/-- `gang.join` (R289): after it has joined, the thread waits in its slot at its resume point. -/
def execGangJoin (sa : BitVec 5) (sd : BitVec 4) (s : State) : Outcome State Fault Refusal :=
  issue { anch := true, srcs := [sa], dsts := [sd] } s fun s t th =>
    gangChecks th s <|
      let lc := th.core / 8 * 8 + ((th.src sa).extractLsb' 0 3).toNat
      match s.pendingLeader lc (th.bslot.getD 0) with
      | none => .park s (.gangJoin lc)
      | some (lead, g) =>
        let taken := g.members.any fun m =>
          ((s.threads.find m).any fun u => u.core % g.size == th.core % g.size)
        if groupBase lc g.size ≠ groupBase th.core g.size ∨ taken then .done (s.setThread t (th.retire.setX sd 1))
        else .park (s.recordJoin t (th.retire.setX sd 0) lead g) (.gangJoin lc)

/-- `gang.disband` (R289): the leader goes on after it, every follower at its resume point. -/
def execGangDisband (s : State) : Outcome State Fault Refusal :=
  issue {} s fun s t th =>
    match (if th.gm then th.gang else none) with
    | none => .done (s.setThread t th.retire)
    | some g =>
      let u := { th.retire.setBit 20 false with gang := none }
      .done (s.setThread t (if g.leader = t then u else u.modC fun c => { c with pc := g.resume, img := g.resumeImg }))

/-- `gang.idx` (R289). -/
def execGangIdx (sd : BitVec 4) (s : State) : Outcome State Fault Refusal :=
  issue { dsts := [sd] } s (writesX sd fun th => th.gangIdx)

/-! ## Barriers -/

def State.tag (s : State) (n : Nat) : BarTag := s.pkg.tags.getD n {}
def State.setTag (s : State) (n : Nat) (g : BarTag) : State := s.modPkg fun p => { p with tags := p.tags.set n g }

/-- Every registered thread of a core has arrived for the open phase (R295). -/
def State.allArrived (s : State) (n core : Nat) (done : W32) : Bool :=
  s.threads.all fun e => match e.2.bars.find n with
    | some r => e.2.core != core || decide ((r.arr - (done + 1)).toNat < 2 ^ 31)
    | none => true

/-- The root (R294): when it has counted every participating core, the phase is released 40 cycles after the last
arrival. -/
def State.checkRoot (s : State) (n : Nat) : State :=
  let g := s.tag n
  if g.cores ≠ 0 ∧ g.cores ≤ g.counted ∧ g.release.isNone then
    (s.setTag n { g with release := some (g.last + 40) }).push (.barrierRelease n)
  else s

/-- A core sends its arrival once THREADS of its threads have registered and all have arrived (R295). -/
def State.checkCore (s : State) (n core : Nat) : State :=
  let g := s.tag n
  match g.parts.find core with
  | none => s
  | some p =>
    if !p.sent ∧ p.reg = p.threads ∧ 0 < p.threads ∧ s.allArrived n core g.done then
      (s.setTag n { g with parts := g.parts.set core { p with sent := true }, counted := g.counted + 1 }).checkRoot n
    else s

/-- A registered thread arrives (R296): ARR and the core's count. -/
def State.arrive (s : State) (t : Tid) (th : Thread) (n : Nat) (r : BarReg) : State :=
  let s1 := s.setThread t { th with bars := th.bars.set n r }
  (s1.setTag n { s1.tag n with last := s.cycle }).checkCore n th.core

/-- DONE has reached phase `k` (R296). -/
def phaseDone (done k : W32) : Bool := decide ((done - k).toNat < 2 ^ 31)

/-- A tag is free (R297): every part of its state returns to zero, the registrations of threads on further cores too. -/
def State.freeTag (s : State) (n : Nat) : State :=
  let s1 := s.setTag n {}
  { s1 with
    pool := s1.pool.erase (.barrierRelease n)
    threads := s1.threads.map fun (e : Nat × Thread) =>
      if (e.2.bars.find n).isSome then (e.1, { e.2 with bars := e.2.bars.erase n }) else e }

/-- A thread leaves a tag (R297). -/
def State.leaveTag (s : State) (t : Tid) (th : Thread) (n : Nat) : State :=
  let s1 := s.setThread t { th with bars := th.bars.erase n }
  let g := s1.tag n
  match g.parts.find th.core with
  | none => s1
  | some p =>
    if p.threads ≤ 1 then
      if g.cores ≤ 1 then s1.freeTag n
      else (s1.setTag n { g with parts := g.parts.erase th.core, cores := g.cores - 1, last := s.cycle }).checkRoot n
    else
      (s1.setTag n { g with
        parts := g.parts.set th.core { p with threads := p.threads - 1, reg := p.reg - 1 }, last := s.cycle }).checkCore n
        th.core

/-- Perform a barrier word's effect on its tag (R296-R298). -/
def State.barDo (s : State) (t : Tid) (o : BarOp) : State :=
  match s.threads.find t with
  | none => s
  | some th => match o with
    | .reg n cores threads =>
      let g := s.tag n
      let p := (g.parts.find th.core).getD { threads := threads }
      (s.setTag n { g with
        owner := some th.c.asid, cores := cores, parts := g.parts.set th.core { p with reg := p.reg + 1 } }).setThread t
        { th with bars := th.bars.set n { arr := g.done } }
    | .arrive n wait => match th.bars.find n with
      | some r => s.arrive t th n { arr := r.arr + 1, arrw := if wait then some (r.arr + 1) else r.arrw }
      | none => s
    | .seen n => match th.bars.find n with
      | some r => s.setThread t { th with bars := th.bars.set n { r with arrw := none } }
      | none => s
    | .drop n => if (th.bars.find n).isSome then s.leaveTag t th n else s

/-- Barrier tags as a thread sees them: with what its open chunk has done (R319). -/
def State.barView (s : State) (t : Tid) (th : Thread) : State :=
  if th.det && th.chunk.open_ then th.chunk.bars.foldl (fun a o => a.barDo t o) s else s
/-- A barrier word's effect: at once, in a deterministic chunk at its commit (R322; log entry 12). -/
def State.barWord (s : State) (t : Tid) (th : Thread) (o : BarOp) : State :=
  if th.det && th.chunk.open_ then s.modThread t fun u => { u with chunk := { u.chunk with bars := u.chunk.bars ++ [o] } }
  else s.barDo t o
/-- End a barrier word, with its result. -/
def barEnd (s : State) (t : Tid) (sd : Option (BitVec 4)) (v : W64) : Res :=
  .done (s.modThread t fun u => match sd with
    | some d => u.retire.setX d v
    | none => u.retire)
/-- A key for a barrier tag in read and write sets (R321). -/
def barLine (n : Nat) : Nat := 0x2800000000000000 + n
/-- The tags that a chunk's words change for others to read: registrations and drops. -/
def Chunk.barSet (c : Chunk) (g : LineSet) : LineSet := c.bars.foldl (fun a o => match o with
  | .reg n _ _ | .drop n => a.add (barLine n)
  | _ => a) g

/-- `bar.reg` (R296). -/
def execBarReg (sa sb : BitVec 5) (sd : BitVec 4) (bn : BitVec 3) (s : State) : Outcome State Fault Refusal :=
  issue { anch := true, srcs := [sa, sb], dsts := [sd] } s fun s t th =>
    noRegion th s <|
      let n := bn.toNat
      let v := s.barView t th
      let g := v.tag n
      let cores := (th.src sa).toNat
      let threads := (th.src sb).toNat
      let part := g.parts.find th.core
      let off := !(decide (1 ≤ cores) && decide (cores ≤ 512)) || !(decide (1 ≤ threads) && decide (threads ≤ 64)) ||
        (g.owner.isSome && g.cores != cores) || part.any fun p => p.threads != threads
      let p := part.getD { threads := threads }
      let st : W32 :=
        if off then 1
        else if g.owner.any fun a => a != th.c.asid then 2
        else if ((v.threads.find t).any fun u => (u.bars.find n).isSome) || p.reg == p.threads then 3
        else 0
      let s1 := if th.det then s.setThread t (th.noteRead (barLine n)) else s
      barEnd (if st = 0 then s1.barWord t th (.reg n cores threads) else s1) t (some sd) ((g.done + 1) ++ st)

/-- The registration of a thread on a tag, and the tags as it sees them; an unregistered thread traps (R296). -/
def registeredOn (s : State) (t : Tid) (th : Thread) (n : Nat) (k : State → BarReg → Res) : Res :=
  noRegion th s <|
    let v := s.barView t th
    match (v.threads.find t).bind fun u => u.bars.find n with
    | none => .trap s .privilege 0 0x9
    | some r => k v r

/-- `bar.arrive` (R296). -/
def execBarArrive (sd : BitVec 4) (bn : BitVec 3) (s : State) : Outcome State Fault Refusal :=
  issue { dsts := [sd] } s fun s t th =>
    registeredOn s t th bn.toNat fun v r =>
      let k := r.arr + 1
      if k = (v.tag bn.toNat).done + 3 then .park s (.barrier bn.toNat (k - 2))
      else barEnd (s.barWord t th (.arrive bn.toNat false)) t (some sd) (k.zeroExtend 64)

/-- `bar.wait` (R296). -/
def execBarWait (sa : BitVec 5) (bn : BitVec 3) (s : State) : Outcome State Fault Refusal :=
  issue { srcs := [sa] } s fun s t th =>
    registeredOn s t th bn.toNat fun v _ =>
      let k := (th.src sa).extractLsb' 0 32
      if phaseDone (v.tag bn.toNat).done k then .done (s.setThread t th.retire) else .park s (.barrier bn.toNat k)

/-- `bar.arrw` (R296, R298): an arrival already counted is not made again. -/
def execBarArrw (sd : BitVec 4) (bn : BitVec 3) (s : State) : Outcome State Fault Refusal :=
  issue { dsts := [sd] } s fun s t th =>
    registeredOn s t th bn.toNat fun v r =>
      let n := bn.toNat
      match r.arrw with
      | some k =>
        if phaseDone (v.tag n).done k then barEnd (s.barWord t th (.seen n)) t (some sd) (k.zeroExtend 64)
        else .park s (.barrier n k)
      | none =>
        let k := r.arr + 1
        if k = (v.tag n).done + 3 then .park s (.barrier n (k - 2))
        else .park (s.barWord t th (.arrive n true)) (.barrier n k)

/-- A thread that ends leaves every tag (R297). -/
def State.leaveTags (s : State) (t : Tid) : State :=
  match s.threads.find t with
  | none => s
  | some th => th.bars.foldl (fun a e => match a.threads.find t with
    | some u => a.leaveTag t u e.1
    | none => a) s

/-- `bar.drop` (R296, R297). -/
def execBarDrop (bn : BitVec 3) (s : State) : Outcome State Fault Refusal :=
  issue {} s fun s t th =>
    noRegion th s (barEnd (s.barWord t th (.drop bn.toNat)) t none 0)

def releaseDue (s : State) (n : Nat) : Bool := (s.tag n).release.any fun c => decide (c ≤ s.cycle)

/-- BARRIER_RELEASE (R294): DONE advances in every core at once; arrivals already made for the next phase then count. -/
def execBarrierRelease (n : Nat) (s : State) : Outcome State Fault Refusal :=
  perform "BARRIER_RELEASE" (.barrierRelease n) (releaseDue s n) s fun s =>
    let g := s.tag n
    let s1 := s.setTag n { g with
      done := g.done + 1, counted := 0, release := none,
      parts := g.parts.map fun (e : Nat × TagCore) => (e.1, { e.2 with sent := false }) }
    g.parts.foldl (fun a e => a.checkCore n e.1) s1

end Sys2Proof.Machine
end

