-- ==== Sys2Proof/Machine/Regions.lean ====
section
/-! DEFINITION. Atomic regions and probabilistic commit (R325-R347), the annealing unit (R344), and the commit of
deterministic chunks (R319-R322, R343). -/

namespace Sys2Proof.Machine

open Host (Outcome)

/-! ## Opening, drawing, aborting -/

/-- `ar.begin` (R326, R343): waits, releases at package scope, and opens the region over a checkpoint. A region that has
been squashed four times waits for its die's priority (R336). -/
def execArBegin (sa : BitVec 5) (sd : BitVec 4) (s : State) : Outcome State Fault Refusal :=
  issue { srcs := [sa], dsts := [sd] } s fun s t th =>
    if th.rg then .trap s .privilege 0 0x6
    else if th.gm then .trap s .privilege 0 0x4
    else if th.ih then .trap s .privilege 0 0xB
    else if th.det && th.chunk.open_ && decide (0 < th.chunk.words) then .done (s.endChunk t .boundary)
    else if !s.producersDone t th then .park s .producers
    else if decide (4 ≤ th.squashes) && !th.det && (s.die (dieOf th.core)).prio != some t then .park s .place
    else release 2 s t th fun s th =>
      let r : Region := { cp := s.checkpoint th, sd := sd, step := th.src sa, begun := s.pkg.place }
      .done (s.setThread t { (th.retire.setX sd 0).setBit 19 true with region := some r })

/-- `ar.abort` (R337). -/
def execArAbort (s : State) : Outcome State Fault Refusal :=
  issue {} s fun s t th => if th.rg then .done (s.endRegion t 4) else .trap s .privilege 0 0xB

/-- `ar.draw` (R332): fixed by the launch's seed and the step id. -/
def execArDraw (sd : BitVec 4) (s : State) : Outcome State Fault Refusal :=
  issue { dsts := [sd] } s fun s t th =>
    match th.region with
    | none => .trap s .privilege 0 0xB
    | some r => .done (s.setThread t (th.retire.setX sd (drawFp32 (drawU th.lau.seed r.step))))

/-- `ar.status` (R339): LAST, with OPEN. -/
def execArStatus (sd : BitVec 4) (s : State) : Outcome State Fault Refusal :=
  issue { dsts := [sd] } s (writesX sd fun th => th.last ||| (if th.rg then 1#64 <<< 48 else 0))

/-! ## The annealing unit (R344, R345) -/

/-- floor(2^24 × 2^(k / 256)), k < 256, found bit by bit. -/
def root256 (k : Nat) : Nat → Nat → Nat
  | 0, r => r
  | i + 1, r =>
    let c := r + 2 ^ i
    root256 k i (if c ^ 256 ≤ 2 ^ (k + 24 * 256) then c else r)

/-- FP32_RNE(2^(OFFSET / 256)): no result lies midway, since 2^(k / 256) is irrational for k not 0. -/
def annealFactor (off : Nat) : Nat :=
  if off / 256 ≥ 128 then fp32.infBits
  else if off % 256 = 0 then (off / 256 + 127) * 2 ^ 23
  else (off / 256 + 127) * 2 ^ 23 + ((root256 (off % 256) 24 (2 ^ 24) + 1) / 2 - 2 ^ 23)

/-- The unit's update at a validated commit (R344). -/
def Anneal.update (a : Anneal) (published : Bool) : Anneal :=
  let b := { a with wcnt := a.wcnt + 1 }
  let c := if published then
      { b with wpub := b.wpub + 1, offset := BitVec.ofNat 16 (b.offset.toNat * b.decay.toNat / 65536) }
    else b
  if c.window ≠ 0 ∧ c.wcnt = c.window then
    { c with
      offset := if c.wpub.toNat < c.thresh.toNat then BitVec.ofNat 16 (min (c.offset.toNat + c.step.toNat) 0xFFFF)
        else c.offset
      wcnt := 0, wpub := 0 }
  else c

def State.annealOf (s : State) (lid : W16) : Anneal := (s.die (lidDie lid)).anneal.getD lid.toNat {}
def State.setAnneal (s : State) (lid : W16) (a : Anneal) : State :=
  s.modDie (lidDie lid) fun d => { d with anneal := d.anneal.set lid.toNat a }

/-- What every `anneal` form writes to `SD` (R345). -/
def Anneal.word (a : Anneal) : W64 := a.wcnt ++ (a.wpub.extractLsb' 0 16) ++ a.offset

/-- The effect of an `anneal` form on the unit (R345). -/
def Anneal.apply (u : Anneal) (fn : Nat) (a b : W64) : Anneal :=
  match fn with
  | 0 => { offset := 0, step := a.extractLsb' 0 16, thresh := a.extractLsb' 16 16, window := a.extractLsb' 32 32,
           decay := BitVec.ofNat 17 (min (b.extractLsb' 0 17).toNat 0x10000), wcnt := 0, wpub := 0, en := true }
  | 1 => { u with en := false }
  | _ => { u with offset := 0, wcnt := 0, wpub := 0 }

/-- Perform an `anneal` form: it takes a place in the package order (R345). -/
def State.annealForm (s : State) (t : Tid) (fn : Nat) (a b : W64) (sd : BitVec 4) : State :=
  match s.threads.find t with
  | none => s
  | some th =>
    let u := s.annealOf th.c.lid
    ((s.setAnneal th.c.lid (u.apply fn a b)).takePlace {} false t).setThread t (th.retire.setX sd u.word)

/-- An `anneal` word: in a deterministic launch a chunk of its own, performed at its lane's turn (R345). -/
def annealBody (fn : Nat) (a b : Thread → W64) (sd : BitVec 4) : Body := fun s t th =>
  if th.rg then .trap s .privilege 0 0x6
  else if th.det && th.chunk.open_ then
    .done (s.endChunk t (if 0 < th.chunk.words then .boundary else .turn (.anneal fn (a th) (b th) sd)))
  else .done (s.annealForm t fn (a th) (b th) sd)

/-- `anneal.cfg` (R345). -/
def execAnnealCfg (sa sb : BitVec 5) (sd : BitVec 4) (s : State) : Outcome State Fault Refusal :=
  issue { srcs := [sa, sb], dsts := [sd] } s (annealBody 0 (fun th => th.src sa) (fun th => th.src sb) sd)
/-- `anneal.off` (R345). -/
def execAnnealOff (sd : BitVec 4) (s : State) : Outcome State Fault Refusal :=
  issue { dsts := [sd] } s (annealBody 1 (fun _ => 0) (fun _ => 0) sd)
/-- `anneal.reset` (R345). -/
def execAnnealReset (sd : BitVec 4) (s : State) : Outcome State Fault Refusal :=
  issue { dsts := [sd] } s (annealBody 2 (fun _ => 0) (fun _ => 0) sd)

/-! ## Commit (R333-R335, R347) -/

/-- Whether a region publishes: its scaled ratio against its draw, exactly (R333). -/
def publishes (ratio u : Nat) : Bool :=
  match fp32.unpack ratio with
  | .nan _ => false
  | .inf n => !n
  | .fin n m e =>
    !n && m != 0 && (decide (0 ≤ (FVal.fin n m e).cmp (.fin false 1 0)) ||
      decide ((FVal.fin false u (-24)).cmp (.fin n m e) < 0))

/-- The write set of a region that commits: empty when it discards (R347). -/
structure Decision where
  publish : Bool
  nan     : Bool
  set     : LineSet

/-- Ratio, draw and write set of a region (R333). -/
def State.regionDecision (s : State) (th : Thread) (r : Region) (ratio : W32) : Decision :=
  let unit := s.annealOf th.c.lid
  let r2 := if unit.en then mulRne ratio.toNat (annealFactor unit.offset.toNat) else ratio.toNat
  let p := publishes r2 (drawU th.lau.seed r.step)
  ⟨p, (fp32.unpack r2).isNan, if p then s.heldSet th.core th.c.asid r.held else {}⟩

/-- Bytes and full/empty changes of a held scratchpad line at its owner, but for those it refuses. -/
def State.publishSpad (s : State) (c off : Nat) (h : HeldLine) (bad : List (Nat × Cause)) : State :=
  let refused := fun (i : Nat) => bad.any fun b => b.1 == i
  let mask := (List.range 64).foldl (fun (a : Nat) i => if h.mask.getLsbD i && !refused i then a + 2 ^ i else a) 0
  (List.range 16).foldl (fun (a : State) i =>
      let b := if h.fe.getLsbD i && !refused (4 * i) then a.setFe c (off + 4 * i) (h.fe.getLsbD (16 + i)) else a
      if mask / 2 ^ (4 * i) % 16 = 15 then { b with ecc := rewritten b.ecc (spKey c (off + 4 * i)) 4 } else b)
    { s with mem := writeMasked s.mem (spKey c off) mask 64 h.data.toNat }

/-- A held line that does not reach its home at once: an owner refuses bytes of it (R141), or its page has no translation. -/
def State.heldFails (s : State) (core : Nat) (asid : W16) (h : HeldLine) : Bool :=
  match resolve core (BitVec.ofNat 64 (h.va * 64)) with
  | none => false
  | some (.sp c off) => !(s.heldBad core c asid off h).isEmpty
  | some (.glob space va) => s.homeFails space va || (match s.xlate asid space va true with | .ok _ => false | .error _ => true)
/-- Bytes that an owner has refused: each store that wrote one of them fails at that element (R249), as access number `base` and its
own. Bytes that no store's element covers, written by an engine or a changed full/empty bit, fail as access `base + count`. -/
def State.noteHeld (s : State) (t : Tid) (base count : Nat) (h : HeldLine) (bad : List (Nat × Cause)) : State :=
  let ea : W64 := BitVec.ofNat 64 (h.va * 64)
  bad.foldl (fun a b =>
    let es := h.els.filter fun e => decide (e.ea.toNat % 64 ≤ b.1) && decide (b.1 < e.ea.toNat % 64 + e.n)
    if es.isEmpty then a.noteFail t (base + count) (h.va * 64 + b.1) (ea + BitVec.ofNat 64 b.1) b.2
    else es.foldl (fun a e => a.noteFail t (base + e.acc) e.el e.ea b.2) a) s
/-- A held line whose page has no translation goes to the cluster's buffer: its drain is held at the home until the controller
answers (R398). -/
def State.bufferHeld (s : State) (t : Tid) (core : Nat) (asid : W16) (base count : Nat) (h : HeldLine) : State :=
  let byte := fun (i n : Nat) => h.data.extractLsb' (8 * i) (8 * n)
  let s1 := h.els.foldl (fun a e => a.csbStore t core asid (base + e.acc)
      ⟨BitVec.ofNat 64 (h.va * 64 + e.ea.toNat % 64), e.n, (byte (e.ea.toNat % 64) e.n).zeroExtend 128, e.el⟩ 3) s
  let other := fun (i : Nat) => h.mask.getLsbD i &&
    h.els.all fun e => decide (i < e.ea.toNat % 64) || decide (e.ea.toNat % 64 + e.n ≤ i)
  ((List.range 64).filter other).foldl (fun (a : State) i =>
    a.csbStore t core asid (base + count) ⟨BitVec.ofNat 64 (h.va * 64 + i), 1, (byte i 1).zeroExtend 128, i⟩ 3) s1
/-- One held line goes to its home; the failing accesses are numbered from `base`. -/
def State.publishLine (s : State) (t : Tid) (core : Nat) (asid : W16) (base count : Nat) (h : HeldLine) : State :=
  match resolve core (BitVec.ofNat 64 (h.va * 64)) with
  | none => s
  | some (.sp c off) =>
    let bad := s.heldBad core c asid off h
    (s.publishSpad c off h bad).noteHeld t base count h bad
  | some (.glob space va) =>
    if s.homeFails space va then s.bufferHeld t core asid base count h
    else match s.xlate asid space va true with
    | .error _ => s.bufferHeld t core asid base count h
    | .ok x =>
      let key := x.key (homeDie space va) va
      ((s.softHomeLine (lineOf key) h.mask h.data).applySig (fun _ => true) (sigBits (lineOf key))).ackNow core x va

/-- Publish held lines at their homes (R321, R335): bytes, full/empty changes, and the lines leave every L1; the records of
the writes are appended to their logs (R316). Of each store that an owner refuses (R141) one deferred report names the lowest
failing element (R249). -/
def State.publish (s : State) (t : Tid) (core : Nat) (asid : W16) (hs : List HeldLine) : State :=
  if hs.any (s.heldFails core asid) then
    let n := nextAcc hs
    let s1 := hs.foldl (fun a h => a.publishLine t core asid s.nextId n h) { s with nextId := s.nextId + n + 1 }
    ((List.range (n + 1)).foldl (fun a i => a.endAccess t (s.nextId + i)) s1).flushWlog core 65
  else (hs.foldl (fun a h => a.publishLine t core asid s.nextId 0 h) s).flushWlog core 65

/-- A validated region commits (R333): it takes its place, publishes or discards, and the annealing unit is updated. -/
def State.commitRegion (s : State) (t : Tid) (th : Thread) (r : Region) (ratio : W32) (sd : BitVec 4) : State :=
  let d := s.regionDecision th r ratio
  let u := { (th.setBit 19 false).retire with
    region := none, squashes := 0, last := lastWord (if d.publish then 1 else 2) 0 0 }
  let s1 := s.raise t (u.setX sd (if d.publish then 1 else 0)) (if d.nan then fNV else 0)
  let s2 := if d.publish then s1.publish t th.core th.c.asid r.held else s1
  let s3 := s2.takePlace d.set true t
  (s3.setAnneal th.c.lid ((s.annealOf th.c.lid).update d.publish)).endPriority t th.core

/-- `pcommit` (R333, R343): the region's loads have been read before it takes its place. -/
def execPcommit (sa : BitVec 5) (sd : BitVec 4) (s : State) : Outcome State Fault Refusal :=
  issue { srcs := [sa], dsts := [sd] } s fun s t th =>
    match th.region with
    | none => .trap s .privilege 0 0xB
    | some r =>
      let ratio := (th.src sa).extractLsb' 0 32
      if !s.producersDone t th then .park s .producers
      else if th.det then .done (s.endChunk t (.turn (.commit ratio sd)))
      else if s.delayed (s.regionDecision th r ratio).set t then .park s (.placeAt ratio)
      else if !s.regionValid r then .done (s.squashRegion t)
      else if !s.wlogTakes th.core r.held.length then .park s .logRoom
      else match s.heldAsleep th.core r.held with
      | b :: _ => .park (s.touchBank b.1 b.2) (.bank b.2)
      | [] => .done (s.commitRegion t th r ratio sd)

/-! ## Deterministic chunks (R319-R322, R343) -/

def State.detOf (s : State) (lid : W16) : DetLaunch := s.pkg.det.getD lid.toNat {}
def State.modDet (s : State) (lid : W16) (f : DetLaunch → DetLaunch) : State :=
  s.modPkg fun p => { p with det := p.det.set lid.toNat (f (p.det.getD lid.toNat {})) }

/-- The resident lanes of a launch (R320): a gang stands at its leader's place (R293). -/
def State.lanesOf (s : State) (lid : W16) : List (Nat × Tid) :=
  s.threads.filterMap fun e =>
    match e.2.lau.lane with
    | some l => if e.2.c.lid = lid ∧ e.2.det ∧ !e.2.lau.exiting ∧ !e.2.follows e.1 then some (l, e.1) else none
    | none => none
def minLane (ls : List (Nat × Tid)) : Option (Nat × Tid) :=
  ls.foldl (fun a e => match a with
    | none => some e
    | some b => if e.1 < b.1 then some e else some b) none
/-- The lane whose turn it is: the next one in order, or the first of a new round. -/
def State.turnOf (s : State) (lid : W16) : Option (Nat × Tid) :=
  let ls := s.lanesOf lid
  match minLane (ls.filter fun e => decide ((s.detOf lid).lane ≤ e.1)) with
  | some e => some e
  | none => minLane ls

/-- The threads of a lane's chunk: the members of a formed gang commit together (R293). -/
def Thread.chunkOf (th : Thread) (t : Tid) : List Tid :=
  match (if th.gm then th.gang else none) with
  | some g => g.members
  | none => [t]

/-- Every fill of a chunk has landed, but for the unmasking rounds that start at its commit (R384), and what its words gave the
matrix engine is done. -/
def State.chunkFilled (s : State) (t : Tid) : Bool :=
  (s.threads.find t).any fun th =>
    (th.chunk.ume.foldl (fun (a : W16) q => a ||| (1#16 <<< q.d.toNat)) th.c.fe) == 0xFFFF &&
      !(s.inAir.any fun i => loadOf t i) &&
      !((s.core th.core).e.queue.any fun o => o.tid == t && o.bind.isNone && th.chunk.open_ && decide (th.chunk.firstId ≤ o.id))

/-- An unmasking round of the launch is in flight: its next commit waits (R384). -/
def State.roundOpen (s : State) (lid : W16) : Bool :=
  (s.pool ++ s.dies.flatMap fun d => d.2.held.map HeldFault.ev).any fun i => match i with
    | .umeRoundExecution r | .umeRoundCompletion r => (s.threads.find r.tid).any fun th => th.c.lid == lid && th.det
    | _ => false

/-- A lane whose next ordinal is still to start and is not held back by a declared range: the round waits for it
(R374). -/
def State.laneRestarting (s : State) (lid : W16) : Bool :=
  s.pool.any fun i => match i with
    | .taskStart r => r.lid == lid && r.slot.isSome && !s.heldBack lid r.ord
    | _ => false

/-- A lane that performs no word: it waits for its supervisor or for a report of another thread (R228, R320). -/
def Thread.laneWaits (th : Thread) : Bool :=
  !th.chunk.open_ && th.chunk.ended == .running && (th.parkedSup || th.run == .parked .fpHeld)
/-- The step id of a lane's region chunk that has ended: at its `pcommit`, with a trap, an overflow or an abort (R343). -/
def Thread.regionStep (th : Thread) : Option W64 :=
  if th.det && th.chunk.ended != .running then th.region.map Region.step else none
/-- A lane whose region chunk waits for a smaller step id (R343). -/
def State.regionWaits (s : State) (th : Thread) : Bool :=
  th.regionStep.any fun x => decide ((s.detOf th.c.lid).next.toNat < x.toNat)
/-- Every resident lane of a launch waits, and not all for step ids, which a new round would serve (R343): no commit can come,
and the lanes count as parked (R317). -/
def State.launchStuck (s : State) (lid : W16) : Bool :=
  let ls := (s.lanesOf lid).filterMap fun e => s.threads.find e.2
  (ls.all fun th => th.laneWaits || s.regionWaits th) && ls.any Thread.laneWaits

/-- Banks, not awake, that the commit of a thread's chunk writes (R192). -/
def State.heldBanks (s : State) (t : Tid) : List (Nat × Nat) :=
  match s.threads.find t with
  | some th => s.heldAsleep th.core ((th.region.map Region.held).getD [] ++ th.chunk.held)
  | none => []

/-- The write-range log buffer of its core takes what the commit of a thread's chunk publishes (R5, R316). -/
def State.logsTake (s : State) (t : Tid) : Bool :=
  (s.threads.find t).all fun th => s.wlogTakes th.core (((th.region.map fun r => r.held.length).getD 0) + th.chunk.held.length)

/-- A chunk may commit (R320, R321): its lane's turn, its end reached, its fills landed. A lane that performs no word commits
empty chunks. -/
def chunkReady (s : State) (t : Tid) : Bool :=
  (s.threads.find t).any fun th =>
    th.det && ((s.turnOf th.c.lid).any fun e => e.2 == t) && !s.roundOpen th.c.lid && !s.laneRestarting th.c.lid &&
      (th.chunkOf t).all s.logsTake && (let asleep := (th.chunkOf t).flatMap s.heldBanks; asleep.isEmpty || s.anyGated asleep) &&
      (s.pkg.pre == .none || (match th.chunk.ended with | .ring _ => true | _ => false)) &&
      (match th.chunk.ended with
       | .running => th.laneWaits && !s.launchStuck th.c.lid
       | .ring _ => (th.chunkOf t).all fun m => !s.ringOpen m
       | _ => (th.chunkOf t).all s.chunkFilled && !(s.regionWaits th && s.launchStuck th.c.lid))

/-- Its reads meet nothing that committed after it began (R321). -/
def State.chunkValid (s : State) (th : Thread) : Bool :=
  let reads := match th.region with
    | some r => th.chunk.reads.union r.reads
    | none => th.chunk.reads
  !(s.detOf th.c.lid).commits.any fun p => decide (th.chunk.begun < p.place) && p.set.meets reads

/-- What the words of a squashed chunk gave the engines of its core goes: queue operations and copies with their locks;
accumulators and streams return to what they were before. -/
def State.squashEngines (s : State) (t : Tid) (th : Thread) : State :=
  let first := th.chunk.firstId
  let late := fun (i : Instr) => match i with
    | .copyEngineStart r | .copyCompletion r => r.tid == t && decide (first ≤ r.id)
    | .umeCfgBlockRead r => r.tid == t && decide (first ≤ r.id)
    | _ => false
  let ids := ((s.core th.core).e.queue.filter fun o => o.tid == t && o.bind.isNone && decide (first ≤ o.id)).map MmaOp.id ++
    s.inAir.filterMap fun i => match i with
      | .copyEngineStart r | .copyCompletion r => if r.tid == t && decide (first ≤ r.id) then some r.id else none
      | _ => none
  let s1 : State := { s with
    pool := s.pool.filter fun i => !late i
    dies := s.dies.map fun (e : Nat × Die) => (e.1, { e.2 with held := e.2.held.filter fun h => !late h.ev })
    cores := s.cores.map fun (e : Nat × Core) =>
      (e.1, { e.2 with m := { e.2.m with
        locks := e.2.m.locks.filter fun l => !ids.contains l.2.id
        bank := if e.1 = th.core then th.chunk.fmts.foldl (fun a x =>
            a.put 0 x.1 (setBits (a.getD x.1 0) 0 4 x.2)) e.2.m.bank else e.2.m.bank } }) }
  let s2 := if th.chunk.engs.isEmpty then s1
    else (th.chunk.engs.foldl (fun a x => a.restoreBinding th.core x) s1).refreshBnd th.core
  s2.modE th.core fun e =>
    { e with
      queue := e.queue.filter fun o => !ids.contains o.id
      acc := th.chunk.accs.foldl (fun a x => a.put 0 x.1 x.2) e.acc
      sk := th.chunk.sks.foldl (fun a x => a.put 0 x.1 x.2) e.sk }

/-- Squash one thread's chunk (R321): registers, masks, predicates and CVC return to its start, and LAST (R336), and it runs
again. -/
def State.squashChunk (s : State) (t : Tid) : State :=
  match s.threads.find t with
  | none => s
  | some th =>
    let s0 := s.squashEngines t th
    let s1 := s0.restoreThread t { th.closeRegion with chunk := {}, last := th.chunk.last, part := th.chunk.part } th.chunk.cp []
    let s2 := match th.bound with
      | some b => { s1 with slots := s1.slots.modD (th.core * 16 + b) {} fun k => { k with v := th.chunk.vregs } }
      | none => s1
    (s2.modThread t fun u => u.wakeAt s.cycle).unreserve t th.core

/-- REGION_SQUASH (R336): a placed commit or release has met the open region's read set; in a deterministic launch its chunk is
squashed (R343). One that has ended or begun again meanwhile is left alone. -/
def execRegionSquash (t : Tid) (s : State) : Outcome State Fault Refusal :=
  perform "REGION_SQUASH" (.regionSquash t) true s fun s =>
    match s.threads.find t with
    | none => s
    | some th => match th.region with
      | some r => if s.regionValid r then s else if th.det then s.squashChunk t else s.squashRegion t
      | none => s

/-- A key for a bobbin in read and write sets (R424). -/
def ringLine (b : Nat) : Nat := 0x2000000000000000 + b

/-- Record a commit in the launch's order; commits that no open chunk began before are dropped. -/
def State.recordCommit (s : State) (lid : W16) (set : LineSet) (region : Bool) : State :=
  s.modDet lid fun d =>
    let n := d.count + 1
    { d with
      count := n
      commits := (d.commits ++ [({ place := n, set := set, region := region } : Placed)]).filter fun p =>
        s.threads.any fun e => e.2.c.lid == lid && e.2.chunk.open_ && decide (e.2.chunk.begun < p.place) }

/-! ## The unmasking engine's contexts, as words and commits see them (R375, R384) -/

abbrev UmeReg := BitVec 1024
/-- A field of a context. -/
def umeF (r : UmeReg) (lo len : Nat) : Nat := (r.extractLsb' lo len).toNat
def umeAsid (r : UmeReg) : W16 := r.extractLsb' 568 16
def umeValid (r : UmeReg) : Bool := r.getLsbD 584

def State.umeCtx (s : State) (die i : Nat) : UmeCtx := (s.die die).ume.getD i {}
/-- The context belongs to an ASID. -/
def umeOwned (c : UmeCtx) (asid : W16) : Bool := umeValid c.reg && umeAsid c.reg == asid

/-- Steps in flight and those held for a translation (R398). -/
def State.steps (s : State) : List Instr := s.pool ++ s.dies.flatMap fun d => d.2.held.map HeldFault.ev
/-- A round of a context is in flight (R382): one that was not refused. -/
def State.umeBusy (s : State) (die i : Nat) : Bool :=
  let c := s.umeCtx die i
  s.steps.any fun e => match e with
    | .umeRoundExecution r =>
      r.die == die && r.ctx == i && umeOwned c r.asid && r.status != 2 && decide (r.arg.toNat ≤ umeF c.reg 64 24)
    | .umeRoundCompletion r => r.die == die && r.ctx == i && umeOwned c r.asid && !(r.status == 1 || r.status == 2 || r.status == 3)
    | _ => false

/-- A key for an unmasking context in read and write sets: a status form in a chunk reads it, the end of a round of the launch
writes it (R384; log entry 78). -/
def umeLine (die i : Nat) : Nat := 0x3000000000000000 + die * 16 + i
/-- The thread's words are a chunk's. -/
def Thread.staging (t : Thread) : Bool := t.det && t.chunk.open_
/-- A thread whose word reads a context, in a chunk with the context in its read set. -/
def Thread.noteUme (t : Thread) (i : Nat) : Thread :=
  if t.staging then t.noteRead (umeLine (dieOf t.core) i) else t
/-- A context's register with what the thread's open chunk has done to it. -/
def Thread.umeReg (t : Thread) (c : UmeCtx) (i : Nat) : UmeReg := (if t.staging then t.chunk.umeRegs.find i else none).getD c.reg
/-- A context's register, to be loaded at the chunk's commit. -/
def Thread.stageUme (t : Thread) (i : Nat) (r : UmeReg) : Thread := { t with chunk := { t.chunk with umeRegs := t.chunk.umeRegs.set i r } }
def State.setUme (s : State) (die i : Nat) (c : UmeCtx) : State := s.modDie die fun d => { d with ume := d.ume.put {} i c }
/-- The registers of contexts that a chunk has configured or released are loaded (R384): a released context is as at reset. -/
def State.loadUmes (s : State) (die : Nat) (l : Tab UmeReg) : State :=
  l.foldl (fun a e => a.setUme die e.1 (if e.2 = 0 then {} else { a.umeCtx die e.1 with reg := e.2 })) s

/-- The rounds of a chunk start at its commit, in order: one whose context has a round in flight is refused (R382). -/
def State.startRounds (s : State) (l : List UmeReq) : State :=
  l.foldl (fun a r => a.push (.umeRoundExecution { r with status := if a.umeBusy r.die r.ctx then 2 else 0 })) s

/-- Publish what one thread's chunk holds and stages (R321): a package-scope release; its ring writes go to the station
queue in order (R424), its unmasking rounds start (R384), and what it did to the engines' buffers and bindings acts. -/
def State.publishChunk (s : State) (t : Tid) : State × LineSet :=
  match s.threads.find t with
  | none => (s, {})
  | some th =>
    let set := th.chunk.barSet (th.chunk.umeRegs.foldl (fun a e => a.add (umeLine (dieOf th.core) e.1))
      (s.heldSet th.core th.c.asid th.chunk.held))
    let s1 := s.publish t th.core th.c.asid th.chunk.held
    let s2 := if th.chunk.held.isEmpty then s1 else s1.takePlace set false t
    let s3 := th.chunk.ring.foldl (fun a o =>
      let (id, b) := a.takeId
      b.modR th.core fun r => { r with queue := r.queue ++ [({ id := id, tid := t, bobbin := o.1, fn := o.2, since := s.cycle } : RingOp)] }) s2
    let s4 := th.chunk.cbs.foldl (fun a o => (a.cbDo th.core o).notePut th.core t s.nextId o) s3
    let s5 := th.chunk.arms.foldl (fun a x => a.armBinding th.core t x) s4
    ((s5.loadUmes (dieOf th.core) th.chunk.umeRegs).startRounds th.chunk.ume, set)

/-- What a thread's chunk did to barrier tags takes effect at its commit, after its ring writes (R298, R322). -/
def State.publishBars (s : State) (t : Tid) : State :=
  match s.threads.find t with
  | none => s
  | some th => (th.chunk.bars.foldl (fun a o => a.barDo t o) s).modThread t fun u => { u with chunk := { u.chunk with bars := [] } }

/-- The chunk is over: the turn passes on, and each of its threads begins its next chunk, exits, or takes its trap
(R319 cases 2 and 5). -/
def State.passTurn (s : State) (ts : List Tid) (lid : W16) (lane : Nat) : State :=
  let s1 := s.modDet lid fun d => { d with lane := lane + 1 }
  ts.foldl (fun a t =>
    match a.threads.find t with
    | none => a
    | some th =>
      let was := match th.chunk.ended with | .ring w => w | e => e
      let u := { th with chunk := {} }
      match was with
      | .running => a
      | .exit => a.setThread t { u.wakeAt s.cycle with lau := { u.lau with exiting := true } }
      | .trap c d v sup word =>
        if c = .fp then (a.setThread t u).holdFp t u d v (some word) else (a.setThread t u).trapEntry t c d v u.c.pc sup (some word)
      | _ => a.setThread t (u.wakeAt s.cycle)) s1

/-- The chunk's region overflows or aborts at the lane's turn (R337): its chunk is over. -/
def State.overTurn (s : State) (t : Tid) (th : Thread) (r : Region) (code : Nat) : State :=
  (s.overRegion t th r code).modThread t fun x => { x with chunk := { x.chunk with ended := .boundary } }
/-- A region chunk whose trap is delivered (R338): the region ends, the trap is at its `ar.begin`. -/
def State.trapRegion (s : State) (t : Tid) (th : Thread) (r : Region) (c : Cause) (d : W8) (v : W64) (sup : Bool) (word pc : W32) :
    State :=
  (s.restoreThread t th.closeRegion r.cp r.vsaved).modThread t fun x =>
    { x with last := lastWord 5 c.code (trapWord c pc), squashes := 0, chunk := { x.chunk with ended := .trap c d v sup word } }

/-- The `anneal` word of a thread's chunk, at its turn (R345). -/
def State.annealTurn (s : State) (t : Tid) : State :=
  match s.threads.find t with
  | none => s
  | some th => match th.chunk.ended with
    | .turn (.anneal fn a b sd) => s.annealForm t fn a b sd
    | _ => s

/-- A new round (R320), in which NEXT passes over step ids that no lane has (R343). -/
def State.roundStart (s : State) (lid : W16) (lane : Nat) : State :=
  let d := s.detOf lid
  if d.lane ≤ lane then s
  else
    let steps := (s.lanesOf lid).map fun e => (s.threads.find e.2).bind Thread.regionStep
    let least := steps.foldl (fun a e => match a, e with
      | some x, some y => if y.toNat < x.toNat then some y else some x
      | _, _ => none) (steps.head?.getD none)
    s.modDet lid fun d =>
      { d with
        round := d.round + 1, lane := 0
        next := match least with
          | some x => if d.next.toNat < x.toNat then x else d.next
          | none => d.next }

/-- CHUNK_COMMIT (R321, R343): at its lane's turn a chunk is validated, and is squashed or commits. -/
def execChunkCommit (t : Tid) (s : State) : Outcome State Fault Refusal :=
  match s.threads.find t with
  | none => .refused (.notOffered "CHUNK_COMMIT")
  | some th =>
    if !chunkReady s t then .refused (.notOffered "CHUNK_COMMIT")
    else
      let lid := th.c.lid
      let lane := th.lau.lane.getD 0
      let ts := th.chunkOf t
      let asleep := ts.flatMap s.heldBanks
      if !asleep.isEmpty then .next (s.wakeBanks asleep)
      else
      let s0 := s.roundStart lid lane
      let commitAll := fun (a : State) =>
        let (b, set) := ts.foldl (fun (acc : State × LineSet) m =>
          let (c, g) := acc.1.publishChunk m
          (c, acc.2.union g)) (a, {})
        let c := b.recordCommit lid set false
        if ts.any fun m => (c.threads.find m).any fun u => !u.chunk.ring.isEmpty then
          ts.foldl (fun x m => x.modThread m fun u => { u with
            chunk := { ring := u.chunk.ring, bars := u.chunk.bars, ended := .ring u.chunk.ended } }) c
        else (ts.foldl State.publishBars c).passTurn ts lid lane
      match th.chunk.ended, th.region with
      | .running, _ => .next ((s0.recordCommit lid {} false).passTurn ts lid lane)
      | .ring _, _ =>
        -- the ring writes have passed the seam: what has read their bobbins since is squashed (R424)
        let set := ts.foldl (fun (g : LineSet) m => ((s0.threads.find m).map fun u => u.chunk.ring).getD [] |>.foldl
          (fun g o => g.add (ringLine o.1)) g) {}
        .next ((ts.foldl State.publishBars (s0.recordCommit lid set false)).passTurn ts lid lane)
      | was, some r =>
        let next := (s0.detOf lid).next
        if next.toNat < r.step.toNat then
          -- waits: an empty chunk commits in its place
          .next ((s0.recordCommit lid {} false).modDet lid fun d => { d with lane := lane + 1 })
        else if r.step.toNat < next.toNat then
          .next (((s0.trapRegion t th r .determinism 0 r.step false (s0.wordAt th.core th.c.asid th.c.img th.c.pc) th.c.pc).recordCommit lid {} false).passTurn ts lid lane)
        else if !s0.chunkValid th then .next (s0.squashChunk t)
        else match was with
          | .turn (.commit ratio sd) =>
            let set := (s0.regionDecision th r ratio).set
            let s1 := s0.commitRegion t th r ratio sd
            .next (((s1.modDet lid fun d => { d with next := r.step + 1 }).recordCommit lid set true).passTurn ts lid lane)
          -- these take no place, and the step may be opened again (R337, R338): NEXT stays (log entry 85)
          | .trap c d v sup word => .next (commitAll (s0.trapRegion t th r c d v sup word th.c.pc))
          | .over_ code => .next (commitAll (s0.overTurn t th r code))
          | _ => .next (commitAll s0)
      | .turn (.anneal _ _ _ _), _ =>
        -- each member of a gang executes the form (R288, R345)
        .next (commitAll (ts.foldl (fun (x : State) m =>
          x.annealTurn m) s0))
      | _, _ =>
        if ts.all fun m => (s0.threads.find m).all s0.chunkValid then .next (commitAll s0)
        else .next (ts.foldl State.squashChunk s0)

end Sys2Proof.Machine
end

