-- ==== Sys2Proof/Machine/Launch.lean ====
section
/-! DEFINITION. Launch records, the launch pantry, tile walkers and the traversal orders (R350-R369), with the fixed
assignment of deterministic launches (R374). -/

namespace Sys2Proof.Machine

open Host (Outcome)

/-! ## The tile grid and the traversal orders (R363) -/

/-- Tiles of a dimension; an unused one has one. -/
def Rec.tiles (r : Rec) (d : Nat) : Nat :=
  if d < r.dims then (r.extent d + r.tile d - 1) / r.tile d else 1
def Rec.total (r : Rec) : Nat := r.tiles 0 * r.tiles 1 * r.tiles 2 * r.tiles 3
def Rec.grid (r : Rec) : List Nat := (List.range r.dims).map r.tiles

/-- Mixed-radix digits, the head of the list least significant. -/
def digits : List Nat → Nat → List Nat
  | [], _ => []
  | n :: ns, o => o % n :: digits ns (o / n)
def rowMajor (ns : List Nat) (o : Nat) : List Nat := (digits ns.reverse o).reverse
/-- Serpentine from row-major digits: `p` is the row-major ordinal of the digits before (0 before the first). -/
def serpentine : List Nat → List Nat → Nat → List Nat
  | n :: ns, q :: qs, p => (if p % 2 = 0 then q else n - 1 - q) :: serpentine ns qs (p * n + q)
  | _, _, _ => []
/-- Tiles of a grid whose coordinates agree with `vals` above their low `free` bits. -/
def mortonCount (ns vals frees : List Nat) : Nat :=
  ((ns.zip (vals.zip frees)).map fun e => min e.1 (e.2.1 + 2 ^ e.2.2) - e.2.1).foldl (· * ·) 1
/-- The coordinates whose Morton code stands at place `o`, code bit by code bit from the top: bit b of dimension d is code
bit D·b + D − 1 − d. -/
def morton (ns : List Nat) : Nat → Nat → List Nat → List Nat → List Nat
  | 0, _, vals, _ => vals
  | j + 1, o, vals, frees =>
    let d := ns.length - 1 - j % ns.length
    let b := j / ns.length
    let fr := frees.set d b
    let c := mortonCount ns vals fr
    if o < c then morton ns j o vals fr
    else morton ns j (o - c) (vals.set d (vals.getD d 0 + 2 ^ b)) fr
/-- Grouped rows (two dimensions). -/
def groupedRows (g n0 n1 o : Nat) : List Nat :=
  let b := o / (g * n1)
  let h := min g (n0 - b * g)
  let w := o - b * g * n1
  [b * g + w % h, w / h]

/-- The tile of an ordinal (R363), four coordinates. -/
def Rec.coords (r : Rec) (o : Nat) : List Nat :=
  let ns := r.grid
  let c := match r.order with
    | 1 => digits ns o
    | 2 => morton ns (32 * ns.length) o (ns.map fun _ => 0) (ns.map fun _ => 32)
    | 3 => serpentine ns (rowMajor ns o) 0
    | 4 => groupedRows r.group (r.tiles 0) (r.tiles 1) o
    | _ => rowMajor ns o
  (c ++ [0, 0, 0, 0]).take 4

/-! ## Placement and room (R359) -/

/-- Placed cores in ascending order, less retired ones. -/
def State.placedCores (s : State) (r : Rec) : List Nat :=
  (List.range 64).flatMap fun k =>
    if r.places (k / 16) (k % 16) then
      (List.range 8).filterMap fun c =>
        if r.cmask.testBit c ∧ s.placed (k * 8 + c) then some (k * 8 + c) else none
    else []

/-- How many cycles a start message is on its way: longer than the clear of 32 KiB (R191, R387; log entry 86). -/
def startTime : Nat := 48
def roundUp (n k : Nat) : Nat := (n + k - 1) / k * k
/-- Slots that tasks may reserve: slot 0 of core 7 is the supervisor's (R35). -/
def slotsOf (core : Nat) : Nat := if core % 8 = 7 then 15 else 16
/-- Slots reserved on a core: those of the tasks that it created. -/
def State.slotsUsed (s : State) (core : Nat) : Nat :=
  (s.threads.map fun e => if e.1 / 64 = core then e.2.lau.slots else 0).sum
/-- The hull of an ASID's live allocations (R393). -/
def windowOf (l : List Alloc) (asid : W16) : Option (Nat × Nat) :=
  (l.filter fun a => a.asid == asid && !a.freed).foldl (fun w a => match w with
    | none => some (a.base, a.base + a.len)
    | some (b, e) => some (min b a.base, max e (a.base + a.len))) none
def apart (a b c d : Nat) : Bool := decide (b ≤ c) || decide (d ≤ a)
/-- A piece keeps address spaces apart (R359, R393). -/
def pieceOk (l : List Alloc) (asid : W16) (base len : Nat) : Bool :=
  let e := base + len
  let (wb, we) := match windowOf l asid with
    | none => (base, e)
    | some (b, x) => (min b base, max x e)
  decide (e ≤ 655360) && l.all fun a =>
    apart base e a.base (a.base + a.len) &&
      (a.asid == asid || (apart wb we a.base (a.base + a.len) &&
        (match windowOf l a.asid with
         | some (b, x) => apart base e b x
         | none => true)))
/-- The lowest piece of scratchpad for a task. -/
def State.findPiece (s : State) (core : Nat) (asid : W16) (len : Nat) : Option Nat :=
  let l := ((s.core core).m.allocs.map fun a => a.left s.cycle).filter fun a => a.len != 0
  ((sortNat (0 :: l.map fun a => roundUp (a.base + a.len) 64)).find? fun b => pieceOk l asid b len)
/-- A table of sixteen entries holds one for the ASID, or has a free one. -/
def entryFor (t : Tab W64) (has : W64 → Bool) : Option Nat :=
  match (List.range 16).find? fun i => (t.find i).any has with
  | some i => some i
  | none => (List.range 16).find? fun i => (t.find i).isNone
def lpuHas (asid : W16) (e : W64) : Bool := e.getLsbD 56 && e.extractLsb' 40 16 == asid
/-- A core's ring window entry is an ASID's copy (R410). -/
def winFor (asid : W16) (e : W64) : Bool := e.extractLsb' 25 16 == asid
/-- It is valid. -/
def winHas (asid : W16) (e : W64) : Bool := e.getLsbD 41 && winFor asid e
/-- Free accumulators, lowest first. -/
def State.freeAccs (s : State) (core : Nat) : List Nat :=
  (List.range 8).filter fun a => ((s.core core).e.accUsed.find a).isNone
/-- A free context whose tid reservation bit is clear (R33). -/
def State.newCtx (s : State) (core : Nat) : Option Nat :=
  (List.range 64).find? fun i => !(s.usedCtx core).contains i && !(s.core core).k.tidMask.getLsbD i
/-- A core has room for a task of a record (R359). -/
def State.room (s : State) (r : Rec) (core : Nat) : Bool :=
  s.placed core &&
    decide (s.slotsUsed core + r.slots ≤ slotsOf core) &&
    (r.spad == 0 || ((s.findPiece core r.asid (roundUp r.spad 64)).isSome &&
      (entryFor (s.core core).m.lpu (lpuHas r.asid)).isSome)) &&
    decide (r.accs ≤ (s.freeAccs core).length) && (s.newCtx core).isSome &&
    (entryFor (s.core core).r.win (winFor r.asid)).isSome

/-! ## Arming (R356, R357, R362, R374) -/

/-- Package register defaults (R352, R451). -/
def State.lrver (s : State) (asid : W16) : W64 := s.out.lrver.getD asid.toNat 0x6
def State.allow (s : State) (asid : W16) : W64 := s.out.allow.getD asid.toNat (BitVec.allOnes 64)

/-- A placed core can ever hold one task. -/
def State.canEverHold (s : State) (r : Rec) (core : Nat) : Bool :=
  let sup := (s.core core).m.allocs.filter fun a => (s.threads.find a.tid).any fun u => u.sup
  decide (r.slots ≤ slotsOf core) && (r.spad == 0 || (0 :: sup.map fun a => a.base + a.len).any fun b =>
    pieceOk sup r.asid (roundUp b 64) (roundUp r.spad 64))

/-- The first failing check of R357, in table order; 0 when none fails. -/
def State.armCheck (s : State) (r : Rec) : Nat :=
  let dims := List.range 4
  if !((r.ver == 1 || r.ver == 2) && (s.lrver r.asid).getLsbD r.ver) then 0x10
  else if r.dims < 1 ∨ 4 < r.dims ∨ 4 < r.order ∨ (dims.any fun d => r.extent d == 0 || r.tile d == 0) ∨
      (r.order = 4 ∧ (r.dims ≠ 2 ∨ r.group = 0)) ∨ 2 ^ 32 - 1 < r.total then 0x11
  else if 655360 < r.spad then 0x12
  else if r.slots = 0 ∨ 16 < r.slots then 0x13
  else if 8 < r.accs then 0x14
  else if !((s.placedCores r).any (s.canEverHold r)) ||
      (List.range 64).any (fun k => r.places (k / 16) (k % 16) && !(s.allow r.asid).getLsbD k) then 0x15
  else if (match s.loadedImage r.asid r.img with
      | none => true
      | some i => decide (i.words.length ≤ r.entry.toNat) ||
          (r.trapvec != 0xFFFFFFFF && decide (i.words.length ≤ r.trapvec.toNat))) then 0x16
  else if (List.range 8).any (fun i => (r.range i).2 != 0 && decide (2 ^ 56 < (r.range i).1 + (r.range i).2)) then 0x17
  else if (r.mobile && r.det) || decide (r.flags / 16 ≠ 0) then 0x18
  else 0

def State.walker (s : State) (w : Nat) : Walker := (s.die (w / 32)).walkers.getD (w % 32) {}
def State.setWalker (s : State) (w : Nat) (x : Walker) : State :=
  s.modDie (w / 32) fun d => { d with walkers := d.walkers.set (w % 32) x }
/-- Walkers that serve a launch, with their numbers (die x 32 + index), in ascending order. -/
def State.activeWalkers (s : State) : List (Nat × Walker) :=
  (List.range 4).flatMap fun d => (s.die d).walkers.filterMap fun (e : Nat × Walker) =>
    if e.2.active then some (d * 32 + e.1, e.2) else none
def State.walkersOf (s : State) (lid : W16) : List (Nat × Walker) := s.activeWalkers.filter fun e => e.2.lid == lid
/-- The lowest free walker of a cluster (R362): walkers 2c and 2c + 1 of the die. -/
def State.freeWalker (s : State) (cl : Nat) : Option Nat :=
  let w := cl / 16 * 32 + cl % 16 * 2
  if (List.range 8).all fun c => !s.placed (cl * 8 + c) then none
  else if !(s.walker w).active then some w else if !(s.walker (w + 1)).active then some (w + 1) else none

/-- Divide the ordinals among the free walkers of the placed clusters (R362); with none the record waits. -/
def State.loadWalkers (s : State) (lid : W16) (r : Rec) : State :=
  let cores := s.placedCores r
  let cls := (List.range 64).filter fun k => r.places (k / 16) (k % 16)
  let taken := cls.filterMap fun k => (s.freeWalker k).map fun w => (k, w)
  let n := taken.length
  if n = 0 then s.modPkg fun p => { p with waiting := p.waiting ++ [lid] }
  else
    let t := r.total
    (taken.zipIdx).foldl (fun a e =>
      let i := e.2
      let lo := i * (t / n) + min i (t % n)
      let hi := (i + 1) * (t / n) + min (i + 1) (t % n)
      let served := cores.filter fun c => clusterOf c == e.1.1 && s.room r c
      if lo = hi then a
      else a.setWalker e.1.2
        { lid := lid, active := true, cursor := lo, fin := hi, cores := served, armed := s.pkg.armedAt.getD lid.toNat 0 }) s

/-- The lanes of a deterministic launch, in order (R374). -/
def State.detLanes (s : State) (r : Rec) : List (Nat × Nat) :=
  (s.placedCores r).flatMap fun c =>
    let n0 := slotsOf c / r.slots
    let n1 := if r.accs = 0 then n0 else min n0 (8 / r.accs)
    let n2 := if r.spad = 0 then n1 else min n1 (655360 / roundUp r.spad 64)
    (List.range n2).map fun j => (c, (if c % 8 = 7 then 1 else 0) + r.slots * j)

/-- A free walker is offered to the armed launches that wait for one (R362). -/
def State.serveWaiting (s : State) : State :=
  s.pkg.waiting.foldl (fun (a : State) lid =>
    let b := a.modPkg fun p => { p with waiting := p.waiting.erase lid }
    match a.rec? lid with
    | none => b
    | some r => if (List.range 64).any fun k => r.places (k / 16) (k % 16) && (a.freeWalker k).isSome then b.loadWalkers lid r else a) s

/-- A walker with nothing left to hand out and nothing in flight is free again. -/
def State.freeIfDone (s : State) (w : Nat) : State :=
  let x := s.walker w
  if x.active && decide (x.fin ≤ x.cursor) && x.head.isEmpty && x.inflight.isEmpty then (s.setWalker w {}).serveWaiting
  else s

/-- The dispatch controller writes ARGS below the save area (R359). -/
def State.writeArgs (s : State) (r : Rec) : State :=
  match resolve 0 (r.save - 64) with
  | some (.glob space va) =>
    match s.keyOf r.asid space va with
    | some k => s.writeHome k 64 (r.f 104 64)
    | none => s
  | _ => s

/-- A record is armed after its release (R356): the state and the status. -/
def State.armRecord (s : State) (lid : W16) (r : Rec) : State × Nat :=
  let s0 := (s.journal (lidDie lid) (.arm lid)).kick lid false
  let c := s.armCheck r
  if c ≠ 0 then (s0.setRec lid ((r.setState 4).put 3 1 c), c)
  else if s.out.tray ≠ .serving then (s0, 2)
  else
    let r1 := ((r.setState 1).put 3 1 0).put 96 8 0
    let (n, s0) := s0.takeId
    let s0 := s0.modPkg fun p => { p with armedAt := p.armedAt.set lid.toNat n }
    -- the launch gets its annealing unit afresh (R344)
    let s1 := ((s0.setRec lid r1).modDie (lidDie lid) fun d => { d with anneal := d.anneal.erase lid.toNat }).writeArgs r1
    if r.det then
      let ls := s1.detLanes r1
      let s2 := s1.modPkg fun p => { p with det := p.det.set lid.toNat { lanes := ls } }
      ((ls.zipIdx).foldl (fun a e =>
        if e.2 < r.total then
          (a.push (.taskStart ⟨lid, BitVec.ofNat 32 e.2, none, e.1.1, some e.1.2, a.cycle + startTime⟩)).modPkg fun p =>
            { p with admitted := p.admitted ++ [(lid, BitVec.ofNat 32 e.2)] }
        else a) s2, 0)
    else (s1.loadWalkers lid r1, 0)

/-! ## `lrec` (R355, R356, R360, R361) -/

/-- The end of an `lrec` word: a thread that operates on a record of another die has parked for its reply, which comes in the
same step (R354; log entry 6), so it leaves its slot. -/
def lrecEnd (s : State) (t : Tid) (th : Thread) (lid : W16) (sd : BitVec 4) (v : W64) : Res :=
  .done (s.modThread t fun x =>
    let u := x.retire.setX sd v
    if lidDie lid = dieOf th.core ∨ th.gm then u else { u with run := .ready s.cycle, bslot := none })

/-- Bytes that `lrec.patch` may write: GROUP, the extents and tiles, WINIT, WAIT, SEED, ARGS and RANGES. -/
def patchByte (b : Nat) : Bool :=
  (decide (18 ≤ b) && decide (b < 44)) || b == 51 || b == 52 || (decide (80 ≤ b) && decide (b < 88)) ||
    (decide (104 ≤ b) && decide (b < 248))
/-- The Patch bits of a dword (R351): byte 50 holds PRIO in bits 3:2. -/
def patchBits (n : Nat) : W64 :=
  (List.range 8).foldl (fun a i =>
    if patchByte (8 * n + i) then a ||| (0xFF#64 <<< (8 * i))
    else if 8 * n + i = 50 then a ||| (0x0C#64 <<< (8 * i)) else a) 0

/-- `lrec.patch` (R355). -/
def execLrecPatch (sa sb : BitVec 5) (sd : BitVec 4) (n : BitVec 5) (s : State) : Outcome State Fault Refusal :=
  issue { srcs := [sa, sb], dsts := [sd] } s fun s t th =>
    let lid := (th.src sa).extractLsb' 0 16
    let fin := fun (s : State) (v : W64) => lrecEnd s t th lid sd v
    match s.ownRec th lid with
    | none => fin s 1
    | some r =>
      if !restState r.state then fin s 2
      else
        let m := patchBits n.toNat
        let old := BitVec.ofNat 64 (r.f (8 * n.toNat) 8)
        fin (s.setRec lid (r.put (8 * n.toNat) 8 ((old &&& ~~~m) ||| (th.src sb &&& m)).toNat)) 0

/-- `lrec.query` (R355): a reserved byte reads zero, and byte 54 of a version 1 record 0xFF (R352). -/
def execLrecQuery (sa : BitVec 5) (sd : BitVec 4) (n : BitVec 5) (s : State) : Outcome State Fault Refusal :=
  issue { srcs := [sa], dsts := [sd] } s fun s t th =>
    let v := match s.ownRec th ((th.src sa).extractLsb' 0 16) with
      | none => 0
      | some r => BitVec.ofNat 64 ((r.put 54 1 r.cmask).f (8 * n.toNat) 8)
    lrecEnd s t th ((th.src sa).extractLsb' 0 16) sd v

/-- `lrec.arm` (R356). -/
def execLrecArm (sa : BitVec 5) (sd : BitVec 4) (s : State) : Outcome State Fault Refusal :=
  issue { srcs := [sa], dsts := [sd] } s fun s t th =>
    let lid := (th.src sa).extractLsb' 0 16
    let fin := fun (s : State) (th : Thread) (v : W64) => lrecEnd s t th lid sd v
    match s.ownRec th lid with
    | none => fin s th 1
    | some r =>
      if !restState r.state then fin s th 2
      else if !s.ctlAlive (lidDie lid) then .park (s.kick lid true) (.controller (lidDie lid))
      else release 2 s t th fun s th =>
        let (s1, c) := s.armRecord lid r
        fin s1 th (BitVec.ofNat 64 c)

/-- Threads of a launch, and starts on their way. -/
def State.launchTasks (s : State) (lid : W16) : Bool :=
  (s.threads.any fun e => e.2.c.lid == lid && !e.2.sup) || s.pool.any fun i => match i with
    | .taskStart r => r.lid == lid
    | _ => false

/-- Free every walker of a launch. -/
def State.dropWalkers (s : State) (lid : W16) : State :=
  ((s.walkersOf lid).foldl (fun a e => a.setWalker e.1 {}) s).serveWaiting

/-- `lrec.wait` (R361): completed, a package-scope acquire. A thread that has waited writes the rest state that it was answered
with. -/
def execLrecWait (sa : BitVec 5) (sd : BitVec 4) (s : State) : Outcome State Fault Refusal :=
  issue { srcs := [sa], dsts := [sd] } s fun s t th =>
    let lid := (th.src sa).extractLsb' 0 16
    let fin := fun (v : W64) => lrecEnd ((s.acquireAt t th.core 2).modThread t fun u =>
      { u with mo := { u.mo with reply := none } }) t th lid sd v
    match th.mo.reply, s.ownRec th lid with
    | some v, _ => fin v
    | none, none => lrecEnd s t th lid sd 0xFF
    | none, some r => if restState r.state then fin r.waitWord else .park s (.launch lid 0)

/-! ## Hand-outs and splits (R364, R368, R369) -/

/-- A start is on its way to a core. -/
def State.startPending (s : State) (core : Nat) : Bool :=
  s.pool.any fun i => match i with
    | .taskStart r => r.core == core && r.slot.isNone
    | _ => false
def Walker.hasTile (w : Walker) : Bool := w.active && (!w.head.isEmpty || decide (w.cursor < w.fin))
/-- Launch `a` is served before launch `b` (R364). -/
def State.servedBefore (s : State) (a b : Walker) : Bool :=
  let p := fun (x : Walker) => ((s.rec? x.lid).map Rec.prio).getD 0
  decide (p b < p a) || (p a == p b && decide (a.armed < b.armed))
/-- A core may take a tile of a walker now. -/
def State.mayTake (s : State) (w : Walker) (core : Nat) : Bool :=
  w.cores.contains core && !s.startPending core && ((s.rec? w.lid).any fun r => s.room r core) &&
    !(s.activeWalkers.any fun e => e.2.hasTile && e.2.cores.contains core && s.servedBefore e.2 w &&
      (s.rec? e.2.lid).any fun r => s.room r core)
/-- The core that takes the next ordinal of a walker: the lowest that may (R364); none while a pre-emption is pending. -/
def State.handoutCore (s : State) (w : Nat) : Option Nat :=
  let x := s.walker w
  if x.hasTile && s.pkg.pre == .none then (List.range 512).find? (s.mayTake x) else none
/-- The next ordinal of a walker, handed out. -/
def Walker.take (w : Walker) : Option (Nat × Walker) :=
  match w.head with
  | o :: r => some (o, { w with head := r, inflight := w.inflight ++ [o] })
  | [] => if w.cursor < w.fin then some (w.cursor, { w with cursor := w.cursor + 1, inflight := w.inflight ++ [w.cursor] })
    else none

/-- WALKER_HANDOUT (R364): the next ordinal goes to a served core with room; its task is admitted. -/
def execWalkerHandout (w core : Nat) (s : State) : Outcome State Fault Refusal :=
  if s.handoutCore w ≠ some core then .refused (.notOffered "WALKER_HANDOUT")
  else match (s.walker w).take with
    | none => .refused (.notOffered "WALKER_HANDOUT")
    | some (o, x) =>
      let ord := BitVec.ofNat 32 o
      .next (((s.setWalker w x).modPkg fun p => { p with admitted := p.admitted ++ [(x.lid, ord)] }).push
        (.taskStart ⟨x.lid, ord, some w, core, none, s.cycle + startTime⟩))

/-- The victims an idle core tries, in order (R368): its own cluster, its die, the package; most remaining ordinals first,
then the lowest number. -/
def State.victims (s : State) (lid : W16) (core : Nat) : List (Nat × Walker) :=
  let cls := fun (w : Nat) => if w / 32 * 16 + w % 32 / 2 = clusterOf core then 0 else if w / 32 = dieOf core then 1 else 2
  sortBy (l := s.walkersOf lid) fun a b =>
    decide (cls a.1 < cls b.1) || (cls a.1 == cls b.1 &&
      (decide (b.2.fin - b.2.cursor < a.2.fin - a.2.cursor) ||
        (a.2.fin - a.2.cursor == b.2.fin - b.2.cursor && decide (a.1 ≤ b.1))))
/-- A core is idle for a launch (R368). -/
def State.idleFor (s : State) (lid : W16) (r : Rec) (core : Nat) : Bool :=
  !s.startPending core && s.room r core && !((s.walkersOf lid).any fun e => e.2.hasTile && e.2.cores.contains core)
/-- The next split of a launch (R368, R369): the lowest idle core that finds a victim with more than one ordinal and a free
walker in its cluster; hand-outs come first. -/
def State.splitChoice (s : State) (lid : W16) : Option (Nat × Nat × Nat) :=
  match s.rec? lid with
  | none => none
  | some r =>
    if r.det || s.pkg.pre != .none || (s.walkersOf lid).any fun e => (s.handoutCore e.1).isSome then none
    else (s.placedCores r).findSome? fun c =>
      if s.idleFor lid r c then
        match (s.victims lid c).find? fun e => decide (1 < e.2.fin - e.2.cursor), s.freeWalker (clusterOf c) with
        | some v, some f => some (v.1, c, f)
        | _, _ => none
      else none

/-- WALKER_SPLIT (R368): the victim keeps the first half of its range, the thief's free walker takes the rest and serves
the thief alone. -/
def execWalkerSplit (victim thief free : Nat) (s : State) : Outcome State Fault Refusal :=
  let v := s.walker victim
  if s.splitChoice v.lid ≠ some (victim, thief, free) then .refused (.notOffered "WALKER_SPLIT")
  else
    let mid := v.cursor + (v.fin - v.cursor + 1) / 2
    .next ((s.setWalker victim { v with fin := mid }).setWalker free
      { v with cursor := mid, head := [], inflight := [], cores := [thief] })

/-! ## Completion (R358) -/

/-- While a die has no active controller its completions wait in the hardware queue (R463). -/
def State.queueDone (s : State) (lid : W16) : State :=
  if s.ctlAlive (lidDie lid) then s
  else s.modDie (lidDie lid) fun d => { d with ctl := { d.ctl with queue := d.ctl.queue ++ [lid] } }
/-- A completion may be processed: the controllers of its launch and of its successors live (R463). -/
def State.doneReady (s : State) (lid : W16) : Bool :=
  s.ctlAlive (lidDie lid) && (s.rec? lid).all fun r => (List.range 8).all fun i =>
    r.succ i == 0xFFFF || s.ctlAlive (lidDie (BitVec.ofNat 16 (r.succ i)))
/-- A launch whose tiles have retired and whose tasks have exited completes; a cancelled one is over with its last
task. -/
def State.checkComplete (s : State) (lid : W16) : State :=
  match s.rec? lid with
  | none => s
  | some r =>
    if s.launchTasks lid then s
    else if r.state = 5 then s.setRec lid ((r.setState 6).put 52 1 r.winit)
    else if (r.state = 1 ∨ r.state = 2) ∧ r.total ≤ r.retired then ((s.kick lid true).queueDone lid).push (.launchCompletion lid)
    else s

/-- Decrease a successor's wait count (R358). -/
def State.decSuccessor (s : State) (lid : W16) (asid : W16) (succ : Nat) : State :=
  let sl := BitVec.ofNat 16 succ
  if succ = 0xFFFF then s
  else match (if succ < 0x4000 then (s.rec? sl).filter fun r => r.asid == asid else none) with
    | none => s.modRec lid fun r => r.put 102 1 (r.f 102 1 + 1)
    | some r =>
      let s0 := s.journal (lidDie sl) (.decrement sl)
      let r1 := r.put 52 1 (r.wait - 1)
      let s1 := s0.setRec sl r1
      if r.wait = 1 ∧ restState r.state then (s1.armRecord sl r1).1 else s1

/-- LAUNCH_COMPLETION (R358): of a launch that is still complete; one that was cancelled meanwhile is not (R360). -/
def execLaunchCompletion (lid : W16) (s : State) : Outcome State Fault Refusal :=
  perform "LAUNCH_COMPLETION" (.launchCompletion lid) (s.doneReady lid) s fun s =>
    match s.rec? lid with
    | none => s
    | some r =>
      if !((r.state == 1 || r.state == 2) && decide (r.total ≤ r.retired) && !s.launchTasks lid) then s
      else
      let s1 := ((s.journal (lidDie lid) (.completion lid)).kick lid false).dropWalkers lid
      let s2 := s1.setRec lid ((r.setState 3).put 52 1 r.winit)
      (List.range 8).foldl (fun a i => a.decSuccessor lid r.asid (r.succ i)) s2

end Sys2Proof.Machine
end

