-- ==== Sys2Proof/Machine/Ring.lean ====
section
/-! DEFINITION. The Weft Ring (R406-R425): bobbins, the `ring` words, passages, the seam, broken holds. Bobbins move by
the ring cycles of R406, four to an arithmetic cycle, and their steps come in that order. -/

namespace Sys2Proof.Machine

open Host (Outcome)

/-! ## Bobbins (R407) -/

def State.bob (s : State) (b : Nat) : Bobbin := s.ring.bob.getD b {}
def State.setBob (s : State) (b : Nat) (x : Bobbin) : State := { s with ring := { s.ring with bob := s.ring.bob.put {} b x } }
def metaF (m : W64) (lo len : Nat) : Nat := (m.extractLsb' lo len).toNat
def metaPut (m : W64) (lo len v : Nat) : W64 :=
  let k : W64 := BitVec.ofNat 64 ((2 ^ len - 1) <<< lo)
  (m &&& ~~~k) ||| BitVec.ofNat 64 ((v % 2 ^ len) <<< lo)
def Bobbin.stamp (x : Bobbin) : Nat := metaF x.meta_ 0 32
def Bobbin.held (x : Bobbin) : Bool := x.meta_.getLsbD 32
def Bobbin.hstn (x : Bobbin) : Nat := metaF x.meta_ 33 9
def Bobbin.hbuf (x : Bobbin) : Nat := metaF x.meta_ 42 2
def Bobbin.hage (x : Bobbin) : Nat := metaF x.meta_ 44 7
def Bobbin.dirty (x : Bobbin) : Bool := x.meta_.getLsbD 51
def Bobbin.claim (x : Bobbin) : Bool := x.meta_.getLsbD 52
def Bobbin.cstn (x : Bobbin) : Nat := metaF x.meta_ 53 9
def Bobbin.poison (x : Bobbin) : Bool := x.meta_.getLsbD 62
def Bobbin.putMeta (x : Bobbin) (lo len v : Nat) : Bobbin := { x with meta_ := metaPut x.meta_ lo len v }
/-- Dword `w` of a payload. -/
def dwordOf (p : BitVec 512) (w : Nat) : W64 := p.extractLsb' (64 * w) 64
def putDword (p : BitVec 512) (w : Nat) (v : W64) : BitVec 512 :=
  (p &&& ~~~((BitVec.allOnes 64).zeroExtend 512 <<< (64 * w))) ||| (v.zeroExtend 512 <<< (64 * w))

/-! ## Names and buffers (R411) -/

def Thread.hold (th : Thread) (h : BitVec 2) : HoldName := th.holds.getD h.toNat {}
def Thread.setHold (th : Thread) (h : BitVec 2) (x : HoldName) : Thread :=
  { th with holds := th.holds.put {} h.toNat x }
def State.holdBuf (s : State) (core i : Nat) : HoldBuf := (s.core core).r.bufs.getD i {}
def State.setHoldBuf (s : State) (core i : Nat) (x : HoldBuf) : State :=
  s.modR core fun r => { r with bufs := r.bufs.put {} i x }
def State.freeHoldBuf (s : State) (core : Nat) : Option Nat := (List.range 4).find? fun i => !(s.holdBuf core i).used

/-- The window check (R410). -/
def ringWindow (s : State) (th : Thread) (a : W64) : Bool :=
  decide (a.toNat < 4096) &&
    (if th.sup then !s.ring.retired.contains a.toNat
     else (s.core th.core).r.win.any fun e =>
       !s.ring.retired.contains a.toNat && winHas th.c.asid e.2 && decide (metaF e.2 0 12 ≤ a.toNat) && decide (a.toNat < metaF e.2 12 13))

/-! ## Words (R412, R413) -/

/-- The lowest LOST name. -/
def Thread.lostHold (th : Thread) : Option (BitVec 2) :=
  ((List.range 4).find? fun i => (th.hold (BitVec.ofNat 2 i)).st == .lost).map (BitVec.ofNat 2)

/-- An operation that a thread has queued: the clearing of a hold at a halt (R423) is the station's own. -/
def RingOp.asked (o : RingOp) : Bool := match o.fn with
  | .drop _ _ => false
  | _ => true
/-- The first ring cycle at which a queued operation may be performed (R406, R423). -/
def RingOp.from_ (o : RingOp) : Nat := if o.asked then 4 * o.since + 64 else 4 * o.since

/-- The steps of R413 after those of R74: inside a region and, for a form that may not run there, in a deterministic launch
the word traps (R328, R424). -/
def ringWord (detOk : Bool) (bob : Option (BitVec 5)) (vx : Bool) (k : State → Tid → Thread → Res) : Body := fun s t th =>
  if th.rg then .trap s .privilege 0 0x6
  else if th.det && !detOk then .trap s .determinism 0 s.wordVal
  else match th.lostHold with
  | some h =>
    let x := th.hold h
    .trap (s.setThread t (th.setHold h {})) .ring (BitVec.ofNat 8 x.why) (BitVec.ofNat 64 x.bobbin)
  | none =>
    if (match bob with | some f => !ringWindow s th (th.src f) | none => false) then
      .trap s .addressSpace 0 (th.src (bob.getD 0))
    else
      let u := if vx then th.bindVx else th
      if 16 ≤ (s.core th.core).r.queue.countP RingOp.asked then .park (s.setThread t u) .stationRoom
      else k (s.setThread t u) t u

/-- Queue an operation at the thread's station. -/
def State.ringQueue (s : State) (t : Tid) (core b : Nat) (fn : RingFn) : State :=
  let (id, s1) := s.takeId
  s1.modR core fun r =>
    { r with queue := r.queue ++ [({ id := id, tid := t, bobbin := b, fn := fn, since := s.cycle } : RingOp)] }

/-- `ring.peek` (R415); in a deterministic launch its bobbin enters the read set (R424). -/
def execRingPeek (sa : BitVec 5) (sd : BitVec 4) (w : BitVec 4) (s : State) : Outcome State Fault Refusal :=
  issue { srcs := [sa], dsts := [sd] } s <| ringWord true (some sa) false fun s t th =>
    let b := (th.src sa).toNat
    let u := if th.det then th.noteRead (ringLine b) else th
    .done ((s.setThread t (u.retire.empty sd)).ringQueue t th.core b (.peek sd w.toNat))

/-- `ring.board` (R416): the thread parks until the board is performed. -/
def execRingBoard (sa : BitVec 5) (sd : BitVec 4) (hn : BitVec 2) (s : State) : Outcome State Fault Refusal :=
  issue { anch := true, srcs := [sa], dsts := [sd] } s fun s t th =>
    viaRequest s t th 0 fun _ =>
      ringWord false (some sa) true (fun s t th =>
        if (th.hold hn).st ≠ .empty then .done (s.setThread t (th.retire.setX sd 2))
        else match s.freeHoldBuf th.core with
        | none => .done (s.setThread t (th.retire.setX sd 1))
        | some i =>
          let b := (th.src sa).toNat
          let id := s.nextId + 1
          let u := { th.setHold hn { st := .waiting, buf := i, bobbin := b } with
            mo := { th.mo with waitId := id, acquired := false } }
          let s1 := (s.setThread t u).setHoldBuf th.core i { used := true, bobbin := b, tid := t }
          .park (s1.ringQueue t th.core b (.board sd hn i)) (.request id)) s t th

/-- A HELD name: a BUSY one is waited for, any other traps with detail 3 (R417). -/
def heldName (hn : BitVec 2) (k : HoldName → Res) (s : State) (th : Thread) : Res :=
  let x := th.hold hn
  match x.st with
  | .held => k x
  | .busy => .park s (.ringHold hn)
  | _ => .trap s .ring 3 0xFFFF

/-- `ring.hget` (R417). -/
def execRingHget (sd : BitVec 4) (w : BitVec 3) (hn : BitVec 2) (s : State) : Outcome State Fault Refusal :=
  issue { anch := true, dsts := [sd] } s <| ringWord false none false fun s t th =>
    heldName hn (fun x => .done (s.setThread t (th.retire.setX sd (dwordOf (s.holdBuf th.core x.buf).data w.toNat)))) s th
/-- `ring.hset` (R417). -/
def execRingHset (sa : BitVec 5) (w : BitVec 3) (hn : BitVec 2) (s : State) : Outcome State Fault Refusal :=
  issue { anch := true, srcs := [sa] } s <| ringWord false none false fun s t th =>
    heldName hn (fun x =>
      let q := s.holdBuf th.core x.buf
      .done ((s.setHoldBuf th.core x.buf { q with data := putDword q.data w.toNat (th.src sa) }).setThread t th.retire)) s th

/-- `ring.alight` and `ring.rel` at issue (R418). -/
def leaveHold (hn : BitVec 2) (fn : Nat → RingFn) : Body := ringWord false none false fun s t th =>
  heldName hn (fun x =>
    .done ((s.setThread t (th.retire.setHold hn { x with st := .busy })).ringQueue t th.core x.bobbin (fn x.buf))) s th
/-- `ring.alight` (R418). -/
def execRingAlight (hn : BitVec 2) (s : State) : Outcome State Fault Refusal :=
  issue { anch := true } s (leaveHold hn (.alight hn))
/-- `ring.rel` (R418). -/
def execRingRel (hn : BitVec 2) (s : State) : Outcome State Fault Refusal :=
  issue { anch := true } s (leaveHold hn (.rel hn))

/-- `ring.radd` and `ring.rmax` at issue (R419); in a deterministic chunk they are staged, sixteen at most (R424). -/
def combine (sa : BitVec 5) (fn : Thread → RingFn) : Body := ringWord true (some sa) false fun s t th =>
  let b := (th.src sa).toNat
  if th.det && th.chunk.open_ then
    if 16 ≤ th.chunk.ring.length then .done (s.endChunk t .lines)
    else .done (s.setThread t { th.retire with chunk := { th.chunk with ring := th.chunk.ring ++ [(b, fn th)] } })
  else .done ((s.setThread t th.retire).ringQueue t th.core b (fn th))
/-- `ring.radd` (R419). -/
def execRingRadd (sa sb : BitVec 5) (w : BitVec 3) (s : State) : Outcome State Fault Refusal :=
  issue { srcs := [sa, sb] } s (combine sa fun th => .radd (th.src sb) w.toNat)
/-- `ring.rmax` (R419). -/
def execRingRmax (sa sb : BitVec 5) (sgn : BitVec 1) (w : BitVec 3) (s : State) : Outcome State Fault Refusal :=
  issue { srcs := [sa, sb] } s (combine sa fun th => .rmax (th.src sb) w.toNat (sgn == 1))

/-! ## Time (R406) -/

/-- The first ring cycle from `lo` on at which bobbin `b` is at a position. -/
def nextAt (b pos lo : Nat) : Nat := lo + (pos + 8192 - b % 4096 - lo % 4096) % 4096
/-- The step of a bobbin's station passage at or after ring cycle `lo`, past its latest step. -/
def State.passAt (s : State) (b st lo : Nat) : Nat :=
  2 * nextAt b (8 * st) (max lo ((s.ring.passed.getD b 0 + 1) / 2)) + 1
def State.seamAt (s : State) (b : Nat) : Nat := 2 * nextAt b 0 (s.ring.passed.getD b 0 / 2 + 1)

/-- The earlier of two timed steps. -/
def sooner (a b : Option (Nat × Instr)) : Option (Nat × Instr) :=
  match a, b with
  | some x, some y => if y.1 < x.1 then some y else some x
  | none, y => y
  | x, none => x

/-- The passages that a station's queue and its broken holds wait for, and the fills that follow its passages. -/
def State.stationNext (s : State) (st : Nat) (r : CoreRing) : Option (Nat × Instr) :=
  let q := r.queue.foldl (fun a o =>
    sooner a (some (s.passAt o.bobbin st o.from_, .stationPassage o.bobbin st))) none
  let q := r.fills.foldl (fun a f => sooner a (some (2 * f.at_, .stationPassage f.bobbin st))) q
  r.bufs.foldl (fun a e =>
    if e.2.used && e.2.lost then sooner a (some (s.passAt e.2.bobbin st 0, .stationPassage e.2.bobbin st)) else a) q

/-- The next step of the ring with any effect: a seam crossing of a dirty or held bobbin, a passage at a station with
operations, a broken hold or a claim of its own (R408, R414, R416, R421). -/
def State.ringNext (s : State) : Option (Nat × Instr) :=
  let a := s.cores.foldl (fun a e => sooner a (s.stationNext e.1 e.2.r)) none
  s.ring.bob.foldl (fun a e =>
    let x := e.2
    let a := if x.dirty || x.held then sooner a (some (s.seamAt e.1, .seamCrossing e.1)) else a
    if x.claim then sooner a (some (s.passAt e.1 x.cstn 0, .stationPassage e.1 x.cstn)) else a) a

/-- A step of the ring is due: the earliest, its ring cycle reached. -/
def ringDue (s : State) (i : Instr) : Option Nat :=
  match s.ringNext with
  | some (k, j) => if j = i ∧ k / 2 ≤ 4 * s.cycle + 3 then some k else none
  | none => none

def State.markPassed (s : State) (b k : Nat) : State :=
  { s with ring := { s.ring with passed := s.ring.passed.set b k } }

/-! ## A passage (R414-R419) -/

/-- A BUSY name after its alight or release is over: empty, or LOST where the hold had been broken (R418, R421). -/
def State.endHold (s : State) (t : Tid) (h : BitVec 2) (buf : Nat) (lost : Bool) : State :=
  s.modThread t fun u =>
    let x := u.hold h
    if x.buf = buf ∧ x.st = .busy then u.setHold h (if lost then { x with st := .lost, why := 1 } else {}) else u

/-- Perform a queued operation at a passage of ring cycle `t`: `none` when its conditions do not allow it yet. -/
def State.ringPerform (s : State) (st t : Nat) (o : RingOp) : Option State :=
  let x := s.bob o.bobbin
  let mine := x.held && x.hstn == st
  let foreign := x.claim && x.cstn != st
  let endBuf := fun (s : State) (h : BitVec 2) (buf : Nat) =>
    (s.endHold o.tid h buf (s.holdBuf st buf).lost).setHoldBuf st buf {}
  let fill := fun (s : State) (f : RingFill) => s.modR st fun r => { r with fills := r.fills ++ [f] }
  let past := fun (s : State) => s.modR st fun r => { r with seamWait := r.seamWait ++ [(o.bobbin, o.tid)] }
  match o.fn with
  | .peek d w =>
    let bad := x.poison && decide (w < 8)
    let v := if bad then 0 else if w < 8 then dwordOf x.com w else x.meta_
    some (fill s { at_ := t + 64, tid := o.tid, d := d, v := v, bad := if bad then some o.bobbin else none, bobbin := o.bobbin })
  | .board d h buf =>
    let finish := fun (s : State) (v : W64) =>
      fill s { at_ := t + 64, tid := o.tid, d := d, v := v, req := some o.id, bobbin := o.bobbin }
    if !x.held && !x.dirty && !foreign then
      if x.poison then
        some (finish ((s.setHoldBuf st buf {}).modThread o.tid fun u => u.setHold h {}) 3)
      else
        let y := ((((x.putMeta 32 1 1).putMeta 33 9 st).putMeta 42 2 buf).putMeta 44 7 0).putMeta 52 1 0
        let s1 := (s.setBob o.bobbin y).setHoldBuf st buf
          { used := true, data := x.com, bobbin := o.bobbin, tid := o.tid }
        some (finish (s1.modThread o.tid fun u => u.setHold h { st := .held, buf := buf, bobbin := o.bobbin }) 0)
    else none
  | .alight h buf =>
    let s1 := if mine && x.hbuf == buf then
        let y := ((x.putMeta 32 1 0).putMeta 44 7 0).putMeta 62 1 0
        past (s.setBob o.bobbin { y.putMeta 51 1 1 with pend := (s.holdBuf st buf).data })
      else s
    some (endBuf s1 h buf)
  | .rel h buf =>
    let s1 := if mine && x.hbuf == buf then s.setBob o.bobbin ((x.putMeta 32 1 0).putMeta 44 7 0) else s
    some (endBuf s1 h buf)
  | .drop _ buf => some (if mine && x.hbuf == buf then s.setBob o.bobbin ((x.putMeta 32 1 0).putMeta 44 7 0) else s)
  | .radd v w =>
    if x.held || foreign then none
    else if x.poison then some s
    else some (past (s.setBob o.bobbin { x.putMeta 51 1 1 with pend := putDword x.pend w (dwordOf x.pend w + v) }))
  | .rmax v w sgn =>
    if x.held || foreign then none
    else if x.poison then some s
    else
      let old := dwordOf x.pend w
      let up := if sgn then decide (old.toInt < v.toInt) else decide (old.toNat < v.toNat)
      some (past (s.setBob o.bobbin { x.putMeta 51 1 1 with pend := putDword x.pend w (if up then v else old) }))

/-- A refused board leaves its station's claim (R416). -/
def State.refuseBoard (s : State) (st : Nat) (o : RingOp) : State :=
  let x := s.bob o.bobbin
  match o.fn with
  | .board _ _ _ => if x.claim then s else s.setBob o.bobbin ((x.putMeta 52 1 1).putMeta 53 9 st)
  | _ => s

/-- The station's queued operations on the bobbin, in issue order; what a thread has queued behind an operation of its own that
waits (`late`) waits with it (R414). -/
def ringOps (st b t : Nat) : List RingOp → List Tid → State → State
  | [], _, s => s
  | o :: r, late, s =>
    if o.bobbin = b ∧ o.from_ ≤ t ∧ o.tid ∉ late then
      match s.ringPerform st t o with
      | some s1 => ringOps st b t r late (s1.modR st fun k => { k with queue := k.queue.filter fun x => x.id ≠ o.id })
      | none => ringOps st b t r (o.tid :: late) (s.refuseBoard st o)
    else ringOps st b t r late s

/-- A board of the bobbin is queued at the station. -/
def State.boardQueued (s : State) (st b : Nat) : Bool :=
  (s.core st).r.queue.any fun o => o.bobbin == b && (match o.fn with | .board _ _ _ => true | _ => false)

/-- An alight or a release of a buffer that has been lost is performed as a no-op (R421): it names no buffer any more. -/
def RingOp.unbuffer (o : RingOp) (b i : Nat) : RingOp :=
  if o.bobbin ≠ b then o
  else match o.fn with
    | .alight h n => if n = i then { o with fn := .alight h 4 } else o
    | .rel h n => if n = i then { o with fn := .rel h 4 } else o
    | _ => o
/-- The station learns of broken holds: a HELD or BUSY name becomes LOST, and its buffer is free (R411, R421). -/
def State.lostNotices (s : State) (st b : Nat) : State :=
  (List.range 4).foldl (fun a i =>
    let q := a.holdBuf st i
    let free := fun (a : State) => (a.setHoldBuf st i {}).modR st fun r => { r with queue := r.queue.map fun o => o.unbuffer b i }
    if q.used && q.lost && q.bobbin == b then
      match (a.threads.find q.tid).bind fun th => (List.range 4).find? fun h =>
          let x := th.hold (BitVec.ofNat 2 h)
          (x.st == .held || x.st == .busy) && x.buf == i && x.bobbin == b with
      | some h => (free a).modThread q.tid fun u =>
          u.setHold (BitVec.ofNat 2 h) { u.hold (BitVec.ofNat 2 h) with st := .lost, why := 1 }
      | none => free a
    else a) s

/-- The register that a performed operation fills (R406): of a board that is still waited for; a poisoned peek is reported (R415). -/
def State.ringFill (s : State) (f : RingFill) : State :=
  match f.req with
  | some id => s.modThread f.tid fun u =>
      if u.mo.waitId = id then { (u.setX f.d f.v) with mo := { u.mo with acquired := true } } else u
  | none =>
    let s1 := s.modThread f.tid fun u => u.setX f.d f.v
    match f.bad with
    | some b => s1.defer f.tid .memError (BitVec.ofNat 64 b)
    | none => s1

/-- STATION_PASSAGE (R414): the queued operations, a claim's drop (R416), notices of broken holds (R421); and, 16 cycles after the
passage, the fill of a register (R406). -/
def execStationPassage (b st : Nat) (s : State) : Outcome State Fault Refusal :=
  match ringDue s (.stationPassage b st) with
  | none => .refused (.notOffered "STATION_PASSAGE")
  | some k =>
    if k % 2 = 0 then
      let (now, rest) := (s.core st).r.fills.partition fun f => f.at_ == k / 2 && f.bobbin == b
      .next (now.foldl State.ringFill (s.modR st fun r => { r with fills := rest }))
    else
    let s1 := ringOps st b (k / 2) (s.core st).r.queue [] (s.markPassed b k)
    let x := s1.bob b
    let s2 := if x.claim && x.cstn == st && !s1.boardQueued st b then s1.setBob b (x.putMeta 52 1 0) else s1
    .next (s2.lostNotices st b)

/-- SEAM_CROSSING (R408): a dirty bobbin commits, and its writers are past the seam (R161); a held one ages, and breaks at
64 (R421). -/
def execSeamCrossing (b : Nat) (s : State) : Outcome State Fault Refusal :=
  match ringDue s (.seamCrossing b) with
  | none => .refused (.notOffered "SEAM_CROSSING")
  | some k =>
    let s1 := s.markPassed b k
    let x := s1.bob b
    let x1 := if x.dirty then { (x.putMeta 51 1 0).putMeta 0 32 (x.stamp + 1) with com := x.pend } else x
    let x2 := if x1.held then x1.putMeta 44 7 (x1.hage + 1) else x1
    let s2 := s1.setBob b x2
    let s3 : State := { s2 with
      cores := s2.cores.map fun (e : Nat × Core) =>
        (e.1, { e.2 with r := { e.2.r with seamWait := e.2.r.seamWait.filter fun w => w.1 ≠ b } }) }
    .next (if x2.held && x2.hage == 64 then s3.urge (.holdBreak b) else s3)

/-- HOLD_BREAK (R421): the bobbin is unheld, its pending payload unchanged; its station learns at the next passage. -/
def execHoldBreak (b : Nat) (s : State) : Outcome State Fault Refusal :=
  let x := s.bob b
  if x.held && x.hage == 64 then
    let q := s.holdBuf x.hstn x.hbuf
    let s1 := s.setBob b (x.putMeta 32 1 0)
    -- a hold whose name is lost already holds no buffer (R411, R423)
    let dropped := (s.core x.hstn).r.queue.any fun o => o.bobbin == b && (match o.fn with | .drop _ n => n == x.hbuf | _ => false)
    .next (if dropped then s1 else s1.setHoldBuf x.hstn x.hbuf { q with lost := true })
  else .refused (.notOffered "HOLD_BREAK")

end Sys2Proof.Machine
end

