-- ==== Sys2Proof/Machine/Tasks.lean ====
section
/-! DEFINITION. The start and the end of a task (R33, R34, R118, R359, R374), the clearing of its scratchpad (R190, R191),
its core's protection and ring windows (R393, R410), and `walk` (R365-R367). -/

namespace Sys2Proof.Machine

open Host (Outcome)

/-! ## What a core keeps for an ASID -/

/-- The local protection entry of an ASID spans its live allocations (R393). -/
def State.setLpu (s : State) (core : Nat) (asid : W16) : State :=
  s.modM core fun m =>
    match windowOf m.allocs asid, entryFor m.lpu (lpuHas asid) with
    | some (b, e), some i =>
      { m with lpu := m.lpu.set i (BitVec.ofNat 64 (b + e * 2 ^ 20 + asid.toNat * 2 ^ 40 + 2 ^ 56)) }
    | none, some i => { m with lpu := m.lpu.erase i }
    | _, none => m

/-- A core that holds no copy of an ASID's ring window takes one (R410), that of an ASID with no window too. -/
def State.takeWindow (s : State) (core : Nat) (asid : W16) : State :=
  let w := s.ring.part.getD asid.toNat 0
  s.modR core fun r =>
    if (List.range 16).any fun i => (r.win.find i).any (winFor asid) then r
    else match entryFor r.win (winFor asid) with
      | some i => { r with win := r.win.set i ((w &&& ~~~(0x1FFFE000000 : W64)) ||| (asid.zeroExtend 64 <<< 25)) }
      | none => r
/-- The copy goes with the core's last task of the ASID (R410). -/
def State.dropWindow (s : State) (core : Nat) (asid : W16) : State :=
  if s.threads.any fun e => e.1 / 64 == core && e.2.c.asid == asid && !e.2.sup then s
  else s.modR core fun r => { r with win := r.win.filter fun e => !winFor asid e.2 }

/-- Banks that a range of scratchpad touches. -/
def banksOf (base len : Nat) : List Nat := (List.range 16).filter fun b => !apart (b * 40960) ((b + 1) * 40960) base (base + len)
/-- FMT falls to RAW in banks of a range that hold no live allocation (R191). -/
def State.clearFmt (s : State) (core base len : Nat) : State :=
  s.modM core fun m =>
    { m with
      bank := (banksOf base len).foldl (fun t b =>
        if m.allocs.any fun a => !a.freed && !apart (b * 40960) ((b + 1) * 40960) a.base (a.base + a.len) then t
        else t.put 0 b (setBits (t.getD b 0) 0 4 0)) m.bank }

/-! ## Start (R34, R359) -/

/-- The slot of a deterministic lane is free: no other thread sits in it or is bound to it. -/
def State.slotFree (s : State) (core slot : Nat) : Bool :=
  !(s.threads.any fun e => e.2.core == core && (e.2.bslot == some slot || e.2.bound == some slot))

/-- A task may start (R314, R359, R370). -/
def taskReady (s : State) (r : TaskReq) : Bool :=
  decide (r.at_ ≤ s.cycle) && s.pkg.pre == .none && !s.heldBack r.lid r.ord && (s.rec? r.lid).any fun q =>
    (q.state == 1 || q.state == 2) && s.room q r.core && (match r.slot with
      | some k => s.slotFree r.core k
      | none => true)

/-- The cores of a launch's placement, in order. -/
def Rec.placement (r : Rec) : List Nat :=
  (List.range 512).filter fun c => r.places (c / 128) (c / 8 % 16) && r.cmask.testBit (c % 8)

/-- The light context of a new task (R34). -/
def startCtx (r : Rec) (lid : W16) (ord : W32) (spEnd : Nat) : Ctx :=
  let cs := r.coords ord.toNat
  let x := (List.range 4).foldl (fun (v : Vector W64 16) i =>
    v.set (i % 16) (BitVec.ofNat 64 (cs.getD i 0)) (Nat.mod_lt _ (by decide))) (Vector.replicate 16 0)
  let x := ((x.set 4 (r.save - 64)).set 5 (ord.zeroExtend 64)).set 15 (BitVec.ofNat 64 spEnd)
  { x := x, pc := r.entry, img := r.img, asid := r.asid, lid := lid, ord := ord
    status := BitVec.ofNat 32 ((if r.mobile then 2 ^ 14 else 0) + (if r.det then 2 ^ 16 else 0) +
      (if r.accs ≠ 0 then 2 ^ 17 else 0))
    evec := if r.trapvec = 0xFFFFFFFF then 0 else BitVec.ofNat 64 (r.trapvec.toNat + r.img.toNat * 2 ^ 32 + 2 ^ 63) }

/-- Cycles to clear `len` bytes at 1 KiB per cycle (R190). -/
def clearCycles (len : Nat) : Nat := (len + 1023) / 1024

/-- Give a core's scratchpad piece to a task: cleared, full, with its formats and its window (R190, R191, R393). -/
def State.allocate (s : State) (core base len : Nat) (asid : W16) (t : Tid) : State :=
  let s1 := (s.clearFmt core base len).modM core fun m =>
    { m with allocs := m.allocs ++ [({ base := base, len := len, asid := asid, tid := t,
                                       due := s.cycle + clearCycles len } : Alloc)] }
  ((s1.zero (spKey core base) len).fillFe core base len).setLpu core asid

/-- TASK_START (R34, R359): the lowest piece, the lowest accumulators, a context whose reservation bit is clear; the start
is a package-scope acquire of the arm and of the exits it waited for (R314, R358). -/
def execTaskStart (r : TaskReq) (s : State) : Outcome State Fault Refusal :=
  perform "TASK_START" (.taskStart r) (taskReady s r) s fun s =>
    match s.rec? r.lid, s.newCtx r.core with
    | some q, some i =>
      let t := r.core * 64 + i
      let len := roundUp q.spad 64
      let base := if q.spad = 0 then 0 else (s.findPiece r.core q.asid len).getD 0
      let accs := (s.freeAccs r.core).take q.accs
      let th : Thread :=
        { c := startCtx q r.lid r.ord (if q.spad = 0 then 0 else base + len)
          core := r.core, cidx := i, bound := r.slot
          run := if q.spad = 0 then .ready s.cycle else .parked .clearing
          lau := { seed := q.seed, prio := BitVec.ofNat 2 q.prio, walker := r.walker, tile := true, spBase := base,
                   spLen := if q.spad = 0 then 0 else len
                   lane := r.slot.map fun k => q.placement.idxOf r.core * 16 + k
                   accs := accs, slots := q.slots, clearing := decide (q.spad ≠ 0) } }
      let s1 := (s.setThread t th).modK r.core fun k => { k with tidMask := k.tidMask ||| (1#64 <<< i) }
      let s2 := s1.modE r.core fun e => { e with accUsed := accs.foldl (fun a n => a.set n t) e.accUsed }
      let s3 := (s2.takeWindow r.core q.asid).acquireAt t r.core 2
      let s4 := if q.state = 1 then s3.setRec r.lid (q.setState 2) else s3
      if q.spad = 0 then s4 else (s4.allocate r.core base len q.asid t).push (.allocationClearDone t)
    | _, _ => s

/-- The clearing of a task's allocation is over. -/
def clearDue (s : State) (t : Tid) : Bool :=
  (s.threads.find t).any fun th =>
    (s.core th.core).m.allocs.any fun a => a.tid == t && !a.freed && decide (a.due ≤ s.cycle)

/-- Apply a launch's scratchpad initialisation (R100, R191): formats of whole banks inside the allocation, then the
bytes. -/
def State.initSpad (s : State) (core base len : Nat) (i : SpadInit) : State :=
  let s1 := s.modM core fun m =>
    { m with
      bank := (List.range 16).foldl (fun t b =>
        let f := (i.fmts.getD b 0xFF).toNat
        if f = 0xFF ∨ b * 40960 < base ∨ base + len < (b + 1) * 40960 then t
        else t.put 0 b (setBits (t.getD b 0) 0 4 (BitVec.ofNat 32 f))) m.bank }
  (i.data.zipIdx).foldl (fun a e => a.wr (spKey core (base + i.off + e.2)) 1 e.1.toNat) s1

/-- Banks, not awake, that a launch's initialisation writes (R192). -/
def State.initAsleep (s : State) (th : Thread) : List Nat :=
  match (s.die (lidDie th.c.lid)).spad.find (th.c.lid.toNat % 4096) with
  | some i => if i.data.isEmpty then [] else (banksOf (th.lau.spBase + i.off) i.data.length).filter (s.bankAsleep th.core)
  | none => []

/-- ALLOCATION_CLEAR_DONE (R190): the task's first instruction may issue. A gated bank that the initialisation writes is woken
first. -/
def execAllocationClearDone (t : Tid) (s : State) : Outcome State Fault Refusal :=
  perform "ALLOCATION_CLEAR_DONE" (.allocationClearDone t) (clearDue s t) s fun s =>
    match s.threads.find t with
    | none => s
    | some th =>
      match s.initAsleep th with
      | b :: _ =>
        let s1 := s.touchBank th.core b
        (s1.modM th.core fun m => { m with allocs := m.allocs.map fun a =>
          if a.tid = t ∧ !a.freed then { a with due := max (s.cycle + 1) ((m.waking.find b).getD 0) } else a }).push
            (.allocationClearDone t)
      | [] =>
      let s1 := match (s.die (lidDie th.c.lid)).spad.find (th.c.lid.toNat % 4096) with
        | some i => s.initSpad th.core th.lau.spBase th.lau.spLen i
        | none => s
      s1.modThread t fun u =>
        let v := { u with lau := { u.lau with clearing := false } }
        if v.run = .parked .clearing then v.wakeAt s.cycle else v

/-! ## End (R118) -/

/-- A released piece has been cleared. -/
def freeDue (s : State) (core base : Nat) : Bool :=
  (s.core core).m.allocs.any fun a => a.freed && a.base == base && decide (a.due ≤ s.cycle)

/-- RELEASE_CLEAR_DONE (R191): the bytes return to the free pool; FMT falls in banks with no live allocation. -/
def execReleaseClearDone (core base : Nat) (s : State) : Outcome State Fault Refusal :=
  perform "RELEASE_CLEAR_DONE" (.releaseClearDone core base) (freeDue s core base) s fun s =>
    match (s.core core).m.allocs.find? fun a => a.freed && a.base == base && decide (a.due ≤ s.cycle) with
    | none => s
    | some a =>
      (s.modM core fun m => { m with allocs := m.allocs.erase a }).clearFmt
        core base a.len

/-- Release a task's scratchpad (R191, R393). -/
def State.releaseSpad (s : State) (t : Tid) (core : Nat) (asid : W16) : State :=
  match (s.core core).m.allocs.find? fun a => a.tid == t && !a.freed with
  | none => s
  | some a =>
    let s1 := s.modM core fun m =>
      { m with allocs := m.allocs.map fun x =>
          if x.tid = t ∧ !x.freed then { x with freed := true, due := s.cycle + clearCycles a.len } else x }
    (((s1.zero (spKey core a.base) a.len).fillFe core a.base a.len).setLpu core asid).push
      (.releaseClearDone core a.base)

/-- HELD names are released as `ring.rel` releases them (R118, R425). -/
def State.releaseHolds (s : State) (th : Thread) (t : Tid) : State :=
  th.holds.foldl (fun a e =>
    if e.2.st = .held then
      let (id, b) := a.takeId
      b.modR th.core fun r => { r with
        queue := r.queue ++ [({ id := id, tid := t, bobbin := e.2.bobbin, since := s.cycle
                                fn := .rel (BitVec.ofNat 2 e.1) e.2.buf } : RingOp)] }
    else a) s

/-- A tile retires (R358): the walker's list and the record's count; a deterministic lane's next ordinal follows
(R374). -/
def State.retireTile (s : State) (th : Thread) : State :=
  if !th.lau.tile then s
  else
    let lid := th.c.lid
    let s1 := match th.lau.walker with
      | some w =>
        let x := s.walker w
        if x.active && x.lid == lid then
          s.setWalker w { x with inflight := x.inflight.erase th.c.ord.toNat }
        else s
      | none => s
    s1.modRec lid fun r => r.put 96 4 (r.retired + 1)

/-- The walker of a thread is freed when it has nothing left. -/
def State.freeWalkerOf (s : State) (th : Thread) : State :=
  match th.lau.walker with
  | some w => s.freeIfDone w
  | none => s

/-- The next ordinal of a deterministic lane (R374). -/
def State.nextOrdinal (s : State) (th : Thread) : State :=
  match th.lau.lane, s.rec? th.c.lid with
  | some l, some r =>
    let lanes := (s.pkg.det.getD th.c.lid.toNat {}).lanes
    let o := th.c.ord.toNat + lanes.length
    if (r.state = 1 ∨ r.state = 2) ∧ o < r.total then
      (s.push (.taskStart ⟨th.c.lid, BitVec.ofNat 32 o, none, th.core, some (l % 16), s.cycle + startTime⟩)).modPkg fun p =>
        { p with admitted := p.admitted ++ [(th.c.lid, BitVec.ofNat 32 o)] }
    else s
  | _, _ => s

/-- The tid reservation bit clears: at once on the creating core, else by a tid-release message (R33). -/
def State.freeTid (s : State) (t : Tid) (core : Nat) : State :=
  if t / 64 = core then s.modK core fun k => { k with tidMask := k.tidMask &&& ~~~(1#64 <<< (t % 64)) }
  else s.push (.tidReleaseMessage t)

/-- What a thread holds on its core goes: its scratchpad, accumulators, hold buffers, barrier registrations, report,
context and reservation. -/
def State.dismiss (s : State) (t : Tid) (th : Thread) : State :=
  let s1 := ((s.leaveTags t).endFpReport th.core t).releaseHolds th t
  let s2 := s1.modE (t / 64) fun e => { e with accUsed := e.accUsed.filter fun a => a.2 ≠ t }
  let s2 := s2.modE th.core fun e =>
    { e with
      queue := e.queue.map fun (o : MmaOp) => if o.tid = t then { o with tid := noTid } else o
      eng := e.eng.map fun (b : Nat × Binding) => if b.2.tid = t then (b.1, { b.2 with tid := noTid }) else b }
  let s3 := s2.releaseSpad t (t / 64) th.c.asid
  let s4 := { s3 with threads := s3.threads.erase t }
  ((s4.freeTid t th.core).dropWindow (t / 64) th.c.asid).seatArrival th.core

/-- A thread ends (R118): its tile retires and its launch may be complete (R358). -/
def State.endThread (s : State) (t : Tid) (th : Thread) : State :=
  let s1 := (s.dismiss t th).retireTile th
  let s2 := if th.lau.killed then s1.modRec th.c.lid fun r => r.put 100 2 (r.f 100 2 + 1) else s1
  let s3 := s2.modPkg fun p => { p with admitted := p.admitted.filter fun e => !(e.1 == th.c.lid && e.2 == th.c.ord) }
  let s4 := (s3.nextOrdinal th).freeWalkerOf th
  if th.sup then s4 else s4.checkComplete th.c.lid

/-- Threads of a launch. -/
def State.tasksOf (s : State) (lid : W16) : List (Tid × Thread) := s.threads.filter fun e => e.2.c.lid == lid && !e.2.sup

/-- Cancel a busy record (R360): its walkers drop their tiles, no further task starts; the saved tasks of a suspended one
are discarded. -/
def State.cancelRecord (s : State) (lid : W16) (r : Rec) : State :=
  let s0 := s.journal (lidDie lid) (.state lid)
  let s1 := { s0 with
    pool := s0.pool.filter fun i => match i with
      | .taskStart q => q.lid != lid
      | .launchCompletion l => l != lid
      | _ => true
    pkg := { s0.pkg with
      waiting := s0.pkg.waiting.filter fun l => l ≠ lid
      admitted := s0.pkg.admitted.filter fun e => e.1 ≠ lid || s0.threads.any fun t =>
        t.2.c.lid == lid && t.2.c.ord == e.2 } }
  let s2 := s1.dropWalkers lid
  if r.state = 7 then
    let s3 := (s2.tasksOf lid).foldl (fun a e => a.dismiss e.1 e.2) s2
    (s3.modPkg fun p => { p with
      saved := p.saved.filter fun e => e.1 ≠ lid, admitted := p.admitted.filter fun e => e.1 ≠ lid }).setRec lid (r.setState 6)
  else s2.setRec lid (if s2.launchTasks lid then r.setState 5 else (r.setState 6).put 52 1 r.winit)

/-- `lrec.cancel` (R360). -/
def execLrecCancel (sa : BitVec 5) (sd : BitVec 4) (s : State) : Outcome State Fault Refusal :=
  issue { srcs := [sa], dsts := [sd] } s fun s t th =>
    let lid := (th.src sa).extractLsb' 0 16
    match s.ownRec th lid with
    | none => lrecEnd s t th lid sd 1
    | some r =>
      if restState r.state then lrecEnd s t th lid sd 3
      else lrecEnd (s.cancelRecord lid r) t th lid sd 0

/-- The completion queue of a die without an active controller is full: it has 256 entries (R463). -/
def State.queueFull (s : State) (die : Nat) : Bool := !s.ctlAlive die && decide (256 ≤ (s.die die).ctl.queue.length)
/-- `task.exit` (R118, R463). In a deterministic launch it ends the chunk, and the thread ends after the commit (R319). -/
def execTaskExit (s : State) : Outcome State Fault Refusal :=
  issue {} s fun s t th =>
    if th.rg then .trap s .privilege 0 0x3
    else if th.det && th.chunk.open_ && !th.lau.exiting then .done (s.endChunk t .exit)
    else if !s.producersDone t th then .park s .producers
    else if !(s.openHomes t th false).isEmpty then .park s .drained
    else release 2 s t th fun s th =>
      if s.ringQueued t then .park s .ringDone
      else if !th.sup && s.queueFull (lidDie th.c.lid) then .park s (.controller (lidDie th.c.lid))
      else .done (s.endThread t th)

/-- TID_RELEASE_MESSAGE (R33). -/
def execTidReleaseMessage (t : Tid) (s : State) : Outcome State Fault Refusal :=
  perform "TID_RELEASE_MESSAGE" (.tidReleaseMessage t) true s fun s =>
    s.modK (t / 64) fun k => { k with tidMask := k.tidMask &&& ~~~(1#64 <<< (t % 64)) }

/-! ## `walk` (R365-R367) -/

/-- The walker that gave a thread its tile still serves its launch. -/
def State.tileWalker (s : State) (th : Thread) : Option (Nat × Walker) :=
  match th.lau.walker with
  | some w => if (s.walker w).active && (s.walker w).lid == th.c.lid then some (w, s.walker w) else none
  | none => none

/-- Take the walker's next ordinal, or none (R367). -/
def State.nextTile (s : State) (t : Tid) (th : Thread) (sd : BitVec 4) : State :=
  let s1 := s.retireTile th
  match s1.tileWalker th, s1.rec? th.c.lid with
  | some (w, x), some r =>
    match x.take with
    | some (o, y) =>
      let cs := r.coords o
      let u := (List.range 4).foldl (fun (v : Thread) i => v.setX (BitVec.ofNat 4 i) (BitVec.ofNat 64 (cs.getD i 0))) th.retire
      let u := ((u.setX 5 (BitVec.ofNat 64 o)).setX sd 0).modC fun c => { c with ord := BitVec.ofNat 32 o }
      ((s1.setWalker w y).modPkg fun p =>
        { p with admitted := p.admitted.map fun e =>
            if e.1 = th.c.lid ∧ e.2 = th.c.ord then (e.1, BitVec.ofNat 32 o) else e }).setThread t u
    | none =>
      (s1.setThread t { th.retire.setX sd 1 with lau := { th.lau with tile := false } }).freeIfDone w
  | _, _ => s1.setThread t { th.retire.setX sd 1 with lau := { th.lau with tile := false } }

/-- `walk.next` (R367): nothing is handed out while a pre-emption is pending (R370). -/
def execWalkNext (sd : BitVec 4) (s : State) : Outcome State Fault Refusal :=
  issue { dsts := [0, 1, 2, 3, 5, sd] } s fun s t th =>
    if th.det then .trap s .determinism 0 s.wordVal
    else release 2 s t th fun s th =>
      if !th.lau.tile then .done (s.setThread t (th.retire.setX sd 1))
      else if s.pkg.pre != .none then .park s .walker
      else .done (s.nextTile t th sd)

/-- `walk.info` (R366). -/
def execWalkInfo (sd : BitVec 4) (sel : BitVec 6) (s : State) : Outcome State Fault Refusal :=
  issue { dsts := [sd] } s fun s t th =>
    let rec_ := s.rec? th.c.lid
    let r := rec_.getD 0
    let v : Nat := match (if rec_.isSome then sel.toNat else 7) with
      | 0 => r.total
      | 1 => if th.lau.tile then
          (match s.tileWalker th with
           | some (_, x) => x.cursor + x.fin * 2 ^ 32
           | none => 0) else 0
      | 2 => if th.lau.tile then (th.lau.walker.getD 0) + th.c.lid.toNat * 2 ^ 16 else 0
      | 3 => r.tiles 0
      | 4 => r.tiles 1
      | 5 => r.tiles 2
      | 6 => r.tiles 3
      | _ => 0
    .done (s.setThread t (th.retire.setX sd (BitVec.ofNat 64 v)))

end Sys2Proof.Machine
end

