-- ==== Sys2Proof/Machine/Ume.lean ====
section
/-! DEFINITION. The unmasking engine (R375-R385): contexts, the `ume` words, the configuration read and a round. -/

namespace Sys2Proof.Machine

open Host (Outcome)

/-! ## Contexts (R375) -/

/-- Replace a field. -/
def umePut (r : UmeReg) (lo len v : Nat) : UmeReg :=
  let m : UmeReg := BitVec.ofNat 1024 ((2 ^ len - 1) <<< lo)
  (r &&& ~~~m) ||| BitVec.ofNat 1024 ((v % 2 ^ len) <<< lo)
def umeCbase (r : UmeReg) : Nat := umeF r 0 64
def umeCcap (r : UmeReg) : Nat := umeF r 64 24
def umeIcons (r : UmeReg) : Nat := umeF r 96 32
def umeMbase (r : UmeReg) : Nat := umeF r 128 64
def umeDmbase (r : UmeReg) : Nat := umeF r 192 64
def umeObase (r : UmeReg) : Nat := umeF r 256 64
def umeDlbase (r : UmeReg) : Nat := umeF r 320 64
def umeDlcap (r : UmeReg) : Nat := umeF r 384 24
def umeShare (r : UmeReg) : Nat := umeF r 416 16
def umeSeqlen (r : UmeReg) : Nat := umeF r 432 16
def umeMin (r : UmeReg) : Nat := umeF r 448 16
def umeMax (r : UmeReg) : Nat := umeF r 464 16
def umeThresh (r : UmeReg) : Nat := umeF r 480 32
def umeRadius (r : UmeReg) : Nat := umeF r 512 8
def umeLayer (r : UmeReg) : Nat := umeF r 520 6
def umeMode (r : UmeReg) : Nat := umeF r 528 8
def umeRound (r : UmeReg) : Nat := umeF r 536 32

/-- The RW fields of R375 as one mask. -/
def umeRw : UmeReg :=
  [(0, 64), (64, 24), (128, 64), (192, 64), (256, 64), (320, 64), (384, 24), (416, 16), (432, 16), (448, 16), (464, 16),
   (480, 32), (512, 8), (520, 6), (528, 8)].foldl (fun a f => umePut a f.1 f.2 (2 ^ f.2 - 1)) 0
/-- A block breaks a limit (R381). -/
def umeBad (r : UmeReg) : Bool :=
  umeCcap r == 0 || umeSeqlen r == 0 || decide (32768 < umeSeqlen r) || umeCbase r % 16 != 0 || umeMbase r % 8 != 0 ||
    umeDmbase r % 8 != 0 || umeObase r % 16 != 0 || umeDlbase r % 16 != 0 || decide (umeMode r / 2 ≠ 0)

/-! ## Words (R380-R384) -/

/-- Every form traps inside a region (R384). -/
def umeWord (k : State → Tid → Thread → Res) : Body := fun s t th =>
  if th.rg then .trap s .privilege 0 0x6 else k s t th

/-- `ume.cfg` (R381). -/
def execUmeCfg (sa : BitVec 5) (sd ctx : BitVec 4) (s : State) : Outcome State Fault Refusal :=
  issue { srcs := [sa], dsts := [sd] } s <| umeWord fun s t th =>
    let a := th.src sa
    let die := dieOf th.core
    let c := s.umeCtx die ctx.toNat
    let out := fun (s : State) (u : Thread) (v : W64) => Res.done (s.setThread t ((u.noteUme ctx.toNat).retire.setX sd v))
    if a = 0 then
      let reg := th.umeReg c ctx.toNat
      if !(umeValid reg && (th.sup || umeAsid reg == th.c.asid)) then out s th 2
      else if s.umeBusy die ctx.toNat then out s th 1
      else if th.staging then out s (th.stageUme ctx.toNat 0) 0
      else out (s.setUme die ctx.toNat {}) th 0
    else match resolve th.core a with
      | some (.glob _ _) =>
        if a.toNat % 64 ≠ 0 then .trap s .misaligned 0 a
        else
          let (id, s1) := s.takeId
          .done ((s1.setThread t ((th.noteUme ctx.toNat).retire.empty sd)).push
            (.umeCfgBlockRead ⟨id, t, th.core, die, ctx.toNat, th.c.asid, sd, a, 0, []⟩))
      | _ => .trap s .addressSpace 0 a

/-- `ume.round` (R382): in a deterministic chunk the round starts at the commit, and the chunk ends after the word
(R384). -/
def execUmeRound (sa : BitVec 5) (sd ctx : BitVec 4) (s : State) : Outcome State Fault Refusal :=
  issue { srcs := [sa], dsts := [sd] } s <| umeWord fun s t th =>
    let die := dieOf th.core
    let (id, s1) := s.takeId
    let r : UmeReq := ⟨id, t, th.core, die, ctx.toNat, th.c.asid, sd, (th.src sa) &&& 0xFFFFFFFF,
      if s.umeBusy die ctx.toNat then 2 else 0, []⟩  -- in a chunk its commit says
    let s2 := s1.setThread t (th.retire.empty sd)
    if th.det && th.chunk.open_ then
      .done ((s2.modThread t fun u => { u with chunk := { u.chunk with ume := u.chunk.ume ++ [r] } }).endChunk t .boundary)
    else .done (s2.push (.umeRoundExecution r))

/-- The context as a thread's status forms see it (R383), with what its open chunk has done to it. -/
def State.umeSeen (s : State) (th : Thread) (i : Nat) : Option UmeCtx :=
  let c0 := s.umeCtx (dieOf th.core) i
  let c := { c0 with reg := th.umeReg c0 i }
  if th.sup || umeOwned c th.c.asid then some c else none
def bitN (b : Bool) (i : Nat) : Nat := if b then 2 ^ i else 0

/-- `ume.stat` (R383). -/
def execUmeStat (sd : BitVec 4) (sel : BitVec 2) (ctx : BitVec 4) (s : State) : Outcome State Fault Refusal :=
  issue { dsts := [sd] } s <| umeWord fun s t th =>
    let v : Nat := match s.umeSeen th ctx.toNat with
      | none => 0
      | some c =>
        match sel.toNat with
        | 0 => bitN (s.umeBusy (dieOf th.core) ctx.toNat) 0 + bitN c.st.nan 1 + bitN c.st.dovf 2 + bitN c.bad 3 +
            c.err.toNat * 2 ^ 8 + c.st.klast * 2 ^ 16 + c.st.masked * 2 ^ 32
        | 1 => umeRound c.reg + umeIcons c.reg * 2 ^ 32
        | 2 => c.st.read + c.st.drop * 2 ^ 32
        | _ => 0
    .done (s.setThread t ((th.noteUme ctx.toNat).retire.setX sd (BitVec.ofNat 64 v)))
/-- `ume.dirty` (R383). -/
def execUmeDirty (sd ctx : BitVec 4) (s : State) : Outcome State Fault Refusal :=
  issue { dsts := [sd] } s <| umeWord fun s t th =>
    let v : Nat := match s.umeSeen th ctx.toNat with
      | none => 0
      | some c => c.st.written + c.st.total * 2 ^ 32
    .done (s.setThread t ((th.noteUme ctx.toNat).retire.setX sd (BitVec.ofNat 64 v)))

/-! ## The configuration read (R381) -/

/-- Who the engine acts for; all ones in the status say that a page cannot be resolved. -/
def umeActor (r : UmeReq) : Actor := ⟨r.id, r.tid, r.core, r.asid, false, r.status == BitVec.allOnes 64, r.lost⟩

/-- Read `n` bytes (inside one line) at their home, past replicas (R385); bytes that the issuer's open chunk holds come
first. -/
def State.homeRead (s : State) (a : Actor) (ea : W64) (n : Nat) : EGot :=
  match resolve a.core ea with
  | some (.glob space va) =>
    if s.engLost a space va then .err 0x12 ea s
    else match s.readGlobal a.tid a.core a.asid space va n (.acquire 2) 3 false with
    | .val v s1 => .ok (overlayHeld (s.heldOf a.tid a.id) (canonEa a.core ea).toNat n v) s1 none
    | .err c e s1 => .err c.code e s1
    | .hold e => if a.fail then .err 0x09 ea s else .hold ea e
  | _ => .err 0x07 ea s

/-- The thread's own stores to the block are at their homes. -/
def cfgReady (s : State) (r : UmeReq) : Bool :=
  s.noEntries r.core r.asid [(r.arg.toNat, 128)] && s.noOlder r.tid r.id r.core [(r.arg, 64), (r.arg + 64, 64)]

/-- The status that a block gives, and the context it leaves: the reports of R383 stand. Of a word of an open chunk it is loaded at
the commit (log entry 78). -/
def State.umeLoad (s : State) (r : UmeReq) (b : UmeReg) : W64 × State :=
  let c := s.umeCtx r.die r.ctx
  let staged := s.inChunk r.tid r.id
  let cur := match (if staged then s.threads.find r.tid else none) with
    | some th => th.umeReg c r.ctx
    | none => c.reg
  if umeValid cur && umeAsid cur != r.asid then (2, s)
  else if s.umeBusy r.die r.ctx then (1, s)
  else if umeBad b then (3, s)
  else
    let reg := umePut (umePut (b &&& umeRw) 568 16 r.asid.toNat) 584 1 1
    (0, if staged then s.modThread r.tid fun u => u.stageUme r.ctx reg else s.setUme r.die r.ctx { c with reg := reg })

/-- UME_CFG_BLOCK_READ (R381). -/
def execUmeCfgBlockRead (r : UmeReq) (s : State) : Outcome State Fault Refusal :=
  perform "UME_CFG_BLOCK_READ" (.umeCfgBlockRead r) (cfgReady s r) s fun s =>
    let fill := fun (s : State) (v : W64) => s.modThread r.tid fun u => u.setX r.d v
    match s.homeRead (umeActor r) r.arg 64 with
    | .err c ea s1 => fill s1 (tokenErr c ea)
    | .hold ea e => s.holdAt r.core r.asid ea e (.umeCfgBlockRead r)
    | .ok lo s1 _ =>
      match s1.homeRead (umeActor r) (r.arg + 64) 64 with
      | .err c ea s2 => fill s2 (tokenErr c ea)
      | .hold ea e => s.holdAt r.core r.asid ea e (.umeCfgBlockRead r)
      | .ok hi s2 _ =>
        let (v, s3) := s2.umeLoad r (BitVec.ofNat 1024 (lo + hi * 2 ^ 512))
        fill s3 v

/-! ## Ranking (R378) -/

/-- A candidate record: ring order, position, token, confidence. -/
structure Cand where
  i    : Nat
  pos  : Nat
  tok  : Nat
  conf : Nat
deriving DecidableEq, Repr

/-- `x` ranks before `y`: the higher confidence, numbers before NaNs, then the lower position, then ring order. -/
def candBefore (x y : Cand) : Bool :=
  let a := fp32.unpack x.conf
  let b := fp32.unpack y.conf
  let tie := decide (x.pos < y.pos) || (x.pos == y.pos && decide (x.i < y.i))
  if a.isNan && b.isNan then tie
  else if a.isNan then false
  else if b.isNan then true
  else if a.cmp b > 0 then true
  else if a.cmp b < 0 then false
  else tie
/-- Keep the best candidate of each position. -/
def keepBest : List Cand → List Cand → List Cand
  | [], acc => acc
  | x :: xs, acc =>
    match acc.find? fun y => y.pos == x.pos with
    | none => keepBest xs (acc ++ [x])
    | some y => keepBest xs (if candBefore x y then acc.map fun z => if z.pos = x.pos then x else z else acc)
/-- Insert into ranked order. -/
def rankInsert (x : Cand) : List Cand → List Cand
  | [] => [x]
  | y :: r => if candBefore x y then x :: y :: r else y :: rankInsert x r
def rankAll (l : List Cand) : List Cand := l.foldl (fun a x => rankInsert x a) []

/-- The number of commits (R377). -/
def commitCount (reg : UmeReg) (m v : Nat) (ranked : List Cand) : Nat :=
  let k := min m (max (umeMin reg) ((umeShare reg * m + 65535) / 65536))
  let th := fp32.unpack (umeThresh reg)
  let t := if umeMode reg % 2 = 1 then
      (ranked.filter fun x =>
        let a := fp32.unpack x.conf
        !a.isNan && !th.isNan && decide (a.cmp th ≥ 0)).length
    else 0
  let c := max (min k v) t
  if umeMax reg ≠ 0 then min c (umeMax reg) else c

/-- The new dirty bits of position `q` (R379). -/
def dirtyBits (reg : UmeReg) (ps : List Nat) (q : Nat) : Nat :=
  if ps.contains q then 2 ^ 64 - 1
  else if ps.any fun p => decide (p ≤ q + umeRadius reg) && decide (q ≤ p + umeRadius reg) then
    2 ^ 64 - 2 ^ umeLayer reg
  else 0

/-! ## A round (R377, R382) -/

/-- A run of engine accesses: the state and a value, or how it stopped. -/
inductive URun (α : Type) where
  | ok (v : α) (s : State)
  | err (code : W8) (ea : W64) (s : State)
  | hold (ea : W64) (entryAt : Nat)

/-- Read values of `n` bytes at a list of addresses. -/
def readList (a : Actor) (n : Nat) : List Nat → State → List Nat → URun (List Nat)
  | [], s, acc => .ok acc.reverse s
  | ad :: r, s, acc =>
    match s.homeRead a (BitVec.ofNat 64 ad) n with
    | .ok v s1 _ => readList a n r s1 (v :: acc)
    | .err c ea s1 => .err c ea s1
    | .hold ea e => .hold ea e
/-- Every address of writes of `n` bytes is global and translated before any is made (R382). -/
def checkList (a : Actor) : List Nat → State → URun Unit
  | [], s => .ok () s
  | ad :: r, s =>
    match resolve a.core (BitVec.ofNat 64 ad) with
    | some (.glob space va) =>
      match s.xlate a.asid space va true with
      | .ok _ => checkList a r s
      | .error e => if a.fail then .err 0x09 (BitVec.ofNat 64 ad) s else .hold (BitVec.ofNat 64 ad) e
    | _ => .err 0x07 (BitVec.ofNat 64 ad) s
/-- Write values of `n` bytes at addresses: the lines written. -/
def writeList (a : Actor) (n : Nat) : List (Nat × Nat) → State → List Nat → URun (List Nat)
  | [], s, ls => .ok ls s
  | (ad, v) :: r, s, ls =>
    match resolve a.core (BitVec.ofNat 64 ad) with
    | some (.glob _ _) =>
      match s.engWrite a (BitVec.ofNat 64 ad) n v with
      | .ok _ s1 l => writeList a n r s1 (addLine ls l)
      | .err c ea s1 => .err c ea s1
      | .hold ea e => .hold ea e
    | _ => .err 0x07 (BitVec.ofNat 64 ad) s

def URun.bind {α β : Type} (r : URun α) (f : α → State → URun β) : URun β :=
  match r with
  | .ok v s => f v s
  | .err c ea s1 => .err c ea s1
  | .hold ea e => .hold ea e

/-- A whole round: its report and the lines it wrote. Every read and translation comes before the first write, so that a fault in them
leaves memory as it was; an uncorrectable error met while writing leaves the writes before it (R382). -/
def umeRunRound (a : Actor) (reg : UmeReg) (n : Nat) (s : State) : URun (UmeStat × List Nat) :=
  let len := umeSeqlen reg
  let dwords := (len + 63) / 64
  (readList a 8 ((List.range dwords).map fun i => umeMbase reg + 8 * i) s []).bind fun mask s =>
  let masked := fun (p : Nat) => decide (p < len) && (mask.getD (p / 64) 0).testBit (p % 64)
  let m := (List.range len).countP masked
  (readList a 16 ((List.range n).map fun i => umeCbase reg + 16 * ((umeIcons reg + i) % umeCcap reg)) s []).bind
    fun recs s =>
  let cands := recs.zipIdx.map fun x => (⟨x.2, x.1 % 2 ^ 32, x.1 / 2 ^ 32 % 2 ^ 32, x.1 / 2 ^ 64 % 2 ^ 32⟩ : Cand)
  let valid := cands.filter fun x => masked x.pos
  let ranked := rankAll (keepBest valid [])
  let v := ranked.length
  let c := commitCount reg m v ranked
  let won := ranked.take c
  let ps := won.map Cand.pos
  let touched := ((List.range len).map fun q => (q, dirtyBits reg ps q)).filter fun x => x.2 != 0
  (readList a 8 (touched.map fun x => umeDmbase reg + 8 * x.1) s []).bind fun olds s =>
  let upd := touched.zip olds
  let fresh_ := (upd.map fun x => (x.1.1, x.1.2 &&& (2 ^ 64 - 1 - x.2))).filter fun x => x.2 != 0
  let listed := fresh_.take (umeDlcap reg)
  let clear := ((List.range dwords).map fun i =>
    (i, ps.foldl (fun (w : Nat) p => if p / 64 = i ∧ w.testBit (p % 64) then w - 2 ^ (p % 64) else w) (mask.getD i 0))).filter
      fun x => x.2 != mask.getD x.1 0
  let outs := won.zipIdx.map fun x =>
    (umeObase reg + 16 * x.2, x.1.pos + x.1.tok * 2 ^ 32 + x.1.conf * 2 ^ 64 + (umeRound reg + 1) % 2 ^ 32 * 2 ^ 96)
  let masks := clear.map fun x => (umeMbase reg + 8 * x.1, x.2)
  let dirts := upd.map fun x => (umeDmbase reg + 8 * x.1.1, x.1.2 ||| x.2)
  let list := listed.zipIdx.map fun x => (umeDlbase reg + 16 * x.2, x.1.1 + x.1.2 * 2 ^ 64)
  (checkList a ((outs ++ masks ++ dirts ++ list).map Prod.fst) s).bind fun _ s =>
  (writeList a 16 outs s []).bind fun l1 s =>
  (writeList a 8 masks s l1).bind fun l2 s =>
  (writeList a 8 dirts s l2).bind fun l3 s =>
  (writeList a 16 list s l3).bind fun l4 s =>
  .ok ({ klast := c, masked := m - c, nan := valid.any fun x => (fp32.unpack x.conf).isNan
         dovf := decide (umeDlcap reg < fresh_.length), read := n, drop := n - v
         written := listed.length, total := fresh_.length }, l4) s

/-- A round may be performed: the issuer's release wait is over, and no earlier request of the die's engine is left
(R382, R385). -/
def roundReady (s : State) (r : UmeReq) : Bool :=
  s.engineAcked r.tid r.core r.id 2 && !(s.steps.any fun e => match e with
    | .umeRoundExecution q | .umeRoundCompletion q => q.die == r.die && decide (q.id < r.id)
    | _ => false)

/-- UME_ROUND_EXECUTION (R377): refused (R382), or the whole round, which a fault stops. -/
def execUmeRoundExecution (r : UmeReq) (s : State) : Outcome State Fault Refusal :=
  perform "UME_ROUND_EXECUTION" (.umeRoundExecution r) (roundReady s r) s fun s =>
    let s := s.engineRelease r.tid r.core 2
    let c := s.umeCtx r.die r.ctx
    let n := r.arg.toNat
    let finish := fun (s : State) (v : W64) => s.push (.umeRoundCompletion { r with status := v })
    if !umeOwned c r.asid then finish s 1
    else if r.status = 2 then finish s 2
    else if umeCcap c.reg < n then finish s 3
    else match umeRunRound (umeActor r) c.reg n s with
      | .ok (st, ls) s1 => finish (s1.setUme r.die r.ctx { c with pend := st, lines := ls }) 0
      | .err code ea s1 => finish s1 (tokenErr code ea)
      | .hold ea e => s.holdAt r.core r.asid ea e (.umeRoundExecution r)

/-- UME_ROUND_COMPLETION (R385): the written lines are visible at die scope and enter the issuer's touched-bank mask; the
token fills; the context shows the round (R383). A chunk of the issuer's deterministic launch that has read the context
meanwhile runs again (R384). -/
def execUmeRoundCompletion (r : UmeReq) (s : State) : Outcome State Fault Refusal :=
  perform "UME_ROUND_COMPLETION" (.umeRoundCompletion r) true s fun s =>
    let c := s.umeCtx r.die r.ctx
    let s1 :=
      if r.status = 0 then
        let reg := umePut (umePut c.reg 96 32 (umeIcons c.reg + r.arg.toNat)) 536 32 (umeRound c.reg + 1)
        let s1 := s.setUme r.die r.ctx { c with reg := reg, st := c.pend, bad := false, err := 0, pend := {}, lines := [] }
        (s1.enginePublish r.tid (r.die * 128) 1 c.lines).touchLines r.tid c.lines
      else if 4 ≤ r.status.toNat then s.setUme r.die r.ctx { c with bad := true, err := r.status.extractLsb' 56 8 }
      else s
    let s2 := match s1.threads.find r.tid with
      | some th => if th.det then s1.recordCommit th.c.lid (({} : LineSet).add (umeLine r.die r.ctx)) false else s1
      | none => s1
    s2.modThread r.tid fun u => u.setX r.d r.status

end Sys2Proof.Machine
end

