-- ==== Sys2Proof/Machine/Service.lean ====
section
/-! DEFINITION. Halting, resuming and retiring cores (R121, R72, R460), cancelled waits (R43), pre-emption with its save and
its resume (R370-R373), the controller's answers to translation faults (R398, R399) and
lasting faults (R205, R459, R461). -/

namespace Sys2Proof.Machine

open Host (Outcome)

/-! ## Cancelled waits (R43) -/

/-- A sync access of a thread that is waited for. -/
def syncOf (t : Tid) : Instr → Option SyncReq
  | .syncAccessServe r => if r.tid = t then some r else none
  | _ => none

/-- A thread's queued boards leave the station; their names are empty again and their buffers free (R423). The bobbin's
claim, if any, goes at its next passage. -/
def State.cancelBoards (s : State) (t : Tid) (core : Nat) : State :=
  (s.core core).r.queue.foldl (fun a o =>
    match o.fn with
    | .board _ h buf =>
      if o.tid = t then
        ((a.modR core fun r => { r with queue := r.queue.filter fun x => x.id ≠ o.id }).setHoldBuf core buf {}).modThread t
          fun u => u.setHold h {}
      else a
    | _ => a) s

/-- Cancel what a parked thread waits for: its PC stays at the instruction, which is issued again in full; one whose
request has been served meanwhile is over. -/
def State.cancelWait (s : State) (t : Tid) : State :=
  match s.threads.find t with
  | none => s
  | some th =>
    if (th.mo.waitId ≠ 0 ∨ th.gm) ∧ th.mo.acquired then
      s.setThread t ({ th.retire with mo := { th.mo with acquired := false, waitId := 0, syncErr := none } }.wakeAt s.cycle)
    else
      let req := s.pool.findSome? (syncOf t)
      let s1 := { s with
        pool := s.pool.filter fun i => match i with
          | .syncAccessServe r | .syncRetryLimit r => r.tid != t
          | _ => true }
      let s2 := (s1.dropRelease t).cancelBoards t th.core
      s2.modThread t fun u =>
        let v := { u with mo := { u.mo with waitId := 0, acquired := false, acts := false, syncErr := none, reply := none } }
        let w := match req with
          | some r => if r.store then v else v.setX r.d (v.x r.d)
          | none => v
        match w.run with
        | .parked (.request _) | .parked .release => w.wakeAt s.cycle
        | _ => w

/-- A formed gang waits: its leader's word lost its latest turn, for one member or more, and the others wait with it (R290). -/
def State.gangWaits (s : State) (th : Thread) : Bool :=
  match (if th.gm then th.gang else none) with
  | some g => (s.threads.find g.leader).any Thread.gangWait
  | none => false

/-- A formed gang counts as parked: every member waited in its latest turn (R290). -/
def State.gangParked (s : State) (th : Thread) : Bool :=
  match (if th.gm then th.gang else none) with
  | some g => (s.threads.find g.leader).any fun l => l.gangWait && l.gangIdle
  | none => false

/-- Cancel what a thread that stops waits for (R43). What a gang's word has already done for one member (a served access, a
barrier arrival) stays done: the gang issues the word again on resume, and that member's part is not done twice (log entry 60). -/
def State.cancelForStop (s : State) (t : Tid) : State :=
  if (s.threads.find t).any fun th => th.gm && th.mo.acquired then s else s.cancelWait t

/-! ## Retirement (R460) -/

/-- The steps in flight of a thread that is ended go, but for what memory still owes: an atomic performs and answers
nobody. -/
def State.dropAccesses (s : State) (t : Tid) : State :=
  let f := fun (i : Instr) => match i with
    | .loadCompletion r => if r.tid = t then none else some i
    | .syncAccessServe r | .syncRetryLimit r => if r.tid = t then none else some i
    | .migrationDeparture u _ | .translationProbe u | .allocationClearDone u | .codeRefusal u _ | .regionSquash u |
      .releaseProbeEcho u _ | .signaturePlacement u _ => if u = t then none else some i
    | .atomicAtHome a => if a.tid = t then some (.remoteUpdate a) else some i
    | _ => some i
  { s with
    pool := s.pool.filterMap f
    dies := s.dies.map fun (e : Nat × Die) =>
      (e.1, { e.2 with held := e.2.held.filterMap fun h => (f h.ev).map fun i => { h with ev := i } }) }

/-- GM falls in every member of a gang that is about to end (R289). -/
def State.disarm (s : State) (ms : List Tid) : State := ms.foldl (fun a m => a.modThread m fun u => u.setBit 20 false) s

/-- A gang loses a member by retirement: it disbands, its waits are cancelled, and each other member takes cause
0x0F (R72). -/
def State.breakGang (s : State) (t : Tid) (th : Thread) : State :=
  match th.gang with
  | none => s
  | some g =>
    if !g.formed then
      -- a pending gang: the joined members wait no longer
      g.members.foldl (fun a m => a.modThread m fun u => { u with gang := none, run := (u.wakeAt s.cycle).run }) s
    else
      let idx := th.core % g.size
      -- a core that the leader parked at a reserved word goes on at the members' traps when it is resumed
      let s0 := g.members.foldl (fun a m => match a.threads.find m with
        | some u => a.modK u.core fun k => if k.reserver = some g.leader then { k with reserver := none } else k
        | none => a) s
      let s1 := (g.members.foldl State.cancelWait s0).disarm g.members
      let s2 := g.members.foldl (fun a m =>
        if m = t then a else match a.threads.find m with
          | some u => a.gangTrap m idx u.c.pc
          | none => a) s1
      s2.disband g.members

/-- Put an ordinal at the head of a walker of its launch that serves a core in placement (R460): the one that gave it where
it does, else the lowest. -/
def State.requeue (s : State) (lid : W16) (ord : Nat) (from_ : Option Nat) : State :=
  let s1 := match from_ with
    | some w =>
      let x := s.walker w
      if x.active && x.lid == lid then s.setWalker w { x with inflight := x.inflight.erase ord } else s
    | none => s
  let ok := fun (e : Nat × Walker) => e.2.cores.any fun c => s.placed c
  let ws := s1.walkersOf lid
  let own := ws.find? fun e => some e.1 = from_
  let pick := match own.filter ok with
    | some e => some e
    | none => match ws.find? ok with
      | some e => some e
      | none => own
  match pick with
  | some (w, x) => s1.setWalker w { x with head := ord :: x.head }
  | none => s1

/-- A walker that lost its last tile in flight to another may be free. -/
def State.freeWalkers (s : State) (lid : W16) : State := (s.walkersOf lid).foldl (fun a e => a.freeIfDone e.1) s

/-- A deterministic launch with a task on a retired core is cancelled, and the event is reported (R460). -/
def State.cancelDet (s : State) (lid : W16) : State :=
  match s.rec? lid with
  | some r => if restState r.state ∨ r.state = 5 then s else (s.cancelRecord lid r).send (.event (.launchCancelled lid))
  | none => s

/-- End a task on a retired core (R460 items 2 to 4). -/
def State.evict (s : State) (t : Tid) : State :=
  match s.threads.find t with
  | none => s
  | some th =>
    let lid := th.c.lid
    let s1 := ((s.breakGang t th).cancelWait t).dropAccesses t
    match s1.threads.find t with
    | none => s1
    | some u =>
      let s2 := (s1.endPriority t u.core).dismiss t u
      if u.sup then s2.modCluster (clusterOf u.core) fun c => if c.supTid = some t then { c with supTid := none } else c
      else
        let s3 := (s2.modRec lid fun r => r.put 100 2 (r.f 100 2 + 1)).modPkg fun p =>
          { p with admitted := p.admitted.filter fun e => !(e.1 == lid && e.2 == u.c.ord) }
        let s4 := if u.det then s3.cancelDet lid
          else if u.lau.tile then (s3.requeue lid u.c.ord.toNat u.lau.walker).freeWalkers lid else s3
        s4.checkComplete lid

/-- A start that was on its way to a retired core is handed out again. -/
def State.divert (s : State) (r : TaskReq) : State :=
  let s1 := { s with pool := s.pool.erase (.taskStart r) }.modPkg fun p =>
    { p with admitted := p.admitted.filter fun e => !(e.1 == r.lid && e.2 == r.ord) }
  if r.slot.isSome then s1.cancelDet r.lid else (s1.requeue r.lid r.ord.toNat r.walker).freeWalkers r.lid

/-- Threads resident on a core. -/
def State.residents (s : State) (core : Nat) : List Tid := s.threads.filterMap fun e =>
  if e.2.core == core && (match e.2.run with | .travelling _ => false | _ => true) then some e.1 else none
/-- End every thread of a core, those that take a freed context from its arrival queue of 16 too. -/
def State.evictAll (s : State) (core : Nat) : Nat → State
  | 0 => s
  | n + 1 => State.evictAll ((s.residents core).foldl State.evict s) core n

/-- Take a core out of placement (R460), once the configuration block has it (R457): later posts to it are refused, its tasks are ended and handed out again. -/
def State.retireCore (s : State) (core : Nat) : State :=
  let s0 := s.modK core fun k => { k with mode := .retired, reserver := none, fpHeld := [], fpRep := none }
  let s1 := { s0 with pool := s0.pool.erase (.heldFpTrapDelivery core) }
  let starts := s1.pool.filterMap fun i => match i with
    | .taskStart r => if r.core = core then some r else none
    | _ => none
  (((starts.foldl State.divert s1).evictAll core 17).record (.part (.core core))).send (.event (.coreRetired core))

/-- A walker of a retired cluster hands what is left to a free walker of a cluster in placement, else to the head of another walker
of its launch that serves a core in placement (R460). -/
def State.handOver (s : State) (w : Nat) : State :=
  let x := s.walker w
  if !x.active then s
  else match s.rec? x.lid with
    | none => s.setWalker w {}
    | some r =>
      let cores := s.placedCores r
      match (cores.map clusterOf).eraseDups.findSome? s.freeWalker with
      | some f => (s.setWalker w {}).setWalker f { x with cores := cores.filter fun c => clusterOf c == f / 32 * 16 + f % 32 / 2 }
      | none =>
        match (s.walkersOf x.lid).find? fun e => e.1 != w && e.2.cores.any fun c => s.placed c with
        | some (v, y) => (s.setWalker w {}).setWalker v { y with
            head := x.head ++ (List.range (x.fin - x.cursor)).map (fun i => x.cursor + i) ++ y.head, inflight := y.inflight ++ x.inflight }
        | none => s
/-- Retire a cluster (R460): its eight cores, its two walkers and its barrier leaf. -/
def State.retireCluster (s : State) (k : Nat) : State :=
  let s1 := (List.range 8).foldl (fun a c => if a.coreMode (8 * k + c) = .retired then a else a.retireCore (8 * k + c)) s
  let w := k / 16 * 32 + k % 16 * 2
  (((s1.handOver w).handOver (w + 1)).record (.part (.cluster k))).send (.event (.clusterRetired k))

/-- A part that fails in service and whose failure the controllers have not recorded (R459, R462). -/
def State.mayFail (s : State) : FailedPart → Bool
  | .core c => decide (c < 512) && s.coreMode c != .retired
  | .cluster k => decide (k < 64) && (List.range 8).any fun c => s.coreMode (8 * k + c) != .retired
  | .l2Sets d _ => decide (d < 4)
  | .ordering d => decide (d < 4) && !(s.die d).failed
  | .ringRow bs => bs.all fun b => decide (b < 4096)
  | .payload b => decide (b < 4096)
  | .metadata b c => decide (b < 4096) && decide (c < 512)
/-- What the failure of a part does (R205, R425, R460, R462): a core posts its core fault and is retired; so is each core of a
cluster; sets of an L2 are disabled; a die whose ordering fails leaves placement; the bobbins of a row of ring storage are in no
window any more; a bobbin's payload is poisoned, or the station posts a core fault for its metadata. -/
def State.failPart (s : State) (p : FailedPart) : State :=
  match p with
  | .core c => ((s.modK c fun k => { k with mode := .faulted }).postCoreFault c 0).retireCore c
  | .cluster k => s.retireCluster k
  | .l2Sets d sets => ((s.modDie d fun x => { x with
      l2Off := (x.l2Off ++ sets).eraseDups
      l2 := x.l2.filter fun e => !sets.contains e.1 }).record (.part p)).send (.event (.l2Retired d sets))
  | .ordering d => ((s.modDie d fun x => { x with failed := true }).record (.part p)).send (.event (.dieFailed d))
  | .ringRow bs => (({ s with ring := { s.ring with retired := (s.ring.retired ++ bs).eraseDups } }).record (.part p)).send
      (.event (.ringRetired bs))
  | .payload b => s.setBob b { s.bob b with meta_ := (s.bob b).meta_ ||| (1#64 <<< 62) }
  | .metadata b c => s.postCoreFault c (BitVec.ofNat 64 b)

/-- CORE_LASTING_FAULT (R205, R425, R459, R462): a part fails for good. The event comes from outside the machine's own steps, or
from a word that fails again after it has been rewritten. -/
def execCoreLastingFault (p : FailedPart) (s : State) : Outcome State Fault Refusal :=
  if s.mayFail p then .next (s.failPart p) else .refused (.notOffered "CORE_LASTING_FAULT")

/-! ## `task.halt` (R121) -/

/-- The cores that halt with a core: those of every formed gang that has a member on it (R121). -/
def State.haltGroup (s : State) (core : Nat) : List Nat :=
  core :: (s.threads.filter fun e => e.2.core == core && e.2.gm).flatMap fun e =>
    (e.2.gang.map fun g => g.members.filterMap fun m => (s.threads.find m).bind fun u =>
      if u.core = core then none else some u.core).getD []
/-- Halt a core: its threads stop at their next instruction boundary, and their waits are cancelled. -/
def State.haltCore (s : State) (core : Nat) : State :=
  if s.coreMode core ≠ .running then s
  else
    let s1 := s.modK core fun k => { k with mode := .halted }
    (s1.threads.filterMap fun e => if e.2.core = core then some e.1 else none).foldl State.cancelForStop s1
/-- Every producer of a core's threads has completed. -/
def State.coreQuiet (s : State) (core : Nat) : Bool := s.threads.all fun e => e.2.core != core || s.producersDone e.1 e.2

/-- The core that a `task.halt` names. -/
def haltTarget (th : Thread) (a : W64) : Nat := th.core / 8 * 8 + (a.extractLsb' 0 3).toNat
/-- The forms of `task.halt`: a supervisor's own, refused for core 7 and for a retired core. `acquired` marks an action that has
begun: it completes before a save (R138). -/
def haltForm (sa : BitVec 5) (sd : BitVec 4) (k : Nat → CoreMode → State → Thread → Except Wait (State × W64)) (s : State) :
    Outcome State Fault Refusal :=
  issue { sup := true, srcs := [sa], dsts := [sd] } s fun s t th =>
    let c := haltTarget th (th.src sa)
    let fin := fun (a : State) (v : W64) => Res.done (a.modThread t fun u =>
      { u.retire.setX sd v with mo := { u.mo with acquired := false } })
    if c % 8 = 7 then fin s 1
    else if s.coreMode c = .retired then fin s 2
    else match k c (s.coreMode c) s th with
      | .error w => .park (((s.haltGroup c).foldl State.haltCore s).modThread t fun u =>
          { u with mo := { u.mo with acquired := true } }) w
      | .ok (a, v) => fin a v

/-- `task.halt` with action 0. -/
def execTaskHaltHalt (sa : BitVec 5) (sd : BitVec 4) (s : State) : Outcome State Fault Refusal :=
  haltForm sa sd (fun c m s _ =>
    if m ≠ .running ∧ s.coreQuiet c then .ok (s, 0)
    else
      let s1 := (s.haltGroup c).foldl State.haltCore s
      if (s.haltGroup c).all s1.coreQuiet then .ok (s1, 0) else .error (.halt c)) s
/-- `task.halt` with action 1 (R72): after a reserved encoding the decoding thread goes on at the word after it. -/
def execTaskHaltResume (sa : BitVec 5) (sd : BitVec 4) (s : State) : Outcome State Fault Refusal :=
  haltForm sa sd (fun c (m : CoreMode) s _ =>
    if m = .running then .ok (s, 3)
    else
      let s1 := match (s.core c).k.reserver with
        | some t => s.modThread t fun u => if m = CoreMode.faulted then u.setPc (u.c.pc + 1) else u
        | none => s
      .ok (s1.modK c fun k => { k with mode := .running, reserver := none }, 0)) s
/-- `task.halt` with action 2 (R121, R460). -/
def execTaskHaltRetire (sa : BitVec 5) (sd : BitVec 4) (s : State) : Outcome State Fault Refusal :=
  haltForm sa sd (fun c m s _ => if m = .running then .ok (s, 4) else .ok (s.retireCore c, 0)) s

/-! ## Pre-emption: the stop (R370) -/

/-- The live mask of the safe point that a thread stands at (R106). -/
def State.safeMask (s : State) (th : Thread) : Option W64 :=
  (s.loadedImage th.c.asid th.c.img).bind fun i => (i.safe.find? fun e => e.1 == th.c.pc.toNat).map fun e => e.2

/-- HELD names of a thread that halts become LOST with detail 2 and hold no buffer; their holds are cleared at the bobbins' next
passages (R411, R423). -/
def State.loseHolds (s : State) (t : Tid) : State :=
  match s.threads.find t with
  | none => s
  | some th => th.holds.foldl (fun a e =>
      if e.2.st = .held then
        let h := BitVec.ofNat 2 e.1
        ((a.ringQueue t th.core e.2.bobbin (.drop h e.2.buf)).setHoldBuf th.core e.2.buf {}).modThread t fun u =>
          u.setHold h { e.2 with st := .lost, why := 2 }
      else a) s

/-- Stop a thread: a parked one's wait is cancelled, a `task.park` completes (R120), a hold of R228 is cancelled (R229). -/
def State.stopThread (s : State) (t : Tid) : State :=
  match s.threads.find t with
  | none => s
  | some th =>
    let sup := th.parkedSup
    let s0 := s.dropHold t th.core
    let s1 := match th.run with
      | .parked .token => s0.setThread t th.retire
      | _ => s0
    ((s1.cancelForStop t).loseHolds t).modThread t fun u => { u with run := .stopped sup, gangWait := false, gangIdle := false }

/-- A wait that ends before a save: its word completes (R138, R324). -/
def Wait.finishes : Wait → Bool
  | .merge | .echo | .halt _ => true
  | _ => false
/-- A word of a cache form that one of the threads has begun (R324). -/
def State.midForm (s : State) (ts : List Tid) : Bool := ts.any fun m => (s.threads.find m).any fun u => u.mo.acts
/-- A core runs every thread of a chunk or a gang. -/
def State.allRun (s : State) (ts : List Tid) : Bool :=
  ts.all fun m => (s.threads.find m).any fun u => s.coreMode u.core == .running
/-- Threads of a package whose pre-emption has been requested stop when they are parked, but for waits that finish first, or
when their gang waits in its slots, but for a cache form that one of its members has begun (R324, R370). -/
def State.stopParked (s : State) : State :=
  (s.threads.filterMap fun e => match e.2.run with
    | .parked w => if w.finishes then none else some e.1
    | .ready _ | .slot _ => if s.gangWaits e.2 && !s.midForm (e.2.chunkOf e.1) then some e.1 else none
    | _ => none).foldl State.stopThread s

/-- PREEMPTION_REQUEST (R370): no task starts and no tile is handed out from now on; a parked thread stops at once. The
event comes from outside, or from a management command. -/
def execPreemptionRequest (s : State) : Outcome State Fault Refusal :=
  if s.pkg.pre ≠ .none then .refused (.notOffered "PREEMPTION_REQUEST")
  else
    .next (s.modPkg fun p => { p with pre := .requested s.cycle }).stopParked

/-- The threads that stop together: the members of a formed gang (R293). -/
def stopTogether (t : Tid) (th : Thread) : List Tid := th.chunkOf t
/-- A thread that is about to issue. -/
def Thread.issuing (th : Thread) (t : Tid) : Bool :=
  !th.follows t && (match th.run with | .ready _ | .slot _ => true | _ => false)
/-- Stop threads at a boundary; a hold of R228 is cancelled (R229). -/
def State.stopAll (s : State) (ts : List Tid) : State :=
  ts.foldl (fun a t => match a.threads.find t with
    | some th => ((a.dropHold t th.core).loseHolds t).modThread t fun u => { u with run := .stopped false, lent := false }
    | none => a) s

/-- PREEMPT_SAFE_POINT_STOP (R370): a thread about to issue a word marked as a safe point stops without issuing it. -/
def execPreemptSafePointStop (t : Tid) (s : State) : Outcome State Fault Refusal :=
  match s.pkg.pre, s.threads.find t with
  | .requested _, some th =>
    if th.issuing t && (s.safeMask th).isSome then .next (s.stopAll (stopTogether t th))
    else .refused (.notOffered "PREEMPT_SAFE_POINT_STOP")
  | _, _ => .refused (.notOffered "PREEMPT_SAFE_POINT_STOP")

/-- PREEMPT_TIMEOUT_STOP (R370): 3,000 cycles after the request a thread stops at its next instruction boundary. -/
def execPreemptTimeoutStop (t : Tid) (s : State) : Outcome State Fault Refusal :=
  match s.pkg.pre, s.threads.find t with
  | .requested at_, some th =>
    if th.issuing t && decide (at_ + 3000 ≤ s.cycle) then .next (s.stopAll (stopTogether t th))
    else .refused (.notOffered "PREEMPT_TIMEOUT_STOP")
  | _, _ => .refused (.notOffered "PREEMPT_TIMEOUT_STOP")

/-! ## Pre-emption: the save (R371) -/

/-- Pad with zero bytes to a multiple of `k`. -/
def padTo (k : Nat) (l : List W8) : List W8 := l ++ List.replicate (roundUp l.length k - l.length) 0

/-- Write bytes to global memory of an ASID, line by line at their homes; a line without a translation is left out. -/
def State.writeArea (s : State) (asid : W16) : Nat → W64 → List W8 → State
  | 0, _, _ => s
  | fuel + 1, ea, l =>
    if l.isEmpty then s
    else
      let n := 64 - ea.toNat % 64
      let s1 := match resolve 0 ea with
        | some (.glob space va) =>
          match s.keyOf asid space va with
          | some k => s.writeHome k (min n l.length) (ofBytes (l.take n))
          | none => s
        | _ => s
      State.writeArea s1 asid fuel (ea + BitVec.ofNat 64 n) (l.drop n)
/-- Read bytes of global memory of an ASID; a line without a translation reads zero. -/
def State.readArea (s : State) (asid : W16) : Nat → W64 → Nat → List W8
  | 0, _, _ => []
  | fuel + 1, ea, n =>
    if n = 0 then []
    else
      let k := min n (64 - ea.toNat % 64)
      let v := match resolve 0 ea with
        | some (.glob space va) => (match s.keyOf asid space va with | some x => s.rd x k | none => 0)
        | _ => 0
      leBytes k v ++ State.readArea s asid fuel (ea + BitVec.ofNat 64 k) (n - k)
def State.areaNat (s : State) (asid : W16) (ea : W64) (off n : Nat) : Nat :=
  ofBytes (s.readArea asid (n / 64 + 2) (ea + BitVec.ofNat 64 off) n)

/-- Full/empty bits of `n` words of scratchpad, from bit 0. -/
def State.feBits (s : State) (core base : Nat) (n : Nat) : Nat :=
  (List.range n).foldr (fun i a => (if s.feFull core (base + 4 * i) then 1 else 0) + 2 * a) 0

/-- The vector registers, masks and accumulators that a live mask names, with how many of each: a register number and its
bytes (R371). -/
def liveParts (live : W64) (accs : Nat) : List (Nat × Nat × Nat) :=
  ((List.range 32).filterMap fun i => if live.getLsbD (16 + i) then some (0, i, 512) else none) ++
    ((List.range 7).filterMap fun i => if live.getLsbD (49 + i) then some (1, i + 1, 16) else none) ++
    ((List.range accs).filterMap fun i => if live.getLsbD (56 + i) then some (2, i, 16384) else none)

/-- A part of a thread's vector state or accumulators; zero in a thread that has none. -/
def State.partValue (s : State) (th : Thread) (kind i : Nat) : Nat :=
  match kind with
  | 0 => if th.vx then (s.vreg th (BitVec.ofNat 5 i)).toNat else 0
  | 1 => if th.vx then (s.mask th (BitVec.ofNat 3 i)).toNat else 0
  | _ => ((s.core th.core).e.acc.getD (th.lau.accs.getD i 0) 0).toNat
def State.setPart (s : State) (th : Thread) (kind i v : Nat) : State :=
  match kind with
  | 0 => if th.vx then s.setVreg th (BitVec.ofNat 5 i) (BitVec.ofNat 4096 v) else s
  | 1 => if th.vx then s.setMask th (BitVec.ofNat 3 i) (BitVec.ofNat 128 v) else s
  | _ => match th.lau.accs[i]? with
    | some a => s.modE th.core fun e => { e with acc := e.acc.put 0 a (BitVec.ofNat 131072 v) }
    | none => s

/-- The context that a save holds: a follower's PC is its resume point (R293). -/
def Thread.savedCtx (th : Thread) (t : Tid) : Ctx :=
  match (if th.follows t then th.gang else none) with
  | some g => { th.c with pc := g.resume, img := g.resumeImg }
  | none => th.c

/-- A context under a live mask (R107): of a scalar register that the mask leaves out nothing is saved; it is zero and full. -/
def Ctx.under (c : Ctx) (live : W64) : Ctx :=
  { c with
    x := (List.range 16).foldl (fun (v : Vector W64 16) i =>
      if live.getLsbD i then v else v.set (i % 16) 0 (Nat.mod_lt _ (by decide))) c.x
    fe := c.fe ||| ~~~(live.extractLsb' 0 16) }
/-- The sparsity streams `sk0` to `sk3` of a core (R277), in bytes 224 to 255 of a task record; the layout is the model's (log
entry 14). -/
def State.skRecord (s : State) (core : Nat) : Nat :=
  (List.range 4).foldl (fun a i => a + ((s.core core).e.sk.getD i 0).toNat * 2 ^ (64 * i)) 0
/-- The gang record of a leader's context (R293) from byte 216 of its task record: size, slot, group (the lowest core), the
leader's core; the layout is the model's (log entry 14). -/
def gangRecord (t : Tid) (th : Thread) : Nat :=
  match (if th.gm then th.gang else none) with
  | some g => if g.leader = t then
      g.size + g.slot * 2 ^ 8 + (th.core / g.size * g.size) * 2 ^ 16 + th.core * 2 ^ 32
    else 0
  | none => 0

/-- A task record (R371): header, the parts that LIVE names, the scratchpad and its full/empty bits, which lie on the core that
created the task, wherever a mobile one now stands. -/
def State.taskRecord (s : State) (t : Tid) (th : Thread) (live : W64) (safe : Bool) : List W8 :=
  let c := (th.savedCtx t).under live
  let f := fun (off v : Nat) => v <<< (8 * off)
  let sfl := (if safe then 1 else 0) + (if th.gm then 2 else 0) + (if th.ih then 4 else 0)
  let head := (packCtx c).toNat + f 160 c.cvc.toNat + f 164 th.core + f 166 (th.slotNo % 16) + f 167 sfl +
    f 168 live.toNat + f 176 c.shadow.toNat + f 184 c.ecause.toNat + f 186 c.epc.toNat + f 192 c.eval.toNat +
    f 200 (if c.wake then 1 else 0) + f 208 c.evec.toNat + f 216 (gangRecord t th) + f 224 (s.skRecord th.core)
  let parts := (liveParts live th.lau.accs.length).flatMap fun p => leBytes p.2.2 (s.partValue th p.1 p.2.1)
  let words := th.lau.spLen / 4
  let home := t / 64
  leBytes 256 head ++ parts ++ leBytes th.lau.spLen (s.rd (spKey home th.lau.spBase) th.lau.spLen) ++
    leBytes ((words + 7) / 8) (s.feBits home th.lau.spBase words)

/-- A walker record (R371). -/
def walkerRecord (r : Rec) (w : Nat) (x : Walker) : List W8 :=
  let inf := sortNat x.inflight
  let f := fun (off v : Nat) => v <<< (8 * off)
  let served := x.cores.foldl (fun a c => a ||| 2 ^ (c % 8)) 0 + (w % 32 / 2) * 2 ^ 8 + (w / 32) * 2 ^ 12
  padTo 64 (leBytes 64 (w + f 2 inf.length + f 4 x.cursor + f 8 x.fin + f 12 r.order + f 13 r.dims + f 16 served) ++
    inf.flatMap fun o => leBytes 4 o)

/-- The walker records of a launch, behind the header (R371). -/
def State.walkerBytes (s : State) (lid : W16) (r : Rec) : List W8 := (s.walkersOf lid).flatMap fun e => walkerRecord r e.1 e.2
/-- Task records, each at a multiple of 256 bytes, from an offset on: the offsets and the bytes. -/
def State.taskRecords (s : State) (at_ : Nat) (tasks : List (Tid × W64 × Bool)) : List (Tid × Nat) × List W8 :=
  tasks.foldl (fun (a : List (Tid × Nat) × List W8) e => match s.threads.find e.1 with
    | some th =>
      let l := padTo 256 a.2
      (a.1 ++ [(e.1, at_ + l.length)], l ++ s.taskRecord e.1 th e.2.1 e.2.2)
    | none => a) ([], [])
/-- The save area of a launch: `tasks` are its threads with their live masks and whether each stands at a safe point. -/
def State.saveBytes (s : State) (lid : W16) (r : Rec) (tasks : List (Tid × W64 × Bool)) : List W8 :=
  let d := s.pkg.det.getD lid.toNat {}
  let ws := s.walkersOf lid
  let body := s.walkerBytes lid r
  let pre := padTo 256 (List.replicate 64 0 ++ body)
  let recs := (s.taskRecords pre.length tasks).2
  let total := if tasks.isEmpty then 64 + body.length else pre.length + recs.length
  let f := fun (off v : Nat) => v <<< (8 * off)
  let det := if r.det then f 12 d.round + f 16 d.lane + f 24 d.next.toNat else 0
  leBytes 64 (0x45564153 + f 4 1 + f 6 ws.length + f 8 tasks.length + det + f 32 total) ++
    (if tasks.isEmpty then body else pre.drop 64 ++ recs)

/-- A step in flight that a pre-emption waits for (R43). -/
def awaited (s : State) : Instr → Bool
  | .loadCompletion _ | .storePerformAtHome _ | .atomicAtHome _ | .remoteUpdate _ | .migrationDeparture _ _ |
    .copyEngineStart _ | .copyCompletion _ | .umeCfgBlockRead _ | .umeRoundExecution _ | .umeRoundCompletion _ |
    .translationProbe _ | .resumeMessage _ | .clusterControlWrite _ | .clusterControlRead _ | .launchCompletion _ => true
  | .mailboxDelivery p => p.d.isSome
  | .migrationArrival m => arriveReady s m
  | _ => false
/-- A supervisor whose own core a `task.halt` has halted through a gang completes that word (R121, R138). -/
def State.finishesHalt (s : State) (th : Thread) : Bool := s.coreMode th.core == .halted && th.mo.acquired && !th.gm
/-- Every thread has stopped, or stops at its wait, or it or a member of its gang stands on a core that does not run, so that no
turn comes; one that waits for a context is in an arrival queue. -/
def State.settled (s : State) (e : Tid × Thread) : Bool :=
  match e.2.chunk.ended with
  | .ring _ => false
  | _ => match e.2.run with
    | .stopped _ => e.2.mo.probe.isNone && !e.2.lau.clearing
    | .parked w => !w.finishes || s.coreMode e.2.core != .running && !s.finishesHalt e.2
    | .travelling _ => e.2.mo.probe.isNone
    | .ready _ | .slot _ => !s.allRun (e.2.chunkOf e.1) && !s.finishesHalt e.2
    | _ => false
/-- A core's engines and station have completed what was accepted, and filled its registers; boards are cancelled (R277, R423). -/
def coreDone (c : Core) : Bool :=
  c.e.queue.isEmpty && (c.e.eng.all fun b => b.2.stage.isNone) && (c.r.fills.all fun f => f.req.isSome) && c.r.queue.all fun o => match o.fn with
    | .board _ _ _ => true
    | _ => false
/-- The save may be made (R43, R399, R277, R384, R423). -/
def saveReady (s : State) : Bool :=
  (match s.pkg.pre with | .requested _ => true | _ => false) && s.threads.all s.settled && !s.pool.any (awaited s) &&
    (s.dies.all fun d => d.2.held.isEmpty) && s.cores.all fun c => coreDone c.2

/-- A waiting report of a gang member is taken at the halting boundary too (R141): the gang disbands, the others take cause
0x0F, a follower at its resume point and the leader at its next word (R292). -/
def State.gangReports (s : State) (t : Tid) : State :=
  match s.threads.find t with
  | none => s
  | some th =>
    match (if th.gm then th.gang else none) with
    | none => s
    | some g =>
      let owes := fun (m : Tid) => (s.threads.find m).any fun u => !u.mo.deferred.isEmpty
      let ms := g.members.filter owes
      if g.leader ≠ t ∨ ms.isEmpty then s
      else
        let low := (ms.map fun m => ((s.threads.find m).map Thread.core).getD 0 % g.size).foldl min 8
        let s1 := (g.members.foldl State.cancelWait s).disarm g.members
        let next := ((s1.threads.find t).getD th).c.pc
        let s2 := (g.members.filter fun m => !owes m).foldl (fun a m => a.gangTrap m low next) s1
        let s3 := ms.foldl (fun a m => match a.threads.find m with
          | some u => (a.takeDeferred m u).getD a
          | none => a) s2
        s3.disband g.members

/-- Bring a thread to the boundary at which it is saved: a waiting report is taken (R141), an open region ends as a squash
(R340), an uncommitted chunk is discarded (R322); then its mask, where it stands at a safe point (R370). -/
def State.bringToSave (s : State) (t : Tid) : State × (Tid × W64 × Bool) :=
  let s1 := s.stopThread t
  match s1.threads.find t with
  | none => (s1, (t, BitVec.allOnes 64, false))
  | some th =>
    let s2 := (s1.takeDeferred t th).getD s1
    match s2.threads.find t with
    | none => (s2, (t, BitVec.allOnes 64, false))
    | some u =>
      let chunk := u.chunk.open_ || u.chunk.ended != .running
      let s3 := if chunk then s2.squashChunk t
        else match u.region with
          | some r => s2.restoreThread t u.closeRegion r.cp r.vsaved
          | none => s2
      let sup := u.parkedSup && !chunk && u.region.isNone
      let s4 := s3.modThread t fun v => { v with run := .stopped sup }
      let mask := if chunk || u.region.isSome || u.follows t then none else s4.safeMask u
      (s4, (t, mask.getD (BitVec.allOnes 64), mask.isSome))

/-- Where a task stands in its launch's save: core, then slot. -/
def State.saveOrder (s : State) (a b : Tid × W64 × Bool) : Bool :=
  match s.threads.find a.1, s.threads.find b.1 with
  | some x, some y => decide (x.slotNo < y.slotNo) || (x.slotNo == y.slotNo && decide (a.1 ≤ b.1))
  | _, _ => true

/-- Save one launch: its area is written, and its record becomes SUSPENDED. -/
def State.saveLaunch (s : State) (all : List (Tid × W64 × Bool)) (lid : W16) (r : Rec) : State :=
  let tasks := sortBy s.saveOrder (all.filter fun e => (s.threads.find e.1).any fun u => u.c.lid == lid && !u.sup)
  let bytes := s.saveBytes lid r tasks
  let s1 := s.writeArea r.asid (bytes.length / 64 + 2) r.save bytes
  ((s1.journal (lidDie lid) (.state lid)).setRec lid (r.setState 7)).modPkg fun p =>
    { p with saved := p.saved ++
        [(lid, r.state == 5, (s.taskRecords (roundUp (64 + (s.walkerBytes lid r).length) 256) tasks).1)] }

/-- The records that are armed, running or being cancelled. -/
def State.busyRecords (s : State) : List (W16 × Rec) :=
  (List.range 4).flatMap fun d => (s.die d).pantry.filterMap fun (e : Nat × BitVec 2048) =>
    if Rec.state e.2 = 1 ∨ Rec.state e.2 = 2 ∨ Rec.state e.2 = 5 then some (BitVec.ofNat 16 (d * 4096 + e.1), e.2) else none

/-- PREEMPTION_SAVE (R370-R372). -/
def execPreemptionSave (s : State) : Outcome State Fault Refusal :=
  if !saveReady s then .refused (.notOffered "PREEMPTION_SAVE")
  else
    let (s1, all) := (s.threads.map fun e => e.1).foldl (fun (a : State × List (Tid × W64 × Bool)) t =>
      match (a.1.threads.find t).map Thread.run with
      | some (.travelling _) => (a.1, a.2 ++ [(t, BitVec.allOnes 64, false)])
      | _ =>
        let (b, e) := a.1.bringToSave t
        (b, a.2 ++ [e])) ((s.threads.map fun e => e.1).foldl State.gangReports s, [])
    let s2 := s1.busyRecords.foldl (fun a e => a.saveLaunch all e.1 e.2) s1
    .next (s2.modPkg fun p => { p with pre := .saved })

/-! ## Pre-emption: the resume (R373) -/

/-- Restore a task from its record: scratchpad and full/empty bits first, then the registers under LIVE (R107); the wake
token is set (R120). A task whose core has left placement is gone, its ordinal handed out again (R373). -/
def State.restoreTask (s : State) (asid : W16) (ea : W64) (off : Nat) (t : Tid) : State :=
  match s.threads.find t with
  | none => s
  | some th =>
    let g := fun (o n : Nat) => s.areaNat asid ea (off + o) n
    let live : W64 := BitVec.ofNat 64 (g 168 8)
    let parts := liveParts live th.lau.accs.length
    let dataAt := off + 256
    let spAt := dataAt + (parts.map fun p => p.2.2).sum
    let words := th.lau.spLen / 4
    let feAt := spAt + th.lau.spLen
    let fe := s.areaNat asid ea feAt ((words + 7) / 8)
    let sp := s.areaNat asid ea spAt th.lau.spLen
    let home := t / 64
    let s1 := (s.zero (spKey home th.lau.spBase) th.lau.spLen).wr (spKey home th.lau.spBase) th.lau.spLen sp
    let s2 := (List.range words).foldl (fun a i =>
      if fe.testBit i then a else a.setFe home (th.lau.spBase + 4 * i) false)
      (s1.fillFe home th.lau.spBase th.lau.spLen)
    let s2 := s2.modE th.core fun e => { e with sk := (List.range 4).foldl (fun l i => l.put 0 i (BitVec.ofNat 64 (g (224 + 8 * i) 8))) e.sk }
    let c0 := unpackCtx (BitVec.ofNat 1280 (g 0 160)) th.c
    let c := { c0.under live with
      cvc := BitVec.ofNat 32 (g 160 4), shadow := BitVec.ofNat 64 (g 176 8)
      ecause := BitVec.ofNat 16 (g 184 2), epc := BitVec.ofNat 48 (g 186 6), eval := BitVec.ofNat 64 (g 192 8)
      evec := BitVec.ofNat 64 (g 208 8) }
    let gang := th.gang.map fun x => if x.leader = t then { x with size := g 216 1, slot := g 217 1 }
      else { x with resume := c.pc, resumeImg := c.img }
    let s3 := s2.setThread t { th with c := c, gang := gang }
    let s4 := (liveParts (BitVec.allOnes 64) th.lau.accs.length).foldl (fun a p => a.setPart th p.1 p.2.1 0) s3
    (parts.foldl (fun (a : State × Nat) p =>
      (a.1.setPart th p.1 p.2.1 (s.areaNat asid ea a.2 p.2.2), a.2 + p.2.2)) (s4, dataAt)).1

/-- Reload a launch's walkers from their records; an ordinal put back at a walker's head since the save is in flight no more
(R373). -/
def State.reloadWalkers (s : State) (asid : W16) (ea : W64) : Nat → Nat → State
  | 0, _ => s
  | n + 1, off =>
    let g := fun (o k : Nat) => s.areaNat asid ea (off + o) k
    let w := g 0 2
    let k := g 2 2
    let served := g 16 2
    let first := (served / 2 ^ 12 % 4 * 16 + served / 2 ^ 8 % 16) * 8
    let x := s.walker w
    let s1 := s.setWalker w { x with
      cursor := g 4 4, fin := g 8 4, inflight := ((List.range k).map fun i => g (64 + 4 * i) 4).filter fun o => !x.head.contains o
      cores := (List.range 8).filterMap fun i => if served.testBit i then some (first + i) else none }
    State.reloadWalkers s1 asid ea n (off + roundUp (64 + 4 * k) 64)

/-- Restore one launch: ARMED again when no task was saved, else RUNNING; one that was being cancelled is so again, the model's
choice (log entry 14). -/
def State.restoreLaunch (s : State) (lid : W16) (cancelling : Bool) (ts : List (Tid × Nat)) : State :=
  match s.rec? lid with
  | none => s
  | some r =>
    let ea := r.save
    let s0 := if r.det then s.modPkg fun p => { p with det := p.det.modD lid.toNat {} fun d =>
        { d with round := s.areaNat r.asid ea 12 4, lane := s.areaNat r.asid ea 16 2
                 next := BitVec.ofNat 64 (s.areaNat r.asid ea 24 8) } } else s
    let s1 := s0.reloadWalkers r.asid ea (s.areaNat r.asid ea 6 2) 64
    let s2 := ts.foldl (fun (a : State) e => a.restoreTask r.asid ea e.2 e.1) s1
    (s2.journal (lidDie lid) (.state lid)).modRec lid fun q =>
      q.setState (if cancelling then 5 else if s.areaNat r.asid ea 8 4 = 0 then 1 else 2)

/-- A thread goes on after a pre-emption: one that waited for its supervisor waits again, a member of a pending gang waits
in its slot; the wake token is set (R120). -/
def Thread.restart (th : Thread) (t : Tid) (now : Nat) : Thread :=
  let u := th.modC fun c => { c with wake := true }
  match u.run with
  | .stopped sup =>
    if sup then { u with run := .parked .supervisor, bslot := none }
    else match u.gang with
      | some g =>
        if g.formed then u.wakeAt now
        else if g.leader = t then { u with run := .parked .gangForm }
        else { u with run := .parked (.gangJoin (g.leader / 64)) }
      | none => u.wakeAt now
  | _ => u

/-- Followers of a formed gang stand at their leader's word (R293). -/
def State.rejoinGangs (s : State) : State :=
  s.threads.foldl (fun a e =>
    match (if e.2.follows e.1 then e.2.gang else none) with
    | some g => match a.threads.find g.leader with
      | some l => a.modThread e.1 fun u => u.modC fun c => { c with pc := l.c.pc, img := l.c.img }
      | none => a
    | none => a) s

/-- The resume itself: every launch that is still suspended is restored, a core parked by a reserved word decodes it again
(R72), and issue restarts on every core together. -/
def State.resumeAll (s : State) : State :=
  let s1 := s.pkg.saved.foldl (fun a e =>
    if (a.rec? e.1).any fun r => r.state == 7 then a.restoreLaunch e.1 e.2.1 e.2.2 else a) s
  let s2 := s1.rejoinGangs
  { s2 with
    pkg := { s2.pkg with pre := .none, saved := [] }
    threads := s2.threads.map fun (e : Nat × Thread) => (e.1, e.2.restart e.1 s2.cycle)
    cores := s2.cores.map fun (e : Nat × Core) =>
      (e.1, if e.2.k.mode = .faulted then
        { e.2 with k := { e.2.k with mode := .running, reserver := none } } else e.2) }

/-- PREEMPTION_RESUME (R373): a resume asked for before the save has completed waits for it. -/
def execPreemptionResume (s : State) : Outcome State Fault Refusal :=
  match s.pkg.pre with
  | .saved => .next { s with pool := s.pool.erase .preemptionResume }.resumeAll
  | .requested _ =>
    if s.pool.contains .preemptionResume then .refused (.notOffered "PREEMPTION_RESUME")
    else .next (s.push .preemptionResume)
  | .none => .refused (.notOffered "PREEMPTION_RESUME")

/-! ## Translation faults: the controller's answer (R398, R399) -/

/-- An address lies in a page that a die holds an access for, by the page's name (`pageName`), its ASID apart. -/
def inPage (core page : Nat) (ea : W64) : Bool :=
  let (space, va) := placeOfEa core ea
  space * 2 ^ 48 + va / 65536 * 65536 == page % 2 ^ 52
/-- The parts of a load whose addresses meet a condition fail with a cause's code (R141, R249). -/
def losePart (r : LoadReq) (code : Nat) (hit : W64 → Bool) : LoadReq :=
  { r with parts := r.parts.map fun p => if hit p.ea then { p with lost := code } else p }

/-- The transfer at the head of a queue goes on. -/
def releaseHead (fail : Bool) : List MmaOp → List MmaOp
  | o :: r => (if o.stage = .held then { o with stage := .started, pageFail := o.pageFail || fail } else o) :: r
  | [] => []
/-- A firing goes on. -/
def Binding.unhold (b : Binding) (fail : Bool) : Binding :=
  if b.stage = some .held then { b with stage := some .started, pageFail := b.pageFail || fail } else b

/-- A held step goes on: `fail` says that its page cannot be resolved. -/
def State.replay (s : State) (h : HeldFault) (fail : Bool) : State :=
  let bad : W64 := BitVec.allOnes 64
  match h.ev with
  | .accTransferCompletion c => s.modE c fun e => { e with queue := releaseHead fail e.queue }
  | .firingOperandsConsumed c i => s.modE c fun e => { e with eng := e.eng.map fun (b : Nat × Binding) => if b.1 = i then (i, b.2.unhold fail) else b }
  | .copyEngineStart r => s.push (.copyEngineStart (if fail then { r with status := bad } else r))
  | .umeCfgBlockRead r => s.push (.umeCfgBlockRead (if fail then { r with status := bad } else r))
  | .umeRoundExecution r => s.push (.umeRoundExecution (if fail then { r with status := bad } else r))
  | .loadCompletion r => s.push (.loadCompletion (if fail then losePart r 9 (inPage r.core h.page) else r))
  | .atomicAtHome a =>
    if fail then (s.modThread a.tid fun u => u.setX a.d 0).defer a.tid .page a.ea else s.push h.ev
  | .remoteUpdate a => if fail then s.defer a.tid .page a.ea else s.push h.ev
  | .storeBufferDrain cl id =>
    if fail then
      match drainEntry s cl id with
      | none => s
      | some e => s.failEntry cl e .page
    else s.push h.ev
  | .writeLogAppend c =>
    let s1 := if fail then s.modM c fun m => { m with wlog := m.wlog.drop 1 } else s
    if (s1.core c).m.wlog.isEmpty then s1 else s1.push (.writeLogAppend c)
  | .translationProbe t =>
    if fail then
      match s.threads.find t with
      | none => s
      | some th =>
        if th.moving then (s.setThread t { th with mo := { th.mo with probeFail := true } }).push h.ev
        else s.probeFails t th
    else s.push h.ev
  | .copyPeerArrival src _ dst _ _ tag => if fail then s.failCopy h.ev src tag 0x09 dst else s.push h.ev
  | .hostWrite _ _ _ _ => if fail then s else s.push h.ev
  | .hostRead _ _ n => if fail then s.send (.readData (List.replicate n 0xFF)) else s.push h.ev
  | i => s.push i

/-- Replay or end every access that a die holds for a page, in the order in which they arrived. -/
def State.answer (s : State) (die page : Nat) (fail : Bool) : State :=
  let hs := (s.die die).held.filter fun h => h.page == page && !h.waits
  let s1 := (s.modDie die fun d => { d with
    held := d.held.filter fun h => h.page != page || h.waits
    replays := d.replays ++ if fail then [] else hs.map fun h => (page, h.ev) }).journal die (.faultAnswer page)
  hs.foldl (fun a h => a.replay h fail) s1

/-- The controller can answer for a page (R398, R463). -/
def faultHeld (s : State) (die page : Nat) : Bool := s.ctlAlive die && (s.die die).held.any fun h => h.page == page && !h.waits

/-- FAULT_ANSWER_RETRY (R398): the controller installs an entry, if it names one, and the held accesses replay. -/
def execFaultAnswerRetry (die page : Nat) (entryAt : Option Nat) (entry : W64) (s : State) : Outcome State Fault Refusal :=
  if !faultHeld s die page then .refused (.notOffered "FAULT_ANSWER_RETRY")
  else
    let s1 := match entryAt with
      | some a => s.writeHome (physKey die a) 8 entry.toNat
      | none => s
    .next (s1.answer die page false)

/-- FAULT_ANSWER_FAIL (R398, R399): every held access to the page ends with cause 0x09. -/
def execFaultAnswerFail (die page : Nat) (s : State) : Outcome State Fault Refusal :=
  if !faultHeld s die page then .refused (.notOffered "FAULT_ANSWER_FAIL") else .next (s.answer die page true)

/-! ## Memory errors (R459, R461) -/

/-- An address lies in a line. -/
def State.inLine (s : State) (core : Nat) (asid : W16) (line : Nat) (ea : W64) : Bool :=
  match resolve core ea with
  | some (.glob space va) => (s.keyOf asid space va).any fun k => lineOf k == line
  | _ => false
/-- A step in flight with the failure of a line noted: loads lose the parts in it, and copies and the unmasking engine's reads end with
code 0x12 where they reach it (R203, R249, R381, R382). -/
def State.loseStep (s : State) (line : Nat) : Instr → Instr
  | .loadCompletion r => .loadCompletion (losePart r 18 (s.inLine r.core r.asid line))
  | .copyEngineStart r => .copyEngineStart { r with lost := r.lost ++ [line] }
  | .umeCfgBlockRead r => .umeCfgBlockRead { r with lost := r.lost ++ [line] }
  | .umeRoundExecution r => .umeRoundExecution { r with lost := r.lost ++ [line] }
  | i => i
/-- The engines' work in progress with the failure of a line noted: transfers of the matrix engine, and firings (R203). -/
def CoreEng.loseLine (e : CoreEng) (line : Nat) : CoreEng :=
  { e with
    queue := e.queue.map fun o => { o with lost := o.lost ++ [line] }
    eng := e.eng.map fun b => if b.2.stage.isNone then b else (b.1, { b.2 with lost := b.2.lost ++ [line] }) }
/-- Accesses in flight whose read of a line has failed report cause 0x12 (R141): the parts of a load in it are zero; an atomic
or a reduction changes nothing; an engine's operation ends with code 0x12 (R203). -/
def State.loseReads (s : State) (line : Nat) : State :=
  s.pool.foldl (fun a i => match i with
    | .atomicAtHome q => if s.inLine q.core q.asid line q.ea then
        ({ a with pool := a.pool.erase i }.modThread q.tid fun u => u.setX q.d 0).defer q.tid .memError q.ea
      else a
    | .remoteUpdate q => if s.inLine q.core q.asid line q.ea then
        { a with pool := a.pool.erase i }.defer q.tid .memError q.ea
      else a
    | _ => a) { s with
      pool := s.pool.map (s.loseStep line)
      dies := s.dies.map fun (e : Nat × Die) => (e.1, { e.2 with held := e.2.held.map fun h => { h with ev := s.loseStep line h.ev } })
      cores := s.cores.map fun (e : Nat × Core) => (e.1, { e.2 with e := e.2.e.loseLine line }) }

/-- The bytes of a line are lost: what later reads find is open (log entry 5). -/
def State.loseLine (s : State) (line : Nat) : State :=
  (List.range 8).foldl (fun a i =>
    let (v, b) := a.freeWord
    b.writeHome (line * 64 + 8 * i) 8 v.toNat) s

/-- Leaf entries of a table (R395): their addresses, entries and sizes; `n` levels to go. -/
def leavesOf (m : Tab W8) (die : Nat) : Nat → Nat → List (Nat × W64 × BitVec 2)
  | 0, _ => []
  | n + 1, base =>
    let size := if n = 0 then 256 else 4096
    let cells := (m.filter fun e => decide (physKey die base ≤ e.1) && decide (e.1 < physKey die (base + size))).map fun e =>
      (e.1 - physKey die base) / 8
    cells.eraseDups.flatMap fun i =>
      let at_ := base + 8 * i
      let e : W64 := BitVec.ofNat 64 (readLE m (physKey die at_) 8)
      if !e.getLsbD 0 then []
      else if e.getLsbD 1 then [(at_, e, if n = 2 then 2 else if n = 1 then 1 else 0)]
      else leavesOf m die n ((e.extractLsb' 8 44).toNat * 256)

/-- The roots of a die's translation tables (R394). -/
def State.rootsOf (s : State) (die : Nat) : List Nat :=
  let base := physKey die (s.die die).rootBase
  let cells := (s.mem.filter fun e => decide (base ≤ e.1) && decide (e.1 < base + 0x100000)).map fun e => (e.1 - base) / 8
  cells.eraseDups.map fun i => s.rd (base + 8 * i) 8

/-! ## Rows and pseudo-channels (R389, R459, R461) -/

/-- The stack of a die's address, and the offset in it (R389). -/
def stackOf (die pa : Nat) : Nat := 3 * die + pa / 256 % 3
def stackOffset (pa : Nat) : Nat := pa / 256 / 3 * 256 + pa % 256
/-- The pseudo-channel, with its stack, the bank and the row of an address: the parts' own (log entry 90). -/
def rowOf (die pa : Nat) : Nat × Nat × Nat :=
  let p := Config.hbmPlace (stackOf die pa) (stackOffset pa)
  (stackOf die pa + 16 * p.1, p.2.1, p.2.2)
/-- A 64 KiB frame has a granule in one of these pseudo-channels. -/
def frameIn (die : Nat) (chans : List Nat) (f : Nat) : Bool :=
  (List.range 256).any fun g => chans.contains (rowOf die (f * 65536 + 256 * g)).1

/-- The lowest run of `n` frames from `f` on, aligned to `n`, that no retired pseudo-channel touches (R461); `fuel` bounds the
search. -/
def freeFrames (die : Nat) (chans : List Nat) (n : Nat) : Nat → Nat → Nat
  | 0, f => f
  | k + 1, f => if (List.range n).any fun i => frameIn die chans (f + i) then freeFrames die chans n k (f + n) else f
/-- Frames of a die, `n` of 64 KiB aligned to their size: the next that are free (log entry 11). -/
def State.takeFrames (s : State) (die n : Nat) : Nat × State :=
  let d := s.die die
  let f := if d.chans.isEmpty then roundUp d.nextFrame n else freeFrames die d.chans n 3145728 (roundUp d.nextFrame n)
  (f * 65536, s.modDie die fun d => { d with nextFrame := f + n })

/-- Move a mapped page to spare frames (R461): its bytes are copied, its leaf is rewritten, and no die or core keeps the
old translation. -/
def State.movePage (s : State) (die : Nat) (leaf : Nat × W64 × BitVec 2) : State :=
  let n := pageBytes leaf.2.2
  let old := (leaf.2.1.extractLsb' 16 36).toNat * 65536
  let (new, s0) := s.takeFrames die (n / 65536)
  let src := physKey die old
  let moved := s0.mem.filter fun e => decide (src ≤ e.1) && decide (e.1 < src + n)
  let s1 := moved.foldl (fun a e => a.writeHome (physKey die new + (e.1 - src)) 1 e.2.toNat) s0
  let entry : W64 := (leaf.2.1 &&& 0xFFFF) ||| BitVec.ofNat 64 new
  let s2 := s1.writeHome (physKey die leaf.1) 8 entry.toNat
  let gone := fun (x : Xlat) => homeDie x.space.toNat x.vpage == die && x.entry.extractLsb' 16 36 == leaf.2.1.extractLsb' 16 36
  let s3 := s2.modDie die fun d => { d with tlb := d.tlb.filter fun x => !gone x }
  s3.cores.foldl (fun (a : State) e => (a.modM e.1 fun m =>
    { m with tcache := m.tcache.filter fun x => !gone x }).l1Drop e.1 fun _ => true) s3

/-- Retire a pseudo-channel (R461): none of its frames is free any more, and every mapped page that holds one moves. -/
def State.retireChannel (s : State) (die chan : Nat) : State :=
  let s1 := s.modDie die fun d => { d with chans := d.chans ++ [chan] }
  let ls := (s1.rootsOf die).flatMap fun r => if r = 0 then [] else leavesOf s1.mem die 4 r
  ((ls.eraseDups.filter fun l =>
    let f := (l.2.1.extractLsb' 16 36).toNat
    l.2.1.extractLsb' 6 2 == 0 && (List.range (pageBytes l.2.2 / 65536)).any fun i => frameIn die [chan] (f + i)).foldl
      (fun a l => a.movePage die l) s1).record (.channel die chan)

/-- Retire a row (R459): it is remapped to one of the 32 spare rows of its bank. Where they are used up, or the pseudo-channel has
retired 256 rows, the pseudo-channel is retired (R461). -/
def State.retireRow (s : State) (die pa : Nat) : State :=
  let k := rowOf die pa
  if (s.die die).rows.contains k ∨ (s.die die).chans.contains k.1 then s
  else
    let full := decide (32 ≤ (s.die die).rows.countP fun r => r.1 == k.1 && r.2.1 == k.2.1)
    let s1 := ((s.modDie die fun d => { d with rows := d.rows ++ [k] }).record (.row die pa)).send (.event (.rowRetired die pa))
    if full ∨ 256 ≤ (s1.die die).rows.countP fun r => r.1 == k.1 then (s1.retireChannel die k.1).send (.event (.channelRetired die pa))
    else s1

/-- HBM_UNCORRECTABLE_READ (R459, R461): the cellar die reads the word again. Where that succeeds the error is counted, and where the
row, rewritten, fails once more it is retired. Where the second read fails too (`again`) the line's data are lost, which the read
reports as cause 0x12, and the row is retired. -/
def execHbmUncorrectableRead (die pa : Nat) (again rewritten : Bool) (s : State) : Outcome State Fault Refusal :=
  if 4 ≤ die ∨ 0x3000000000 ≤ pa then .refused (.notOffered "HBM_UNCORRECTABLE_READ")
  else if again then
    let line := lineOf (physKey die pa)
    .next (((s.loseReads line).loseLine line).retireRow die pa)
  else if rewritten then .next (s.retireRow die pa)
  else .next (s.modDie die fun d => { d with soft := d.soft + 1 })

end Sys2Proof.Machine
end

