-- ==== Sys2Proof/Machine/Fabric.lean ====
section
/-! DEFINITION. The fabric: messages between packages (R440-R444), flits and link-level retry (R433-R435), training and lost
links (R436, R455), and what arrives from another package (R439, R441). -/

namespace Sys2Proof.Machine

open Host (Outcome)

/-! ## Flits received (R433-R435) -/

/-- An acknowledgement frees the flits up to its number, and held flits follow (R434). -/
def State.freeFlits (s : State) (n ack : Nat) : State :=
  let p := s.port n
  match p.replay.findIdx? fun f => flitSeq f == ack with
  | none => s
  | some i => (s.setPort n { p with replay := p.replay.drop (i + 1) }).pump n

/-- A segment that passes resets its lane's count; a retry is charged to every lane whose segment failed, and at 16 the lane is
spared (R435). Once the spare is used, one lane more takes the port down. -/
def State.chargeLanes (s : State) (n : Nat) (bad : BitVec 8) (retry : Bool) : State :=
  let p := s.port n
  let r := (List.range 8).foldl (fun (t : Tab Nat) l =>
    if bad.getLsbD l then (if retry then t.set l (t.getD l 0 + 1) else t) else t.erase l) p.retries
  let full := (List.range 8).filter fun l => retry && decide (16 ≤ r.getD l 0)
  ((full.take (if p.spare.isSome then 1 else 2)).reverse).foldl (fun a l => a.urge (.laneSparing n l))
    (s.setPort n { p with retries := r })

/-- On a flit that is not passed on, one replay request names the next expected number (R434): the retry that is charged to the
lanes (R435). A port that may not carry data sends no request (R438). -/
def State.askReplay (s : State) (n : Nat) (bad : BitVec 8) : State :=
  let p := s.port n
  if p.asked || !s.carries p then s.chargeLanes n bad false
  else ((s.setPort n { p with asked := true }).control n 2 p.recvSeq.toNat).chargeLanes n bad true

/-- A flit arrives on a port that is up. -/
def flitEvent (name : String) (n : Nat) (s : State) (k : State → State) : Outcome State Fault Refusal :=
  if n < 18 ∧ (s.port n).up then .next (k s) else .refused (.notOffered name)

/-- What an accepted data flit carries goes on: an answer to its request, a message or part of a copy to the steps that perform it. -/
def State.deliver (s : State) (n : Nat) (f : BitVec 2048) : State :=
  if flitGet f 8 1 = 1 then s.answered f else s.passUp n f

/-- FLIT_DATA (R434): passed upward when it is good and the next expected one; then acknowledged. What it carries arrives
as FABRIC_MESSAGE_ARRIVAL or COPY_PEER_ARRIVAL, or answers a message or a copy of this package. -/
def execFlitData (n : Nat) (bits : BitVec 2048) (bad : BitVec 8) (s : State) : Outcome State Fault Refusal :=
  flitEvent "FLIT_DATA" n s fun s =>
    if bad = 0 ∧ flitGood (s.port n).version bits ∧ flitKind bits = 1 then
      let s2 := (s.chargeLanes n 0 false).freeFlits n (flitAck bits)
      let p := s2.port n
      if !s2.carries p then s2
      else if flitSeq bits = p.recvSeq.toNat then
        ((s2.setPort n { p with recvSeq := BitVec.ofNat 16 ((p.recvSeq.toNat + 1) % 4096), asked := false }).control n 3 0).deliver
          n bits
      else s2.askReplay n 0
    else s.askReplay n bad

/-- A control flit: good, of its kind, or a replay request follows. -/
def controlFlit (n kind : Nat) (f : RxFlit) (k : State → State) (s : State) : State :=
  if f.bad = 0 ∧ flitGood (s.port n).version f.bits ∧ flitKind f.bits = kind then
    k ((s.chargeLanes n 0 false).freeFlits n (flitAck f.bits))
  else s.askReplay n f.bad

/-- FLIT_REPLAY_REQUEST (R434): the sender sends again from the flit that the request names. -/
def execFlitReplayRequest (n : Nat) (f : RxFlit) (s : State) : Outcome State Fault Refusal :=
  flitEvent "FLIT_REPLAY_REQUEST" n s <| controlFlit n 2 f fun s => s.resend n (flitSeq f.bits)
/-- FLIT_ACKNOWLEDGE (R434). -/
def execFlitAcknowledge (n : Nat) (f : RxFlit) (s : State) : Outcome State Fault Refusal :=
  flitEvent "FLIT_ACKNOWLEDGE" n s <| controlFlit n 3 f id
/-- FLIT_IDLE (R433). -/
def execFlitIdle (n : Nat) (f : RxFlit) (s : State) : Outcome State Fault Refusal :=
  flitEvent "FLIT_IDLE" n s <| controlFlit n 0 f id

/-! ## Messages that leave (R441) -/

/-- A message leaves over the next port of its route (R437), or its package is unreachable. -/
def State.launchMessage (s : State) (p : PostReq) (pkg : W16) : State :=
  match s.nextPort pkg.toNat with
  | none => s.postStatus p 0x20
  | some (n, s1) =>
    (s1.emit n (if p.prio then 2 else 3) pkg.toNat (messageLoad p.bytes p.dst p.wake p.id)).push
      (.mailboxDelivery { p with fabric := some (pkg, n) })
/-- A message that has not left: an older one of the thread to that core at that priority is not answered (R170, R441). -/
def unsent : Instr → Option (PostReq × W16)
  | .mailboxDelivery p => match p.fabric with
    | some (pkg, 31) => some (p, pkg)
    | _ => none
  | _ => none
/-- Messages whose older ones have been answered leave, in order. -/
def State.dispatchPosts (s : State) : State :=
  s.pool.foldl (fun a i => match unsent i with
    | some (p, pkg) => if olderPost a p then a else { a with pool := a.pool.erase i }.launchMessage p pkg
    | none => a) s

/-- MAILBOX_DELIVERY (R172): at a core of this package; of a message to another package (R441), the answer of that package fills
the status. -/
def execMailboxDelivery (p : PostReq) (s : State) : Outcome State Fault Refusal :=
  perform "MAILBOX_DELIVERY" (.mailboxDelivery p) (deliveryReady s p) s fun s =>
    match p.fabric with
    | none =>
      let (s1, v) := s.queueMsg p
      s1.postStatus p v
    | some _ => (s.postStatus p (p.answer.getD 0)).dispatchPosts

/-! ## Lost links (R435, R455) -/

/-- A step in flight that uses a port ends with 0x21: a message not yet acknowledged, a copy whose bytes are on the way. -/
def cutOff (s : State) (n : Nat) (i : Instr) : State :=
  match i with
  | .mailboxDelivery p =>
    match p.fabric, p.answer with
    | some (_, q), none => if q = n then { s with pool := s.pool.erase i }.postStatus p 0x21 else s
    | _, _ => s
  | .copyCompletion r =>
    if copyLeaves r ∧ r.lines = [n] then
      { s with pool := (s.pool.erase i) ++ [.copyCompletion { r with status := tokenErr 0x21 r.dst, lines := [] }] }
    else s
  | _ => s
/-- A copy flit that came over a port. -/
def cameBy (n : Nat) : Instr → Bool
  | .copyPeerArrival _ _ _ _ _ tag => tag.port == n
  | _ => false
/-- What a port had passed upward and is not performed yet never is (R455). -/
def State.dropArrivals (s : State) (n : Nat) : State :=
  { s with
    pool := s.pool.filter fun i => !cameBy n i
    agenda := s.agenda.filter fun i => !cameBy n i && !(s.port n).inbox.contains i
    dies := s.dies.map fun (e : Nat × Die) => (e.1, { e.2 with
      held := e.2.held.filter fun h => !cameBy n h.ev, replays := e.2.replays.filter fun r => !cameBy n r.2 }) }

/-- A port goes down: its buffers are discarded, and what used it ends. `lasting` keeps it down. -/
def State.dropPort (s : State) (n : Nat) (lasting : Bool) : State :=
  let p := s.port n
  let s1 := (s.dropArrivals n).setPort n
    { p with up := false, replay := [], hold := [], owed := none, inbox := [], failed := [], retries := [], asked := false, down := p.down || lasting }
  ((s1.pool.foldl (fun a i => cutOff a n i) s1).dispatchPosts).send (.event (.portDown n))

/-- PORT_SURPRISE_DOWN (R455). -/
def execPortSurpriseDown (n : Nat) (s : State) : Outcome State Fault Refusal :=
  if n < 18 ∧ (s.port n).up then .next (s.dropPort n false) else .refused (.notOffered "PORT_SURPRISE_DOWN")

/-- LANE_SPARING (R435): the spare replaces a lane charged 16 times, the port retrains and replays its buffers; with the
spare in use the port goes down. The controllers append the lane's retirement to the configuration block (R457). -/
def execLaneSparing (n lane : Nat) (s : State) : Outcome State Fault Refusal :=
  let p := s.port n
  if n < 18 ∧ p.up ∧ lane < 8 ∧ 16 ≤ p.retries.getD lane 0 then
    if p.spare.isSome then .next (s.dropPort n true)
    else
      let lanes := p.lanes &&& ~~~(1#9 <<< lane)
      let s1 := (s.setPort n { p with spare := some lane, retries := p.retries.erase lane, lanes := lanes }).record (.lane n lane)
      let s2 := match p.replay with
        | f :: _ => s1.resend n (flitSeq f)
        | [] => s1
      .next (s2.send (.event (.laneSpared n lane)))
  else .refused (.notOffered "LANE_SPARING")

/-- The version of a link (R436): the highest that both offer of 2 and 3. -/
def negotiated (offered : List Nat) : Option Nat := if offered.contains 3 then some 3 else if offered.contains 2 then some 2 else none
/-- Train a port (R436); with no common version it stays down. -/
def State.trainPort (s : State) (n : Nat) (offered : List Nat) : State :=
  match negotiated offered with
  | some v => s.setPort n { s.port n with up := true, version := v, sendSeq := 0, recvSeq := 0, asked := false, replay := [], hold := [], owed := none }
  | none => s

/-- PORT_TRAINING (R436). -/
def execPortTraining (n : Nat) (offered : List Nat) (s : State) : Outcome State Fault Refusal :=
  if n < 18 ∧ !(s.port n).up ∧ !(s.port n).down then .next (s.trainPort n offered)
  else .refused (.notOffered "PORT_TRAINING")

/-! ## Messages (R440-R444) -/

/-- An earlier copy of the thread to the package has not filled its token (R441). -/
def State.peerCopyOpen (s : State) (t : Tid) (pkg : W16) : Bool :=
  (s.pool ++ s.dies.flatMap fun d => d.2.held.map HeldFault.ev).any fun i => match i with
    | .copyEngineStart r | .copyCompletion r => r.tid == t && r.kind == .peer && r.pkg == pkg
    | _ => false

/-- A message to another package, its bytes copied: it leaves over the next port of its route (R437) once older ones of the thread to
that core at that priority are answered, or is refused. -/
def State.sendMessage (s : State) (t : Tid) (th : Thread) (m : BitVec 512) (a : W64) (sd : BitVec 4) (prio : Bool) : State :=
  let pkg := a.extractLsb' 16 16
  let (id, s1) := s.takeId
  let p : PostReq := ⟨id, t, th.core, th.c.asid, th.sup, some sd, (a.extractLsb' 0 9).toNat, prio,
    if a.getLsbD 63 then some (a.extractLsb' 32 15).toNat else none, some (pkg, 31), stampMsg t th m, none⟩
  let s2 := s1.setThread t (th.retire.empty sd)
  if !s.reachable pkg.toNat then s2.postStatus p 0x20
  else if olderPost s2 p then s2.push (.mailboxDelivery p)
  else s2.launchMessage p pkg

/-- `msg.send` (R441). -/
def execMsgSend (sa sb : BitVec 5) (sd : BitVec 4) (prio : BitVec 1) (s : State) : Outcome State Fault Refusal :=
  issue { srcs := [sa, sb], dsts := [sd] } s fun s t th =>
    if th.rg then .trap s .privilege 0 0x6
    else localMsg s th (th.src sb) true fun off => bankAwake s th (th.src sb) 64 fun _ =>
      let m := (s.msgAt t th (th.src sb) off).1
      let a := th.src sa
      let own := (a.extractLsb' 16 16).toNat == s.ownId
      -- the bytes are copied once the release is over
      let copied := fun (s : State) (th : Thread) (k : State → Thread → State) =>
        let s1 := (s.msgAt t th (th.src sb) off).2
        Res.done (k s1 ((s1.threads.find t).getD th))
      if !th.sup && decide (msgKind m < 0x10) then .trap s .privilege 0 0x5
      else if !(own && (a.extractLsb' 0 9).toNat == th.core) && decide (32 ≤ s.outstanding t th) then .park s .slots32
      else if own then
        release (if dieOf (a.extractLsb' 0 9).toNat = dieOf th.core then 1 else 2) s t th fun s th =>
          copied s th fun s th => s.postOut t th m (a &&& 0x80007FFF000001FF) sd (prio == 1)
      else if s.peerCopyOpen t (a.extractLsb' 16 16) then .park s (.peerCopy (a.extractLsb' 16 16))
      else release 3 s t th fun s th => copied s th fun s th => s.sendMessage t th m a sd (prio == 1)

/-- `msg.recv` (R442): a system-scope acquire where a message was copied; the copy comes after the thread's older accesses of
the bytes (R45). -/
def execMsgRecv (sa : BitVec 5) (sd : BitVec 4) (s : State) : Outcome State Fault Refusal :=
  issue { srcs := [sa], dsts := [sd] } s fun s t th =>
    if th.rg then .trap s .privilege 0 0x6
    else if th.det then .trap s .determinism 0 s.wordVal
    else localMsg s th (th.src sa) false fun off =>
      match pickMsg (s.core th.core).k.mailbox fun m => m.asid == th.c.asid && m.pkg.isSome with
      | none => .done (s.setThread t (th.retire.setX sd 1))
      | some m => bankAwake s th (th.src sa) 64 fun _ => match s.olderAccess t th.core (th.src sa) 64 with
        | some id => .park s (.war id)
        | none =>
          let s1 := s.modK th.core fun k => { k with mailbox := k.mailbox.erase m }
          let s2 := (s1.wr (spKey th.core off) 64 m.bytes.toNat).acquireAt t th.core 3
          .done (s2.modThread t fun u => u.retire.setX sd (BitVec.ofNat 64 ((m.pkg.getD 0).toNat * 65536)))

/-- The ports of a route that are up. -/
def State.routeUp (s : State) (pkg : Nat) : List Nat := (s.routePorts pkg).filter fun p => (s.port p).up
/-- What `msg.probe` reports of a package (R443, R438): bit 0 where it is reachable, the ports up in its route and the version of
the first of them. -/
def State.probePkg (s : State) (pkg : Nat) : W64 :=
  if pkg = s.ownId then 1
  else if !s.out.pkgid.getLsbD 16 then 0
  else match s.routeUp pkg with
    | [] => 0
    | p :: ps => BitVec.ofNat 64 ((if s.reachable pkg then 1 else 0) + 16 * (ps.length + 1) + 256 * (s.port p).version)
/-- `msg.probe` (R443). -/
def execMsgProbe (sa : BitVec 5) (sd : BitVec 4) (s : State) : Outcome State Fault Refusal :=
  issue { srcs := [sa], dsts := [sd] } s fun s t th =>
    if th.rg then .trap s .privilege 0 0x6
    else if th.det then .trap s .determinism 0 s.wordVal
    else .done (s.setThread t (th.retire.setX sd (s.probePkg ((th.src sa).extractLsb' 0 16).toNat)))

/-! ## What arrives -/

/-- FABRIC_MESSAGE_ARRIVAL (R441): a message that a port has passed upward is queued at its core with the hardware bytes of R171,
or refused; the sender is answered. A tray that does not serve refuses it (R454). -/
def execFabricMessageArrival (p : PostReq) (s : State) : Outcome State Fault Refusal :=
  let i := Instr.fabricMessageArrival p
  match p.fabric with
  | none => .refused (.notOffered "FABRIC_MESSAGE_ARRIVAL")
  | some (src, n) =>
    if (s.port n).next true ≠ some i ∨ 512 ≤ p.dst then .refused (.notOffered "FABRIC_MESSAGE_ARRIVAL")
    else if s.out.tray ≠ .serving then .next ((s.nextArrival n i).reply n src 0x20 p.id false)
    else
      let b := msgPut (msgPut (msgPut (msgPut p.bytes 0 1 1) 4 4 p.tid) 8 2 p.core) 36 2 p.asid.toNat
      let (s1, v) := s.queueMsg { p with bytes := b }
      .next ((s1.nextArrival n i).reply n src v p.id false)

/-- How a write from outside ends: performed; no address of memory, or a translation fault, after some bytes. -/
inductive Outside where
  | ok (s : State)
  | bad (s : State) (done : Nat) (ea : W64) (code : W8)
  | hold (s : State) (done : Nat) (ea : W64) (entryAt : Nat)

/-- The home die of an address, for its log's table. -/
def dieOfEa (ea : W64) : Nat := match resolve 0 ea with
  | some (.glob space va) => homeDie space va
  | _ => 0
/-- The log of a line written from outside has no translation for its descriptor or its next record: where it faults (R315,
R398). -/
def State.logFault (s : State) (asid : W16) (x : Xlat) (ea : W64) : Option (W64 × Nat) :=
  if !x.entry.getLsbD 3 then none
  else match s.appendLog (dieOfEa ea) 0 ⟨asid, ea, 1⟩ with
    | .fault lea a => some (lea, a)
    | .ok _ => none

/-- Lines of global memory written from outside (R447): at their homes, no L1 line invalidated. `logs` collects the records of
logged pages; a line whose record has nowhere to go is held (R398). -/
def outsideWrite (asid : W16) (logs : List WlogRec) : Nat → W64 → List W8 → Nat → State → Outside × List WlogRec
  | 0, _, _, _, s => (.ok s, logs)
  | fuel + 1, ea, l, done, s =>
    if l.isEmpty then (.ok s, logs)
    else
      let n := min l.length (64 - ea.toNat % 64)
      match resolve 0 ea with
      | some (.glob space va) =>
        if s.homeFails space va then (.bad s done ea 0x12, logs)
        else match s.xlate asid space va true with
        | .error a => (.hold s done ea a, logs)
        | .ok x => match s.logFault asid x (ea &&& ~~~63) with
          | some (lea, a) => (.hold s done lea a, logs)
          | none =>
          let s1 := s.softHome (x.key (homeDie space va) va) n (ofBytes (l.take n))
          let logs1 := if x.entry.getLsbD 3 then addWlog logs asid (ea &&& ~~~63) else logs
          outsideWrite asid logs1 fuel (ea + BitVec.ofNat 64 n) (l.drop n) (done + n) s1
      | _ => (.bad s done ea 0x07, logs)

/-- Append the records of a write from outside before anything later is performed (R448). -/
def State.logOutside (s : State) (writer : Nat) (logs : List WlogRec) : State :=
  logs.foldl (fun a r => match a.appendLog (dieOfEa r.start) writer r with
    | .ok b => b
    | .fault _ _ => a) s

/-- Every L1 of the package invalidates the lines of a range (R439 item 3). -/
def State.dropRange (s : State) (asid : W16) (dst : W64) (n : Nat) : State :=
  (List.range ((n + 126) / 64)).foldl (fun a i =>
    let ea := (dst &&& ~~~63) + BitVec.ofNat 64 (64 * i)
    match resolve 0 ea with
    | some (.glob space va) =>
      (match a.keyOf asid space va with
       | some k => a.cores.foldl (fun (b : State) e => b.l1DropLine e.1 (lineOf k)) a
       | none => a)
    | _ => a) s

/-- A step is held by a die. -/
def State.isHeld (s : State) (i : Instr) : Bool := s.dies.any fun d => d.2.held.any fun h => h.ev == i
/-- COPY_PEER_ARRIVAL (R439): a part of a copy that a port has passed upward, and that is next; translated under the issuer's ASID
number, performed at the homes, with system scope carried to every L1; the last part acknowledges the copy. A translation fault
holds the rest, and what comes after it over the port (R398, R448). A tray that does not serve takes no new copy (R454). -/
def execCopyPeerArrival (src asid : W16) (dst : W64) (bytes : List W8) (sc : BitVec 2) (tag : CopyFlit) (s : State) :
    Outcome State Fault Refusal :=
  let i := Instr.copyPeerArrival src asid dst bytes sc tag
  if (s.port tag.port).next false ≠ some i ∨ s.isHeld i then .refused (.notOffered "COPY_PEER_ARRIVAL")
  else if (s.port tag.port).failed.contains (src, tag.id) then
    let p := s.port tag.port
    .next ((if tag.last then s.setPort tag.port { p with failed := p.failed.erase (src, tag.id) } else s).nextArrival tag.port i)
  else if s.out.tray = .drained ∨ s.out.tray = .off ∨ (s.out.tray = .quiesced ∧ tag.first) then .next (s.failCopy i src tag 0x20 dst)
  else
    let carry := fun (a : State) (n : Nat) => if sc = 3 ∧ n ≠ 0 then a.dropRange asid dst n else a
    match outsideWrite asid [] (bytes.length / 64 + 2) dst bytes 0 { s with pool := s.pool.erase i } with
    | (.ok s1, logs) =>
      let s2 := (carry (s1.logOutside 0x1FE logs) bytes.length).nextArrival tag.port i
      .next (if tag.last then s2.reply tag.port src 0 tag.id true else s2)
    | (.bad s1 n ea code, logs) => .next ((carry (s1.logOutside 0x1FE logs) n).failCopy i src tag code ea)
    | (.hold s1 n ea a, logs) =>
      let rest := Instr.copyPeerArrival src asid (dst + BitVec.ofNat 64 n) (bytes.drop n) sc tag
      let s2 := carry (s1.logOutside 0x1FE logs) n
      let s3 := s2.setPort tag.port { s2.port tag.port with inbox := (s2.port tag.port).inbox.map fun j => if j = i then rest else j }
      .next (s3.holdAt 0 asid ea a rest)

end Sys2Proof.Machine
end

