-- ==== Sys2Proof/Machine/Manage.lean ====
section
/-! DEFINITION. The host's accesses (R445-R449), the package's registers (R451, R457), management commands (R450), power
capping (R452, R453) and trays (R454). -/

namespace Sys2Proof.Machine

open Host (Outcome)

/-! ## Readiness (R457) -/

/-- READY: arms, loads and host traffic are accepted. -/
def State.ready (s : State) : Bool := s.out.boot.getLsbD 0 && s.out.tray != .off
/-- FAIL is 0: management is served in full; with FAIL set only reads and attestation are. While die 0 has no active controller
its commands are held, so that they come later (R463). -/
def State.served (s : State) : Bool := s.out.boot.extractLsb' 4 4 == 0 && s.out.tray != .off && s.ctlAlive 0
/-- An event of the host or of management comes from outside: it is offered when `ok` holds. -/
def outside (name : String) (ok : Bool) (s : State) (k : State → State) : Outcome State Fault Refusal :=
  if ok then .next (k s) else .refused (.notOffered name)

/-! ## Host accesses (R446-R449) -/

/-- A window's address and ASID. -/
def State.window (s : State) (win off : Nat) : W16 × W64 :=
  (((s.out.wasid.getD win 0).extractLsb' 0 16), s.out.wbase.getD win 0 + BitVec.ofNat 64 off)

/-- A posted write that waits, without the relaxed-ordering attribute: its function and its number. -/
def postedSeq : Instr → Option (Nat × Nat)
  | .hostWrite (.at_ fn seq _ _) _ _ false => some (fn, seq)
  | .doorbellWrite r _ | .hwakeWrite r _ => r.by_.seq.map fun q => (r.by_.fn, q)
  | .registerWrite (some f) _ _ => f.seq.map fun q => (f.fn, q)
  | _ => none
/-- An earlier write of a function is not performed yet (R447). -/
def State.hostBefore (s : State) (fn seq : Nat) : Bool :=
  s.inAir.any fun i => (postedSeq i).any fun e => e.1 == fn && decide (e.2 < seq)
/-- The turn of a write that waits: one with the relaxed-ordering attribute has it at any time. -/
def State.hostTurn (s : State) (i : Instr) : Bool :=
  match postedSeq i with
  | some (fn, seq) => !s.hostBefore fn seq
  | none => true
/-- A posted write of a function: performed in its arrival order (R447); one that comes while an earlier one is held waits in
flight. -/
def hostPosted (name : String) (ok : Bool) (f : HostFn) (mk : HostFn → Instr) (s : State) (k : State → State) :
    Outcome State Fault Refusal :=
  match f.seq with
  | none => outside name (ok && decide (f.fn ≤ 64)) s fun s =>
      if s.hostBefore f.fn s.nextId then let (id, s1) := s.takeId; s1.push (mk ⟨f.fn, some id⟩) else k s
  | some _ => perform name (mk f) (s.hostTurn (mk f)) s k

/-- Perform a write of a function at the address that it has: logged as core 0x1FF (R448); a translation fault holds the rest. -/
def State.hostPerform (s : State) (fn seq : Nat) (asid : W16) (ea : W64) (bytes : List W8) (relaxed : Bool) : State :=
  match outsideWrite asid [] (bytes.length / 64 + 2) ea bytes 0 s with
  | (.ok s1, logs) | (.bad s1 _ _ _, logs) => s1.logOutside 0x1FF logs
  | (.hold s1 n a at_, logs) =>
    (s1.logOutside 0x1FF logs).holdAt 0 asid a at_
      (.hostWrite (.at_ fn seq asid (ea + BitVec.ofNat 64 n)) 0 (bytes.drop n) relaxed)

/-- HOST_WRITE (R446-R448): translated and performed at the homes, through the window as it stands when the write comes. Writes of
one function are performed in order; one with the relaxed-ordering attribute may be performed after later ones, and before a
held one (R448). -/
def execHostWrite (at_ : HostAt) (off : Nat) (bytes : List W8) (relaxed : Bool) (s : State) : Outcome State Fault Refusal :=
  match at_ with
  | .win fn win =>
    outside "HOST_WRITE" (s.ready && decide (fn ≤ 64) && decide (win < 16) && decide (off + bytes.length ≤ 2 ^ 32)) s fun s =>
      let (asid, ea) := s.window win off
      let (id, s1) := s.takeId
      if relaxed || s.hostBefore fn s.nextId then s1.push (.hostWrite (.at_ fn id asid ea) 0 bytes relaxed)
      else s1.hostPerform fn id asid ea bytes relaxed
  | .at_ fn seq asid ea =>
    let i := Instr.hostWrite at_ off bytes relaxed
    perform "HOST_WRITE" i (s.hostTurn i) s fun s => s.hostPerform fn seq asid ea bytes relaxed
  | .bar0 _ => .refused (.notOffered "HOST_WRITE")

/-- Read bytes from outside: at the homes; unmapped spaces read all ones. -/
def outsideRead (s : State) (asid : W16) : Nat → W64 → Nat → List W8 → Except (W64 × Nat) (List W8)
  | 0, _, _, acc => .ok acc
  | fuel + 1, ea, n, acc =>
    if n = 0 then .ok acc
    else
      let k := min n (64 - ea.toNat % 64)
      match resolve 0 ea with
      | some (.glob space va) =>
        if s.homeFails space va then .ok (acc ++ List.replicate n 0xFF)
        else match s.xlate asid space va false with
        | .error a => .error (ea, a)
        | .ok x =>
          outsideRead s asid fuel (ea + BitVec.ofNat 64 k) (n - k) (acc ++ leBytes k (s.rd (x.key (homeDie space va) va) k))
      | _ => .ok (acc ++ List.replicate n 0xFF)

/-! ## Power capping (R452, R453) -/

/-- Reset values of the power-capping registers. -/
def pcapDefault (off : Nat) : W64 :=
  match off with
  | 0x100 => 3000
  | 0x108 => 10
  | 0x110 => 1200
  | 0x118 => BitVec.ofNat 64 (3000 * 2 ^ 16)
  | _ => 0
def State.pcap (s : State) (off : Nat) : W64 := s.out.pcap.getD off (pcapDefault off)
def State.setPcap (s : State) (off : Nat) (v : W64) : State := s.modOut fun o => { o with pcap := o.pcap.set off v }
def clampTo (lo hi v : Nat) : Nat := max lo (min hi v)
/-- CLMP rises where a written value was clamped. -/
def State.noteClamp (s : State) (on : Bool) : State := if on then s.setPcap 0x118 (s.pcap 0x118 ||| (1#64 <<< 33)) else s
/-- Write a field that is clamped to a range. -/
def State.putClamped (s : State) (off lo hi : Nat) (v : W64) : State :=
  let w := (v.extractLsb' 0 16).toNat
  (s.setPcap off (BitVec.ofNat 64 (clampTo lo hi w))).noteClamp (clampTo lo hi w ≠ w)
def State.pcapLimit (s : State) : Nat := (s.pcap 0x100).toNat
/-- A write of a power-capping register; FLOOR never stays above LIMIT. -/
def State.writePcap (s : State) (off : Nat) (v : W64) : State :=
  match off with
  | 0x100 =>
    let s1 := s.putClamped 0x100 1200 3000 v
    s1.setPcap 0x110 (BitVec.ofNat 64 (min (s1.pcap 0x110).toNat s1.pcapLimit))
  | 0x108 => s.putClamped 0x108 1 1000 v
  | 0x110 => s.putClamped 0x110 1200 s.pcapLimit v
  | 0x118 => s.setPcap 0x118 (s.pcap 0x118 &&& ~~~(v &&& (3#64 <<< 33)))
  | 0x120 => s.setPcap 0x120 (v &&& 0xFFFFFFFF0000FFFF)
  | 0x128 => s.setPcap 0x128 (v &&& 0xFFFF)
  | _ => s

/-- The effective limit of the next window (R453). -/
def State.effLimit (s : State) : Nat :=
  let g := s.pcap 0x120
  if g.extractLsb' 0 16 = 0 then s.pcapLimit
  else max (s.pcap 0x110).toNat (min s.pcapLimit ((g.extractLsb' 32 32).toNat * (s.pcap 0x128).toNat / 65536))

/-- POWER_WINDOW_BOUNDARY (R453): the average of the window that ends, how far issue was throttled and which cores' L1 ways are
powered (R184) come from the power manager; the next window's limit is set. -/
def execPowerWindowBoundary (avg : Nat) (done : PowerWindow) (s : State) : Outcome State Fault Refusal :=
  outside "POWER_WINDOW_BOUNDARY" (s.out.tray != .off) s fun s =>
    let old := ((s.pcap 0x118).extractLsb' 16 16).toNat
    let keep := s.pcap 0x118 &&& (3#64 <<< 33)
    let above : W64 := if old < avg ∧ done.throttled = .full then 1#64 <<< 34 else 0
    (done.ways.foldl (fun a e => if e.1 < 512 then a.gateWays e.1 e.2 else a) s).setPcap 0x118 (BitVec.ofNat 64 (avg % 65536 + s.effLimit * 65536 + (if done.throttled = .none then 0 else 2 ^ 32)) ||| keep ||| above)

/-! ## Registers (R451) -/

/-- Cores and clusters in service, once READY; spare lanes in use (R457). -/
def State.bootReg (s : State) : W64 :=
  let gone := fun (c : Nat) => !s.placed c
  let cores := if s.out.boot.getLsbD 0 then (List.range 512).countP fun c => !gone c else 0
  let clust := if s.out.boot.getLsbD 0 then (List.range 64).countP fun k => (List.range 8).any fun c => !gone (8 * k + c) else 0
  let lanes := s.out.ports.countP fun p => p.2.spare.isSome
  (s.out.boot &&& 0xFF) ||| BitVec.ofNat 64 (cores * 2 ^ 8 + clust * 2 ^ 18 + lanes * 2 ^ 25)

/-- Which register an offset names, with its index. -/
inductive Reg where
  | boot | pkgid | pcap (off : Nat) | wbase (i : Nat) | wasid (i : Nat) | hwake (j : Nat) | route (p : Nat)
  | lrver (a : Nat) | wrlog (a : Nat) | allow (a : Nat)
deriving DecidableEq, Repr
def regAt (off : Nat) : Option Reg :=
  if off % 8 ≠ 0 then none
  else if off = 0 then some .boot
  else if off = 8 then some .pkgid
  else if 0x100 ≤ off ∧ off ≤ 0x128 then some (.pcap off)
  else if 0x200 ≤ off ∧ off < 0x300 then
    (if off % 16 = 0 then some (.wbase ((off - 0x200) / 16)) else some (.wasid ((off - 0x200) / 16)))
  else if 0x2000 ≤ off ∧ off < 0x4000 then some (.hwake ((off - 0x2000) / 8))
  else if 0x100000 ≤ off ∧ off < 0x140000 then some (.route ((off - 0x100000) / 8))
  else if 0x200000 ≤ off ∧ off < 0x280000 then some (.lrver ((off - 0x200000) / 8))
  else if 0x300000 ≤ off ∧ off < 0x380000 then some (.wrlog ((off - 0x300000) / 8))
  else if 0x400000 ≤ off ∧ off < 0x480000 then some (.allow ((off - 0x400000) / 8))
  else none

/-- A route entry as it is stored: places 18 to 30 become 31 (R438). -/
def storedRoute (v : W64) : W64 :=
  BitVec.ofNat 64 ((List.range 4).foldl (fun a i =>
    let p := v.toNat / 2 ^ (5 * i) % 32
    a + (if p < 18 then p else 31) * 2 ^ (5 * i)) 0)

/-- Read a register: registers that only management reads are zero to the host. -/
def State.readReg (s : State) (host : Bool) (r : Reg) : W64 :=
  match r with
  | .boot => s.bootReg
  | .pkgid => s.out.pkgid
  | .pcap off => if host then 0 else s.pcap off
  | .wbase i => s.out.wbase.getD i 0
  | .wasid i => s.out.wasid.getD i 0
  | .hwake j => s.out.hwake.getD j 0
  | .route p => if host then 0 else s.out.route.getD p 0xFFFFF
  | .lrver a => s.lrver (BitVec.ofNat 16 a)
  | .wrlog a => s.out.wrlog.getD a 0
  | .allow a => s.allow (BitVec.ofNat 16 a)

/-- A WRLOG write: the controller writes the pointer into the tables of all four dies (R315). -/
def State.writeWrlog (s : State) (a : Nat) (v : W64) : State :=
  let w := v &&& ~~~31
  let s1 := s.modOut fun o => { o with wrlog := o.wrlog.put 0 a w }
  (List.range 4).foldl (fun b d => b.writeHome (physKey d ((b.die d).logBase + 8 * a)) 8 w.toNat) s1

/-- Write a register: the state, and whether the write was accepted. -/
def State.writeReg (s : State) (host : Bool) (r : Reg) (v : W64) : State × Bool :=
  match r with
  | .boot => (s, false)
  | .pkgid =>
    if host ∨ (s.out.pkgid.getLsbD 16 ∧ v.extractLsb' 0 16 ≠ s.out.pkgid.extractLsb' 0 16) then (s, false)
    else ((List.range 18).foldl State.resume (s.modOut fun o => { o with pkgid := v &&& 0x1FFFF }), true)
  | .pcap off => if host then (s, false) else (s.writePcap off v, true)
  | .wbase i => (s.modOut fun o => { o with wbase := o.wbase.put 0 i v }, true)
  | .wasid i => (s.modOut fun o => { o with wasid := o.wasid.put 0 i (v &&& 0xFFFF) }, true)
  | .hwake j =>
    if host then (s.modOut fun o => { o with hwake := o.hwake.put 0 j (o.hwake.getD j 0 ||| v) }, true) else (s, false)
  | .route p => if host then (s, false) else (s.modOut fun o => { o with route := o.route.set p (storedRoute v) }, true)
  | .lrver a => (s.modOut fun o => { o with lrver := o.lrver.set a (v &&& 6) }, true)
  | .wrlog a => (s.writeWrlog a v, true)
  | .allow a => if host then (s, false) else (s.modOut fun o => { o with allow := o.allow.set a v }, true)

/-- Serve a management write and reply (R450): 0, or 1 for a register that is unknown or not written. -/
def State.manageWrite (s : State) (r : Option Reg) (v : W64) : State :=
  match r with
  | none => s.send (.reply [1])
  | some r =>
    let (s1, ok) := s.writeReg false r v
    (s1.journal 0 .command).send (.reply [if ok then 0 else 1])
/-- A management write of one kind of register. -/
def manageReg (name : String) (r : Reg) (v : W64) (s : State) : Outcome State Fault Refusal :=
  outside name s.served s fun s => s.manageWrite (some r) v

/-- MGMT_READ_REGISTER (R450, R451). -/
def execMgmtReadRegister (off : Nat) (s : State) : Outcome State Fault Refusal :=
  outside "MGMT_READ_REGISTER" (s.out.tray != .off) s fun s =>
    s.send (.reply (leBytes 8 (((regAt off).map (s.readReg false)).getD 0).toNat))
/-- MGMT_WRITE_REGISTER (R450, R451). -/
def execMgmtWriteRegister (off : Nat) (v : W64) (s : State) : Outcome State Fault Refusal :=
  outside "MGMT_WRITE_REGISTER" s.served s fun s => s.manageWrite (regAt off) v
/-- PKGID_WRITE (R438). -/
def execPkgidWrite (v : W64) (s : State) : Outcome State Fault Refusal := manageReg "PKGID_WRITE" .pkgid v s
/-- ROUTE_ENTRY_WRITE (R438). -/
def execRouteEntryWrite (p : Nat) (v : W64) (s : State) : Outcome State Fault Refusal :=
  outside "ROUTE_ENTRY_WRITE" (s.served && decide (p < 32768)) s fun s => s.manageWrite (some (.route p)) v
/-- PCAP_REGISTER_WRITE (R452). -/
def execPcapRegisterWrite (off : Nat) (v : W64) (s : State) : Outcome State Fault Refusal :=
  outside "PCAP_REGISTER_WRITE" (s.served && (match regAt off with | some (.pcap o) => o != 0x118 | _ => false)) s fun s =>
    s.manageWrite (regAt off) v
/-- PCAP_STATUS_CLEAR (R452). -/
def execPcapStatusClear (v : W64) (s : State) : Outcome State Fault Refusal := manageReg "PCAP_STATUS_CLEAR" (.pcap 0x118) v s
/-- WRLOG_WRITE (R315). -/
def execWrlogWrite (a : W16) (v : W64) (s : State) : Outcome State Fault Refusal := manageReg "WRLOG_WRITE" (.wrlog a.toNat) v s
/-- LRVER_WRITE (R352). -/
def execLrverWrite (a : W16) (v : W64) (s : State) : Outcome State Fault Refusal := manageReg "LRVER_WRITE" (.lrver a.toNat) v s
/-! ## Accesses of functions to BAR0 (R446, R449, R451) -/

/-- An ASID is one of a function's (R445). -/
def State.ownsAsid (s : State) (fn : Nat) (a : Nat) : Bool := s.out.fnOf.getD a 0 == fn
/-- The bits of a HWAKE dword that a function has: the physical one all, a virtual one those of its own ASIDs (R451). -/
def State.wakeBits (s : State) (fn j : Nat) : W64 :=
  if fn = 0 then BitVec.allOnes 64
  else BitVec.ofNat 64 ((List.range 64).foldl (fun a b => a + if s.ownsAsid fn (64 * j + b) then 2 ^ b else 0) 0)
/-- A register as a function reads it (R451): of a virtual one, the HWAKE bits of its own ASIDs, and zero at every other offset. -/
def State.fnReg (s : State) (fn off : Nat) : W64 :=
  match regAt off with
  | some (.hwake j) => s.readReg true (.hwake j) &&& s.wakeBits fn j
  | some r => if fn = 0 then s.readReg true r else 0
  | none => 0
/-- Bytes of BAR0. -/
def State.bar0 (s : State) (fn off n : Nat) : List W8 :=
  (List.range n).map fun i => (s.fnReg fn ((off + i) / 8 * 8)).extractLsb' (8 * ((off + i) % 8)) 8

/-- HOST_READ (R446, R447, R451): of memory, served at the home; of a function's BAR0, the registers that it exposes. The boot state
is read before READY too, while FAIL is 0 (R457). -/
def execHostRead (at_ : HostAt) (off n : Nat) (s : State) : Outcome State Fault Refusal :=
  let go := fun (asid : W16) (ea : W64) (s : State) =>
    match outsideRead s asid (n / 64 + 2) ea n [] with
    | .ok l => s.send (.readData l)
    | .error (a, e) => s.holdAt 0 asid a e (.hostRead (.at_ 0 0 asid ea) 0 n)
  match at_ with
  | .win fn win => outside "HOST_READ" (s.ready && decide (fn ≤ 64) && decide (win < 16) && decide (off + n ≤ 2 ^ 32)) s fun s =>
      go (s.window win off).1 (s.window win off).2 s
  | .at_ _ _ asid ea => perform "HOST_READ" (.hostRead at_ off n) true s (go asid ea)
  | .bar0 fn => outside "HOST_READ" (decide (fn ≤ 64) && decide (off + n ≤ 2 ^ 26) &&
      (s.ready || (s.out.boot.extractLsb' 4 4 == 0 && s.out.tray != .off && decide (off + n ≤ 8)))) s fun s =>
      s.send (.readData (s.bar0 fn off n))

/-- Host-wake bit of an ASID (R449). -/
def State.clearWake (s : State) (asid : W16) : State :=
  let j := asid.toNat / 64
  s.modOut fun o => { o with hwake := o.hwake.put 0 j (o.hwake.getD j 0 &&& ~~~(1#64 <<< (asid.toNat % 64))) }

/-- Post a doorbell's 64 bytes as a high-priority message of kind 0x08 (R449); a full mailbox or a retired core refuses it (R170). -/
def State.ring_ (s : State) (db : Nat) (asid : W16) (bytes : List W8) : State :=
  let m : BitVec 512 := BitVec.ofNat 512 (ofBytes bytes)
  let b := msgPut (msgPut (msgPut (msgPut (msgPut m 0 1 1) 1 1 8) 4 4 0xFFFFFFFF) 8 2 0x1FF) 36 2 asid.toNat
  let s1 := s.clearWake asid
  if s1.coreMode db = .retired ∨ !mailRoom (s1.core db).k true then s1
  else s1.mailPut db { prio := true, asid := asid, bytes := b }
/-- DOORBELL_WRITE (R449): 64 bytes become a message of the ASID that the controllers have assigned to the doorbell; a write of any
other length is ignored, and so is a virtual function's write to a doorbell that is not its own (R451), and a write to a doorbell
that is assigned to none (log entry 88). -/
def execDoorbellWrite (db : HostReg) (bytes : List W8) (s : State) : Outcome State Fault Refusal :=
  hostPosted "DOORBELL_WRITE" (s.ready && decide (db.n < 512)) db.by_ (fun f => .doorbellWrite ⟨f, db.n⟩ bytes) s fun s =>
    match s.out.doorbell.find db.n with
    | none => s
    | some (fn, asid) =>
      if bytes.length ≠ 64 ∨ (db.by_.fn ≠ 0 ∧ db.by_.fn ≠ fn) then s else s.ring_ db.n asid bytes
/-- HWAKE_WRITE (R449): a written 1 arms a host wake, a written 0 changes nothing; a virtual function arms its own ASIDs' (R451). -/
def execHwakeWrite (j : HostReg) (v : W64) (s : State) : Outcome State Fault Refusal :=
  hostPosted "HWAKE_WRITE" (s.ready && decide (j.n < 1024)) j.by_ (fun f => .hwakeWrite ⟨f, j.n⟩ v) s fun s =>
    (s.writeReg true (.hwake j.n) (v &&& s.wakeBits j.by_.fn j.n)).1
/-- REGISTER_WRITE (R451): any other register, by the host, which hears nothing of it, or by management. Of a virtual function's
BAR0 no register is written here. -/
def execRegisterWrite (host : Option HostFn) (off : Nat) (v : W64) (s : State) : Outcome State Fault Refusal :=
  match host with
  | none => outside "REGISTER_WRITE" s.served s fun s => s.manageWrite (regAt off) v
  | some f => hostPosted "REGISTER_WRITE" s.ready f (fun f => .registerWrite (some f) off v) s fun s =>
      if f.fn = 0 then ((regAt off).map fun r => (s.writeReg true r v).1).getD s else s

/-- MGMT_ARM_LAUNCH (R356, R450). -/
def execMgmtArmLaunch (lid : W16) (s : State) : Outcome State Fault Refusal :=
  outside "MGMT_ARM_LAUNCH" (s.ready && s.served) s fun s =>
    match s.rec? lid with
    | none => s.send (.reply [1])
    | some r =>
      if !restState r.state then s.send (.reply [2])
      else
        let (s1, c) := s.armRecord lid r
        s1.send (.reply [BitVec.ofNat 8 c])

/-! ## Trays (R454) -/

def TrayState.code : TrayState → W8
  | .serving => 0 | .quiesced => 1 | .drained => 2 | .off => 3
def State.setTray (s : State) (t : TrayState) : State := (s.modOut fun o => { o with tray := t }).send (.reply [t.code])
/-- A command out of its order is refused: the reply is the state as it is. -/
def State.sameTray (s : State) : State := s.send (.reply [s.out.tray.code])

/-- TRAY_QUIESCE: launches are pre-empted (R370), new arms refused. -/
def execTrayQuiesce (s : State) : Outcome State Fault Refusal :=
  outside "TRAY_QUIESCE" s.served s fun s =>
    if s.out.tray ≠ .serving then s.sameTray
    else
      let s1 := s.setTray .quiesced
      if s1.pkg.pre = .none then s1.urge .preemptionRequest else s1

/-- Nothing crosses the ports any more: copies, messages, replay buffers. -/
def State.drained (s : State) : Bool :=
  !(s.pool ++ s.dies.flatMap fun d => d.2.held.map HeldFault.ev).any (fun i => match i with
    | .mailboxDelivery p => p.fabric.isSome
    | .copyEngineStart r | .copyCompletion r => copyLeaves r
    | .copyPeerArrival _ _ _ _ _ _ => true
    | _ => false) && s.out.ports.all fun p => p.2.replay.isEmpty && p.2.hold.isEmpty && p.2.inbox.isEmpty

/-- TRAY_DRAIN: waits in flight until everything has crossed. -/
def execTrayDrain (s : State) : Outcome State Fault Refusal :=
  outside "TRAY_DRAIN" (s.served && (s.out.tray != .quiesced || s.drained || !s.pool.contains .trayDrain)) s fun s =>
    if s.out.tray ≠ .quiesced then { s with pool := s.pool.erase .trayDrain }.sameTray
    else if s.drained then { s with pool := s.pool.erase .trayDrain }.setTray .drained
    else s.push .trayDrain

/-- TRAY_POWEROFF: powered down; nothing that power held is left. -/
def execTrayPoweroff (s : State) : Outcome State Fault Refusal :=
  outside "TRAY_POWEROFF" s.served s fun s =>
    if s.out.tray ≠ .drained then s.sameTray
    else
      { State.reset with
        cycle := s.cycle, agenda := s.agenda, plan := s.plan, nextId := s.nextId, fresh := s.fresh
        out := { sent := s.out.sent, tray := .off } }.send (.reply [TrayState.off.code])

/-- TRAY_REINSERTION: the ports train (R436) and the tray serves again. -/
def execTrayReinsertion (offered : List Nat) (s : State) : Outcome State Fault Refusal :=
  outside "TRAY_REINSERTION" (s.out.tray == .off) s fun s =>
    ((List.range 18).foldl (fun a n => a.trainPort n offered) s).setTray .serving

end Sys2Proof.Machine
end

