-- ==== Sys2Proof/Machine/Boot.lean ====
section
/-! DEFINITION. Bring-up (R456-R458), take-over of a dispatch controller (R463), measurement and attestation (R464, R465). -/

namespace Sys2Proof.Machine

open Host (Outcome)

/-! ## Measurement (R464) -/

/-- Extend a measurement register: M ← SHA-512(M ‖ d). -/
def State.extend (s : State) (i : Nat) (d : BitVec 512) : State :=
  s.modOut fun o =>
    let m := o.meas.getD i 0
    { o with meas := o.meas.set i (sha512 (leBytes 64 m.toNat ++ leBytes 64 d.toNat)) }

/-- MEASUREMENT_EXTEND_REQUEST (R464): registers 5 to 7 on the host's request. -/
def execMeasurementExtendRequest (i : Nat) (d : BitVec 512) (s : State) : Outcome State Fault Refusal :=
  outside "MEASUREMENT_EXTEND_REQUEST" (s.ready && decide (5 ≤ i) && decide (i ≤ 7)) s fun s => (s.journal 0 .command).extend i d

/-! ## Supervisors (R458) -/

/-- The supervisor's ASID: 0 unless the configuration block names another. -/
def supAsidOf (c : ConfigBlock) : W16 := c.supAsid.getD 0
/-- Its scratchpad bytes: 64 KiB unless the block names a size. -/
def supSpadOf (c : ConfigBlock) : Nat := c.supSpad.getD 65536
/-- Start the supervisor of a cluster on its core 7: image, allocation at the top of the scratchpad, thread in slot 0. -/
def State.startSupervisor (s : State) (b : ConfigBlock) (img : W16) (words : List W32) (entry : W32) (cl : Nat) : State :=
  let core := cl * 8 + 7
  if s.coreMode core = .retired then s
  else
    let t := core * 64
    let base := 655360 - supSpadOf b
    let th : Thread :=
      { c := { x := (Vector.replicate 16 (0 : W64)).set 15 655360, pc := entry, img := img, asid := supAsidOf b
               status := 0x8000 }
        core := core, cidx := 0, bound := some 0, run := .ready s.cycle, lau := { spBase := base, spLen := supSpadOf b } }
    let s1 := ((s.modK core fun k => { k with
      images := [⟨img, 0, words.length, supAsidOf b⟩], tidMask := k.tidMask ||| 1 }).storeWords core 0 words).setThread t th
    let s2 := (s1.modM core fun m => { m with
      allocs := [({ base := base, len := supSpadOf b, asid := supAsidOf b, tid := t, due := s.cycle } : Alloc)] }).setLpu
        core (supAsidOf b)
    s2.modCluster cl fun c => { c with supTid := some t }

/-! ## Power-on (R456, R457) -/

/-- The boot register's low fields: READY, STEP, FAIL (R457). -/
def bootWord (ready : Bool) (step fail : Nat) : W64 := BitVec.ofNat 64 ((if ready then 1 else 0) + step * 2 + fail * 16)

/-- The state in which the boot engine begins: as after reset, with what the world outside has been told, and what management flash
keeps (R457). Cycles count from the release of reset (R406). -/
def State.powerUp (s : State) : State :=
  { State.reset with
    agenda := s.agenda, plan := s.plan, nextId := s.nextId, fresh := s.fresh
    out := { sent := s.out.sent, repairs := s.out.repairs } }

/-- A lane that will not calibrate, or that a record names, is replaced by the spare; a port with two such lanes stays down (R456). -/
def State.spareLane (s : State) (x : Nat × Nat) : State :=
  let p := s.port x.1
  if p.spare = some x.2 ∨ p.down then s
  else s.setPort x.1
    { p with spare := some (p.spare.getD x.2), down := p.spare.isSome, lanes := p.lanes &&& ~~~(1#9 <<< x.2) }
/-- A core in self-test. -/
def State.outOfService (s : State) (c : Nat) : State := s.modK c fun k => { k with mode := .retired }
/-- A part without a spare row is out of service from the start (R460, R462). -/
def State.takeOut (s : State) (p : FailedPart) : State :=
  match p with
  | .core c => s.outOfService c
  | .cluster k => (List.range 8).foldl (fun a c => a.outOfService (8 * k + c)) s
  | .l2Sets d sets => s.modDie d fun x => { x with l2Off := (x.l2Off ++ sets).eraseDups }
  | .ringRow bs => { s with ring := { s.ring with retired := (s.ring.retired ++ bs).eraseDups } }
  | .ordering _ | .payload _ | .metadata _ _ => s
/-- A row of HBM retired at boot. -/
def State.rowOut (s : State) (x : Nat × Nat) : State :=
  s.modDie x.1 fun d => { d with rows := (d.rows ++ [rowOf x.1 x.2]).eraseDups }
/-- The field records that step 1 applies: those whose signature verifies (R457). -/
def State.goodRecords (s : State) (b : BootResult) : List Repair :=
  (s.out.repairs.zipIdx.filter fun e => !b.badRecords.contains e.2).map fun e => e.1
/-- Apply a field record; a failed ordering is found by step 3. -/
def State.applyRecord (s : State) (r : Repair) : State :=
  match r with
  | .part p => s.takeOut p
  | .lane port lane => s.spareLane (port, lane)
  | .row die pa => s.rowOut (die, pa)
  | .channel die chan => s.modDie die fun d => { d with chans := (d.chans ++ [chan]).eraseDups }
/-- Parts that step 3 finds, or that a record names. -/
def State.failedParts (s : State) (b : BootResult) : List FailedPart :=
  b.failed ++ (s.goodRecords b).filterMap fun r => match r with
    | .part p => some p
    | _ => none
/-- A field record as numbers, for its bytes. -/
def partCode : FailedPart → List Nat
  | .core c => [0, c]
  | .cluster k => [1, k]
  | .l2Sets d l => 2 :: d :: l
  | .ordering d => [3, d]
  | .ringRow l => 4 :: l
  | .payload b => [5, b]
  | .metadata b c => [6, b, c]
def Repair.code : Repair → List Nat
  | .part p => 0 :: partCode p
  | .lane p l => [1, p, l]
  | .row d pa => [2, d, pa]
  | .channel d c => [3, d, c]
/-- The firmware of a die. -/
def fwOf (l : List Firmware) (die : Nat) : Firmware := l.getD die ⟨[], false⟩
/-- Step 5: what is measured, in order (R464), but for the supervisor file: the boot engine's code; the configuration block with its
field part; the firmware of each die's two controllers, verified or not. -/
def State.measureBoot (s : State) (b : BootResult) : State :=
  let s1 := (s.extend 0 (Config.bootDigest 0 0)).extend 1
    (sha512 (b.config.bytes ++ Config.fieldBytes (s.out.repairs.map Repair.code)))
  let s2 := (List.range 4).foldl (fun a d => a.extend 2 (sha512 (fwOf b.active d).bytes)) s1
  (List.range 4).foldl (fun a d => a.extend 3 (sha512 (fwOf b.standby d).bytes)) s2
/-- A die whose active controller fails measurement runs the other. -/
def State.startControllers (s : State) (b : BootResult) : State :=
  (List.range 4).foldl (fun a d => if (fwOf b.active d).ok then a else a.modDie d fun x => { x with ctl := { x.ctl with active := 1 } }) s
/-- Doorbells and functions as the controllers assign them (R445, R449). -/
def State.assignDoorbells (s : State) (l : List (Nat × Nat × W16)) : State :=
  l.foldl (fun a e => a.modOut fun o => { o with
    doorbell := o.doorbell.set (e.1 % 512) (e.2.1 % 65, e.2.2), fnOf := o.fnOf.put 0 e.2.2.toNat (e.2.1 % 65) }) s

/-- POWER_ON_RESET (R456, R458): the steps in order; the first failure stops the boot. The parts' own results are the
event's, and so is the configuration block that it reads. A supervisor file that does not verify, or that has no entry to
start at, fails the boot with FAIL 4. When the package is READY, each doorbell has the ASID that the controllers give it (R449). -/
def execPowerOnReset (b : BootResult) (s : State) : Outcome State Fault Refusal :=
  let s0 := s.powerUp
  let stop := fun (a : State) (step fail : Nat) => Outcome.next (a.modOut fun o => { o with boot := bootWord false step fail })
  if 655360 < (supSpadOf b.config) then .refused (.notOffered "POWER_ON_RESET")
  else if !b.pllOk then stop s0 0 1
  else if !b.configOk then stop s0 0 2
  else
    let s1 := (s0.goodRecords b).foldl State.applyRecord s0
    let s2 := b.badLanes.foldl State.spareLane s1
    if !b.badStacks.isEmpty then stop s2 1 3
    else if (s0.failedParts b).any fun p => match p with | .ordering _ => true | _ => false then stop s2 2 5
    else
      let s3 := b.badRows.foldl State.rowOut (b.failed.foldl State.takeOut s2)
      let s4 := (s3.measureBoot b).modOut fun o => { o with keys := b.config.keys }
      let ok := (List.range 4).all fun d => (fwOf b.active d).ok || (fwOf b.standby d).ok
      let s5 := if ok then (s4.startControllers b).extend 1 (sha512 b.config.supFile) else s4
      match (if ok && signatureOk b.config.keys b.config.supFile then defaultEntry b.config.supFile else none) with
      | none => stop s5 4 4
      | some (img, words, entry) =>
        let s6 := (List.range 64).foldl (fun a c => a.startSupervisor b.config img words entry c) s5
        let s7 := (s6.modPkg fun p => { p with images := [⟨supAsidOf b.config, img, words, []⟩] }).assignDoorbells b.config.doorbells
        .next (s7.modOut fun o => { o with boot := bootWord true 6 0 })

/-! ## Take-over (R463) -/

/-- The new active controller applies the journal entries beyond the mirror, each once by its number, and releases the held
completions; what it finds kicked is processed as its own step: a completion, or the arm that waits for it. -/
def Controller.promote (c : Controller) : Controller :=
  { c with active := 1 - c.active, alive := true, mirror := c.seqno, queue := [] }
/-- Journal entries that a mirror has not. -/
def Controller.beyond (c : Controller) : List (W64 × JournalFn) := c.journal.filter fun e => decide (c.mirror.toNat < e.1.toNat)
/-- The standby loads firmware and is measured, and its digest extends register 2. One that passes becomes the active controller.
One that fails is not promoted: after a heartbeat miss (`dead`) the die then has no active controller, and completions, arms, fault
answers and code-absent messages of the die wait. -/
def takeOver (name : String) (dead : Bool) (die : Nat) (fw : List W8) (ok : Bool) (s : State) : Outcome State Fault Refusal :=
  outside name (s.ready && decide (die < 4)) s fun s =>
    let s1 := s.extend 2 (sha512 fw)
    if !ok then (if dead then s1.modDie die fun d => { d with ctl := { d.ctl with alive := false } } else s1)
    else (if s1.ctlAlive die then s1.journal die .command else s1).modDie die fun d => { d with ctl := d.ctl.promote }
/-- HEARTBEAT_MISS (R463). -/
def execHeartbeatMiss (die : Nat) (fw : List W8) (ok : Bool) (s : State) : Outcome State Fault Refusal :=
  takeOver "HEARTBEAT_MISS" true die fw ok s
/-- FIRMWARE_UPDATE (R463). -/
def execFirmwareUpdate (die : Nat) (fw : List W8) (ok : Bool) (s : State) : Outcome State Fault Refusal :=
  takeOver "FIRMWARE_UPDATE" false die fw ok s

/-! ## Attestation (R465) -/

/-- The measurement registers, as they stand. -/
def State.measurements (s : State) : List W8 := (List.range 8).flatMap fun i => leBytes 64 (s.out.meas.getD i 0).toNat
/-- A signature's bytes over a payload. -/
def signed (l : List W8) : List W8 := leBytes 132 (Config.spdmSign l).toNat
/-- Answer a request; attestation is served even after a failed boot. -/
def attest (name : String) (a : Spdm) (payload : State → List W8) (s : State) : Outcome State Fault Refusal :=
  outside name (s.out.tray != .off) s fun s => s.send (.spdm a (payload s))

/-- SPDM_GET_VERSION: version 1.2. -/
def execSpdmGetVersion (s : State) : Outcome State Fault Refusal := attest "SPDM_GET_VERSION" .version (fun _ => [0x12]) s
/-- SPDM_GET_CAPABILITIES: certificates, challenges and signed measurements, and no secure session: the flags of SPDM 1.2, bits 1, 2
and 4 (log entry 89). -/
def execSpdmGetCapabilities (s : State) : Outcome State Fault Refusal :=
  attest "SPDM_GET_CAPABILITIES" .capabilities (fun _ => leBytes 4 0x16) s
/-- SPDM_NEGOTIATE_ALGORITHMS: ECDSA on P-521 (bit 8 of the asymmetric algorithms of SPDM 1.2) over SHA-512 (bit 2 of its hashes),
whatever is offered (log entry 89). -/
def execSpdmNegotiateAlgorithms (_req : List W8) (s : State) : Outcome State Fault Refusal :=
  attest "SPDM_NEGOTIATE_ALGORITHMS" .algorithms (fun _ => leBytes 4 0x100 ++ leBytes 4 4) s
/-- SPDM_GET_DIGESTS: the digest of the certificate chain. -/
def execSpdmGetDigests (s : State) : Outcome State Fault Refusal :=
  attest "SPDM_GET_DIGESTS" .digests (fun _ => leBytes 64 (sha512 Config.certChain).toNat) s
/-- SPDM_GET_CERTIFICATE: a part of the chain. -/
def execSpdmGetCertificate (off n : Nat) (s : State) : Outcome State Fault Refusal :=
  attest "SPDM_GET_CERTIFICATE" .certificate (fun _ => (Config.certChain.drop off).take n) s
/-- SPDM_CHALLENGE: signed over the nonce and the digest of the chain. -/
def execSpdmChallenge (nonce : BitVec 256) (s : State) : Outcome State Fault Refusal :=
  attest "SPDM_CHALLENGE" .challengeAuth (fun _ =>
    let l := leBytes 32 nonce.toNat ++ leBytes 64 (sha512 Config.certChain).toNat
    l ++ signed l) s
/-- SPDM_GET_MEASUREMENTS: the eight registers as they stand, signed with the nonce. -/
def execSpdmGetMeasurements (nonce : BitVec 256) (s : State) : Outcome State Fault Refusal :=
  attest "SPDM_GET_MEASUREMENTS" .measurements (fun s =>
    let l := s.measurements ++ leBytes 32 nonce.toNat
    l ++ signed l) s

end Sys2Proof.Machine
end

