-- ==== Sys2Proof/Machine/Ozrum.lean ====
section
/-! DEFINITION. Loading an Ozrum file (R99-R106, R109, R466): where its sections, records and bobbins go, and the controller's
page mappings. What the dispatch controller chooses is log entry 11. -/

namespace Sys2Proof.Machine

open Host (Outcome)

/-! ## Where things go (R101, R102, R466) -/

/-- The 64 KiB pages of `n` bytes from an address. -/
def pagesOf (a n : Nat) : Nat × Nat := (a / 65536, (a % 65536 + n + 65535) / 65536)
def pagesMeet (a b : Nat × Nat) : Bool := decide (a.1 < b.1 + b.2) && decide (b.1 < a.1 + a.2)
/-- The lowest run of `n` pages from `from_` on that no held run meets. -/
def freePages (held : List (Nat × Nat)) (from_ n : Nat) : Nat :=
  (sortNat (from_ :: (held.map fun h => h.1 + h.2).filter fun p => decide (from_ ≤ p))).find?
    (fun p => !held.any (pagesMeet (p, n))) |>.getD from_

/-- Addresses of the data sections: as linked, or by R466's rule at load; `none` when a linked file meets pages already
loaded. -/
def State.placeData (s : State) (asid : W16) (file : List W8) (secs : List Sec) : Option (Tab Nat) :=
  let held := (s.pkg.pages.filter fun e => e.1 == asid).map fun e => e.2
  let ds := ofKind secs 2
  if linkedFile file then
    if ds.any fun e => e.2.mlen != 0 && held.any (pagesMeet (pagesOf e.2.addr e.2.mlen)) then none
    else some (ds.foldl (fun t e => t.set e.1 e.2.addr) [])
  else
    some (ds.foldl (fun (a : Tab Nat × Nat) e =>
      let n := (e.2.mlen + 65535) / 65536
      let p := freePages held a.2 n
      (a.1.set e.1 (p * 65536), p + n)) ([], 0x0080000000010000 / 65536)).1

/-- A template's header and record (R101). -/
structure Template where
  sec  : Nat
  idx  : Nat
  ver  : Nat
  spad : Nat
  succs : Nat
  nsucc : Nat
  rec_ : List W8
deriving DecidableEq, Repr

def templatesOf (secs : List Sec) (bytes : Nat → List W8) : List Template :=
  (ofKind secs 4).flatMap fun e => (List.range (e.2.flen / 288)).map fun i =>
    let b := ((bytes e.1).drop (288 * i)).take 288
    ⟨e.1, i, fieldOf b 4 2, fieldOf b 6 2, fieldOf b 8 4, fieldOf b 12 1, b.drop 32⟩
/-- The dies in the order in which a template's record looks for a pantry (R101): those that its PLACE names, from the lowest up,
then the others from the lowest named one on. A PLACE that names no cluster begins at die 0, the model's choice (log entry 17). -/
def placeDies (r : List W8) : List Nat :=
  let named := (List.range 4).filter fun d => fieldOf r (56 + 2 * d) 2 != 0
  let d := named.headD 0
  named ++ ([d, (d + 1) % 4, (d + 2) % 4, (d + 3) % 4].filter fun k => !named.contains k)
/-- A free record of a die for an ASID. -/
def State.freeRecord (s : State) (asid : W16) (die : Nat) (taken : List Nat) : Option Nat :=
  ((List.range 4096).find? fun i => ((s.die die).pantry.find i).isNone && !taken.contains (die * 4096 + i) &&
    ((s.die die).owner.find i).all fun a => a == asid).map fun i => die * 4096 + i
/-- LIDs for the templates, in order (R101). -/
def State.placeRecords (s : State) (asid : W16) (ts : List Template) : Option (List ((Nat × Nat) × Nat)) :=
  ts.foldl (fun a t => a.bind fun l =>
    let taken := l.map fun e => e.2
    ((placeDies t.rec_).findSome? fun k => s.freeRecord asid k taken).map fun lid =>
      l ++ [((t.sec, t.idx), lid)]) (some [])

/-- An ASID's ring window: the controller sets it when it sets up the ASID, 256 bobbins each, in order (R410, log entry
11). -/
def State.setupRing (s : State) (asid : W16) : State :=
  if (s.ring.part.find asid.toNat).isSome then s
  else
    let n := s.ring.part.length * 256
    if 4096 < n + 256 then s
    else
      let w := BitVec.ofNat 64 (n + (n + 256) * 2 ^ 12 + asid.toNat * 2 ^ 25 + 2 ^ 41)
      { s with ring := { s.ring with part := s.ring.part.set asid.toNat w } }
/-- An ASID that the controller sets up gets the lowest doorbell that has none, with its function (R449, log entry 11); one that has a
doorbell keeps it. -/
def State.setupDoorbell (s : State) (asid : W16) : State :=
  if s.out.doorbell.any fun e => e.2.2 == asid then s
  else match (List.range 512).find? fun n => (s.out.doorbell.find n).isNone with
    | some n => s.modOut fun o => { o with doorbell := o.doorbell.set n (o.fnOf.getD asid.toNat 0, asid) }
    | none => s
/-- The lowest free run of `n` bobbins of a window (R102). -/
def freeBobbins (base lim : Nat) (held : List (Nat × Nat)) (retired : List Nat) (n : Nat) : Option Nat :=
  (List.range (lim - base)).findSome? fun i =>
    let b := base + i
    if decide (b + n ≤ lim) && !held.any (pagesMeet (b, n)) && !retired.any fun r => decide (b ≤ r) && decide (r < b + n) then
      some b else none
/-- Bobbins for the kind 5 entries in table order: symbol, first, count, whether they are zeroed. R102 defines bit 0 of RFLAGS alone:
an entry with another bit set is refused, the model's choice (log entry 15). -/
def State.placeRings (s : State) (asid : W16) (es : List (List W8)) : Option (List (Nat × Nat × Nat × Bool)) :=
  let w := s.ring.part.getD asid.toNat 0
  let held := (s.pkg.bobbins.filter fun e => e.1 == asid).map fun e => e.2
  es.foldl (fun a e => a.bind fun l =>
    let n := fieldOf e 4 4
    if n < 1 ∨ 4096 < n ∨ 1 < fieldOf e 8 4 then none
    else if !w.getLsbD 41 then none
    else (freeBobbins (metaF w 0 12) (metaF w 12 13) (held ++ l.map fun x => (x.2.1, x.2.2.1)) s.ring.retired n).map fun b =>
      l ++ [(fieldOf e 12 4, b, n, fieldOf e 8 4 == 1)]) (some [])

/-! ## Everything a load does -/

/-- A checked load: all that is needed to perform it. -/
structure Load where
  data   : List (Nat × Bool × Nat × List W8)
  images : List CodeImage
  recs   : List (Nat × Template)
  lids   : List ((Nat × Nat) × Nat)
  spads  : List (Nat × SpadInit)
  rings  : List (Nat × Nat × Nat × Bool)

/-- The LID that a successor's symbol names (R101); a symbol index beyond the table, or one without a value, becomes 0xFFFF
(none), the model's choice (log entry 17). -/
def lidOfSym (secs : List Sec) (p : Placing) (syms : List (List W8)) (n : Nat) : Nat :=
  ((syms[n]?).bind fun e => symValue secs p n e).getD 0xFFFF % 65536

/-- The checks of R99 to R106 and R466, and what follows from them; `none` for a breach. That an undefined symbol in a linked file
(R103) is one, with the reason of the others, is the model's choice (log entry 15). -/
def State.planLoad (s : State) (asid : W16) (file : List W8) : Option Load :=
  let secs := secsOf file
  let codes := ofKind secs 1
  let imgs := codes.map fun e => e.2.img
  let syms := (ofKind secs 6).flatMap fun e => e.2.entries file 24
  let lrOk := (List.range (fieldOf file 68 2 + 1 - fieldOf file 66 2)).all fun i =>
    decide (fieldOf file 66 2 + i < 64) && (s.lrver asid).getLsbD (fieldOf file 66 2 + i)
  let codesOk := codes.all fun e => e.2.mlen % 4 == 0 && decide (e.2.mlen ≤ 262144) && decide (e.2.img ≤ 0xFFFE) &&
    imgs.count e.2.img == 1
  let undef := linkedFile file && syms.any fun e => fieldOf e 4 4 == 0xFFFFFFFE
  let relOk := ((ofKind secs 7).all fun e => decide (e.2.link < secs.length)) &&
    (ofKind secs 8 ++ ofKind secs 9).all fun e => (secs[e.2.link]?).any fun x => x.kind == 1
  if !lrOk ∨ !codesOk ∨ undef ∨ !relOk then none
  else
    (s.placeData asid file secs).bind fun addrs =>
    (s.placeRings asid ((ofKind secs 5).flatMap fun e => e.2.entries file 16)).bind fun rings =>
    let raw := templatesOf secs fun i => (secs[i]?.map fun x => x.bytes file).getD []
    (s.placeRecords asid raw).bind fun lids =>
    let p : Placing := ⟨addrs, lids, rings.map fun r => (r.1, r.2.1)⟩
    ((secs.zipIdx).foldl (fun (a : Option (Tab (List W8))) e => a.bind fun t =>
      (relocated file secs p syms e.2 e.1).map fun b => t.set e.2 b) (some [])).bind fun bytes =>
    let ts := templatesOf secs fun i => bytes.getD i []
    let tOk := ts.all fun t => decide (t.nsucc ≤ 8) && (t.nsucc != 0 || t.succs == 0xFFFFFFFF) &&
      decide (fieldOf file 66 2 ≤ t.ver) && decide (t.ver ≤ fieldOf file 68 2) &&
      (t.spad == 0 || (secs[t.spad]?).any fun x => x.kind == 3 && decide (16 ≤ x.mlen) &&
        decide (x.addr + x.mlen - 16 ≤ fieldOf t.rec_ 44 4))
    let resOk := (ofKind secs 4).all fun e => (e.2.entries file 288).all fun b =>
      zeroBytes b 13 19 && zeroBytes b (32 + 53) 1 && zeroBytes b (32 + 55) 1 && zeroBytes b (32 + 248) 8
    let spOk := (ofKind secs 3).all fun e => ((e.2.bytes file).take 16).all fun b => decide (b.toNat ≤ 9) || b == 0xFF
    if !tOk ∨ !resOk ∨ !spOk then none
    else
      (codes.foldl (fun (a : Option (List CodeImage)) e => a.bind fun l =>
        (safePoints file secs e.1 (e.2.mlen / 4)).map fun sp =>
          let b := bytes.getD e.1 []
          l ++ [⟨asid, BitVec.ofNat 16 e.2.img, codeWords b e.2.mlen, sp⟩])
        (some [])).map fun images =>
        { data := (ofKind secs 2).filterMap fun e =>
            if e.2.mlen = 0 then none else some (addrs.getD e.1 0, e.2.flags / 2 % 2 == 1, e.2.mlen, bytes.getD e.1 [])
          images := images
          recs := (ts.zip lids).map fun e => (e.2.2,
            { e.1 with rec_ := putBytes e.1.rec_ 64 ((List.range 8).flatMap fun i =>
                leBytes 2 (if i < e.1.nsucc then lidOfSym secs p syms (e.1.succs + i) else 0xFFFF)) })
          lids := lids
          spads := (ts.zip lids).filterMap fun e =>
            (if e.1.spad = 0 then none else secs[e.1.spad]?).map fun x =>
              let b := bytes.getD e.1.spad []
              (e.2.2, ⟨b.take 16, x.addr, b.drop 16 ++ List.replicate (x.mlen - max 16 b.length) 0⟩)
          rings := rings }

/-! ## Mapping (R394, R395, R466) -/

/-- The table below an entry, made when there is none: its PA. -/
def State.nextTable (s : State) (die at_ : Nat) (root : Bool) : Nat × State :=
  let e : W64 := BitVec.ofNat 64 (s.rd (physKey die at_) 8)
  if (if root then e != 0 else e.getLsbD 0) then (if root then e.toNat else (e.extractLsb' 8 44).toNat * 256, s)
  else
    let (f, s1) := s.takeFrames die 1
    (f, s1.writeHome (physKey die at_) 8 (if root then f else f + 1))
/-- The page of an address becomes writable: its leaf's W bit rises, and no die or core keeps the old translation. -/
def State.allowWrite (s : State) (asid : W16) (space va : Nat) : State :=
  let die := homeDie space va
  let root := s.rd (physKey die ((s.die die).rootBase + 16 * asid.toNat + if space = 8 then 8 else 0)) 8
  match State.mergeDirty.walkAt s.mem die space va 4 root with
  | none => s
  | some (at_, e, size) =>
    let gone := fun (x : Xlat) => x.asid == asid && x.space.toNat == space && va / pageBytes size == x.vpage / pageBytes size
    let s1 := (s.writeHome (physKey die at_) 8 (e ||| 4).toNat).modDie die fun d => { d with tlb := d.tlb.filter fun x => !gone x }
    { s1 with cores := s1.cores.map fun (c : Nat × Core) =>
        (c.1, { c.2 with m := { c.2.m with tcache := c.2.m.tcache.filter fun x => !gone x } }) }
/-- Map the page of an address for an ASID: 64 KiB, or 2 MiB for `big`. A page that it has keeps its frame, and a writable section
makes it writable (R97). -/
def State.mapPage (s : State) (asid : W16) (space va : Nat) (big writable : Bool) : State :=
  if (s.keyOf asid space va).isSome then (if writable then s.allowWrite asid space va else s)
  else
    let die := homeDie space va
    let (t1, s1) := s.nextTable die ((s.die die).rootBase + 16 * asid.toNat + if space = 8 then 8 else 0) true
    let (t2, s2) := s1.nextTable die (t1 + 8 * walkIndex va 1) false
    let (t3, s3) := s2.nextTable die (t2 + 8 * walkIndex va 2) false
    let flags := 3 + if writable then 4 else 0
    if big then
      let (f, s4) := s3.takeFrames die 32
      s4.writeHome (physKey die (t3 + 8 * walkIndex va 3)) 8 (f + flags)
    else
      let (t4, s4) := s3.nextTable die (t3 + 8 * walkIndex va 3) false
      let (f, s5) := s4.takeFrames die 1
      s5.writeHome (physKey die (t4 + 8 * walkIndex va 4)) 8 (f + flags)
/-- Map every page of a range. -/
def State.mapRange (s : State) (asid : W16) (a n : Nat) (big writable : Bool) : State :=
  let k := if big then 0x200000 else 0x10000
  (List.range ((a % k + n + k - 1) / k)).foldl (fun b i =>
    match resolve 0 (BitVec.ofNat 64 (a / k * k + k * i)) with
    | some (.glob space va) => b.mapPage asid space va big writable
    | _ => b) s

/-- Bytes that a launch's save can need at most (R372). -/
def saveBound (r : Rec) : Nat :=
  let per := roundUp (256 + 32 * 512 + 7 * 16 + r.accs * 16384 + roundUp r.spad 64 + roundUp r.spad 64 / 32 + 8) 256
  let tasks := min 16 (if r.slots = 0 then 16 else 16 / r.slots)
  256 + 576 * 128 + per * tasks * r.placement.length

/-- Put a template's record into its pantry: idle, owned by the ASID, with its save area (R101, R351). -/
def State.putRecord (s : State) (asid : W16) (lid : Nat) (t : Template) : State :=
  let r0 : Rec := BitVec.ofNat 2048 (ofBytes t.rec_)
  let r1 := (((r0.put 0 2 t.ver).put 2 2 0).put 6 2 asid.toNat).put 96 8 0
  let r2 := ((r1.put 53 1 0).put 55 1 0).put 248 8 0
  let r3 := r2.put 52 1 r2.winit
  let n := saveBound r3
  let at_ := s.pkg.saveNext
  let space := 4 + lid / 4096
  let save := space * 2 ^ 52 + at_ + 4096
  let s1 := s.mapRange asid (space * 2 ^ 52 + at_) (4096 + n) true true
  (s1.modPkg fun p => { p with saveNext := roundUp (at_ + 4096 + n) 0x200000 }).setRec (BitVec.ofNat 16 lid) (r3.put 88 8 save)

/-- Perform a load. An image id that an earlier file of the ASID holds is replaced in the controllers' copy, the model's choice
(log entry 19). -/
def State.performLoad (s : State) (asid : W16) (l : Load) : State :=
  let s1 := l.data.foldl (fun a d =>
    let bytes := d.2.2.2 ++ List.replicate (d.2.2.1 - d.2.2.2.length) 0
    let b := (a.mapRange asid d.1 d.2.2.1 false d.2.1).writeArea asid (bytes.length / 64 + 2) (BitVec.ofNat 64 d.1) bytes
    b.modPkg fun p => { p with pages := p.pages ++ [(asid, (pagesOf d.1 d.2.2.1).1, (pagesOf d.1 d.2.2.1).2)] }) s
  let s2 := s1.modPkg fun p => { p with
    images := (p.images.filter fun i => !(i.asid == asid && l.images.any fun j => j.id == i.id)) ++ l.images
    bobbins := p.bobbins ++ l.rings.map fun r => (asid, r.2.1, r.2.2.1) }
  let s3 := l.rings.foldl (fun a r => if r.2.2.2 then (List.range r.2.2.1).foldl (fun b i => b.setBob (r.2.1 + i) {}) a else a) s2
  let s4 := l.recs.foldl (fun a e => a.putRecord asid e.1 e.2) s3
  l.spads.foldl (fun a e => a.modDie (e.1 / 4096) fun d => { d with spad := d.spad.set (e.1 % 4096) e.2 }) s4

/-- MGMT_LOAD_OZRUM (R109, R450): the file is loaded whole or rejected whole; an accepted file's digest extends measurement
register 4 (R464). The spec gives the reasons no numbers: 1 header, 2 section bounds, 3 kinds and reserved fields, 4 a breach of
the rules that R109 names, 5 a signature that fails, 6 one that is missing are the model's (log entry 20). -/
def execMgmtLoadOzrum (asid : W16) (file : List W8) (s : State) : Outcome State Fault Refusal :=
  outside "MGMT_LOAD_OZRUM" (s.ready && s.served) s fun s =>
    let s0 := (s.setupRing asid).setupDoorbell asid
    let bad := headerError file
    let reply := fun (a : State) (v : Nat) => a.send (.reply [BitVec.ofNat 8 v])
    if bad ≠ 0 then reply s0 bad
    else match s0.planLoad asid file with
      | none => reply s0 4
      | some l =>
        if signedFile file ∧ !signatureOk s0.out.keys file then reply s0 5
        else if !signedFile file ∧ s0.pkg.signed.contains asid then reply s0 6
        else reply (((s0.performLoad asid l).extend 4 (sha512 file)).journal 0 .command) 0

end Sys2Proof.Machine
end

