-- ==== Sys2Proof/Machine/Sched.lean ====
section
/-! DEFINITION. What comes next (log entry 3): which parked threads go on (R178), which slots are filled (R179-R181), which
steps in flight may be performed now, the deadlock detector (R317, R318), which timed steps and turns are due (R177), and the
choice among them. -/

namespace Sys2Proof.Machine

open Host (Outcome)

/-! ## The end of a wait (R20, R178) -/

/-- No older load `id` is in flight. -/
def State.loadGone (s : State) (id : Nat) : Bool := !(s.flying.any fun f => f.id == id)

/-- What a parked thread waits for holds. Waits that another step ends have no condition here. -/
def State.waitOver (s : State) (t : Tid) (th : Thread) (w : Wait) : Bool :=
  let c := th.core
  match w with
  | .reg n => th.full n
  | .anyReg m => (List.range 16).any fun i => m.getLsbD i && th.full (BitVec.ofNat 4 i)
  | .vreg v => !s.vecPending t v
  | .producers => s.producersDone t th
  | .loads => s.loadsDone t
  | .drained => (s.openHomes t th false).isEmpty || !th.mo.deferred.isEmpty
  | .slots32 => decide (s.outstanding t th < 32)
  | .war id => s.loadGone id
  | .entry va => (s.csbAll (clusterOf c) th.c.asid va).isEmpty
  | .release => !th.mo.deferred.isEmpty || (match th.mo.rel with
      | some r => s.releaseOver t th r
      | none => true)
  | .request id => th.mo.acquired || th.mo.waitId != id
  | .token => th.c.wake
  | .storeRoom => decide ((s.cluster (clusterOf c)).csb.length < 1024)
  | .lockRoom n => decide (n ≤ s.lockSpace c)
  | .mmaRoom => s.mmaRoom c
  | .acc a => !s.accBusy c a
  | .vsrc v => !s.groupBusy t th v
  | .dirtyRoom => decide ((s.core c).m.dlog.length < 64)
  | .logRoom => (s.core c).m.wlog.isEmpty
  | .bank b => !s.bankAsleep c b
  | .cbCount n x => decide (x ≤ cbCount (s.cb c n))
  | .cbRoom n x => decide (x ≤ cbRoom (s.cb c n))
  | .engine b => !((s.binding c b).any fun x => x.stage.isSome)
  | .barrier n k => phaseDone (s.tag n).done k
  | .gangJoin l => th.gang.isNone && (s.pendingLeader l (th.bslot.getD 0)).isSome
  | .gangForm => th.gang.any Gang.formed
  | .place => (s.die (dieOf c)).prio == some t
  | .placeAt ratio => th.region.any fun r => !s.delayed (s.regionDecision th r ratio).set t
  | .merge => !((s.core c).m.l1.any fun l => l.leaving)
  | .echo => true
  | .launch lid _ => th.mo.reply.isSome || (s.rec? lid).isNone
  | .stationRoom => decide ((s.core c).r.queue.length < 16)
  | .ringDone => !s.ringQueued t && !s.ringOpen t
  | .ringHold h => (th.hold h).st != .busy
  | .walker => s.pkg.pre == .none
  | .controller d => s.ctlAlive d
  | .halt k => (s.haltGroup k).all s.coreQuiet
  | .peerCopy p => !s.peerCopyOpen t p
  | .supervisor | .fpHeld | .code | .turn | .clearing | .translation => false

/-- A parked thread whose wait is over, on a core that runs; while a pre-emption is requested only waits that finish end
(R370). -/
def State.wakes (s : State) (t : Tid) (th : Thread) : Bool :=
  match th.run with
  | .parked w => (s.pkg.pre == .none || (s.pkg.pre != .saved && w.finishes)) &&
      (s.coreMode th.core == .running || s.finishesHalt th) && s.waitOver t th w
  | _ => false
/-- Threads whose word a bank's wake has let go on, until the word has issued again: a gate request waits for them (R192). -/
def State.noteWoken (s : State) : State :=
  let new := s.threads.filterMap fun e => match e.2.run with
    | .parked (.bank b) => if s.wakes e.1 e.2 then some (e.2.core, e.1, b, e.2.c.pc) else none
    | _ => none
  let stale := fun (w : Tid × Nat × W32) => (s.threads.find w.1).all fun u => u.c.pc != w.2.2 || u.isParked
  if new.isEmpty && s.cores.all (fun c => c.2.m.woken.isEmpty) then s
  else
    let s1 := { s with cores := s.cores.map fun (c : Nat × Core) =>
      (c.1, { c.2 with m := { c.2.m with woken := c.2.m.woken.filter fun w => !stale w } }) }
    new.foldl (fun a e => a.modM e.1 fun m => { m with woken := m.woken ++ [e.2] }) s1
/-- Parked threads whose wait is over become ready; those of a package whose pre-emption has been requested stop. -/
def State.wakeAll (s : State) : State :=
  let s0 := match s.pkg.pre with
    | .requested _ => s.stopParked
    | _ => s
  let s1 := s0.noteWoken
  { s1 with
    threads := s1.threads.map fun (e : Nat × Thread) => if s0.wakes e.1 e.2 then (e.1, e.2.wakeAt s.cycle) else e }

/-! ## Slots (R177-R181) -/

/-- The first turn of slot `k` at or after a cycle (R177). -/
def turnAt (k lo : Nat) : Nat := lo + (k + 16 - lo % 16) % 16

/-- A slot holds no thread. -/
def State.vacant (s : State) (core k : Nat) : Bool := !(s.threads.any fun e => e.2.core == core && e.2.bslot == some k)
/-- The thread bound to a slot. -/
def State.ownerOf (s : State) (core k : Nat) : Option Thread :=
  (s.threads.find? fun e => e.2.core == core && e.2.bound == some k).map fun e => e.2
/-- The next ordinal of a deterministic lane is to start in the slot. -/
def State.laneKept (s : State) (core k : Nat) : Bool :=
  s.pool.any fun i => match i with
    | .taskStart r => r.core == core && r.slot == some k
    | _ => false
/-- A ready thread may take a slot (R180, R181): its own where it is bound; else one that nobody owns, or for a mobile
thread one whose owner is parked. Slot 0 of core 7 is the supervisor's (R284). -/
def State.mayFill (s : State) (th : Thread) (k : Nat) : Bool :=
  s.vacant th.core k &&
    (match th.bound with
     | some b => b == k
     | none =>
       !(th.core % 8 == 7 && k == 0) && !s.laneKept th.core k &&
         (match s.ownerOf th.core k with
          | none => true
          | some o => th.mob && o.lau.lane.isNone && o.isParked))

/-- The cycle since which a thread is ready. -/
def Thread.readySince (th : Thread) : Option Nat := match th.run with | .ready n => some n | _ => none
/-- The first turn of a slot that a ready thread may take (R179). -/
def State.firstTurn (s : State) (since k : Nat) : Nat := turnAt k (max (since + 16) (s.cycle + 1))
/-- The eligible slot whose turn comes first. -/
def State.bestSlot (s : State) (th : Thread) (since : Nat) : Option Nat :=
  (List.range 16).foldl (fun a k =>
    if s.mayFill th k then
      match a with
      | none => some k
      | some b => if s.firstTurn since k < s.firstTurn since b then some k else a
    else a) none

/-- The ready order (R179): priority, ready cycle, context index; a borrower that gave its slot back stands at the head of its
priority (R180). -/
def readyBefore (a b : Tid × Nat × Thread) : Bool :=
  let p := a.2.2.lau.prio.toNat
  let q := b.2.2.lau.prio.toNat
  let order := decide (a.2.1 < b.2.1) || (a.2.1 == b.2.1 && decide (a.2.2.cidx ≤ b.2.2.cidx))
  decide (q < p) || (p == q && ((a.2.2.lent && !b.2.2.lent) || (a.2.2.lent == b.2.2.lent && order)))
/-- The ready threads, in order. -/
def State.readyOnes (s : State) : List (Tid × Nat × Thread) :=
  sortBy readyBefore (s.threads.filterMap fun e => e.2.readySince.map fun n => (e.1, n, e.2))

/-- A borrower leaves a slot whose owner's turn comes next (R180): it is first in the ready order. -/
def State.displace (s : State) (e : Tid × Nat × Thread) : State :=
  match e.2.2.bound with
  | none => s
  | some k =>
    match s.threads.find? fun x => x.2.core == e.2.2.core && x.2.bslot == some k && x.1 != e.1 with
    | some (b, u) =>
      match u.run with
      | .slot n =>
        if s.firstTurn e.2.1 k ≤ turnAt k (max n s.cycle) then s.setThread b { u with run := .ready (n - 16), bslot := none, lent := true } else s
      | _ => s
    | none => s

/-- A ready thread takes its slot; one with vector state is then bound to it (R180). -/
def State.seat (s : State) (e : Tid × Nat × Thread) : State :=
  let th := e.2.2
  match s.bestSlot th e.2.1 with
  | none => s
  | some k =>
    s.setThread e.1 { th with
      run := .slot (s.firstTurn e.2.1 k), bslot := some k, lent := false, bound := if th.vx && th.bound.isNone then some k else th.bound }

/-- A held access that an answer has let go on is still to be performed. -/
def State.stillOut (s : State) (i : Instr) : Bool :=
  match i with
  | .accTransferCompletion c => ((s.core c).e.queue.head?.map MmaOp.stage) == some .started
  | .firingOperandsConsumed c b => ((s.binding c b).bind Binding.stage) == some .started
  | i => s.pool.contains i
/-- The held accesses of a page replay in the order in which they arrived (R398). -/
def State.replayTurn (s : State) (i : Instr) : Bool := s.dies.all fun e => e.2.replays.isEmpty ||
  (match e.2.replays.find? fun r => r.2 == i with
   | none => true
   | some r => ((e.2.replays.find? fun q => q.1 == r.1 && s.stillOut q.2).map fun q => q.2) == some i || !s.stillOut i)
/-- Accesses that have been performed leave the replays, and requests that wait in a die interface enter where room is (R396). -/
def State.admitWaiting (s : State) : State :=
  if s.dies.all fun e => e.2.replays.isEmpty && e.2.held.all fun h => !h.waits then s
  else s.dies.foldl (fun (a : State) e =>
    let d := e.2
    let n := 4096 - d.held.countP fun h => !h.waits
    let go := (d.held.filter fun h => h.waits).take n
    { a.modDie e.1 fun d => { d with replays := d.replays.filter fun r => s.stillOut r.2, held := d.held.filter fun h => !go.contains h } with
      pool := a.pool ++ go.map HeldFault.ev }) s

/-- Wake what is due and fill the slots. -/
def State.refresh (s : State) : State :=
  let s1 := s.admitWaiting.wakeAll
  let s2 := s1.readyOnes.foldl State.displace s1
  s2.readyOnes.foldl State.seat s2

/-! ## Steps that may come now -/

/-- A step in flight may be performed, whatever the cycle. -/
def State.offered (s : State) (i : Instr) : Bool :=
  match i with
  | .faultMessageDelivery p => faultRoom s p
  | .loadCompletion r => loadReady s r
  | .storePerformAtHome r => storeReady s r
  | .atomicAtHome a => atomReady s a
  | .remoteUpdate a => atomReady s a
  | .migrationDeparture t _ => departReady s t
  | .migrationArrival m => arriveReady s m
  | .codeAbsent c t => codeReady s c t
  | .codeStartMessage _ _ _ | .codeRefusal _ _ | .resumeMessage _ | .clusterControlWrite _ | .clusterControlRead _ |
    .dirtyLogMerge _ | .regionSquash _ | .umeRoundCompletion _ |
    .copyPeerArrival _ _ _ _ _ _ | .hostRead _ _ _ | .tidReleaseMessage _ => true
  | .hostWrite _ _ _ _ | .doorbellWrite _ _ | .hwakeWrite _ _ | .registerWrite _ _ _ => s.hostTurn i
  | .copyCompletion r => copyDone r
  | .launchCompletion l => s.doneReady l
  | .syncAccessServe r => syncReady s r
  | .mailboxDelivery p => deliveryReady s p
  | .copyEngineStart r => copyReady s r
  | .bankGateEffect c b => gateReady s c b
  | .storeBufferDrain c i => drainReady s c i
  | .signaturePlacement t sc => placeReady s t sc
  | .releaseProbeEcho t p => echoOk s t p
  | .writeLogAppend c => wlogReady s c
  | .taskStart r => taskReady s r
  | .preemptionResume => s.pkg.pre == .saved
  | .umeCfgBlockRead r => cfgReady s r
  | .umeRoundExecution r => roundReady s r
  | .trayDrain => s.drained
  | .translationProbe t => probeReady s t
  | _ => false

/-- The steps of a core's engines that may come now. -/
def State.engineSteps (s : State) (e : Nat × Core) : List Instr :=
  let c := e.1
  (if startReady s c then [.mmaEngineStart c] else []) ++ (if consumedReady s c then [.mmaOperandsConsumed c] else []) ++
    (if completionReady s c then [.mmaCompletion c] else []) ++
    (if transferReady s c then [.accTransferCompletion c] else []) ++
    e.2.e.eng.flatMap fun b =>
      (if firingReady s c b.1 then [.engineFiring c b.1] else []) ++
        (if firingConsumedReady s c b.1 then [.firingOperandsConsumed c b.1] else []) ++
        (if firingDoneReady s c b.1 then [.firingCompletion c b.1] else [])

/-- The steps of the launch system that may come now: commits of deterministic lanes, hand-outs and splits. -/
def State.launchSteps (s : State) : List Instr :=
  (s.pkg.det.filterMap fun d =>
    match s.turnOf (BitVec.ofNat 16 d.1) with
    | some (_, t) => if chunkReady s t then some (.chunkCommit t) else none
    | none => none) ++
  (s.activeWalkers.filterMap fun w => (s.handoutCore w.1).map fun c => .walkerHandout w.1 c) ++
  ((s.activeWalkers.map fun w => w.2.lid).eraseDups.filterMap fun lid =>
    (s.splitChoice lid).map fun x => .walkerSplit x.1 x.2.1 x.2.2)

/-- Every step that may come now. -/
def State.offers (s : State) : List Instr :=
  (s.pool.filter s.offered ++ s.cores.flatMap s.engineSteps).filter s.replayTurn ++ s.launchSteps ++
    (if saveReady s then [.preemptionSave] else [])

/-! ## The deadlock detector (R317, R318) -/

/-- A resident thread that counts as parked (R290, R291, R317). -/
def Thread.idle (th : Thread) : Bool :=
  match th.run with
  | .parked w => !(match w with | .clearing | .translation | .bank _ | .controller _ => true | _ => false)
  | _ => false
/-- A step in flight that only waits: it moves no message and works no engine until something else happens. -/
def State.onlyWaits (s : State) (i : Instr) : Bool :=
  match i with
  | .syncRetryLimit _ | .heldFpTrapDelivery _ => true
  | .taskStart r => decide (r.at_ ≤ s.cycle) && !s.offered i
  | .syncAccessServe _ | .codeAbsent _ _ | .faultMessageDelivery _ | .bankGateEffect _ _ | .writeLogAppend _ |
    .storeBufferDrain _ _ => !s.offered i
  | _ => false
/-- A core's idle line (R317). -/
def State.coreIdle (s : State) (n : Nat) (c : Core) : Bool :=
  (s.threads.all fun e => e.2.core != n || e.2.idle || s.gangParked e.2) && c.k.arrivals.isEmpty && c.e.queue.isEmpty &&
    (c.e.eng.all fun b => b.2.stage.isNone) && (s.engineSteps (n, c)).isEmpty && c.r.queue.isEmpty && c.r.fills.isEmpty && c.m.waking.isEmpty
/-- What the detector samples: idle lines, traffic, translations, host wakes (R449). -/
def State.allIdle (s : State) : Bool :=
  !s.threads.isEmpty && s.pkg.pre == .none && (s.threads.all fun e => e.2.idle || s.gangParked e.2) &&
    (s.cores.all fun c => s.coreIdle c.1 c.2) && s.pool.all s.onlyWaits && s.launchSteps.isEmpty && (s.dies.all fun d => d.2.held.isEmpty) &&
    s.out.hwake.all fun h => h.2 == 0

/-- The supervisor of a cluster takes cause 0x10 at its current instruction, its wait cancelled (R318), that of the supervisor
branch of R38 too; a gang that it belongs to disbands (R292). -/
def State.alarm (s : State) (t : Tid) : State :=
  match s.threads.find t with
  | none => s
  | some th =>
    let s0 := if th.gm then s.breakGang t th else s
    let s1 := (s0.dropHold t th.core).cancelWait t
    match s1.threads.find t with
    | none => s1
    | some u => s1.takeTrap t .deadlock 0 0 u.c.pc

def sweepDue (s : State) : Bool := decide (s.pkg.nextSweep ≤ 3 * s.cycle)

/-- DEADLOCK_SWEEP (R317, R318): two sweeps in a row with nothing moving declare a deadlock, to each cluster supervisor and
to the host. -/
def execDeadlockSweep (s : State) : Outcome State Fault Refusal :=
  if !sweepDue s then .refused (.notOffered "DEADLOCK_SWEEP")
  else
    let quiet := s.allIdle && !s.pkg.moved
    let n := if quiet then s.pkg.sweeps + 1 else if s.allIdle then 1 else 0
    let s1 := s.modPkg fun p => { p with sweeps := n, moved := false, nextSweep := p.nextSweep + 256 }
    if n < 3 then .next s1
    else
      let sups := (List.range 64).filterMap fun c => (s.cluster c).supTid
      .next ((sups.foldl State.alarm (s1.modPkg fun p => { p with sweeps := 0 })).send (.event .deadlock))

/-! ## Steps that come at a cycle -/

/-- The cycle at which a step in flight is due. -/
def State.dueAt (s : State) (i : Instr) : Option Nat :=
  match i with
  | .barrierRelease n => (s.tag n).release
  | .syncRetryLimit r => if s.pool.contains (.syncAccessServe r) && !syncReady s r then some (r.since + r.lim) else none
  | .bankWakeEnd c b => (s.core c).m.waking.find b
  | .regionSquash t => ((s.threads.find t).bind Thread.region).bind Region.due
  | .allocationClearDone t => (s.threads.find t).bind fun th =>
      ((s.core th.core).m.allocs.find? fun a => a.tid == t && !a.freed).map Alloc.due
  | .releaseClearDone c base => (((s.core c).m.allocs.filter fun a => a.freed && a.base == base).map Alloc.due).min?
  | .heldFpTrapDelivery c =>
    if (s.core c).k.fpRep.isSome then none
    else (nextHold (s.core c).k.fpHeld).bind fun h => if h.freed then none else some ((h.window + 1) * 16)
  | _ => none

/-- The earlier of two steps due; the first at equal cycles. -/
def earlier (a b : Option (Nat × Instr)) : Option (Nat × Instr) :=
  match a, b with
  | some x, some y => if y.1 < x.1 then b else a
  | none, y => y
  | x, none => x

/-- The next step that is due at a cycle: of the ring (R406: four ring cycles to one), in flight, the detector's sweep
(R3, R317: three network cycles to one), or the stop of a ready thread to which no turn has come (R370). -/
def State.nextTimed (s : State) : Option (Nat × Instr) :=
  let now := fun (n : Nat) => max n s.cycle
  let ring := s.ringNext.map fun e => (now (e.1 / 8), e.2)
  let stop := match s.pkg.pre with
    | .requested at_ => (s.threads.find? fun e => e.2.readySince.isSome && e.2.issuing e.1 && s.allRun (e.2.chunkOf e.1)).map fun e =>
        (now (at_ + 3000), Instr.preemptTimeoutStop e.1)
    | _ => none
  let pool := s.pool.foldl (fun a i => earlier a ((s.dueAt i).map fun n => (now n, i))) (earlier ring stop)
  earlier pool (if s.out.tray == .off then none else some (now ((s.pkg.nextSweep + 2) / 3), .deadlockSweep))

/-- The cycle of a thread's next turn: it sits in a slot of a running core, its chunk goes on, it is not held for a report, and it
leads its gang, whose cores all run (R121, R177, R228, R290, R319). -/
def State.turnOfThread (s : State) (t : Tid) (th : Thread) : Option Nat :=
  match th.run, th.bslot with
  | .slot n, some k =>
    if th.chunk.ended == .running && !th.follows t && !((s.core th.core).k.fpHeld.any fun h => h.tid == t && !h.freed) &&
        (s.allRun (th.chunkOf t) || s.finishesHalt th)
    then some (turnAt k (max n s.cycle)) else none
  | _, _ => none

/-- The earliest turn: cycle, core, thread; at one cycle the lower core comes first (log entry 3). -/
def State.nextTurn (s : State) : Option (Nat × Nat × Tid) :=
  s.threads.foldl (fun a e =>
    match s.turnOfThread e.1 e.2 with
    | none => a
    | some c =>
      match a with
      | none => some (c, e.2.core, e.1)
      | some b => if c < b.1 ∨ (c = b.1 ∧ e.2.core < b.2.1) then some (c, e.2.core, e.1) else a) none

/-- What the next step of the machine is: a step other than a word, at its cycle; or a thread's turn at a cycle. -/
inductive Choice where
  | event (cycle : Nat) (i : Instr)
  | turn (cycle : Nat) (t : Tid)
deriving DecidableEq, Repr

/-- The step that time brings: a due one before a turn of the same cycle. -/
def State.timeStep (s : State) : Option Choice :=
  match s.nextTimed, s.nextTurn with
  | some e, some u => if e.1 ≤ u.1 then some (.event e.1 e.2) else some (.turn u.1 u.2.2)
  | some e, none => some (.event e.1 e.2)
  | none, some u => some (.turn u.1 u.2.2)
  | none, none => none

/-- The completion of a launch, which comes before anything that time brings (R354). -/
def State.launchDone (s : State) : Option Instr := s.pool.find? fun i => match i with
  | .launchCompletion _ => true
  | _ => false
def Choice.cycle : Choice → Nat
  | .event c _ => c
  | .turn c _ => c
/-- A drain that comes before a cycle: a buffer that is not empty starts one at least every four network cycles (R281). -/
def State.lateDrain (s : State) (cycle : Nat) : Option Instr := s.pool.find? fun i => match i with
  | .storeBufferDrain cl id => decide ((s.cluster cl).drainAt + 4 ≤ 3 * cycle) && drainReady s cl id
  | _ => false
/-- The choice: an entry of `plan` names one of the steps offered now, or past them the step that time brings; with no
plan it is the first (log entry 3). -/
def State.choose (s : State) : Option Choice :=
  match (s.offers[s.plan.headD 0]?).or s.launchDone with
  | some i => some (.event s.cycle i)
  | none => match s.timeStep with
    | some c => match s.lateDrain c.cycle with
      | some i => some (.event s.cycle i)
      | none => some c
    | none => (s.offers.getLast?).map (.event s.cycle)

/-- A step other than the detector's sweep and a passage moves something, for the detector (R317). -/
def moves : Instr → Bool
  | .deadlockSweep | .stationPassage _ _ | .seamCrossing _ => false
  | _ => true
/-- The state in which a step is performed: its entry of the plan is used, its cycle has come. -/
def State.advance (s : State) (cycle : Nat) (moved : Bool) : State :=
  { s with
    cycle := cycle, plan := s.plan.tail, pkg := { s.pkg with moved := s.pkg.moved || moved } }

/-- Cycles to the next turn: a gang takes two turns for `vred` and `vperm` (R177, R235). -/
def Thread.turnTime (th : Thread) (word : W32) : Nat :=
  if th.gm && (opOf word == 0x5A || opOf word == 0x5B) then 32 else 16
/-- The state in which a thread's turn is taken; a gang moves only if its word is not lost (R317). -/
def State.issued (s : State) (cycle : Nat) (t : Tid) (th : Thread) (word : W32) : State :=
  { (s.advance cycle !th.gm).setThread t { th with run := .slot (cycle + th.turnTime word) } with cur := t, word := word }

/-- A fetch outside the image (R30, R193): cause 0x07, `eval` the PC; for a gang, the leader's (R292). -/
def execOutside (s : State) : Outcome State Fault Refusal :=
  issue {} s fun s t th =>
    if th.follows t then .done s else .trap s .addressSpace 0 (th.c.pc.zeroExtend 64)

/-- The core does not hold the image (R30): the thread parks and the core asks the dispatch controller for it. -/
def State.missImage (s : State) (t : Tid) (th : Thread) : State :=
  if s.pool.any fun i => match i with
    | .codeAbsent c u => c == th.core && u == t
    | .codeStartMessage c img asid => th.gm && c == th.core && img == th.c.img && asid == th.c.asid
    | .codeRefusal u _ => u == t
    | _ => false
  then s
  else (s.modThread t fun u => u.park .code).push (.codeAbsent th.core t)

/-- The check of a fetched word (R194): whether an uncorrectable error stands in it; a single-bit error is corrected. -/
def State.fetched (s : State) (th : Thread) : Bool × State :=
  match s.imageOf th.core th.c.asid th.c.img with
  | some i => s.eccRead th.core (isKey th.core (4 * (i.base + th.c.pc.toNat))) 4
  | none => (false, s)
/-- The core's copy of a thread's image is treated as absent (R194). -/
def State.dropImage (s : State) (th : Thread) : State :=
  s.modK th.core fun k => { k with images := k.images.filter fun i => !(i.id == th.c.img && i.asid == th.c.asid) }

/-- What a turn does (R30, R118, R193, R194, R370): a stop of a pre-emption, the end of a thread that is to end, a word, a fetch
that fails. -/
inductive Turn where
  | step (i : Instr)
  | word (w : W32)
  | outside
  | absent
  | damaged
deriving DecidableEq, Repr

/-- What a thread's turn at a cycle does. A word that has begun to act completes before the thread stops (R138, R324). -/
def State.turnKind (s : State) (cycle : Nat) (t : Tid) (th : Thread) : Turn :=
  let stop := match s.pkg.pre with
    | .requested at_ =>
      if th.mo.acquired || s.midForm (th.chunkOf t) then none
      else if (s.safeMask th).isSome then some (.preemptSafePointStop t)
      else if at_ + 3000 ≤ cycle then some (.preemptTimeoutStop t)
      else none
    | _ => none
  match stop with
  | some i => .step i
  | none =>
    if (s.core th.core).k.fpHeld.any fun h => h.tid == t && h.freed then .step (.heldFpTrapDelivery th.core)
    else if th.lau.exiting then .step .taskExit
    else match s.imageOf th.core th.c.asid th.c.img with
      | none => .absent
      | some i =>
        if i.len ≤ th.c.pc.toNat then .outside
        else if (s.fetched th).1 then .damaged
        else .word (BitVec.ofNat 32 (s.rd (isKey th.core (4 * (i.base + th.c.pc.toNat))) 4))

end Sys2Proof.Machine
end

