-- ==== Sys2Proof/Machine/Dispatch.lean ====
section
/-! DEFINITION. The meaning of each step: one arm per constructor. -/

namespace Sys2Proof.Machine

open Host (Outcome)

def exec (i : Instr) (s : State) : Host.Outcome State Fault Refusal :=
  match i with
  | .faultMessageDelivery p => Sys2Proof.Machine.execFaultMessageDelivery p s
  | .loadCompletion r => Sys2Proof.Machine.execLoadCompletion r s
  | .storePerformAtHome r => Sys2Proof.Machine.execStorePerformAtHome r s
  | .atomicAtHome r => Sys2Proof.Machine.execAtomicAtHome r s
  | .remoteUpdate r => Sys2Proof.Machine.execRemoteUpdate r s
  | .migrationDeparture tid dest => Sys2Proof.Machine.execMigrationDeparture tid dest s
  | .migrationArrival m => Sys2Proof.Machine.execMigrationArrival m s
  | .codeAbsent core tid => Sys2Proof.Machine.execCodeAbsent core tid s
  | .codeStartMessage core img asid => Sys2Proof.Machine.execCodeStartMessage core img asid s
  | .codeRefusal tid link => Sys2Proof.Machine.execCodeRefusal tid link s
  | .syncAccessServe r => Sys2Proof.Machine.execSyncAccessServe r s
  | .syncRetryLimit r => Sys2Proof.Machine.execSyncRetryLimit r s
  | .mailboxDelivery p => Sys2Proof.Machine.execMailboxDelivery p s
  | .resumeMessage p => Sys2Proof.Machine.execResumeMessage p s
  | .clusterControlWrite p => Sys2Proof.Machine.execClusterControlWrite p s
  | .clusterControlRead p => Sys2Proof.Machine.execClusterControlRead p s
  | .barrierRelease tag => Sys2Proof.Machine.execBarrierRelease tag s
  | .heldFpTrapDelivery core => Sys2Proof.Machine.execHeldFpTrapDelivery core s
  | .mmaEngineStart core => Sys2Proof.Machine.execMmaEngineStart core s
  | .mmaOperandsConsumed core => Sys2Proof.Machine.execMmaOperandsConsumed core s
  | .mmaCompletion core => Sys2Proof.Machine.execMmaCompletion core s
  | .accTransferCompletion core => Sys2Proof.Machine.execAccTransferCompletion core s
  | .copyEngineStart r => Sys2Proof.Machine.execCopyEngineStart r s
  | .copyCompletion r => Sys2Proof.Machine.execCopyCompletion r s
  | .engineFiring core b => Sys2Proof.Machine.execEngineFiring core b s
  | .firingOperandsConsumed core b => Sys2Proof.Machine.execFiringOperandsConsumed core b s
  | .firingCompletion core b => Sys2Proof.Machine.execFiringCompletion core b s
  | .bankGateEffect core bank => Sys2Proof.Machine.execBankGateEffect core bank s
  | .bankWakeEnd core bank => Sys2Proof.Machine.execBankWakeEnd core bank s
  | .allocationClearDone tid => Sys2Proof.Machine.execAllocationClearDone tid s
  | .releaseClearDone core base => Sys2Proof.Machine.execReleaseClearDone core base s
  | .storeBufferDrain cluster entry => Sys2Proof.Machine.execStoreBufferDrain cluster entry s
  | .signaturePlacement tid sc => Sys2Proof.Machine.execSignaturePlacement tid sc s
  | .releaseProbeEcho tid tgt => Sys2Proof.Machine.execReleaseProbeEcho tid tgt s
  | .writeLogAppend core => Sys2Proof.Machine.execWriteLogAppend core s
  | .dirtyLogMerge core => Sys2Proof.Machine.execDirtyLogMerge core s
  | .deadlockSweep => Sys2Proof.Machine.execDeadlockSweep s
  | .chunkCommit tid => Sys2Proof.Machine.execChunkCommit tid s
  | .regionSquash tid => Sys2Proof.Machine.execRegionSquash tid s
  | .taskStart r => Sys2Proof.Machine.execTaskStart r s
  | .launchCompletion lid => Sys2Proof.Machine.execLaunchCompletion lid s
  | .walkerHandout w core => Sys2Proof.Machine.execWalkerHandout w core s
  | .walkerSplit victim thief free => Sys2Proof.Machine.execWalkerSplit victim thief free s
  | .preemptionRequest => Sys2Proof.Machine.execPreemptionRequest s
  | .preemptSafePointStop tid => Sys2Proof.Machine.execPreemptSafePointStop tid s
  | .preemptTimeoutStop tid => Sys2Proof.Machine.execPreemptTimeoutStop tid s
  | .preemptionSave => Sys2Proof.Machine.execPreemptionSave s
  | .preemptionResume => Sys2Proof.Machine.execPreemptionResume s
  | .umeCfgBlockRead r => Sys2Proof.Machine.execUmeCfgBlockRead r s
  | .umeRoundExecution r => Sys2Proof.Machine.execUmeRoundExecution r s
  | .umeRoundCompletion r => Sys2Proof.Machine.execUmeRoundCompletion r s
  | .stationPassage b st => Sys2Proof.Machine.execStationPassage b st s
  | .seamCrossing b => Sys2Proof.Machine.execSeamCrossing b s
  | .holdBreak b => Sys2Proof.Machine.execHoldBreak b s
  | .flitData port bits badLanes => Sys2Proof.Machine.execFlitData port bits badLanes s
  | .flitReplayRequest port bits => Sys2Proof.Machine.execFlitReplayRequest port bits s
  | .flitAcknowledge port bits => Sys2Proof.Machine.execFlitAcknowledge port bits s
  | .flitIdle port bits => Sys2Proof.Machine.execFlitIdle port bits s
  | .laneSparing port lane => Sys2Proof.Machine.execLaneSparing port lane s
  | .portTraining port offered => Sys2Proof.Machine.execPortTraining port offered s
  | .portSurpriseDown port => Sys2Proof.Machine.execPortSurpriseDown port s
  | .copyPeerArrival src asid dst bytes sc tag => Sys2Proof.Machine.execCopyPeerArrival src asid dst bytes sc tag s
  | .fabricMessageArrival p => Sys2Proof.Machine.execFabricMessageArrival p s
  | .hostWrite win off bytes relaxed => Sys2Proof.Machine.execHostWrite win off bytes relaxed s
  | .hostRead win off n => Sys2Proof.Machine.execHostRead win off n s
  | .doorbellWrite db bytes => Sys2Proof.Machine.execDoorbellWrite db bytes s
  | .hwakeWrite j v => Sys2Proof.Machine.execHwakeWrite j v s
  | .mgmtReadRegister off => Sys2Proof.Machine.execMgmtReadRegister off s
  | .mgmtWriteRegister off v => Sys2Proof.Machine.execMgmtWriteRegister off v s
  | .mgmtLoadOzrum asid file => Sys2Proof.Machine.execMgmtLoadOzrum asid file s
  | .mgmtArmLaunch lid => Sys2Proof.Machine.execMgmtArmLaunch lid s
  | .trayQuiesce => Sys2Proof.Machine.execTrayQuiesce s
  | .trayDrain => Sys2Proof.Machine.execTrayDrain s
  | .trayPoweroff => Sys2Proof.Machine.execTrayPoweroff s
  | .trayReinsertion offered => Sys2Proof.Machine.execTrayReinsertion offered s
  | .pkgidWrite v => Sys2Proof.Machine.execPkgidWrite v s
  | .routeEntryWrite pkg v => Sys2Proof.Machine.execRouteEntryWrite pkg v s
  | .pcapRegisterWrite off v => Sys2Proof.Machine.execPcapRegisterWrite off v s
  | .pcapStatusClear v => Sys2Proof.Machine.execPcapStatusClear v s
  | .wrlogWrite a v => Sys2Proof.Machine.execWrlogWrite a v s
  | .lrverWrite a v => Sys2Proof.Machine.execLrverWrite a v s
  | .registerWrite host off v => Sys2Proof.Machine.execRegisterWrite host off v s
  | .powerWindowBoundary avg done => Sys2Proof.Machine.execPowerWindowBoundary avg done s
  | .powerOnReset b => Sys2Proof.Machine.execPowerOnReset b s
  | .heartbeatMiss die fw ok => Sys2Proof.Machine.execHeartbeatMiss die fw ok s
  | .firmwareUpdate die fw ok => Sys2Proof.Machine.execFirmwareUpdate die fw ok s
  | .coreLastingFault core => Sys2Proof.Machine.execCoreLastingFault core s
  | .hbmUncorrectableRead die pa lasting retireChannel => Sys2Proof.Machine.execHbmUncorrectableRead die pa lasting retireChannel s
  | .translationProbe tid => Sys2Proof.Machine.execTranslationProbe tid s
  | .faultAnswerRetry die page entryAt entry => Sys2Proof.Machine.execFaultAnswerRetry die page entryAt entry s
  | .faultAnswerFail die page => Sys2Proof.Machine.execFaultAnswerFail die page s
  | .spdmGetVersion => Sys2Proof.Machine.execSpdmGetVersion s
  | .spdmGetCapabilities => Sys2Proof.Machine.execSpdmGetCapabilities s
  | .spdmNegotiateAlgorithms req => Sys2Proof.Machine.execSpdmNegotiateAlgorithms req s
  | .spdmGetDigests => Sys2Proof.Machine.execSpdmGetDigests s
  | .spdmGetCertificate off n => Sys2Proof.Machine.execSpdmGetCertificate off n s
  | .spdmChallenge nonce => Sys2Proof.Machine.execSpdmChallenge nonce s
  | .spdmGetMeasurements nonce => Sys2Proof.Machine.execSpdmGetMeasurements nonce s
  | .tidReleaseMessage tid => Sys2Proof.Machine.execTidReleaseMessage tid s
  | .measurementExtendRequest idx d => Sys2Proof.Machine.execMeasurementExtendRequest idx d s
  | .bra o => Sys2Proof.Machine.execBra o s
  | .call o => Sys2Proof.Machine.execCall o s
  | .jrGo o => Sys2Proof.Machine.execJrGo o s
  | .jrLink o => Sys2Proof.Machine.execJrLink o s
  | .jrRet o => Sys2Proof.Machine.execJrRet o s
  | .taskExit => Sys2Proof.Machine.execTaskExit s
  | .taskYield => Sys2Proof.Machine.execTaskYield s
  | .taskPark => Sys2Proof.Machine.execTaskPark s
  | .taskHaltHalt sa sd => Sys2Proof.Machine.execTaskHaltHalt sa sd s
  | .taskHaltResume sa sd => Sys2Proof.Machine.execTaskHaltResume sa sd s
  | .taskHaltRetire sa sd => Sys2Proof.Machine.execTaskHaltRetire sa sd s
  | .trapSys code => Sys2Proof.Machine.execTrapSys code s
  | .trapBrk code => Sys2Proof.Machine.execTrapBrk code s
  | .trapAssert pa code => Sys2Proof.Machine.execTrapAssert pa code s
  | .eret => Sys2Proof.Machine.execEret s
  | .sysrGet sd sel => Sys2Proof.Machine.execSysrGet sd sel s
  | .sysrSet sa sel => Sys2Proof.Machine.execSysrSet sa sel s
  | .sysrSetb sa sel => Sys2Proof.Machine.execSysrSetb sa sel s
  | .sysrClrb sa sel => Sys2Proof.Machine.execSysrClrb sa sel s
  | .modeSetrm rm => Sys2Proof.Machine.execModeSetrm rm s
  | .modeMobile => Sys2Proof.Machine.execModeMobile s
  | .modeAnchor => Sys2Proof.Machine.execModeAnchor s
  | .modeGetfl sd => Sys2Proof.Machine.execModeGetfl sd s
  | .modeClrfl mask => Sys2Proof.Machine.execModeClrfl mask s
  | .mbxPost sa sb sd prio => Sys2Proof.Machine.execMbxPost sa sb sd prio s
  | .mbxFetch sa sd => Sys2Proof.Machine.execMbxFetch sa sd s
  | .mbxCount sd => Sys2Proof.Machine.execMbxCount sd s
  | .waitFull r => Sys2Proof.Machine.execWaitFull r s
  | .waitAny sa sd => Sys2Proof.Machine.execWaitAny sa sd s
  | .aluAdd o => Sys2Proof.Machine.execAluAdd o s
  | .aluSub o => Sys2Proof.Machine.execAluSub o s
  | .aluMul o => Sys2Proof.Machine.execAluMul o s
  | .aluMulh o => Sys2Proof.Machine.execAluMulh o s
  | .aluMulhu o => Sys2Proof.Machine.execAluMulhu o s
  | .aluAnd o => Sys2Proof.Machine.execAluAnd o s
  | .aluOr o => Sys2Proof.Machine.execAluOr o s
  | .aluXor o => Sys2Proof.Machine.execAluXor o s
  | .aluAndn o => Sys2Proof.Machine.execAluAndn o s
  | .aluOrn o => Sys2Proof.Machine.execAluOrn o s
  | .aluShl o => Sys2Proof.Machine.execAluShl o s
  | .aluShr o => Sys2Proof.Machine.execAluShr o s
  | .aluSra o => Sys2Proof.Machine.execAluSra o s
  | .aluRot o => Sys2Proof.Machine.execAluRot o s
  | .aluMin o => Sys2Proof.Machine.execAluMin o s
  | .aluMax o => Sys2Proof.Machine.execAluMax o s
  | .alxMinu o => Sys2Proof.Machine.execAlxMinu o s
  | .alxMaxu o => Sys2Proof.Machine.execAlxMaxu o s
  | .alxDiv o => Sys2Proof.Machine.execAlxDiv o s
  | .alxDivu o => Sys2Proof.Machine.execAlxDivu o s
  | .alxRem o => Sys2Proof.Machine.execAlxRem o s
  | .alxRemu o => Sys2Proof.Machine.execAlxRemu o s
  | .alxClz o => Sys2Proof.Machine.execAlxClz o s
  | .alxCtz o => Sys2Proof.Machine.execAlxCtz o s
  | .alxPopc o => Sys2Proof.Machine.execAlxPopc o s
  | .alxBrev o => Sys2Proof.Machine.execAlxBrev o s
  | .alxBswap o => Sys2Proof.Machine.execAlxBswap o s
  | .alxSel o => Sys2Proof.Machine.execAlxSel o s
  | .alxLea1 o => Sys2Proof.Machine.execAlxLea1 o s
  | .alxLea2 o => Sys2Proof.Machine.execAlxLea2 o s
  | .alxLea3 o => Sys2Proof.Machine.execAlxLea3 o s
  | .alxLea4 o => Sys2Proof.Machine.execAlxLea4 o s
  | .bitsExt o => Sys2Proof.Machine.execBitsExt o s
  | .bitsExtu o => Sys2Proof.Machine.execBitsExtu o s
  | .bitsIns o => Sys2Proof.Machine.execBitsIns o s
  | .movMov o => Sys2Proof.Machine.execMovMov o s
  | .movMovp o => Sys2Proof.Machine.execMovMovp o s
  | .movSetp o => Sys2Proof.Machine.execMovSetp o s
  | .movZx8 o => Sys2Proof.Machine.execMovZx8 o s
  | .movZx16 o => Sys2Proof.Machine.execMovZx16 o s
  | .movZx32 o => Sys2Proof.Machine.execMovZx32 o s
  | .movSx8 o => Sys2Proof.Machine.execMovSx8 o s
  | .movSx16 o => Sys2Proof.Machine.execMovSx16 o s
  | .movSx32 o => Sys2Proof.Machine.execMovSx32 o s
  | .addi o => Sys2Proof.Machine.execAddi o s
  | .andi o => Sys2Proof.Machine.execAndi o s
  | .ori o => Sys2Proof.Machine.execOri o s
  | .xori o => Sys2Proof.Machine.execXori o s
  | .shli o => Sys2Proof.Machine.execShli o s
  | .shri o => Sys2Proof.Machine.execShri o s
  | .srai o => Sys2Proof.Machine.execSrai o s
  | .li o => Sys2Proof.Machine.execLi o s
  | .lhi o => Sys2Proof.Machine.execLhi o s
  | .muli o => Sys2Proof.Machine.execMuli o s
  | .fpuFadd o => Sys2Proof.Machine.execFpuFadd o s
  | .fpuFsub o => Sys2Proof.Machine.execFpuFsub o s
  | .fpuFmul o => Sys2Proof.Machine.execFpuFmul o s
  | .fpuFdiv o => Sys2Proof.Machine.execFpuFdiv o s
  | .fpuFsqrt o => Sys2Proof.Machine.execFpuFsqrt o s
  | .fpuFmin o => Sys2Proof.Machine.execFpuFmin o s
  | .fpuFmax o => Sys2Proof.Machine.execFpuFmax o s
  | .fpuFabs o => Sys2Proof.Machine.execFpuFabs o s
  | .fpuFneg o => Sys2Proof.Machine.execFpuFneg o s
  | .fpuFsgnj o => Sys2Proof.Machine.execFpuFsgnj o s
  | .fpuFma o => Sys2Proof.Machine.execFpuFma o s
  | .fpuFms o => Sys2Proof.Machine.execFpuFms o s
  | .fpuFnma o => Sys2Proof.Machine.execFpuFnma o s
  | .fpuFclass o => Sys2Proof.Machine.execFpuFclass o s
  | .fcvtI2f o => Sys2Proof.Machine.execFcvtI2f o s
  | .fcvtU2f o => Sys2Proof.Machine.execFcvtU2f o s
  | .fcvtF2i o => Sys2Proof.Machine.execFcvtF2i o s
  | .fcvtF2u o => Sys2Proof.Machine.execFcvtF2u o s
  | .fcvtF2f o => Sys2Proof.Machine.execFcvtF2f o s
  | .fcvtTobf16 o => Sys2Proof.Machine.execFcvtTobf16 o s
  | .fcvtFrombf16 o => Sys2Proof.Machine.execFcvtFrombf16 o s
  | .fcvtTofp16 o => Sys2Proof.Machine.execFcvtTofp16 o s
  | .fcvtFromfp16 o => Sys2Proof.Machine.execFcvtFromfp16 o s
  | .fcmpFeq o => Sys2Proof.Machine.execFcmpFeq o s
  | .fcmpFlt o => Sys2Proof.Machine.execFcmpFlt o s
  | .fcmpFle o => Sys2Proof.Machine.execFcmpFle o s
  | .fcmpFun o => Sys2Proof.Machine.execFcmpFun o s
  | .cmpEq o => Sys2Proof.Machine.execCmpEq o s
  | .cmpNe o => Sys2Proof.Machine.execCmpNe o s
  | .cmpLt o => Sys2Proof.Machine.execCmpLt o s
  | .cmpLtu o => Sys2Proof.Machine.execCmpLtu o s
  | .cmpLe o => Sys2Proof.Machine.execCmpLe o s
  | .cmpLeu o => Sys2Proof.Machine.execCmpLeu o s
  | .cmpGt o => Sys2Proof.Machine.execCmpGt o s
  | .cmpGtu o => Sys2Proof.Machine.execCmpGtu o s
  | .cmpGe o => Sys2Proof.Machine.execCmpGe o s
  | .cmpGeu o => Sys2Proof.Machine.execCmpGeu o s
  | .cmpTst o => Sys2Proof.Machine.execCmpTst o s
  | .ceqi o => Sys2Proof.Machine.execCeqi o s
  | .clti o => Sys2Proof.Machine.execClti o s
  | .cltui o => Sys2Proof.Machine.execCltui o s
  | .predAnd o => Sys2Proof.Machine.execPredAnd o s
  | .predOr o => Sys2Proof.Machine.execPredOr o s
  | .predXor o => Sys2Proof.Machine.execPredXor o s
  | .predAndn o => Sys2Proof.Machine.execPredAndn o s
  | .predNot o => Sys2Proof.Machine.execPredNot o s
  | .predMov o => Sys2Proof.Machine.execPredMov o s
  | .ld o => Sys2Proof.Machine.execLd o s
  | .st o => Sys2Proof.Machine.execSt o s
  | .ldacq o => Sys2Proof.Machine.execLdacq o s
  | .strel o => Sys2Proof.Machine.execStrel o s
  | .ldsy o => Sys2Proof.Machine.execLdsy o s
  | .stsy o => Sys2Proof.Machine.execStsy o s
  | .pf o => Sys2Proof.Machine.execPf o s
  | .amoAdd o => Sys2Proof.Machine.execAmoAdd o s
  | .amoAnd o => Sys2Proof.Machine.execAmoAnd o s
  | .amoOr o => Sys2Proof.Machine.execAmoOr o s
  | .amoXor o => Sys2Proof.Machine.execAmoXor o s
  | .amoMin o => Sys2Proof.Machine.execAmoMin o s
  | .amoMax o => Sys2Proof.Machine.execAmoMax o s
  | .amoMinu o => Sys2Proof.Machine.execAmoMinu o s
  | .amoMaxu o => Sys2Proof.Machine.execAmoMaxu o s
  | .amoSwap o => Sys2Proof.Machine.execAmoSwap o s
  | .amoCas o => Sys2Proof.Machine.execAmoCas o s
  | .amoFadd o => Sys2Proof.Machine.execAmoFadd o s
  | .redAdd o => Sys2Proof.Machine.execRedAdd o s
  | .redFadd o => Sys2Proof.Machine.execRedFadd o s
  | .redMin o => Sys2Proof.Machine.execRedMin o s
  | .redMax o => Sys2Proof.Machine.execRedMax o s
  | .redOr o => Sys2Proof.Machine.execRedOr o s
  | .redAnd o => Sys2Proof.Machine.execRedAnd o s
  | .fenceAcq sc => Sys2Proof.Machine.execFenceAcq sc s
  | .fenceRel sc => Sys2Proof.Machine.execFenceRel sc s
  | .fenceFull sc => Sys2Proof.Machine.execFenceFull sc s
  | .go sa => Sys2Proof.Machine.execGo sa s
  | .vfAdd o => Sys2Proof.Machine.execVfAdd o s
  | .vfSub o => Sys2Proof.Machine.execVfSub o s
  | .vfMul o => Sys2Proof.Machine.execVfMul o s
  | .vfFma o => Sys2Proof.Machine.execVfFma o s
  | .vfFms o => Sys2Proof.Machine.execVfFms o s
  | .vfFnma o => Sys2Proof.Machine.execVfFnma o s
  | .vfMin o => Sys2Proof.Machine.execVfMin o s
  | .vfMax o => Sys2Proof.Machine.execVfMax o s
  | .vfAbs o => Sys2Proof.Machine.execVfAbs o s
  | .vfNeg o => Sys2Proof.Machine.execVfNeg o s
  | .vfDiv o => Sys2Proof.Machine.execVfDiv o s
  | .vfSqrt o => Sys2Proof.Machine.execVfSqrt o s
  | .vfsAdd o => Sys2Proof.Machine.execVfsAdd o s
  | .vfsSub o => Sys2Proof.Machine.execVfsSub o s
  | .vfsMul o => Sys2Proof.Machine.execVfsMul o s
  | .vfsFma o => Sys2Proof.Machine.execVfsFma o s
  | .vfsFms o => Sys2Proof.Machine.execVfsFms o s
  | .vfsFnma o => Sys2Proof.Machine.execVfsFnma o s
  | .vfsMin o => Sys2Proof.Machine.execVfsMin o s
  | .vfsMax o => Sys2Proof.Machine.execVfsMax o s
  | .vfsAbs o => Sys2Proof.Machine.execVfsAbs o s
  | .vfsNeg o => Sys2Proof.Machine.execVfsNeg o s
  | .vfsDiv o => Sys2Proof.Machine.execVfsDiv o s
  | .vfsSqrt o => Sys2Proof.Machine.execVfsSqrt o s
  | .viAdd o => Sys2Proof.Machine.execViAdd o s
  | .viSub o => Sys2Proof.Machine.execViSub o s
  | .viMul o => Sys2Proof.Machine.execViMul o s
  | .viMulh o => Sys2Proof.Machine.execViMulh o s
  | .viMin o => Sys2Proof.Machine.execViMin o s
  | .viMax o => Sys2Proof.Machine.execViMax o s
  | .viMinu o => Sys2Proof.Machine.execViMinu o s
  | .viMaxu o => Sys2Proof.Machine.execViMaxu o s
  | .viAbs o => Sys2Proof.Machine.execViAbs o s
  | .viNeg o => Sys2Proof.Machine.execViNeg o s
  | .viAdds o => Sys2Proof.Machine.execViAdds o s
  | .viSubs o => Sys2Proof.Machine.execViSubs o s
  | .visAdd o => Sys2Proof.Machine.execVisAdd o s
  | .visSub o => Sys2Proof.Machine.execVisSub o s
  | .visMul o => Sys2Proof.Machine.execVisMul o s
  | .visMulh o => Sys2Proof.Machine.execVisMulh o s
  | .visMin o => Sys2Proof.Machine.execVisMin o s
  | .visMax o => Sys2Proof.Machine.execVisMax o s
  | .visMinu o => Sys2Proof.Machine.execVisMinu o s
  | .visMaxu o => Sys2Proof.Machine.execVisMaxu o s
  | .visAbs o => Sys2Proof.Machine.execVisAbs o s
  | .visNeg o => Sys2Proof.Machine.execVisNeg o s
  | .visAdds o => Sys2Proof.Machine.execVisAdds o s
  | .visSubs o => Sys2Proof.Machine.execVisSubs o s
  | .vlAnd o => Sys2Proof.Machine.execVlAnd o s
  | .vlOr o => Sys2Proof.Machine.execVlOr o s
  | .vlXor o => Sys2Proof.Machine.execVlXor o s
  | .vlAndn o => Sys2Proof.Machine.execVlAndn o s
  | .vlShl o => Sys2Proof.Machine.execVlShl o s
  | .vlShr o => Sys2Proof.Machine.execVlShr o s
  | .vlSra o => Sys2Proof.Machine.execVlSra o s
  | .vlsAnd o => Sys2Proof.Machine.execVlsAnd o s
  | .vlsOr o => Sys2Proof.Machine.execVlsOr o s
  | .vlsXor o => Sys2Proof.Machine.execVlsXor o s
  | .vlsAndn o => Sys2Proof.Machine.execVlsAndn o s
  | .vlsShl o => Sys2Proof.Machine.execVlsShl o s
  | .vlsShr o => Sys2Proof.Machine.execVlsShr o s
  | .vlsSra o => Sys2Proof.Machine.execVlsSra o s
  | .vcmpFeq o => Sys2Proof.Machine.execVcmpFeq o s
  | .vcmpFlt o => Sys2Proof.Machine.execVcmpFlt o s
  | .vcmpFle o => Sys2Proof.Machine.execVcmpFle o s
  | .vcmpFun o => Sys2Proof.Machine.execVcmpFun o s
  | .vcmpIeq o => Sys2Proof.Machine.execVcmpIeq o s
  | .vcmpIlt o => Sys2Proof.Machine.execVcmpIlt o s
  | .vcmpIltu o => Sys2Proof.Machine.execVcmpIltu o s
  | .vcmpIle o => Sys2Proof.Machine.execVcmpIle o s
  | .vcmpsFeq o => Sys2Proof.Machine.execVcmpsFeq o s
  | .vcmpsFlt o => Sys2Proof.Machine.execVcmpsFlt o s
  | .vcmpsFle o => Sys2Proof.Machine.execVcmpsFle o s
  | .vcmpsFun o => Sys2Proof.Machine.execVcmpsFun o s
  | .vcmpsIeq o => Sys2Proof.Machine.execVcmpsIeq o s
  | .vcmpsIlt o => Sys2Proof.Machine.execVcmpsIlt o s
  | .vcmpsIltu o => Sys2Proof.Machine.execVcmpsIltu o s
  | .vcmpsIle o => Sys2Proof.Machine.execVcmpsIle o s
  | .vsel o => Sys2Proof.Machine.execVsel o s
  | .vcvtNarrow o => Sys2Proof.Machine.execVcvtNarrow o s
  | .vcvtNarrows o => Sys2Proof.Machine.execVcvtNarrows o s
  | .vcvtWiden o => Sys2Proof.Machine.execVcvtWiden o s
  | .vcvtI2f o => Sys2Proof.Machine.execVcvtI2f o s
  | .vcvtF2i o => Sys2Proof.Machine.execVcvtF2i o s
  | .vredFsum o => Sys2Proof.Machine.execVredFsum o s
  | .vredFmax o => Sys2Proof.Machine.execVredFmax o s
  | .vredFmin o => Sys2Proof.Machine.execVredFmin o s
  | .vredIsum o => Sys2Proof.Machine.execVredIsum o s
  | .vredImax o => Sys2Proof.Machine.execVredImax o s
  | .vredImin o => Sys2Proof.Machine.execVredImin o s
  | .vredAnd o => Sys2Proof.Machine.execVredAnd o s
  | .vredOr o => Sys2Proof.Machine.execVredOr o s
  | .vpermPerm o => Sys2Proof.Machine.execVpermPerm o s
  | .vpermRot o => Sys2Proof.Machine.execVpermRot o s
  | .vpermBcastl o => Sys2Proof.Machine.execVpermBcastl o s
  | .vpermZip o => Sys2Proof.Machine.execVpermZip o s
  | .vpermUnzip o => Sys2Proof.Machine.execVpermUnzip o s
  | .vpermCompress o => Sys2Proof.Machine.execVpermCompress o s
  | .vpermExpand o => Sys2Proof.Machine.execVpermExpand o s
  | .vpermIota vd vm ty => Sys2Proof.Machine.execVpermIota vd vm ty s
  | .vsfEx2 o => Sys2Proof.Machine.execVsfEx2 o s
  | .vsfLg2 o => Sys2Proof.Machine.execVsfLg2 o s
  | .vsfRcp o => Sys2Proof.Machine.execVsfRcp o s
  | .vsfRsqrt o => Sys2Proof.Machine.execVsfRsqrt o s
  | .vsfSin o => Sys2Proof.Machine.execVsfSin o s
  | .vsfCos o => Sys2Proof.Machine.execVsfCos o s
  | .vsfTanh o => Sys2Proof.Machine.execVsfTanh o s
  | .vsfSigm o => Sys2Proof.Machine.execVsfSigm o s
  | .vmvSplat vd sb vm ty => Sys2Proof.Machine.execVmvSplat vd sb vm ty s
  | .vmvExtract sd va sb ty => Sys2Proof.Machine.execVmvExtract sd va sb ty s
  | .vmvInsert vd sa sb ty => Sys2Proof.Machine.execVmvInsert vd sa sb ty s
  | .vmvMtos sd half ma => Sys2Proof.Machine.execVmvMtos sd half ma s
  | .vmvStom half md sb => Sys2Proof.Machine.execVmvStom half md sb s
  | .vld o => Sys2Proof.Machine.execVld o s
  | .vst o => Sys2Proof.Machine.execVst o s
  | .vgth o => Sys2Proof.Machine.execVgth o s
  | .vsct o => Sys2Proof.Machine.execVsct o s
  | .gangForm sa sd => Sys2Proof.Machine.execGangForm sa sd s
  | .gangJoin sa sd => Sys2Proof.Machine.execGangJoin sa sd s
  | .gangDisband => Sys2Proof.Machine.execGangDisband s
  | .gangIdx sd => Sys2Proof.Machine.execGangIdx sd s
  | .mmaE4m3 o => Sys2Proof.Machine.execMmaE4m3 o s
  | .mmaE5m2 o => Sys2Proof.Machine.execMmaE5m2 o s
  | .mmaE4m3e5m2 o => Sys2Proof.Machine.execMmaE4m3e5m2 o s
  | .mmaE2m1 o => Sys2Proof.Machine.execMmaE2m1 o s
  | .mmaBf16 o => Sys2Proof.Machine.execMmaBf16 o s
  | .mmaFp16 o => Sys2Proof.Machine.execMmaFp16 o s
  | .mmaI8 o => Sys2Proof.Machine.execMmaI8 o s
  | .mmaU8i8 o => Sys2Proof.Machine.execMmaU8i8 o s
  | .accZero an => Sys2Proof.Machine.execAccZero an s
  | .accLd sa sb sd sc an => Sys2Proof.Machine.execAccLd sa sb sd sc an s
  | .accSt sa sb sd sc an => Sys2Proof.Machine.execAccSt sa sb sd sc an s
  | .accRowRead va sb an => Sys2Proof.Machine.execAccRowRead va sb an s
  | .accRowWrite va sb an => Sys2Proof.Machine.execAccRowWrite va sb an s
  | .accScale sa an => Sys2Proof.Machine.execAccScale sa an s
  | .skdSet sa sb sk => Sys2Proof.Machine.execSkdSet sa sb sk s
  | .skdReset sk => Sys2Proof.Machine.execSkdReset sk s
  | .skdPos sd sk => Sys2Proof.Machine.execSkdPos sd sk s
  | .cbCfg sa sb sd n => Sys2Proof.Machine.execCbCfg sa sb sd n s
  | .cbPut sa sd n => Sys2Proof.Machine.execCbPut sa sd n s
  | .cbGet sa sd n => Sys2Proof.Machine.execCbGet sa sd n s
  | .cbRoom sd n => Sys2Proof.Machine.execCbRoom sd n s
  | .cbCount sd n => Sys2Proof.Machine.execCbCount sd n s
  | .cbWait sa room n => Sys2Proof.Machine.execCbWait sa room n s
  | .engBind sa sd => Sys2Proof.Machine.execEngBind sa sd s
  | .engArm sa => Sys2Proof.Machine.execEngArm sa s
  | .engOnce sa => Sys2Proof.Machine.execEngOnce sa s
  | .engUnbind sa => Sys2Proof.Machine.execEngUnbind sa s
  | .engStat sa sd => Sys2Proof.Machine.execEngStat sa sd s
  | .copyLin sa sb sd c => Sys2Proof.Machine.execCopyLin sa sb sd c s
  | .copyTile2d sa sb sd c => Sys2Proof.Machine.execCopyTile2d sa sb sd c s
  | .copyPeer sa sb sd c => Sys2Proof.Machine.execCopyPeer sa sb sd c s
  | .copyBcast sa sb sd c => Sys2Proof.Machine.execCopyBcast sa sb sd c s
  | .bankFmtset sa sd n => Sys2Proof.Machine.execBankFmtset sa sd n s
  | .bankFmtget sd n => Sys2Proof.Machine.execBankFmtget sd n s
  | .bankGate n => Sys2Proof.Machine.execBankGate n s
  | .bankWake n => Sys2Proof.Machine.execBankWake n s
  | .rlkQuery sa sd h => Sys2Proof.Machine.execRlkQuery sa sd h s
  | .rlkDrop sa => Sys2Proof.Machine.execRlkDrop sa s
  | .barReg sa sb sd bn => Sys2Proof.Machine.execBarReg sa sb sd bn s
  | .barArrive sd bn => Sys2Proof.Machine.execBarArrive sd bn s
  | .barWait sa bn => Sys2Proof.Machine.execBarWait sa bn s
  | .barArrw sd bn => Sys2Proof.Machine.execBarArrw sd bn s
  | .barDrop bn => Sys2Proof.Machine.execBarDrop bn s
  | .arBegin sa sd => Sys2Proof.Machine.execArBegin sa sd s
  | .arAbort => Sys2Proof.Machine.execArAbort s
  | .arDraw sd => Sys2Proof.Machine.execArDraw sd s
  | .arStatus sd => Sys2Proof.Machine.execArStatus sd s
  | .pcommit sa sd => Sys2Proof.Machine.execPcommit sa sd s
  | .annealCfg sa sb sd => Sys2Proof.Machine.execAnnealCfg sa sb sd s
  | .annealOff sd => Sys2Proof.Machine.execAnnealOff sd s
  | .annealReset sd => Sys2Proof.Machine.execAnnealReset sd s
  | .cacheWb sa sb => Sys2Proof.Machine.execCacheWb sa sb s
  | .cacheInv sa sb => Sys2Proof.Machine.execCacheInv sa sb s
  | .cacheHarvest => Sys2Proof.Machine.execCacheHarvest s
  | .cacheRetain sa sb code => Sys2Proof.Machine.execCacheRetain sa sb code s
  | .cacheTlbi sa sb kind => Sys2Proof.Machine.execCacheTlbi sa sb kind s
  | .lrecPatch sa sb sd n => Sys2Proof.Machine.execLrecPatch sa sb sd n s
  | .lrecArm sa sd => Sys2Proof.Machine.execLrecArm sa sd s
  | .lrecQuery sa sd n => Sys2Proof.Machine.execLrecQuery sa sd n s
  | .lrecCancel sa sd => Sys2Proof.Machine.execLrecCancel sa sd s
  | .lrecWait sa sd => Sys2Proof.Machine.execLrecWait sa sd s
  | .walkNext sd => Sys2Proof.Machine.execWalkNext sd s
  | .walkInfo sd sel => Sys2Proof.Machine.execWalkInfo sd sel s
  | .umeCfg sa sd ctx => Sys2Proof.Machine.execUmeCfg sa sd ctx s
  | .umeRound sa sd ctx => Sys2Proof.Machine.execUmeRound sa sd ctx s
  | .umeStat sd sel ctx => Sys2Proof.Machine.execUmeStat sd sel ctx s
  | .umeDirty sd ctx => Sys2Proof.Machine.execUmeDirty sd ctx s
  | .ringPeek sa sd w => Sys2Proof.Machine.execRingPeek sa sd w s
  | .ringBoard sa sd hn => Sys2Proof.Machine.execRingBoard sa sd hn s
  | .ringHget sd w hn => Sys2Proof.Machine.execRingHget sd w hn s
  | .ringHset sa w hn => Sys2Proof.Machine.execRingHset sa w hn s
  | .ringAlight hn => Sys2Proof.Machine.execRingAlight hn s
  | .ringRel hn => Sys2Proof.Machine.execRingRel hn s
  | .ringRadd sa sb w => Sys2Proof.Machine.execRingRadd sa sb w s
  | .ringRmax sa sb sgn w => Sys2Proof.Machine.execRingRmax sa sb sgn w s
  | .msgSend sa sb sd prio => Sys2Proof.Machine.execMsgSend sa sb sd prio s
  | .msgRecv sa sd => Sys2Proof.Machine.execMsgRecv sa sd s
  | .msgProbe sa sd => Sys2Proof.Machine.execMsgProbe sa sd s
  | .hintImmx p => Sys2Proof.Machine.execHintImmx p s
  | .hintScl v => Sys2Proof.Machine.execHintScl v s
  | .hintLat lat => Sys2Proof.Machine.execHintLat lat s
  | .hintRh code => Sys2Proof.Machine.execHintRh code s
  | .hintSrk k => Sys2Proof.Machine.execHintSrk k s
  | .hintNop => Sys2Proof.Machine.execHintNop s
  | .hintUnnamed op p => Sys2Proof.Machine.execHintUnnamed op p s
  | .illegalWordZeros => Sys2Proof.Machine.execIllegalWordZeros s
  | .illegalWordOnes => Sys2Proof.Machine.execIllegalWordOnes s
  | .reservedEncoding w => Sys2Proof.Machine.execReservedEncoding w s

end Sys2Proof.Machine
end

