-- ==== Sys2Proof/Machine/Run.lean ====
section
/-! DEFINITION. Issuing a word: decode it and perform its step. `runWord` is the same function written without building an
instruction, for evaluation (a compiled program can build no constructor past the 245th); `execWord_eq_runWord` proves it. -/

set_option Elab.async false

namespace Sys2Proof.Machine

open Host (Outcome)

/-- Perform the step that a word is (R46-R73). -/
noncomputable def execWord (w : W32) (s : State) : Outcome State Fault Refusal := exec (decodeIssue w) s

/-- Perform what an opcode's own decoder reads; a reserved encoding otherwise. -/
def runDecoded (r : Except Reject Instr) (w : W32) (s : State) : Outcome State Fault Refusal :=
  match r with
  | .ok i => if wellFormed i then exec i s else execReservedEncoding w s
  | .error _ => execReservedEncoding w s

/-- Opcode 0x47. -/
def run47 (w : W32) (s : State) : Outcome State Fault Refusal :=
  match (enFn w).toNat with
  | 0 => let o : Amo := ⟨enSa w, enSb w, enSd w, (enImm w).extractLsb' 4 2, (enImm w).extractLsb' 2 2, (enImm w).extractLsb' 0 2⟩; execAmoAdd o s
  | 1 => let o : Amo := ⟨enSa w, enSb w, enSd w, (enImm w).extractLsb' 4 2, (enImm w).extractLsb' 2 2, (enImm w).extractLsb' 0 2⟩; execAmoAnd o s
  | 2 => let o : Amo := ⟨enSa w, enSb w, enSd w, (enImm w).extractLsb' 4 2, (enImm w).extractLsb' 2 2, (enImm w).extractLsb' 0 2⟩; execAmoOr o s
  | 3 => let o : Amo := ⟨enSa w, enSb w, enSd w, (enImm w).extractLsb' 4 2, (enImm w).extractLsb' 2 2, (enImm w).extractLsb' 0 2⟩; execAmoXor o s
  | 4 => let o : Amo := ⟨enSa w, enSb w, enSd w, (enImm w).extractLsb' 4 2, (enImm w).extractLsb' 2 2, (enImm w).extractLsb' 0 2⟩; execAmoMin o s
  | 5 => let o : Amo := ⟨enSa w, enSb w, enSd w, (enImm w).extractLsb' 4 2, (enImm w).extractLsb' 2 2, (enImm w).extractLsb' 0 2⟩; execAmoMax o s
  | 6 => let o : Amo := ⟨enSa w, enSb w, enSd w, (enImm w).extractLsb' 4 2, (enImm w).extractLsb' 2 2, (enImm w).extractLsb' 0 2⟩; execAmoMinu o s
  | 7 => let o : Amo := ⟨enSa w, enSb w, enSd w, (enImm w).extractLsb' 4 2, (enImm w).extractLsb' 2 2, (enImm w).extractLsb' 0 2⟩; execAmoMaxu o s
  | 8 => let o : Amo := ⟨enSa w, enSb w, enSd w, (enImm w).extractLsb' 4 2, (enImm w).extractLsb' 2 2, (enImm w).extractLsb' 0 2⟩; execAmoSwap o s
  | 9 => let o : Amo := ⟨enSa w, enSb w, enSd w, (enImm w).extractLsb' 4 2, (enImm w).extractLsb' 2 2, (enImm w).extractLsb' 0 2⟩; execAmoCas o s
  | 10 => let o : Amo := ⟨enSa w, enSb w, enSd w, (enImm w).extractLsb' 4 2, (enImm w).extractLsb' 2 2, (enImm w).extractLsb' 0 2⟩; if faddSzOk o.sz then execAmoFadd o s else execReservedEncoding w s
  | _ => execReservedEncoding w s

/-- Opcode 0x48. -/
def run48 (w : W32) (s : State) : Outcome State Fault Refusal :=
  match (enFn w).toNat with
  | 0 => let o : Red := ⟨enSa w, enSb w, (enImm w).extractLsb' 2 2, (enImm w).extractLsb' 0 2⟩; if w &&& 0x00000030 = 0#32 then execRedAdd o s else execReservedEncoding w s
  | 1 => let o : Red := ⟨enSa w, enSb w, (enImm w).extractLsb' 2 2, (enImm w).extractLsb' 0 2⟩; if w &&& 0x00000030 = 0#32 then if faddSzOk o.sz then execRedFadd o s else execReservedEncoding w s else execReservedEncoding w s
  | 2 => let o : Red := ⟨enSa w, enSb w, (enImm w).extractLsb' 2 2, (enImm w).extractLsb' 0 2⟩; if w &&& 0x00000030 = 0#32 then execRedMin o s else execReservedEncoding w s
  | 3 => let o : Red := ⟨enSa w, enSb w, (enImm w).extractLsb' 2 2, (enImm w).extractLsb' 0 2⟩; if w &&& 0x00000030 = 0#32 then execRedMax o s else execReservedEncoding w s
  | 4 => let o : Red := ⟨enSa w, enSb w, (enImm w).extractLsb' 2 2, (enImm w).extractLsb' 0 2⟩; if w &&& 0x00000030 = 0#32 then execRedOr o s else execReservedEncoding w s
  | 5 => let o : Red := ⟨enSa w, enSb w, (enImm w).extractLsb' 2 2, (enImm w).extractLsb' 0 2⟩; if w &&& 0x00000030 = 0#32 then execRedAnd o s else execReservedEncoding w s
  | _ => execReservedEncoding w s

/-- Opcode 0x49. -/
def run49 (w : W32) (s : State) : Outcome State Fault Refusal :=
  match (enFn w).toNat with
  | 0 => execFenceAcq ((enImm w).extractLsb' 0 2) s
  | 1 => execFenceRel ((enImm w).extractLsb' 0 2) s
  | 2 => execFenceFull ((enImm w).extractLsb' 0 2) s
  | _ => execReservedEncoding w s

/-- Opcode 0x4A. -/
def run4A (w : W32) (s : State) : Outcome State Fault Refusal :=
  match (enFn w).toNat with
  | 0 => execGo (enSa w) s
  | _ => execReservedEncoding w s

/-- Opcode 0x50. -/
def run50 (w : W32) (s : State) : Outcome State Fault Refusal :=
  match (vvFn w).toNat with
  | 0 => let o : Vv := ⟨vvVd w, vvVa w, vvVb w, vvVm w, vvTy w⟩; if tyOk o.ty then execVfAdd o s else execReservedEncoding w s
  | 1 => let o : Vv := ⟨vvVd w, vvVa w, vvVb w, vvVm w, vvTy w⟩; if tyOk o.ty then execVfSub o s else execReservedEncoding w s
  | 2 => let o : Vv := ⟨vvVd w, vvVa w, vvVb w, vvVm w, vvTy w⟩; if tyOk o.ty then execVfMul o s else execReservedEncoding w s
  | 3 => let o : Vv := ⟨vvVd w, vvVa w, vvVb w, vvVm w, vvTy w⟩; if tyOk o.ty then execVfFma o s else execReservedEncoding w s
  | 4 => let o : Vv := ⟨vvVd w, vvVa w, vvVb w, vvVm w, vvTy w⟩; if tyOk o.ty then execVfFms o s else execReservedEncoding w s
  | 5 => let o : Vv := ⟨vvVd w, vvVa w, vvVb w, vvVm w, vvTy w⟩; if tyOk o.ty then execVfFnma o s else execReservedEncoding w s
  | 6 => let o : Vv := ⟨vvVd w, vvVa w, vvVb w, vvVm w, vvTy w⟩; if tyOk o.ty then execVfMin o s else execReservedEncoding w s
  | 7 => let o : Vv := ⟨vvVd w, vvVa w, vvVb w, vvVm w, vvTy w⟩; if tyOk o.ty then execVfMax o s else execReservedEncoding w s
  | 8 => let o : V2 := ⟨vvVd w, vvVa w, vvVm w, vvTy w⟩; if tyOk o.ty then execVfAbs o s else execReservedEncoding w s
  | 9 => let o : V2 := ⟨vvVd w, vvVa w, vvVm w, vvTy w⟩; if tyOk o.ty then execVfNeg o s else execReservedEncoding w s
  | 10 => let o : Vv := ⟨vvVd w, vvVa w, vvVb w, vvVm w, vvTy w⟩; if tyOk o.ty then execVfDiv o s else execReservedEncoding w s
  | 11 => let o : V2 := ⟨vvVd w, vvVa w, vvVm w, vvTy w⟩; if tyOk o.ty then execVfSqrt o s else execReservedEncoding w s
  | _ => execReservedEncoding w s

/-- Opcode 0x51. -/
def run51 (w : W32) (s : State) : Outcome State Fault Refusal :=
  match (vvFn w).toNat with
  | 0 => let o : Vs := ⟨vvVd w, vvVa w, vvVb w, vvVm w, vvTy w⟩; if tyOk o.ty then execVfsAdd o s else execReservedEncoding w s
  | 1 => let o : Vs := ⟨vvVd w, vvVa w, vvVb w, vvVm w, vvTy w⟩; if tyOk o.ty then execVfsSub o s else execReservedEncoding w s
  | 2 => let o : Vs := ⟨vvVd w, vvVa w, vvVb w, vvVm w, vvTy w⟩; if tyOk o.ty then execVfsMul o s else execReservedEncoding w s
  | 3 => let o : Vs := ⟨vvVd w, vvVa w, vvVb w, vvVm w, vvTy w⟩; if tyOk o.ty then execVfsFma o s else execReservedEncoding w s
  | 4 => let o : Vs := ⟨vvVd w, vvVa w, vvVb w, vvVm w, vvTy w⟩; if tyOk o.ty then execVfsFms o s else execReservedEncoding w s
  | 5 => let o : Vs := ⟨vvVd w, vvVa w, vvVb w, vvVm w, vvTy w⟩; if tyOk o.ty then execVfsFnma o s else execReservedEncoding w s
  | 6 => let o : Vs := ⟨vvVd w, vvVa w, vvVb w, vvVm w, vvTy w⟩; if tyOk o.ty then execVfsMin o s else execReservedEncoding w s
  | 7 => let o : Vs := ⟨vvVd w, vvVa w, vvVb w, vvVm w, vvTy w⟩; if tyOk o.ty then execVfsMax o s else execReservedEncoding w s
  | 8 => let o : V2 := ⟨vvVd w, vvVa w, vvVm w, vvTy w⟩; if tyOk o.ty then execVfsAbs o s else execReservedEncoding w s
  | 9 => let o : V2 := ⟨vvVd w, vvVa w, vvVm w, vvTy w⟩; if tyOk o.ty then execVfsNeg o s else execReservedEncoding w s
  | 10 => let o : Vs := ⟨vvVd w, vvVa w, vvVb w, vvVm w, vvTy w⟩; if tyOk o.ty then execVfsDiv o s else execReservedEncoding w s
  | 11 => let o : V2 := ⟨vvVd w, vvVa w, vvVm w, vvTy w⟩; if tyOk o.ty then execVfsSqrt o s else execReservedEncoding w s
  | _ => execReservedEncoding w s

/-- Opcode 0x52. -/
def run52 (w : W32) (s : State) : Outcome State Fault Refusal :=
  match (vvFn w).toNat with
  | 0 => let o : Vv := ⟨vvVd w, vvVa w, vvVb w, vvVm w, vvTy w⟩; if tyOk o.ty then execViAdd o s else execReservedEncoding w s
  | 1 => let o : Vv := ⟨vvVd w, vvVa w, vvVb w, vvVm w, vvTy w⟩; if tyOk o.ty then execViSub o s else execReservedEncoding w s
  | 2 => let o : Vv := ⟨vvVd w, vvVa w, vvVb w, vvVm w, vvTy w⟩; if tyOk o.ty then execViMul o s else execReservedEncoding w s
  | 3 => let o : Vv := ⟨vvVd w, vvVa w, vvVb w, vvVm w, vvTy w⟩; if tyOk o.ty then execViMulh o s else execReservedEncoding w s
  | 4 => let o : Vv := ⟨vvVd w, vvVa w, vvVb w, vvVm w, vvTy w⟩; if tyOk o.ty then execViMin o s else execReservedEncoding w s
  | 5 => let o : Vv := ⟨vvVd w, vvVa w, vvVb w, vvVm w, vvTy w⟩; if tyOk o.ty then execViMax o s else execReservedEncoding w s
  | 6 => let o : Vv := ⟨vvVd w, vvVa w, vvVb w, vvVm w, vvTy w⟩; if tyOk o.ty then execViMinu o s else execReservedEncoding w s
  | 7 => let o : Vv := ⟨vvVd w, vvVa w, vvVb w, vvVm w, vvTy w⟩; if tyOk o.ty then execViMaxu o s else execReservedEncoding w s
  | 8 => let o : V2 := ⟨vvVd w, vvVa w, vvVm w, vvTy w⟩; if tyOk o.ty then execViAbs o s else execReservedEncoding w s
  | 9 => let o : V2 := ⟨vvVd w, vvVa w, vvVm w, vvTy w⟩; if tyOk o.ty then execViNeg o s else execReservedEncoding w s
  | 10 => let o : Vv := ⟨vvVd w, vvVa w, vvVb w, vvVm w, vvTy w⟩; if tyOk o.ty then execViAdds o s else execReservedEncoding w s
  | 11 => let o : Vv := ⟨vvVd w, vvVa w, vvVb w, vvVm w, vvTy w⟩; if tyOk o.ty then execViSubs o s else execReservedEncoding w s
  | _ => execReservedEncoding w s

/-- Opcode 0x53. -/
def run53 (w : W32) (s : State) : Outcome State Fault Refusal :=
  match (vvFn w).toNat with
  | 0 => let o : Vs := ⟨vvVd w, vvVa w, vvVb w, vvVm w, vvTy w⟩; if tyOk o.ty then execVisAdd o s else execReservedEncoding w s
  | 1 => let o : Vs := ⟨vvVd w, vvVa w, vvVb w, vvVm w, vvTy w⟩; if tyOk o.ty then execVisSub o s else execReservedEncoding w s
  | 2 => let o : Vs := ⟨vvVd w, vvVa w, vvVb w, vvVm w, vvTy w⟩; if tyOk o.ty then execVisMul o s else execReservedEncoding w s
  | 3 => let o : Vs := ⟨vvVd w, vvVa w, vvVb w, vvVm w, vvTy w⟩; if tyOk o.ty then execVisMulh o s else execReservedEncoding w s
  | 4 => let o : Vs := ⟨vvVd w, vvVa w, vvVb w, vvVm w, vvTy w⟩; if tyOk o.ty then execVisMin o s else execReservedEncoding w s
  | 5 => let o : Vs := ⟨vvVd w, vvVa w, vvVb w, vvVm w, vvTy w⟩; if tyOk o.ty then execVisMax o s else execReservedEncoding w s
  | 6 => let o : Vs := ⟨vvVd w, vvVa w, vvVb w, vvVm w, vvTy w⟩; if tyOk o.ty then execVisMinu o s else execReservedEncoding w s
  | 7 => let o : Vs := ⟨vvVd w, vvVa w, vvVb w, vvVm w, vvTy w⟩; if tyOk o.ty then execVisMaxu o s else execReservedEncoding w s
  | 8 => let o : V2 := ⟨vvVd w, vvVa w, vvVm w, vvTy w⟩; if tyOk o.ty then execVisAbs o s else execReservedEncoding w s
  | 9 => let o : V2 := ⟨vvVd w, vvVa w, vvVm w, vvTy w⟩; if tyOk o.ty then execVisNeg o s else execReservedEncoding w s
  | 10 => let o : Vs := ⟨vvVd w, vvVa w, vvVb w, vvVm w, vvTy w⟩; if tyOk o.ty then execVisAdds o s else execReservedEncoding w s
  | 11 => let o : Vs := ⟨vvVd w, vvVa w, vvVb w, vvVm w, vvTy w⟩; if tyOk o.ty then execVisSubs o s else execReservedEncoding w s
  | _ => execReservedEncoding w s

/-- Opcode 0x54. -/
def run54 (w : W32) (s : State) : Outcome State Fault Refusal :=
  match (vvFn w).toNat with
  | 0 => let o : Vv := ⟨vvVd w, vvVa w, vvVb w, vvVm w, vvTy w⟩; if tyOk o.ty then execVlAnd o s else execReservedEncoding w s
  | 1 => let o : Vv := ⟨vvVd w, vvVa w, vvVb w, vvVm w, vvTy w⟩; if tyOk o.ty then execVlOr o s else execReservedEncoding w s
  | 2 => let o : Vv := ⟨vvVd w, vvVa w, vvVb w, vvVm w, vvTy w⟩; if tyOk o.ty then execVlXor o s else execReservedEncoding w s
  | 3 => let o : Vv := ⟨vvVd w, vvVa w, vvVb w, vvVm w, vvTy w⟩; if tyOk o.ty then execVlAndn o s else execReservedEncoding w s
  | 4 => let o : Vv := ⟨vvVd w, vvVa w, vvVb w, vvVm w, vvTy w⟩; if tyOk o.ty then execVlShl o s else execReservedEncoding w s
  | 5 => let o : Vv := ⟨vvVd w, vvVa w, vvVb w, vvVm w, vvTy w⟩; if tyOk o.ty then execVlShr o s else execReservedEncoding w s
  | 6 => let o : Vv := ⟨vvVd w, vvVa w, vvVb w, vvVm w, vvTy w⟩; if tyOk o.ty then execVlSra o s else execReservedEncoding w s
  | _ => execReservedEncoding w s

/-- Opcode 0x55. -/
def run55 (w : W32) (s : State) : Outcome State Fault Refusal :=
  match (vvFn w).toNat with
  | 0 => let o : Vs := ⟨vvVd w, vvVa w, vvVb w, vvVm w, vvTy w⟩; if tyOk o.ty then execVlsAnd o s else execReservedEncoding w s
  | 1 => let o : Vs := ⟨vvVd w, vvVa w, vvVb w, vvVm w, vvTy w⟩; if tyOk o.ty then execVlsOr o s else execReservedEncoding w s
  | 2 => let o : Vs := ⟨vvVd w, vvVa w, vvVb w, vvVm w, vvTy w⟩; if tyOk o.ty then execVlsXor o s else execReservedEncoding w s
  | 3 => let o : Vs := ⟨vvVd w, vvVa w, vvVb w, vvVm w, vvTy w⟩; if tyOk o.ty then execVlsAndn o s else execReservedEncoding w s
  | 4 => let o : Vs := ⟨vvVd w, vvVa w, vvVb w, vvVm w, vvTy w⟩; if tyOk o.ty then execVlsShl o s else execReservedEncoding w s
  | 5 => let o : Vs := ⟨vvVd w, vvVa w, vvVb w, vvVm w, vvTy w⟩; if tyOk o.ty then execVlsShr o s else execReservedEncoding w s
  | 6 => let o : Vs := ⟨vvVd w, vvVa w, vvVb w, vvVm w, vvTy w⟩; if tyOk o.ty then execVlsSra o s else execReservedEncoding w s
  | _ => execReservedEncoding w s

/-- Opcode 0x56. -/
def run56 (w : W32) (s : State) : Outcome State Fault Refusal :=
  match (vvFn w).toNat with
  | 0 => let o : Vc := ⟨(vvVd w).extractLsb' 0 3, vvVa w, vvVb w, vvVm w, vvTy w⟩; if tyOk o.ty then execVcmpFeq o s else execReservedEncoding w s
  | 1 => let o : Vc := ⟨(vvVd w).extractLsb' 0 3, vvVa w, vvVb w, vvVm w, vvTy w⟩; if tyOk o.ty then execVcmpFlt o s else execReservedEncoding w s
  | 2 => let o : Vc := ⟨(vvVd w).extractLsb' 0 3, vvVa w, vvVb w, vvVm w, vvTy w⟩; if tyOk o.ty then execVcmpFle o s else execReservedEncoding w s
  | 3 => let o : Vc := ⟨(vvVd w).extractLsb' 0 3, vvVa w, vvVb w, vvVm w, vvTy w⟩; if tyOk o.ty then execVcmpFun o s else execReservedEncoding w s
  | 4 => let o : Vc := ⟨(vvVd w).extractLsb' 0 3, vvVa w, vvVb w, vvVm w, vvTy w⟩; if tyOk o.ty then execVcmpIeq o s else execReservedEncoding w s
  | 5 => let o : Vc := ⟨(vvVd w).extractLsb' 0 3, vvVa w, vvVb w, vvVm w, vvTy w⟩; if tyOk o.ty then execVcmpIlt o s else execReservedEncoding w s
  | 6 => let o : Vc := ⟨(vvVd w).extractLsb' 0 3, vvVa w, vvVb w, vvVm w, vvTy w⟩; if tyOk o.ty then execVcmpIltu o s else execReservedEncoding w s
  | 7 => let o : Vc := ⟨(vvVd w).extractLsb' 0 3, vvVa w, vvVb w, vvVm w, vvTy w⟩; if tyOk o.ty then execVcmpIle o s else execReservedEncoding w s
  | _ => execReservedEncoding w s

/-- Opcode 0x57. -/
def run57 (w : W32) (s : State) : Outcome State Fault Refusal :=
  match (vvFn w).toNat with
  | 0 => let o : Vcs := ⟨(vvVd w).extractLsb' 0 3, vvVa w, vvVb w, vvVm w, vvTy w⟩; if tyOk o.ty then execVcmpsFeq o s else execReservedEncoding w s
  | 1 => let o : Vcs := ⟨(vvVd w).extractLsb' 0 3, vvVa w, vvVb w, vvVm w, vvTy w⟩; if tyOk o.ty then execVcmpsFlt o s else execReservedEncoding w s
  | 2 => let o : Vcs := ⟨(vvVd w).extractLsb' 0 3, vvVa w, vvVb w, vvVm w, vvTy w⟩; if tyOk o.ty then execVcmpsFle o s else execReservedEncoding w s
  | 3 => let o : Vcs := ⟨(vvVd w).extractLsb' 0 3, vvVa w, vvVb w, vvVm w, vvTy w⟩; if tyOk o.ty then execVcmpsFun o s else execReservedEncoding w s
  | 4 => let o : Vcs := ⟨(vvVd w).extractLsb' 0 3, vvVa w, vvVb w, vvVm w, vvTy w⟩; if tyOk o.ty then execVcmpsIeq o s else execReservedEncoding w s
  | 5 => let o : Vcs := ⟨(vvVd w).extractLsb' 0 3, vvVa w, vvVb w, vvVm w, vvTy w⟩; if tyOk o.ty then execVcmpsIlt o s else execReservedEncoding w s
  | 6 => let o : Vcs := ⟨(vvVd w).extractLsb' 0 3, vvVa w, vvVb w, vvVm w, vvTy w⟩; if tyOk o.ty then execVcmpsIltu o s else execReservedEncoding w s
  | 7 => let o : Vcs := ⟨(vvVd w).extractLsb' 0 3, vvVa w, vvVb w, vvVm w, vvTy w⟩; if tyOk o.ty then execVcmpsIle o s else execReservedEncoding w s
  | _ => execReservedEncoding w s

/-- Opcode 0x58. -/
def run58 (w : W32) (s : State) : Outcome State Fault Refusal :=
  match (vvFn w).toNat with
  | 0 => let o : Vv := ⟨vvVd w, vvVa w, vvVb w, vvVm w, vvTy w⟩; if tyOk o.ty then execVsel o s else execReservedEncoding w s
  | _ => execReservedEncoding w s

/-- Opcode 0x59. -/
def run59 (w : W32) (s : State) : Outcome State Fault Refusal :=
  match (vvFn w).toNat with
  | 0 => let o : Vv := ⟨vvVd w, vvVa w, vvVb w, vvVm w, vvTy w⟩; if tyOk o.ty && cvtNarrowOk o.ty o.vb then execVcvtNarrow o s else execReservedEncoding w s
  | 1 => let o : Vv := ⟨vvVd w, vvVa w, vvVb w, vvVm w, vvTy w⟩; if tyOk o.ty && cvtNarrowOk o.ty o.vb then execVcvtNarrows o s else execReservedEncoding w s
  | 2 => let o : Vv := ⟨vvVd w, vvVa w, vvVb w, vvVm w, vvTy w⟩; if tyOk o.ty && cvtNarrowOk o.ty o.vb then execVcvtWiden o s else execReservedEncoding w s
  | 3 => let o : Vv := ⟨vvVd w, vvVa w, vvVb w, vvVm w, vvTy w⟩; if tyOk o.ty && cvtIntOk o.vb then execVcvtI2f o s else execReservedEncoding w s
  | 4 => let o : Vv := ⟨vvVd w, vvVa w, vvVb w, vvVm w, vvTy w⟩; if tyOk o.ty && cvtIntOk o.vb then execVcvtF2i o s else execReservedEncoding w s
  | _ => execReservedEncoding w s

/-- Opcode 0x5A. -/
def run5A (w : W32) (s : State) : Outcome State Fault Refusal :=
  match (vvFn w).toNat with
  | 0 => let o : V2 := ⟨vvVd w, vvVa w, vvVm w, vvTy w⟩; if tyOk o.ty then execVredFsum o s else execReservedEncoding w s
  | 1 => let o : V2 := ⟨vvVd w, vvVa w, vvVm w, vvTy w⟩; if tyOk o.ty then execVredFmax o s else execReservedEncoding w s
  | 2 => let o : V2 := ⟨vvVd w, vvVa w, vvVm w, vvTy w⟩; if tyOk o.ty then execVredFmin o s else execReservedEncoding w s
  | 3 => let o : V2 := ⟨vvVd w, vvVa w, vvVm w, vvTy w⟩; if tyOk o.ty then execVredIsum o s else execReservedEncoding w s
  | 4 => let o : V2 := ⟨vvVd w, vvVa w, vvVm w, vvTy w⟩; if tyOk o.ty then execVredImax o s else execReservedEncoding w s
  | 5 => let o : V2 := ⟨vvVd w, vvVa w, vvVm w, vvTy w⟩; if tyOk o.ty then execVredImin o s else execReservedEncoding w s
  | 6 => let o : V2 := ⟨vvVd w, vvVa w, vvVm w, vvTy w⟩; if tyOk o.ty then execVredAnd o s else execReservedEncoding w s
  | 7 => let o : V2 := ⟨vvVd w, vvVa w, vvVm w, vvTy w⟩; if tyOk o.ty then execVredOr o s else execReservedEncoding w s
  | _ => execReservedEncoding w s

/-- Opcode 0x5B. -/
def run5B (w : W32) (s : State) : Outcome State Fault Refusal :=
  match (vvFn w).toNat with
  | 0 => let o : Vv := ⟨vvVd w, vvVa w, vvVb w, vvVm w, vvTy w⟩; if tyOk o.ty then execVpermPerm o s else execReservedEncoding w s
  | 1 => let o : Vv := ⟨vvVd w, vvVa w, vvVb w, vvVm w, vvTy w⟩; if tyOk o.ty then execVpermRot o s else execReservedEncoding w s
  | 2 => let o : Vv := ⟨vvVd w, vvVa w, vvVb w, vvVm w, vvTy w⟩; if tyOk o.ty then execVpermBcastl o s else execReservedEncoding w s
  | 3 => let o : Vv := ⟨vvVd w, vvVa w, vvVb w, vvVm w, vvTy w⟩; if tyOk o.ty then execVpermZip o s else execReservedEncoding w s
  | 4 => let o : V2 := ⟨vvVd w, vvVa w, vvVm w, vvTy w⟩; if tyOk o.ty then execVpermUnzip o s else execReservedEncoding w s
  | 5 => let o : V2 := ⟨vvVd w, vvVa w, vvVm w, vvTy w⟩; if tyOk o.ty then execVpermCompress o s else execReservedEncoding w s
  | 6 => let o : V2 := ⟨vvVd w, vvVa w, vvVm w, vvTy w⟩; if tyOk o.ty then execVpermExpand o s else execReservedEncoding w s
  | 7 => if tyOk (vvTy w) then execVpermIota (vvVd w) (vvVm w) (vvTy w) s else execReservedEncoding w s
  | _ => execReservedEncoding w s

/-- Opcode 0x5C. -/
def run5C (w : W32) (s : State) : Outcome State Fault Refusal :=
  match (vvFn w).toNat with
  | 0 => let o : V2 := ⟨vvVd w, vvVa w, vvVm w, vvTy w⟩; if tyOk o.ty then execVsfEx2 o s else execReservedEncoding w s
  | 1 => let o : V2 := ⟨vvVd w, vvVa w, vvVm w, vvTy w⟩; if tyOk o.ty then execVsfLg2 o s else execReservedEncoding w s
  | 2 => let o : V2 := ⟨vvVd w, vvVa w, vvVm w, vvTy w⟩; if tyOk o.ty then execVsfRcp o s else execReservedEncoding w s
  | 3 => let o : V2 := ⟨vvVd w, vvVa w, vvVm w, vvTy w⟩; if tyOk o.ty then execVsfRsqrt o s else execReservedEncoding w s
  | 4 => let o : V2 := ⟨vvVd w, vvVa w, vvVm w, vvTy w⟩; if tyOk o.ty then execVsfSin o s else execReservedEncoding w s
  | 5 => let o : V2 := ⟨vvVd w, vvVa w, vvVm w, vvTy w⟩; if tyOk o.ty then execVsfCos o s else execReservedEncoding w s
  | 6 => let o : V2 := ⟨vvVd w, vvVa w, vvVm w, vvTy w⟩; if tyOk o.ty then execVsfTanh o s else execReservedEncoding w s
  | 7 => let o : V2 := ⟨vvVd w, vvVa w, vvVm w, vvTy w⟩; if tyOk o.ty then execVsfSigm o s else execReservedEncoding w s
  | _ => execReservedEncoding w s

/-- Opcode 0x5D. -/
def run5D (w : W32) (s : State) : Outcome State Fault Refusal :=
  match (vvFn w).toNat with
  | 0 => if tyOk (vvTy w) then execVmvSplat (vvVd w) (vvVb w) (vvVm w) (vvTy w) s else execReservedEncoding w s
  | 1 => if w &&& 0x00080000 = 0#32 then if tyOk (vvTy w) then execVmvExtract ((vvVd w).extractLsb' 0 4) (vvVa w) (vvVb w) (vvTy w) s else execReservedEncoding w s else execReservedEncoding w s
  | 2 => if tyOk (vvTy w) then execVmvInsert (vvVd w) (vvVa w) (vvVb w) (vvTy w) s else execReservedEncoding w s
  | 3 => if w &&& 0x000843E3 = 0#32 then execVmvMtos ((vvVd w).extractLsb' 0 4) ((vvVa w).extractLsb' 3 1) ((vvVa w).extractLsb' 0 3) s else execReservedEncoding w s
  | 4 => if w &&& 0x00087C03 = 0#32 then execVmvStom ((vvVd w).extractLsb' 3 1) ((vvVd w).extractLsb' 0 3) (vvVb w) s else execReservedEncoding w s
  | _ => execReservedEncoding w s

/-- Opcode 0x60. -/
def run60 (w : W32) (s : State) : Outcome State Fault Refusal :=
  let o : Vm := ⟨vmV w, vmSb w, vmSi w, vmVm w, vmRh w, vmEw w, vmMd w⟩; if vmOk o then execVld o s else execReservedEncoding w s

/-- Opcode 0x61. -/
def run61 (w : W32) (s : State) : Outcome State Fault Refusal :=
  let o : Vm := ⟨vmV w, vmSb w, vmSi w, vmVm w, vmRh w, vmEw w, vmMd w⟩; if vmOk o && vstOk o then execVst o s else execReservedEncoding w s

/-- Opcode 0x62. -/
def run62 (w : W32) (s : State) : Outcome State Fault Refusal :=
  if w &&& 0x00000003 = 0#32 then let o : Vg := ⟨vmV w, vmSb w, vmSi w, vmVm w, vmRh w, vmEw w⟩; if ewOk o.ew then execVgth o s else execReservedEncoding w s
  else execReservedEncoding w s

/-- Opcode 0x63. -/
def run63 (w : W32) (s : State) : Outcome State Fault Refusal :=
  if w &&& 0x00000003 = 0#32 then let o : Vg := ⟨vmV w, vmSb w, vmSi w, vmVm w, vmRh w, vmEw w⟩; if ewOk o.ew then execVsct o s else execReservedEncoding w s
  else execReservedEncoding w s

/-- Opcode 0x64. -/
def run64 (w : W32) (s : State) : Outcome State Fault Refusal :=
  match (enFn w).toNat with
  | 0 => execGangForm (enSa w) (enSd w) s
  | 1 => execGangJoin (enSa w) (enSd w) s
  | 2 => execGangDisband s
  | 3 => execGangIdx (enSd w) s
  | _ => execReservedEncoding w s

/-- Opcode 0x70. -/
def run70 (w : W32) (s : State) : Outcome State Fault Refusal :=
  match (mxMf w).toNat with
  | 0 => let o : Mx := ⟨mxAc w, mxAsel w, mxA w, mxBsel w, mxB w, mxDa w, mxDb w, mxSk w⟩; if mxOk o then execMmaE4m3 o s else execReservedEncoding w s
  | 1 => let o : Mx := ⟨mxAc w, mxAsel w, mxA w, mxBsel w, mxB w, mxDa w, mxDb w, mxSk w⟩; if mxOk o then execMmaE5m2 o s else execReservedEncoding w s
  | 2 => let o : Mx := ⟨mxAc w, mxAsel w, mxA w, mxBsel w, mxB w, mxDa w, mxDb w, mxSk w⟩; if mxOk o then execMmaE4m3e5m2 o s else execReservedEncoding w s
  | 3 => let o : Mx := ⟨mxAc w, mxAsel w, mxA w, mxBsel w, mxB w, mxDa w, mxDb w, mxSk w⟩; if mxOk o && mxNoSk o then execMmaE2m1 o s else execReservedEncoding w s
  | 4 => let o : Mx := ⟨mxAc w, mxAsel w, mxA w, mxBsel w, mxB w, mxDa w, mxDb w, mxSk w⟩; if mxOk o && mxNoSk o && mxGroup16 o then execMmaBf16 o s else execReservedEncoding w s
  | 5 => let o : Mx := ⟨mxAc w, mxAsel w, mxA w, mxBsel w, mxB w, mxDa w, mxDb w, mxSk w⟩; if mxOk o && mxNoSk o && mxGroup16 o then execMmaFp16 o s else execReservedEncoding w s
  | 6 => let o : Mx := ⟨mxAc w, mxAsel w, mxA w, mxBsel w, mxB w, mxDa w, mxDb w, mxSk w⟩; if mxOk o && mxNoSk o then execMmaI8 o s else execReservedEncoding w s
  | 7 => let o : Mx := ⟨mxAc w, mxAsel w, mxA w, mxBsel w, mxB w, mxDa w, mxDb w, mxSk w⟩; if mxOk o && mxNoSk o then execMmaU8i8 o s else execReservedEncoding w s
  | _ => execReservedEncoding w s

/-- Opcode 0x71. -/
def run71 (w : W32) (s : State) : Outcome State Fault Refusal :=
  match (enFn w).toNat with
  | 0 => if w &&& 0x00000038 = 0#32 then execAccZero ((enImm w).extractLsb' 0 3) s else execReservedEncoding w s
  | 1 => if w &&& 0x00000020 = 0#32 then execAccLd (enSa w) (enSb w) (enSd w) ((enImm w).extractLsb' 3 2) ((enImm w).extractLsb' 0 3) s else execReservedEncoding w s
  | 2 => if w &&& 0x00000020 = 0#32 then execAccSt (enSa w) (enSb w) (enSd w) ((enImm w).extractLsb' 3 2) ((enImm w).extractLsb' 0 3) s else execReservedEncoding w s
  | 3 => if (enImm w).getLsbD 3 then if w &&& 0x00000030 = 0#32 then execAccRowWrite (enSa w) (enSb w) ((enImm w).extractLsb' 0 3) s else execReservedEncoding w s else if w &&& 0x00000030 = 0#32 then execAccRowRead (enSa w) (enSb w) ((enImm w).extractLsb' 0 3) s else execReservedEncoding w s
  | 4 => if w &&& 0x00000038 = 0#32 then execAccScale (enSa w) ((enImm w).extractLsb' 0 3) s else execReservedEncoding w s
  | _ => execReservedEncoding w s

/-- Opcode 0x72. -/
def run72 (w : W32) (s : State) : Outcome State Fault Refusal :=
  match (enFn w).toNat with
  | 0 => if w &&& 0x0000003C = 0#32 then execSkdSet (enSa w) (enSb w) ((enImm w).extractLsb' 0 2) s else execReservedEncoding w s
  | 1 => if w &&& 0x0000003C = 0#32 then execSkdReset ((enImm w).extractLsb' 0 2) s else execReservedEncoding w s
  | 2 => if w &&& 0x0000003C = 0#32 then execSkdPos (enSd w) ((enImm w).extractLsb' 0 2) s else execReservedEncoding w s
  | _ => execReservedEncoding w s

/-- Opcode 0x80. -/
def run80 (w : W32) (s : State) : Outcome State Fault Refusal :=
  match (enFn w).toNat with
  | 0 => if w &&& 0x00000030 = 0#32 then execCbCfg (enSa w) (enSb w) (enSd w) ((enImm w).extractLsb' 0 4) s else execReservedEncoding w s
  | 1 => if w &&& 0x00000030 = 0#32 then execCbPut (enSa w) (enSd w) ((enImm w).extractLsb' 0 4) s else execReservedEncoding w s
  | 2 => if w &&& 0x00000030 = 0#32 then execCbGet (enSa w) (enSd w) ((enImm w).extractLsb' 0 4) s else execReservedEncoding w s
  | 3 => if w &&& 0x00000030 = 0#32 then execCbRoom (enSd w) ((enImm w).extractLsb' 0 4) s else execReservedEncoding w s
  | 4 => if w &&& 0x00000030 = 0#32 then execCbCount (enSd w) ((enImm w).extractLsb' 0 4) s else execReservedEncoding w s
  | 5 => if w &&& 0x00000020 = 0#32 then execCbWait (enSa w) ((enImm w).extractLsb' 4 1) ((enImm w).extractLsb' 0 4) s else execReservedEncoding w s
  | _ => execReservedEncoding w s

/-- Opcode 0x81. -/
def run81 (w : W32) (s : State) : Outcome State Fault Refusal :=
  match (enFn w).toNat with
  | 0 => execEngBind (enSa w) (enSd w) s
  | 1 => execEngArm (enSa w) s
  | 2 => execEngOnce (enSa w) s
  | 3 => execEngUnbind (enSa w) s
  | 4 => execEngStat (enSa w) (enSd w) s
  | _ => execReservedEncoding w s

/-- Opcode 0x82. -/
def run82 (w : W32) (s : State) : Outcome State Fault Refusal :=
  match (enFn w).toNat with
  | 0 => if w &&& 0x0000003C = 0#32 then if evenSrc (enSa w) then execCopyLin (enSa w) (enSb w) (enSd w) ((enImm w).extractLsb' 0 2) s else execReservedEncoding w s else execReservedEncoding w s
  | 1 => if w &&& 0x0000003C = 0#32 then if evenSrc (enSa w) && evenSrc (enSb w) then execCopyTile2d (enSa w) (enSb w) (enSd w) ((enImm w).extractLsb' 0 2) s else execReservedEncoding w s else execReservedEncoding w s
  | 2 => if w &&& 0x0000003C = 0#32 then if evenSrc (enSa w) then execCopyPeer (enSa w) (enSb w) (enSd w) ((enImm w).extractLsb' 0 2) s else execReservedEncoding w s else execReservedEncoding w s
  | 3 => if w &&& 0x0000003C = 0#32 then if evenSrc (enSa w) then execCopyBcast (enSa w) (enSb w) (enSd w) ((enImm w).extractLsb' 0 2) s else execReservedEncoding w s else execReservedEncoding w s
  | _ => execReservedEncoding w s

/-- Opcode 0x83. -/
def run83 (w : W32) (s : State) : Outcome State Fault Refusal :=
  match (enFn w).toNat with
  | 0 => if w &&& 0x00000030 = 0#32 then execBankFmtset (enSa w) (enSd w) ((enImm w).extractLsb' 0 4) s else execReservedEncoding w s
  | 1 => if w &&& 0x00000030 = 0#32 then execBankFmtget (enSd w) ((enImm w).extractLsb' 0 4) s else execReservedEncoding w s
  | 2 => if w &&& 0x00000030 = 0#32 then execBankGate ((enImm w).extractLsb' 0 4) s else execReservedEncoding w s
  | 3 => if w &&& 0x00000030 = 0#32 then execBankWake ((enImm w).extractLsb' 0 4) s else execReservedEncoding w s
  | _ => execReservedEncoding w s

/-- Opcode 0x84. -/
def run84 (w : W32) (s : State) : Outcome State Fault Refusal :=
  match (enFn w).toNat with
  | 0 => if w &&& 0x0000003E = 0#32 then execRlkQuery (enSa w) (enSd w) ((enImm w).extractLsb' 0 1) s else execReservedEncoding w s
  | 1 => execRlkDrop (enSa w) s
  | _ => execReservedEncoding w s

/-- Opcode 0x90. -/
def run90 (w : W32) (s : State) : Outcome State Fault Refusal :=
  match (enFn w).toNat with
  | 0 => if w &&& 0x00000038 = 0#32 then execBarReg (enSa w) (enSb w) (enSd w) ((enImm w).extractLsb' 0 3) s else execReservedEncoding w s
  | 1 => if w &&& 0x00000038 = 0#32 then execBarArrive (enSd w) ((enImm w).extractLsb' 0 3) s else execReservedEncoding w s
  | 2 => if w &&& 0x00000038 = 0#32 then execBarWait (enSa w) ((enImm w).extractLsb' 0 3) s else execReservedEncoding w s
  | 3 => if w &&& 0x00000038 = 0#32 then execBarArrw (enSd w) ((enImm w).extractLsb' 0 3) s else execReservedEncoding w s
  | 4 => if w &&& 0x00000038 = 0#32 then execBarDrop ((enImm w).extractLsb' 0 3) s else execReservedEncoding w s
  | _ => execReservedEncoding w s

/-- Opcode 0x91. -/
def run91 (w : W32) (s : State) : Outcome State Fault Refusal :=
  match (enFn w).toNat with
  | 0 => execArBegin (enSa w) (enSd w) s
  | 1 => execArAbort s
  | 2 => execArDraw (enSd w) s
  | 3 => execArStatus (enSd w) s
  | _ => execReservedEncoding w s

/-- Opcode 0x92. -/
def run92 (w : W32) (s : State) : Outcome State Fault Refusal :=
  match (enFn w).toNat with
  | 0 => execPcommit (enSa w) (enSd w) s
  | _ => execReservedEncoding w s

/-- Opcode 0x93. -/
def run93 (w : W32) (s : State) : Outcome State Fault Refusal :=
  match (enFn w).toNat with
  | 0 => execAnnealCfg (enSa w) (enSb w) (enSd w) s
  | 1 => execAnnealOff (enSd w) s
  | 2 => execAnnealReset (enSd w) s
  | _ => execReservedEncoding w s

/-- Opcode 0xA0. -/
def runA0 (w : W32) (s : State) : Outcome State Fault Refusal :=
  match (enFn w).toNat with
  | 0 => if w &&& 0x0000003F = 0#32 then execCacheWb (enSa w) (enSb w) s else execReservedEncoding w s
  | 1 => if w &&& 0x0000003F = 0#32 then execCacheInv (enSa w) (enSb w) s else execReservedEncoding w s
  | 2 => if w &&& 0x0000003F = 0#32 then execCacheHarvest s else execReservedEncoding w s
  | 3 => if w &&& 0x0000003C = 0#32 then execCacheRetain (enSa w) (enSb w) ((enImm w).extractLsb' 0 2) s else execReservedEncoding w s
  | 4 => if w &&& 0x0000003C = 0#32 then if ((enImm w).extractLsb' 0 2) != 3#2 then execCacheTlbi (enSa w) (enSb w) ((enImm w).extractLsb' 0 2) s else execReservedEncoding w s else execReservedEncoding w s
  | _ => execReservedEncoding w s

/-- Opcode 0xA1. -/
def runA1 (w : W32) (s : State) : Outcome State Fault Refusal :=
  match (enFn w).toNat with
  | 0 => if w &&& 0x00000020 = 0#32 then execLrecPatch (enSa w) (enSb w) (enSd w) ((enImm w).extractLsb' 0 5) s else execReservedEncoding w s
  | 1 => execLrecArm (enSa w) (enSd w) s
  | 2 => if w &&& 0x00000020 = 0#32 then execLrecQuery (enSa w) (enSd w) ((enImm w).extractLsb' 0 5) s else execReservedEncoding w s
  | 3 => execLrecCancel (enSa w) (enSd w) s
  | 4 => execLrecWait (enSa w) (enSd w) s
  | _ => execReservedEncoding w s

/-- Opcode 0xA2. -/
def runA2 (w : W32) (s : State) : Outcome State Fault Refusal :=
  match (enFn w).toNat with
  | 0 => if walkNextOk (enSd w) then execWalkNext (enSd w) s else execReservedEncoding w s
  | 1 => execWalkInfo (enSd w) (enImm w) s
  | _ => execReservedEncoding w s

/-- Opcode 0xA3. -/
def runA3 (w : W32) (s : State) : Outcome State Fault Refusal :=
  match (enFn w).toNat with
  | 0 => if w &&& 0x00000030 = 0#32 then execUmeCfg (enSa w) (enSd w) ((enImm w).extractLsb' 0 4) s else execReservedEncoding w s
  | 1 => if w &&& 0x00000030 = 0#32 then execUmeRound (enSa w) (enSd w) ((enImm w).extractLsb' 0 4) s else execReservedEncoding w s
  | 2 => execUmeStat (enSd w) ((enImm w).extractLsb' 4 2) ((enImm w).extractLsb' 0 4) s
  | 3 => if w &&& 0x00000030 = 0#32 then execUmeDirty (enSd w) ((enImm w).extractLsb' 0 4) s else execReservedEncoding w s
  | _ => execReservedEncoding w s

/-- Opcode 0xB0. -/
def runB0 (w : W32) (s : State) : Outcome State Fault Refusal :=
  match (enFn w).toNat with
  | 0 => if w &&& 0x00000030 = 0#32 then if decide (((enImm w).extractLsb' 0 4).toNat ≤ 8) then execRingPeek (enSa w) (enSd w) ((enImm w).extractLsb' 0 4) s else execReservedEncoding w s else execReservedEncoding w s
  | 1 => if w &&& 0x0000003C = 0#32 then execRingBoard (enSa w) (enSd w) ((enImm w).extractLsb' 0 2) s else execReservedEncoding w s
  | 2 => if w &&& 0x00000020 = 0#32 then execRingHget (enSd w) ((enImm w).extractLsb' 2 3) ((enImm w).extractLsb' 0 2) s else execReservedEncoding w s
  | 3 => if w &&& 0x00000020 = 0#32 then execRingHset (enSa w) ((enImm w).extractLsb' 2 3) ((enImm w).extractLsb' 0 2) s else execReservedEncoding w s
  | 4 => if w &&& 0x0000003C = 0#32 then execRingAlight ((enImm w).extractLsb' 0 2) s else execReservedEncoding w s
  | 5 => if w &&& 0x0000003C = 0#32 then execRingRel ((enImm w).extractLsb' 0 2) s else execReservedEncoding w s
  | 6 => if w &&& 0x00000038 = 0#32 then execRingRadd (enSa w) (enSb w) ((enImm w).extractLsb' 0 3) s else execReservedEncoding w s
  | 7 => if w &&& 0x00000030 = 0#32 then execRingRmax (enSa w) (enSb w) ((enImm w).extractLsb' 3 1) ((enImm w).extractLsb' 0 3) s else execReservedEncoding w s
  | _ => execReservedEncoding w s

/-- Opcode 0xB1. -/
def runB1 (w : W32) (s : State) : Outcome State Fault Refusal :=
  match (enFn w).toNat with
  | 0 => if w &&& 0x0000003E = 0#32 then execMsgSend (enSa w) (enSb w) (enSd w) ((enImm w).extractLsb' 0 1) s else execReservedEncoding w s
  | 1 => if w &&& 0x0000003F = 0#32 then execMsgRecv (enSa w) (enSd w) s else execReservedEncoding w s
  | 2 => if w &&& 0x0000003F = 0#32 then execMsgProbe (enSa w) (enSd w) s else execReservedEncoding w s
  | _ => execReservedEncoding w s

/-- Opcode 0xF0. -/
def runF0 (w : W32) (s : State) : Outcome State Fault Refusal :=
  execHintImmx (hiP w) s

/-- Opcode 0xF1. -/
def runF1 (w : W32) (s : State) : Outcome State Fault Refusal :=
  execHintScl ((hiP w).extractLsb' 0 5) s

/-- Opcode 0xF2. -/
def runF2 (w : W32) (s : State) : Outcome State Fault Refusal :=
  execHintLat ((hiP w).extractLsb' 0 3) s

/-- Opcode 0xF3. -/
def runF3 (w : W32) (s : State) : Outcome State Fault Refusal :=
  execHintRh ((hiP w).extractLsb' 0 2) s

/-- Opcode 0xF4. -/
def runF4 (w : W32) (s : State) : Outcome State Fault Refusal :=
  execHintSrk (hiP w) s

/-- A hint code without a name (R73). -/
def runHint (w : W32) (s : State) : Outcome State Fault Refusal :=
  if decide (0xF6 ≤ (opOf w).toNat) && decide ((opOf w).toNat ≤ 0xFE) then execHintUnnamed (opOf w) (hiP w) s
  else execReservedEncoding w s

/-- A word that is no illegal word. -/
def runOp (w : W32) (s : State) : Outcome State Fault Refusal :=
  match (opOf w).toNat with
  | 0x01 => runDecoded (decode01 w) w s
  | 0x02 => runDecoded (decode02 w) w s
  | 0x03 => runDecoded (decode03 w) w s
  | 0x04 => runDecoded (decode04 w) w s
  | 0x05 => runDecoded (decode05 w) w s
  | 0x06 => runDecoded (decode06 w) w s
  | 0x07 => runDecoded (decode07 w) w s
  | 0x08 => runDecoded (decode08 w) w s
  | 0x09 => runDecoded (decode09 w) w s
  | 0x0A => runDecoded (decode0A w) w s
  | 0x10 => runDecoded (decode10 w) w s
  | 0x11 => runDecoded (decode11 w) w s
  | 0x12 => runDecoded (decode12 w) w s
  | 0x13 => runDecoded (decode13 w) w s
  | 0x14 => runDecoded (decode14 w) w s
  | 0x15 => runDecoded (decode15 w) w s
  | 0x16 => runDecoded (decode16 w) w s
  | 0x17 => runDecoded (decode17 w) w s
  | 0x18 => runDecoded (decode18 w) w s
  | 0x19 => runDecoded (decode19 w) w s
  | 0x1A => runDecoded (decode1A w) w s
  | 0x1B => runDecoded (decode1B w) w s
  | 0x1C => runDecoded (decode1C w) w s
  | 0x1D => runDecoded (decode1D w) w s
  | 0x20 => runDecoded (decode20 w) w s
  | 0x21 => runDecoded (decode21 w) w s
  | 0x22 => runDecoded (decode22 w) w s
  | 0x30 => runDecoded (decode30 w) w s
  | 0x31 => runDecoded (decode31 w) w s
  | 0x32 => runDecoded (decode32 w) w s
  | 0x33 => runDecoded (decode33 w) w s
  | 0x34 => runDecoded (decode34 w) w s
  | 0x40 => runDecoded (decode40 w) w s
  | 0x41 => runDecoded (decode41 w) w s
  | 0x42 => runDecoded (decode42 w) w s
  | 0x43 => runDecoded (decode43 w) w s
  | 0x44 => runDecoded (decode44 w) w s
  | 0x45 => runDecoded (decode45 w) w s
  | 0x46 => runDecoded (decode46 w) w s
  | 0x47 => run47 w s
  | 0x48 => run48 w s
  | 0x49 => run49 w s
  | 0x4A => run4A w s
  | 0x50 => run50 w s
  | 0x51 => run51 w s
  | 0x52 => run52 w s
  | 0x53 => run53 w s
  | 0x54 => run54 w s
  | 0x55 => run55 w s
  | 0x56 => run56 w s
  | 0x57 => run57 w s
  | 0x58 => run58 w s
  | 0x59 => run59 w s
  | 0x5A => run5A w s
  | 0x5B => run5B w s
  | 0x5C => run5C w s
  | 0x5D => run5D w s
  | 0x60 => run60 w s
  | 0x61 => run61 w s
  | 0x62 => run62 w s
  | 0x63 => run63 w s
  | 0x64 => run64 w s
  | 0x70 => run70 w s
  | 0x71 => run71 w s
  | 0x72 => run72 w s
  | 0x80 => run80 w s
  | 0x81 => run81 w s
  | 0x82 => run82 w s
  | 0x83 => run83 w s
  | 0x84 => run84 w s
  | 0x90 => run90 w s
  | 0x91 => run91 w s
  | 0x92 => run92 w s
  | 0x93 => run93 w s
  | 0xA0 => runA0 w s
  | 0xA1 => runA1 w s
  | 0xA2 => runA2 w s
  | 0xA3 => runA3 w s
  | 0xB0 => runB0 w s
  | 0xB1 => runB1 w s
  | 0xF0 => runF0 w s
  | 0xF1 => runF1 w s
  | 0xF2 => runF2 w s
  | 0xF3 => runF3 w s
  | 0xF4 => runF4 w s
  | 0xF5 => runDecoded (decodeF5 w) w s
  | 0xF6 => runHint w s
  | 0xF7 => runHint w s
  | 0xF8 => runHint w s
  | 0xF9 => runHint w s
  | 0xFA => runHint w s
  | 0xFB => runHint w s
  | 0xFC => runHint w s
  | 0xFD => runHint w s
  | 0xFE => runHint w s
  | _ => execReservedEncoding w s

/-- Perform the step that a word is, without building the instruction. -/
def runWord (w : W32) (s : State) : Outcome State Fault Refusal :=
  if w = 0x00000000#32 then execIllegalWordZeros s
  else if w = 0xFFFFFFFF#32 then execIllegalWordOnes s
  else runOp w s

theorem run47_eq (w : W32) (s : State) : runDecoded (decode47 w) w s = run47 w s := by
  unfold decode47 run47
  generalize (enFn w).toNat = n
  split
  all_goals first | rfl | (unfold zeros; split <;> rfl) | (split <;> first | contradiction | rfl | (unfold zeros; split <;> rfl))
theorem run48_eq (w : W32) (s : State) : runDecoded (decode48 w) w s = run48 w s := by
  unfold decode48 run48
  generalize (enFn w).toNat = n
  split
  all_goals first | rfl | (unfold zeros; split <;> rfl) | (split <;> first | contradiction | rfl | (unfold zeros; split <;> rfl))
theorem run49_eq (w : W32) (s : State) : runDecoded (decode49 w) w s = run49 w s := by
  unfold decode49 run49
  generalize (enFn w).toNat = n
  split
  all_goals first | rfl | (unfold zeros; split <;> rfl) | (split <;> first | contradiction | rfl | (unfold zeros; split <;> rfl))
theorem run4A_eq (w : W32) (s : State) : runDecoded (decode4A w) w s = run4A w s := by
  unfold decode4A run4A
  generalize (enFn w).toNat = n
  split
  all_goals first | rfl | (unfold zeros; split <;> rfl) | (split <;> first | contradiction | rfl | (unfold zeros; split <;> rfl))
theorem run50_eq (w : W32) (s : State) : runDecoded (decode50 w) w s = run50 w s := by
  unfold decode50 run50
  generalize (vvFn w).toNat = n
  split
  all_goals first | rfl | (unfold zeros; split <;> rfl) | (split <;> first | contradiction | rfl | (unfold zeros; split <;> rfl))
theorem run51_eq (w : W32) (s : State) : runDecoded (decode51 w) w s = run51 w s := by
  unfold decode51 run51
  generalize (vvFn w).toNat = n
  split
  all_goals first | rfl | (unfold zeros; split <;> rfl) | (split <;> first | contradiction | rfl | (unfold zeros; split <;> rfl))
theorem run52_eq (w : W32) (s : State) : runDecoded (decode52 w) w s = run52 w s := by
  unfold decode52 run52
  generalize (vvFn w).toNat = n
  split
  all_goals first | rfl | (unfold zeros; split <;> rfl) | (split <;> first | contradiction | rfl | (unfold zeros; split <;> rfl))
theorem run53_eq (w : W32) (s : State) : runDecoded (decode53 w) w s = run53 w s := by
  unfold decode53 run53
  generalize (vvFn w).toNat = n
  split
  all_goals first | rfl | (unfold zeros; split <;> rfl) | (split <;> first | contradiction | rfl | (unfold zeros; split <;> rfl))
theorem run54_eq (w : W32) (s : State) : runDecoded (decode54 w) w s = run54 w s := by
  unfold decode54 run54
  generalize (vvFn w).toNat = n
  split
  all_goals first | rfl | (unfold zeros; split <;> rfl) | (split <;> first | contradiction | rfl | (unfold zeros; split <;> rfl))
theorem run55_eq (w : W32) (s : State) : runDecoded (decode55 w) w s = run55 w s := by
  unfold decode55 run55
  generalize (vvFn w).toNat = n
  split
  all_goals first | rfl | (unfold zeros; split <;> rfl) | (split <;> first | contradiction | rfl | (unfold zeros; split <;> rfl))
theorem run56_eq (w : W32) (s : State) : runDecoded (decode56 w) w s = run56 w s := by
  unfold decode56 run56
  generalize (vvFn w).toNat = n
  split
  all_goals first | rfl | (unfold zeros; split <;> rfl) | (split <;> first | contradiction | rfl | (unfold zeros; split <;> rfl))
theorem run57_eq (w : W32) (s : State) : runDecoded (decode57 w) w s = run57 w s := by
  unfold decode57 run57
  generalize (vvFn w).toNat = n
  split
  all_goals first | rfl | (unfold zeros; split <;> rfl) | (split <;> first | contradiction | rfl | (unfold zeros; split <;> rfl))
theorem run58_eq (w : W32) (s : State) : runDecoded (decode58 w) w s = run58 w s := by
  unfold decode58 run58
  generalize (vvFn w).toNat = n
  split
  all_goals first | rfl | (unfold zeros; split <;> rfl) | (split <;> first | contradiction | rfl | (unfold zeros; split <;> rfl))
theorem run59_eq (w : W32) (s : State) : runDecoded (decode59 w) w s = run59 w s := by
  unfold decode59 run59
  generalize (vvFn w).toNat = n
  split
  all_goals first | rfl | (unfold zeros; split <;> rfl) | (split <;> first | contradiction | rfl | (unfold zeros; split <;> rfl))
theorem run5A_eq (w : W32) (s : State) : runDecoded (decode5A w) w s = run5A w s := by
  unfold decode5A run5A
  generalize (vvFn w).toNat = n
  split
  all_goals first | rfl | (unfold zeros; split <;> rfl) | (split <;> first | contradiction | rfl | (unfold zeros; split <;> rfl))
theorem run5B_eq (w : W32) (s : State) : runDecoded (decode5B w) w s = run5B w s := by
  unfold decode5B run5B
  generalize (vvFn w).toNat = n
  split
  all_goals first | rfl | (unfold zeros; split <;> rfl) | (split <;> first | contradiction | rfl | (unfold zeros; split <;> rfl))
theorem run5C_eq (w : W32) (s : State) : runDecoded (decode5C w) w s = run5C w s := by
  unfold decode5C run5C
  generalize (vvFn w).toNat = n
  split
  all_goals first | rfl | (unfold zeros; split <;> rfl) | (split <;> first | contradiction | rfl | (unfold zeros; split <;> rfl))
theorem run5D_eq (w : W32) (s : State) : runDecoded (decode5D w) w s = run5D w s := by
  unfold decode5D run5D
  generalize (vvFn w).toNat = n
  split
  all_goals first | rfl | (unfold zeros; split <;> rfl) | (split <;> first | contradiction | rfl | (unfold zeros; split <;> rfl))
theorem run60_eq (w : W32) (s : State) : runDecoded (decode60 w) w s = run60 w s := by
  unfold decode60 run60
  first | rfl | (unfold zeros; split <;> rfl)
theorem run61_eq (w : W32) (s : State) : runDecoded (decode61 w) w s = run61 w s := by
  unfold decode61 run61
  first | rfl | (unfold zeros; split <;> rfl)
theorem run62_eq (w : W32) (s : State) : runDecoded (decode62 w) w s = run62 w s := by
  unfold decode62 run62
  first | rfl | (unfold zeros; split <;> rfl)
theorem run63_eq (w : W32) (s : State) : runDecoded (decode63 w) w s = run63 w s := by
  unfold decode63 run63
  first | rfl | (unfold zeros; split <;> rfl)
theorem run64_eq (w : W32) (s : State) : runDecoded (decode64 w) w s = run64 w s := by
  unfold decode64 run64
  generalize (enFn w).toNat = n
  split
  all_goals first | rfl | (unfold zeros; split <;> rfl) | (split <;> first | contradiction | rfl | (unfold zeros; split <;> rfl))
theorem run70_eq (w : W32) (s : State) : runDecoded (decode70 w) w s = run70 w s := by
  unfold decode70 run70
  generalize (mxMf w).toNat = n
  split
  all_goals first | rfl | (unfold zeros; split <;> rfl) | (split <;> first | contradiction | rfl | (unfold zeros; split <;> rfl))
theorem run71_eq (w : W32) (s : State) : runDecoded (decode71 w) w s = run71 w s := by
  unfold decode71 run71
  generalize (enFn w).toNat = n
  split
  all_goals first | rfl | (unfold zeros; split <;> rfl) | (split <;> first | contradiction | rfl | (unfold zeros; split <;> rfl))
theorem run72_eq (w : W32) (s : State) : runDecoded (decode72 w) w s = run72 w s := by
  unfold decode72 run72
  generalize (enFn w).toNat = n
  split
  all_goals first | rfl | (unfold zeros; split <;> rfl) | (split <;> first | contradiction | rfl | (unfold zeros; split <;> rfl))
theorem run80_eq (w : W32) (s : State) : runDecoded (decode80 w) w s = run80 w s := by
  unfold decode80 run80
  generalize (enFn w).toNat = n
  split
  all_goals first | rfl | (unfold zeros; split <;> rfl) | (split <;> first | contradiction | rfl | (unfold zeros; split <;> rfl))
theorem run81_eq (w : W32) (s : State) : runDecoded (decode81 w) w s = run81 w s := by
  unfold decode81 run81
  generalize (enFn w).toNat = n
  split
  all_goals first | rfl | (unfold zeros; split <;> rfl) | (split <;> first | contradiction | rfl | (unfold zeros; split <;> rfl))
theorem run82_eq (w : W32) (s : State) : runDecoded (decode82 w) w s = run82 w s := by
  unfold decode82 run82
  generalize (enFn w).toNat = n
  split
  all_goals first | rfl | (unfold zeros; split <;> rfl) | (split <;> first | contradiction | rfl | (unfold zeros; split <;> rfl))
theorem run83_eq (w : W32) (s : State) : runDecoded (decode83 w) w s = run83 w s := by
  unfold decode83 run83
  generalize (enFn w).toNat = n
  split
  all_goals first | rfl | (unfold zeros; split <;> rfl) | (split <;> first | contradiction | rfl | (unfold zeros; split <;> rfl))
theorem run84_eq (w : W32) (s : State) : runDecoded (decode84 w) w s = run84 w s := by
  unfold decode84 run84
  generalize (enFn w).toNat = n
  split
  all_goals first | rfl | (unfold zeros; split <;> rfl) | (split <;> first | contradiction | rfl | (unfold zeros; split <;> rfl))
theorem run90_eq (w : W32) (s : State) : runDecoded (decode90 w) w s = run90 w s := by
  unfold decode90 run90
  generalize (enFn w).toNat = n
  split
  all_goals first | rfl | (unfold zeros; split <;> rfl) | (split <;> first | contradiction | rfl | (unfold zeros; split <;> rfl))
theorem run91_eq (w : W32) (s : State) : runDecoded (decode91 w) w s = run91 w s := by
  unfold decode91 run91
  generalize (enFn w).toNat = n
  split
  all_goals first | rfl | (unfold zeros; split <;> rfl) | (split <;> first | contradiction | rfl | (unfold zeros; split <;> rfl))
theorem run92_eq (w : W32) (s : State) : runDecoded (decode92 w) w s = run92 w s := by
  unfold decode92 run92
  generalize (enFn w).toNat = n
  split
  all_goals first | rfl | (unfold zeros; split <;> rfl) | (split <;> first | contradiction | rfl | (unfold zeros; split <;> rfl))
theorem run93_eq (w : W32) (s : State) : runDecoded (decode93 w) w s = run93 w s := by
  unfold decode93 run93
  generalize (enFn w).toNat = n
  split
  all_goals first | rfl | (unfold zeros; split <;> rfl) | (split <;> first | contradiction | rfl | (unfold zeros; split <;> rfl))
theorem runA0_eq (w : W32) (s : State) : runDecoded (decodeA0 w) w s = runA0 w s := by
  unfold decodeA0 runA0
  generalize (enFn w).toNat = n
  split
  all_goals first | rfl | (unfold zeros; split <;> rfl) | (split <;> first | contradiction | rfl | (unfold zeros; split <;> rfl))
theorem runA1_eq (w : W32) (s : State) : runDecoded (decodeA1 w) w s = runA1 w s := by
  unfold decodeA1 runA1
  generalize (enFn w).toNat = n
  split
  all_goals first | rfl | (unfold zeros; split <;> rfl) | (split <;> first | contradiction | rfl | (unfold zeros; split <;> rfl))
theorem runA2_eq (w : W32) (s : State) : runDecoded (decodeA2 w) w s = runA2 w s := by
  unfold decodeA2 runA2
  generalize (enFn w).toNat = n
  split
  all_goals first | rfl | (unfold zeros; split <;> rfl) | (split <;> first | contradiction | rfl | (unfold zeros; split <;> rfl))
theorem runA3_eq (w : W32) (s : State) : runDecoded (decodeA3 w) w s = runA3 w s := by
  unfold decodeA3 runA3
  generalize (enFn w).toNat = n
  split
  all_goals first | rfl | (unfold zeros; split <;> rfl) | (split <;> first | contradiction | rfl | (unfold zeros; split <;> rfl))
theorem runB0_eq (w : W32) (s : State) : runDecoded (decodeB0 w) w s = runB0 w s := by
  unfold decodeB0 runB0
  generalize (enFn w).toNat = n
  split
  all_goals first | rfl | (unfold zeros; split <;> rfl) | (split <;> first | contradiction | rfl | (unfold zeros; split <;> rfl))
theorem runB1_eq (w : W32) (s : State) : runDecoded (decodeB1 w) w s = runB1 w s := by
  unfold decodeB1 runB1
  generalize (enFn w).toNat = n
  split
  all_goals first | rfl | (unfold zeros; split <;> rfl) | (split <;> first | contradiction | rfl | (unfold zeros; split <;> rfl))
theorem runF0_eq (w : W32) (s : State) : runDecoded (decodeF0 w) w s = runF0 w s := by
  unfold decodeF0 runF0
  first | rfl | (unfold zeros; split <;> rfl)
theorem runF1_eq (w : W32) (s : State) : runDecoded (decodeF1 w) w s = runF1 w s := by
  unfold decodeF1 runF1
  first | rfl | (unfold zeros; split <;> rfl)
theorem runF2_eq (w : W32) (s : State) : runDecoded (decodeF2 w) w s = runF2 w s := by
  unfold decodeF2 runF2
  first | rfl | (unfold zeros; split <;> rfl)
theorem runF3_eq (w : W32) (s : State) : runDecoded (decodeF3 w) w s = runF3 w s := by
  unfold decodeF3 runF3
  first | rfl | (unfold zeros; split <;> rfl)
theorem runF4_eq (w : W32) (s : State) : runDecoded (decodeF4 w) w s = runF4 w s := by
  unfold decodeF4 runF4
  first | rfl | (unfold zeros; split <;> rfl)

theorem runDecoded_error (r : Reject) (w : W32) (s : State) :
    runDecoded (.error r) w s = execReservedEncoding w s := rfl

theorem runHint_eq (w : W32) (s : State) : runDecoded (.ok (.hintUnnamed (opOf w) (hiP w))) w s = runHint w s := rfl

theorem runOp_eq (w : W32) (s : State) : runDecoded (decodeOp w) w s = runOp w s := by
  unfold decodeOp runOp
  generalize (opOf w).toNat = n
  split
  all_goals first | rfl | exact runHint_eq w s | exact run47_eq w s | exact run48_eq w s | exact run49_eq w s | exact run4A_eq w s | exact run50_eq w s | exact run51_eq w s | exact run52_eq w s | exact run53_eq w s | exact run54_eq w s | exact run55_eq w s | exact run56_eq w s | exact run57_eq w s | exact run58_eq w s | exact run59_eq w s | exact run5A_eq w s | exact run5B_eq w s | exact run5C_eq w s | exact run5D_eq w s | exact run60_eq w s | exact run61_eq w s | exact run62_eq w s | exact run63_eq w s | exact run64_eq w s | exact run70_eq w s | exact run71_eq w s | exact run72_eq w s | exact run80_eq w s | exact run81_eq w s | exact run82_eq w s | exact run83_eq w s | exact run84_eq w s | exact run90_eq w s | exact run91_eq w s | exact run92_eq w s | exact run93_eq w s | exact runA0_eq w s | exact runA1_eq w s | exact runA2_eq w s | exact runA3_eq w s | exact runB0_eq w s | exact runB1_eq w s | exact runF0_eq w s | exact runF1_eq w s | exact runF2_eq w s | exact runF3_eq w s | exact runF4_eq w s | (split <;> first | contradiction | rfl)

/-- The two are one function. -/
@[csimp] theorem execWord_eq_runWord : @execWord = @runWord := by
  funext w s
  by_cases h0 : w = 0x00000000#32
  · simp only [execWord, decodeIssue, decode, runWord, if_pos h0]; rfl
  · by_cases h1 : w = 0xFFFFFFFF#32
    · simp only [execWord, decodeIssue, decode, runWord, if_neg h0, if_pos h1]; rfl
    · simp only [execWord, decodeIssue, decode, runWord, if_neg h0, if_neg h1, ← runOp_eq]
      cases decodeOp w with
      | error r => rfl
      | ok i => cases h : wellFormed i <;> simp only [runDecoded, gate, h] <;> rfl

/-! ## A step of the machine -/

/-- A thread takes its turn at a cycle (R177). -/
def State.takeTurn (s : State) (cycle : Nat) (t : Tid) : Outcome State Fault Refusal :=
  match s.threads.find t with
  | none => .refused .notIssuing
  | some th =>
    match s.turnKind cycle t th with
    | .step i => exec i (s.issued cycle t th 0)
    | .word w => execWord w ((s.fetched th).2.issued cycle t th w)
    | .outside => execOutside (s.issued cycle t th 0)
    | .absent => .next ((s.issued cycle t th 0).missImage t th)
    | .damaged => .next ((((s.fetched th).2.dropImage th).issued cycle t th 0).missImage t th)

/-- What was chosen is done. -/
def State.perform (s : State) : Option Choice → Outcome State Fault Refusal
  | none => .fault .idle
  | some (.event c i) => exec i (s.advance c (moves i))
  | some (.turn c t) => s.takeTurn c t

/-- A step of the agenda: from outside, or one that must follow at once (log entry 3). -/
def State.due (s : State) (i : Instr) (r : List Instr) : Outcome State Fault Refusal :=
  exec i { s with agenda := r, pkg := { s.pkg with moved := s.pkg.moved || moves i } }

end Sys2Proof.Machine
end

