-- ==== Sys2Proof/Machine/Step.lean ====
section
/-! DEFINITION. One step of the machine, and the placing of one word where the next step fetches it. -/

namespace Sys2Proof.Machine

/-- One step: the head of the agenda; else, once parked threads have been woken and slots filled, the step chosen among
those that may come (log entry 3). -/
def step (s : State) : Host.Outcome State Fault Refusal :=
  match s.agenda with
  | i :: r => s.due i r
  | [] => s.refresh.perform s.refresh.choose

/-- A thread with a fresh context in slot 0 of core 0 at word 0 of image 0 of ASID 0; its next turn is the first of that
slot from now on (log entry 4). -/
def fetchThread (now : Nat) : Thread := { bslot := some 0, run := .slot now }

/-- Place a word for the next step: thread 0 alone is resident, in slot 0 of core 0, the word stands as image 0 in the
core's instruction store, and nothing else is due, in flight or offered before its turn: no pre-emption and no check-bit error (log entry 4). -/
def State.withFetchWord (s : State) (nbits w : Nat) : State :=
  let s1 := s.modK 0 fun k => { k with images := [⟨0, 0, 1, 0⟩], mode := .running, fpHeld := [] }
  { s1.wr (isKey 0 0) 4 (w % 2 ^ nbits) with
    agenda := [], pool := [], plan := [], threads := [(0, fetchThread s.cycle)], ecc := [], pkg := { s.pkg with pre := .none } }

end Sys2Proof.Machine
end

