-- ==== Sys2Proof/Safety.lean ====
section
/-! DEFINITION. What claims assume of a state and promise of one: when a thread issues alone, when a word's operands are
there, and the canonical form that memory keeps. -/

namespace Sys2Proof.Machine

open Host (Outcome)

/-- Memory and the full/empty bits are in their canonical forms (log entry 1). -/
structure State.Canonical (s : State) : Prop where
  mem : Memory.wf s.mem
  fe : Tab.wf false s.fe = true

/-- A step is safe when it ends in a next state whose memory is canonical. -/
def SafeStep (s : State) : Prop := ∃ t, step s = .next t ∧ t.Canonical

/-- The current thread is `th`; it issues for itself alone and owes no deferred report, so that its word is the next thing it
does (R74 steps 1 and 2, R141, R290). -/
structure State.Alone (s : State) (th : Thread) : Prop where
  here : s.threads.find s.cur = some th
  gang : th.gm = false ∨ th.gang = none
  reports : th.mo.deferred = []

/-- The current thread issues alone, outside deterministic launches (R319). -/
structure State.Plain (s : State) (th : Thread) : Prop extends State.Alone s th where
  det : th.det = false
  chunk : th.chunk.open_ = false

/-- The scalar sources and destinations that a word names are full (R74 steps 6 and 7). -/
structure Thread.Ready (th : Thread) (srcs : List (BitVec 5)) (dsts : List (BitVec 4)) : Prop where
  srcs : ∀ f ∈ srcs, th.full (fieldReg f) = true
  dsts : ∀ d ∈ dsts, th.full d = true

/-- The word writes one scalar register and retires: nothing else of the machine changes (R21, R23). -/
def WritesX (i : Instr) (s : State) (th : Thread) (d : BitVec 4) (v : W64) : Prop :=
  exec i s = .next (s.setThread s.cur (th.retire.setX d v))

/-- The word writes one predicate and retires: nothing else of the machine changes. -/
def WritesP (i : Instr) (s : State) (th : Thread) (d : BitVec 4) (b : Bool) : Prop :=
  exec i s = .next (s.setThread s.cur (th.retire.setP d b))

/-- The word acts on its own thread alone, which becomes `v`; in a deterministic launch the chunk's bookkeeping, and with a
chunk that ends the thread's place, may differ (R138, R319). -/
def Acts (i : Instr) (s : State) (th v : Thread) : Prop :=
  ∃ ch r b, exec i s = .next (s.setThread s.cur { v with chunk := ch, run := r, bslot := b }) ∧
    (th.det = false → th.chunk.open_ = false → ch = v.chunk ∧ r = v.run ∧ b = v.bslot)

/-- The thread takes a trap at this word: nothing of the word has happened (R37, R38). -/
def Traps (i : Instr) (s : State) (th : Thread) (c : Cause) (v : W64) : Prop :=
  exec i s = .next (s.takeTrap s.cur c 0 v th.c.pc)

end Sys2Proof.Machine
end

