-- ==== Sys2Proof/Certificates/Slice0/Obligations.lean ====
section
/-! DEFINITION. The statements for the provers, each with what it is stated in: `Sys2Proof.Claims` holds the spec's own notions in
plain arithmetic, and the parts of statements that have several. A statement about a word says what it writes and that nothing else
changes; one about an event says what the machine is after it. Where a docstring says `Complete here`, the statement concludes for
each instruction that it lists that there is a `t` with `exec i s = .next t` (`Next`, `Becomes`, and what is defined from them), under
premises on the state and the operands alone: no premise speaks of `exec`. -/

namespace Sys2Proof.Claims

open Sys2Proof.Machine

/-- The step answers a next state of which `P` holds. -/
def Next (i : Instr) (s : State) (P : State → Prop) : Prop := ∃ t, exec i s = .next t ∧ P t

/-- The word acts on its own thread alone: the next state differs from `s` in the current thread at most, which is `u`. -/
def Becomes (i : Instr) (s : State) (u : Thread) : Prop := exec i s = .next (s.setThread s.cur u)

end Sys2Proof.Claims

open Sys2Proof Sys2Proof.Machine Sys2Proof.Claims

namespace Sys2Proof.Claims

open Sys2Proof.Machine

/-- Words written out from the fields of the spec's formats (R50-R65, R68), and the instruction that each stands for. -/
noncomputable def writtenWords : List (W32 × Instr) := [
  -- RR: OP 0x10, FN 0, SD 1, SA E:1 s2, SB s3, PG p4, PN 1, W 1
  (0x10#8 ++ 0#4 ++ 1#4 ++ 0b10010#5 ++ 0b00011#5 ++ 4#4 ++ 1#1 ++ 1#1, .aluAdd ⟨1, 0b10010, 3, 4, 1, 1⟩),
  -- RI: OP 0x14 `addi`, SD 10, SA s5, IMM15 -2
  (0x14#8 ++ 10#4 ++ 0b00101#5 ++ 0b111111111111110#15, .addi ⟨10, 5, 0x7FFE⟩),
  -- BR: OP 0x01 `bra`, PG p1, PN 0, OFF19 -2
  (0x01#8 ++ 1#4 ++ 0#1 ++ 0b1111111111111111110#19, .bra ⟨1, 0, 0x7FFFE⟩),
  -- MEM: OP 0x40 `ld`, SD 5, SB s8, SZ 3, RH 1, OFF10 3
  (0x40#8 ++ 5#4 ++ 0b01000#5 ++ 3#3 ++ 1#2 ++ 3#10, .ld ⟨5, 8, 3, 1, 3⟩),
  -- VV: OP 0x50 FN 3 `vf.fma`, VD 4, VA 5, VB 6, VM 1, TY 2
  (0x50#8 ++ 3#4 ++ 4#5 ++ 5#5 ++ 6#5 ++ 1#3 ++ 2#2, .vfFma ⟨4, 5, 6, 1, 2⟩),
  -- VM: OP 0x60 `vld`, V 4, SB s8, SI s1, VM 2, RH 0, EW 1, MD 1
  (0x60#8 ++ 4#5 ++ 0b01000#5 ++ 0b00001#5 ++ 2#3 ++ 0#2 ++ 1#2 ++ 1#2, .vld ⟨4, 8, 1, 2, 0, 1, 1⟩),
  -- MX: OP 0x70, AC 1, ASEL 1, A s0, BSEL 0, B 16, DA 1, DB 0, SK 2, FN 1 `e5m2`
  (0x70#8 ++ 1#3 ++ 1#1 ++ 0#5 ++ 0#1 ++ 16#5 ++ 1#1 ++ 0#1 ++ 2#3 ++ 1#4, .mmaE5m2 ⟨1, 1, 0, 0, 16, 1, 0, 2⟩),
  -- EN: OP 0x92 FN 0 `pcommit`, SA s5, SD 2
  (0x92#8 ++ 0#4 ++ 0b00101#5 ++ 0#5 ++ 2#4 ++ 0#6, .pcommit 5 2),
  -- HI: OP 0xF0 `hint.immx`, P 0xABCDEF
  (0xF0#8 ++ 0xABCDEF#24, .hintImmx 0xABCDEF),
  -- the two illegal words (R70)
  (0x00000000#32, .illegalWordZeros),
  (0xFFFFFFFF#32, .illegalWordOnes)]

end Sys2Proof.Claims

/-- Right after reset no thread exists, nothing is in flight, memory lists nothing and is canonical, the count of cycles
is 0 (R177), every bobbin is zero (R409), a cluster's SYNCLIM is 65,536 (R286), LRVER is 0x6 (R352), PKGID is 0 (R438), the
measurement registers are 0 (R464) and the tray serves (R454). -/
def Obligations.ResetState : Prop :=
  State.reset.threads = [] ∧ State.reset.pool = [] ∧ State.reset.agenda = [] ∧ State.reset.mem = [] ∧
  State.reset.Canonical ∧ State.reset.cycle = 0 ∧
  (∀ b, State.reset.ring.bob.getD b {} = { com := 0, pend := 0, meta_ := 0 }) ∧
  (∀ k, (State.reset.cluster k).synclim = 65536 ∧ (State.reset.cluster k).csb = []) ∧
  (∀ a, State.reset.lrver a = 6) ∧ State.reset.out.pkgid = 0 ∧ (∀ i, State.reset.out.meas.getD i 0 = 0) ∧
  State.reset.out.tray = .serving

/-- The word of every well-formed instruction decodes to that instruction, with every operand at every value its encoding
admits (R46-R73). -/
def Obligations.RoundTrip : Prop :=
  ∀ i w, (∀ v, i ≠ .reservedEncoding v) → encode i = some w → wellFormed i = true → decode w = .ok i

/-- What the decoder reads from a word is a well-formed instruction that has a word of its own, which decodes to it; and
a word that the decoder turns down issues as the reserved encoding that it is (R71, R72). -/
def Obligations.DecodeSound : Prop :=
  ∀ w, match decode w with
    | .ok i => wellFormed i = true ∧ decodeIssue w = i ∧ ∃ v, encode i = some v ∧ decode v = .ok i
    | .error _ => decodeIssue w = .reservedEncoding w

/-- Words written out field by field from the spec's formats decode to the instructions they stand for. -/
def Obligations.WordsDecode : Prop := ∀ e ∈ writtenWords, decode e.1 = .ok e.2

/-- A step runs the decoded instruction: when nothing must come first (log entry 3) and a thread takes its turn, no
pre-emption and no end of the thread pending, the step is that of the instruction which the word at its PC decodes to, in the
state where the thread is current and its slot's next turn lies 16 cycles ahead, for a gang's `vred` or `vperm` 32 (R30, R46, R74,
R177, R235). -/
def Obligations.StepRunsWord : Prop :=
  ∀ (s r : State) (c : Nat) (t : Tid) (th : Thread) (im : Image) (w : W32) (i : Instr),
    s.agenda = [] → s.refresh = r → r.choose = some (.turn c t) → r.threads.find t = some th → r.pkg.pre = .none → r.ecc = [] →
    th.lau.exiting = false → r.imageOf th.core th.c.asid th.c.img = some im → th.c.pc.toNat < im.len →
    r.rd (isKey th.core (4 * (im.base + th.c.pc.toNat))) 4 = w.toNat → decode w = .ok i →
    ∃ u, step s = exec i u ∧ u.cur = t ∧ u.word = w ∧ u.cycle = c ∧ u.mem = r.mem ∧
      u.threads.find t = some { th with run := .slot (c + if th.gm = true ∧ (w.toNat / 2 ^ 24 = 0x5A ∨ w.toNat / 2 ^ 24 = 0x5B) then 32 else 16) } ∧ ∀ k, k ≠ t → u.threads.find k = r.threads.find k

namespace Sys2Proof.Claims

open Sys2Proof.Machine

/-! Integer arithmetic over numbers (R110, R122): `n` the width, `a` and `b` the sources below 2^n, `sa` and `sb` their
signed views. -/

def width (w : BitVec 1) : Nat := if w = 1 then 64 else 32
def uns (n : Nat) (x : W64) : Nat := x.toNat % 2 ^ n
def sgn (n a : Nat) : Int := if a.testBit (n - 1) then (a : Int) - 2 ^ n else a
/-- `sext(r mod 2^n, n)` as a register holds it. -/
def written (n : Nat) (r : Int) : W64 := BitVec.ofInt 64 (sgn n (r % 2 ^ n).toNat)
/-- `asr(x, k)`. -/
def asr (x : Int) (k : Nat) : Int := x / 2 ^ k

/-- The functions of R122 and R123 with two sources: the result before it is reduced modulo 2^n. -/
noncomputable def binary : List ((Rr3 → Instr) × (Nat → Nat → Nat → Int → Int → Int)) := [
  (.aluAdd, fun _ a b _ _ => a + b),
  (.aluSub, fun _ a b _ _ => (a : Int) - b),
  (.aluMul, fun _ a b _ _ => a * b),
  (.aluMulh, fun n _ _ sa sb => asr (sa * sb) n),
  (.aluMulhu, fun n a b _ _ => a * b / 2 ^ n),
  (.aluAnd, fun _ a b _ _ => (a &&& b : Nat)),
  (.aluOr, fun _ a b _ _ => (a ||| b : Nat)),
  (.aluXor, fun _ a b _ _ => (a ^^^ b : Nat)),
  (.aluAndn, fun n a b _ _ => (a &&& (2 ^ n - 1 - b) : Nat)),
  (.aluOrn, fun n a b _ _ => (a ||| (2 ^ n - 1 - b) : Nat)),
  (.aluShl, fun n a b _ _ => a * 2 ^ (b % n)),
  (.aluShr, fun n a b _ _ => a / 2 ^ (b % n)),
  (.aluSra, fun n _ b sa _ => asr sa (b % n)),
  (.aluRot, fun n a b _ _ => (a * 2 ^ (b % n) ||| a / 2 ^ (n - b % n) : Nat)),
  (.aluMin, fun _ a b sa sb => if sa ≤ sb then a else b),
  (.aluMax, fun _ a b sa sb => if sa ≥ sb then a else b),
  (.alxMinu, fun _ a b _ _ => if a ≤ b then a else b),
  (.alxMaxu, fun _ a b _ _ => if a ≥ b then a else b),
  (.alxDiv, fun n _ b sa sb => if b = 0 then 2 ^ n - 1 else sa.tdiv sb),
  (.alxDivu, fun n a b _ _ => if b = 0 then 2 ^ n - 1 else (a / b : Nat)),
  (.alxRem, fun _ a b sa sb => if b = 0 then a else sa - sb * sa.tdiv sb),
  (.alxRemu, fun _ a b _ _ => if b = 0 then a else (a : Int) - b * (a / b : Nat)),
  (.alxLea1, fun _ a b _ _ => a + b * 2 ^ 1),
  (.alxLea2, fun _ a b _ _ => a + b * 2 ^ 2),
  (.alxLea3, fun _ a b _ _ => a + b * 2 ^ 3),
  (.alxLea4, fun _ a b _ _ => a + b * 2 ^ 4)]

/-- The functions of R122 with one source. -/
noncomputable def unary : List ((Rr2 → Instr) × (Nat → Nat → Nat)) := [
  (.alxClz, fun n a => ((List.range n).takeWhile fun i => !a.testBit (n - 1 - i)).length),
  (.alxCtz, fun n a => ((List.range n).takeWhile fun i => !a.testBit i).length),
  (.alxPopc, fun n a => ((List.range n).filter fun i => a.testBit i).length),
  (.alxBrev, fun n a => ((List.range n).map fun i => if a.testBit (n - 1 - i) then 2 ^ i else 0).sum),
  (.alxBswap, fun n a => ((List.range (n / 8)).map fun i => a / 256 ^ (n / 8 - 1 - i) % 256 * 256 ^ i).sum)]

/-- A bit field (R124): its length cut at bit n - 1. -/
def fieldCut (n pos len : Nat) : Nat := if pos < n then min len (n - pos) else 0
/-- The functions of `bits` (R124) on the word, the old destination, the position and the length: `L` the cut length. -/
noncomputable def bitFields : List ((Rr3 → Instr) × (Nat → W64 → W64 → Nat → Nat → Int)) := [
  (.bitsExt, fun n x _ pos l => if l = 0 then 0 else sgn l (uns n x / 2 ^ pos % 2 ^ l)),
  (.bitsExtu, fun n x _ pos l => if l = 0 then 0 else (uns n x / 2 ^ pos % 2 ^ l : Nat)),
  (.bitsIns, fun n x d pos l =>
    if l = 0 then uns n d
    else ((uns n d &&& (2 ^ n - 1 - (2 ^ l - 1) * 2 ^ pos)) ||| x.toNat % 2 ^ l * 2 ^ pos : Nat))]

/-- The moves of R125 from a register. -/
noncomputable def plainMoves : List ((Rr2 → Instr) × (Nat → Int)) := [
  (.movMov, fun a => a),
  (.movZx8, fun a => (a % 2 ^ 8 : Nat)), (.movZx16, fun a => (a % 2 ^ 16 : Nat)), (.movZx32, fun a => (a % 2 ^ 32 : Nat)),
  (.movSx8, fun a => sgn 8 (a % 2 ^ 8)), (.movSx16, fun a => sgn 16 (a % 2 ^ 16)), (.movSx32, fun a => sgn 32 (a % 2 ^ 32))]

/-- The immediate of an RI word (R52) with the hint latch `h`: bit 58 says that IMMX, its bits 23:0, is valid. -/
def immediate (h : W64) (imm : BitVec 15) : Int :=
  if h.getLsbD 58 then sgn 39 (h.toNat % 2 ^ 24 * 2 ^ 15 + imm.toNat) else sgn 15 imm.toNat

/-- The RI functions of R126: the register as a number, and the immediate. -/
noncomputable def immediates : List ((Ri → Instr) × (Nat → Int → Int)) := [
  (.addi, fun a i => a + i),
  (.andi, fun a i => (a &&& (i % 2 ^ 64).toNat : Nat)),
  (.ori, fun a i => (a ||| (i % 2 ^ 64).toNat : Nat)),
  (.xori, fun a i => (a ^^^ (i % 2 ^ 64).toNat : Nat)),
  (.shli, fun a i => a * 2 ^ (i % 64).toNat),
  (.shri, fun a i => a / 2 ^ (i % 64).toNat),
  (.srai, fun a i => asr (sgn 64 a) (i % 64).toNat),
  (.lhi, fun a i => (i % 2 ^ 32) * 2 ^ 32 + a % 2 ^ 32),
  (.muli, fun a i => a * i)]

/-- The conditions of R128. -/
noncomputable def compares : List ((Rr3 → Instr) × (Nat → Nat → Int → Int → Bool)) := [
  (.cmpEq, fun a b _ _ => decide (a = b)), (.cmpNe, fun a b _ _ => decide (a ≠ b)),
  (.cmpLt, fun _ _ sa sb => decide (sa < sb)), (.cmpLtu, fun a b _ _ => decide (a < b)),
  (.cmpLe, fun _ _ sa sb => decide (sa ≤ sb)), (.cmpLeu, fun a b _ _ => decide (a ≤ b)),
  (.cmpGt, fun _ _ sa sb => decide (sa > sb)), (.cmpGtu, fun a b _ _ => decide (a > b)),
  (.cmpGe, fun _ _ sa sb => decide (sa ≥ sb)), (.cmpGeu, fun a b _ _ => decide (a ≥ b)),
  (.cmpTst, fun a b _ _ => decide (a &&& b ≠ 0))]

/-- The compares of R129 with an immediate: the register as a number, the immediate. -/
noncomputable def immediateCompares : List ((Ri → Instr) × (Nat → Int → Bool)) := [
  (.ceqi, fun a i => decide ((a : Int) = i % 2 ^ 64)), (.clti, fun a i => decide (sgn 64 a < i)),
  (.cltui, fun a i => decide ((a : Int) < i % 2 ^ 64))]

/-- The functions of R130. -/
noncomputable def predicates2 : List ((Pr3 → Instr) × (Bool → Bool → Bool)) := [
  (.predAnd, fun a b => a && b), (.predOr, fun a b => a || b), (.predXor, fun a b => a != b), (.predAndn, fun a b => a && !b)]
noncomputable def predicates1 : List ((Pr2 → Instr) × (Bool → Bool)) := [(.predNot, fun a => !a), (.predMov, fun a => a)]

/-- The guard of a word that carries one: RR and BR words (R69). -/
def guardOf : Instr → Option (BitVec 4 × BitVec 1)
  | .bra o | .call o | .jrGo o | .jrLink o | .jrRet o | .aluAdd o | .aluSub o | .aluMul o | .aluMulh o
  | .aluMulhu o | .aluAnd o | .aluOr o | .aluXor o | .aluAndn o | .aluOrn o | .aluShl o | .aluShr o | .aluSra o
  | .aluRot o | .aluMin o | .aluMax o | .alxMinu o | .alxMaxu o | .alxDiv o | .alxDivu o | .alxRem o
  | .alxRemu o | .alxClz o | .alxCtz o | .alxPopc o | .alxBrev o | .alxBswap o | .alxSel o | .alxLea1 o
  | .alxLea2 o | .alxLea3 o | .alxLea4 o | .bitsExt o | .bitsExtu o | .bitsIns o | .movMov o | .movMovp o
  | .movSetp o | .movZx8 o | .movZx16 o | .movZx32 o | .movSx8 o | .movSx16 o | .movSx32 o | .fpuFadd o
  | .fpuFsub o | .fpuFmul o | .fpuFdiv o | .fpuFsqrt o | .fpuFmin o | .fpuFmax o | .fpuFabs o | .fpuFneg o
  | .fpuFsgnj o | .fpuFma o | .fpuFms o | .fpuFnma o | .fpuFclass o | .fcvtI2f o | .fcvtU2f o | .fcvtF2i o
  | .fcvtF2u o | .fcvtF2f o | .fcvtTobf16 o | .fcvtFrombf16 o | .fcvtTofp16 o | .fcvtFromfp16 o | .fcmpFeq o
  | .fcmpFlt o | .fcmpFle o | .fcmpFun o | .cmpEq o | .cmpNe o | .cmpLt o | .cmpLtu o | .cmpLe o | .cmpLeu o
  | .cmpGt o | .cmpGtu o | .cmpGe o | .cmpGeu o | .cmpTst o | .predAnd o | .predOr o | .predXor o | .predAndn o
  | .predNot o | .predMov o => some (o.pg, o.pn)
  | _ => none

/-- The scalar sources, in field order, and the scalar destinations that the words of the scalar chapter name (R49, R76). -/
def operandsOf : Instr → Option (List (BitVec 5) × List (BitVec 4))
  | .aluAdd o | .aluSub o | .aluMul o | .aluMulh o | .aluMulhu o | .aluAnd o | .aluOr o | .aluXor o
  | .aluAndn o | .aluOrn o | .aluShl o | .aluShr o | .aluSra o | .aluRot o | .aluMin o | .aluMax o | .alxMinu o
  | .alxMaxu o | .alxDiv o | .alxDivu o | .alxRem o | .alxRemu o | .alxSel o | .alxLea1 o | .alxLea2 o
  | .alxLea3 o | .alxLea4 o | .bitsExt o | .bitsExtu o | .bitsIns o | .fpuFadd o | .fpuFsub o | .fpuFmul o
  | .fpuFdiv o | .fpuFmin o | .fpuFmax o | .fpuFsgnj o | .fpuFma o | .fpuFms o | .fpuFnma o => some ([o.sa, o.sb], [o.sd])
  | .cmpEq o | .cmpNe o | .cmpLt o | .cmpLtu o | .cmpLe o | .cmpLeu o | .cmpGt o | .cmpGtu o | .cmpGe o
  | .cmpGeu o | .cmpTst o | .fcmpFeq o | .fcmpFlt o | .fcmpFle o | .fcmpFun o => some ([o.sa, o.sb], [])
  | .alxClz o | .alxCtz o | .alxPopc o | .alxBrev o | .alxBswap o | .movMov o | .movZx8 o | .movZx16 o
  | .movZx32 o | .movSx8 o | .movSx16 o | .movSx32 o | .fpuFsqrt o | .fpuFabs o | .fpuFneg o | .fpuFclass o
  | .fcvtI2f o | .fcvtU2f o | .fcvtF2i o | .fcvtF2u o | .fcvtF2f o | .fcvtTobf16 o | .fcvtFrombf16 o
  | .fcvtTofp16 o | .fcvtFromfp16 o => some ([o.sa], [o.sd])
  | .movSetp o => some ([o.sa], [])
  | .movMovp o => some ([], [o.sd])
  | .li o => some ([], [o.sd])
  | .addi o | .andi o | .ori o | .xori o | .shli o | .shri o | .srai o | .lhi o | .muli o => some ([o.sa], [o.sd])
  | .ceqi o | .clti o | .cltui o => some ([o.sa], [])
  | _ => none

/-- The first source that is empty and has E = 1 (R74 step 6). -/
def firstStrict (th : Thread) (l : List (BitVec 5)) : Option (BitVec 4) :=
  (l.find? fun f => f.getLsbD 4 && !th.full (f.extractLsb' 0 4)).map fun f => f.extractLsb' 0 4

end Sys2Proof.Claims

namespace Sys2Proof.Claims

open Sys2Proof.Machine

/-- `alu` and `alx` (R110, R122, R123): with the guard and the operands there, the word writes its function of the sources,
reduced modulo 2^n and sign-extended, and retires; nothing else changes, in a deterministic launch as outside one.
Complete here: `aluAdd`, `aluSub`, `aluMul`, `aluMulh`, `aluMulhu`, `aluAnd`, `aluOr`, `aluXor`, `aluAndn`, `aluOrn`, `aluShl`,
`aluShr`, `aluSra`, `aluRot`, `aluMin`, `aluMax`, `alxMinu`, `alxMaxu`, `alxDiv`, `alxDivu`, `alxRem`, `alxRemu`, `alxClz`,
`alxCtz`, `alxPopc`, `alxBrev`, `alxBswap`, `alxSel`, `alxLea1`, `alxLea2`, `alxLea3`, `alxLea4`. -/
def IntegerFunctions : Prop :=
  (∀ e ∈ binary, ∀ (o : Rr3) (s : State) (th : Thread), s.Alone th → th.guardOk o.pg o.pn = true →
    th.Ready [o.sa, o.sb] [o.sd] →
    let n := width o.w
    let a := uns n (th.src o.sa)
    let b := uns n (th.src o.sb)
    Acts (e.1 o) s th (th.retire.setX o.sd (written n (e.2 n a b (sgn n a) (sgn n b))))) ∧
  (∀ e ∈ unary, ∀ (o : Rr2) (s : State) (th : Thread), s.Alone th → th.guardOk o.pg o.pn = true → th.Ready [o.sa] [o.sd] →
    let n := width o.w
    Acts (e.1 o) s th (th.retire.setX o.sd (written n (e.2 n (uns n (th.src o.sa)))))) ∧
  (∀ (o : Rr3) (s : State) (th : Thread), s.Alone th → th.guardOk o.pg o.pn = true → th.Ready [o.sa, o.sb] [o.sd] →
    let n := width o.w
    let d := uns n (th.x o.sd)
    Acts (.alxSel o) s th (th.retire.setX o.sd
      (written n ((uns n (th.src o.sa) &&& d) ||| (uns n (th.src o.sb) &&& (2 ^ n - 1 - d)) : Nat))))

end Sys2Proof.Claims

namespace Sys2Proof.Claims

open Sys2Proof.Machine

/-- `bits` (R124): extraction with and without sign and insertion, the field cut at bit n - 1.
Complete here: `bitsExt`, `bitsExtu`, `bitsIns`. -/
def BitFields : Prop :=
  ∀ e ∈ bitFields, ∀ (o : Rr3) (s : State) (th : Thread), s.Alone th → th.guardOk o.pg o.pn = true →
    th.Ready [o.sa, o.sb] [o.sd] →
    let n := width o.w
    let pos := (th.src o.sb).toNat % 64
    let len := (th.src o.sb).toNat / 256 % 128
    Acts (e.1 o) s th (th.retire.setX o.sd (written n (e.2 n (th.src o.sa) (th.x o.sd) pos (fieldCut n pos len))))

end Sys2Proof.Claims

/-- Alu, alx and bits write their functions of the sources: `IntegerFunctions`, `BitFields` above. -/
def Obligations.IntegerAndBitFieldFunctions : Prop := Sys2Proof.Claims.IntegerFunctions ∧ Sys2Proof.Claims.BitFields

namespace Sys2Proof.Claims

open Sys2Proof.Machine

/-- `mov` (R125): whole words, extended parts, and the predicate word as one.
Complete here: `movMov`, `movMovp`, `movSetp`, `movZx8`, `movZx16`, `movZx32`, `movSx8`, `movSx16`, `movSx32`. -/
def Moves : Prop :=
  (∀ e ∈ plainMoves, ∀ (o : Rr2) (s : State) (th : Thread), s.Alone th → th.guardOk o.pg o.pn = true → th.Ready [o.sa] [o.sd] →
    Acts (e.1 o) s th (th.retire.setX o.sd (BitVec.ofInt 64 (e.2 (th.src o.sa).toNat)))) ∧
  (∀ (o : RrD) (s : State) (th : Thread), s.Alone th → th.guardOk o.pg o.pn = true → th.Ready [] [o.sd] →
    ∃ v : W64, Acts (.movMovp o) s th (th.retire.setX o.sd v) ∧ v.toNat < 2 ^ 16 ∧
      ∀ k : BitVec 4, v.getLsbD k.toNat = th.p k) ∧
  (∀ (o : RrA) (s : State) (th : Thread), s.Alone th → th.guardOk o.pg o.pn = true → th.Ready [o.sa] [] →
    ∃ q : W16, Acts (.movSetp o) s th (th.retire.modC fun c => { c with pred := q }) ∧
      ∀ k : BitVec 4, k ≠ 0 → q.getLsbD k.toNat = (th.src o.sa).getLsbD k.toNat)

end Sys2Proof.Claims

/-- The RI words (R126) apply the immediate of R52, extended by a valid IMMX of the hint latch, to 64 bits and consume the
latch; `li` reads no source.
Complete here: `addi`, `andi`, `ori`, `xori`, `shli`, `shri`, `srai`, `li`, `lhi`, `muli`. -/
def Obligations.ImmediateFunctions : Prop :=
  (∀ e ∈ immediates, ∀ (o : Ri) (s : State) (th : Thread), s.Alone th → th.Ready [o.sa] [o.sd] →
    Acts (e.1 o) s th (th.retire.setX o.sd (written 64 (e.2 (th.src o.sa).toNat (immediate th.c.hint o.imm))))) ∧
  (∀ (o : RiD) (s : State) (th : Thread), s.Alone th → th.Ready [] [o.sd] →
    Acts (.li o) s th (th.retire.setX o.sd (written 64 (immediate th.c.hint o.imm))))

namespace Sys2Proof.Claims

open Sys2Proof.Machine

/-- Compares and predicate functions (R128, R129, R130) write their predicate and retire; a write to `p0` is ignored.
Complete here: `cmpEq`, `cmpNe`, `cmpLt`, `cmpLtu`, `cmpLe`, `cmpLeu`, `cmpGt`, `cmpGtu`, `cmpGe`, `cmpGeu`, `cmpTst`, `ceqi`,
`clti`, `cltui`, `predAnd`, `predOr`, `predXor`, `predAndn`, `predNot`, `predMov`. -/
def Predicates : Prop :=
  (∀ e ∈ compares, ∀ (o : Rr3) (s : State) (th : Thread), s.Alone th → th.guardOk o.pg o.pn = true →
    th.Ready [o.sa, o.sb] [] →
    let n := width o.w
    let a := uns n (th.src o.sa)
    let b := uns n (th.src o.sb)
    Acts (e.1 o) s th (th.retire.setP o.sd (e.2 a b (sgn n a) (sgn n b)))) ∧
  (∀ e ∈ immediateCompares, ∀ (o : Ri) (s : State) (th : Thread), s.Alone th → th.Ready [o.sa] [] →
    Acts (e.1 o) s th (th.retire.setP o.sd (e.2 (th.src o.sa).toNat (immediate th.c.hint o.imm)))) ∧
  (∀ e ∈ predicates2, ∀ (o : Pr3) (s : State) (th : Thread), s.Alone th → th.guardOk o.pg o.pn = true →
    Acts (e.1 o) s th (th.retire.setP o.pd (e.2 (th.p o.pa) (th.p o.pb)))) ∧
  (∀ e ∈ predicates1, ∀ (o : Pr2) (s : State) (th : Thread), s.Alone th → th.guardOk o.pg o.pn = true →
    Acts (e.1 o) s th (th.retire.setP o.pd (e.2 (th.p o.pa))))

end Sys2Proof.Claims

/-- Mov, the compares and the predicate functions write their results: `Moves`, `Predicates` above. -/
def Obligations.MovesAndPredicates : Prop := Sys2Proof.Claims.Moves ∧ Sys2Proof.Claims.Predicates

/-- A word whose guard does not hold takes its turn and consumes the latch: it reads no source, waits for no register, writes
nothing and traps on nothing; p0 with PN = 0 always holds, with PN = 1 never; RR and BR words alone carry a guard (R69). -/
def Obligations.GuardedOff : Prop :=
  (∀ (i : Instr) (pg : BitVec 4) (pn : BitVec 1) (s : State) (th : Thread), guardOf i = some (pg, pn) → s.Alone th →
    (th.p pg ^^ pn == 1) = false → Acts i s th th.retire) ∧
  (∀ th : Thread, th.guardOk 0 0 = true ∧ th.guardOk 0 1 = false) ∧
  -- the words that carry a guard are those of formats RR and BR
  (∀ (i : Instr) (w : W32), decode w = .ok i →
    ((guardOf i).isSome = true ↔ w.toNat / 2 ^ 24 ∈ [0x01, 0x02, 0x03, 0x10, 0x11, 0x12, 0x13, 0x20, 0x21, 0x22, 0x30, 0x34]))

/-- A word of the scalar chapter whose guard holds and that names an empty register has no effect (R20, R74 steps 6 and 7):
the first empty source with E = 1 traps with cause 0x05 and its number; without one the thread parks at the word, its hint
latch kept, until the register is full. -/
def Obligations.EmptyOperands : Prop :=
  ∀ (i : Instr) (l : List (BitVec 5)) (ds : List (BitVec 4)) (s : State) (th : Thread), operandsOf i = some (l, ds) →
    s.Plain th → (∀ pg pn, guardOf i = some (pg, pn) → (th.p pg ^^ pn == 1) = true) →
    (∀ n, firstStrict th l = some n → Traps i s th .emptyReg (n.zeroExtend 64)) ∧
    (firstStrict th l = none → ∀ n, ((l.map fun f => f.extractLsb' 0 4) ++ ds).find? (fun k => !th.full k) = some n →
      exec i s = .next (s.setThread s.cur (th.park (.reg n))))

namespace Sys2Proof.Claims

open Sys2Proof.Machine

/-! Floating point over the reals (R131, R206, R212, R213): `eb` exponent and `mb` fraction bits. -/

def emax (eb : Nat) : Nat := 2 ^ eb - 1
def biasOf (eb : Nat) : Int := 2 ^ (eb - 1) - 1
def signAt (eb mb b : Nat) : Bool := b.testBit (eb + mb)
def isNaN (eb mb b : Nat) : Prop := b / 2 ^ mb % 2 ^ eb = emax eb ∧ b % 2 ^ mb ≠ 0
def isSignalling (eb mb b : Nat) : Prop := isNaN eb mb b ∧ b.testBit (mb - 1) = false
def isInf (eb mb b : Nat) : Prop := b / 2 ^ mb % 2 ^ eb = emax eb ∧ b % 2 ^ mb = 0
def isFinite (eb mb b : Nat) : Prop := b / 2 ^ mb % 2 ^ eb ≠ emax eb
def isZero (eb mb b : Nat) : Prop := b % 2 ^ (eb + mb) = 0
/-- The value of a finite encoding. -/
noncomputable def value (eb mb b : Nat) : ℝ :=
  (if signAt eb mb b then -1 else 1) *
    (if b / 2 ^ mb % 2 ^ eb = 0 then (b % 2 ^ mb : ℕ) * (2 : ℝ) ^ (1 - biasOf eb - mb)
     else (2 ^ mb + b % 2 ^ mb : ℕ) * (2 : ℝ) ^ (((b / 2 ^ mb % 2 ^ eb : ℕ) : Int) - biasOf eb - mb))
/-- The largest finite value's encoding, without sign; infinity's; the canonical NaN (R131). -/
def largest (eb mb : Nat) : Nat := emax eb * 2 ^ mb - 1
def infinity (eb mb : Nat) : Nat := emax eb * 2 ^ mb
def canonicalNaN (eb mb : Nat) : Nat := emax eb * 2 ^ mb + 2 ^ (mb - 1)
def withSign (eb mb : Nat) (neg : Bool) (b : Nat) : Nat := if neg then b + 2 ^ (eb + mb) else b

/-- The flags of R18, from bit 0. -/
def NV : Nat := 0
def DZ : Nat := 1
def OF : Nat := 2
def UF : Nat := 3
def NX : Nat := 4

/-- `r` is the integer to which `round()` takes `x` (R212). -/
structure RoundedInt (rm : Nat) (x : ℝ) (r : Int) : Prop where
  near : |(r : ℝ) - x| < 1
  towardZero : rm = 1 → |(r : ℝ)| ≤ |x|
  up : rm = 2 → x ≤ r
  down : rm = 3 → (r : ℝ) ≤ x
  nearest : rm ≠ 1 → rm ≠ 2 → rm ≠ 3 → |(r : ℝ) - x| ≤ 1 / 2
  tie : rm ≠ 1 → rm ≠ 2 → rm ≠ 3 → |(r : ℝ) - x| = 1 / 2 → if rm = 4 then |x| ≤ |(r : ℝ)| else r % 2 = 0

/-- `r` is the integer that a draw `d` takes `x` to (R225): away from zero when `d` is below the discarded part. -/
def DrawnInt (d x : ℝ) (r : Int) : Prop :=
  ((r.natAbs : ℕ) : Int) = ⌊|x|⌋ + (if d < |x| - ⌊|x|⌋ then 1 else 0) ∧ (r ≠ 0 → (r < 0 ↔ x < 0))

/-- The overflowed result (R213): `big` is the encoding of the largest finite magnitude, `inf` that of infinity where the format
has one. -/
def overflowed (eb mb big : Nat) (inf : Option Nat) (rm : Nat) (neg : Bool) : Nat :=
  withSign eb mb neg (if rm = 1 ∨ (rm = 2 ∧ neg = true) ∨ (rm = 3 ∧ neg = false) then big else inf.getD big)

/-- `v` is the finite encoding of `n` units of 2^q, with the sign of `x` (R206). -/
def Encodes (eb mb big : Nat) (x : ℝ) (n q : Int) (v : Nat) : Prop :=
  v < 2 ^ (1 + eb + mb) ∧ v % 2 ^ (eb + mb) ≤ big ∧ (signAt eb mb v = true ↔ x < 0) ∧ value eb mb v = n * (2 : ℝ) ^ q

/-- `v`, with the flags `fl`, is the exact value `x` rounded once (R131, R212, R213). An exact zero has the sign `zs` and raises
nothing. Else let 2^E ≤ |x| < 2^(E+1). `k` is `x` rounded in the format's last place there, with an unbounded exponent, and `n` is
`x` rounded in its last place in the format, which is no finer than the subnormals'. Where `k` exceeds the largest finite value the
result is the overflowed one, with OF and NX; else it encodes `n`, raises NX when it differs from `x`, and UF too when `k` is
below the smallest normal number. -/
structure Rounds (eb mb big : Nat) (inf : Option Nat) (rm : Nat) (zs : Bool) (x : ℝ) (v : Nat) (fl : BitVec 6) : Prop where
  zero : x = 0 → v = withSign eb mb zs 0 ∧ fl = 0
  nonzero : x ≠ 0 → ∃ E k n : Int, (2 : ℝ) ^ E ≤ |x| ∧ |x| < (2 : ℝ) ^ (E + 1) ∧
    RoundedInt rm (x / (2 : ℝ) ^ (E - mb)) k ∧ RoundedInt rm (x / (2 : ℝ) ^ max (E - mb) (1 - biasOf eb - mb)) n ∧
    (value eb mb big < |(k : ℝ) * (2 : ℝ) ^ (E - mb)| → v = overflowed eb mb big inf rm (decide (x < 0)) ∧ fl = 20) ∧
    (|(k : ℝ) * (2 : ℝ) ^ (E - mb)| ≤ value eb mb big → Encodes eb mb big x n (max (E - mb) (1 - biasOf eb - mb)) v ∧
      (value eb mb v = x → fl = 0) ∧
      (value eb mb v ≠ x → fl = if |(k : ℝ) * (2 : ℝ) ^ (E - mb)| < (2 : ℝ) ^ (1 - biasOf eb) then 24 else 16))

/-- The same in a format with infinities (R131). -/
def Rounded (eb mb rm : Nat) (zs : Bool) (x : ℝ) (v : Nat) (fl : BitVec 6) : Prop :=
  Rounds eb mb (largest eb mb) (some (infinity eb mb)) rm zs x v fl

/-- `v`, with the flags `fl`, is `x` rounded by the draw `d` (R225): above the largest finite value it is rounded to nearest even, with
OF and NX (log entry 28); else to the neighbour that the draw picks. -/
structure DrawnRound (eb mb big : Nat) (inf : Option Nat) (d : ℝ) (zs : Bool) (x : ℝ) (v : Nat) (fl : BitVec 6) : Prop where
  zero : x = 0 → v = withSign eb mb zs 0 ∧ fl = 0
  above : value eb mb big < |x| → fl = 20 ∧ ∃ g, Rounds eb mb big inf 0 zs x v g
  within : x ≠ 0 → |x| ≤ value eb mb big → ∃ E k n : Int, (2 : ℝ) ^ E ≤ |x| ∧ |x| < (2 : ℝ) ^ (E + 1) ∧
    DrawnInt d (x / (2 : ℝ) ^ (E - mb)) k ∧ DrawnInt d (x / (2 : ℝ) ^ max (E - mb) (1 - biasOf eb - mb)) n ∧
    Encodes eb mb big x n (max (E - mb) (1 - biasOf eb - mb)) v ∧ (value eb mb v = x → fl = 0) ∧
    (value eb mb v ≠ x → fl = if |(k : ℝ) * (2 : ℝ) ^ (E - mb)| < (2 : ℝ) ^ (1 - biasOf eb) then 24 else 16)

/-- The draw of element `e` of a conversion (R223, R225): its key is the launch seed with the latch's SRK, its step the ordinal above
the element's count. -/
noncomputable def drawOf (th : Thread) (e : Nat) : ℝ :=
  (drawU (th.lau.seed ^^^ th.srk.zeroExtend 64) (th.c.ord ++ (th.c.cvc + BitVec.ofNat 32 e)) : ℕ) / 2 ^ 24

/-- The exponent and fraction widths that `W` selects (R131). -/
def ebOf (w : BitVec 1) : Nat := if w = 1 then 11 else 8
def mbOf (w : BitVec 1) : Nat := if w = 1 then 52 else 23
/-- A register's operand in the format that `W` selects: FP32 ignores bits 63:32. -/
def operand (w : BitVec 1) (x : W64) : Nat := x.toNat % 2 ^ (1 + ebOf w + mbOf w)

/-- The word ends with the result `v` and the flags `fl` (R131, R18, R286): the flags are ORed into STATUS and into the
cluster's FLAGACC; with none of them enabled in FT the result is written and the word retires; else nothing is written and
the thread is held for its report at this word (R228). -/
def Floats (i : Instr) (s : State) (th : Thread) (v : Nat) (fl : BitVec 6) (write : Thread → Nat → Thread) : Prop :=
  (fl.extractLsb' 0 5 &&& th.ft = 0 → exec i s = .next (s.raise s.cur (write th.retire v) fl)) ∧
  (fl.extractLsb' 0 5 &&& th.ft ≠ 0 → ∃ t u h, exec i s = .next t ∧ t.threads.find s.cur = some u ∧
    u.c = (th.orFlags fl).c ∧ h ∈ (t.core th.core).k.fpHeld ∧ h.tid = s.cur ∧ h.window = s.cycle / 16 ∧
    h.detail = (fl.extractLsb' 0 5).zeroExtend 8 ∧ t.mem = s.mem ∧ ∀ k, k ≠ s.cur → t.threads.find k = s.threads.find k)

/-- The `fpu` functions with two sources and a rational result (R132): the exact result of the operands and the old
destination, and the sign of an exact zero from the mode RDN and the operands' signs. -/
noncomputable def arithmetic : List ((Rr3 → Instr) × (ℝ → ℝ → ℝ → ℝ) × (Bool → Bool → Bool → Bool → Bool)) := [
  (.fpuFadd, fun x y _ => x + y, fun d sx sy _ => if sx = sy then sx else d),
  (.fpuFsub, fun x y _ => x - y, fun d sx sy _ => if sx = !sy then sx else d),
  (.fpuFmul, fun x y _ => x * y, fun _ sx sy _ => sx ^^ sy),
  (.fpuFma, fun x y z => x * y + z, fun d sx sy sz => if (sx ^^ sy) = sz then sz else d),
  (.fpuFms, fun x y z => x * y - z, fun d sx sy sz => if (sx ^^ sy) = !sz then !sz else d),
  (.fpuFnma, fun x y z => z - x * y, fun d sx sy sz => if !(sx ^^ sy) = sz then sz else d)]

/-- Some operand is a NaN, or a signalling one: the old destination counts for the fused functions. -/
def anyOf (p : Nat → Prop) (fused : Bool) (x y z : Nat) : Prop := p x ∨ p y ∨ (fused = true ∧ p z)

end Sys2Proof.Claims

/-- `fpu` on finite operands rounds the exact result once (R131, R132, R212, R213): fadd, fsub, fmul, the fused functions
with the product exact, fdiv by a divisor that is not 0, and fsqrt of an operand that is not negative.
Complete here: `fpuFadd`, `fpuFsub`, `fpuFmul`, `fpuFdiv`, `fpuFsqrt`, `fpuFma`, `fpuFms`, `fpuFnma`. -/
def Obligations.FloatsRoundOnce : Prop :=
  (∀ e ∈ arithmetic, ∀ (o : Rr3) (s : State) (th : Thread), s.Plain th → th.guardOk o.pg o.pn = true →
    th.Ready [o.sa, o.sb] [o.sd] →
    let eb := ebOf o.w
    let mb := mbOf o.w
    let x := operand o.w (th.src o.sa)
    let y := operand o.w (th.src o.sb)
    let z := operand o.w (th.x o.sd)
    isFinite eb mb x → isFinite eb mb y → isFinite eb mb z →
    ∃ v fl, Floats (e.1 o) s th v fl (fun u r => u.setX o.sd (BitVec.ofNat 64 r)) ∧
      Rounded eb mb th.rm.toNat (e.2.2 (th.rm == 3) (signAt eb mb x) (signAt eb mb y) (signAt eb mb z))
        (e.2.1 (value eb mb x) (value eb mb y) (value eb mb z)) v fl) ∧
  (∀ (o : Rr3) (s : State) (th : Thread), s.Plain th → th.guardOk o.pg o.pn = true → th.Ready [o.sa, o.sb] [o.sd] →
    let eb := ebOf o.w
    let mb := mbOf o.w
    let x := operand o.w (th.src o.sa)
    let y := operand o.w (th.src o.sb)
    isFinite eb mb x → isFinite eb mb y → ¬ isZero eb mb y →
    ∃ v fl, Floats (.fpuFdiv o) s th v fl (fun u r => u.setX o.sd (BitVec.ofNat 64 r)) ∧
      Rounded eb mb th.rm.toNat (signAt eb mb x ^^ signAt eb mb y) (value eb mb x / value eb mb y) v fl) ∧
  (∀ (o : Rr2) (s : State) (th : Thread), s.Plain th → th.guardOk o.pg o.pn = true → th.Ready [o.sa] [o.sd] →
    let eb := ebOf o.w
    let mb := mbOf o.w
    let x := operand o.w (th.src o.sa)
    isFinite eb mb x → (signAt eb mb x = false ∨ isZero eb mb x) →
    ∃ v fl, Floats (.fpuFsqrt o) s th v fl (fun u r => u.setX o.sd (BitVec.ofNat 64 r)) ∧
      Rounded eb mb th.rm.toNat (signAt eb mb x) (Real.sqrt (value eb mb x)) v fl)

namespace Sys2Proof.Claims

open Sys2Proof.Machine

/-- `fpu` on NaNs, infinities and zeros (R131, R132): every NaN result is the canonical one; NV for a signalling NaN, for
∞ - ∞, 0 × ∞ (even when the addend is a NaN), 0/0, ∞/∞ and the root of a negative number; DZ for a finite nonzero number over 0;
an infinite result has its sign.
Complete here: `fpuFadd`, `fpuFsub`, `fpuFmul`, `fpuFdiv`, `fpuFsqrt`, `fpuFma`, `fpuFms`, `fpuFnma`. -/
def FloatSpecials : Prop :=
  ∀ (s : State) (th : Thread), s.Plain th →
  (∀ (o : Rr3), th.guardOk o.pg o.pn = true → th.Ready [o.sa, o.sb] [o.sd] →
    let eb := ebOf o.w
    let mb := mbOf o.w
    let x := operand o.w (th.src o.sa)
    let y := operand o.w (th.src o.sb)
    let z := operand o.w (th.x o.sd)
    let sx := signAt eb mb x
    let sy := signAt eb mb y
    let sz := signAt eb mb z
    let res : Instr → Nat → BitVec 6 → Prop := fun i v fl => Floats i s th v fl (fun u r => u.setX o.sd (BitVec.ofNat 64 r))
    let nan := canonicalNaN eb mb
    let nv := (1 : BitVec 6)
    -- a NaN operand
    (∀ i ∈ [Instr.fpuFadd o, .fpuFsub o, .fpuFmul o, .fpuFdiv o], (isNaN eb mb x ∨ isNaN eb mb y) →
      (isSignalling eb mb x ∨ isSignalling eb mb y → res i nan nv) ∧
      (¬ (isSignalling eb mb x ∨ isSignalling eb mb y) → res i nan 0)) ∧
    (∀ i ∈ [Instr.fpuFma o, .fpuFms o, .fpuFnma o], (isNaN eb mb x ∨ isNaN eb mb y ∨ isNaN eb mb z) →
      let bad := (isInf eb mb x ∧ isZero eb mb y) ∨ (isZero eb mb x ∧ isInf eb mb y)
      let sig := isSignalling eb mb x ∨ isSignalling eb mb y ∨ isSignalling eb mb z
      (bad ∨ sig → res i nan nv) ∧ (¬ (bad ∨ sig) → res i nan 0)) ∧
    -- infinities
    (isInf eb mb x → isInf eb mb y →
      (if sx = sy then res (.fpuFadd o) x 0 else res (.fpuFadd o) nan nv) ∧
      (if sx = sy then res (.fpuFsub o) nan nv else res (.fpuFsub o) x 0) ∧ res (.fpuFdiv o) nan nv) ∧
    (isInf eb mb x → isFinite eb mb y → res (.fpuFadd o) x 0 ∧ res (.fpuFsub o) x 0 ∧
      res (.fpuFdiv o) (withSign eb mb (sx ^^ sy) (infinity eb mb)) 0) ∧
    (isFinite eb mb x → isInf eb mb y → res (.fpuFadd o) y 0 ∧
      res (.fpuFsub o) (withSign eb mb (!sy) (infinity eb mb)) 0 ∧ res (.fpuFdiv o) (withSign eb mb (sx ^^ sy) 0) 0) ∧
    ((isInf eb mb x ∧ isZero eb mb y) ∨ (isZero eb mb x ∧ isInf eb mb y) → res (.fpuFmul o) nan nv ∧
      res (.fpuFma o) nan nv ∧ res (.fpuFms o) nan nv ∧ res (.fpuFnma o) nan nv) ∧
    ((isInf eb mb x ∧ ¬ isNaN eb mb y ∧ ¬ isZero eb mb y) ∨ (¬ isNaN eb mb x ∧ ¬ isZero eb mb x ∧ isInf eb mb y) →
      res (.fpuFmul o) (withSign eb mb (sx ^^ sy) (infinity eb mb)) 0 ∧
      (isFinite eb mb z → res (.fpuFma o) (withSign eb mb (sx ^^ sy) (infinity eb mb)) 0 ∧
        res (.fpuFms o) (withSign eb mb (sx ^^ sy) (infinity eb mb)) 0 ∧
        res (.fpuFnma o) (withSign eb mb (!(sx ^^ sy)) (infinity eb mb)) 0) ∧
      (isInf eb mb z →
        (if (sx ^^ sy) = sz then res (.fpuFma o) z 0 else res (.fpuFma o) nan nv) ∧
        (if (sx ^^ sy) = sz then res (.fpuFms o) nan nv else res (.fpuFms o) (withSign eb mb (!sz) (infinity eb mb)) 0) ∧
        (if (sx ^^ sy) = sz then res (.fpuFnma o) nan nv else res (.fpuFnma o) z 0))) ∧
    (isFinite eb mb x → isFinite eb mb y → isInf eb mb z → res (.fpuFma o) z 0 ∧
      res (.fpuFms o) (withSign eb mb (!sz) (infinity eb mb)) 0 ∧ res (.fpuFnma o) z 0) ∧
    -- division by zero
    (isZero eb mb y → (isZero eb mb x → res (.fpuFdiv o) nan nv) ∧
      (isFinite eb mb x → ¬ isZero eb mb x → res (.fpuFdiv o) (withSign eb mb (sx ^^ sy) (infinity eb mb)) 2))) ∧
  (∀ (o : Rr2), th.guardOk o.pg o.pn = true → th.Ready [o.sa] [o.sd] →
    let eb := ebOf o.w
    let mb := mbOf o.w
    let x := operand o.w (th.src o.sa)
    let res : Nat → BitVec 6 → Prop := fun v fl => Floats (.fpuFsqrt o) s th v fl (fun u r => u.setX o.sd (BitVec.ofNat 64 r))
    (isNaN eb mb x → (isSignalling eb mb x → res (canonicalNaN eb mb) 1) ∧
      (¬ isSignalling eb mb x → res (canonicalNaN eb mb) 0)) ∧
    (¬ isNaN eb mb x → signAt eb mb x = true → ¬ isZero eb mb x → res (canonicalNaN eb mb) 1) ∧
    (isInf eb mb x → signAt eb mb x = false → res (infinity eb mb) 0))

end Sys2Proof.Claims

/-- fabs, fneg and fsgnj are bit operations (R132); fmin and fmax order -0 below +0, prefer a number to a NaN and raise NV for
a signalling NaN (R133); fclass writes the class mask (R134).
Complete here: `fpuFmin`, `fpuFmax`, `fpuFabs`, `fpuFneg`, `fpuFsgnj`, `fpuFclass`. -/
def Obligations.FloatSigns : Prop :=
  ∀ (s : State) (th : Thread),
  (s.Alone th → ∀ (o : Rr2), th.guardOk o.pg o.pn = true → th.Ready [o.sa] [o.sd] →
    let eb := ebOf o.w
    let mb := mbOf o.w
    let x := operand o.w (th.src o.sa)
    let neg := signAt eb mb x
    let mag := x % 2 ^ (eb + mb)
    Acts (.fpuFabs o) s th (th.retire.setX o.sd (BitVec.ofNat 64 mag)) ∧
    Acts (.fpuFneg o) s th (th.retire.setX o.sd (BitVec.ofNat 64 (withSign eb mb (!neg) mag))) ∧
    ∃ k, Acts (.fpuFclass o) s th (th.retire.setX o.sd (BitVec.ofNat 64 (2 ^ k))) ∧
      (isInf eb mb x → k = if neg then 0 else 7) ∧
      (isNaN eb mb x → (isSignalling eb mb x → k = 8) ∧ (¬ isSignalling eb mb x → k = 9)) ∧
      (isFinite eb mb x → k =
        if mag = 0 then (if neg then 3 else 4)
        else if mag < 2 ^ mb then (if neg then 2 else 5) else (if neg then 1 else 6))) ∧
  (s.Alone th → ∀ (o : Rr3), th.guardOk o.pg o.pn = true → th.Ready [o.sa, o.sb] [o.sd] →
    let eb := ebOf o.w
    let mb := mbOf o.w
    Acts (.fpuFsgnj o) s th (th.retire.setX o.sd (BitVec.ofNat 64
      (withSign eb mb (signAt eb mb (operand o.w (th.src o.sb))) (operand o.w (th.src o.sa) % 2 ^ (eb + mb)))))) ∧
  (s.Plain th → ∀ (o : Rr3), th.guardOk o.pg o.pn = true → th.Ready [o.sa, o.sb] [o.sd] →
    let eb := ebOf o.w
    let mb := mbOf o.w
    let x := operand o.w (th.src o.sa)
    let y := operand o.w (th.src o.sb)
    ∃ lo hi fl, Floats (.fpuFmin o) s th lo fl (fun u r => u.setX o.sd (BitVec.ofNat 64 r)) ∧
      Floats (.fpuFmax o) s th hi fl (fun u r => u.setX o.sd (BitVec.ofNat 64 r)) ∧
      (isSignalling eb mb x ∨ isSignalling eb mb y → fl = 1) ∧
      (¬ (isSignalling eb mb x ∨ isSignalling eb mb y) → fl = 0) ∧
      (isNaN eb mb x → isNaN eb mb y → lo = canonicalNaN eb mb ∧ hi = canonicalNaN eb mb) ∧
      (isNaN eb mb x → ¬ isNaN eb mb y → lo = y ∧ hi = y) ∧
      (¬ isNaN eb mb x → isNaN eb mb y → lo = x ∧ hi = x) ∧
      (¬ isNaN eb mb x → ¬ isNaN eb mb y →
        -- the order of the encodings: negative ones below, the larger magnitude the lower
        let key : Nat → Int := fun b =>
          if signAt eb mb b then -((b % 2 ^ (eb + mb) : ℕ) : Int) - 1 else ((b % 2 ^ (eb + mb) : ℕ) : Int)
        (if key x ≤ key y then lo = x ∧ hi = y else lo = y ∧ hi = x)))

namespace Sys2Proof.Claims

open Sys2Proof.Machine

/-- `fcmp` (R137): -0 equals +0; a comparison with a NaN is false but for fun; NV for a signalling NaN, and in flt and fle for any
NaN.
Complete here: `fcmpFeq`, `fcmpFlt`, `fcmpFle`, `fcmpFun`. -/
def FloatCompares : Prop :=
  ∀ (o : Rr3) (s : State) (th : Thread), s.Plain th → th.guardOk o.pg o.pn = true → th.Ready [o.sa, o.sb] [] →
    let eb := ebOf o.w
    let mb := mbOf o.w
    let x := operand o.w (th.src o.sa)
    let y := operand o.w (th.src o.sb)
    let nan := isNaN eb mb x ∨ isNaN eb mb y
    let sig := isSignalling eb mb x ∨ isSignalling eb mb y
    let res : Instr → Bool → BitVec 6 → Prop := fun i c fl => Floats i s th (if c then 1 else 0) fl (fun u r => u.setP o.sd (r == 1))
    (nan → (sig → res (.fcmpFeq o) false 1 ∧ res (.fcmpFun o) true 1) ∧
      (¬ sig → res (.fcmpFeq o) false 0 ∧ res (.fcmpFun o) true 0) ∧ res (.fcmpFlt o) false 1 ∧ res (.fcmpFle o) false 1) ∧
    (¬ nan → res (.fcmpFun o) false 0 ∧
      -- the order of values, infinities at the ends
      ∀ lt eq : Bool,
        (lt = true ↔ (isFinite eb mb x ∧ isFinite eb mb y ∧ value eb mb x < value eb mb y) ∨
          (isInf eb mb x ∧ signAt eb mb x = true ∧ ¬ (isInf eb mb y ∧ signAt eb mb y = true)) ∨
          (isInf eb mb y ∧ signAt eb mb y = false ∧ ¬ (isInf eb mb x ∧ signAt eb mb x = false))) →
        (eq = true ↔ (isFinite eb mb x ∧ isFinite eb mb y ∧ value eb mb x = value eb mb y) ∨ (isInf eb mb x ∧ x = y)) →
        res (.fcmpFeq o) eq 0 ∧ res (.fcmpFlt o) lt 0 ∧ res (.fcmpFle o) (lt || eq) 0)

end Sys2Proof.Claims

/-- Fpu on NaNs, infinities and zeros, and fcmp: `FloatSpecials`, `FloatCompares` above. -/
def Obligations.FloatSpecialsAndCompares : Prop := Sys2Proof.Claims.FloatSpecials ∧ Sys2Proof.Claims.FloatCompares

namespace Sys2Proof.Claims

open Sys2Proof.Machine

/-- The conversions of R135 that round a rational number: the number, where the operand is one, the sign of a zero, and the
target's exponent and fraction widths. -/
noncomputable def conversions : List ((Rr2 → Instr) × (BitVec 1 → W64 → Prop) × (BitVec 1 → W64 → ℝ) × (BitVec 1 → W64 → Bool) ×
    (BitVec 1 → Nat × Nat)) := [
  (.fcvtI2f, fun _ _ => True, fun _ x => x.toInt, fun _ _ => false, fun w => (ebOf w, mbOf w)),
  (.fcvtU2f, fun _ _ => True, fun _ x => x.toNat, fun _ _ => false, fun w => (ebOf w, mbOf w)),
  -- W = 0 narrows FP64 to FP32; W = 1 widens FP32 to FP64
  (.fcvtF2f, fun w x => isFinite (ebOf (w ^^^ 1)) (mbOf (w ^^^ 1)) (operand (w ^^^ 1) x),
    fun w x => value (ebOf (w ^^^ 1)) (mbOf (w ^^^ 1)) (operand (w ^^^ 1) x),
    fun w x => signAt (ebOf (w ^^^ 1)) (mbOf (w ^^^ 1)) (operand (w ^^^ 1) x), fun w => (ebOf w, mbOf w)),
  (.fcvtTobf16, fun w x => isFinite (ebOf w) (mbOf w) (operand w x), fun w x => value (ebOf w) (mbOf w) (operand w x),
    fun w x => signAt (ebOf w) (mbOf w) (operand w x), fun _ => (8, 7)),
  (.fcvtTofp16, fun w x => isFinite (ebOf w) (mbOf w) (operand w x), fun w x => value (ebOf w) (mbOf w) (operand w x),
    fun w x => signAt (ebOf w) (mbOf w) (operand w x), fun _ => (5, 10)),
  (.fcvtFrombf16, fun _ x => isFinite 8 7 (x.toNat % 2 ^ 16), fun _ x => value 8 7 (x.toNat % 2 ^ 16),
    fun _ x => signAt 8 7 (x.toNat % 2 ^ 16), fun w => (ebOf w, mbOf w)),
  (.fcvtFromfp16, fun _ x => isFinite 5 10 (x.toNat % 2 ^ 16), fun _ x => value 5 10 (x.toNat % 2 ^ 16),
    fun _ x => signAt 5 10 (x.toNat % 2 ^ 16), fun w => (ebOf w, mbOf w))]

end Sys2Proof.Claims

/-- `fcvt` of a number to a floating-point format rounds it once; the widening forms are exact (R135). Outside stochastic
rounding (RM = 5).
Complete here: `fcvtI2f`, `fcvtU2f`, `fcvtF2f`, `fcvtTobf16`, `fcvtFrombf16`, `fcvtTofp16`, `fcvtFromfp16`. -/
def Obligations.ConversionsRoundOnce : Prop :=
  ∀ e ∈ conversions, ∀ (o : Rr2) (s : State) (th : Thread), s.Plain th → th.guardOk o.pg o.pn = true →
    th.Ready [o.sa] [o.sd] → th.rm ≠ 5 → e.2.1 o.w (th.src o.sa) →
    let f := e.2.2.2.2 o.w
    ∃ v fl, Floats (e.1 o) s th v fl (fun u r => u.setX o.sd (BitVec.ofNat 64 r)) ∧
      Rounded f.1 f.2 th.rm.toNat (e.2.2.2.1 o.w (th.src o.sa)) (e.2.2.1 o.w (th.src o.sa)) v fl

namespace Sys2Proof.Claims

open Sys2Proof.Machine

/-- `fcvt` of NaNs and infinities (R135): a NaN becomes the canonical NaN of the result's format, with NV for a signalling one;
an infinity keeps its sign; a conversion that could draw counts itself in CVC (R225). The formats: f2f, tobf16, tofp16, frombf16, fromfp16.
Complete here: `fcvtF2f`, `fcvtTobf16`, `fcvtFrombf16`, `fcvtTofp16`, `fcvtFromfp16`. -/
def ConversionSpecials : Prop :=
  ∀ (o : Rr2) (s : State) (th : Thread), s.Plain th → th.guardOk o.pg o.pn = true → th.Ready [o.sa] [o.sd] →
    let eb := ebOf o.w
    let mb := mbOf o.w
    let x := th.src o.sa
    ∀ c ∈ [(Instr.fcvtF2f o, ebOf (o.w ^^^ 1), mbOf (o.w ^^^ 1), operand (o.w ^^^ 1) x, eb, mb),
        (.fcvtTobf16 o, eb, mb, operand o.w x, 8, 7), (.fcvtTofp16 o, eb, mb, operand o.w x, 5, 10),
        (.fcvtFrombf16 o, 8, 7, x.toNat % 2 ^ 16, eb, mb), (.fcvtFromfp16 o, 5, 10, x.toNat % 2 ^ 16, eb, mb)],
      let draws := th.rm = 5 ∧ c.1 ≠ .fcvtFrombf16 o ∧ c.1 ≠ .fcvtFromfp16 o ∧ (c.1 = .fcvtF2f o → o.w = 0)
      let res : Nat → BitVec 6 → Prop := fun v fl => ∀ n : W32, (draws → n = 1) → (¬ draws → n = 0) →
        Floats c.1 s th v fl (fun u r => (u.setX o.sd (BitVec.ofNat 64 r)).modC fun c => { c with cvc := c.cvc + n })
      match c with
      | (_, se, sm, b, te, tm) =>
        (isNaN se sm b → (isSignalling se sm b → res (canonicalNaN te tm) 1) ∧
          (¬ isSignalling se sm b → res (canonicalNaN te tm) 0)) ∧
        (isInf se sm b → res (withSign te tm (signAt se sm b) (infinity te tm)) 0)

end Sys2Proof.Claims

namespace Sys2Proof.Claims

open Sys2Proof.Machine

/-- f2i and f2u (R136): the value rounded to an integer, NX where it differs; a NaN and a rounded value outside the range raise
NV alone and give 0 or the end of the range.
Complete here: `fcvtF2i`, `fcvtF2u`. -/
def IntegerConversions : Prop :=
  ∀ c ∈ [(Instr.fcvtF2i, (-(2 ^ 63) : Int), (2 ^ 63 - 1 : Int)), (Instr.fcvtF2u, 0, 2 ^ 64 - 1)],
  ∀ (o : Rr2) (s : State) (th : Thread), s.Plain th → th.guardOk o.pg o.pn = true → th.Ready [o.sa] [o.sd] → th.rm ≠ 5 →
    let eb := ebOf o.w
    let mb := mbOf o.w
    let x := operand o.w (th.src o.sa)
    let res : Int → BitVec 6 → Prop := fun v fl =>
      Floats (c.1 o) s th (v % 2 ^ 64).toNat fl (fun u r => u.setX o.sd (BitVec.ofNat 64 r))
    (isNaN eb mb x → res 0 1) ∧
    (isInf eb mb x → res (if signAt eb mb x then c.2.1 else c.2.2) 1) ∧
    (isFinite eb mb x → ∀ r, RoundedInt th.rm.toNat (value eb mb x) r →
      (c.2.2 < r → res c.2.2 1) ∧ (r < c.2.1 → res c.2.1 1) ∧
      (c.2.1 ≤ r → r ≤ c.2.2 → ((r : ℝ) ≠ value eb mb x → res r 16) ∧ ((r : ℝ) = value eb mb x → res r 0)))

end Sys2Proof.Claims

namespace Sys2Proof.Claims

open Sys2Proof.Machine

/-- Under RM = 5 a conversion that rounds is decided by its draw and counts itself in CVC; one that traps counts nothing
(R135, R136, R212, R225, R226); NaNs, infinities and integers out of range end as under the other modes.
Complete here: `fcvtI2f`, `fcvtU2f`, `fcvtF2f`, `fcvtTobf16`, `fcvtTofp16`, `fcvtF2i`, `fcvtF2u`. -/
def StochasticConversions : Prop :=
  ∀ (o : Rr2) (s : State) (th : Thread), s.Plain th → th.guardOk o.pg o.pn = true → th.Ready [o.sa] [o.sd] → th.rm = 5 →
    let res : Instr → Nat → BitVec 6 → Prop := fun i v fl =>
      Floats i s th v fl (fun u r => (u.setX o.sd (BitVec.ofNat 64 r)).modC fun c => { c with cvc := c.cvc + 1 })
    (∀ e ∈ conversions, e.2.1 o.w (th.src o.sa) → e.1 o ≠ .fcvtFrombf16 o → e.1 o ≠ .fcvtFromfp16 o → (e.1 o = .fcvtF2f o → o.w = 0) →
      let f := e.2.2.2.2 o.w
      ∃ v fl, res (e.1 o) v fl ∧ DrawnRound f.1 f.2 (largest f.1 f.2) (some (infinity f.1 f.2)) (drawOf th 0)
        (e.2.2.2.1 o.w (th.src o.sa)) (e.2.2.1 o.w (th.src o.sa)) v fl) ∧
    (∀ c ∈ [(Instr.fcvtF2i, (-(2 ^ 63) : Int), (2 ^ 63 - 1 : Int)), (Instr.fcvtF2u, 0, 2 ^ 64 - 1)],
      let eb := ebOf o.w
      let mb := mbOf o.w
      let x := operand o.w (th.src o.sa)
      let int : Int → BitVec 6 → Prop := fun v fl => res (c.1 o) (v % 2 ^ 64).toNat fl
      (isNaN eb mb x → int 0 1) ∧ (isInf eb mb x → int (if signAt eb mb x then c.2.1 else c.2.2) 1) ∧
      (isFinite eb mb x → ∀ r, DrawnInt (drawOf th 0) (value eb mb x) r →
        (c.2.2 < r → int c.2.2 1) ∧ (r < c.2.1 → int c.2.1 1) ∧
        (c.2.1 ≤ r → r ≤ c.2.2 → ((r : ℝ) ≠ value eb mb x → int r 16) ∧ ((r : ℝ) = value eb mb x → int r 0))))

end Sys2Proof.Claims

/-- Fcvt: specials, integers and stochastic rounding: `ConversionSpecials`, `IntegerConversions`, `StochasticConversions` above. -/
def Obligations.IntegerAndStochasticConversions : Prop := Sys2Proof.Claims.ConversionSpecials ∧ Sys2Proof.Claims.IntegerConversions ∧ Sys2Proof.Claims.StochasticConversions

namespace Sys2Proof.Claims

open Sys2Proof.Machine

/-- The link value of the next word (R115). -/
def linkValue (th : Thread) : W64 := BitVec.ofNat 64 (th.c.img.toNat * 2 ^ 32 + (th.c.pc.toNat + 1) % 2 ^ 32)

/-- The fault message of R41, from its last bytes down to byte 0. -/
def threadFault (cause : W16) (t : Tid) (th : Thread) (word : W32) (tpc : W32) (v : W64) : BitVec 512 :=
  0#208 ++ th.c.asid ++ th.c.ord ++ v ++ (0#16 ++ th.c.img ++ tpc) ++ word ++ th.c.lid ++ BitVec.ofNat 16 th.core ++
    BitVec.ofNat 32 t ++ cause ++ 1#8 ++ 1#8

/-- A post of the thread to a core at high priority is still on its way (R170: the messages of one thread arrive in order). -/
def PostsBefore (s : State) (t : Tid) (core : Nat) : Prop :=
  ∃ q : PostReq, (Instr.mailboxDelivery q ∈ s.pool ∨ Instr.faultMessageDelivery q ∈ s.pool) ∧ q.tid = t ∧ q.dst = core ∧
    q.prio = true ∧ q.fabric = none ∧ q.id < s.nextId

/-- Trap entry (R38, R41) of the thread `t`, which is `th`, at `tpc`, for the word `word` that stands at `wpc`: with a deliverable cause, a valid `evec` and IH = 0 the
handler is entered and nothing else changes; else the thread parks at `tpc`, its trap registers, IH, latch and shadow kept, and
the cluster supervisor gets the fault message at high priority, or it is held at its sender until room appears (R170). -/
def Entered (s : State) (t : Tid) (th : Thread) (cause : Cause) (detail : W8) (v : W64) (tpc : W32) (wpc word : W32)
    (n : State) : Prop :=
  if cause.toUser = true ∧ th.c.evec.getLsbD 63 = true ∧ th.ih = false then
    n = s.setThread t { th with
      slices := none
      c := { th.c with
        ecause := detail ++ cause.code, epc := th.c.img ++ tpc, eval := v, shadow := th.c.hint, hint := 0,
        status := th.c.status ||| 0x40000, pc := th.c.evec.extractLsb' 0 32, img := th.c.evec.extractLsb' 32 16 } }
  else
    let sup := th.core / 8 * 8 + 7
    n.threads.find t = some { th with c := { th.c with pc := tpc }, run := .parked .supervisor, bslot := none, slices := none } ∧
    (∀ k, k ≠ t → n.threads.find k = s.threads.find k) ∧ n.mem = s.mem ∧
    (s.coreMode sup ≠ .retired → th.core < 512 → t < 2 ^ 32 → s.wordAt th.core th.c.asid th.c.img wpc = word →
      let m := threadFault (detail ++ cause.code) t th word tpc v
      ((s.core sup).k.mailbox.length < 16 ∧ ¬ PostsBefore s t sup →
        (n.core sup).k.mailbox = (s.core sup).k.mailbox ++ [{ prio := true, asid := th.c.asid, bytes := m }]) ∧
      (16 ≤ (s.core sup).k.mailbox.length ∨ PostsBefore s t sup →
        ∃ p : PostReq, .faultMessageDelivery p ∈ n.pool ∧ p.dst = sup ∧ p.bytes = m))

/-- The word takes a trap precisely: nothing of it has happened (R37), outside a region. -/
def TrapsAt (i : Instr) (s : State) (th : Thread) (c : Cause) (v : W64) : Prop :=
  th.isParked = false → Next i s (Entered s s.cur th c 0 v th.c.pc th.c.pc s.word)
/-- The word completes and then traps: `epc` names the next word (R36, R37). -/
def TrapsAfter (i : Instr) (s : State) (th : Thread) (c : Cause) (v : W64) : Prop :=
  th.isParked = false →
    Next i s (Entered (s.setThread s.cur th.retire) s.cur th.retire c 0 v (th.c.pc + 1) th.c.pc s.word)

/-- The system registers that the selectors read (R31). -/
def systemRegister (s : State) (th : Thread) (sel : BitVec 6) : Option W64 :=
  match sel.toNat with
  | 0x00 => some (BitVec.ofNat 64 s.cur)
  | 0x01 => th.bslot.map (BitVec.ofNat 64)
  | 0x02 => some (BitVec.ofNat 64 th.core)
  | 0x03 => some (BitVec.ofNat 64 (th.c.lid.toNat + 2 ^ 16 * th.c.asid.toNat + 2 ^ 32 * th.c.ord.toNat))
  | 0x04 => some th.lau.seed
  | 0x05 => some (BitVec.ofNat 64 (th.c.status.toNat % 2 ^ 3))
  | 0x06 => some (BitVec.ofNat 64 (th.c.status.toNat / 2 ^ 3 % 2 ^ 6))
  | 0x07 => some (BitVec.ofNat 64 (th.c.status.toNat / 2 ^ 9 % 2 ^ 5))
  | 0x08 => some (BitVec.ofNat 64 (th.c.status.toNat / 2 ^ 14 % 2 ^ 7))
  | 0x09 => some th.mo.tbm
  | 0x0A => some (BitVec.ofNat 64 th.mo.tbmd.toNat)
  | 0x0B => some (BitVec.ofNat 64 th.c.ecause.toNat)
  | 0x0C => some (BitVec.ofNat 64 th.c.epc.toNat)
  | 0x0D => some th.c.eval
  | 0x0E => some th.c.evec
  | 0x0F => if th.gm then none else some 0
  | _ => some 0

/-- A status word with `len` bits from bit `lo` replaced by the low bits of `v`. -/
def withBits (st : W32) (lo len : Nat) (v : W64) : W32 :=
  BitVec.ofNat 32 (st.toNat - st.toNat / 2 ^ lo % 2 ^ len * 2 ^ lo + v.toNat % 2 ^ len * 2 ^ lo)

/-- The thread's context after a write of a selector that may be written (R31, R168). -/
def afterWrite (c : Ctx) (sel : BitVec 6) (v : W64) : Ctx :=
  match sel.toNat with
  | 0x05 => if v.toNat % 8 < 6 then { c with status := withBits c.status 0 3 v } else c
  | 0x06 => { c with status := withBits c.status 3 6 v }
  | 0x07 => { c with status := withBits c.status 9 5 v }
  | 0x0B => { c with ecause := BitVec.ofNat 16 v.toNat }
  | 0x0C => { c with epc := BitVec.ofNat 48 v.toNat }
  | 0x0D => { c with eval := v }
  | 0x0E => { c with evec := v }
  | _ => c
def mayWrite (th : Thread) (sel : BitVec 6) : Prop :=
  sel ∈ [0x05#6, 0x06#6, 0x07#6] ∨ (sel ∈ [0x0B#6, 0x0C#6, 0x0D#6] ∧ th.ih = true) ∨ (sel = 0x0E#6 ∧ th.sup = true) ∨ 0x10 ≤ sel.toNat

/-- The hints that record a payload (R65): the word, the payload's first bit in the latch, its length, its VALID bit, its value. -/
noncomputable def recorded : List ((BitVec 24 → Instr) × Nat × Nat × Nat) := [
  (fun p => .hintImmx p, 0, 24, 58), (fun p => .hintSrk p, 24, 24, 59), (fun p => .hintScl (p.extractLsb' 0 5), 48, 5, 60),
  (fun p => .hintRh (p.extractLsb' 0 2), 53, 2, 61), (fun p => .hintLat (p.extractLsb' 0 3), 55, 3, 62)]

end Sys2Proof.Claims

/-- Branches, calls and jumps (R54, R114, R115, R116): the target is the PC plus the offset, or the link value in a register;
`call` and `jr.link` write the link value of the next word, the source being read first; image 0xFFFF traps with cause 0x07 before
any link is written.
Complete here: `bra`, `call`, `jrGo`, `jrLink`, `jrRet`. -/
def Obligations.Branches : Prop :=
  (∀ (o : Br) (s : State) (th : Thread), s.Alone th → (th.p o.pg ^^ o.pn == 1) = true →
    let target := BitVec.ofInt 32 ((th.c.pc.toNat : Int) + sgn 19 o.off.toNat)
    Acts (.bra o) s th { th with c := { th.c with pc := target, hint := 0 } } ∧
    (th.full 14 = true → Acts (.call o) s th
      { (th.setX 14 (linkValue th)) with c := { (th.setX 14 (linkValue th)).c with pc := target, hint := 0 } })) ∧
  (∀ (sa : BitVec 5) (sd : BitVec 4) (pg : BitVec 4) (pn w : BitVec 1) (s : State) (th : Thread), s.Alone th →
    (th.p pg ^^ pn == 1) = true → th.Ready [sa] [] →
    let v := th.src sa
    let jump : Thread → Thread := fun u => { u with c := { u.c with pc := v.extractLsb' 0 32, img := v.extractLsb' 32 16, hint := 0 } }
    (v.extractLsb' 32 16 ≠ 0xFFFF →
      Acts (.jrGo ⟨sa, pg, pn, w⟩) s th (jump th) ∧ Acts (.jrRet ⟨sa, pg, pn, w⟩) s th (jump th) ∧
      (th.full sd = true → Acts (.jrLink ⟨sd, sa, pg, pn, w⟩) s th (jump (th.setX sd (linkValue th))))) ∧
    (v.extractLsb' 32 16 = 0xFFFF → s.Plain th →
      Traps (.jrGo ⟨sa, pg, pn, w⟩) s th .addressSpace v ∧ Traps (.jrRet ⟨sa, pg, pn, w⟩) s th .addressSpace v ∧
      (th.full sd = true → Traps (.jrLink ⟨sd, sa, pg, pn, w⟩) s th .addressSpace v)))

namespace Sys2Proof.Claims

open Sys2Proof.Machine

/-- The illegal words trap with cause 0x01 and the word (R70); `trap.assert` traps when its predicate is false, `trap.brk` and
`trap.sys` always, each with its code after it has completed (R166); all by the trap entry of R38 with the message of R41.
Complete here: `trapSys`, `trapBrk`, `trapAssert`, `illegalWordZeros`, `illegalWordOnes`. -/
def TrapEntry : Prop :=
  ∀ (s : State) (th : Thread), s.Plain th → th.region = none →
    TrapsAt .illegalWordZeros s th .illegal 0 ∧ TrapsAt .illegalWordOnes s th .illegal 0xFFFFFFFF ∧
    ∀ code : BitVec 6,
      TrapsAfter (.trapBrk code) s th .brk (code.zeroExtend 64) ∧
      (th.rg = false → TrapsAfter (.trapSys code) s th .sys (code.zeroExtend 64)) ∧
      ∀ pa : BitVec 4, (th.p pa = false → TrapsAfter (.trapAssert pa code) s th .assert (code.zeroExtend 64)) ∧
        (th.p pa = true → Acts (.trapAssert pa code) s th th.retire)

end Sys2Proof.Claims

namespace Sys2Proof.Claims

open Sys2Proof.Machine

/-- `eret` (R38, R167): with IH = 1 the latch comes back from the shadow, IH falls and the thread goes on at `epc`; with IH = 0
it traps with cause 0x04 and the word, in either mode.
Complete here: `eret`. -/
def TrapReturn : Prop :=
  ∀ (s : State) (th : Thread), s.Plain th →
    (th.ih = true → Next .eret s fun t =>
      t.threads.find s.cur = some { th with c := { th.c with
        hint := th.c.shadow, pc := th.c.epc.extractLsb' 0 32, img := th.c.epc.extractLsb' 32 16,
        status := th.c.status &&& ~~~0x40000 } } ∧ t.mem = s.mem ∧ ∀ k, k ≠ s.cur → t.threads.find k = s.threads.find k) ∧
    (th.ih = false → Traps .eret s th .privilege (s.word.zeroExtend 64))

end Sys2Proof.Claims

/-- Trap words enter a trap as R38 says, eret returns: `TrapEntry`, `TrapReturn` above. -/
def Obligations.TrapsAndReturns : Prop := Sys2Proof.Claims.TrapEntry ∧ Sys2Proof.Claims.TrapReturn

/-- `sysr` (R31, R32, R168): `get` reads every selector, a reserved one as zero; `set`, `setb` and `clrb` write those that may be
written and have no effect on a reserved one; the others trap with cause 0x04 and the selector. The flags that `set` and
`setb` write as ones enter FLAGACC (R286).
Complete here: `sysrGet`, `sysrSet`, `sysrSetb`, `sysrClrb`. -/
def Obligations.SystemRegisters : Prop :=
  (∀ (sd : BitVec 4) (sel : BitVec 6) (s : State) (th : Thread) (v : W64), s.Alone th → th.Ready [] [sd] →
    systemRegister s th sel = some v → Acts (.sysrGet sd sel) s th (th.retire.setX sd v)) ∧
  (∀ (sa : BitVec 5) (sel : BitVec 6) (s : State) (th : Thread) (v : W64), s.Plain th → th.Ready [sa] [] →
    systemRegister s th sel = some v →
    ∀ e ∈ [(Instr.sysrSet sa sel, th.src sa, th.src sa), (.sysrSetb sa sel, v ||| th.src sa, th.src sa),
        (.sysrClrb sa sel, v &&& ~~~th.src sa, 0)],
      (¬ mayWrite th sel → Traps e.1 s th .privilege (sel.zeroExtend 64)) ∧
      (mayWrite th sel → Next e.1 s fun t =>
        t.threads = (s.setThread s.cur { th.retire with c := afterWrite th.retire.c sel e.2.1 }).threads ∧ t.mem = s.mem ∧
        (sel ≠ 0x06 → t = s.setThread s.cur { th.retire with c := afterWrite th.retire.c sel e.2.1 }) ∧
        (sel = 0x06 → (t.cluster (th.core / 8)).flagacc =
          (s.cluster (th.core / 8)).flagacc ||| e.2.2.extractLsb' 0 6)))

/-- Selectors 0x10 to 0x3F are reserved: `sysr.get` of one returns zero, and `sysr.set`, `sysr.setb` and `sysr.clrb` of one have no
effect (R32).
Complete here: `sysrGet`, `sysrSet`, `sysrSetb`, `sysrClrb`. -/
def Obligations.ReservedSelectors : Prop :=
  ∀ (sel : BitVec 6) (s : State) (th : Thread), 0x10 ≤ sel.toNat → s.Alone th →
    (∀ sd : BitVec 4, th.full sd = true → Acts (.sysrGet sd sel) s th (th.retire.setX sd 0)) ∧
    ∀ sa : BitVec 5, th.full (sa.extractLsb' 0 4) = true →
      Acts (.sysrSet sa sel) s th th.retire ∧ Acts (.sysrSetb sa sel) s th th.retire ∧ Acts (.sysrClrb sa sel) s th th.retire

namespace Sys2Proof.Claims

open Sys2Proof.Machine

/-- `mode` (R25, R169); a thread that anchors itself in a lent slot leaves it (R180).
Complete here: `modeSetrm`, `modeMobile`, `modeAnchor`, `modeGetfl`, `modeClrfl`. -/
def ModeWords : Prop :=
  ∀ (s : State) (th : Thread),
  (s.Alone th →
    (∀ m : BitVec 3, Acts (.modeSetrm m) s th
      (if m.toNat < 6 then { th.retire with c := { th.retire.c with status := withBits th.c.status 0 3 (m.zeroExtend 64) } }
       else th.retire)) ∧
    (s.lent s.cur th = false →
      Acts .modeAnchor s th { th.retire with c := { th.retire.c with status := th.c.status &&& ~~~0x4000 } }) ∧
    (∀ sd, th.full sd = true → Acts (.modeGetfl sd) s th
      (th.retire.setX sd (BitVec.ofNat 64 (th.c.status.toNat / 2 ^ 3 % 2 ^ 6)))) ∧
    (∀ m : BitVec 6, Acts (.modeClrfl m) s th
      { th.retire with c := { th.retire.c with status := th.c.status &&& ~~~((m.zeroExtend 32 : W32) <<< 3) } })) ∧
  (s.Alone th → th.vx = false → th.ih = false → th.rg = false → th.gm = false → th.sup = false → th.bars = [] → th.det = false →
    Acts .modeMobile s th { th.retire with c := { th.retire.c with status := th.c.status ||| 0x4000 } }) ∧
  (s.Plain th → s.lent s.cur th = true → Becomes .modeAnchor s { th.retire with
    c := { th.retire.c with status := th.c.status &&& ~~~0x4000 }, run := .ready s.cycle, bslot := none }) ∧
  (s.Plain th → (th.vx = true ∨ th.ih = true ∨ th.rg = true ∨ th.gm = true ∨ th.sup = true ∨ th.bars ≠ []) →
    Traps .modeMobile s th .privilege 1)

end Sys2Proof.Claims

namespace Sys2Proof.Claims

open Sys2Proof.Machine

/-- A hint records its payload and its VALID bit in the latch and changes no other bit of it; `hint.nop` and the hints 0xF6 to
0xFE change none (R22, R65, R73). A hint is the one word that keeps the latch.
Complete here: `hintImmx`, `hintScl`, `hintLat`, `hintRh`, `hintSrk`, `hintNop`, `hintUnnamed`. -/
def HintWords : Prop :=
  ∀ (s : State) (th : Thread), s.Alone th →
    (∀ e ∈ recorded, ∀ p : BitVec 24, ∃ h : W64,
      Acts (e.1 p) s th { th with c := { th.c with pc := th.c.pc + 1, hint := h } } ∧ h.getLsbD e.2.2.2 = true ∧
      (∀ k, k < e.2.2.1 → h.getLsbD (e.2.1 + k) = p.getLsbD k) ∧
      ∀ k, k ≠ e.2.2.2 → (k < e.2.1 ∨ e.2.1 + e.2.2.1 ≤ k) → h.getLsbD k = th.c.hint.getLsbD k) ∧
    Acts .hintNop s th { th with c := { th.c with pc := th.c.pc + 1 } } ∧
    ∀ op p, Acts (.hintUnnamed op p) s th { th with c := { th.c with pc := th.c.pc + 1 } }

end Sys2Proof.Claims

namespace Sys2Proof.Claims

open Sys2Proof.Machine

/-- `wait`, `task.yield` and `task.park` (R119, R120, R176): each completes when what it waits for holds and parks at the word
when not; `task.yield` gives up its slot outside deterministic launches and gangs.
Complete here: `taskYield`, `taskPark`, `waitFull`, `waitAny`. -/
def WaitsAndYield : Prop :=
  ∀ (s : State) (th : Thread),
  (s.Alone th → ∀ r, th.full r = true → Acts (.waitFull r) s th th.retire) ∧
  (s.Plain th → ∀ r, th.full r = false → exec (.waitFull r) s = .next (s.setThread s.cur (th.park (.reg r)))) ∧
  (s.Plain th → th.rg = false → ∀ sa sd, th.Ready [sa] [sd] →
    (∀ n : Nat, n < 16 → (th.src sa).getLsbD n = true → th.full (BitVec.ofNat 4 n) = true →
      (∀ k, k < n → ¬ ((th.src sa).getLsbD k = true ∧ th.full (BitVec.ofNat 4 k) = true)) →
      WritesX (.waitAny sa sd) s th sd (BitVec.ofNat 64 n)) ∧
    ((th.src sa).extractLsb' 0 16 = 0 → WritesX (.waitAny sa sd) s th sd 16) ∧
    ((th.src sa).extractLsb' 0 16 ≠ 0 → (∀ k, k < 16 → ¬ ((th.src sa).getLsbD k = true ∧ th.full (BitVec.ofNat 4 k) = true)) →
      exec (.waitAny sa sd) s = .next (s.setThread s.cur (th.park (.anyReg ((th.src sa).extractLsb' 0 16)))))) ∧
  (s.Plain th → th.gm = false →
    exec .taskYield s = .next (s.setThread s.cur { th.retire with run := .ready s.cycle, bslot := none }) ∧
    (th.c.wake = true → exec .taskPark s =
      .next (s.setThread s.cur { th.retire with c := { th.retire.c with wake := false } })) ∧
    (th.c.wake = false → exec .taskPark s = .next (s.setThread s.cur (th.park .token)))) ∧
  (s.Alone th → th.det = true → Acts .taskYield s th th.retire)

end Sys2Proof.Claims

/-- Mode, hint, wait, task.yield and task.park: `ModeWords`, `HintWords`, `WaitsAndYield` above. -/
def Obligations.ModesHintsAndWaits : Prop := Sys2Proof.Claims.ModeWords ∧ Sys2Proof.Claims.HintWords ∧ Sys2Proof.Claims.WaitsAndYield

/-- A supervisor-only word traps with cause 0x04 and the word in user mode (R35, R117, R276, R397); a vector, matrix,
accumulator or ring-hold word traps with cause 0x04 and 2 in a mobile thread (R26), whatever its operands. -/
def Obligations.Privileges : Prop :=
  ∀ (i : Instr) (w : W32) (s : State) (th : Thread), s.Plain th → encode i = some w → wellFormed i = true → s.word = w →
    let op := (w.extractLsb' 24 8).toNat
    let fn := (w.extractLsb' 20 4).toNat
    ((op, fn) ∈ [(0x04, 3), (0x84, 1), (0xA0, 4)] → th.sup = false → Traps i s th .privilege (w.zeroExtend 64)) ∧
    (((0x50 ≤ op ∧ op ≤ 0x5D) ∨ (0x60 ≤ op ∧ op ≤ 0x63) ∨ op = 0x70 ∨ op = 0x71 ∨ (op, fn) ∈ [(0xB0, 1), (0xB0, 2), (0xB0, 3), (0xB0, 4),
      (0xB0, 5)]) → th.mob = true → Traps i s th .privilege 2)

namespace Sys2Proof.Claims

open Sys2Proof.Machine

/-- The release that a word makes at a scope has been begun and is over (R151). -/
def ReleaseDone (s : State) (th : Thread) (sc : BitVec 2) : Prop :=
  ∃ r, th.mo.rel = some r ∧ r.scope = sc ∧ s.releaseOver s.cur th r = true

/-- What a finished release clears of its thread (R148, R308). -/
def released (th : Thread) (sc : BitVec 2) : Thread :=
  { th with mo := { th.mo with
      rel := none, peerWr := 0
      tbm := if sc = 0 then th.mo.tbm else 0
      tbmd := if 2 ≤ sc.toNat then 0 else th.mo.tbmd
      wsig := if 2 ≤ sc.toNat then 0 else th.mo.wsig
      rsig := if 2 ≤ sc.toNat then 0 else th.mo.rsig } }

/-- A thread that has made an acquire at package scope (R151): its loads from here on read past its cluster's buffer. -/
def acquired (s : State) (th : Thread) : Thread := { th with mo := { th.mo with acqFrom := some s.nextId } }
/-- No lookup finds a line in a core's L1. -/
def EmptyL1 (s : State) (core : Nat) : Prop := ∀ l ∈ (s.core core).m.l1, l.leaving = true

/-- The address is LOCAL, 64-byte aligned, may be accessed (R140), and its bank is awake: the offset in the scratchpad. -/
structure LocalAt (s : State) (th : Thread) (a : W64) (isLoad : Bool) (off : Nat) : Prop where
  space : spaceOf a = 0
  place : resolve th.core a = some (.sp th.core off)
  check : s.check th a 64 isLoad = none
  awake : s.sleeping th.core off 64 = none

/-- The message with the bytes that the hardware writes (R171): version, sender's tid, core and ASID. -/
def stamped (m : BitVec 512) (t : Tid) (th : Thread) : BitVec 512 :=
  m.extractLsb' 304 208 ++ th.c.asid ++ m.extractLsb' 80 208 ++ BitVec.ofNat 16 th.core ++ BitVec.ofNat 32 t ++
    m.extractLsb' 8 24 ++ 1#8
def kindOf (m : BitVec 512) : Nat := (m.extractLsb' 8 8).toNat

/-- A message that a thread's fetch may take (R173). -/
def mine (th : Thread) (m : Msg) : Bool := th.sup || decide (m.asid = th.c.asid)
/-- The place of the message that a fetch takes: the first of high priority, else the first of low. -/
def firstMessage (th : Thread) (l : List Msg) : Option Msg :=
  ((l.filter (mine th)).filter fun m => m.prio).head?.or ((l.filter (mine th)).filter fun m => !m.prio).head?

/-- The status register of a post is filled (R172). -/
def status (s : State) (p : PostReq) (v : W64) (t : State) : Prop :=
  ∀ d th, p.d = some d → s.threads.find p.tid = some th → ∃ u, t.threads.find p.tid = some u ∧ u.x d = v ∧ u.full d = true ∧
    u.c.pc = th.c.pc
end Sys2Proof.Claims

namespace Sys2Proof.Claims

open Sys2Proof.Machine

/-- `mbx` (R164, R170, R171, R172, R173): a post, its release over, sends the 64 bytes with the sender's stamp and empties its
status register; a user's post of a kind below 0x10 traps; a fetch is a package-scope acquire, takes the oldest message of high
priority, else of low, and writes it to the scratchpad; `mbx.count` counts them.
Complete here: `mbxPost`, `mbxFetch`, `mbxCount`. -/
def MailboxWords : Prop :=
  ∀ (s : State) (th : Thread), s.Plain th → th.rg = false → th.region = none → th.chunk.held = [] → s.ecc = [] →
  (∀ (sa sb : BitVec 5) (sd : BitVec 4) (pr : BitVec 1) (off : Nat), th.Ready [sa, sb] [sd] → LocalAt s th (th.src sb) true off →
    let a := th.src sa
    let m := BitVec.ofNat 512 (s.rd (spKey th.core off) 64)
    let sc : BitVec 2 := if a.toNat % 512 / 128 = th.core / 128 then 1 else 2
    (th.sup = false → kindOf m < 16 → Traps (.mbxPost sa sb sd pr) s th .privilege 5) ∧
    (th.sup = true ∨ 16 ≤ kindOf m → (a.toNat % 512 = th.core ∨ s.outstanding s.cur th < 32) → ReleaseDone s th sc → Next (.mbxPost sa sb sd pr) s fun t =>
      t.threads = (s.setThread s.cur ((released th sc).retire.empty sd)).threads ∧ t.mem = s.mem ∧
      ∃ p : PostReq, t.pool = s.pool ++ [postStep p] ∧ p.tid = s.cur ∧ p.core = th.core ∧ p.d = some sd ∧
        p.dst = a.toNat % 512 ∧ p.prio = (pr == 1) ∧ p.sup = th.sup ∧ p.fabric = none ∧
        p.wake = (if a.getLsbD 63 then some (a.toNat / 2 ^ 32 % 2 ^ 15) else none) ∧ p.bytes = stamped m s.cur th)) ∧
  (∀ (sa : BitVec 5) (sd : BitVec 4) (off : Nat), th.Ready [sa] [sd] → LocalAt s th (th.src sa) false off →
    match firstMessage th (s.core th.core).k.mailbox with
    | none => Next (.mbxFetch sa sd) s fun t =>
        t.threads = (s.setThread s.cur ((acquired s th).retire.setX sd 1)).threads ∧ t.mem = s.mem ∧ EmptyL1 t th.core ∧
        (t.core th.core).k = (s.core th.core).k
    | some m => s.olderAccess s.cur th.core (th.src sa) 64 = none → Next (.mbxFetch sa sd) s fun t =>
        t.threads = (s.setThread s.cur ((acquired s th).retire.setX sd 0)).threads ∧ EmptyL1 t th.core ∧
        (t.core th.core).k.mailbox = (s.core th.core).k.mailbox.erase m ∧ t.mem = writeLE s.mem (spKey th.core off) 64 m.bytes.toNat) ∧
  (∀ sd : BitVec 4, th.full sd = true →
    let l := (s.core th.core).k.mailbox.filter (mine th)
    WritesX (.mbxCount sd) s th sd (BitVec.ofNat 64
      ((l.filter fun m => m.prio).length + 256 * (l.filter fun m => !m.prio).length)))

end Sys2Proof.Claims

namespace Sys2Proof.Claims

open Sys2Proof.Machine

/-- Deliveries (R170, R172, R175, R285, R286): a message is queued at its priority, or refused with status 1 for lack of room
(12 entries for low priority, 16 for high) or 2 at a retired core, and may set a wake token; a held fault message is queued once
there is room, at the supervisor that its sender has now; a resume message restarts the thread that it names; cluster control posts write SYNCLIM under the mask, clear bits of
FLAGACC, and read.
Complete here: `faultMessageDelivery`, `mailboxDelivery`, `resumeMessage`, `clusterControlWrite`, `clusterControlRead`. -/
def MessagesArrive : Prop :=
  ∀ (s : State) (p : PostReq),
  (p.fabric = none → Instr.mailboxDelivery p ∈ s.pool → olderPost s p = false →
    let box := (s.core p.dst).k.mailbox
    let room := if p.prio then 16 else 12
    Next (.mailboxDelivery p) s fun t =>
      t.mem = s.mem ∧
      (s.coreMode p.dst = .retired → status s p 2 t ∧ (t.core p.dst).k.mailbox = box) ∧
      (s.coreMode p.dst ≠ .retired → room ≤ box.length → status s p 1 t ∧ (t.core p.dst).k.mailbox = box) ∧
      (s.coreMode p.dst ≠ .retired → box.length < room → status s p 0 t ∧
        (t.core p.dst).k.mailbox = box ++ [{ prio := p.prio, asid := p.asid, bytes := p.bytes }] ∧
        ∀ w u, p.wake = some w → s.threads.find w = some u → u.core = p.dst → ∃ v, t.threads.find w = some v ∧ v.c.wake = true)) ∧
  (let dst := if s.coreMode p.dst = .retired ∧ kindOf p.bytes ≠ 6 then s.supCore p.core else p.dst
   Instr.faultMessageDelivery p ∈ s.pool → olderPost s p = false → (s.core dst).k.mailbox.length < 16 →
   Next (.faultMessageDelivery p) s fun t =>
    (t.core dst).k.mailbox = (s.core dst).k.mailbox ++ [{ prio := true, asid := p.asid, bytes := p.bytes }] ∧
    t.threads = s.threads ∧ t.mem = s.mem) ∧
  (Instr.resumeMessage p ∈ s.pool → Next (.resumeMessage p) s fun t =>
    let rfl := (p.bytes.extractLsb' 16 8).toNat
    let named := (p.bytes.extractLsb' 128 32).toNat
    t.mem = s.mem ∧
    (s.coreMode p.dst = .retired → status s p 2 t) ∧
    (s.coreMode p.dst ≠ .retired → (∀ th, s.threads.find named = some th → th.core ≠ p.dst ∨ th.parkedSup = false) →
      status s p 3 t) ∧
    (∀ th, s.coreMode p.dst ≠ .retired → s.threads.find named = some th → th.core = p.dst → th.parkedSup = true → named ≠ p.tid →
      status s p 0 t ∧ ∃ u, t.threads.find named = some u ∧ u.isParked = false ∧
        (rfl.testBit 1 = true → u.lau.exiting = true) ∧
        (rfl.testBit 1 = false →
          u.x 0 = (if rfl.testBit 0 then p.bytes.extractLsb' 192 64 else th.x 0) ∧
          u.c.pc = (if rfl.testBit 2 then p.bytes.extractLsb' 320 32 else th.c.pc) ∧
          u.c.img = (if rfl.testBit 2 then p.bytes.extractLsb' 352 16 else th.c.img) ∧ u.c.hint = th.c.hint ∧
          ∀ n : BitVec 4, n ≠ 0 → u.x n = th.x n))) ∧
  (let idx := (p.bytes.extractLsb' 128 16).toNat
   let v := p.bytes.extractLsb' 192 64
   let m := p.bytes.extractLsb' 320 64
   let cl := p.dst / 8
   (Instr.clusterControlWrite p ∈ s.pool → Next (.clusterControlWrite p) s fun t =>
     status s p 0 t ∧ t.mem = s.mem ∧
     (t.cluster cl).synclim = (if idx = 0 then ((s.cluster cl).synclim &&& ~~~(m.extractLsb' 0 32)) ||| (v &&& m).extractLsb' 0 32
       else (s.cluster cl).synclim) ∧
     (t.cluster cl).flagacc = if idx = 2 then (s.cluster cl).flagacc &&& ~~~((v &&& m).extractLsb' 0 6 &&&
         ~~~(if (s.cluster cl).flagAt = s.cycle then (s.cluster cl).flagNew else 0)) else (s.cluster cl).flagacc) ∧
   (Instr.clusterControlRead p ∈ s.pool → Next (.clusterControlRead p) s fun t =>
     status s p 0 t ∧ t.mem = s.mem ∧ t.clusters = s.clusters ∧
     ((s.core p.core).k.mailbox.length < 16 → ∃ r : BitVec 512,
       (t.core p.core).k.mailbox = (s.core p.core).k.mailbox ++ [{ prio := true, asid := p.asid, bytes := r }] ∧
       kindOf r = 6 ∧ (r.extractLsb' 128 16).toNat = idx ∧
       (idx = 0 → r.extractLsb' 192 64 = (s.cluster cl).synclim.zeroExtend 64) ∧
       (idx = 2 → r.extractLsb' 192 64 = (s.cluster cl).flagacc.zeroExtend 64) ∧
       (idx = 3 → (s.cluster cl).csb.length ≤ 1024 → r.extractLsb' 192 64 = BitVec.ofNat 64 (s.cluster cl).csb.length) ∧
       (5 ≤ idx → r.extractLsb' 192 64 = 0))))

end Sys2Proof.Claims

/-- Mbx words and the arrival of messages: `MailboxWords`, `MessagesArrive` above. -/
def Obligations.MailboxesAndMessages : Prop := Sys2Proof.Claims.MailboxWords ∧ Sys2Proof.Claims.MessagesArrive

/-- A reserved encoding parks the core and posts one core-fault message (R40, R41, R72); code that a core does not hold is
loaded by a controller that lives, and its threads go on, or the fetch traps with cause 0x07 and the link value (R30); the next held floating-point report is
delivered once the one before has ended (R228).
Complete here: `codeAbsent`, `codeStartMessage`, `codeRefusal`, `heldFpTrapDelivery`, `reservedEncoding`. -/
def Obligations.CoreEvents : Prop :=
  (∀ (w : W32) (s : State) (th : Thread), s.Plain th → th.core < 512 → s.cur < 2 ^ 32 → Next (.reservedEncoding w) s fun t =>
    t.coreMode th.core = .faulted ∧ t.mem = s.mem ∧ t.threads = s.threads ∧ (t.core th.core).k.reserver = some s.cur ∧
    t.out.sent = s.out.sent ++ [.event (.coreFault th.core)] ∧
    (let sup := th.core / 8 * 8 + 7
     s.coreMode sup ≠ .retired → (s.core sup).k.mailbox.length < 16 → ¬ PostsBefore s s.cur sup → (t.core sup).k.mailbox = (s.core sup).k.mailbox ++
       [{ prio := true, asid := th.c.asid, bytes :=
          0#208 ++ th.c.asid ++ th.c.ord ++ w.zeroExtend 64 ++ (0#16 ++ th.c.img ++ th.c.pc) ++ w ++ th.c.lid ++
            BitVec.ofNat 16 th.core ++ BitVec.ofNat 32 s.cur ++ 0x0002#16 ++ 2#8 ++ 1#8 }])) ∧
  (∀ (core : Nat) (t : Tid) (s : State) (th : Thread), s.threads.find t = some th → Instr.codeAbsent core t ∈ s.pool →
    s.imageOf core th.c.asid th.c.img = none → s.ctlAlive (core / 128) = true →
    (s.loadedImage th.c.asid th.c.img = none → Next (.codeAbsent core t) s fun n =>
      n.pool = s.pool.erase (.codeAbsent core t) ++ [.codeRefusal t (0#16 ++ th.c.img ++ th.c.pc)] ∧ n.threads = s.threads) ∧
    (∀ im b kept, s.loadedImage th.c.asid th.c.img = some im → s.placeImage core im.words.length = some (b, kept) →
      b + im.words.length ≤ 65536 → Next (.codeAbsent core t) s fun n =>
        n.pool = s.pool.erase (.codeAbsent core t) ++ [.codeStartMessage core th.c.img th.c.asid] ∧ n.threads = s.threads ∧
        ⟨im.id, b, im.words.length, im.asid⟩ ∈ (n.core core).k.images ∧
        ∀ k w, im.words[k]? = some w → n.rd (isKey core (4 * (b + k))) 4 = w.toNat)) ∧
  (∀ (core : Nat) (img asid : W16) (s : State), Instr.codeStartMessage core img asid ∈ s.pool →
    Next (.codeStartMessage core img asid) s fun n => n.mem = s.mem ∧
      ∀ t th, s.threads.find t = some th → ∃ u, n.threads.find t = some u ∧ u.c = th.c ∧
        (th.core = core → th.c.img = img → th.c.asid = asid → th.run = .parked .code → u.isParked = false) ∧
        (¬ (th.core = core ∧ th.c.img = img ∧ th.c.asid = asid ∧ th.run = .parked .code) → u = th)) ∧
  (∀ (t : Tid) (link : W64) (s : State) (th : Thread), s.threads.find t = some th → Instr.codeRefusal t link ∈ s.pool →
    Next (.codeRefusal t link) s fun n =>
      n = ({ s with pool := s.pool.erase (.codeRefusal t link) } : State).takeTrap t .addressSpace 0 link th.c.pc) ∧
  (∀ (core : Nat) (s : State) (h : FpHold) (th : Thread), Instr.heldFpTrapDelivery core ∈ s.pool →
    (s.core core).k.fpRep = none → h ∈ (s.core core).k.fpHeld →
    -- the earliest window, then the lowest slot
    (∀ g ∈ (s.core core).k.fpHeld, g = h ∨ h.window < g.window ∨ (h.window = g.window ∧ h.slot < g.slot)) →
    h.window < s.cycle / 16 → s.threads.find h.tid = some th → th.region = none → th.det = false →
    th.c.evec.getLsbD 63 = true → th.ih = false → h.slot < 16 →
    Next (.heldFpTrapDelivery core) s fun n =>
      (n.core core).k.fpHeld = (s.core core).k.fpHeld.erase h ∧ (n.core core).k.fpRep = some h.tid ∧
      ∃ u, n.threads.find h.tid = some u ∧ u.c.ecause = h.detail ++ 0x0C#8 ∧ u.c.epc = th.c.img ++ th.c.pc ∧ u.ih = true ∧
        u.c.pc = th.c.evec.extractLsb' 0 32 ∧ u.isParked = false ∧ u.c.eval.extractLsb' 0 48 = h.addr.extractLsb' 0 48 ∧
        ∀ k, k < 16 → (u.c.eval.getLsbD (48 + k) = true ↔ ∃ g ∈ (s.core core).k.fpHeld.erase h, g.slot = k))

namespace Sys2Proof.Claims

open Sys2Proof.Machine

/-- The thread issues alone, outside deterministic launches, regions and gangs, at its own place: it is anchored or in a
handler, so that no access moves it (R27). -/
structure Here (s : State) (th : Thread) : Prop extends State.Plain s th where
  region : th.region = none
  rg : th.rg = false
  gm : th.gm = false
  stays : th.mob = false ∨ th.ih = true

/-- The effective address of a MEM word (R56): `log` is the size's logarithm, bit 58 of the latch says that IMMX is valid. -/
def memAddress (th : Thread) (sb : BitVec 5) (log : BitVec 3) (off : BitVec 10) : W64 :=
  let h := th.c.hint
  let o : Int := if h.getLsbD 58 then sgn 34 (h.toNat % 2 ^ 24 * 2 ^ 10 + off.toNat) else sgn 10 off.toNat
  BitVec.ofInt 64 ((th.src sb).toNat + o * 2 ^ log.toNat)

/-- The byte that an address names, for an issuing core (R139). -/
def names (core a : Nat) : Option Place :=
  let low := a % 2 ^ 52
  let off := low % 2 ^ 20
  if 2 ^ 56 ≤ a then none
  else match a / 2 ^ 52 with
    | 0 => if low < 655360 then some (.sp core low) else none
    | 1 => if low < 2 ^ 23 ∧ off < 655360 then some (.sp (core / 8 * 8 + low / 2 ^ 20) off) else none
    | 2 => if low < 2 ^ 32 ∧ low / 2 ^ 20 % 8 = 0 ∧ off < 655360 then some (.sp (low / 2 ^ 23) off) else none
    | 4 | 5 | 6 | 7 | 8 => if low < 2 ^ 48 then some (.glob (a / 2 ^ 52) low) else none
    | _ => none

/-- All bytes lie in the window of a valid entry of the local protection unit for the ASID (R393). -/
def inWindow (s : State) (core : Nat) (asid : W16) (off n : Nat) : Prop :=
  ∃ e ∈ (s.core core).m.lpu, e.2.getLsbD 56 = true ∧ e.2.toNat / 2 ^ 40 % 2 ^ 16 = asid.toNat ∧
    e.2.toNat % 2 ^ 20 ≤ off ∧ off + n ≤ e.2.toNat / 2 ^ 20 % 2 ^ 20

/-- The first rule of `CHECK` (R140) that an access of `n` bytes breaks. -/
def Breaks (s : State) (th : Thread) (a : W64) (n : Nat) (isLoad : Bool) (c : Cause) : Prop :=
  match names th.core a.toNat with
  | none => c = .addressSpace
  | some p =>
    if a.toNat % n ≠ 0 then c = .misaligned
    else
      let outside := ∃ off, p = .sp th.core off ∧ th.sup = false ∧ ¬ inWindow s th.core th.c.asid off n
      (outside ∧ c = .localProt) ∨ (¬ outside ∧ s.lockHit th.core p.key n isLoad = true ∧ c = .lock)

/-- The registers that a load of a size fills (R144). -/
def filled (d : BitVec 4) (sz : BitVec 3) : List (BitVec 4) := if sz = 4 then [d, d + 1] else [d]
/-- The word is over and its destinations wait for their values (R144). -/
def waitsFor (th : Thread) (ds : List (BitVec 4)) : Thread := ds.foldl Thread.empty th.retire

/-- The access may go: no rule of `CHECK` is broken, and one that leaves the core finds fewer than 32 outstanding (R142). -/
structure MayGo (s : State) (th : Thread) (a : W64) (n : Nat) (isLoad : Bool) : Prop where
  check : ∀ c, ¬ Breaks s th a n isLoad c
  room : (∃ off, names th.core a.toNat = some (.sp th.core off)) ∨ s.outstanding s.cur th < 32

/-- Only steps in flight were added, and the thread `u` is where `th` was. -/
structure Sends (s t : State) (u : Thread) (i : Instr) : Prop where
  thread : t.threads = (s.setThread s.cur u).threads
  flight : i ∈ t.pool ∧ ∀ j ∈ s.pool, j ∈ t.pool
  mem : t.mem = s.mem
  fe : t.fe = s.fe
  slots : t.slots = s.slots
  clusters : t.clusters = s.clusters
  dies : t.dies = s.dies

/-- The load of a MEM word. -/
def loadOfWord (s : State) (th : Thread) (o : Mem) (level : ReadLevel) (rh : BitVec 2) : LoadReq :=
  let n := 2 ^ o.sz.toNat
  ⟨s.nextId, s.cur, th.core, th.c.asid, if o.sz = 4 then .pair o.sd else .scalar o.sd,
    [⟨memAddress th o.sb o.sz o.off, n, 0, 8 * n, 0⟩], level, th.rhh?.getD rh⟩

/-- What a store writes (R145): the low bytes of `X[SD]`, of a quad those of `X[SD+1]` above them. -/
def storeBytes (th : Thread) (o : Mem) : Nat :=
  if o.sz = 4 then (th.x o.sd).toNat + 2 ^ 64 * (th.x (o.sd + 1)).toNat else (th.x o.sd).toNat % 2 ^ (8 * 2 ^ o.sz.toNat)
def storeParts (th : Thread) (o : Mem) : List SPart :=
  [⟨memAddress th o.sb o.sz o.off, 2 ^ o.sz.toNat, BitVec.ofNat 128 (if o.sz = 4 then storeBytes th o else (th.x o.sd).toNat), 0⟩]
/-- `n` bytes at a key hold a number, and every other byte reads as before (R75). -/
def Stored (s t : State) (key n v : Nat) : Prop :=
  (∀ k, k < n → readByte t.mem (key + k) = BitVec.ofNat 8 (v / 256 ^ k)) ∧
  (∀ a, ¬ (key ≤ a ∧ a < key + n) → readByte t.mem a = readByte s.mem a)
/-- The byte with the OVF bit of a log descriptor, which software clears and never sets (R315). -/
def OvfByte (s : State) (key : Nat) : Prop := ∃ e ∈ s.out.wrlog, s.ovfKey e.1 e.2 = some key
/-- The same in global memory, but for OVF. -/
def StoredHome (s t : State) (key n v : Nat) : Prop :=
  (∀ k, k < n → ¬ OvfByte s (key + k) → readByte t.mem (key + k) = BitVec.ofNat 8 (v / 256 ^ k)) ∧
  (∀ a, ¬ (key ≤ a ∧ a < key + n) → readByte t.mem a = readByte s.mem a)

/-- The atomics and reductions with their functions (R156, R157, R159). -/
noncomputable def atomics : List ((Amo → Instr) × AmoFn) := [
  (.amoAdd, .add), (.amoAnd, .and), (.amoOr, .or), (.amoXor, .xor), (.amoMin, .min), (.amoMax, .max), (.amoMinu, .minu),
  (.amoMaxu, .maxu), (.amoSwap, .swap), (.amoCas, .cas), (.amoFadd, .fadd)]
noncomputable def reductions : List ((Red → Instr) × AmoFn) := [
  (.redAdd, .add), (.redFadd, .fadd), (.redMin, .min), (.redMax, .max), (.redOr, .or), (.redAnd, .and)]

/-- The request of an atomic or reduction: operands cut to the size (R157). -/
def atomicOf (s : State) (th : Thread) (fn : AmoFn) (a b c : W64) (log : BitVec 2) (d : BitVec 4) (sys : Bool) (q : AtomReq) :
    Prop :=
  let n := 2 ^ log.toNat
  q = ⟨q.id, s.cur, th.core, th.c.asid, fn, a, n, BitVec.ofNat 64 (b.toNat % 2 ^ (8 * n)), BitVec.ofNat 64 (c.toNat % 2 ^ (8 * n)),
    d, sys⟩ ∧ s.nextId ≤ q.id

/-- The thread after an atomic or reduction to an address has left (R148, R308): a global one sets the bit of its home in the
touched-bank mask, and its line in the write signature; nothing else but the word's own change. -/
def Touched (s : State) (th : Thread) (a : W64) (before u : Thread) : Prop :=
  match names th.core a.toNat with
  | some (.glob space va) => match s.keyOf th.c.asid space va with
    | some k => u = before.touch (homeDie space va) k
    | none => u = before
  | _ => u = before

end Sys2Proof.Claims

/-- Every access word makes `CHECK` (R140) at issue: address space (R139), alignment, local protection (R393), range locks, in
this order; the first broken rule traps precisely with its cause and the effective address of R56. A sync access to a global
address traps with cause 0x07 (R152). -/
def Obligations.AddressChecks : Prop :=
  ∀ (s : State) (th : Thread), Here s th →
  (∀ (o : Mem) (c : Cause), let a := memAddress th o.sb o.sz o.off
    (th.Ready [o.sb] (filled o.sd o.sz) → Breaks s th a (2 ^ o.sz.toNat) true c →
      Traps (.ld o) s th c a ∧ Traps (.ldacq o) s th c a) ∧
    (th.Ready ((filled o.sd o.sz).map (fun d => 0#1 ++ d) ++ [o.sb]) [] → Breaks s th a (2 ^ o.sz.toNat) false c →
      Traps (.st o) s th c a ∧ Traps (.strel o) s th c a)) ∧
  (∀ (o : MemSy) (c : Cause), let a := memAddress th o.sb o.sz o.off
    th.mo.waitId = 0 →
    Breaks s th a (2 ^ o.sz.toNat) false c ∨ (c = .addressSpace ∧ ∃ k va, names th.core a.toNat = some (.glob k va)) →
    (∀ k va, names th.core a.toNat = some (.glob k va) → c = .addressSpace) →
    (th.Ready [o.sb] [o.sd] → Traps (.ldsy o) s th c a) ∧ (th.Ready [0#1 ++ o.sd, o.sb] [] → Traps (.stsy o) s th c a)) ∧
  (∀ e ∈ atomics, ∀ (o : Amo) (c : Cause), th.Ready [o.sa, o.sb, 0#1 ++ o.sd] [o.sd] →
    Breaks s th (th.src o.sa) (2 ^ o.sz.toNat) false c → Traps (e.1 o) s th c (th.src o.sa)) ∧
  (∀ e ∈ reductions, ∀ (o : Red) (c : Cause), th.Ready [o.sa, o.sb] [] →
    Breaks s th (th.src o.sa) (2 ^ o.sz.toNat) false c → Traps (e.1 o) s th c (th.src o.sa))

namespace Sys2Proof.Claims

open Sys2Proof.Machine

/-- A load that passes `CHECK` leaves for the bytes, its destinations empty and the thread past the word (R144); an `ldacq`
goes as an acquire at its scope and parks at the word until its destination is full (R149); `pf` writes no register, changes
no memory and never traps (R155).
Complete here: `ld`, `ldacq`, `pf`. -/
def LoadsIssue : Prop :=
  ∀ (s : State) (th : Thread), Here s th →
  (∀ o : Mem, th.Ready [o.sb] (filled o.sd o.sz) → MayGo s th (memAddress th o.sb o.sz o.off) (2 ^ o.sz.toNat) true →
    (Next (.ld o) s fun t => Sends s t (waitsFor th (filled o.sd o.sz)) (.loadCompletion (loadOfWord s th o .plain o.rh))) ∧
    (Next (.ldacq o) s fun t => ∃ u, u = (waitsFor th (filled o.sd o.sz)).park (.reg o.sd) ∧
      Sends s t u (.loadCompletion (loadOfWord s th o (.acquire o.rh) 0)))) ∧
  (∀ o : MemPf, Next (.pf o) s fun t =>
    (∃ u, t.threads.find s.cur = some u ∧ u.c = th.retire.c ∧ u.run = th.run) ∧ (∀ k, k ≠ s.cur → t.threads.find k = s.threads.find k) ∧
    t.mem = s.mem ∧ t.fe = s.fe ∧ t.pool = s.pool ∧
    ((∃ c, Breaks s th (memAddress th o.sb o.sz o.off) (2 ^ o.sz.toNat) true c) ∨ th.full (o.sb.extractLsb' 0 4) = false →
      t = s.setThread s.cur th.retire))

end Sys2Proof.Claims

namespace Sys2Proof.Claims

open Sys2Proof.Machine

/-- A store that passes `CHECK` retires (R145): to its own scratchpad it writes its bytes and no others at once; to another
core's it leaves for the owner and is counted as a peer write (R148); to global memory it leaves for the cluster store buffer
(R299), memory unchanged. `strel`, its release over, does the same (R150). Full/empty bits stay (R146).
Complete here: `st`, `strel`. -/
def StoresIssue : Prop :=
  ∀ (o : Mem) (s : State) (th : Thread), o.sz.toNat ≤ 4 → Here s th → th.Ready ((filled o.sd o.sz).map (fun d => 0#1 ++ d) ++ [o.sb]) [] →
    let a := memAddress th o.sb o.sz o.off
    let n := 2 ^ o.sz.toNat
    (∀ c, ¬ Breaks s th a n false c) → s.storeWait s.cur th (storeParts th o) = none →
    ∀ e ∈ [(Instr.st o, th, th.rhh?.getD o.rh), (.strel o, released th o.rh, th.rhh?.getD 0)],
      (e.1 = .strel o → ReleaseDone s th o.rh ∧
        (s.finishRelease s.cur th o.rh).storeWait s.cur (released th o.rh) (storeParts th o) = none) →
      Next e.1 s fun t => t.fe = s.fe ∧ (∀ k, k ≠ s.cur → t.threads.find k = s.threads.find k) ∧ (∀ j ∈ s.pool, j ∈ t.pool) ∧
        match names th.core a.toNat with
        | some (.sp c off) =>
          if c = th.core then
            t.threads = (s.setThread s.cur e.2.1.retire).threads ∧ Stored s t (spKey c off) n (storeBytes th o) ∧ t.pool = s.pool
          else t.mem = s.mem ∧
            t.threads.find s.cur = some { e.2.1.retire with mo := { e.2.1.mo with peerWr := e.2.1.mo.peerWr + 1 } } ∧
            .storePerformAtHome ⟨s.nextId, s.cur, th.core, th.c.asid, storeParts th o, e.2.2⟩ ∈ t.pool
        | some (.glob _ _) => t.mem = s.mem ∧ t.clusters = s.clusters ∧
          (∃ u, t.threads.find s.cur = some u ∧ u.c = th.retire.c) ∧
          .storePerformAtHome ⟨s.nextId, s.cur, th.core, th.c.asid, storeParts th o, e.2.2⟩ ∈ t.pool
        | none => False

end Sys2Proof.Claims

/-- Loads and stores at issue: `LoadsIssue`, `StoresIssue` above. -/
def Obligations.LoadsAndStoresIssue : Prop := Sys2Proof.Claims.LoadsIssue ∧ Sys2Proof.Claims.StoresIssue

namespace Sys2Proof.Claims

open Sys2Proof.Machine

/-- An atomic that passes `CHECK` goes to the home with its operands cut to the size, its destination empty (R157, R158); one
that releases does so once the release is over, one that acquires parks until its destination is full; a reduction goes and
returns nothing (R159).
Complete here: `amoAdd`, `amoAnd`, `amoOr`, `amoXor`, `amoMin`, `amoMax`, `amoMinu`, `amoMaxu`, `amoSwap`, `amoCas`, `amoFadd`,
`redAdd`, `redFadd`, `redMin`, `redMax`, `redOr`, `redAnd`. -/
def AtomicsIssue : Prop :=
  ∀ (s : State) (th : Thread), Here s th →
  (∀ e ∈ atomics, ∀ o : Amo, th.Ready [o.sa, o.sb, 0#1 ++ o.sd] [o.sd] → MayGo s th (th.src o.sa) (2 ^ o.sz.toNat) false →
    let rel := o.ord.getLsbD 1
    let acq := o.ord.getLsbD 0
    (rel = true → ReleaseDone s th o.sc) →
    -- the core's dirty log has room for the page (R400)
    s.dirtyFull th.core th.c.asid (th.src o.sa) (2 ^ o.sz.toNat) = false →
    let th1 := if rel then released th o.sc else th
    Next (e.1 o) s fun t => t.mem = s.mem ∧ (∃ q, .atomicAtHome q ∈ t.pool ∧
      atomicOf s th e.2 (th.src o.sa) (th.src o.sb) (th.x o.sd) o.sz o.sd (acq && o.sc == 3) q) ∧ (∀ j ∈ s.pool, j ∈ t.pool) ∧
      ∃ u, Touched s th (th.src o.sa) (th1.retire.empty o.sd) u ∧
        t.threads.find s.cur = some (if acq then u.park (.reg o.sd) else u)) ∧
  (∀ e ∈ reductions, ∀ o : Red, th.Ready [o.sa, o.sb] [] → MayGo s th (th.src o.sa) (2 ^ o.sz.toNat) false →
    s.dirtyFull th.core th.c.asid (th.src o.sa) (2 ^ o.sz.toNat) = false →
    Next (e.1 o) s fun t => t.mem = s.mem ∧ (∃ q, .remoteUpdate q ∈ t.pool ∧
      atomicOf s th e.2 (th.src o.sa) (th.src o.sb) 0 o.sz 0 false q) ∧ (∀ j ∈ s.pool, j ∈ t.pool) ∧
      ∃ u, Touched s th (th.src o.sa) th.retire u ∧ t.threads.find s.cur = some u)

end Sys2Proof.Claims

namespace Sys2Proof.Claims

open Sys2Proof.Machine

/-- An `ldsy` is sent to the owner core, its thread parked at the word, and a sync word retires when it has been served (R152);
`fence`, its loads and atomics filled and its release over, retires, having cleared what R148 says and, as an acquire, the core's L1
(R160; that the L1 goes is the model's choice, log entry 18), from package scope on also so that the thread's later loads read
past the cluster's buffer (R151); `go` of a thread that does not move has no effect (R162).
Complete here: `ldsy`, `stsy`, `fenceAcq`, `fenceRel`, `fenceFull`, `go`. -/
def SyncFencesAndGo : Prop :=
  ∀ (s : State) (th : Thread), Here s th →
  (∀ (o : MemSy) (c off : Nat), let a := memAddress th o.sb o.sz o.off
    let n := 2 ^ o.sz.toNat
    names th.core a.toNat = some (.sp c off) →
    (th.mo.waitId = 0 → MayGo s th a n false → th.Ready [o.sb] [o.sd] → Next (.ldsy o) s fun t => t.mem = s.mem ∧ t.fe = s.fe ∧
      (∃ u, t.threads.find s.cur = some u ∧ u.run = .parked (.request u.mo.waitId) ∧ u.c.pc = th.c.pc ∧ u.full o.sd = false ∧
        u.mo.waitId ≠ 0) ∧
      ∃ q : SyncReq, .syncAccessServe q ∈ t.pool ∧ q.tid = s.cur ∧ q.owner = c ∧ q.off = off ∧ q.n = n ∧ q.store = false ∧
        q.d = o.sd ∧ q.since = s.cycle ∧ q.lim = (s.cluster (c / 8)).synclim.toNat) ∧
    (th.mo.waitId ≠ 0 → th.mo.acquired = true → th.mo.syncErr = none →
      (th.Ready [o.sb] [o.sd] → Next (.ldsy o) s fun t => t = s.setThread s.cur
        { th.retire with mo := { th.mo with acquired := false, waitId := 0 } }) ∧
      (th.Ready [0#1 ++ o.sd, o.sb] [] → Next (.stsy o) s fun t => t = s.setThread s.cur
        { th.retire with mo := { th.mo with acquired := false, waitId := 0 } }))) ∧
  (∀ sc : BitVec 2,
    let acq : Thread → Thread := fun u => if 2 ≤ sc.toNat then acquired s u else u
    (s.loadsDone s.cur = true → Next (.fenceAcq sc) s fun t => t.threads = (s.setThread s.cur (acq th).retire).threads ∧
      t.mem = s.mem ∧ EmptyL1 t th.core) ∧
    (ReleaseDone s th sc → Next (.fenceRel sc) s fun t => t.threads = (s.setThread s.cur (released th sc).retire).threads ∧
      t.mem = s.mem) ∧
    (ReleaseDone s th sc → s.loadsDone s.cur = true → (2 ≤ sc.toNat → s.ringOpen s.cur = false) →
      Next (.fenceFull sc) s fun t => t.threads = (s.setThread s.cur (acq (released th sc)).retire).threads ∧ t.mem = s.mem ∧
        EmptyL1 t th.core)) ∧
  (∀ sa : BitVec 5, th.Ready [sa] [] → (names th.core (th.src sa).toNat).isSome = true → exec (.go sa) s = .next (s.setThread s.cur th.retire))

end Sys2Proof.Claims

namespace Sys2Proof.Claims

open Sys2Proof.Machine

/-- The event leaves the steps in flight, and memory, full/empty bits and every other thread are as before. -/
structure Quiet (s t : State) (i : Instr) (tid : Tid) : Prop where
  pool : t.pool = s.pool.erase i
  mem : t.mem = s.mem
  fe : t.fe = s.fe
  others : ∀ k, k ≠ tid → t.threads.find k = s.threads.find k

/-- The register, or the pair, holds a load's value and is full; nothing else of the context has changed (R144). -/
def Delivered (r : LoadReq) (th u : Thread) (v : Nat) : Prop :=
  u.run = th.run ∧ u.c = match r.dst with
    | .scalar d => (th.setX d (BitVec.ofNat 64 v)).c
    | .pair d => ((th.setX d (BitVec.ofNat 64 (v % 2 ^ 64))).setX (d + 1) (BitVec.ofNat 64 (v / 2 ^ 64))).c
    | _ => th.c

/-- The little-endian number of `n` bytes (R75). -/
def number (byte : Nat → W8) : Nat → Nat
  | 0 => 0
  | n + 1 => number byte n + (byte n).toNat * 256 ^ n

/-- A scalar load in flight of one piece, of a thread outside regions and deterministic launches, that may complete. -/
structure OneLoad (s : State) (th : Thread) (r : LoadReq) (a : W64) (n : Nat) : Prop where
  here : s.threads.find r.tid = some th
  out : th.region = none ∧ th.det = false ∧ th.chunk.held = []
  flight : Instr.loadCompletion r ∈ s.pool
  ready : loadReady s r = true
  parts : r.parts = [⟨a, n, 0, 8 * n, 0⟩]
  clean : s.ecc = []
  size : n ∈ [1, 2, 4, 8, 16] ∧ a.toNat % n = 0
  dst : (∃ d, r.dst = .scalar d) ∨ ∃ d, r.dst = .pair d

/-- An uncorrectable error stands in the words of a copy that `n` bytes at an offset meet (R205). -/
def copyFails (l : L1Line) (o n : Nat) : Bool :=
  l.ecc.any fun e => decide (8 * e.1 < o + n) && decide (o < 8 * e.1 + 8) && decide (2 ≤ e.2.toNat)
/-- A copy of the line that a plain load of `n` bytes finds (R307): a clean one with an error in them is dropped and fetched
afresh (R205). -/
def copyInL1 (s : State) (core : Nat) (asid : W16) (space va n : Nat) : Option L1Line :=
  ((s.heldXlat core asid space va).bind fun x => s.l1Find core asid (x.key (homeDie space va) va / 64)).filter fun l =>
    !copyFails l (va % 64) n || l.pending

/-- f(old, b, c) of R157 at a width of `n` bytes: the new value. `fadd` rounds the exact sum to nearest even, raises no flag
and answers the canonical NaN for a NaN operand. -/
def Combined (fn : AmoFn) (n old b c new : Nat) : Prop :=
  let w := 8 * n
  match fn with
  | .add => new = (old + b) % 2 ^ w
  | .and => new = old &&& b
  | .or => new = old ||| b
  | .xor => new = old ^^^ b
  | .min => new = if sgn w old ≤ sgn w b then old else b
  | .max => new = if sgn w b ≤ sgn w old then old else b
  | .minu => new = min old b
  | .maxu => new = max old b
  | .swap => new = b
  | .cas => new = if old = c then b else old
  | .fadd =>
    let eb := if n = 8 then 11 else 8
    let mb := if n = 8 then 52 else 23
    ((isNaN eb mb old ∨ isNaN eb mb b) → new = canonicalNaN eb mb) ∧
    (isFinite eb mb old → isFinite eb mb b → ∃ fl, Rounded eb mb 0
      (if signAt eb mb old = signAt eb mb b then signAt eb mb old else false) (value eb mb old + value eb mb b) new fl)

/-- An atomic or reduction in flight that may be performed. -/
structure OneAtomic (s : State) (th : Thread) (a : AtomReq) (i : Instr) : Prop where
  here : s.threads.find a.tid = some th
  flight : i ∈ s.pool
  ready : atomReady s a = true
  clean : s.ecc = []
  size : a.n ∈ [1, 2, 4, 8] ∧ (a.fn = .fadd → a.n = 4 ∨ a.n = 8) ∧ a.ea.toNat % a.n = 0
  operands : a.b.toNat < 2 ^ (8 * a.n) ∧ a.c.toNat < 2 ^ (8 * a.n)

/-- What an access that leaves no bytes finds at the home die of a page without a translation (R398). -/
def HeldAtHome (t : State) (die : Nat) (asid : W16) (i : Instr) : Prop :=
  ∃ h ∈ (t.die die).held, h.asid = asid ∧ h.ev = i

/-- A failure reported at the thread's next word (R141): cause and address; the supervisor takes it with IH = 1 or behind
another report. -/
def Reports (th u : Thread) (c : Cause) (a : W64) : Prop :=
  u.mo.deferred = th.mo.deferred ++ [(c, a, th.ih || !th.mo.deferred.isEmpty)]

end Sys2Proof.Claims

namespace Sys2Proof.Claims

open Sys2Proof.Machine

/-- LOAD_COMPLETION (R141, R144, R151, R282, R307): the register gets the bytes, zero-extended, and is full: those of the
scratchpad; those of the core's L1 copy for a plain load; else those of the cluster store buffer over those at the home. A
failure gives zero and a deferred report, at a home die that has failed with cause 0x12 (R462); a page without a translation
holds the load.
Complete here: `loadCompletion`. -/
def LoadsComplete : Prop :=
  ∀ (s : State) (th : Thread) (r : LoadReq) (a : W64) (n : Nat), OneLoad s th r a n →
  (∀ c off, names r.core a.toNat = some (.sp c off) → s.ownerCheck r.core c r.asid off n true = none →
    Next (.loadCompletion r) s fun t => Quiet s t (.loadCompletion r) r.tid ∧
      ∃ u, t.threads.find r.tid = some u ∧ Delivered r th u (number (fun k => readByte s.mem (spKey c off + k)) n) ∧ u.mo = th.mo) ∧
  (∀ c off cause, names r.core a.toNat = some (.sp c off) → s.ownerCheck r.core c r.asid off n true = some cause →
    Next (.loadCompletion r) s fun t => Quiet s t (.loadCompletion r) r.tid ∧
      ∃ u, t.threads.find r.tid = some u ∧ Delivered r th u 0 ∧ Reports th u cause a) ∧
  (∀ space va l, names r.core a.toNat = some (.glob space va) → r.level = .plain →
    copyInL1 s r.core r.asid space va n = some l →
    Next (.loadCompletion r) s fun t => Quiet s t (.loadCompletion r) r.tid ∧
      ∃ u, t.threads.find r.tid = some u ∧
        (copyFails l (va % 64) n = false → Delivered r th u (number (fun k => BitVec.ofNat 8 (l.data.toNat / 256 ^ (va % 64 + k))) n)) ∧
        -- an error in a copy that is not clean (R205)
        (copyFails l (va % 64) n = true → Delivered r th u 0 ∧ Reports th u .memError a)) ∧
  (∀ space va x, names r.core a.toNat = some (.glob space va) → s.xlate r.asid space va false = .ok x →
    (s.die (homeDie space va)).failed = false → (r.level = .plain → copyInL1 s r.core r.asid space va n = none) →
    let key := x.key (homeDie space va) va
    -- the entries of the line in its cluster's buffer, which a wider acquire does not read; the latest that holds a byte gives it
    let entries := if r.level = .acquire 2 ∨ r.level = .acquire 3 then [] else s.csbAll (r.core / 8) r.asid (a.toNat / 64)
    let byte : Nat → W8 := fun k => match entries.reverse.find? fun e => e.mask.getLsbD (va % 64 + k) with
      | some e => BitVec.ofNat 8 (e.data.toNat / 256 ^ (va % 64 + k))
      | none => readByte s.mem (key + k)
    Next (.loadCompletion r) s fun t => Quiet s t (.loadCompletion r) r.tid ∧
      ∃ u, t.threads.find r.tid = some u ∧ Delivered r th u (number byte n)) ∧
  (∀ space va, names r.core a.toNat = some (.glob space va) → (s.die (homeDie space va)).failed = true →
    (r.level = .plain → copyInL1 s r.core r.asid space va n = none) →
    Next (.loadCompletion r) s fun t => Quiet s t (.loadCompletion r) r.tid ∧
      ∃ u, t.threads.find r.tid = some u ∧ Delivered r th u 0 ∧ Reports th u .memError a) ∧
  (∀ space va e, names r.core a.toNat = some (.glob space va) → s.xlate r.asid space va false = .error e →
    (s.die (homeDie space va)).failed = false → (r.level = .plain → copyInL1 s r.core r.asid space va n = none) →
    Next (.loadCompletion r) s fun t => t.threads = s.threads ∧ t.mem = s.mem ∧
      HeldAtHome t (homeDie space va) r.asid (.loadCompletion r))

end Sys2Proof.Claims

namespace Sys2Proof.Claims

open Sys2Proof.Machine

/-- STORE_PERFORM_AT_HOME (R141, R145, R280): the owner writes the bytes, or the failure is a deferred report and no byte
changes; the peer write is counted off. A store to global memory enters its cluster's buffer (R281, R299): its bytes, and no
others, of the line's entry that takes stores, memory unchanged. STORE_BUFFER_DRAIN (R281): the entry's bytes are written at its
home, no others, and the entry is gone; without a translation it stays and is held, and takes no more stores; at a home die that
has failed no byte is written (R462).
Complete here: `storePerformAtHome`, `storeBufferDrain`. -/
def StoresPerform : Prop :=
  (∀ (s : State) (th : Thread) (r : StoreReq) (p : SPart) (c off : Nat), s.threads.find r.tid = some th →
    Instr.storePerformAtHome r ∈ s.pool → storeReady s r = true → r.parts = [p] → th.mo.failing = [] →
    ({ s with pool := s.pool.erase (.storePerformAtHome r) } : State).accessOpen r.tid r.id = false → names r.core p.ea.toNat = some (.sp c off) →
    Next (.storePerformAtHome r) s fun t => t.pool = s.pool.erase (.storePerformAtHome r) ∧ t.fe = s.fe ∧
      (∀ k, k ≠ r.tid → t.threads.find k = s.threads.find k) ∧
      ∃ u, t.threads.find r.tid = some u ∧ u.c = th.c ∧ u.mo.peerWr = th.mo.peerWr - 1 ∧
        match s.ownerCheck r.core c r.asid off p.n false with
        | none => Stored s t (spKey c off) p.n p.data.toNat ∧ u.mo.deferred = th.mo.deferred
        | some cause => t.mem = s.mem ∧ Reports th u cause p.ea) ∧
  (∀ (s : State) (th : Thread) (r : StoreReq) (p : SPart) (space va : Nat), s.threads.find r.tid = some th →
    Instr.storePerformAtHome r ∈ s.pool → storeReady s r = true → r.parts = [p] → th.mo.failing = [] →
    names r.core p.ea.toNat = some (.glob space va) → p.ea.toNat % 64 + p.n ≤ 64 →
    Next (.storePerformAtHome r) s fun t => t.threads = s.threads ∧ t.mem = s.mem ∧ t.fe = s.fe ∧
      let old := s.csbFind (r.core / 8) r.asid (p.ea.toNat / 64)
      ∃ f, t.csbFind (r.core / 8) r.asid (p.ea.toNat / 64) = some f ∧ (r.tid, r.id) ∈ f.writers ∧ r.core ∈ f.cores ∧
        (old = none → Instr.storeBufferDrain (r.core / 8) f.id ∈ t.pool) ∧ ∀ k, k < 64 →
          if p.ea.toNat % 64 ≤ k ∧ k < p.ea.toNat % 64 + p.n then
            f.mask.getLsbD k = true ∧ f.data.toNat / 256 ^ k % 256 = p.data.toNat / 256 ^ (k - p.ea.toNat % 64) % 256
          else match old with
            | some g => f.mask.getLsbD k = g.mask.getLsbD k ∧ f.data.toNat / 256 ^ k % 256 = g.data.toNat / 256 ^ k % 256
            | none => f.mask.getLsbD k = false) ∧
  (∀ (s : State) (cl id : Nat) (e : CsbEntry) (space va : Nat), Instr.storeBufferDrain cl id ∈ s.pool →
    drainReady s cl id = true → drainEntry s cl id = some e → e.cores.Nodup → names (cl * 8) (e.va * 64) = some (.glob space va) →
    ((s.die (homeDie space va)).failed = true → Next (.storeBufferDrain cl id) s fun t => t.mem = s.mem ∧
      (t.cluster cl).csb = (s.cluster cl).csb.filter (fun f => decide (f.id ≠ id)) ∧
      ∀ k th, s.threads.find k = some th → ∃ u, t.threads.find k = some u ∧ u.c = th.c) ∧
    (∀ x, (s.die (homeDie space va)).failed = false → s.xlate e.asid space va true = .ok x → Next (.storeBufferDrain cl id) s fun t =>
      let line := x.key (homeDie space va) va / 64 * 64
      (∀ k, k < 64 → ¬ OvfByte s (line + k) → readByte t.mem (line + k) =
        if e.mask.getLsbD k then BitVec.ofNat 8 (e.data.toNat / 256 ^ k) else readByte s.mem (line + k)) ∧
      (∀ a, ¬ (line ≤ a ∧ a < line + 64) → readByte t.mem a = readByte s.mem a) ∧ t.fe = s.fe ∧
      (t.cluster cl).csb = (s.cluster cl).csb.filter (fun f => decide (f.id ≠ id)) ∧
      ∀ k th, s.threads.find k = some th → ∃ u, t.threads.find k = some u ∧ u.c = th.c) ∧
    (∀ x, (s.die (homeDie space va)).failed = false → s.xlate e.asid space va true = .error x → Next (.storeBufferDrain cl id) s fun t =>
      t.mem = s.mem ∧ t.threads = s.threads ∧
      (t.cluster cl).csb = (s.cluster cl).csb.map (fun f => if f.id = id then { f with draining := true } else f) ∧
        HeldAtHome t (homeDie space va) e.asid (.storeBufferDrain cl id)))

end Sys2Proof.Claims

/-- Loads complete and stores perform at their homes: `LoadsComplete`, `StoresPerform` above. -/
def Obligations.LoadsAndStoresPerform : Prop := Sys2Proof.Claims.LoadsComplete ∧ Sys2Proof.Claims.StoresPerform

namespace Sys2Proof.Claims

open Sys2Proof.Machine

/-- ATOMIC_AT_HOME and REMOTE_UPDATE (R29, R157, R158, R159): at the home the bytes become f(old, b, c) indivisibly and no
others change; the atomic's register gets the old value and is full, a reduction's thread gets nothing. A failure changes no byte
and is a deferred report, the register zero; so does a home die that has failed (R462).
Complete here: `atomicAtHome`, `remoteUpdate`. -/
def AtomicsPerform : Prop :=
  ∀ (s : State) (th : Thread) (a : AtomReq), ∀ e ∈ [(Instr.atomicAtHome a, true), (.remoteUpdate a, false)], OneAtomic s th a e.1 →
    let got : Nat → Ctx := fun v => if e.2 then (th.setX a.d (BitVec.ofNat 64 v)).c else th.c
    (∀ c off, names a.core a.ea.toNat = some (.sp c off) →
      match s.ownerCheck a.core c a.asid off a.n false with
      | none => Next e.1 s fun t => ∃ u new, t.threads.find a.tid = some u ∧ u.c = got (s.rd (spKey c off) a.n) ∧
          Combined a.fn a.n (s.rd (spKey c off) a.n) a.b.toNat a.c.toNat new ∧ Stored s t (spKey c off) a.n new ∧
          t.fe = s.fe ∧ ∀ k, k ≠ a.tid → t.threads.find k = s.threads.find k
      | some cause => Next e.1 s fun t => ∃ u, t.threads.find a.tid = some u ∧ u.c = got 0 ∧ Reports th u cause a.ea ∧
          t.mem = s.mem) ∧
    (∀ space va, names a.core a.ea.toNat = some (.glob space va) → (s.die (homeDie space va)).failed = true →
      Next e.1 s fun t => ∃ u, t.threads.find a.tid = some u ∧ u.c = got 0 ∧ Reports th u .memError a.ea ∧ t.mem = s.mem) ∧
    (∀ space va x, names a.core a.ea.toNat = some (.glob space va) → (s.die (homeDie space va)).failed = false →
      s.xlate a.asid space va true = .ok x →
      let key := x.key (homeDie space va) va
      Next e.1 s fun t => ∃ u new, t.threads.find a.tid = some u ∧ u.c = got (s.rd key a.n) ∧
        Combined a.fn a.n (s.rd key a.n) a.b.toNat a.c.toNat new ∧ StoredHome s t key a.n new ∧ t.fe = s.fe ∧
        ∀ k, k ≠ a.tid → t.threads.find k = s.threads.find k) ∧
    (∀ space va x, names a.core a.ea.toNat = some (.glob space va) → (s.die (homeDie space va)).failed = false →
      s.xlate a.asid space va true = .error x →
      Next e.1 s fun t => t.mem = s.mem ∧ t.threads = s.threads ∧ HeldAtHome t (homeDie space va) a.asid e.1)

end Sys2Proof.Claims

/-- Atomics and reductions, at issue and at their homes: `AtomicsIssue`, `AtomicsPerform` above. -/
def Obligations.AtomicsAndReductions : Prop := Sys2Proof.Claims.AtomicsIssue ∧ Sys2Proof.Claims.AtomicsPerform

namespace Sys2Proof.Claims

open Sys2Proof.Machine

/-- RELEASE_PROBE_ECHO (R311) takes its probe off the thread's release; SIGNATURE_PLACEMENT (R309): the arbiter gives the
signature the next place and the L1s of the die, from package scope on of the package, lose every line
that it or the lines the thread has read hit, and no other (a release is cumulative, R151).
Complete here: `signaturePlacement`, `releaseProbeEcho`. -/
def ReleaseSteps : Prop :=
  (∀ (s : State) (t : Tid) (th : Thread) (p : ProbeTo) (r : Release), s.threads.find t = some th → th.mo.rel = some r →
    Instr.releaseProbeEcho t p ∈ s.pool → s.echoReady t th p = true → Next (.releaseProbeEcho t p) s fun n =>
      n = ({ s with pool := s.pool.erase (.releaseProbeEcho t p) } : State).setThread t
        { th with mo := { th.mo with rel := some { r with probes := r.probes.erase p } } }) ∧
  (∀ (s : State) (t : Tid) (th : Thread) (sc : BitVec 2) (r : Release), s.threads.find t = some th → th.mo.rel = some r →
    Instr.signaturePlacement t sc ∈ s.pool → placeReady s t sc = true → Next (.signaturePlacement t sc) s fun n =>
      n.mem = s.mem ∧ n.pkg.place = s.pkg.place + 1 ∧
      -- other threads stay, but for the squash that a region which has read a line of the signature is due (R336)
      (∀ k u, k ≠ t → s.threads.find k = some u → ∃ v, n.threads.find k = some v ∧ v.c = u.c ∧ v.run = u.run ∧
        ((∀ g, u.region = some g → (sigSet th.mo.wsig).meets g.reads = false) → v = u)) ∧
      n.threads.find t = some { th with mo := { th.mo with rel := some { r with placed := true } } } ∧
      ∀ c l, l ∈ (n.core c).m.l1 ∧ l.leaving = false ↔ l ∈ (s.core c).m.l1 ∧ l.leaving = false ∧
        ¬ ((2 ≤ sc.toNat ∨ c / 128 = th.core / 128) ∧ sigHits (th.mo.wsig ||| th.mo.rsig) l.line = true))

end Sys2Proof.Claims

namespace Sys2Proof.Claims

open Sys2Proof.Machine

/-- SYNC_ACCESS_SERVE (R152): with its words in the state it waits for, an `ldsy` gets the value, zero-extended, and leaves the
words empty, a `stsy` writes its bytes, no others, and leaves them full; no other full/empty bit changes. An error at the owner
is precise and changes neither word, bit nor register. SYNC_RETRY_LIMIT (R153): cause 0x0D and the address, word, bit and
register unchanged.
Complete here: `syncAccessServe`, `syncRetryLimit`. -/
def SyncSteps : Prop :=
  ∀ (s : State) (th : Thread) (r : SyncReq), s.threads.find r.tid = some th → r.n ∈ [4, 8] → r.off % r.n = 0 →
  Instr.syncAccessServe r ∈ s.pool → s.ecc = [] →
  (syncReady s r = true → s.ownerCheck th.core r.owner r.asid r.off r.n false = none → Next (.syncAccessServe r) s fun t =>
    (∃ u, t.threads.find r.tid = some u ∧ u.mo.acquired = true ∧
      u.c = if r.store then th.c else (th.setX r.d (BitVec.ofNat 64 (s.rd (spKey r.owner r.off) r.n))).c) ∧
    (r.store = false → t.mem = s.mem) ∧ (r.store = true → Stored s t (spKey r.owner r.off) r.n r.data.toNat) ∧
    (∀ k, k < r.n → t.feFull r.owner (r.off + k) = r.store) ∧
    (∀ c o, ¬ (c = r.owner ∧ r.off / 4 ≤ o / 4 ∧ o / 4 < (r.off + r.n) / 4) → c < 512 → r.owner < 512 → o < 655360 → r.off < 655360 →
      t.feFull c o = s.feFull c o) ∧ ∀ k, k ≠ r.tid → t.threads.find k = s.threads.find k) ∧
  (∀ c, s.ownerCheck th.core r.owner r.asid r.off r.n false = some c → th.region = none → th.det = false → th.gm = false →
    Next (.syncAccessServe r) s fun t => t.mem = s.mem ∧ t.fe = s.fe ∧ ∃ u, t.threads.find r.tid = some u ∧ u.c.x = th.c.x ∧
      (th.c.evec.getLsbD 63 = true → th.ih = false → c.toUser = true →
        u.c.ecause = 0#8 ++ c.code ∧ u.c.eval = r.ea ∧ u.c.epc = th.c.img ++ th.c.pc)) ∧
  -- a member of a formed gang traps at the gang's next turn (R163)
  (∀ c, s.ownerCheck th.core r.owner r.asid r.off r.n false = some c → th.gm = true →
    Next (.syncAccessServe r) s fun t => t.mem = s.mem ∧ t.fe = s.fe ∧ ∃ u, t.threads.find r.tid = some u ∧ u.c.x = th.c.x ∧
      u.mo.syncErr = some c ∧ u.c.pc = th.c.pc) ∧
  (Instr.syncRetryLimit r ∈ s.pool → r.since + r.lim ≤ s.cycle → syncReady s r = false → th.gm = true →
    Next (.syncRetryLimit r) s fun t => t.mem = s.mem ∧ t.fe = s.fe ∧ ∃ u, t.threads.find r.tid = some u ∧ u.c.x = th.c.x ∧
      u.mo.syncErr = some .syncLimit ∧ u.c.pc = th.c.pc) ∧
  (Instr.syncRetryLimit r ∈ s.pool → r.since + r.lim ≤ s.cycle → syncReady s r = false → th.region = none → th.det = false →
    th.gm = false →
    Next (.syncRetryLimit r) s fun t => t.mem = s.mem ∧ t.fe = s.fe ∧
      ∃ u, t.threads.find r.tid = some u ∧ u.c.x = th.c.x ∧
        (th.c.evec.getLsbD 63 = true → th.ih = false →
          u.c.ecause = 0x000D ∧ u.c.eval = r.ea ∧ u.c.epc = th.c.img ++ th.c.pc))

end Sys2Proof.Claims

/-- Sync accesses, fences and releases, at issue and when served: `SyncFencesAndGo`, `ReleaseSteps`, `SyncSteps` above. -/
def Obligations.SyncFencesAndReleases : Prop := Sys2Proof.Claims.SyncFencesAndGo ∧ Sys2Proof.Claims.ReleaseSteps ∧ Sys2Proof.Claims.SyncSteps

namespace Sys2Proof.Claims

open Sys2Proof.Machine

/-- Migration (R17, R27, R28, R162): `go` and an access of a mobile thread whose home is another core make it wait to depart,
its PC at the access, for `go` after it; it departs when its producers have filled, its writes are acknowledged and its ring
operations performed (R425), its touched-bank mask cleared; it arrives in a free context with the light context it left with, or in
the arrival queue; one whose probe is still held is parked for it (R392).
Complete here: `migrationDeparture`, `migrationArrival`. -/
def Migration : Prop :=
  (∀ (s : State) (th : Thread) (c off : Nat) (a : W64), s.Plain th → th.region = none → th.rg = false → th.gm = false →
    th.mob = true → th.ih = false → names th.core a.toNat = some (.sp c off) → c ≠ th.core →
    (∀ o : Mem, th.Ready [o.sb] (filled o.sd o.sz) → memAddress th o.sb o.sz o.off = a →
      exec (.ld o) s = .next ((s.setThread s.cur { th with run := .departing c, bslot := none, bound := none }).push
        (.migrationDeparture s.cur c))) ∧
    (∀ sa, th.Ready [sa] [] → th.src sa = a →
      exec (.go sa) s = .next ((s.setThread s.cur { th.retire with run := .departing c, bslot := none, bound := none }).push
        (.migrationDeparture s.cur c)))) ∧
  (∀ (s : State) (t : Tid) (th : Thread) (dest : Nat), s.threads.find t = some th → Instr.migrationDeparture t dest ∈ s.pool →
    th.mo.deferred = [] → s.producersDone t th = true → s.acked t th 2 = true → s.ringQueued t = false → (s.core th.core).k.arrivals = [] →
    Next (.migrationDeparture t dest) s fun n => n.mem = s.mem ∧
      n.threads.find t = some { th with run := .travelling dest, mo := { th.mo with tbm := 0, tbmd := 0, peerWr := 0 } } ∧
      ∃ ctx, n.pool = s.pool.erase (.migrationDeparture t dest) ++ [.migrationArrival ⟨t, dest, ctx, s.nextId⟩] ∧
        (∀ k : BitVec 4, ctx.extractLsb' (64 * k.toNat) 64 = th.x k) ∧ ctx.extractLsb' 1024 16 = th.c.fe ∧
        ctx.extractLsb' 1040 16 = (th.c.pred ||| 1) ∧ ctx.extractLsb' 1056 32 = th.c.pc ∧ ctx.extractLsb' 1088 16 = th.c.img ∧
        ctx.extractLsb' 1104 16 = th.c.asid ∧ ctx.extractLsb' 1120 16 = th.c.lid ∧ ctx.extractLsb' 1136 16 = 0 ∧
        ctx.extractLsb' 1152 32 = th.c.ord ∧ ctx.extractLsb' 1184 32 = th.c.status ∧ ctx.extractLsb' 1216 64 = th.c.hint) ∧
  (∀ (s : State) (m : MigMsg) (th : Thread), s.threads.find m.tid = some th → Instr.migrationArrival m ∈ s.pool →
    -- nothing that the core has sent before is still on its way there (R305)
    s.inOrder th.core m.id [corePort m.dest] = true →
    (∀ i, s.freeCtx m.dest = some i → Next (.migrationArrival m) s fun n => n.mem = s.mem ∧
      ∃ u, n.threads.find m.tid = some u ∧ u.core = m.dest ∧ u.cidx = i ∧
        u.run = (if th.mo.probe.isSome then .parked .translation else .ready s.cycle) ∧
        (∀ k : BitVec 4, u.x k = m.ctx.extractLsb' (64 * k.toNat) 64) ∧ u.c.fe = m.ctx.extractLsb' 1024 16 ∧
        (∀ k : BitVec 4, k ≠ 0 → u.p k = m.ctx.getLsbD (1040 + k.toNat)) ∧ u.c.pc = m.ctx.extractLsb' 1056 32 ∧
        u.c.img = m.ctx.extractLsb' 1088 16 ∧ u.c.status = m.ctx.extractLsb' 1184 32 ∧ u.c.hint = m.ctx.extractLsb' 1216 64 ∧
        u.c.evec = th.c.evec ∧ u.c.epc = th.c.epc) ∧
    (s.freeCtx m.dest = none → (s.core m.dest).k.arrivals.length < 16 → Next (.migrationArrival m) s fun n =>
      n.threads = s.threads ∧ n.mem = s.mem ∧ (n.core m.dest).k.arrivals = (s.core m.dest).k.arrivals ++ [m]))

end Sys2Proof.Claims

namespace Sys2Proof.Claims

open Sys2Proof.Machine

/-- TRANSLATION_PROBE (R392, R398): the core gets the translation and the thread goes on, or the probe is held at the home die,
and with it a mobile thread departs for the home core of the table entry at which the walk stopped;
WRITE_LOG_APPEND (R316) takes the oldest record off the core's buffer into the ASID's log, or is held for the log's page (R398); DIRTY_LOG_MERGE (R401) empties the core's dirty log;
BANK_WAKE_END (R192): the bank's words are zero and full and it is no longer gated or waking, every other byte and bit as before.
Complete here: `bankWakeEnd`, `writeLogAppend`, `dirtyLogMerge`, `translationProbe`. -/
def TranslationLogsAndBanks : Prop :=
  (∀ (s : State) (t : Tid) (th : Thread) (a : W64) (wr : Bool) (space va : Nat), s.threads.find t = some th →
    Instr.translationProbe t ∈ s.pool → th.mo.probe = some (a, wr) → th.mo.probeFail = false → th.moving = false → names th.core a.toNat = some (.glob space va) →
    (∀ x, s.xlate th.c.asid space va wr = .ok x → Next (.translationProbe t) s fun n => n.mem = s.mem ∧
      (∃ u, n.threads.find t = some u ∧ u.c = th.c ∧ u.mo.probe = none ∧
        (th.run = .parked .translation → u.run = .ready s.cycle)) ∧ (n.core th.core).m.tcache.any x.same = true) ∧
    (∀ e, s.xlate th.c.asid space va wr = .error e →
      let dest := coreBeside (homeDie space va) (sliceOf (e % 2 ^ 38))
      (th.migrates = false ∨ th.core = dest ∨ s.xlateWaits th.c.asid space va = true → Next (.translationProbe t) s fun n => n.mem = s.mem ∧ n.threads = s.threads ∧
        HeldAtHome n (homeDie space va) th.c.asid (.translationProbe t)) ∧
      (th.migrates = true → th.core ≠ dest → th.run = .parked .translation → s.xlateWaits th.c.asid space va = false →
        Next (.translationProbe t) s fun n =>
        n.mem = s.mem ∧ Instr.migrationDeparture t dest ∈ n.pool ∧ HeldAtHome n (homeDie space va) th.c.asid (.translationProbe t) ∧
        ∃ u, n.threads.find t = some u ∧ u.c = th.c ∧ u.run = .departing dest ∧ u.mo.probe = some (a, wr)))) ∧
  (∀ (s : State) (core : Nat) (r : WlogRec) (l : List WlogRec), Instr.writeLogAppend core ∈ s.pool →
    (s.core core).m.wlog = r :: l →
    let held : Prop := Next (.writeLogAppend core) s fun n => (n.core core).m = (s.core core).m ∧ n.threads = s.threads ∧
      n.mem = s.mem ∧ ∃ d, HeldAtHome n d r.asid (.writeLogAppend core)
    let taken : (State → Prop) → Prop := fun p => Next (.writeLogAppend core) s fun n => (n.core core).m.wlog = l ∧
      n.threads = s.threads ∧ n.fe = s.fe ∧ p n
    match s.wlogDesc (core / 128) r.asid with
    | .none => taken fun n => n.mem = s.mem
    | .fault _ _ => held
    | .at_ k =>
      let size := s.rd (k + 8) 4
      let head := s.rd (k + 12) 4
      let at_ := names 0 ((s.rd k 8 + 16 * (head % size)) % 2 ^ 64)
      (s.rd (k + 20) 1 % 2 = 0 → taken fun n => n.mem = s.mem) ∧
      (s.rd (k + 20) 1 % 2 = 1 → size ≠ 0 → size ≤ (head + 2 ^ 32 - s.rd (k + 16) 4) % 2 ^ 32 → taken fun n =>
        n.rd (k + 20) 1 = s.rd (k + 20) 1 ||| 2 ∧ ∀ a, a ≠ k + 20 → readByte n.mem a = readByte s.mem a) ∧
      (s.rd (k + 20) 1 % 2 = 1 → size ≠ 0 → (head + 2 ^ 32 - s.rd (k + 16) 4) % 2 ^ 32 < size → ∀ space va, at_ = some (.glob space va) →
        (∀ e, s.xlate r.asid space va true = .error e → held) ∧
        (∀ x, s.xlate r.asid space va true = .ok x → let key := x.key (homeDie space va) va
          (key + 16 ≤ k + 12 ∨ k + 16 ≤ key) → r.lines < 2 ^ 32 → core < 2 ^ 32 → taken fun n =>
          n.rd key 8 = r.start.toNat ∧ n.rd (key + 8) 8 = r.lines - 1 + core * 2 ^ 32 ∧ n.rd (k + 12) 4 = (head + 1) % 2 ^ 32))) ∧
  (∀ (s : State) (core : Nat), Instr.dirtyLogMerge core ∈ s.pool → Next (.dirtyLogMerge core) s fun n =>
    (n.core core).m.dlog = [] ∧ n.threads = s.threads ∧ n.fe = s.fe ∧ ((s.core core).m.dlog = [] → n.mem = s.mem) ∧
    -- only the D bit of a leaf is written
    ∀ a, readByte n.mem a = readByte s.mem a ∨ readByte n.mem a = readByte s.mem a ||| 16) ∧
  (∀ (s : State) (core b d : Nat), Instr.bankWakeEnd core b ∈ s.pool → (s.core core).m.waking.find b = some d → d ≤ s.cycle →
    Next (.bankWakeEnd core b) s fun n =>
      let base := spKey core (40960 * b)
      (∀ k, k < 40960 → readByte n.mem (base + k) = 0 ∧ n.feFull core (40960 * b + k) = true) ∧
      (∀ a, ¬ (base ≤ a ∧ a < base + 40960) → readByte n.mem a = readByte s.mem a) ∧
      (n.bankReg core b).getLsbD 4 = false ∧ (n.bankReg core b).getLsbD 5 = false ∧ n.threads = s.threads ∧
      ∀ k, k < 32 → k ≠ 4 → k ≠ 5 → (n.bankReg core b).getLsbD k = (s.bankReg core b).getLsbD k)

end Sys2Proof.Claims

/-- Migration, translation probes, logs and banks: `Migration`, `TranslationLogsAndBanks` above. -/
def Obligations.MigrationTranslationAndLogs : Prop := Sys2Proof.Claims.Migration ∧ Sys2Proof.Claims.TranslationLogsAndBanks

namespace Sys2Proof.Claims

open Sys2Proof.Machine

/-- The group of `n` cores that holds a core begins here (R288). -/
def groupOf (core n : Nat) : Nat := core - core % 8 % n

/-- A gang is pending or formed in a slot, whose group has a core in common with this one (R289). -/
def gangThere (s : State) (core n slot : Nat) : Prop :=
  ∃ e ∈ s.threads, ∃ g, e.2.gang = some g ∧ g.slot = slot ∧ groupOf e.2.core g.size < groupOf core n + n ∧
    groupOf core n < groupOf e.2.core g.size + g.size

/-- The word changes its own thread and one barrier tag, and no memory. -/
structure OnTag (s t : State) (n : Nat) (u : Thread) : Prop where
  threads : t.threads = (s.setThread s.cur u).threads
  tags : ∀ m, m ≠ n → t.tag m = s.tag m
  mem : t.mem = s.mem
  fe : t.fe = s.fe

/-- With the thread as `u`, THREADS threads of the core have registered and all have arrived for the open phase, and the core has
not yet sent its arrival (R295). -/
def LastOfCore (s : State) (n core : Nat) (u : Thread) : Prop :=
  (∃ p, (s.tag n).parts.find core = some p ∧ p.sent = false ∧ p.reg = p.threads ∧ 0 < p.threads) ∧
  ∀ e ∈ (s.setThread s.cur u).threads, ∀ r, e.2.bars.find n = some r → e.2.core = core →
    (r.arr - ((s.tag n).done + 1)).toNat < 2 ^ 31

end Sys2Proof.Claims

/-- `gang` (R164, R288, R289, R291): `form` is refused with status 1 or 2, or the thread waits in its slot with the gang pending;
`join` waits for a pending gang of its slot, is refused with status 1, or joins with status 0, its resume point the next word, and
the last join forms the gang; the formed gang's leader goes on with status 0 and every member in its stream with GM = 1;
`disband` has no effect outside a gang; `idx` is 0 there.
Complete here: `gangForm`, `gangJoin`, `gangDisband`, `gangIdx`. -/
def Obligations.Gangs : Prop :=
  ∀ (s : State) (th : Thread), Here s th → th.mob = false →
  (∀ (sa : BitVec 5) (sd : BitVec 4), th.Ready [sa] [sd] → th.gang = none → let n := (th.src sa).toNat
    let slot := th.bslot.getD 0
    let bad := n ∉ [2, 4, 8] ∨ (slot = 0 ∧ groupOf th.core n % 8 + n = 8)
    (bad → WritesX (.gangForm sa sd) s th sd 1) ∧
    (¬ bad → gangThere s th.core n slot → WritesX (.gangForm sa sd) s th sd 2) ∧
    (¬ bad → ¬ gangThere s th.core n slot → exec (.gangForm sa sd) s = .next (s.setThread s.cur { th with
      run := .parked .gangForm
      gang := some { leader := s.cur, size := n, slot := slot, formed := false, members := [s.cur] } }))) ∧
  (∀ (sa : BitVec 5) (sd : BitVec 4) (g : Gang), th.Ready [sa] [sd] → th.gang = some g → g.formed = true → s.cur ∈ g.members →
    Next (.gangForm sa sd) s fun t => t.mem = s.mem ∧ (∀ k, k ∉ g.members → t.threads.find k = s.threads.find k) ∧
      ∀ m v, m ∈ g.members → s.threads.find m = some v → ∃ u, t.threads.find m = some u ∧ u.gm = true ∧
        u.c.x = (if m = s.cur then (th.setX sd 0).c.x else v.c.x) ∧ u.c.pc = th.c.pc + 1 ∧ u.c.img = th.c.img ∧
        u.run = .slot (s.cycle + 16)) ∧
  (∀ (sa : BitVec 5) (sd : BitVec 4), th.Ready [sa] [sd] → th.gang = none →
    let core := th.core / 8 * 8 + (th.src sa).toNat % 8
    let slot := th.bslot.getD 0
    (s.pendingLeader core slot = none →
      exec (.gangJoin sa sd) s = .next (s.setThread s.cur { th with run := .parked (.gangJoin core) })) ∧
    (∀ lead g l, s.pendingLeader core slot = some (lead, g) → s.threads.find lead = some l →
      let taken := ∃ m ∈ g.members, ∃ u, s.threads.find m = some u ∧ u.core % g.size = th.core % g.size
      (groupBase core g.size ≠ groupBase th.core g.size ∨ taken → WritesX (.gangJoin sa sd) s th sd 1) ∧
      (groupBase core g.size = groupBase th.core g.size → ¬ taken → Next (.gangJoin sa sd) s fun t => t.mem = s.mem ∧
        let g1 := { g with members := g.members ++ [s.cur], formed := decide (g.members.length + 1 = g.size) }
        t.threads.find s.cur = some { th.retire.setX sd 0 with
          run := .parked (.gangJoin core), gang := some { g1 with resume := th.c.pc + 1, resumeImg := th.c.img } } ∧
        t.threads.find lead = some { l with gang := some g1, run := if g1.formed then .slot (s.cycle + 16) else l.run }))) ∧
  exec .gangDisband s = .next (s.setThread s.cur th.retire) ∧
  (∀ sd, th.full sd = true → WritesX (.gangIdx sd) s th sd 0)

namespace Sys2Proof.Claims

open Sys2Proof.Machine

/-- `bar` (R294, R295, R296, R297): `reg` writes its status and DONE + 1 and records CORES, THREADS and ARR; `arrive` counts an
arrival for ARR + 1 and returns it, or parks until its phase is at most two ahead; `wait` passes when DONE has reached the phase;
`arrw` does both, once; `drop` takes the registration off and lowers THREADS, and where the tag comes free every part of its
state returns to zero, the registrations of other threads too (R297). A thread that is not registered traps with cause
0x04 and 9.
Complete here: `barReg`, `barArrive`, `barWait`, `barArrw`, `barDrop`. -/
def Barriers : Prop :=
  ∀ (s : State) (th : Thread) (n : BitVec 3), Here s th → let tag := s.tag n.toNat
  (∀ (sa sb : BitVec 5) (sd : BitVec 4), th.mob = false → th.Ready [sa, sb] [sd] →
    let cores := (th.src sa).toNat
    let threads := (th.src sb).toNat
    let part := tag.parts.find th.core
    let off := ¬ (1 ≤ cores ∧ cores ≤ 512) ∨ ¬ (1 ≤ threads ∧ threads ≤ 64) ∨ (tag.owner ≠ none ∧ tag.cores ≠ cores) ∨
      ∃ p, part = some p ∧ p.threads ≠ threads
    let other := ∃ a, tag.owner = some a ∧ a ≠ th.c.asid
    let already := th.bars.find n.toNat ≠ none ∨ ∃ p, part = some p ∧ p.reg = p.threads
    let answer : W32 → W64 := fun st => (tag.done + 1) ++ st
    (off → WritesX (.barReg sa sb sd n) s th sd (answer 1)) ∧
    (¬ off → other → WritesX (.barReg sa sb sd n) s th sd (answer 2)) ∧
    (¬ off → ¬ other → already → WritesX (.barReg sa sb sd n) s th sd (answer 3)) ∧
    (¬ off → ¬ other → ¬ already → Next (.barReg sa sb sd n) s fun t =>
      OnTag s t n.toNat { th.retire.setX sd (answer 0) with bars := th.bars.set n.toNat { arr := tag.done } } ∧
      (t.tag n.toNat).owner = some th.c.asid ∧ (t.tag n.toNat).cores = cores ∧ (t.tag n.toNat).done = tag.done ∧
      ∃ q, (t.tag n.toNat).parts.find th.core = some q ∧ q.threads = threads ∧ q.reg = (part.getD {}).reg + 1)) ∧
  (th.bars.find n.toNat = none →
    (∀ sd, th.full sd = true → Traps (.barArrive sd n) s th .privilege 9 ∧ Traps (.barArrw sd n) s th .privilege 9) ∧
    (∀ sa, th.Ready [sa] [] → Traps (.barWait sa n) s th .privilege 9) ∧
    exec (.barDrop n) s = .next (s.setThread s.cur th.retire)) ∧
  (∀ r : BarReg, th.bars.find n.toNat = some r →
    let k := r.arr + 1
    (∀ sd, th.full sd = true →
      let arrived : Thread → State → Prop := fun u t => (t.tag n.toNat).done = tag.done ∧
        (LastOfCore s n.toNat th.core u → (t.tag n.toNat).counted = tag.counted + 1 ∧
          (tag.cores ≠ 0 → tag.cores ≤ tag.counted + 1 → tag.release = none →
            (t.tag n.toNat).release = some (s.cycle + 40) ∧ .barrierRelease n.toNat ∈ t.pool))
      (k = tag.done + 3 →
        exec (.barArrive sd n) s = .next (s.setThread s.cur (th.park (.barrier n.toNat (k - 2))))) ∧
      (k ≠ tag.done + 3 → Next (.barArrive sd n) s fun t => OnTag s t n.toNat
        { th.retire.setX sd (k.zeroExtend 64) with bars := th.bars.set n.toNat { r with arr := k } } ∧
        arrived { th with bars := th.bars.set n.toNat { r with arr := k } } t) ∧
      (r.arrw = none → k ≠ tag.done + 3 → Next (.barArrw sd n) s fun t =>
        let u := { th with bars := th.bars.set n.toNat { arr := k, arrw := some k } }
        OnTag s t n.toNat (u.park (.barrier n.toNat k)) ∧ arrived u t) ∧
      (∀ p, r.arrw = some p → (tag.done - p).toNat < 2 ^ 31 → exec (.barArrw sd n) s = .next (s.setThread s.cur
        { th.retire.setX sd (p.zeroExtend 64) with bars := th.bars.set n.toNat { r with arrw := none } }))) ∧
    (∀ sa, th.Ready [sa] [] → let p := (th.src sa).extractLsb' 0 32
      exec (.barWait sa n) s = .next (s.setThread s.cur
        (if (tag.done - p).toNat < 2 ^ 31 then th.retire else th.park (.barrier n.toNat p)))) ∧
    (∀ p, tag.parts.find th.core = some p → Next (.barDrop n) s fun t =>
      t.mem = s.mem ∧ (∀ m, m ≠ n.toNat → t.tag m = s.tag m) ∧
      t.threads.find s.cur = some { th.retire with bars := th.bars.erase n.toNat } ∧
      (¬ (p.threads ≤ 1 ∧ tag.cores ≤ 1) → OnTag s t n.toNat { th.retire with bars := th.bars.erase n.toNat }) ∧
      (1 < p.threads → ∃ q, (t.tag n.toNat).parts.find th.core = some q ∧ q.threads = p.threads - 1 ∧ q.reg = p.reg - 1) ∧
      (p.threads ≤ 1 → 1 < tag.cores → (t.tag n.toNat).cores = tag.cores - 1) ∧
      (p.threads ≤ 1 → tag.cores ≤ 1 → t.tag n.toNat = {} ∧ ∀ k v, k ≠ s.cur → s.threads.find k = some v →
        t.threads.find k = some (if (v.bars.find n.toNat).isSome then { v with bars := v.bars.erase n.toNat } else v))))

end Sys2Proof.Claims

namespace Sys2Proof.Claims

open Sys2Proof.Machine

/-- BARRIER_RELEASE (R294, R295): DONE rises by one for every core at once, and the arrivals that a core has already complete for
the next phase are counted.
Complete here: `barrierRelease`. -/
def BarrierReleases : Prop :=
  ∀ (s : State) (n c : Nat), Instr.barrierRelease n ∈ s.pool → (s.tag n).release = some c → c ≤ s.cycle →
    Next (.barrierRelease n) s fun t => t.threads = s.threads ∧ t.mem = s.mem ∧ (∀ m, m ≠ n → t.tag m = s.tag m) ∧
      (t.tag n).done = (s.tag n).done + 1 ∧ (t.tag n).cores = (s.tag n).cores ∧ (t.tag n).owner = (s.tag n).owner ∧
      ((∀ e ∈ (s.tag n).parts, s.allArrived n e.1 ((s.tag n).done + 1) = false) →
        (t.tag n).counted = 0 ∧ (t.tag n).release = none)

end Sys2Proof.Claims

/-- Barrier words and the release of a phase: `Barriers`, `BarrierReleases` above. -/
def Obligations.BarriersAndReleases : Prop := Sys2Proof.Claims.Barriers ∧ Sys2Proof.Claims.BarrierReleases

namespace Sys2Proof.Claims

open Sys2Proof.Machine

/-- The draw of R223: h after both passes and the fold, shifted; all modulo 2^32. -/
def drawPassNat (h : Nat) : Nat := (h ^^^ (h / 2 ^ 16)) * 0x45D9F3B5 % 2 ^ 32
def drawNat (key step : Nat) : Nat :=
  let k := key % 2 ^ 32 ^^^ (key / 2 ^ 32)
  let t := step % 2 ^ 32 ^^^ (step / 2 ^ 32)
  let h := drawPassNat (drawPassNat ((k + 0x9E3779B9 * ((t + 1) % 2 ^ 32)) % 2 ^ 32))
  (h ^^^ (h / 2 ^ 16)) / 2 ^ 8

/-- The checkpoint of R327 for a thread: what it holds. -/
def Checkpointed (s : State) (th : Thread) (cp : Checkpoint) : Prop :=
  cp.x = th.c.x ∧ cp.pred = th.c.pred ∧ cp.status = th.c.status &&& 0x3FFF ∧ cp.hint = th.c.hint ∧ cp.cvc = th.c.cvc ∧
    cp.pc = th.c.pc ∧ cp.img = th.c.img ∧ cp.masks = (s.slotState th.slotNo).m

/-- The thread is restored from a checkpoint (R327): every item, every scalar register full, RG = 0. -/
structure Restored (cp : Checkpoint) (th u : Thread) : Prop where
  x : u.c.x = cp.x
  fe : u.c.fe = 0xFFFF
  pred : u.c.pred = cp.pred
  cvc : u.c.cvc = cp.cvc
  region : u.region = none ∧ (cp.status.getLsbD 19 = false → u.rg = false)
  status : ∀ k, (k < 14 → u.c.status.getLsbD k = cp.status.getLsbD k) ∧
    (14 ≤ k → k ≠ 19 → cp.status.getLsbD k = false → u.c.status.getLsbD k = th.c.status.getLsbD k)
  trap : u.c.ecause = th.c.ecause ∧ u.c.epc = th.c.epc ∧ u.c.eval = th.c.eval ∧ u.c.evec = th.c.evec ∧ u.c.wake = th.c.wake ∧
    u.bars = th.bars

/-- The masks and vector registers of the slot that the thread is bound to are back (R321, R327): `vs` gives register `v` from what
the slot held; no other slot changes, and none where the thread is bound to none. -/
def SlotBack (s n : State) (th : Thread) (masks : Tab (BitVec 128)) (vs : Slot → Nat → BitVec 4096) : Prop :=
  (th.bound = none → n.slots = s.slots) ∧ ∀ b, th.bound = some b → let k := th.core * 16 + b
    (n.slotState k).m = masks ∧ (∀ v, (n.slotState k).v.getD v 0 = vs (s.slotState k) v) ∧ ∀ j, j ≠ k → n.slotState j = s.slotState j
/-- The registers as the region's checkpoint holds them: those that it has written, once each, and the others (R327, R329). -/
def regionVectors (r : Region) (k : Slot) (v : Nat) : BitVec 4096 := (r.vsaved.find v).getD (k.v.getD v 0)
/-- A region has saved no register twice. -/
def SavedOnce (r : Region) : Prop := (r.vsaved.map Prod.fst).Nodup

/-- The bytes of a held line at its home: the first byte's key. -/
def homeOfHeld (s : State) (th : Thread) (l : HeldLine) : Option Nat :=
  match names th.core (l.va * 64) with
  | some (.sp c off) => some (spKey c off)
  | some (.glob space va) => match s.xlate th.c.asid space va true with
    | .ok x => some (x.key (homeDie space va) va / 64 * 64)
    | .error _ => none
  | none => none

/-- The held lines are at their homes, and no other byte has changed (R321, R335). -/
def Published (s t : State) (th : Thread) (h : List HeldLine) : Prop :=
  (∀ l ∈ h, ∀ k, homeOfHeld s th l = some k → ∀ i, i < 64 → l.mask.getLsbD i = true → ¬ OvfByte s (k + i) →
    readByte t.mem (k + i) = BitVec.ofNat 8 (l.data.toNat / 256 ^ i)) ∧
  (∀ a, (∀ l ∈ h, ∀ k, homeOfHeld s th l = some k → ∀ i, i < 64 → l.mask.getLsbD i = true → a ≠ k + i) →
    readByte t.mem a = readByte s.mem a)

/-- The home die has not failed (R462), and its TLB holds a translation of the page that may be written and asks for no log record
(R316). -/
def InTlb (s : State) (asid : W16) (space va : Nat) : Prop :=
  (s.die (homeDie space va)).failed = false ∧ ∃ x, (s.die (homeDie space va)).tlb.find? (fun x => x.asid == asid && x.space.toNat == space &&
    va / pageBytes x.size == x.vpage / pageBytes x.size) = some x ∧ x.entry.getLsbD 2 = true ∧
    x.entry.getLsbD 3 = false

/-- Each held line lies in a scratchpad whose owner refuses none of its bytes (R141) or in a page of the TLB, no two have one
home, and the core's logs are empty enough that nothing is written to them. -/
structure Homed (s : State) (th : Thread) (h : List HeldLine) : Prop where
  logs : (s.core th.core).m.wlog = [] ∧ (s.core th.core).m.dlog.length + h.length ≤ 64
  all : ∀ l ∈ h, (∃ c off, names th.core (l.va * 64) = some (.sp c off) ∧ s.heldBad th.core c th.c.asid off l = []) ∨
    ∃ space va, names th.core (l.va * 64) = some (.glob space va) ∧ InTlb s th.c.asid space va
  once : h.Pairwise fun l m => homeOfHeld s th l ≠ homeOfHeld s th m

/-- The region publishes (R333): its ratio, scaled where its launch's annealing unit is on, against its draw. -/
def Publishes (scaled : Nat) (u : Nat) : Prop :=
  ¬ isNaN 8 23 scaled ∧ signAt 8 23 scaled = false ∧
    (isInf 8 23 scaled ∨ (isFinite 8 23 scaled ∧ (1 ≤ value 8 23 scaled ∨ (u : ℝ) / 2 ^ 24 < value 8 23 scaled)))

/-- The annealing unit after a validated commit (R344). -/
def annealed (a : Anneal) (published : Bool) : Anneal :=
  let wcnt := a.wcnt + 1
  let wpub := if published then a.wpub + 1 else a.wpub
  let off := if published then a.offset.toNat * a.decay.toNat / 65536 % 2 ^ 16 else a.offset.toNat
  if a.window ≠ 0 ∧ wcnt = a.window then
    { a with offset := BitVec.ofNat 16 (if wpub.toNat < a.thresh.toNat then min (off + a.step.toNat) 0xFFFF else off),
             wcnt := 0, wpub := 0 }
  else { a with offset := BitVec.ofNat 16 off, wcnt := wcnt, wpub := wpub }

end Sys2Proof.Claims

namespace Sys2Proof.Claims

open Sys2Proof.Machine

/-- `ar` (R223, R326, R327, R329, R332, R337, R339): `begin`, its producers filled and its release over, opens the region over a
checkpoint and its step id, with status 0; `draw` is the draw of the launch's seed and the step id as FP32; `abort` restores the
checkpoint but the latch and goes on after the `ar.begin` with status 4; `status` is LAST with RG in bit 48. Outside a region `abort`
and `draw` trap with cause 0x04 and 0xB, and inside one `begin` traps with 6.
Complete here: `arBegin`, `arAbort`, `arDraw`, `arStatus`. -/
def RegionWords : Prop :=
  (∀ (s : State) (th : Thread) (sa : BitVec 5) (sd : BitVec 4), Here s th → th.ih = false → th.Ready [sa] [sd] →
    s.producersDone s.cur th = true → th.squashes < 4 → ReleaseDone s th 2 → Next (.arBegin sa sd) s fun t =>
      t.mem = s.mem ∧ ∃ u r, t.threads.find s.cur = some u ∧ u.region = some r ∧ u.rg = true ∧ u.x sd = 0 ∧ u.c.pc = th.c.pc + 1 ∧
        (∀ k, k ≠ sd → u.x k = th.x k) ∧ u.c.hint = 0 ∧ r.step = th.src sa ∧ r.sd = sd ∧ r.held = [] ∧ r.reads = {} ∧
        r.vsaved = [] ∧ r.begun = s.pkg.place ∧ Checkpointed s th r.cp) ∧
  (∀ (s : State) (th : Thread) (r : Region), s.Plain th → th.region = some r → th.rg = true →
    (∀ sd, th.full sd = true → ∃ v : W64, WritesX (.arDraw sd) s th sd v ∧ v.toNat < 2 ^ 32 ∧ isFinite 8 23 v.toNat ∧
      value 8 23 v.toNat = (drawNat th.lau.seed.toNat r.step.toNat : ℝ) / 2 ^ 24) ∧
    (∀ sd, th.full sd = true → WritesX (.arStatus sd) s th sd (th.last ||| 0x1000000000000)) ∧
    (SavedOnce r → Next .arAbort s fun t => t.mem = s.mem ∧ (∀ k, k ≠ s.cur → t.threads.find k = s.threads.find k) ∧
      ∃ u, t.threads.find s.cur = some u ∧ Restored { r.cp with x := r.cp.x.set r.sd.toNat 4 r.sd.isLt } th u ∧
        u.c.pc = r.cp.pc + 1 ∧ u.c.img = r.cp.img ∧ u.c.hint = 0 ∧ u.last = BitVec.ofNat 64 (4 + th.c.pc.toNat * 2 ^ 16) ∧
        SlotBack s t th r.cp.masks (regionVectors r)) ∧
    (∀ sa sd, th.Ready [sa] [sd] → Traps (.arBegin sa sd) s th .privilege 6)) ∧
  (∀ (s : State) (th : Thread), Here s th →
    Traps .arAbort s th .privilege 0xB ∧
    (∀ sd, th.full sd = true → Traps (.arDraw sd) s th .privilege 0xB ∧ WritesX (.arStatus sd) s th sd th.last) ∧
    ∀ sa sd, th.Ready [sa] [sd] → Traps (.pcommit sa sd) s th .privilege 0xB)

end Sys2Proof.Claims

/-- `pcommit` (R333, R334, R335, R336, R344): a region that fails validation is squashed: its checkpoint is back, its held bytes
are nowhere, and it runs again from its `ar.begin`; one that validates takes the next place, publishes its held bytes and no
others, or none, by its ratio and its draw, writes 1 or 0 and LAST, and updates its launch's annealing unit.
Complete here: `pcommit`. -/
def Obligations.RegionCommits : Prop :=
  ∀ (s : State) (th : Thread) (r : Region) (sa : BitVec 5) (sd : BitVec 4), s.Plain th → th.region = some r → th.rg = true →
    th.Ready [sa] [sd] → s.producersDone s.cur th = true → SavedOnce r →
    s.delayed (s.regionDecision th r ((th.src sa).extractLsb' 0 32)).set s.cur = false →
    (s.regionValid r = false → Next (.pcommit sa sd) s fun t => t.mem = s.mem ∧ ∃ u, t.threads.find s.cur = some u ∧
      Restored r.cp th u ∧ u.c.pc = r.cp.pc ∧ u.c.hint = r.cp.hint ∧ u.last = th.last ∧ u.squashes = th.squashes + 1 ∧
      SlotBack s t th r.cp.masks (regionVectors r)) ∧
    (s.regionValid r = true → Homed s th r.held → s.heldAsleep th.core r.held = [] →
      let unit := s.annealOf th.c.lid
      let ratio := (th.src sa).toNat % 2 ^ 32
      let u := drawNat th.lau.seed.toNat r.step.toNat
      ∀ p : Bool, (unit.en = false → (p = true ↔ Publishes ratio u)) →
      (unit.en = true → p = publishes (mulRne ratio (annealFactor unit.offset.toNat)) u) →
      Next (.pcommit sa sd) s fun t =>
        (if p then Published s t th r.held else t.mem = s.mem) ∧ t.pkg.place = s.pkg.place + 1 ∧
        t.annealOf th.c.lid = annealed unit p ∧ ∃ v, t.threads.find s.cur = some v ∧ v.x sd = (if p then 1 else 0) ∧
          (∀ k, k ≠ sd → v.x k = th.x k) ∧ v.c.pc = th.c.pc + 1 ∧ v.rg = false ∧ v.region = none ∧
          v.last = (if p then 1 else 2))

namespace Sys2Proof.Claims

open Sys2Proof.Machine

/-- `anneal` (R345): each form writes OFFSET, WPUB and WCNT as they stood, acts on its launch's unit and takes a place in the
package order; inside a region it traps with cause 0x04 and 6 (R328).
Complete here: `annealCfg`, `annealOff`, `annealReset`. -/
def AnnealWords : Prop :=
  ∀ (s : State) (th : Thread), s.Plain th →
    let a := s.annealOf th.c.lid
    ∀ (i : Instr) (srcs : List (BitVec 5)) (sd : BitVec 4) (b : Anneal),
      ((∃ sa sb, i = .annealCfg sa sb sd ∧ srcs = [sa, sb] ∧ b = { a with
          step := BitVec.ofNat 16 (th.src sa).toNat, thresh := BitVec.ofNat 16 ((th.src sa).toNat / 2 ^ 16),
          window := BitVec.ofNat 32 ((th.src sa).toNat / 2 ^ 32),
          decay := BitVec.ofNat 17 (min ((th.src sb).toNat % 2 ^ 17) 0x10000), offset := 0, wcnt := 0, wpub := 0, en := true }) ∨
       (i = .annealOff sd ∧ srcs = [] ∧ b = { a with en := false }) ∨
       (i = .annealReset sd ∧ srcs = [] ∧ b = { a with offset := 0, wcnt := 0, wpub := 0 })) →
      th.Ready srcs [sd] →
      (th.rg = true → Traps i s th .privilege 6) ∧
      (th.rg = false → Next i s fun t =>
        t.threads = (s.setThread s.cur (th.retire.setX sd
          (BitVec.ofNat 64 (a.offset.toNat + a.wpub.toNat % 2 ^ 16 * 2 ^ 16 + a.wcnt.toNat * 2 ^ 32)))).threads ∧
        t.annealOf th.c.lid = b ∧ t.pkg.place = s.pkg.place + 1 ∧ t.mem = s.mem)

end Sys2Proof.Claims

/-- Atomic regions and annealing words: `RegionWords`, `AnnealWords` above. -/
def Obligations.RegionAndAnnealWords : Prop := Sys2Proof.Claims.RegionWords ∧ Sys2Proof.Claims.AnnealWords

/-- REGION_SQUASH (R336) restores a region that a placed set has met and drops its held bytes, and leaves a valid one alone.
CHUNK_COMMIT (R319, R320, R321): at its lane's turn a chunk whose reads met no later commit publishes its held bytes, no others,
and its lane's next chunk begins; otherwise the chunk is squashed, its registers, masks and vector registers are those of its start, and no byte changes.
Complete here: `chunkCommit`, `regionSquash`. -/
def Obligations.SquashesAndChunks : Prop :=
  (∀ (s : State) (t : Tid) (th : Thread) (r : Region), s.threads.find t = some th → th.region = some r →
    Instr.regionSquash t ∈ s.pool → SavedOnce r →
    (s.regionValid r = true → exec (.regionSquash t) s = .next { s with pool := s.pool.erase (.regionSquash t) }) ∧
    (s.regionValid r = false → th.det = false → Next (.regionSquash t) s fun n => n.mem = s.mem ∧ ∃ u, n.threads.find t = some u ∧
      Restored r.cp th u ∧ u.c.pc = r.cp.pc ∧ u.c.hint = r.cp.hint ∧ u.last = th.last ∧
      SlotBack s n th r.cp.masks (regionVectors r))) ∧
  (∀ (s : State) (t : Tid) (th : Thread), s.threads.find t = some th → chunkReady s t = true → th.region = none →
    th.gm = false → th.chunk.ended ∈ [ChunkEnd.full, .wait, .lines, .boundary] → th.chunk.ring = [] → Homed s th th.chunk.held →
    s.heldBanks t = [] → let lid := th.c.lid
    (s.detOf lid).lane ≤ th.lau.lane.getD 0 →
    (s.chunkValid th = true → Next (.chunkCommit t) s fun n =>
      Published s n th th.chunk.held ∧ (n.detOf lid).lane = th.lau.lane.getD 0 + 1 ∧
      ∃ u, n.threads.find t = some u ∧ u.c = th.c ∧ u.chunk = {} ∧ u.isParked = false) ∧
    (s.chunkValid th = false → Next (.chunkCommit t) s fun n => n.mem = s.mem ∧
      SlotBack s n th th.chunk.cp.masks (fun _ v => th.chunk.vregs.getD v 0) ∧
      ∃ u, n.threads.find t = some u ∧ Restored th.chunk.cp th u ∧ u.c.pc = th.chunk.cp.pc ∧ u.c.hint = th.chunk.cp.hint ∧
        u.chunk.open_ = false ∧ u.isParked = false))

namespace Sys2Proof.Claims

open Sys2Proof.Machine

/-- A little-endian field of a launch record (R351). -/
def field (r : BitVec 2048) (off len : Nat) : Nat := r.toNat / 2 ^ (8 * off) % 2 ^ (8 * len)
/-- The record of a LID (R344, R355), and a thread's own one. -/
def record (s : State) (lid : Nat) : Option (BitVec 2048) :=
  if lid < 0x4000 then (s.die (lid / 4096)).pantry.find (lid % 4096) else none
def Own (s : State) (th : Thread) (lid : Nat) (r : BitVec 2048) : Prop := record s lid = some r ∧ field r 6 2 = th.c.asid.toNat
def NotOwn (s : State) (th : Thread) (lid : Nat) : Prop := ∀ r, ¬ Own s th lid r
/-- The rest states (R353). -/
def AtRest (r : BitVec 2048) : Prop := field r 2 1 ∈ [0, 3, 4, 6]
/-- The bits of a record that `lrec.patch` may write (R351). -/
def Patchable (k : Nat) : Prop :=
  let b := k / 8
  (18 ≤ b ∧ b ≤ 43) ∨ (b = 50 ∧ (k % 8 = 2 ∨ k % 8 = 3)) ∨ b = 51 ∨ b = 52 ∨ (80 ≤ b ∧ b ≤ 87) ∨ (104 ≤ b ∧ b ≤ 247)
/-- The record keeps every byte outside the ranges given (first byte, bytes). -/
def KeepsBut (r q : BitVec 2048) (l : List (Nat × Nat)) : Prop :=
  ∀ k, (∀ e ∈ l, ¬ (e.1 ≤ k / 8 ∧ k / 8 < e.1 + e.2)) → q.getLsbD k = r.getLsbD k

/-- Tiles of a dimension of a record (R363). -/
def tilesOf (r : BitVec 2048) (d : Nat) : Nat :=
  if d < field r 16 1 then (field r (20 + 4 * d) 4 + field r (36 + 2 * d) 2 - 1) / field r (36 + 2 * d) 2 else 1
def totalOf (r : BitVec 2048) : Nat := tilesOf r 0 * tilesOf r 1 * tilesOf r 2 * tilesOf r 3

/-- The thread of an `lrec` word after it, `u`: one that operated on a record of another die has waited for the reply, which comes
in the same step (R354, log entry 6), and is ready for a slot. -/
def replied (s : State) (th : Thread) (lid : Nat) (u : Thread) : Thread :=
  if lid / 4096 % 4 = th.core / 128 then u else { u with run := .ready s.cycle, bslot := none }
/-- The word writes one register of its thread and nothing else but the waits that the record's new state answers (R361). -/
structure Answered (s t : State) (lid : Nat) (u : Thread) : Prop where
  own : t.threads.find s.cur = some u
  others : ∀ k, k ≠ s.cur → t.threads.find k = s.threads.find k ∨ ∃ v w, s.threads.find k = some v ∧
    v.run = .parked (.launch (BitVec.ofNat 16 lid) 0) ∧ t.threads.find k = some { v with mo := { v.mo with reply := w } }
/-- A word of the lrec group that writes `v` and changes nothing else. -/
def Replies (i : Instr) (s : State) (th : Thread) (lid : Nat) (sd : BitVec 4) (v : W64) : Prop :=
  exec i s = .next (s.setThread s.cur (replied s th lid (th.retire.setX sd v)))
/-- What `lrec.wait` writes of a record (R361): STATE, CAUSE and the tiles retired. -/
def restWord (r : BitVec 2048) : W64 := BitVec.ofNat 64 (field r 2 1 + field r 3 1 * 2 ^ 8 + field r 96 4 * 2 ^ 32)
/-- A line that an L2 holds. -/
def inL2 (s : State) (x : L2Line) : Prop := ∃ d k, x ∈ (s.die d).l2.getD k []
/-- The line numbers of the lines that a `cache` range names and that have a translation. -/
def rangeLine (s : State) (th : Thread) (a n : Nat) (l : Nat) : Prop :=
  ∃ space va v k, names th.core a = some (.glob space va) ∧ n ≠ 0 ∧ va / 64 ≤ v / 64 ∧ v < va + n ∧
    s.keyOf th.c.asid space v = some k ∧ l = k / 64

/-- A launch is complete (R358): it is armed or running, its tiles have retired, and no task of it is left or on its way. -/
structure Complete (s : State) (lid : W16) (r : BitVec 2048) : Prop where
  state : field r 2 1 ∈ [1, 2]
  tiles : totalOf r ≤ field r 96 4
  tasks : ∀ e ∈ s.threads, e.2.c.lid = lid → e.2.sup = true
  starts : ∀ q, Instr.taskStart q ∈ s.pool → q.lid ≠ lid

/-- The task has nothing left to wait for (R118). -/
structure MayExit (s : State) (th : Thread) : Prop where
  producers : s.producersDone s.cur th = true
  drained : s.openHomes s.cur th false = []
  release : ReleaseDone s th 2
  ring : s.ringQueued s.cur = false
  -- its completion finds room in the hardware's queue (R463)
  queue : th.sup = false → s.queueFull (th.c.lid.toNat / 4096 % 4) = false

end Sys2Proof.Claims

/-- `cache` (R303, R323, R324, R397, R401): a range that does not pass R139 traps with cause 0x07 and its address, a region with
cause 0x04 and 6; `wb` leaves no line of the range dirty in an L2, `retain` gives each its code (11 sets short-lived), neither
changes a value; `inv` leaves no copy of the range in the L1, and waits where one holds a store not yet acknowledged; `harvest`
empties the dirty logs of the cluster; `tlbi` leaves no matching translation in any TLB or core, and every other one. `wb`,
`harvest` and `tlbi` park for the echoes of the homes and then retire.
Complete here: `cacheWb`, `cacheInv`, `cacheHarvest`, `cacheRetain`, `cacheTlbi`. -/
def Obligations.CacheWords : Prop :=
  ∀ (s : State) (th : Thread) (sa sb : BitVec 5), s.Plain th → th.Ready [sa, sb] [] → let a := th.src sa
    let b := th.src sb
    let n := b.toNat % 2 ^ 40
    let l1 := (s.core th.core).m.l1
    -- parked for the echoes, and over once they have come
    let begun : Thread := ({ th with mo := { th.mo with acquired := true, acts := true } } : Thread).park .echo
    let finished : Thread := { th.retire with mo := { th.mo with acquired := false, acts := false } }
    (th.rg = true → Traps .cacheHarvest s th .privilege 6 ∧
      ∀ i, i ∈ [Instr.cacheWb sa sb, .cacheInv sa sb, .cacheRetain sa sb 0] → Traps i s th .privilege 6) ∧
    (th.rg = false → names th.core a.toNat = none →
      ∀ i, i ∈ [Instr.cacheWb sa sb, .cacheInv sa sb, .cacheRetain sa sb 0] → Traps i s th .addressSpace a) ∧
    (th.rg = false → (names th.core a.toNat).isSome = true →
      (th.mo.acts = false → Next (.cacheWb sa sb) s fun t => t.threads = (s.setThread s.cur begun).threads ∧ t.mem = s.mem ∧
        t.fe = s.fe ∧ ∀ x, inL2 t x → rangeLine s th a.toNat n x.line → x.dirty = false) ∧
      (th.mo.acts = true → Becomes (.cacheWb sa sb) s finished ∧
        ∀ kind : BitVec 2, kind ≠ 3 → th.sup = true → Becomes (.cacheTlbi sa sb kind) s finished) ∧
      (∀ code, Next (.cacheRetain sa sb code) s fun t => t.threads = (s.setThread s.cur th.retire).threads ∧ t.mem = s.mem ∧
        t.fe = s.fe ∧ ∀ x, inL2 t x → rangeLine s th a.toNat n x.line →
          x.code = (if code = 3 then 1 else code) ∨ (code = 2 ∧ x.code = 0)) ∧
      (th.mo.acquired = false → th.mo.acts = false → Next (.cacheInv sa sb) s fun t => t.mem = s.mem ∧
        ((∀ l ∈ l1, l.pending = false ∧ l.leaving = false) → t.threads = (s.setThread s.cur th.retire).threads) ∧
        (∀ l ∈ (t.core th.core).m.l1, l.leaving = false → l ∈ l1) ∧
        ∀ space va v x, names th.core a.toNat = some (.glob space va) → n ≠ 0 → va / 64 ≤ v / 64 → v < va + n →
          s.heldXlat th.core th.c.asid space v = some x → x.vpage % pageBytes x.size = 0 → homeDie space x.vpage = homeDie space v →
          t.l1Find th.core th.c.asid (x.key (homeDie space v) v / 64) = none) ∧
      (th.mo.acquired = true → (∀ l ∈ l1, l.leaving = false) → n ≠ 0 → (∃ space va, names th.core a.toNat = some (.glob space va)) →
        Becomes (.cacheInv sa sb) s finished) ∧
      (∀ kind : BitVec 2, kind ≠ 3 → th.sup = true → th.mo.acts = false → Next (.cacheTlbi sa sb kind) s fun t =>
        t.threads = (s.setThread s.cur begun).threads ∧ t.mem = s.mem ∧
        let hit : Xlat → Prop := fun x => kind = 2 ∨ (kind = 1 ∧ x.asid.toNat = b.toNat % 2 ^ 16) ∨
          (kind = 0 ∧ x.asid.toNat = b.toNat % 2 ^ 16 ∧ ∃ va, names th.core a.toNat = some (.glob x.space.toNat va) ∧
            va / pageBytes x.size = x.vpage / pageBytes x.size)
        (∀ d x, x ∈ (t.die d).tlb ↔ x ∈ (s.die d).tlb ∧ ¬ hit x) ∧
        ∀ c x, x ∈ (t.core c).m.tcache ↔ x ∈ (s.core c).m.tcache ∧ ¬ hit x)) ∧
    (th.rg = false → th.mo.acts = true → Becomes .cacheHarvest s finished) ∧
    (th.rg = false → th.mo.acts = false → Next .cacheHarvest s fun t => t.threads = (s.setThread s.cur begun).threads ∧
      (∀ k, k < 8 → (t.core (th.core / 8 * 8 + k)).m.dlog = []) ∧
      ∀ a, readByte t.mem a = readByte s.mem a ∨ readByte t.mem a = readByte s.mem a ||| 16)

namespace Sys2Proof.Claims

open Sys2Proof.Machine

/-- `lrec` (R351, R353, R354, R355, R356, R360, R361): `patch` writes the Patch bits of one dword of an own record at rest and no
others; `query` reads a dword, byte 54 of a version 1 record as 0xFF; `arm`, its release over, accepts the record (ARMED, CAUSE
and STATUS 0) or rejects it with the cause of its first failing check, or waits for a controller (R463); `cancel` stops a busy record; `wait` reads the state of a
record at rest, as a package-scope acquire, or parks until the record rests and then reads what it was answered with.
Complete here: `lrecPatch`, `lrecArm`, `lrecQuery`, `lrecCancel`, `lrecWait`. -/
def LaunchRecordWords : Prop :=
  ∀ (s : State) (th : Thread) (sa : BitVec 5) (sd : BitVec 4), Here s th → th.isParked = false → th.Ready [sa] [sd] →
    let lid := (th.src sa).toNat % 2 ^ 16
    let own := Own s th lid
    let wrote : State → W64 → Prop := fun t v => Answered s t lid (replied s th lid (th.retire.setX sd v)) ∧ t.mem = s.mem
    let waited : State → W64 → Prop := fun t v => t.threads = (s.setThread s.cur (replied s th lid
      { th.retire.setX sd v with mo := { (acquired s th).mo with reply := none } })).threads ∧ t.mem = s.mem ∧ EmptyL1 t th.core
    (∀ (sb : BitVec 5) (n : BitVec 5), th.Ready [sb] [] →
      (NotOwn s th lid → Replies (.lrecPatch sa sb sd n) s th lid sd 1) ∧
      (∀ r, own r → ¬ AtRest r → Replies (.lrecPatch sa sb sd n) s th lid sd 2) ∧
      (∀ r, own r → AtRest r → Next (.lrecPatch sa sb sd n) s fun t => wrote t 0 ∧ ∃ q, record t lid = some q ∧
        ∀ k, k < 2048 → (Patchable k ∧ k / 64 = n.toNat → q.getLsbD k = (th.src sb).getLsbD (k % 64)) ∧
          (¬ (Patchable k ∧ k / 64 = n.toNat) → q.getLsbD k = r.getLsbD k))) ∧
    (∀ n : BitVec 5, (NotOwn s th lid → Replies (.lrecQuery sa sd n) s th lid sd 0) ∧
      ∀ r, own r → ∃ v : W64, Replies (.lrecQuery sa sd n) s th lid sd v ∧
        ∀ k, k < 8 → v.toNat / 256 ^ k % 256 =
          if field r 0 2 = 1 ∧ 8 * n.toNat + k = 54 then 0xFF else field r (8 * n.toNat + k) 1) ∧
    (NotOwn s th lid → Replies (.lrecArm sa sd) s th lid sd 1 ∧ Replies (.lrecCancel sa sd) s th lid sd 1 ∧
      (th.mo.reply = none → Replies (.lrecWait sa sd) s th lid sd 0xFF)) ∧
    (∀ v, th.mo.reply = some v → Next (.lrecWait sa sd) s fun t => waited t v) ∧
    (∀ r, own r → ¬ AtRest r → Replies (.lrecArm sa sd) s th lid sd 2 ∧
      (th.mo.reply = none →
        exec (.lrecWait sa sd) s = .next (s.setThread s.cur (th.park (.launch (BitVec.ofNat 16 lid) 0)))) ∧
      (field r 2 1 ≠ 7 → Next (.lrecCancel sa sd) s fun t => wrote t 0 ∧ (∀ q, .taskStart q ∈ t.pool → q.lid.toNat ≠ lid) ∧
        ∃ q, record t lid = some q ∧
          field q 2 1 = (if s.threads.any (fun e => e.2.c.lid.toNat == lid && !e.2.sup) then 5 else 6))) ∧
    (∀ r, own r → AtRest r → Replies (.lrecCancel sa sd) s th lid sd 3 ∧
      (th.mo.reply = none → Next (.lrecWait sa sd) s fun t => waited t (restWord r)) ∧
      (s.ctlAlive (lid / 4096 % 4) = false → Next (.lrecArm sa sd) s fun t => t.mem = s.mem ∧
        t.threads = (s.setThread s.cur (th.park (.controller (lid / 4096 % 4)))).threads) ∧
      (s.ctlAlive (lid / 4096 % 4) = true → ReleaseDone s th 2 → s.out.tray = .serving → let c := s.armCheck r
        Next (.lrecArm sa sd) s fun t =>
          Answered s t lid (replied s th lid ((released th 2).retire.setX sd (BitVec.ofNat 64 c))) ∧
          ∃ q, record t lid = some q ∧ KeepsBut r q [(2, 2), (96, 8)] ∧
            (if c = 0 then field q 2 1 = 1 ∧ field q 3 1 = 0 ∧ field q 96 8 = 0
             else field q 2 1 = 4 ∧ field q 3 1 = c ∧ field q 96 8 = field r 96 8 ∧ t.mem = s.mem)))

end Sys2Proof.Claims

/-- Each traversal order visits every tile exactly once (R363): every ordinal below T has its place in the grid, and no two
ordinals have the same. -/
def Obligations.TraversalOrders : Prop :=
  ∀ r : BitVec 2048, 1 ≤ field r 16 1 → field r 16 1 ≤ 4 → (∀ d, d < 4 → 1 ≤ field r (20 + 4 * d) 4 ∧ 1 ≤ field r (36 + 2 * d) 2) →
    field r 17 1 ≤ 4 → (field r 17 1 = 4 → field r 16 1 = 2 ∧ 1 ≤ field r 18 2) →
    (∀ o, o < totalOf r → (Rec.coords r o).length = 4 ∧ ∀ d, d < 4 → (Rec.coords r o).getD d 0 < tilesOf r d) ∧
    (∀ o p, o < totalOf r → p < totalOf r → Rec.coords r o = Rec.coords r p → o = p)

namespace Sys2Proof.Claims

open Sys2Proof.Machine

/-- `walk` (R364, R366, R367) and the walkers (R364, R368): `info` reads T, the walker's range, its number and the grid; `next`, its
release over, retires the tile and takes the walker's next ordinal, with its coordinates, or answers 1; a hand-out gives a
walker's next ordinal to a core once; a split leaves the victim the first half of its range and the rest to the free walker.
Complete here: `walkerHandout`, `walkerSplit`, `walkNext`, `walkInfo`. -/
def WalkersAndTiles : Prop :=
  (∀ (s : State) (th : Thread) (r : BitVec 2048), Here s th → record s th.c.lid.toNat = some r →
    (∀ sd (sel : BitVec 6), th.full sd = true → (th.lau.tile = true → ∃ w, th.lau.walker = some w ∧ (s.walker w).active = true ∧
        (s.walker w).lid = th.c.lid) →
      let held := th.lau.tile
      let x := s.walker (th.lau.walker.getD 0)
      WritesX (.walkInfo sd sel) s th sd (BitVec.ofNat 64 (match sel.toNat with
        | 0 => totalOf r
        | 1 => if held then x.cursor + x.fin * 2 ^ 32 else 0
        | 2 => if held then th.lau.walker.getD 0 + th.c.lid.toNat * 2 ^ 16 else 0
        | 3 => tilesOf r 0 | 4 => tilesOf r 1 | 5 => tilesOf r 2 | 6 => tilesOf r 3 | _ => 0))) ∧
    (∀ sd : BitVec 4, th.Ready [] [0, 1, 2, 3, 5, sd] → ReleaseDone s th 2 →
      (th.lau.tile = false → Next (.walkNext sd) s fun t =>
        t.threads = (s.setThread s.cur ((released th 2).retire.setX sd 1)).threads ∧ t.mem = s.mem) ∧
      (th.lau.tile = true → s.pkg.pre ≠ .none → Next (.walkNext sd) s fun t =>
        t.threads = (s.setThread s.cur ((released th 2).park .walker)).threads ∧ t.mem = s.mem) ∧
      (∀ w, th.lau.tile = true → s.pkg.pre = .none → th.lau.walker = some w → (s.walker w).active = true →
        (s.walker w).lid = th.c.lid → (s.walker w).head = [] → let x := s.walker w
        (x.cursor < x.fin → x.cursor < 2 ^ 32 → Next (.walkNext sd) s fun t => t.mem = s.mem ∧
          (t.walker w).cursor = x.cursor + 1 ∧ (t.walker w).fin = x.fin ∧
          (t.walker w).inflight = x.inflight.erase th.c.ord.toNat ++ [x.cursor] ∧
          (∃ q, record t th.c.lid.toNat = some q ∧ field q 96 4 = (field r 96 4 + 1) % 2 ^ 32 ∧ KeepsBut r q [(96, 4)]) ∧
          ∃ u, t.threads.find s.cur = some u ∧ u.x sd = 0 ∧ u.c.ord.toNat = x.cursor ∧
            (sd ≠ 5 → u.x 5 = BitVec.ofNat 64 x.cursor) ∧
            (∀ d, d < 4 → BitVec.ofNat 4 d ≠ sd → u.x (BitVec.ofNat 4 d) = BitVec.ofNat 64 ((Rec.coords r x.cursor).getD d 0)) ∧
            (∀ k, k ∉ [0, 1, 2, 3, 5, sd] → u.x k = th.x k) ∧ u.c.pc = th.c.pc + 1) ∧
        (x.fin ≤ x.cursor → Next (.walkNext sd) s fun t => t.mem = s.mem ∧
          ∃ u, t.threads.find s.cur = some u ∧ u.x sd = 1 ∧ u.lau.tile = false ∧ (∀ k, k ≠ sd → u.x k = th.x k))))) ∧
  (∀ (s : State) (w core : Nat), s.handoutCore w = some core → (s.walker w).head = [] → let x := s.walker w
    Next (.walkerHandout w core) s fun t => t.threads = s.threads ∧ t.mem = s.mem ∧ (t.walker w).cursor = x.cursor + 1 ∧
      (t.walker w).inflight = x.inflight ++ [x.cursor] ∧ (∀ v, v ≠ w → t.walker v = s.walker v) ∧
      t.pool = s.pool ++ [.taskStart ⟨x.lid, BitVec.ofNat 32 x.cursor, some w, core, none, s.cycle + startTime⟩]) ∧
  (∀ (s : State) (victim thief free : Nat), victim ≠ free → s.splitChoice (s.walker victim).lid = some (victim, thief, free) →
    let v := s.walker victim
    let mid := v.cursor + (v.fin - v.cursor + 1) / 2
    Next (.walkerSplit victim thief free) s fun t => t.threads = s.threads ∧ t.mem = s.mem ∧
      t.walker victim = { v with fin := mid } ∧ (t.walker free).cursor = mid ∧ (t.walker free).fin = v.fin ∧
      (t.walker free).cores = [thief] ∧ (t.walker free).lid = v.lid ∧ ∀ k, k ≠ victim → k ≠ free → t.walker k = s.walker k)

end Sys2Proof.Claims

/-- Launch records, walk and the tile walkers: `LaunchRecordWords`, `WalkersAndTiles` above. -/
def Obligations.LaunchRecordsAndWalkers : Prop := Sys2Proof.Claims.LaunchRecordWords ∧ Sys2Proof.Claims.WalkersAndTiles

/-- The life of a task (R33, R34, R118, R190, R191, R358, R359): it starts in a free context with the state of R34, its
scratchpad zero and full, and issues once the clearing is done; `task.exit`, with nothing left to wait for, ends it, its
context and reservation free, its scratchpad zero, its tile retired; a completed launch, its controllers living, is DONE, its WAIT renewed, the threads that wait for it answered, its successors' counts
lower; one that was cancelled meanwhile stays as it is.
Complete here: `allocationClearDone`, `releaseClearDone`, `taskStart`, `launchCompletion`, `tidReleaseMessage`, `taskExit`. -/
def Obligations.TaskLifetimes : Prop :=
  (∀ (s : State) (r : TaskReq) (q : BitVec 2048) (i : Nat), Instr.taskStart r ∈ s.pool → taskReady s r = true →
    record s r.lid.toNat = some q → s.newCtx r.core = some i → Next (.taskStart r) s fun t =>
      let tid := r.core * 64 + i
      let len := (field q 44 4 + 63) / 64 * 64
      (∀ k, k ≠ tid → t.threads.find k = s.threads.find k) ∧ (t.core r.core).k.tidMask.getLsbD i = true ∧
      ∃ u base, t.threads.find tid = some u ∧ u.core = r.core ∧ u.cidx = i ∧
        u.c.pc.toNat = field q 8 4 ∧ u.c.img.toNat = field q 4 2 ∧ u.c.asid.toNat = field q 6 2 ∧ u.c.lid = r.lid ∧ u.c.ord = r.ord ∧
        u.c.fe = 0xFFFF ∧ u.c.pred = 1 ∧ u.c.hint = 0 ∧ u.c.wake = false ∧ u.region = none ∧ u.c.epc = 0 ∧ u.c.cvc = 0 ∧
        (∀ d, d < 4 → u.x (BitVec.ofNat 4 d) = BitVec.ofNat 64 ((Rec.coords q r.ord.toNat).getD d 0)) ∧
        u.x 4 = BitVec.ofNat 64 (field q 88 8) - 64 ∧ u.x 5 = r.ord.zeroExtend 64 ∧ (∀ k : BitVec 4, 6 ≤ k.toNat → k ≠ 15 → u.x k = 0) ∧
        u.mob = (field q 50 1).testBit 0 ∧ u.det = (field q 50 1).testBit 1 ∧ u.vx = decide (field q 49 1 ≠ 0) ∧ u.sup = false ∧
        u.ih = false ∧ u.rm = 0 ∧ u.flags = 0 ∧ u.ft = 0 ∧
        u.c.evec.getLsbD 63 = decide (field q 12 4 ≠ 0xFFFFFFFF) ∧
        (field q 44 4 = 0 → u.x 15 = 0 ∧ u.run = .ready s.cycle ∧ t.mem = s.mem) ∧
        (field q 44 4 ≠ 0 → u.x 15 = BitVec.ofNat 64 (base + len) ∧ u.run = .parked .clearing ∧ base % 64 = 0 ∧
          (∀ k, k < len → readByte t.mem (spKey r.core (base + k)) = 0 ∧ t.feFull r.core (base + k) = true) ∧
          (∀ a, ¬ (spKey r.core base ≤ a ∧ a < spKey r.core base + len) → readByte t.mem a = readByte s.mem a) ∧
          .allocationClearDone tid ∈ t.pool)) ∧
  (∀ (s : State) (t : Tid) (th : Thread), s.threads.find t = some th → Instr.allocationClearDone t ∈ s.pool → clearDue s t = true →
    (s.die (lidDie th.c.lid)).spad.find (th.c.lid.toNat % 4096) = none → th.run = .parked .clearing →
    Next (.allocationClearDone t) s fun n => n.mem = s.mem ∧ ∃ u, n.threads.find t = some u ∧ u.c = th.c ∧ u.isParked = false ∧
      u.lau.clearing = false) ∧
  (∀ (s : State) (core base : Nat), Instr.releaseClearDone core base ∈ s.pool → freeDue s core base = true →
    Next (.releaseClearDone core base) s fun n => n.threads = s.threads ∧ n.mem = s.mem ∧
      ∃ a ∈ (s.core core).m.allocs, a.freed = true ∧ a.base = base ∧ a.due ≤ s.cycle ∧
        (n.core core).m.allocs = (s.core core).m.allocs.erase a) ∧
  (∀ (s : State) (t : Tid), Instr.tidReleaseMessage t ∈ s.pool → Next (.tidReleaseMessage t) s fun n =>
    n.threads = s.threads ∧ n.mem = s.mem ∧ ∀ k, k < 64 → (n.core (t / 64)).k.tidMask.getLsbD k =
      ((s.core (t / 64)).k.tidMask.getLsbD k && decide (k ≠ t % 64))) ∧
  (∀ (s : State) (th : Thread), Here s th → MayExit s th → th.core = s.cur / 64 → (s.core th.core).k.arrivals = [] → Next .taskExit s fun t =>
      t.threads.find s.cur = none ∧ (t.core th.core).k.tidMask.getLsbD (s.cur % 64) = false ∧
      (∀ a, (s.core th.core).m.allocs.find? (fun a => a.tid == s.cur && !a.freed) = some a → a.base % 4 = 0 → ∀ k, k < a.len →
        readByte t.mem (spKey th.core (a.base + k)) = 0 ∧ t.feFull th.core (a.base + k) = true) ∧
      ∀ k u, k ≠ s.cur → s.threads.find k = some u → ∃ v, t.threads.find k = some v ∧ v.c = u.c) ∧
  (∀ (s : State) (th : Thread), s.Plain th → th.rg = true → Traps .taskExit s th .privilege 3) ∧
  (∀ (s : State) (lid : W16) (r : BitVec 2048), Instr.launchCompletion lid ∈ s.pool → record s lid.toNat = some r →
    s.doneReady lid = true → field r 2 1 ∉ [1, 2] → exec (.launchCompletion lid) s = .next { s with pool := s.pool.erase (.launchCompletion lid) }) ∧
  (∀ (s : State) (lid : W16) (r : BitVec 2048), Instr.launchCompletion lid ∈ s.pool → record s lid.toNat = some r →
    s.doneReady lid = true → Complete s lid r → (∀ i, i < 8 → field r (64 + 2 * i) 2 = 0xFFFF) → Next (.launchCompletion lid) s fun t =>
      (∀ k u, s.threads.find k = some u → ∃ v, t.threads.find k = some v ∧ v.c = u.c ∧ v.run = u.run ∧
        (u.run = .parked (.launch lid 0) → u.c.asid.toNat = field r 6 2 → u.mo.reply = none →
          v.mo.reply = some (BitVec.ofNat 64 (3 + field r 3 1 * 2 ^ 8 + field r 96 4 * 2 ^ 32)))) ∧
      ∃ q, record t lid.toNat = some q ∧ field q 2 1 = 3 ∧ field q 52 1 = field r 51 1 ∧ KeepsBut r q [(2, 1), (52, 1)]) ∧
  (∀ (s : State) (lid succ : W16) (r q : BitVec 2048), Instr.launchCompletion lid ∈ s.pool → record s lid.toNat = some r →
    s.doneReady lid = true → Complete s lid r → field r 64 2 = succ.toNat → succ ≠ lid → succ ≠ 0xFFFF → (∀ i, 1 ≤ i → i < 8 → field r (64 + 2 * i) 2 = 0xFFFF) →
    record s succ.toNat = some q → Next (.launchCompletion lid) s fun t =>
      (field q 6 2 = field r 6 2 → (field q 52 1 ≠ 1 ∨ ¬ AtRest q) → ∃ p, record t succ.toNat = some p ∧
        field p 52 1 = field q 52 1 - 1 ∧ KeepsBut q p [(52, 1)]) ∧
      (field q 6 2 = field r 6 2 → field q 52 1 = 1 → AtRest q → s.out.tray = .serving →
        ∃ p, record t succ.toNat = some p ∧ (field p 2 1 = 1 ∨ field p 2 1 = 4)) ∧
      (field q 6 2 ≠ field r 6 2 → record t succ.toNat = some q ∧ ∃ p, record t lid.toNat = some p ∧
        field p 102 1 = (field r 102 1 + 1) % 256))

namespace Sys2Proof.Claims

open Sys2Proof.Machine

/-! Vector elements (R230, R231): element `j` of width `w` is bits [w(j+1)-1 : wj]; its governing mask bit is that of its
lane. -/

def element (w : Nat) (v : BitVec 4096) (j : Nat) : Nat := v.toNat / 2 ^ (w * j) % 2 ^ w
def governs (m : BitVec 128) (w j : Nat) : Bool := m.getLsbD (j * w / 32)
/-- The element widths of `TY` by the integer reading, and the float formats (R59). -/
def intWidth (ty : BitVec 2) : Nat := if ty = 0 then 32 else if ty = 1 then 16 else 8
def expBits (ty : BitVec 2) : Nat := if ty = 2 then 5 else 8
def fracBits (ty : BitVec 2) : Nat := if ty = 0 then 23 else if ty = 1 then 7 else 10
def fltWidth (ty : BitVec 2) : Nat := if ty = 0 then 32 else 16

/-- A lone thread, anchored and outside regions, that names vector registers with no load on its way to one; no issued `mma` has yet
to read a register of `wr`, which the word writes (R26, R197, R234). -/
structure Vectors (s : State) (th : Thread) (named wr : List (BitVec 5)) : Prop extends State.Plain s th where
  mob : th.mob = false
  region : th.region = none
  pending : ∀ v ∈ named, s.vecPending s.cur v = false
  free : ∀ v ∈ wr, s.groupBusy s.cur th v = false

/-- The word retires, ORs flags into STATUS and FLAGACC, writes one vector register, and sets VX, which binds the slot (R25):
nothing else changes. -/
def VecDone (i : Instr) (s : State) (u : Thread) (th : Thread) (vd : BitVec 5) (x : BitVec 4096) (fl : BitVec 6) : Prop :=
  exec i s = .next (((s.raise s.cur u fl).setVreg th vd x).modThread s.cur Thread.bindVx)
/-- The same of a mask. -/
def MaskDone (i : Instr) (s : State) (th : Thread) (md : BitVec 3) (x : BitVec 128) (fl : BitVec 6) : Prop :=
  exec i s = .next (((s.raise s.cur th.retire fl).setMask th md x).modThread s.cur Thread.bindVx)
/-- An enabled flag: no register, no mask and no memory has changed, the thread is held for its report (R215, R228, R232). `q` are
flags that are set and named with the others and raise no trap of their own (R211, R229). -/
def VecHeld (i : Instr) (s : State) (th : Thread) (fl : BitVec 6) (q : BitVec 6 := 0) : Prop :=
  ∃ t u h, exec i s = .next t ∧ t.threads.find s.cur = some u ∧ u.c = (th.orFlags (fl ||| q)).c ∧ t.slots = s.slots ∧
    h ∈ (t.core th.core).k.fpHeld ∧ h.tid = s.cur ∧ h.window = s.cycle / 16 ∧ h.detail = ((fl ||| q).extractLsb' 0 5).zeroExtend 8 ∧
    t.mem = s.mem ∧ ∀ k, k ≠ s.cur → t.threads.find k = s.threads.find k
def VecFloats (i : Instr) (s : State) (u th : Thread) (vd : BitVec 5) (x : BitVec 4096) (fl : BitVec 6) (q : BitVec 6 := 0) : Prop :=
  (fl.extractLsb' 0 5 &&& th.ft = 0 → VecDone i s u th vd x (fl ||| q)) ∧
  (fl.extractLsb' 0 5 &&& th.ft ≠ 0 → VecHeld i s th fl q)

/-- The flags of the active elements, ORed (R215). -/
def FlagsOf (n : Nat) (act : Nat → Bool) (fls : Nat → BitVec 6) (fl : BitVec 6) : Prop :=
  ∀ k, k < 6 → (fl.getLsbD k = true ↔ ∃ j, j < n ∧ act j = true ∧ (fls j).getLsbD k = true)

/-- `vi`, `vl` and their scalar forms (R237, R238) with two sources: the result before it is reduced modulo 2^w. -/
noncomputable def vecIntegers : List ((Vv → Instr) × (Vs → Instr) × (Nat → Nat → Nat → Int → Int → Int)) := [
  (.viAdd, .visAdd, fun _ a b _ _ => a + b),
  (.viSub, .visSub, fun _ a b _ _ => (a : Int) - b),
  (.viMul, .visMul, fun _ a b _ _ => a * b),
  (.viMulh, .visMulh, fun w _ _ sa sb => asr (sa * sb) w),
  (.viMin, .visMin, fun _ _ _ sa sb => min sa sb),
  (.viMax, .visMax, fun _ _ _ sa sb => max sa sb),
  (.viMinu, .visMinu, fun _ a b _ _ => (min a b : Nat)),
  (.viMaxu, .visMaxu, fun _ a b _ _ => (max a b : Nat)),
  (.viAdds, .visAdds, fun w _ _ sa sb => max (-(2 ^ (w - 1))) (min (2 ^ (w - 1) - 1) (sa + sb))),
  (.viSubs, .visSubs, fun w _ _ sa sb => max (-(2 ^ (w - 1))) (min (2 ^ (w - 1) - 1) (sa - sb))),
  (.vlAnd, .vlsAnd, fun _ a b _ _ => (a &&& b : Nat)),
  (.vlOr, .vlsOr, fun _ a b _ _ => (a ||| b : Nat)),
  (.vlXor, .vlsXor, fun _ a b _ _ => (a ^^^ b : Nat)),
  (.vlAndn, .vlsAndn, fun w a b _ _ => (a &&& (2 ^ w - 1 - b) : Nat)),
  (.vlShl, .vlsShl, fun w a b _ _ => a * 2 ^ (b % w)),
  (.vlShr, .vlsShr, fun w a b _ _ => a / 2 ^ (b % w)),
  (.vlSra, .vlsSra, fun w _ b sa _ => asr sa (b % w))]
noncomputable def vecIntegers1 : List ((V2 → Instr) × (Int → Int)) := [
  (.viAbs, fun a => |a|), (.visAbs, fun a => |a|), (.viNeg, fun a => -a), (.visNeg, fun a => -a)]

/-- `x` is the destination after an elementwise word: active elements hold `f`, the others what they held (R231). -/
def Elements (w : Nat) (m : BitVec 128) (old x : BitVec 4096) (f : Nat → Nat) : Prop :=
  ∀ j, j < 4096 / w → element w x j = if governs m w j then f j else element w old j

/-- The float arithmetic of R236 with two sources and a rational result: whether the old destination counts, whether it divides. -/
noncomputable def vecArithmetic : List ((Vv → Instr) × (Vs → Instr) × (ℝ → ℝ → ℝ → ℝ) × (Bool → Bool → Bool → Bool → Bool) × Bool × Bool) := [
  (.vfAdd, .vfsAdd, fun x y _ => x + y, fun d sx sy _ => if sx = sy then sx else d, false, false),
  (.vfSub, .vfsSub, fun x y _ => x - y, fun d sx sy _ => if sx = !sy then sx else d, false, false),
  (.vfMul, .vfsMul, fun x y _ => x * y, fun _ sx sy _ => sx ^^ sy, false, false),
  (.vfDiv, .vfsDiv, fun x y _ => x / y, fun _ sx sy _ => sx ^^ sy, false, true),
  (.vfFma, .vfsFma, fun x y z => x * y + z, fun d sx sy sz => if (sx ^^ sy) = sz then sz else d, true, false),
  (.vfFms, .vfsFms, fun x y z => x * y - z, fun d sx sy sz => if (sx ^^ sy) = !sz then !sz else d, true, false),
  (.vfFnma, .vfsFnma, fun x y z => z - x * y, fun d sx sy sz => if !(sx ^^ sy) = sz then sz else d, true, false)]

/-- The order of the encodings by value, -0 below +0 (R133). -/
def rank (eb mb b : Nat) : Int :=
  if signAt eb mb b then -((b % 2 ^ (eb + mb) : ℕ) : Int) - 1 else ((b % 2 ^ (eb + mb) : ℕ) : Int)
/-- fmin or fmax of two encodings, and the flags (R133). -/
def Extreme (eb mb : Nat) (most : Bool) (x y v : Nat) (fl : BitVec 6) : Prop :=
  (isSignalling eb mb x ∨ isSignalling eb mb y → fl = 1) ∧ (¬ (isSignalling eb mb x ∨ isSignalling eb mb y) → fl = 0) ∧
  (isNaN eb mb x → isNaN eb mb y → v = canonicalNaN eb mb) ∧ (isNaN eb mb x → ¬ isNaN eb mb y → v = y) ∧
  (¬ isNaN eb mb x → isNaN eb mb y → v = x) ∧
  (¬ isNaN eb mb x → ¬ isNaN eb mb y →
    if most then v = (if rank eb mb y ≤ rank eb mb x then x else y) else v = (if rank eb mb x ≤ rank eb mb y then x else y))

/-- `x` below `y`, and `x` equal to `y` (R137): infinities at the ends, -0 equal to +0, nothing with a NaN. -/
def below (eb mb x y : Nat) : Prop :=
  ¬ isNaN eb mb x ∧ ¬ isNaN eb mb y ∧
    ((isFinite eb mb x ∧ isFinite eb mb y ∧ value eb mb x < value eb mb y) ∨
     (isInf eb mb x ∧ signAt eb mb x = true ∧ ¬ (isInf eb mb y ∧ signAt eb mb y = true)) ∨
     (isInf eb mb y ∧ signAt eb mb y = false ∧ ¬ (isInf eb mb x ∧ signAt eb mb x = false)))
def equals (eb mb x y : Nat) : Prop :=
  ¬ isNaN eb mb x ∧ ¬ isNaN eb mb y ∧
    ((isFinite eb mb x ∧ isFinite eb mb y ∧ value eb mb x = value eb mb y) ∨ (isInf eb mb x ∧ x = y))

/-- The compares of R239: float (condition; whether a quiet NaN raises NV too) and integer. -/
noncomputable def floatCompares : List ((Vc → Instr) × (Vcs → Instr) × (Nat → Nat → Nat → Nat → Prop) × Bool) := [
  (.vcmpFeq, .vcmpsFeq, equals, false), (.vcmpFlt, .vcmpsFlt, below, true),
  (.vcmpFle, .vcmpsFle, fun eb mb x y => below eb mb x y ∨ equals eb mb x y, true),
  (.vcmpFun, .vcmpsFun, fun eb mb x y => isNaN eb mb x ∨ isNaN eb mb y, false)]
noncomputable def intCompares : List ((Vc → Instr) × (Vcs → Instr) × (Nat → Nat → Int → Int → Prop)) := [
  (.vcmpIeq, .vcmpsIeq, fun a b _ _ => a = b), (.vcmpIlt, .vcmpsIlt, fun _ _ sa sb => sa < sb),
  (.vcmpIltu, .vcmpsIltu, fun a b _ _ => a < b), (.vcmpIle, .vcmpsIle, fun _ _ sa sb => sa ≤ sb)]
/-- The mask of a compare: a lane's bit is set when its mask bit is and all its elements compare true (R239). -/
def Lanes (w : Nat) (m d : BitVec 128) (c : Nat → Prop) : Prop :=
  ∀ i, i < 128 → (d.getLsbD i = true ↔ m.getLsbD i = true ∧ ∀ j, j < 4096 / w → j * w / 32 = i → c j)

/-- The scalar operand of VS forms (R233), and where a word that has one gets `b` from. -/
def scalarB (th : Thread) (sb : BitVec 5) (w : Nat) : Nat → Nat := fun _ => (th.src sb).toNat % 2 ^ w

/-- The VV form and the VS form of a function, for a word that may read and write: `P` is said of the word and its second
source (R233). -/
def Forms (s : State) (th : Thread) (vd va : BitVec 5) (vm : BitVec 3) (ty : BitVec 2) (w : Nat) (vv : Vv → Instr) (vs : Vs → Instr)
    (P : Instr → (Nat → Nat) → Prop) : Prop :=
  (∀ vb, Vectors s th [vd, va, vb] [vd] → P (vv ⟨vd, va, vb, vm, ty⟩) (element w (s.vreg th vb))) ∧
  (∀ sb, Vectors s th [vd, va] [vd] → th.Ready [sb] [] → P (vs ⟨vd, va, sb, vm, ty⟩) (scalarB th sb w))
/-- The same of a compare. -/
def CompareForms (s : State) (th : Thread) (md : BitVec 3) (va : BitVec 5) (vm : BitVec 3) (ty : BitVec 2) (w : Nat)
    (vc : Vc → Instr) (vcs : Vcs → Instr) (P : Instr → (Nat → Nat) → Prop) : Prop :=
  (∀ vb, Vectors s th [va, vb] [] → P (vc ⟨md, va, vb, vm, ty⟩) (element w (s.vreg th vb))) ∧
  (∀ sb, Vectors s th [va] [] → th.Ready [sb] [] → P (vcs ⟨md, va, sb, vm, ty⟩) (scalarB th sb w))

/-- A float word of R236: it writes `r` into its active elements with the flags `fls`, one rule for each. -/
def FloatWord (s : State) (th : Thread) (vd : BitVec 5) (vm : BitVec 3) (w : Nat) (i : Instr) (rule : Nat → Nat → BitVec 6 → Prop) :
    Prop :=
  ∃ x fl r fls, VecFloats i s th.retire th vd x fl ∧ FlagsOf (4096 / w) (governs (s.mask th vm) w) fls fl ∧
    Elements w (s.mask th vm) (s.vreg th vd) x r ∧ ∀ j, j < 4096 / w → governs (s.mask th vm) w j = true → rule j (r j) (fls j)

/-- The active elements in ascending order. -/
def activeOf (m : BitVec 128) (w : Nat) : List Nat := (List.range (4096 / w)).filter (governs m w)
/-- The permutations of R245 for a lone thread: element `j` from the elements `a` and `b`, with `e` elements in all and the active ones
`act`. -/
noncomputable def permutations2 : List ((Vv → Instr) × (Nat → (Nat → Nat) → (Nat → Nat) → Nat → Nat)) := [
  (.vpermPerm, fun e a b j => a (b j % e)), (.vpermRot, fun e a b j => a ((j + b 0) % e)),
  (.vpermBcastl, fun e a b _ => a (b 0 % e)), (.vpermZip, fun _ a b j => if j % 2 = 0 then a (j / 2) else b (j / 2))]

/-- The special functions of R246: their results at +0, -0, +∞ and -∞ and the flags there (R222); `one` and `half` are 1 and 0.5. -/
noncomputable def specials : List ((V2 → Instr) × (Nat → Nat → Nat → Nat → List (Nat × BitVec 6))) := [
  (.vsfEx2, fun one _ inf _ => [(one, 0), (one, 0), (inf, 0), (0, 0)]),
  (.vsfLg2, fun _ _ inf neg => [(inf + neg, 2), (inf + neg, 2), (inf, 0), (inf + inf, 1)]),
  (.vsfRcp, fun _ _ inf neg => [(inf, 2), (inf + neg, 2), (0, 0), (neg, 0)]),
  (.vsfRsqrt, fun _ _ inf neg => [(inf, 2), (inf + neg, 2), (0, 0), (inf + inf, 1)]),
  (.vsfSin, fun _ _ inf neg => [(0, 0), (neg, 0), (inf + inf, 1), (inf + inf, 1)]),
  (.vsfCos, fun one _ inf _ => [(one, 0), (one, 0), (inf + inf, 1), (inf + inf, 1)]),
  (.vsfTanh, fun one _ _ neg => [(0, 0), (neg, 0), (one, 0), (one + neg, 0)]),
  (.vsfSigm, fun one half _ _ => [(half, 0), (half, 0), (one, 0), (0, 0)])]

/-! Conversions (R241-R243): codes 2 to 6 name float formats. -/
def codeExp (c : Nat) : Nat := match c with | 2 => 8 | 3 => 5 | 4 => 4 | 5 => 5 | _ => 2
def codeFrac (c : Nat) : Nat := match c with | 2 => 7 | 3 => 10 | 4 => 3 | 5 => 2 | _ => 1
def codeWidth (c : Nat) : Nat := 1 + codeExp c + codeFrac c
/-- Finite encodings (R207): E4M3 has one magnitude that is not, E2M1 none. -/
def codeFinite (c b : Nat) : Prop := if c = 4 then b % 128 ≠ 127 else if c = 6 then True else isFinite (codeExp c) (codeFrac c) b
noncomputable def codeValue (c b : Nat) : ℝ := value (codeExp c) (codeFrac c) b
/-- Acceptable codes of narrow and widen (R241). -/
def codeOk (ty : BitVec 2) (c : Nat) : Prop := (if ty = 0 then 2 else 4) ≤ c ∧ c ≤ 6
/-- The largest finite magnitude of a code's format, its infinity (R206: E4M3 and E2M1 have none), and its NaN (R213, R242). -/
def codeBig (c : Nat) : Nat := if c = 4 then 126 else if c = 6 then 7 else largest (codeExp c) (codeFrac c)
def codeInf (c : Nat) : Option Nat := if c = 4 ∨ c = 6 then none else some (infinity (codeExp c) (codeFrac c))
def codeNaN (c : Nat) : Nat := if c = 6 then 0 else if c = 4 then 127 else canonicalNaN (codeExp c) (codeFrac c)
/-- `x` rounded once into the format of the code (R212, R213): under a mode, or by a draw (R225). -/
def Narrowed (c : Nat) (how : Nat ⊕ ℝ) (zs : Bool) (x : ℝ) (r : Nat) (fl : BitVec 6) : Prop :=
  match how with
  | .inl rm => Rounds (codeExp c) (codeFrac c) (codeBig c) (codeInf c) rm zs x r fl
  | .inr d => DrawnRound (codeExp c) (codeFrac c) (codeBig c) (codeInf c) d zs x r fl
/-- A NaN or an infinity narrowed (R213): into a format without the one or the other with NV. -/
def NarrowSpecial (c eb mb x r : Nat) (fl : BitVec 6) : Prop :=
  (isNaN eb mb x → r = codeNaN c ∧ (isSignalling eb mb x ∨ c = 6 → fl = 1) ∧ (¬ isSignalling eb mb x → c ≠ 6 → fl = 0)) ∧
  (isInf eb mb x → r = withSign (codeExp c) (codeFrac c) (signAt eb mb x) ((codeInf c).getD (codeBig c)) ∧
    fl = if codeInf c = none then 1 else 0)
/-- A NaN or an infinity of a code's format widened: a NaN of an 8-bit format is quiet (R207). -/
def WidenSpecial (c eb mb y r : Nat) (fl : BitVec 6) : Prop :=
  (¬ codeFinite c y → (c = 4 ∨ isNaN (codeExp c) (codeFrac c) y) → r = canonicalNaN eb mb ∧
    fl = if c ≤ 3 ∧ y.testBit (codeFrac c - 1) = false then 1 else 0) ∧
  (¬ codeFinite c y → c ≠ 4 → isInf (codeExp c) (codeFrac c) y →
    r = withSign eb mb (signAt (codeExp c) (codeFrac c) y) (infinity eb mb) ∧ fl = 0)
/-- A conversion of `4096 / max ws wd` elements; the bits above those keep their values (R242). `bad` elements set NV, which raises no
trap (R211). -/
def ConvertWord (s : State) (th : Thread) (o : Vv) (ws wd : Nat) (i : Instr) (u : Thread) (bad : Nat → Prop)
    (rule : Nat → Nat → BitVec 6 → Prop) : Prop :=
  let wide := max ws wd
  let n := 4096 / wide
  ∃ (x : BitVec 4096) (fl q : BitVec 6) (r : Nat → Nat) (fls : Nat → BitVec 6), VecFloats i s u th o.vd x fl q ∧
    ((∃ j, j < n ∧ governs (s.mask th o.vm) wide j = true ∧ bad j) → q = 1) ∧
    ((∀ j, j < n → governs (s.mask th o.vm) wide j = true → ¬ bad j) → q = 0) ∧ FlagsOf n (governs (s.mask th o.vm) wide) fls fl ∧
    (∀ j, j < n → element wd x j = if governs (s.mask th o.vm) wide j then r j else element wd (s.vreg th o.vd) j) ∧
    x.toNat / 2 ^ (n * wd) = (s.vreg th o.vd).toNat / 2 ^ (n * wd) ∧
    ∀ j, j < n → governs (s.mask th o.vm) wide j = true → rule j (r j) (fls j)
/-- CVC advanced by `n` (R242). -/
def Counts (u : Thread) (n : Nat) : Thread := u.modC fun c => { c with cvc := c.cvc + BitVec.ofNat 32 n }
/-- The scale that the hint latch names (R243): its register, or none. -/
def HasScale (th : Thread) : Option (BitVec 5) → Prop
  | none => th.c.hint.getLsbD 60 = false
  | some v => th.c.hint.getLsbD 60 = true ∧ th.c.hint.toNat / 2 ^ 48 % 32 = v.toNat
def validScale (k : Nat) : Prop := k < 2 ^ 31 ∧ 1 ≤ k / 2 ^ 23 ∧ k / 2 ^ 23 ≤ 254

/-! Vector memory (R248). -/
def elementBits (ew : BitVec 2) : Nat := if ew = 0 then 32 else if ew = 1 then 16 else 8
/-- The address of an element of `vld` and `vst`, and of a lane of `vgth` and `vsct`. -/
def elementAddress (th : Thread) (o : Vm) (j : Nat) : W64 :=
  if o.md = 1 then th.src o.sb + BitVec.ofNat 64 j * th.src o.si else th.src o.sb + BitVec.ofNat 64 (j * (elementBits o.ew / 8))
def laneAddress (s : State) (th : Thread) (o : Vg) (i : Nat) : W64 :=
  th.src o.sb + BitVec.ofInt 64 (sgn 32 (element 32 (s.vreg th o.vi) i))
/-- `j` is the first of the elements at whose address a rule of `CHECK` is broken (R249). -/
def FirstBreak (s : State) (th : Thread) (n : Nat) (isLoad : Bool) (js : List Nat) (ea : Nat → W64) (j : Nat) (c : Cause) : Prop :=
  ∃ l r, js = l ++ j :: r ∧ (∀ k ∈ l, ∀ d, ¬ Breaks s th (ea k) n isLoad d) ∧ Breaks s th (ea j) n isLoad c
end Sys2Proof.Claims

namespace Sys2Proof.Claims

open Sys2Proof.Machine

/-- `vi`, `vis`, `vl`, `vls` (R237, R238) and `vsel` (R240): every active element gets its function of the sources, the scalar
taken at the element's width (R233), every other element is kept (R231); VX is set; nothing else changes.
Complete here: `viAdd`, `viSub`, `viMul`, `viMulh`, `viMin`, `viMax`, `viMinu`, `viMaxu`, `viAbs`, `viNeg`, `viAdds`, `viSubs`,
`visAdd`, `visSub`, `visMul`, `visMulh`, `visMin`, `visMax`, `visMinu`, `visMaxu`, `visAbs`, `visNeg`, `visAdds`, `visSubs`,
`vlAnd`, `vlOr`, `vlXor`, `vlAndn`, `vlShl`, `vlShr`, `vlSra`, `vlsAnd`, `vlsOr`, `vlsXor`, `vlsAndn`, `vlsShl`, `vlsShr`,
`vlsSra`, `vsel`. -/
def VectorIntegers : Prop :=
  ∀ (s : State) (th : Thread) (vd va : BitVec 5) (vm : BitVec 3) (ty : BitVec 2),
  let w := intWidth ty
  let A := element w (s.vreg th va)
  (∀ e ∈ vecIntegers, Forms s th vd va vm ty w e.1 e.2.1 fun i B =>
    ∃ x, VecDone i s th.retire th vd x 0 ∧ Elements w (s.mask th vm) (s.vreg th vd) x fun j =>
      (e.2.2 w (A j) (B j) (sgn w (A j)) (sgn w (B j)) % 2 ^ w).toNat) ∧
  (∀ e ∈ vecIntegers1, Vectors s th [vd, va] [vd] →
    ∃ x, VecDone (e.1 ⟨vd, va, vm, ty⟩) s th.retire th vd x 0 ∧ Elements w (s.mask th vm) (s.vreg th vd) x fun j =>
      (e.2 (sgn w (A j)) % 2 ^ w).toNat) ∧
  (∀ vb, Vectors s th [vd, va, vb] [vd] →
    ∃ x, VecDone (.vsel ⟨vd, va, vb, vm, ty⟩) s th.retire th vd x 0 ∧ ∀ i, i < 128 → element 32 x i =
      if (s.mask th vm).getLsbD i then element 32 (s.vreg th va) i else element 32 (s.vreg th vb) i)

end Sys2Proof.Claims

namespace Sys2Proof.Claims

open Sys2Proof.Machine

/-- `vf` and `vfs` (R236, R215): each active element rounds its exact result once in the element type, with the flags of R131, which
are ORed over the active elements; a NaN operand gives the canonical NaN, a finite number over 0 an infinity with DZ; min and max
follow R133; abs and neg are bit operations. With a flag enabled in FT nothing is written (R232).
Complete here: `vfAdd`, `vfSub`, `vfMul`, `vfFma`, `vfFms`, `vfFnma`, `vfMin`, `vfMax`, `vfAbs`, `vfNeg`, `vfDiv`, `vfSqrt`,
`vfsAdd`, `vfsSub`, `vfsMul`, `vfsFma`, `vfsFms`, `vfsFnma`, `vfsMin`, `vfsMax`, `vfsAbs`, `vfsNeg`, `vfsDiv`, `vfsSqrt`. -/
def VectorFloats : Prop :=
  ∀ (s : State) (th : Thread) (vd va : BitVec 5) (vm : BitVec 3) (ty : BitVec 2), ty ≠ 3 →
  let eb := expBits ty
  let mb := fracBits ty
  let w := fltWidth ty
  let X := element w (s.vreg th va)
  let Z := element w (s.vreg th vd)
  (∀ e ∈ vecArithmetic, Forms s th vd va vm ty w e.1 e.2.1 fun i Y => FloatWord s th vd vm w i fun j r fl =>
    let fused := e.2.2.2.2.1
    let div := e.2.2.2.2.2 = true
    (isFinite eb mb (X j) → isFinite eb mb (Y j) → (fused = true → isFinite eb mb (Z j)) → (div → ¬ isZero eb mb (Y j)) →
      Rounded eb mb th.rm.toNat (e.2.2.2.1 (th.rm == 3) (signAt eb mb (X j)) (signAt eb mb (Y j)) (signAt eb mb (Z j)))
        (e.2.2.1 (value eb mb (X j)) (value eb mb (Y j)) (value eb mb (Z j))) r fl) ∧
    (anyOf (isNaN eb mb) fused (X j) (Y j) (Z j) → r = canonicalNaN eb mb ∧
      (anyOf (isSignalling eb mb) fused (X j) (Y j) (Z j) → fl = 1)) ∧
    (div → isZero eb mb (Y j) → isFinite eb mb (X j) → ¬ isZero eb mb (X j) →
      r = withSign eb mb (signAt eb mb (X j) ^^ signAt eb mb (Y j)) (infinity eb mb) ∧ fl = 2)) ∧
  (∀ e ∈ [(Instr.vfMin, Instr.vfsMin, false), (.vfMax, .vfsMax, true)], Forms s th vd va vm ty w e.1 e.2.1 fun i Y =>
    FloatWord s th vd vm w i fun j r fl => Extreme eb mb e.2.2 (X j) (Y j) r fl) ∧
  (Vectors s th [vd, va] [vd] →
    (∀ i ∈ [Instr.vfAbs ⟨vd, va, vm, ty⟩, .vfsAbs ⟨vd, va, vm, ty⟩], FloatWord s th vd vm w i fun j r fl =>
      r = X j % 2 ^ (w - 1) ∧ fl = 0) ∧
    (∀ i ∈ [Instr.vfNeg ⟨vd, va, vm, ty⟩, .vfsNeg ⟨vd, va, vm, ty⟩], FloatWord s th vd vm w i fun j r fl =>
      r = withSign eb mb (!signAt eb mb (X j)) (X j % 2 ^ (w - 1)) ∧ fl = 0) ∧
    (∀ i ∈ [Instr.vfSqrt ⟨vd, va, vm, ty⟩, .vfsSqrt ⟨vd, va, vm, ty⟩], FloatWord s th vd vm w i fun j r fl =>
      (isFinite eb mb (X j) → (signAt eb mb (X j) = false ∨ isZero eb mb (X j)) →
        Rounded eb mb th.rm.toNat (signAt eb mb (X j)) (Real.sqrt (value eb mb (X j))) r fl) ∧
      (¬ isNaN eb mb (X j) → signAt eb mb (X j) = true → ¬ isZero eb mb (X j) → r = canonicalNaN eb mb ∧ fl = 1)))

end Sys2Proof.Claims

namespace Sys2Proof.Claims

open Sys2Proof.Machine

/-- `vcmp` and `vcmps` (R239, R137): a bit of the destination mask is set when the mask has it and every element of its lane compares
true; NV for a signalling NaN, and in flt and fle for any NaN, of an active element; a write to `m0` is ignored (R24); when NV is
enabled the mask keeps its value.
Complete here: `vcmpFeq`, `vcmpFlt`, `vcmpFle`, `vcmpFun`, `vcmpIeq`, `vcmpIlt`, `vcmpIltu`, `vcmpIle`, `vcmpsFeq`, `vcmpsFlt`,
`vcmpsFle`, `vcmpsFun`, `vcmpsIeq`, `vcmpsIlt`, `vcmpsIltu`, `vcmpsIle`. -/
def VectorCompares : Prop :=
  ∀ (s : State) (th : Thread) (md vm : BitVec 3) (va : BitVec 5) (ty : BitVec 2), ty ≠ 3 →
  (∀ e ∈ floatCompares,
    let eb := expBits ty
    let mb := fracBits ty
    let w := fltWidth ty
    let X := element w (s.vreg th va)
    CompareForms s th md va vm ty w e.1 e.2.1 fun i Y => ∃ d fl,
      (fl.extractLsb' 0 5 &&& th.ft = 0 → MaskDone i s th md d fl) ∧ (fl.extractLsb' 0 5 &&& th.ft ≠ 0 → VecHeld i s th fl) ∧
      Lanes w (s.mask th vm) d (fun j => e.2.2.1 eb mb (X j) (Y j)) ∧
      let bad := ∃ j, j < 4096 / w ∧ governs (s.mask th vm) w j = true ∧
        (isSignalling eb mb (X j) ∨ isSignalling eb mb (Y j) ∨ (e.2.2.2 = true ∧ (isNaN eb mb (X j) ∨ isNaN eb mb (Y j))))
      (bad → fl = 1) ∧ (¬ bad → fl = 0)) ∧
  (∀ e ∈ intCompares,
    let w := intWidth ty
    let A := element w (s.vreg th va)
    CompareForms s th md va vm ty w e.1 e.2.1 fun i B => ∃ d, MaskDone i s th md d 0 ∧
      Lanes w (s.mask th vm) d (fun j => e.2.2 (A j) (B j) (sgn w (A j)) (sgn w (B j)))) ∧
  (∀ x fl, md = 0 → (((s.raise s.cur th.retire fl).setMask th md x).slots = s.slots))

end Sys2Proof.Claims

/-- Vector floating-point functions and compares: `VectorFloats`, `VectorCompares` above. -/
def Obligations.VectorFloatsAndCompares : Prop := Sys2Proof.Claims.VectorFloats ∧ Sys2Proof.Claims.VectorCompares

namespace Sys2Proof.Claims

open Sys2Proof.Machine

/-- `vcvt` (R213, R214, R225, R241-R243): N elements of the wider width are converted, the others and the bits above kept; narrow
rounds the source, times a valid scale, once, by the mode or under RM = 5 by the element's draw; narrows always by the draw; widen is
exact, or rounds when scaled; i2f and f2i convert integers; NaNs and infinities follow R213; an invalid scale gives the NaN and sets
NV, which raises no trap. CVC advances by N when the word may draw (R225).
Complete here: `vcvtNarrow`, `vcvtNarrows`, `vcvtWiden`, `vcvtI2f`, `vcvtF2i`. -/
def VectorConversions : Prop :=
  ∀ (o : Vv) (s : State) (th : Thread), o.ty ≠ 3 →
  let c := o.vb.toNat
  let eb := expBits o.ty
  let mb := fracBits o.ty
  let w := fltWidth o.ty
  let stochastic := th.rm = 5
  let how : Nat → Nat ⊕ ℝ := fun j => if th.rm = 5 then .inr (drawOf th j) else .inl th.rm.toNat
  (∀ sc : Option (BitVec 5), HasScale th sc → Vectors s th ([o.vd, o.va] ++ sc.toList) [o.vd] → codeOk o.ty c →
    let wide := max w (codeWidth c)
    let n := 4096 / wide
    let K : Nat → Option Nat := fun j => sc.map fun v => element 32 (s.vreg th v) (j * wide / 32)
    let ok : Nat → Prop := fun j => ∀ k, K j = some k → validScale k
    let factor : Nat → ℝ := fun j => match K j with | some k => value 8 23 k | none => 1
    let X := element w (s.vreg th o.va)
    let Y := element (codeWidth c) (s.vreg th o.va)
    let narrowed : (Nat → Nat ⊕ ℝ) → Nat → Nat → BitVec 6 → Prop := fun how j r fl =>
      (¬ ok j → r = codeNaN c ∧ fl = 0) ∧ (ok j → NarrowSpecial c eb mb (X j) r fl) ∧
      (ok j → isFinite eb mb (X j) → Narrowed c (how j) (signAt eb mb (X j)) (value eb mb (X j) * factor j) r fl)
    (∀ u, (stochastic → u = Counts th.retire n) → (¬ stochastic → u = th.retire) →
      ConvertWord s th o w (codeWidth c) (.vcvtNarrow o) u (fun j => ¬ ok j) (narrowed how)) ∧
    ConvertWord s th o w (codeWidth c) (.vcvtNarrows o) (Counts th.retire n) (fun j => ¬ ok j) (narrowed fun j => .inr (drawOf th j)) ∧
    (∀ u, (stochastic ∧ sc.isSome → u = Counts th.retire n) → (¬ (stochastic ∧ sc.isSome) → u = th.retire) →
      ConvertWord s th o (codeWidth c) w (.vcvtWiden o) u (fun j => ¬ ok j) fun j r fl =>
        let zs := signAt (codeExp c) (codeFrac c) (Y j)
        (¬ ok j → r = canonicalNaN eb mb ∧ fl = 0) ∧ (ok j → WidenSpecial c eb mb (Y j) r fl) ∧
        (sc = none → codeFinite c (Y j) → isFinite eb mb r ∧ signAt eb mb r = zs ∧ value eb mb r = codeValue c (Y j) ∧ fl = 0) ∧
        (ok j → ¬ stochastic → codeFinite c (Y j) → Rounded eb mb th.rm.toNat zs (codeValue c (Y j) * factor j) r fl) ∧
        (ok j → stochastic → codeFinite c (Y j) →
          DrawnRound eb mb (largest eb mb) (some (infinity eb mb)) (drawOf th j) zs (codeValue c (Y j) * factor j) r fl))) ∧
  (∀ e ∈ [(7, 8, true), (8, 8, false), (9, 32, true)], c = e.1 → Vectors s th [o.vd, o.va] [o.vd] →
    let b := e.2.1
    let n := 4096 / max w b
    let whole : Nat → Int := fun j => if e.2.2 then sgn b (element b (s.vreg th o.va) j) else element b (s.vreg th o.va) j
    let lo : Int := if e.2.2 then -(2 ^ (b - 1)) else 0
    let hi : Int := if e.2.2 then 2 ^ (b - 1) - 1 else 2 ^ b - 1
    let X := element w (s.vreg th o.va)
    ∀ u, (stochastic → u = Counts th.retire n) → (¬ stochastic → u = th.retire) →
      (ConvertWord s th o b w (.vcvtI2f o) u (fun _ => False) fun j r fl =>
        (¬ stochastic → Rounded eb mb th.rm.toNat false (whole j) r fl) ∧
        (stochastic → DrawnRound eb mb (largest eb mb) (some (infinity eb mb)) (drawOf th j) false (whole j) r fl)) ∧
      (ConvertWord s th o w b (.vcvtF2i o) u (fun _ => False) fun j r fl =>
        (isNaN eb mb (X j) → r = 0 ∧ fl = 1) ∧
        (isInf eb mb (X j) → r = ((if signAt eb mb (X j) then lo else hi) % 2 ^ b).toNat ∧ fl = 1) ∧
        (isFinite eb mb (X j) → ∀ q, (if th.rm = 5 then DrawnInt (drawOf th j) (value eb mb (X j)) q
            else RoundedInt th.rm.toNat (value eb mb (X j)) q) →
          (hi < q → r = (hi % 2 ^ b).toNat ∧ fl = 1) ∧ (q < lo → r = (lo % 2 ^ b).toNat ∧ fl = 1) ∧
          (lo ≤ q → q ≤ hi → r = (q % 2 ^ b).toNat ∧ ((q : ℝ) ≠ value eb mb (X j) → fl = 16) ∧ ((q : ℝ) = value eb mb (X j) → fl = 0)))))

end Sys2Proof.Claims

namespace Sys2Proof.Claims

open Sys2Proof.Machine

/-- `vred` of a lone thread (R219, R220, R244): every element of the destination gets the result over the active elements; the float sums,
maxima and minima are formed in the pairwise tree, where an inactive element is the identity.
Complete here: `vredFsum`, `vredFmax`, `vredFmin`, `vredIsum`, `vredImax`, `vredImin`, `vredAnd`, `vredOr`. -/
def VectorReductions : Prop :=
  ∀ (o : V2) (s : State) (th : Thread), o.ty ≠ 3 → Vectors s th [o.vd, o.va] [o.vd] →
  (let eb := expBits o.ty
   let mb := fracBits o.ty
   let w := fltWidth o.ty
   let n := 4096 / w
   let act := governs (s.mask th o.vm) w
   let X := element w (s.vreg th o.va)
   let levels := if o.ty = 0 then 7 else 8
   -- fsum: T l j is node j of level l in FP32, G its flags
   ((∀ j, j < n → act j = true → isFinite eb mb (X j)) →
     ∃ x fl, ∃ T : Nat → Nat → Nat, ∃ G : Nat → Nat → BitVec 6, VecFloats (.vredFsum o) s th.retire th o.vd x fl ∧
       (∀ j, j < n → isFinite 8 23 (T 0 j) ∧ if act j then value 8 23 (T 0 j) = value eb mb (X j) ∧
         signAt 8 23 (T 0 j) = signAt eb mb (X j) else T 0 j = 2 ^ 31) ∧
       (∀ l j, l < levels → j < n / 2 ^ (l + 1) → isFinite 8 23 (T l (2 * j)) → isFinite 8 23 (T l (2 * j + 1)) →
         Rounded 8 23 0 (signAt 8 23 (T l (2 * j)) && signAt 8 23 (T l (2 * j + 1)))
           (value 8 23 (T l (2 * j)) + value 8 23 (T l (2 * j + 1))) (T (l + 1) j) (G l j)) ∧
       (∀ k, k < 6 → (fl.getLsbD k = true ↔ ∃ l j, l < levels ∧ j < n / 2 ^ (l + 1) ∧ (G l j).getLsbD k = true)) ∧
       ∀ j, j < 128 → element 32 x j = T levels 0) ∧
   (∀ e ∈ [(Instr.vredFmax o, true), (.vredFmin o, false)],
     ∃ x fl, ∃ T : Nat → Nat → Nat, ∃ G : Nat → Nat → BitVec 6, VecFloats e.1 s th.retire th o.vd x fl ∧
       (∀ j, j < n → T 0 j = if act j then X j else withSign eb mb e.2 (infinity eb mb)) ∧
       (∀ l j, l < levels → j < n / 2 ^ (l + 1) → Extreme eb mb e.2 (T l (2 * j)) (T l (2 * j + 1)) (T (l + 1) j) (G l j)) ∧
       (∀ k, k < 6 → (fl.getLsbD k = true ↔ ∃ l j, l < levels ∧ j < n / 2 ^ (l + 1) ∧ (G l j).getLsbD k = true)) ∧
       ∀ j, j < n → element w x j = T levels 0)) ∧
  (let w := intWidth o.ty
   let act := activeOf (s.mask th o.vm) w
   let A := element w (s.vreg th o.va)
   let all : Instr → Nat → (Nat → Prop) → Prop := fun i wr P =>
     ∃ x r, VecDone i s th.retire th o.vd x 0 ∧ r < 2 ^ wr ∧ (∀ j, j < 4096 / wr → element wr x j = r) ∧ P r
   all (.vredIsum o) 32 (fun r => (r : Int) = (act.map fun j => sgn w (A j)).sum % 2 ^ 32) ∧
   all (.vredImax o) w (fun r => (act = [] → r = 2 ^ (w - 1)) ∧ (act ≠ [] → ∃ j ∈ act, r = A j ∧ ∀ k ∈ act, sgn w (A k) ≤ sgn w r)) ∧
   all (.vredImin o) w (fun r => (act = [] → r = 2 ^ (w - 1) - 1) ∧ (act ≠ [] → ∃ j ∈ act, r = A j ∧ ∀ k ∈ act, sgn w r ≤ sgn w (A k))) ∧
   all (.vredAnd o) w (fun r => ∀ k, k < w → (r.testBit k = true ↔ ∀ j ∈ act, (A j).testBit k = true)) ∧
   all (.vredOr o) w (fun r => ∀ k, k < w → (r.testBit k = true ↔ ∃ j ∈ act, (A j).testBit k = true)))

end Sys2Proof.Claims

/-- Vector conversions and reductions: `VectorConversions`, `VectorReductions` above. -/
def Obligations.VectorConversionsAndReductions : Prop := Sys2Proof.Claims.VectorConversions ∧ Sys2Proof.Claims.VectorReductions

namespace Sys2Proof.Claims

open Sys2Proof.Machine

/-- `vperm` of a lone thread (R245), `vmv` (R247): where each element comes from. mtos and extract write a scalar register and no vector
state; stom keeps the mask's other half, and `m0` ignores it.
Complete here: `vpermPerm`, `vpermRot`, `vpermBcastl`, `vpermZip`, `vpermUnzip`, `vpermCompress`, `vpermExpand`, `vpermIota`,
`vmvSplat`, `vmvExtract`, `vmvInsert`, `vmvMtos`, `vmvStom`. -/
def VectorMoves : Prop :=
  ∀ (s : State) (th : Thread) (vd va : BitVec 5) (vm : BitVec 3) (ty : BitVec 2),
  let w := intWidth ty
  let e := 4096 / w
  let m := s.mask th vm
  let A := element w (s.vreg th va)
  let old := s.vreg th vd
  (∀ p ∈ permutations2, ∀ vb, Vectors s th [vd, va, vb] [vd] → ∃ x, VecDone (p.1 ⟨vd, va, vb, vm, ty⟩) s th.retire th vd x 0 ∧
    Elements w m old x (p.2 e A (element w (s.vreg th vb)))) ∧
  (Vectors s th [vd, va] [vd] →
    (∃ x, VecDone (.vpermUnzip ⟨vd, va, vm, ty⟩) s th.retire th vd x 0 ∧
      Elements w m old x fun j => if j < e / 2 then A (2 * j) else A (2 * (j - e / 2) + 1)) ∧
    (∃ x, VecDone (.vpermCompress ⟨vd, va, vm, ty⟩) s th.retire th vd x 0 ∧ ∀ j, j < e →
      element w x j = match (activeOf m w)[j]? with | some i => A i | none => 0) ∧
    (∃ x, VecDone (.vpermExpand ⟨vd, va, vm, ty⟩) s th.retire th vd x 0 ∧
      Elements w m old x fun j => A ((List.range j).filter (governs m w)).length)) ∧
  (Vectors s th [vd] [vd] →
    (∃ x, VecDone (.vpermIota vd vm ty) s th.retire th vd x 0 ∧ Elements w m old x fun j => j % 2 ^ w) ∧
    (∀ sb, th.Ready [sb] [] → ∃ x, VecDone (.vmvSplat vd sb vm ty) s th.retire th vd x 0 ∧
      Elements w m old x fun _ => (th.src sb).toNat % 2 ^ w) ∧
    (∀ sa sb, th.Ready [sa, sb] [] → ∃ x, VecDone (.vmvInsert vd sa sb ty) s th.retire th vd x 0 ∧ ∀ j, j < e →
      element w x j = if j = (th.src sb).toNat % e then (th.src sa).toNat % 2 ^ w else element w old j)) ∧
  (Vectors s th [va] [] → ∀ sd sb, th.Ready [sb] [sd] → exec (.vmvExtract sd va sb ty) s = .next (s.setThread s.cur
    (th.retire.setX sd (BitVec.ofInt 64 (sgn w (A ((th.src sb).toNat % e))))))) ∧
  (Vectors s th [] [] → ∀ (k : BitVec 3) (half : BitVec 1),
    (∀ sd, th.Ready [] [sd] → exec (.vmvMtos sd half k) s = .next (s.setThread s.cur (th.retire.setX sd
      (BitVec.ofNat 64 ((s.mask th k).toNat / 2 ^ (64 * half.toNat)))))) ∧
    (∀ sb, th.Ready [sb] [] → ∃ x, MaskDone (.vmvStom half k sb) s th k x 0 ∧
      x.toNat / 2 ^ (64 * half.toNat) % 2 ^ 64 = (th.src sb).toNat ∧
      x.toNat / 2 ^ (64 - 64 * half.toNat) % 2 ^ 64 = (s.mask th k).toNat / 2 ^ (64 - 64 * half.toNat) % 2 ^ 64))

end Sys2Proof.Claims

/-- Vector integer functions, moves and permutations: `VectorIntegers`, `VectorMoves` above. -/
def Obligations.VectorIntegersAndMoves : Prop := Sys2Proof.Claims.VectorIntegers ∧ Sys2Proof.Claims.VectorMoves

/-- `vsf` (R222, R246): the special cases of the table; a NaN gives the canonical NaN, lg2 and rsqrt of a negative number NV; NX is never
raised; sin, tanh and rcp are odd and cos is even bit for bit; a function of the input and the type alone; a finite result of rcp is a
neighbour of the exact value.
Complete here: `vsfEx2`, `vsfLg2`, `vsfRcp`, `vsfRsqrt`, `vsfSin`, `vsfCos`, `vsfTanh`, `vsfSigm`. -/
def Obligations.SpecialFunctions : Prop :=
  ∀ e ∈ specials, ∃ F : BitVec 2 → Nat → Nat × BitVec 6,
    (∀ (o : V2) (s : State) (th : Thread), Vectors s th [o.vd, o.va] [o.vd] →
      FloatWord s th o.vd o.vm (fltWidth o.ty) (e.1 o) fun j r fl => (r, fl) = F o.ty (element (fltWidth o.ty) (s.vreg th o.va) j)) ∧
    ∀ ty : BitVec 2, ty ≠ 3 →
      let eb := expBits ty
      let mb := fracBits ty
      let neg := 2 ^ (eb + mb)
      let nan := canonicalNaN eb mb
      let inf := infinity eb mb
      let one := (2 ^ (eb - 1) - 1) * 2 ^ mb
      let table := (e.2 one (one - 2 ^ mb) inf neg).map fun p => if p.1 = inf + inf then (nan, p.2) else p
      [F ty 0, F ty neg, F ty inf, F ty (inf + neg)] = table ∧
      ∀ b, b < 2 * neg →
        (isNaN eb mb b → F ty b = (nan, if b.testBit (mb - 1) then 0 else 1)) ∧ (F ty b).2.getLsbD NX = false ∧
        (∀ o, isFinite eb mb b → ¬ isZero eb mb b → signAt eb mb b = true → (e.1 o = .vsfLg2 o ∨ e.1 o = .vsfRsqrt o) →
          F ty b = (nan, 1)) ∧
        (∀ o, isFinite eb mb b → signAt eb mb b = false → (e.1 o = .vsfSin o ∨ e.1 o = .vsfTanh o ∨ e.1 o = .vsfRcp o) →
          (F ty (b + neg)).1 % neg = (F ty b).1 % neg ∧ signAt eb mb (F ty (b + neg)).1 = !signAt eb mb (F ty b).1) ∧
        (∀ o, isFinite eb mb b → signAt eb mb b = false → e.1 o = .vsfCos o → (F ty (b + neg)).1 = (F ty b).1) ∧
        (∀ o v, e.1 o = .vsfRcp o → isFinite eb mb b → ¬ isZero eb mb b → isFinite eb mb (F ty b).1 → isFinite eb mb v →
          ¬ (min (value eb mb (F ty b).1) (1 / value eb mb b) < value eb mb v ∧
            value eb mb v < max (value eb mb (F ty b).1) (1 / value eb mb b)))

namespace Sys2Proof.Claims

open Sys2Proof.Machine

/-- A vector load in flight that may complete: none of its elements has failed at a home, each has its own bits of the register. -/
structure VecLoad (s : State) (th : Thread) (r : LoadReq) : Prop where
  here : s.threads.find r.tid = some th
  out : th.region = none ∧ th.det = false ∧ th.chunk.held = []
  flight : Instr.loadCompletion r ∈ s.pool
  ready : loadReady s r = true
  clean : s.ecc = []
  whole : ∀ p ∈ r.parts, p.lost = 0 ∧ 1 ≤ p.n ∧ 8 * p.n ≤ p.w ∧ p.lo + p.w ≤ 4096
  apart : r.parts.Pairwise fun p q => p.lo + p.w ≤ q.lo

/-- The register got the bits of each part, and nothing else of it, of the slots or of the context has changed (R24, R249). -/
structure FillsVector (s t : State) (r : LoadReq) (th u : Thread) (d : BitVec 5) (val : Part → Nat) : Prop where
  quiet : Quiet s t (.loadCompletion r) r.tid
  here : t.threads.find r.tid = some u
  context : u.c = th.c ∧ u.run = th.run
  active : ∀ p ∈ r.parts, (t.vreg th d).toNat / 2 ^ p.lo % 2 ^ p.w = val p
  inactive : ∀ k, k < 4096 → (∀ p ∈ r.parts, ¬ (p.lo ≤ k ∧ k < p.lo + p.w)) → (t.vreg th d).getLsbD k = (s.vreg th d).getLsbD k
  registers : ∀ v, v ≠ d → t.vreg th v = s.vreg th v
  masks : ∀ k, t.mask th k = s.mask th k
  slots : ∀ k, k ≠ th.slotNo → t.slotState k = s.slotState k

/-- What an element in a scratchpad gives (R141, R144): its bytes, or zero and a cause. -/
def elementRead (s : State) (r : LoadReq) (p : Part) : Nat × Option Cause :=
  match names r.core p.ea.toNat with
  | some (.sp c off) => match s.ownerCheck r.core c r.asid off p.n true with
    | none => (number (fun k => readByte s.mem (spKey c off + k)) p.n, none)
    | some cause => (0, some cause)
  | _ => (0, none)

/-- LOAD_COMPLETION of a vector load (R248-R250): the active elements of the register get their bytes, or zero where one fails, and no
others change; the lowest element that fails is the deferred report, one for the access; a broadcast fills every active element with its
one word; an element whose page has no translation holds the load. -/
def VectorLoadsComplete : Prop :=
  ∀ (s : State) (th : Thread) (r : LoadReq), VecLoad s th r →
  let reported : Thread → Prop := fun u => match r.parts.findSome? fun p => (elementRead s r p).2.map fun c => (c, p.ea) with
    | none => u.mo = th.mo
    | some (c, a) => Reports th u c a
  ((∀ p ∈ r.parts, ∃ c off, names r.core p.ea.toNat = some (.sp c off)) →
    (∀ d, r.dst = .vec d → Next (.loadCompletion r) s fun t => ∃ u, FillsVector s t r th u d (fun p => (elementRead s r p).1) ∧
      reported u) ∧
    (∀ d m w p, r.dst = .bcast d m w → w ∈ [8, 16, 32] → r.parts = [p] → p.lo = 0 → p.w = w → Next (.loadCompletion r) s fun t =>
      Quiet s t (.loadCompletion r) r.tid ∧ (∀ v, v ≠ d → t.vreg th v = s.vreg th v) ∧
      (∃ u, t.threads.find r.tid = some u ∧ u.c = th.c ∧ u.run = th.run ∧ reported u) ∧
      ∀ j, j < 4096 / w → element w (t.vreg th d) j =
        if governs m w j then (elementRead s r p).1 else element w (s.vreg th d) j)) ∧
  (∀ d p space va, r.dst = .vec d → r.parts = [p] → r.level = .plain → names r.core p.ea.toNat = some (.glob space va) →
    va % 64 + p.n ≤ 64 → (s.die (homeDie space va)).failed = false → copyInL1 s r.core r.asid space va p.n = none →
    match s.xlate r.asid space va false with
    | .ok x =>
      let byte : Nat → W8 := fun k => match (s.csbAll (r.core / 8) r.asid (p.ea.toNat / 64)).reverse.find?
          fun e => e.mask.getLsbD (va % 64 + k) with
        | some e => BitVec.ofNat 8 (e.data.toNat / 256 ^ (va % 64 + k))
        | none => readByte s.mem (x.key (homeDie space va) va + k)
      Next (.loadCompletion r) s fun t => ∃ u, FillsVector s t r th u d fun _ => number byte p.n
    | .error _ => Next (.loadCompletion r) s fun t => t.threads = s.threads ∧ t.mem = s.mem ∧ t.slots = s.slots ∧
      HeldAtHome t (homeDie space va) r.asid (.loadCompletion r))

end Sys2Proof.Claims

/-- `vld`, `vgth`, `vst`, `vsct` (R248-R251): the first active element that breaks a rule of `CHECK` traps with its address, and nothing
moves; a load whose checks pass leaves with one part for each active element, the word over, VX set; a store to the own scratchpad writes
the active elements' bytes, the highest element's where several name a byte, and no others. How the load's LOAD_COMPLETION fills the active
elements and no others: `VectorLoadsComplete` above.
Complete here: `vld`, `vst`, `vgth`, `vsct`. -/
def Obligations.VectorMemory : Prop := Sys2Proof.Claims.VectorLoadsComplete ∧
  ∀ (s : State) (th : Thread), th.rg = false →
  (∀ (o : Vm), o.ew ≠ 3 → let w := elementBits o.ew
    let js := activeOf (s.mask th o.vm) w
    let ea := elementAddress th o
    let from_ := if o.md = 2 then [0] else js
    th.Ready (if o.md = 1 then [o.sb, o.si] else [o.sb]) [] → o.md ≠ 3 →
    (Vectors s th [o.v] [o.v] →
      (∀ j c, FirstBreak s th (w / 8) true from_ ea j c → Traps (.vld o) s th c (ea j)) ∧
      ((∀ j ∈ from_, ∀ c, ¬ Breaks s th (ea j) (w / 8) true c) →
        ((∀ j ∈ from_, ∃ off, names th.core (ea j).toNat = some (.sp th.core off)) ∨ s.outstanding s.cur th < 32) → Next (.vld o) s fun t =>
        Sends s t th.retire.bindVx (.loadCompletion ⟨s.nextId, s.cur, th.core, th.c.asid,
          if o.md = 2 then .bcast o.v (s.mask th o.vm) w else .vec o.v,
          from_.map fun j => ⟨ea j, w / 8, if o.md = 2 then 0 else w * j, w, 0⟩, .plain, th.rhh?.getD o.rh⟩))) ∧
    (o.md ≠ 2 → Vectors s th [o.v] [] →
      (∀ j c, FirstBreak s th (w / 8) false js ea j c → Traps (.vst o) s th c (ea j)) ∧
      ((∀ j ∈ js, ∃ off, names th.core (ea j).toNat = some (.sp th.core off)) → (∀ j ∈ js, ∀ c, ¬ Breaks s th (ea j) (w / 8) false c) →
        s.storeWait s.cur th (js.map fun j => ⟨ea j, w / 8, BitVec.ofNat 128 (element w (s.vreg th o.v) j), j⟩) = none →
        Next (.vst o) s fun t => t.threads = (s.setThread s.cur th.retire).threads ∧ t.slots = s.slots ∧ t.fe = s.fe ∧
          (∀ j ∈ js, ∀ off, names th.core (ea j).toNat = some (.sp th.core off) →
            (∀ i ∈ js, j < i → ∀ q, names th.core (ea i).toNat = some (.sp th.core q) → q ≠ off) → ∀ k, k < w / 8 →
              readByte t.mem (spKey th.core off + k) = BitVec.ofNat 8 (element w (s.vreg th o.v) j / 256 ^ k)) ∧
          ∀ a, (∀ j ∈ js, ∀ off, names th.core (ea j).toNat = some (.sp th.core off) →
            ¬ (spKey th.core off ≤ a ∧ a < spKey th.core off + w / 8)) → readByte t.mem a = readByte s.mem a))) ∧
  (∀ (o : Vg), o.ew ≠ 3 → let n := elementBits o.ew / 8
    let js := activeOf (s.mask th o.vm) 32
    let ea := laneAddress s th o
    th.Ready [o.sb] [] →
    (Vectors s th [o.v, o.vi] [o.v] →
      (∀ j c, FirstBreak s th n true js ea j c → Traps (.vgth o) s th c (ea j)) ∧
      ((∀ j ∈ js, ∀ c, ¬ Breaks s th (ea j) n true c) →
        ((∀ j ∈ js, ∃ off, names th.core (ea j).toNat = some (.sp th.core off)) ∨ s.outstanding s.cur th < 32) → Next (.vgth o) s fun t =>
        Sends s t th.retire.bindVx (.loadCompletion ⟨s.nextId, s.cur, th.core, th.c.asid, .vec o.v,
          js.map fun i => ⟨ea i, n, 32 * i, 32, 0⟩, .plain, th.rhh?.getD o.rh⟩))) ∧
    (Vectors s th [o.v, o.vi] [] →
      (∀ j c, FirstBreak s th n false js ea j c → Traps (.vsct o) s th c (ea j)) ∧
      ((∀ j ∈ js, ∃ off, names th.core (ea j).toNat = some (.sp th.core off)) → (∀ j ∈ js, ∀ c, ¬ Breaks s th (ea j) n false c) →
        s.storeWait s.cur th (js.map fun j => ⟨ea j, n, BitVec.ofNat 128 (element 32 (s.vreg th o.v) j), j⟩) = none →
        Next (.vsct o) s fun t => t.threads = (s.setThread s.cur th.retire).threads ∧ t.slots = s.slots ∧ t.fe = s.fe ∧
          (∀ j ∈ js, ∀ off, names th.core (ea j).toNat = some (.sp th.core off) →
            (∀ i ∈ js, j < i → ∀ q, names th.core (ea i).toNat = some (.sp th.core q) → q ≠ off) → ∀ k, k < n →
              readByte t.mem (spKey th.core off + k) = BitVec.ofNat 8 (element 32 (s.vreg th o.v) j / 256 ^ k)) ∧
          ∀ a, (∀ j ∈ js, ∀ off, names th.core (ea j).toNat = some (.sp th.core off) →
            ¬ (spKey th.core off ≤ a ∧ a < spKey th.core off + n)) → readByte t.mem a = readByte s.mem a)))

namespace Sys2Proof.Claims

open Sys2Proof.Machine

/-! The matrix engine (R254-R265). Operand formats by the codes of R186: floats, 7 INT8, 8 UINT8. -/

noncomputable def mmaForms : List ((Mx → Instr) × Nat) := [
  (.mmaE4m3, 0), (.mmaE5m2, 1), (.mmaE4m3e5m2, 2), (.mmaE2m1, 3), (.mmaBf16, 4), (.mmaFp16, 5), (.mmaI8, 6), (.mmaU8i8, 7)]
def codeOfA (fn : Nat) : Nat := [4, 5, 4, 6, 2, 3, 7, 8].getD fn 0
def codeOfB (fn : Nat) : Nat := [4, 5, 5, 6, 2, 3, 7, 7].getD fn 0
def bitsOf (fn : Nat) : Nat := if fn = 3 then 4 else if fn = 4 ∨ fn = 5 then 16 else 8
/-- Registers of a group operand, and the numbers of the scale registers (R254, R257). -/
def registers (fn : Nat) (f : BitVec 5) : List (BitVec 5) :=
  (List.range (if fn = 3 then 8 else if fn = 4 ∨ fn = 5 then 32 else 16)).map fun i => BitVec.ofNat 5 ((if f.getLsbD 4 then 16 else 0) + i)
def scaleRegisters (th : Thread) (fn : Nat) : List (BitVec 5) :=
  let sv : BitVec 5 := if th.c.hint.getLsbD 60 then BitVec.ofNat 5 (th.c.hint.toNat / 2 ^ 48) else 31
  if 4 ≤ fn then [] else if fn = 3 then (List.range 4).map fun i => BitVec.ofNat 5 (sv.toNat / 4 * 4 + i) else [sv]
/-- Stored rows and elements in each (R255). -/
def storedAs (isA dir : Bool) : Nat × Nat := if isA = dir then (128, 64) else (64, 128)

/-- The LOCAL address of a base that names the core's own scratchpad (R139). -/
def localOf (core : Nat) (base : W64) : Nat :=
  match names core base.toNat with
  | some (.sp c off) => if c = core then off else base.toNat
  | _ => base.toNat
/-- The tile of a descriptor operand (R256): block rows, blocks in each, and the LOCAL address of a block. -/
def blockRows (sh : Nat × Nat) (bits : Nat) : Nat := if sh.2 * bits / 8 < 64 then sh.1 * (sh.2 * bits / 8) / 64 else sh.1
def rowBlocks (sh : Nat × Nat) (bits : Nat) : Nat := (sh.2 * bits / 8 + 63) / 64
def blockAt (base : Nat) (ctl : W64) (r c : Nat) : Nat :=
  let pitch := ctl.toNat % 2 ^ 24
  if ctl.getLsbD 55 then (r + c + ctl.toNat / 2 ^ 48 % 16) % 16 * 40960 + base + (r * (pitch / 64) + c / 16) * 64
  else base + r * pitch + 64 * c
def blockList (base : Nat) (ctl : W64) (sh : Nat × Nat) (bits : Nat) : List Nat :=
  (List.range (blockRows sh bits)).flatMap fun r => (List.range (rowBlocks sh bits)).map fun c => blockAt base ctl r c
/-- Block `i` of an operand holds an element of a slice that is kept (R195, R262): slices are of 16 K indices. -/
def holdsKept (sh : Nat × Nat) (bits : Nat) (keep : W8) (i : Nat) : Prop :=
  ∃ e, 512 * i ≤ e * bits ∧ e * bits < 512 * (i + 1) ∧
    keep.getLsbD ((if sh.2 = 128 then e % sh.2 else e / sh.2) / 16) = true
/-- The bits of an operand as the engine reads them: the blocks that hold kept slices, and nothing of the others. -/
def ReadBlocks (s : State) (core : Nat) (base ctl : W64) (sh : Nat × Nat) (bits : Nat) (keep : W8) (v : BitVec 131072) : Prop :=
  ∀ i b, (blockList (localOf core base) ctl sh bits)[i]? = some b → i < 256 →
    (holdsKept sh bits keep i → v.toNat / 2 ^ (512 * i) % 2 ^ 512 = s.rd (spKey core b) 64) ∧
    (¬ holdsKept sh bits keep i → v.toNat / 2 ^ (512 * i) % 2 ^ 512 = 0)

/-- The first check of R256 that a descriptor fails: cause, detail and value. -/
def TileFault (s : State) (th : Thread) (base ctl : W64) (sh : Nat × Nat) (bits code : Nat) (c : Cause) (d : W8) (v : W64) : Prop :=
  let pitch := ctl.toNat % 2 ^ 24
  let rows := blockRows sh bits
  let cols := rowBlocks sh bits
  let diag := ctl.getLsbD 55 = true
  let at_ := localOf th.core base
  let bs := blockList at_ ctl sh bits
  let own := fun (b : Nat) => th.sup = true ∨ inWindow s th.core th.c.asid b 64
  let fmt := fun (k : Nat) => (s.bankReg th.core k).toNat % 16
  let wrong := fun (k : Nat) => k < 16 ∧ fmt k ≠ 0 ∧ fmt k ≠ code ∧ ∃ b ∈ bs, b / 40960 = k
  if names th.core base.toNat ≠ some (.sp th.core at_) then c = .addressSpace ∧ d = 0 ∧ v = base
  else if at_ % 64 ≠ 0 ∨ pitch % 64 ≠ 0 ∨ pitch = 0 ∨ (¬ diag ∧ pitch < 64 * cols) then c = .misaligned ∧ d = 0 ∧ v = base
  else if (diag ∧ (40960 ≤ at_ ∨ at_ + ((rows - 1) * pitch / 64 + 1) * 64 > 40960)) ∨
      (¬ diag ∧ at_ + (rows - 1) * pitch + 64 * cols > 655360) then c = .addressSpace ∧ d = 0 ∧ v = base
  else (c = .localProt ∧ d = 0 ∧ ∃ l r b, bs = l ++ b :: r ∧ (∀ x ∈ l, own x) ∧ ¬ own b ∧ v.toNat = b) ∨
    ((∀ b ∈ bs, own b) ∧ c = .addressSpace ∧ d = 1 ∧ ∃ k l r b, wrong k ∧ (∀ i, i < k → ¬ wrong i) ∧ bs = l ++ b :: r ∧
      (∀ x ∈ l, x / 40960 ≠ k) ∧ b / 40960 = k ∧ v.toNat = b)

/-- The descriptor operands of a word, A first: base, second word, stored shape, format code. -/
def descriptors (th : Thread) (fn : Nat) (o : Mx) : List (W64 × W64 × (Nat × Nat) × Nat) :=
  (if o.asel = 1 then [(th.src o.a, th.src (fieldNext o.a), storedAs true (o.da == 1), codeOfA fn)] else []) ++
  (if o.bsel = 1 then [(th.src o.b, th.src (fieldNext o.b), storedAs false (o.db == 1), codeOfB fn)] else [])

/-- The thread may run an `mma` of its word, apart from the checks of R259: its registers are there. -/
structure MmaReady (s : State) (th : Thread) (fn : Nat) (o : Mx) : Prop extends
    Vectors s th ((if o.asel = 1 then [] else registers fn o.a) ++ (if o.bsel = 1 then [] else registers fn o.b) ++
      scaleRegisters th fn) [] where
  rg : th.rg = false
  held : th.chunk.held = []
  clean : s.ecc = []
  srcs : th.Ready ((if o.asel = 1 then [o.a, fieldNext o.a] else []) ++ (if o.bsel = 1 then [o.b, fieldNext o.b] else [])) []

/-- The slices that a skip-list entry keeps (R262). -/
def keeps (e k : Nat) : Prop :=
  let s0 := e % 16
  let k0 := e / 16 % 16
  let s1 := e / 256 % 16
  let k1 := e / 4096 % 16
  (s0 ≤ k ∧ k < s0 + k0) ∨ (s0 + k0 + s1 ≤ k ∧ k < s0 + k0 + s1 + k1)

/-- Field of a register (R201, R261). -/
def fieldOf (v : W64) (lo len : Nat) : Nat := v.toNat / 2 ^ lo % 2 ^ len

/-- One operation joined the engine's queue and the thread is `u`; memory, full/empty bits and vector state are as before. -/
structure Queued (s t : State) (th u : Thread) (op : MmaOp) : Prop where
  thread : t.threads = (s.setThread s.cur u).threads
  queue : (t.core th.core).e.queue = (s.core th.core).e.queue ++ [op]
  others : ∀ c, c ≠ th.core → (t.core c).e = (s.core c).e
  mem : t.mem = s.mem
  fe : t.fe = s.fe
  slots : t.slots = s.slots
  acc : (t.core th.core).e.acc = (s.core th.core).e.acc
  stage : op.stage = .queued
  tid : op.tid = s.cur
  bind : op.bind = none

/-! Values of operand elements. -/
noncomputable def elementReal (code v : Nat) : ℝ := if code = 7 then sgn 8 v else if code = 8 then v else codeValue code v
def elementFinite (code v : Nat) : Prop := code = 7 ∨ code = 8 ∨ codeFinite code v
/-- Row i of A and column j of B, element k, from the operand's bits (R255). -/
def rowOfA (dir : Bool) (bits i k : Nat) (v : BitVec 131072) : Nat :=
  v.toNat / 2 ^ (bits * if dir then 64 * k + i else 128 * i + k) % 2 ^ bits
def columnOfB (dir : Bool) (bits k j : Nat) (v : BitVec 131072) : Nat :=
  v.toNat / 2 ^ (bits * if dir then 128 * j + k else 64 * k + j) % 2 ^ bits
/-- Element (i, j) of an accumulator; lane `l` of scale register `r` of an operation. -/
def accElement (a : BitVec 131072) (i j : Nat) : Nat := a.toNat / 2 ^ (32 * (64 * i + j)) % 2 ^ 32
def scaleAt (vs : BitVec 16384) (r l : Nat) : Nat := vs.toNat / 2 ^ (4096 * r + 32 * l) % 2 ^ 32
def FZ (b : Nat) : Bool := signAt 8 23 b

/-- `new` is element (i, j) after an `mma` on finite operands with valid scales (R216, R217): group by group the exact sum of the products
is rounded, scaled with the rounded product of the scales, and added, each step rounded once to nearest even in FP32. -/
def Accumulated (op : MmaOp) (i j old new : Nat) : Prop :=
  let fn := op.form
  let bits := bitsOf fn
  let ca := codeOfA fn
  let cb := codeOfB fn
  let depth := if fn = 3 then 32 else 128
  let groups := 128 / depth
  let dirA := match op.a with | .regs _ d => d | .desc _ _ d => d
  let dirB := match op.b with | .regs _ d => d | .desc _ _ d => d
  let A := fun k => rowOfA dirA bits i k op.va
  let B := fun k => columnOfB dirB bits k j op.vb
  let kept := fun k => op.keep.getLsbD (k / 16) = true
  let sa := fun g => if fn = 3 then scaleAt op.vs g i else scaleAt op.vs 0 i
  let sb := fun g => if fn = 3 then scaleAt op.vs g (64 + j) else scaleAt op.vs 0 64
  (∀ k, k < 128 → kept k → elementFinite ca (A k) ∧ elementFinite cb (B k)) →
  (fn < 4 → ∀ g, g < groups → validScale (sa g) ∧ validScale (sb g)) → isFinite 8 23 old →
  ∃ P S Q T : Nat → Nat, T 0 = old ∧ T groups = new ∧ ∀ g, g < groups →
    (∃ fl, ∀ zs : Bool,
      (zs = true ↔ ∀ k, g * depth ≤ k → k < (g + 1) * depth → kept k ∧ fn < 6 ∧ elementReal ca (A k) * elementReal cb (B k) = 0 ∧
        signAt (codeExp ca) (codeFrac ca) (A k) ≠ signAt (codeExp cb) (codeFrac cb) (B k)) →
      Rounded 8 23 0 zs (((List.range depth).map fun q => let k := g * depth + q
        if op.keep.getLsbD (k / 16) then elementReal ca (A k) * elementReal cb (B k) else 0).sum) (P g) fl) ∧
    (4 ≤ fn → Q g = P g) ∧
    (fn < 4 → (∃ fl, Rounded 8 23 0 false (value 8 23 (sa g) * value 8 23 (sb g)) (S g) fl) ∧
      (isFinite 8 23 (P g) → isFinite 8 23 (S g) → ∃ fl, Rounded 8 23 0 (FZ (P g) ^^ FZ (S g))
        (value 8 23 (P g) * value 8 23 (S g)) (Q g) fl)) ∧
    (isFinite 8 23 (T g) → isFinite 8 23 (Q g) → ∃ fl, Rounded 8 23 0 (FZ (T g) && FZ (Q g))
      (value 8 23 (T g) + value 8 23 (Q g)) (T (g + 1)) fl)

/-- The token of an engine operation (R203). -/
def token (code : Nat) (a : W64) : W64 := BitVec.ofNat 64 (code * 2 ^ 56 + a.toNat % 2 ^ 56)

/-- The range lies in the core's own scratchpad, where the thread may reach it (R140, R393). -/
def OwnRange (s : State) (core : Nat) (asid : W16) (sup : Bool) (a n : Nat) : Prop :=
  a + n ≤ 655360 ∧ (sup = true ∨ ∃ e ∈ (s.core core).m.lpu, e.2.getLsbD 56 = true ∧ e.2.toNat / 2 ^ 40 % 2 ^ 16 = asid.toNat ∧
    e.2.toNat % 2 ^ 20 ≤ a ∧ a + n ≤ e.2.toNat / 2 ^ 20 % 2 ^ 20)

end Sys2Proof.Claims

namespace Sys2Proof.Claims

open Sys2Proof.Machine

/-- `mma` (R254-R259, R261, R262): an accumulator that was not granted, a scale register inside a group, and a descriptor that fails R256
trap precisely, in this order; else, with room in queue and lock table, the operation is accepted with its register operands, scale lanes
and kept slices (those that it took before it had to wait, if it did), a source lock covers each descriptor operand, the stream steps on, and the thread goes on.
Complete here: `mmaE4m3`, `mmaE5m2`, `mmaE4m3e5m2`, `mmaE2m1`, `mmaBf16`, `mmaFp16`, `mmaI8`, `mmaU8i8`. -/
def MatrixWords : Prop :=
  ∀ e ∈ mmaForms, ∀ (o : Mx) (s : State) (th : Thread), MmaReady s th e.2 o →
  let ds := descriptors th e.2 o
  let groups := (if o.asel = 1 then [] else registers e.2 o.a) ++ (if o.bsel = 1 then [] else registers e.2 o.b)
  let clash := (scaleRegisters th e.2).filter fun v => groups.contains v
  (th.lau.accs[o.ac.toNat]? = none → Traps (e.1 o) s th .privilege 8) ∧
  (∀ acc, th.lau.accs[o.ac.toNat]? = some acc →
    (∀ v ∈ clash, (∀ w ∈ clash, v.toNat ≤ w.toNat) → Traps (e.1 o) s th .scale (BitVec.ofNat 64 v.toNat)) ∧
    (clash = [] →
      (∀ l d r c det v, ds = l ++ d :: r → (∀ x ∈ l, ∀ c d v, ¬ TileFault s th x.1 x.2.1 x.2.2.1 (bitsOf e.2) x.2.2.2 c d v) →
        TileFault s th d.1 d.2.1 d.2.2.1 (bitsOf e.2) d.2.2.2 c det v →
        exec (e.1 o) s = .next ((s.setThread s.cur { th with slices := none }).takeTrap s.cur c det v th.c.pc)) ∧
      ((∀ x ∈ ds, ∀ c d v, ¬ TileFault s th x.1 x.2.1 x.2.2.1 (bitsOf e.2) x.2.2.2 c d v) →
        (s.core th.core).e.queue.length < 4 → (s.core th.core).m.locks.length ≤ 30 →
        let n := o.sk.toNat - 1
        let sk := (s.core th.core).e.sk.getD n 0
        let live := th.slices = none ∧ o.sk ≠ 0 ∧ fieldOf sk 20 16 ≠ 0
        let at_ := fieldOf sk 0 20 + 2 * fieldOf sk 36 16
        (live → s.sleeping th.core at_ 2 = none) →
        Next (e.1 o) s fun t => ∃ op, Queued s t th { th.retire with slices := none } op ∧ op.kind = .mma ∧ op.form = e.2 ∧ op.acc = acc ∧
          (o.asel = 1 → op.a = .desc (th.src o.a) (th.src (fieldNext o.a)) (o.da == 1)) ∧
          (o.bsel = 1 → op.b = .desc (th.src o.b) (th.src (fieldNext o.b)) (o.db == 1)) ∧
          (o.asel = 0 → (∃ f, op.a = .regs f (o.da == 1)) ∧ ∀ i v, (registers e.2 o.a)[i]? = some v →
            op.va.toNat / 2 ^ (4096 * i) % 2 ^ 4096 = (s.vreg th v).toNat) ∧
          (o.bsel = 0 → (∃ f, op.b = .regs f (o.db == 1)) ∧ ∀ i v, (registers e.2 o.b)[i]? = some v →
            op.vb.toNat / 2 ^ (4096 * i) % 2 ^ 4096 = (s.vreg th v).toNat) ∧
          (∀ i v, (scaleRegisters th e.2)[i]? = some v → op.vs.toNat / 2 ^ (4096 * i) % 2 ^ 4096 = (s.vreg th v).toNat) ∧
          (live → (∀ k, k < 8 → (op.keep.getLsbD k = true ↔ keeps (s.rd (spKey th.core at_) 2) k)) ∧
            (t.core th.core).e.sk.getD n 0 = BitVec.ofNat 64 (fieldOf sk 0 20 + fieldOf sk 20 16 * 2 ^ 20 +
              (fieldOf sk 36 16 + 1) % fieldOf sk 20 16 * 2 ^ 36)) ∧
          (¬ live → op.keep = th.slices.getD (BitVec.allOnes 8) ∧ (t.core th.core).e.sk = (s.core th.core).e.sk) ∧
          (∀ d ∈ ds, d.2.1.getLsbD 55 = false → ∃ i l, (t.core th.core).m.locks.find i = some l ∧ l.id = op.id ∧ l.dest = false ∧
            l.start.toNat = localOf th.core d.1 ∧ 64 * (l.blks.toNat + 1) =
              (blockRows d.2.2.1 (bitsOf e.2) - 1) * (d.2.1.toNat % 2 ^ 24) + 64 * rowBlocks d.2.2.1 (bitsOf e.2)))))

end Sys2Proof.Claims

namespace Sys2Proof.Claims

open Sys2Proof.Machine

/-- `acc` (R258, R264, R265) and `skd` (R263): zero, scale, ld and st join the matrix queue, a transfer with its lock and its token
empty; row moves a row once no queued operation names the accumulator; an accumulator that was not granted traps.
Complete here: `accZero`, `accLd`, `accSt`, `accRowRead`, `accRowWrite`, `accScale`, `skdSet`, `skdReset`, `skdPos`. -/
def AccumulatorWords : Prop :=
  ∀ (s : State) (th : Thread), th.rg = false →
  (∀ (an : BitVec 3) (sa sb va : BitVec 5) (sd : BitVec 4) (sc : BitVec 2),
    (Vectors s th [] [] → th.Ready [sa, sb] [sd] → th.lau.accs[an.toNat]? = none →
      ∀ i ∈ [Instr.accZero an, .accScale sa an, .accLd sa sb sd sc an, .accSt sa sb sd sc an], Traps i s th .privilege 8) ∧
    (∀ acc, th.lau.accs[an.toNat]? = some acc → Vectors s th [] [] → (s.core th.core).e.queue.length < 4 →
      (Next (.accZero an) s fun t => ∃ op, Queued s t th th.retire op ∧ op.kind = .zero ∧ op.acc = acc) ∧
      (th.Ready [sa] [] → Next (.accScale sa an) s fun t => ∃ op, Queued s t th th.retire op ∧ op.kind = .scale ∧ op.acc = acc ∧
        op.arg.toNat % 2 ^ 32 = (th.src sa).toNat % 2 ^ 32) ∧
      (th.Ready [sa, sb] [sd] → (s.core th.core).m.locks.length < 32 →
        ∀ e ∈ [(Instr.accLd sa sb sd sc an, QKind.ld, false), (.accSt sa sb sd sc an, .st, true)],
          -- a store waits for room in the dirty log (R400)
          (e.2.2 = true → s.dirtyFull th.core th.c.asid (th.src sa)
            (63 * (if th.src sb = 0 then 256 else (th.src sb).toNat) + 256) = false) →
          Next e.1 s fun t => ∃ op, Queued s t th (th.retire.empty sd) op ∧ op.kind = e.2.1 ∧ op.acc = acc ∧ op.addr = th.src sa ∧
            op.arg = th.src sb ∧ op.token = sd ∧ op.sc = sc ∧ op.asid = th.c.asid ∧
            ∃ i l, (t.core th.core).m.locks.find i = some l ∧ l.id = op.id ∧ l.dest = e.2.2 ∧
              ((th.src sa).toNat < 655360 → l.start.toNat = (th.src sa).toNat / 64 * 64))) ∧
    (∀ acc, th.lau.accs[an.toNat]? = some acc → (∀ q ∈ (s.core th.core).e.queue, q.acc ≠ acc) → th.Ready [sb] [] →
      let row := (th.src sb).toNat % 64
      let old := (s.core th.core).e.acc.getD acc 0
      (Vectors s th [va] [va] → ∃ x, VecDone (.accRowRead va sb an) s th.retire th va x 0 ∧
        ∀ c, c < 128 → element 32 x c = if c < 64 then accElement old row c else element 32 (s.vreg th va) c) ∧
      (Vectors s th [va] [] → Next (.accRowWrite va sb an) s fun t => t.threads = (s.setThread s.cur th.retire.bindVx).threads ∧
        t.mem = s.mem ∧ t.slots = s.slots ∧ ∀ i c, i < 64 → c < 64 → accElement ((t.core th.core).e.acc.getD acc 0) i c =
          if i = row then element 32 (s.vreg th va) c else accElement old i c))) ∧
  (s.Plain th → ∀ (sa sb : BitVec 5) (sd : BitVec 4) (n : BitVec 2),
    let sk := (s.core th.core).e.sk.getD n.toNat 0
    let start := fieldOf (th.src sa) 0 20
    let len := fieldOf (th.src sb) 0 16
    let becomes : Instr → Nat → Prop := fun i v => Next i s fun t => t.threads = (s.setThread s.cur th.retire).threads ∧ t.mem = s.mem ∧
      (t.core th.core).e.sk.getD n.toNat 0 = BitVec.ofNat 64 v ∧
      ∀ k : BitVec 2, k ≠ n → (t.core th.core).e.sk.getD k.toNat 0 = (s.core th.core).e.sk.getD k.toNat 0
    (th.Ready [sa, sb] [] → (start % 2 = 1 → Traps (.skdSet sa sb n) s th .misaligned (th.src sa)) ∧
      (start % 2 = 0 → start + 2 * len > 655360 → Traps (.skdSet sa sb n) s th .addressSpace (th.src sa)) ∧
      (start % 2 = 0 → start + 2 * len ≤ 655360 → becomes (.skdSet sa sb n) (start + len * 2 ^ 20))) ∧
    becomes (.skdReset n) (fieldOf sk 0 20 + fieldOf sk 20 16 * 2 ^ 20) ∧
    (th.full sd = true → WritesX (.skdPos sd n) s th sd sk))

end Sys2Proof.Claims

/-- Mma and acc words at issue: `MatrixWords`, `AccumulatorWords` above. -/
def Obligations.MatrixAndAccumulatorWords : Prop := Sys2Proof.Claims.MatrixWords ∧ Sys2Proof.Claims.AccumulatorWords

/-- The steps of the matrix queue (R196, R200, R216-R218, R259, R265): the next operation starts; its descriptor operands are read from the
scratchpad as stored rows and its source locks go; it completes with every element of the accumulator as R216 says, and sets NV and OF
alone, or, after an error in an operand, with the canonical NaN everywhere and a deferred report (R260); a transfer moves the rows, publishes, fills its token with 0, or with code 0x06 for a bad address or pitch, and its locks go.
Complete here, each with `exec i s = .next t` for a `t` that is said (`Next`), from premises on the state and the operands
alone: `mmaEngineStart`, `mmaOperandsConsumed`, `mmaCompletion`, `accTransferCompletion`. -/
def Obligations.MatrixSteps : Prop :=
  (∀ (core : Nat) (s : State) (o : MmaOp), s.nextStart core = some o → startReady s core = true → s.opAsleep core o = [] →
    Next (.mmaEngineStart core) s fun t => t.mem = s.mem ∧ (t.core core).e.acc = (s.core core).e.acc ∧
      (t.core core).e.queue = (s.core core).e.queue.map fun q => if q.id = o.id then { q with stage := .started } else q) ∧
  (∀ (core : Nat) (s : State) (o : MmaOp), s.running core QKind.computes = some o → o.kind = .mma →
    (∀ th, s.threads.find o.tid = some th → th.region = none ∧ th.chunk.held = []) →
    Next (.mmaOperandsConsumed core) s fun t => t.mem = s.mem ∧ t.threads = s.threads ∧
      (∀ i l, (t.core core).m.locks.find i = some l → l.id = o.id → l.dest = true) ∧
      ∃ q ∈ (t.core core).e.queue, q.id = o.id ∧ q.stage = .consumed ∧ q.keep = o.keep ∧ q.vs = o.vs ∧
        (∀ f d, o.a = .regs f d → q.va = o.va) ∧ (∀ f d, o.b = .regs f d → q.vb = o.vb) ∧
        (s.ecc = [] → q.bad = none) ∧
        (∀ base ctl d, o.a = .desc base ctl d → ReadBlocks s core base ctl (storedAs true d) (bitsOf o.form) o.keep q.va) ∧
        (∀ base ctl d, o.b = .desc base ctl d → ReadBlocks s core base ctl (storedAs false d) (bitsOf o.form) o.keep q.vb)) ∧
  (∀ (core : Nat) (s : State) (o : MmaOp) (rest : List MmaOp) (th : Thread), (s.core core).e.queue = o :: rest → o.stage = .consumed →
    o.kind = .mma → (∀ q ∈ rest, q.id ≠ o.id) → s.threads.find o.tid = some th → ∀ ea, o.bad = some ea →
    Next (.mmaCompletion core) s fun t => t.mem = s.mem ∧ (t.core core).e.queue = rest ∧
      (∃ u, t.threads.find o.tid = some u ∧ u.c = th.c ∧ Reports th u .memError ea) ∧
      ∀ i j, i < 64 → j < 64 → accElement ((t.core core).e.acc.getD o.acc 0) i j = canonicalNaN 8 23) ∧
  (∀ (core : Nat) (s : State) (o : MmaOp) (rest : List MmaOp) (th : Thread), (s.core core).e.queue = o :: rest → o.stage = .consumed →
    o.kind ∈ [.mma, .zero, .scale] → (∀ q ∈ rest, q.id ≠ o.id) → s.threads.find o.tid = some th → o.form < 8 → o.bad = none →
    Next (.mmaCompletion core) s fun t => t.mem = s.mem ∧ (t.core core).e.queue = rest ∧
      (∀ a, a ≠ o.acc → (t.core core).e.acc.getD a 0 = (s.core core).e.acc.getD a 0) ∧
      (∀ k, k ≠ o.tid → t.threads.find k = s.threads.find k) ∧
      (∃ u fl, t.threads.find o.tid = some u ∧ u.c = (th.orFlags fl).c ∧ ∀ k, k < 6 → k ≠ NV → k ≠ OF → fl.getLsbD k = false) ∧
      ∀ i j, i < 64 → j < 64 →
        let old := accElement ((s.core core).e.acc.getD o.acc 0) i j
        let new := accElement ((t.core core).e.acc.getD o.acc 0) i j
        (o.kind = .zero → new = 0) ∧ (o.kind = .mma → Accumulated o i j old new) ∧
        (o.kind = .scale → (¬ validScale (o.arg.toNat % 2 ^ 32) → new = canonicalNaN 8 23) ∧
          (validScale (o.arg.toNat % 2 ^ 32) → isFinite 8 23 old → ∃ fl,
            Rounded 8 23 0 (FZ old) (value 8 23 old * value 8 23 (o.arg.toNat % 2 ^ 32)) new fl))) ∧
  (∀ (core : Nat) (s : State) (o : MmaOp) (rest : List MmaOp) (th : Thread), (s.core core).e.queue = o :: rest → o.stage = .started →
    o.kind ∈ [.ld, .st] → (∀ q ∈ rest, q.id ≠ o.id) → s.threads.find o.tid = some th → th.region = none → th.chunk.held = [] →
    th.chunk.open_ = false → s.ecc = [] →
    let p := if o.arg = 0 then 256 else o.arg.toNat
    let a := o.addr.toNat
    let acc := (s.core core).e.acc.getD o.acc 0
    ((a % 16 ≠ 0 ∨ p < 256 ∨ p % 16 ≠ 0) → Next (.accTransferCompletion core) s fun t => t.mem = s.mem ∧
      (t.core core).e.queue = rest ∧ (t.core core).e.acc = (s.core core).e.acc ∧
      ∃ u, t.threads.find o.tid = some u ∧ u.c = (th.setX o.token (token 6 o.addr)).c) ∧
    (a % 16 = 0 → 256 ≤ p → p % 16 = 0 → OwnRange s core o.asid th.sup a (63 * p + 256) →
      Next (.accTransferCompletion core) s fun t => (t.core core).e.queue = rest ∧ t.fe = s.fe ∧
        (∀ k l, (t.core core).m.locks.find k = some l → l.id ≠ o.id) ∧
        (∃ u, t.threads.find o.tid = some u ∧ u.c = (th.setX o.token 0).c) ∧
        (o.kind = .ld → t.mem = s.mem ∧ ∀ i j, i < 64 → j < 64 → accElement ((t.core core).e.acc.getD o.acc 0) i j =
          s.rd (spKey core (a + i * p + 4 * j)) 4) ∧
        (o.kind = .st → (t.core core).e.acc = (s.core core).e.acc ∧ (∀ i j, i < 64 → j < 64 →
            t.rd (spKey core (a + i * p + 4 * j)) 4 = accElement acc i j) ∧
          ∀ b, (∀ i, i < 64 → ¬ (spKey core (a + i * p) ≤ b ∧ b < spKey core (a + i * p) + 256)) →
            readByte t.mem b = readByte s.mem b)))

namespace Sys2Proof.Claims

open Sys2Proof.Machine

/-! Circular buffers (R201): fields of a register. -/
def cbField (c : BitVec 256) (lo len : Nat) : Nat := c.toNat / 2 ^ lo % 2 ^ len
def buffer (s : State) (core n : Nat) : BitVec 256 := (s.core core).e.cb.getD n 0
def CAP (c : BitVec 256) : Nat := cbField c 64 32
def ESZ (c : BitVec 256) : Nat := cbField c 96 4
def PROD (c : BitVec 256) : Nat := cbField c 128 32
def CONS (c : BitVec 256) : Nat := cbField c 160 32
def BASE (c : BitVec 256) : Nat := cbField c 0 64
def BND (c : BitVec 256) : Bool := c.getLsbD 200
def held (c : BitVec 256) : Nat := (PROD c + 2 ^ 32 - CONS c) % 2 ^ 32
def free (c : BitVec 256) : Nat := CAP c - held c
/-- A register whose PROD (`put`) or CONS is `v` and whose other fields are as before. -/
def MovedTo (c d : BitVec 256) (put : Bool) (v : Nat) : Prop :=
  BASE d = BASE c ∧ CAP d = CAP c ∧ ESZ d = ESZ c ∧ cbField d 192 8 = cbField c 192 8 ∧ BND d = BND c ∧
    if put then PROD d = v ∧ CONS d = CONS c else CONS d = v ∧ PROD d = PROD c
/-- Only buffer `n` of a core may differ. -/
def KeepsBuffers (s t : State) (core n : Nat) : Prop :=
  ∀ c k, c ≠ core ∨ k ≠ n → buffer t c k = buffer s c k

/-- Bindings of a core by number, and their buffers (R268). -/
def bound (s : State) (core i : Nat) : Option Binding := (s.core core).e.eng.find i
def INo (b : Binding) : Nat := b.desc.toNat / 2 ^ 8 % 256
def OUTo (b : Binding) : Option Nat := if b.desc.toNat / 2 ^ 16 % 256 = 255 then none else some (b.desc.toNat / 2 ^ 16 % 256)
def KINDo (b : Binding) : Nat := b.desc.toNat % 256
def NINo (b : Binding) : Nat := b.desc.toNat / 2 ^ 32 % 2 ^ 32
def NOUTo (b : Binding) : Nat := b.desc.toNat / 2 ^ 64 % 2 ^ 32
def isIn (s : State) (core n : Nat) : Prop := ∃ e ∈ (s.core core).e.eng, INo e.2 = n
def isOut (s : State) (core n : Nat) : Prop := ∃ e ∈ (s.core core).e.eng, OUTo e.2 = some n
/-- The bank registers of a core (R186): FMT in bits 3:0, state in 5:4. -/
def bankOfCore (s : State) (core b : Nat) : W32 := (s.core core).m.bank.getD b 0

/-- The words of this chapter (R277) that a region bars, and those that a deterministic launch bars. -/
noncomputable def notInRegion (sa sb : BitVec 5) (sd n : BitVec 4) (r : BitVec 1) (sc : BitVec 2) : List Instr := [
  .skdSet sa sb 0, .skdReset 0, .skdPos sd 0, .cbCfg sa sb sd n, .cbPut sa sd n, .cbGet sa sd n, .cbWait sa r n, .engBind sa sd, .engArm sa,
  .engOnce sa, .engUnbind sa, .copyLin sa sb sd sc, .copyPeer sa sb sd sc, .copyBcast sa sb sd sc, .bankFmtset sa sd n, .bankGate n, .bankWake n]
noncomputable def notInDet (sa : BitVec 5) (sd n : BitVec 4) (h : BitVec 1) : List Instr := [.cbRoom sd n, .cbCount sd n, .engStat sa sd, .rlkQuery sa sd h]

/-- A copy within one scratchpad, bank formats alike, between spans that do not meet (R187, R271). -/
structure PlainCopy (s : State) (r : CopyReq) (th : Thread) : Prop where
  kind : r.kind = .lin
  thread : s.threads.find r.tid = some th
  src : OwnRange s r.core r.asid th.sup r.src.toNat r.len
  dst : OwnRange s r.core r.asid th.sup r.dst.toNat r.len
  apart : r.src.toNat + r.len ≤ r.dst.toNat ∨ r.dst.toNat + r.len ≤ r.src.toNat
  raw : ∀ b, (bankOfCore s r.core b).toNat % 16 = 0
  open_ : th.chunk.open_ = false
  clean : s.ecc = []

end Sys2Proof.Claims

namespace Sys2Proof.Claims

open Sys2Proof.Machine

/-- `cb` (R201, R266, R267): cfg writes a register that is not bound and refuses bad values; put and get, their release over, move the
pointer, or answer 2, 3 or 1 and move nothing; room and count read; wait parks, or goes on, the core's L1 gone (the model's acquire, log
entry 18).
Complete here, each with `exec i s = .next t` for a `t` that is said (`Next`), from premises on the state and the operands
alone: `cbCfg`, `cbPut`, `cbGet`, `cbRoom`, `cbCount`, `cbWait`. -/
def BufferWords : Prop :=
  ∀ (s : State) (th : Thread), s.Plain th → th.rg = false → th.chunk.cbs = [] →
  ∀ (sa sb : BitVec 5) (sd n : BitVec 4),
  let c := buffer s th.core n.toNat
  let a := th.src sa
  let b := th.src sb
  let x := a.toNat % 2 ^ 32
  let cap := b.toNat % 2 ^ 32
  let esz := b.toNat / 2 ^ 32 % 16
  (th.Ready [sa, sb] [sd] →
    (BND c = true → WritesX (.cbCfg sa sb sd n) s th sd 1) ∧
    (BND c = false → (cap > 2 ^ 31 ∨ esz > 8 ∨ a.toNat % 2 ^ esz ≠ 0) → WritesX (.cbCfg sa sb sd n) s th sd 2) ∧
    (BND c = false → cap ≤ 2 ^ 31 → esz ≤ 8 → a.toNat % 2 ^ esz = 0 → Next (.cbCfg sa sb sd n) s fun t =>
      t.threads = (s.setThread s.cur (th.retire.setX sd 0)).threads ∧ t.mem = s.mem ∧ KeepsBuffers s t th.core n.toNat ∧
      (buffer t th.core n.toNat).toNat = a.toNat + cap * 2 ^ 64 + esz * 2 ^ 96)) ∧
  (th.Ready [sa] [sd] →
    ∀ e ∈ [(Instr.cbPut sa sd n, true), (.cbGet sa sd n, false)],
      let mine := if e.2 then ¬ isIn s th.core n.toNat ∧ isOut s th.core n.toNat else isIn s th.core n.toNat
      let space := if e.2 then free c else held c
      let mineBase := ∃ off, names th.core (BASE c) = some (.sp th.core off)
      (th.mo.rel = none → (CAP c = 0 → WritesX e.1 s th sd 2) ∧ (CAP c ≠ 0 → mine → WritesX e.1 s th sd 3) ∧
        (CAP c ≠ 0 → ¬ mine → space < x → WritesX e.1 s th sd 1)) ∧
      (∀ scope : BitVec 2, (mineBase → scope = 0) → (¬ mineBase → scope = 2) → CAP c ≠ 0 → ¬ mine → x ≤ space →
        ReleaseDone s th scope → Next e.1 s fun t =>
        (∃ u, t.threads.find s.cur = some u ∧ u.c = (th.retire.setX sd 0).c) ∧ t.mem = s.mem ∧ KeepsBuffers s t th.core n.toNat ∧
        MovedTo c (buffer t th.core n.toNat) e.2 (((if e.2 then PROD c else CONS c) + x) % 2 ^ 32))) ∧
  (th.full sd = true → WritesX (.cbRoom sd n) s th sd (BitVec.ofNat 64 (free c)) ∧
    WritesX (.cbCount sd n) s th sd (BitVec.ofNat 64 (held c + cbField c 192 8 * 2 ^ 32 + if BND c then 2 ^ 40 else 0))) ∧
  (th.Ready [sa] [] → ∀ room : BitVec 1,
    let has := if room = 1 then free c else held c
    (has < x → exec (.cbWait sa room n) s = .next (s.setThread s.cur (th.park
      (if room = 1 then .cbRoom n.toNat x else .cbCount n.toNat x)))) ∧
    (x ≤ has → Next (.cbWait sa room n) s fun t => (∃ u, t.threads.find s.cur = some u ∧ u.c = th.retire.c ∧ u.run = th.run) ∧
      t.mem = s.mem ∧ (t.core th.core).e = (s.core th.core).e ∧ EmptyL1 t th.core))

end Sys2Proof.Claims

/-- `bank`, BANK_GATE_EFFECT and `rlk` (R186, R192, R198, R274, R276, R277): the format changes unless a lock covers the bank or the code
is above 9, the bytes never; gate and wake are requests, and a bank that no lock, waiter or access in flight uses falls asleep; an entry is read
and, by a supervisor, dropped. Words that a region or a deterministic launch bars trap.
Complete here, each with `exec i s = .next t` for a `t` that is said (`Next`), from premises on the state and the operands
alone: `bankGateEffect`, `bankFmtset`, `bankFmtget`, `bankGate`, `bankWake`, `rlkQuery`, `rlkDrop`. -/
def Obligations.BanksAndLocks : Prop :=
  (∀ (s : State) (th : Thread), s.Plain th → th.rg = false → ∀ (sa : BitVec 5) (sd n : BitVec 4),
    let first := n.toNat * 40960
    let own := th.sup = true ∨ inWindow s th.core th.c.asid first 40960
    let r := bankOfCore s th.core n.toNat
    let kept := fun (t : State) => t.mem = s.mem ∧ t.fe = s.fe ∧ ∀ c b, c ≠ th.core ∨ b ≠ n.toNat → bankOfCore t c b = bankOfCore s c b
    (¬ own → (th.Ready [sa] [sd] → Traps (.bankFmtset sa sd n) s th .localProt (BitVec.ofNat 64 first)) ∧
      Traps (.bankGate n) s th .localProt (BitVec.ofNat 64 first) ∧ Traps (.bankWake n) s th .localProt (BitVec.ofNat 64 first)) ∧
    (own → th.Ready [sa] [sd] →
      (s.bankLocked th.core n.toNat = true → WritesX (.bankFmtset sa sd n) s th sd 2) ∧
      (s.bankLocked th.core n.toNat = false → 9 < (th.src sa).toNat → WritesX (.bankFmtset sa sd n) s th sd 1) ∧
      (s.bankLocked th.core n.toNat = false → (th.src sa).toNat ≤ 9 → Next (.bankFmtset sa sd n) s fun t => kept t ∧
        t.threads = (s.setThread s.cur (th.retire.setX sd 0)).threads ∧
        (bankOfCore t th.core n.toNat).toNat = r.toNat / 16 * 16 + (th.src sa).toNat)) ∧
    (th.full sd = true → WritesX (.bankFmtget sd n) s th sd (r.zeroExtend 64)) ∧
    (own → Next (.bankGate n) s fun t => t.threads = (s.setThread s.cur th.retire).threads ∧ t.mem = s.mem ∧
        (∀ b, bankOfCore t th.core b = bankOfCore s th.core b) ∧
        (r.getLsbD 4 = false → n.toNat ∈ (t.core th.core).m.gateReq)) ∧
    (own → Next (.bankWake n) s fun t => t.threads = (s.setThread s.cur th.retire).threads ∧ kept t ∧
        (r.toNat / 16 % 4 = 1 → (bankOfCore t th.core n.toNat).toNat / 16 % 4 = 2 ∧ .bankWakeEnd th.core n.toNat ∈ t.pool ∧
          (t.core th.core).m.waking.find n.toNat = some (s.cycle + 1200)) ∧
        (r.toNat / 16 % 4 ≠ 1 → t = s.setThread s.cur th.retire)) ∧
    (th.Ready [sa] [sd] → ∀ h : BitVec 1, let i := (th.src sa).toNat % 32
      ((s.core th.core).m.locks.find i = none → WritesX (.rlkQuery sa sd h) s th sd 0) ∧
      ∀ l, (s.core th.core).m.locks.find i = some l → WritesX (.rlkQuery sa sd h) s th sd
        (if h = 0 then l.start else BitVec.ofNat 64 (l.blks.toNat + 2 ^ 32 + (if l.dest then 2 ^ 33 else 0) + l.tag.toNat * 2 ^ 34))) ∧
    (th.Ready [sa] [] → th.sup = true → Next (.rlkDrop sa) s fun t => t.threads = (s.setThread s.cur th.retire).threads ∧ t.mem = s.mem ∧
      ∀ k, (t.core th.core).m.locks.find k = if k = (th.src sa).toNat % 32 then none else (s.core th.core).m.locks.find k)) ∧
  (∀ (core b : Nat) (s : State), Instr.bankGateEffect core b ∈ s.pool → gateReady s core b = true → Next (.bankGateEffect core b) s fun t =>
    t.mem = s.mem ∧ t.threads = s.threads ∧ t.pool = s.pool.erase (.bankGateEffect core b) ∧
    (bankOfCore t core b).toNat / 16 % 4 = 1 ∧ (bankOfCore t core b).toNat % 16 = (bankOfCore s core b).toNat % 16 ∧
    b ∉ (t.core core).m.gateReq ∧ ∀ c k, c ≠ core ∨ k ≠ b → bankOfCore t c k = bankOfCore s c k) ∧
  (∀ (s : State) (th : Thread) (sa sb : BitVec 5) (sd n : BitVec 4) (h : BitVec 1) (sc : BitVec 2),
    (∀ f, th.full f = true) →
    (s.Plain th → th.rg = true → ∀ i ∈ notInRegion sa sb sd n h sc, Traps i s th .privilege 7) ∧
    (s.Alone th → th.det = true → th.chunk.open_ = true → ∀ i ∈ notInDet sa sd n h, Traps i s th .determinism (s.word.zeroExtend 64)))

namespace Sys2Proof.Claims

open Sys2Proof.Machine

/-- `eng` (R268, R270): bind takes the lowest free binding, or answers with the first refusal that applies; arm, once and unbind act on
a binding of the thread's own ASID and do nothing to another; stat reads its state.
Complete here, each with `exec i s = .next t` for a `t` that is said (`Next`), from premises on the state and the operands
alone: `engBind`, `engArm`, `engOnce`, `engUnbind`, `engStat`. -/
def BindingWords : Prop :=
  ∀ (s : State) (th : Thread), s.Plain th → th.rg = false → th.region = none → th.chunk = {} → s.ecc = [] →
  ∀ (sa : BitVec 5) (sd : BitVec 4),
  let a := th.src sa
  let i := a.toNat % 16
  let own := fun (b : Binding) => bound s th.core i = some b ∧ b.asid = th.c.asid
  let none_ := ∀ b, ¬ own b
  (th.Ready [sa] [sd] →
    ((∀ off, names th.core a.toNat ≠ some (.sp th.core off)) → Traps (.engBind sa sd) s th .addressSpace a) ∧
    (∀ off c, names th.core a.toNat = some (.sp th.core off) → Breaks s th a 32 true c → Traps (.engBind sa sd) s th c a) ∧
    (∀ off, names th.core a.toNat = some (.sp th.core off) → (∀ c, ¬ Breaks s th a 32 true c) →
      s.sleeping th.core off 32 = none →
      let desc := BitVec.ofNat 256 (s.rd (spKey th.core off) 32)
      let kind := desc.toNat % 256
      let b : Binding := { tid := s.cur, desc := desc, asid := th.c.asid, bd0 := BitVec.ofNat 64 (desc.toNat / 2 ^ 128) }
      kind ≠ 3 →
      ∃ b', b'.tid = b.tid ∧ b'.desc = desc ∧ b'.asid = b.asid ∧ b'.bd0 = b.bd0 ∧ b'.armed = false ∧ b'.stage = none ∧
        let used := INo b' :: (OUTo b').toList
        let taken := isIn s th.core (INo b') ∨ ∃ o, OUTo b' = some o ∧ isOut s th.core o
        ((∀ k, k < 16 → bound s th.core k ≠ none) → WritesX (.engBind sa sd) s th sd (BitVec.ofNat 64 (2 ^ 63 + 1))) ∧
        (∀ k, k < 16 → bound s th.core k = none → (∀ j, j < k → bound s th.core j ≠ none) →
          (s.bindOk th b' = false → WritesX (.engBind sa sd) s th sd (BitVec.ofNat 64 (2 ^ 63 + 2))) ∧
          ((kind = 0 ∨ 3 < kind ∨ NINo b' = 0 ∨ 16 ≤ INo b' ∨ desc.toNat / 2 ^ 26 % 64 ≠ 0 ∨ NOUTo b' ≠ NINo b') → s.bindOk th b' = false) ∧
          (s.bindOk th b' = true →
            ((∃ n ∈ used, CAP (buffer s th.core n) = 0) → WritesX (.engBind sa sd) s th sd (BitVec.ofNat 64 (2 ^ 63 + 3))) ∧
            ((∀ n ∈ used, CAP (buffer s th.core n) ≠ 0) → taken → WritesX (.engBind sa sd) s th sd (BitVec.ofNat 64 (2 ^ 63 + 4))) ∧
            ((∀ n ∈ used, CAP (buffer s th.core n) ≠ 0) → ¬ taken → Next (.engBind sa sd) s fun t =>
              t.threads = (s.setThread s.cur (th.retire.setX sd (BitVec.ofNat 64 k))).threads ∧ t.mem = s.mem ∧
              bound t th.core k = some b' ∧ (∀ j, j ≠ k → bound t th.core j = bound s th.core j) ∧
              ∀ n ∈ used, BND (buffer t th.core n) = true))))) ∧
  (th.Ready [sa] [] →
    (none_ → ∀ w ∈ [Instr.engArm sa, .engOnce sa, .engUnbind sa], exec w s = .next (s.setThread s.cur th.retire)) ∧
    (∀ b, own b →
      (∀ w ∈ [(Instr.engArm sa, false), (.engOnce sa, true)], Next w.1 s fun t => t.threads = (s.setThread s.cur th.retire).threads ∧
        t.mem = s.mem ∧ (∀ j, j ≠ i → bound t th.core j = bound s th.core j) ∧
        ∃ b', bound t th.core i = some b' ∧ b'.armed = true ∧ b'.once = w.2 ∧ b'.desc = b.desc ∧ b'.stage = b.stage ∧ b'.fired = b.fired) ∧
      (b.stage = none → Next (.engUnbind sa) s fun t => t.threads = (s.setThread s.cur th.retire).threads ∧ t.mem = s.mem ∧
        bound t th.core i = none ∧ (∀ j, j ≠ i → bound t th.core j = bound s th.core j) ∧
        ∀ n ∈ INo b :: (OUTo b).toList, ¬ isIn t th.core n → ¬ isOut t th.core n → BND (buffer t th.core n) = false) ∧
      (b.stage ≠ none → Next (.engUnbind sa) s fun t => t.mem = s.mem ∧ t.threads = (s.setThread s.cur (th.park (.engine i))).threads ∧
        ∃ b', bound t th.core i = some b' ∧ b'.armed = false ∧ b'.stage = b.stage))) ∧
  (th.Ready [sa] [sd] → (none_ → WritesX (.engStat sa sd) s th sd 0) ∧
    ∀ b, own b → WritesX (.engStat sa sd) s th sd (BitVec.ofNat 64
      ((if b.armed then 2 else 1) + (if b.once then 4 else 0) + b.fired.toNat * 2 ^ 16)))

end Sys2Proof.Claims

/-- Circular buffers and engine bindings: `BufferWords`, `BindingWords` above. -/
def Obligations.BufferAndBindingWords : Prop := Sys2Proof.Claims.BufferWords ∧ Sys2Proof.Claims.BindingWords

/-- A bound operation (R202, R204, R269): ENGINE_FIRING takes the firing up; a raw copy within the core's scratchpad moves NIN elements
from CONS to PROD, other bytes unchanged, and CONS advances by NIN; then PROD advances by NOUT and the count of firings by one; a faulted
firing frees the binding and names its code in ERR.
Complete here, each with `exec i s = .next t` for a `t` that is said (`Next`), from premises on the state and the operands
alone: `engineFiring`, `firingOperandsConsumed`, `firingCompletion`. -/
def Obligations.Firings : Prop :=
  ∀ (core i : Nat) (s : State) (b : Binding), bound s core i = some b →
  (firingReady s core i = true → KINDo b ≠ 3 → s.bindAsleep core b = [] → Next (.engineFiring core i) s fun t => t.mem = s.mem ∧ t.threads = s.threads ∧
    (∃ b', bound t core i = some b' ∧ b'.stage = some .started ∧ b'.status = 0 ∧ b'.desc = b.desc ∧ b'.armed = b.armed) ∧
    (∀ j, j ≠ i → bound t core j = bound s core j) ∧ ∀ k, buffer t core k = buffer s core k) ∧
  (∀ th o, firingConsumedReady s core i = true → s.firingAsleep core b = [] → KINDo b = 1 → OUTo b = some o → s.threads.find b.tid = some th →
    th.chunk.open_ = false → s.ecc = [] → (∀ k, (bankOfCore s core k).toNat % 16 = 0) →
    let ci := buffer s core (INo b)
    let co := buffer s core o
    let n := NINo b
    let z := 2 ^ ESZ ci
    let src := fun k => BASE ci + (CONS ci + k) % CAP ci * z
    let dst := fun k => BASE co + (PROD co + k) % CAP co * 2 ^ ESZ co
    ESZ co = ESZ ci → n ≤ CAP co → o ≠ INo b → CAP ci ≠ 0 → CAP co ≠ 0 →
    (∀ k, k < n → OwnRange s core b.asid th.sup (src k) z ∧ OwnRange s core b.asid th.sup (dst k) z) →
    (∀ k j, k < n → j < n → src k + z ≤ dst j ∨ dst j + z ≤ src k) →
    Next (.firingOperandsConsumed core i) s fun t =>
      (∀ k x, k < n → x < z → readByte t.mem (spKey core (dst k + x)) = readByte s.mem (spKey core (src k + x))) ∧
      (∀ y, (∀ k, k < n → ¬ (spKey core (dst k) ≤ y ∧ y < spKey core (dst k) + z)) → readByte t.mem y = readByte s.mem y) ∧
      CONS (buffer t core (INo b)) = (CONS ci + n) % 2 ^ 32 ∧ buffer t core o = co ∧
      ∃ b', bound t core i = some b' ∧ b'.stage = some .consumed ∧ b'.status = b.status) ∧
  (KINDo b = 3 → b.stage = some .started → b.status = 0 → firingConsumedReady s core i = true →
    Next (.firingOperandsConsumed core i) s fun t => t.mem = s.mem ∧
      CONS (buffer t core (INo b)) = (CONS (buffer s core (INo b)) + NINo b) % 2 ^ 32) ∧
  (firingDoneReady s core i = true → b.status = 0 → Next (.firingCompletion core i) s fun t => t.mem = s.mem ∧
    (∀ o, OUTo b = some o → PROD (buffer t core o) = (PROD (buffer s core o) + NOUTo b) % 2 ^ 32 ∧ ∀ k, k ≠ o → buffer t core k = buffer s core k) ∧
    ∃ b', bound t core i = some b' ∧ b'.stage = none ∧ b'.fired = b.fired + 1 ∧ b'.armed = (b.armed && !b.once) ∧ b'.desc = b.desc ∧
      (KINDo b = 3 → b'.bd0 = b.bd0 + BitVec.ofNat 64 (b.desc.toNat / 2 ^ 216 % 2 ^ 24)) ∧ (KINDo b ≠ 3 → b'.bd0 = b.bd0)) ∧
  (firingDoneReady s core i = true → b.status ≠ 0 → Next (.firingCompletion core i) s fun t => t.mem = s.mem ∧ bound t core i = none ∧
    let n := if b.srcBad then INo b else (OUTo b).getD (INo b)
    cbField (buffer t core n) 192 8 = b.status.toNat / 2 ^ 56)

/-- `copy` and its steps (R203, R271-R273): with room in the lock tables the word sends the request that its registers describe, its token
empty; a copy of plain bytes within the own scratchpad makes the destination equal to the source and changes no other byte; an address in no
space and an empty copy move nothing; the completion, of one that left the package once its flits have been acknowledged or have failed, fills
the token with the status, and the copy's locks go.
Complete here, each with `exec i s = .next t` for a `t` that is said (`Next`), from premises on the state and the operands
alone: `copyEngineStart`, `copyCompletion`, `copyLin`, `copyTile2d`, `copyPeer`, `copyBcast`. -/
def Obligations.Copies : Prop :=
  (∀ (s : State) (th : Thread) (sa sb : BitVec 5) (sd : BitVec 4) (sc : BitVec 2), s.Plain th → th.rg = false →
    (∀ c, (s.core c).m.locks.length ≤ 20) → (s.core th.core).m.dlog.length < 64 →
    th.Ready [sa, fieldNext sa, sb] [sd] →
    let a := th.src sa
    let a1 := (th.src (fieldNext sa)).toNat
    let b := th.src sb
    let b1 := (th.src (fieldNext sb)).toNat
    let sends : Instr → CopyKind → (CopyReq → Prop) → Prop := fun i k P => Next i s fun t => ∃ r : CopyReq,
      t.threads = (s.setThread s.cur (th.retire.empty sd)).threads ∧ t.pool = s.pool ++ [.copyEngineStart r] ∧ t.mem = s.mem ∧
      r.kind = k ∧ r.tid = s.cur ∧ r.core = th.core ∧ r.asid = th.c.asid ∧ r.d = sd ∧ r.dst = a ∧ r.src = b ∧ r.sc = sc ∧ r.status = 0 ∧ P r
    sends (.copyLin sa sb sd sc) .lin (fun r => r.len = a1 % 2 ^ 32) ∧
    -- to the package's own id it is a `copy.lin` (R439)
    sends (.copyPeer sa sb sd sc) (if a1 / 2 ^ 32 % 2 ^ 16 = s.ownId then .lin else .peer)
      (fun r => r.len = a1 % 2 ^ 32 ∧ r.pkg.toNat = a1 / 2 ^ 32 % 2 ^ 16) ∧
    sends (.copyBcast sa sb sd sc) .bcast (fun r => r.len = a1 % 2 ^ 32 ∧ r.cmask.toNat = a1 / 2 ^ 32 % 2 ^ 8) ∧
    (th.Ready [fieldNext sb] [] → sends (.copyTile2d sa sb sd sc) .tile2d (fun r => r.len = a1 % 2 ^ 20 ∧ r.rows = a1 / 2 ^ 20 % 2 ^ 20 ∧
      r.sp = b1 % 2 ^ 24 ∧ r.dp = b1 / 2 ^ 24 % 2 ^ 24))) ∧
  (∀ (s : State) (r : CopyReq), Instr.copyEngineStart r ∈ s.pool → copyReady s r = true → s.copyAsleep r = [] → r.done = none →
    (∀ th, PlainCopy s r th → r.len ≠ 0 → Next (.copyEngineStart r) s fun t =>
      (∀ k, k < r.len → readByte t.mem (spKey r.core (r.dst.toNat + k)) = readByte s.mem (spKey r.core (r.src.toNat + k))) ∧
      (∀ y, ¬ (spKey r.core r.dst.toNat ≤ y ∧ y < spKey r.core r.dst.toNat + r.len) → readByte t.mem y = readByte s.mem y) ∧
      .copyCompletion { r with status := 0, lines := [] } ∈ t.pool) ∧
    (r.kind = .lin → r.len ≠ 0 → names r.core r.src.toNat = none →
      (∀ c b, (bankOfCore s c b).toNat % 16 = 0) → Next (.copyEngineStart r) s fun t =>
      t.mem = s.mem ∧ .copyCompletion { r with status := token 7 r.src, lines := [] } ∈ t.pool) ∧
    (r.kind = .lin → r.len = 0 → Next (.copyEngineStart r) s fun t => t.mem = s.mem ∧
      .copyCompletion { r with status := 0, lines := [] } ∈ t.pool)) ∧
  (∀ (s : State) (r : CopyReq) (th : Thread), Instr.copyCompletion r ∈ s.pool → (r.kind = .peer → r.lines = []) → s.threads.find r.tid = some th →
    Next (.copyCompletion r) s fun t => t.mem = s.mem ∧ (∀ j ∈ s.pool.erase (.copyCompletion r), j ∈ t.pool) ∧
      (∃ u, t.threads.find r.tid = some u ∧ u.c = (th.setX r.d r.status).c) ∧
      (∀ k v, k ≠ r.tid → s.threads.find k = some v → ∃ u, t.threads.find k = some u ∧ u.c = v.c ∧ u.run = v.run) ∧
      ∀ c k l, (t.core c).m.locks.find k = some l → l.id ≠ r.id)

namespace Sys2Proof.Claims

open Sys2Proof.Machine

/-! Unmasking contexts (R375). -/
def ctxOf (s : State) (die i : Nat) : UmeCtx := (s.die die).ume.getD i {}
def ctxField (c : UmeCtx) (lo len : Nat) : Nat := c.reg.toNat / 2 ^ lo % 2 ^ len
def ctxOwned (c : UmeCtx) (asid : W16) : Prop := ctxField c 584 1 = 1 ∧ ctxField c 568 16 = asid.toNat
/-- A block that breaks a limit (R381). -/
def badBlock (b : Nat) : Prop :=
  let f := fun lo len => b / 2 ^ lo % 2 ^ len
  f 64 24 = 0 ∨ f 432 16 = 0 ∨ 32768 < f 432 16 ∨ f 0 64 % 16 ≠ 0 ∨ f 128 64 % 8 ≠ 0 ∨ f 192 64 % 8 ≠ 0 ∨ f 256 64 % 16 ≠ 0 ∨
    f 320 64 % 16 ≠ 0 ∨ f 528 8 / 2 ≠ 0
/-- The fields that `ume.cfg` loads: place and width. -/
def ctxRW : List (Nat × Nat) := [(0, 64), (64, 24), (128, 64), (192, 64), (256, 64), (320, 64), (384, 24), (416, 16), (432, 16), (448, 16),
  (464, 16), (480, 32), (512, 8), (520, 6), (528, 8)]
/-! A round (R376-R379): what it reads in the state `s`, with `K` the memory key of a global address. -/
structure RoundView where
  s : State
  c : UmeCtx
  n : Nat
  K : Nat → Nat
/-- The candidate record `i` (R376): position, token, confidence. -/
def RoundView.rec_ (v : RoundView) (i : Nat) : Nat := v.s.rd (v.K (ctxField v.c 0 64 + 16 * ((ctxField v.c 96 32 + i) % ctxField v.c 64 24))) 16
def RoundView.pos (v : RoundView) (i : Nat) : Nat := v.rec_ i % 2 ^ 32
def RoundView.conf (v : RoundView) (i : Nat) : Nat := v.rec_ i / 2 ^ 64 % 2 ^ 32
def RoundView.len (v : RoundView) : Nat := ctxField v.c 432 16
/-- The dwords of the mask and dirty maps, and their addresses. -/
def RoundView.maskAt (v : RoundView) (i : Nat) : Nat := ctxField v.c 128 64 + 8 * i
def RoundView.dirtyAt (v : RoundView) (q : Nat) : Nat := ctxField v.c 192 64 + 8 * q
def RoundView.masked (v : RoundView) (p : Nat) : Bool := decide (p < v.len) && (v.s.rd (v.K (v.maskAt (p / 64))) 8).testBit (p % 64)
/-- M of R377. -/
def RoundView.M (v : RoundView) : Nat := (List.range v.len).countP v.masked
def RoundView.valid (v : RoundView) (i : Nat) : Prop := i < v.n ∧ v.masked (v.pos i) = true
/-- `i` ranks before `j` (R378). -/
def RoundView.before (v : RoundView) (i j : Nat) : Prop :=
  let nan := fun k => isNaN 8 23 (v.conf k)
  (¬ nan i ∧ nan j) ∨ below 8 23 (v.conf j) (v.conf i) ∨
    (((nan i ∧ nan j) ∨ equals 8 23 (v.conf i) (v.conf j)) ∧ (v.pos i < v.pos j ∨ (v.pos i = v.pos j ∧ i < j)))
/-- `l` are the candidates kept, ranked (R377, R378). -/
def RoundView.Ranks (v : RoundView) (l : List Nat) : Prop :=
  l.Pairwise v.before ∧ ∀ i, i ∈ l ↔ v.valid i ∧ ∀ j, v.valid j → v.pos j = v.pos i → j ≠ i → v.before i j
/-- c of R377; `t` candidates meet the threshold. -/
def RoundView.commits (v : RoundView) (l : List Nat) (t : Nat) : Nat :=
  let k := min v.M (max (ctxField v.c 448 16) ((ctxField v.c 416 16 * v.M + 65535) / 65536))
  let c := max (min k l.length) (if ctxField v.c 528 1 = 1 then t else 0)
  if ctxField v.c 464 16 ≠ 0 then min c (ctxField v.c 464 16) else c
/-- How many of `l` meet the threshold. -/
def RoundView.Meets (v : RoundView) (l : List Nat) (t : Nat) : Prop :=
  ∃ m : List Nat, m.Sublist l ∧ m.length = t ∧ ∀ i ∈ l, i ∈ m ↔ (below 8 23 (ctxField v.c 480 32) (v.conf i) ∨ equals 8 23 (ctxField v.c 480 32) (v.conf i))
/-- The new dirty bits of position `q` when the positions `ps` commit (R379). -/
def RoundView.marks (v : RoundView) (ps : List Nat) (q : Nat) : Nat :=
  if q ∈ ps then 2 ^ 64 - 1
  else if ∃ p ∈ ps, p ≤ q + ctxField v.c 512 8 ∧ q ≤ p + ctxField v.c 512 8 then 2 ^ 64 - 2 ^ ctxField v.c 520 6 else 0
/-- The bits of position `q` that became dirty, and the positions with some, in ascending order. -/
def RoundView.became (v : RoundView) (ps : List Nat) (q : Nat) : Nat :=
  v.marks ps q &&& (2 ^ 64 - 1 - v.s.rd (v.K (v.dirtyAt q)) 8)
def RoundView.listed (v : RoundView) (ps : List Nat) : List Nat := (List.range v.len).filter fun q => v.became ps q != 0
/-- What a round writes, `won` the candidates that it commits: address, bytes, value (R377, R379). -/
def RoundView.writes (v : RoundView) (won : List Nat) : List (Nat × Nat × Nat) :=
  let ps := won.map v.pos
  let mask := fun i => v.s.rd (v.K (v.maskAt i)) 8
  let cleared := fun i => ps.foldl (fun w p => if p / 64 = i then w &&& (2 ^ 64 - 1 - 2 ^ (p % 64)) else w) (mask i)
  ((won.zipIdx).map fun x => (ctxField v.c 256 64 + 16 * x.2, 16,
    v.rec_ x.1 % 2 ^ 96 + (ctxField v.c 536 32 + 1) % 2 ^ 32 * 2 ^ 96)) ++
  (((List.range ((v.len + 63) / 64)).filter fun i => cleared i != mask i).map fun i => (v.maskAt i, 8, cleared i)) ++
  (((List.range v.len).filter fun q => v.marks ps q != 0).map fun q =>
    (v.dirtyAt q, 8, v.s.rd (v.K (v.dirtyAt q)) 8 ||| v.marks ps q)) ++
  (((v.listed ps).take (ctxField v.c 384 24)).zipIdx).map fun x =>
    (ctxField v.c 320 64 + 16 * x.2, 16, x.1 + v.became ps x.1 * 2 ^ 64)
/-- A global unit at a die in service whose TLB holds its page; one that is written may be, and wants no log record. -/
def RoundUnit (s : State) (r : UmeReq) (K : Nat → Nat) (write : Bool) (ea : Nat) : Prop :=
  ∃ space va x, names r.core ea = some (.glob space va) ∧ (s.die (homeDie space va)).failed = false ∧ (s.die (homeDie space va)).tlb.find? (fun x => x.asid == r.asid &&
    x.space.toNat == space && va / pageBytes x.size == x.vpage / pageBytes x.size) = some x ∧ K ea = x.key (homeDie space va) va ∧
    (write = true → x.entry.getLsbD 2 = true ∧ x.entry.getLsbD 3 = false)
/-- Every unit that a round reads or writes is reached, no read of it has failed, no two that it writes share a byte, and the issuing
core's logs have room. -/
structure RoundReach (v : RoundView) (r : UmeReq) (won : List Nat) : Prop where
  lost : r.lost = []
  fail : r.status = 0
  logs : v.s.out.wrlog = [] ∧ (v.s.core r.core).m.wlog.length < 64 ∧ (v.s.core r.core).m.dlog.length + (v.writes won).length ≤ 64
  limits : ctxField v.c 0 64 % 16 = 0 ∧ ctxField v.c 128 64 % 8 = 0 ∧ ctxField v.c 192 64 % 8 = 0 ∧ ctxField v.c 256 64 % 16 = 0 ∧
    ctxField v.c 320 64 % 16 = 0
  records : ∀ i, i < v.n → RoundUnit v.s r v.K false (ctxField v.c 0 64 + 16 * ((ctxField v.c 96 32 + i) % ctxField v.c 64 24))
  masks : ∀ i, i < (v.len + 63) / 64 → RoundUnit v.s r v.K false (v.maskAt i)
  dirty : ∀ q, q < v.len → v.marks (won.map v.pos) q ≠ 0 → RoundUnit v.s r v.K false (v.dirtyAt q)
  written : ∀ w ∈ v.writes won, RoundUnit v.s r v.K true w.1
  apart : (v.writes won).Pairwise fun a b => v.K a.1 + a.2.1 ≤ v.K b.1 ∨ v.K b.1 + b.2.1 ≤ v.K a.1

/-- The request that a `ume.cfg` or `ume.round` sends. -/
def umeSent (s : State) (th : Thread) (sd ctx : BitVec 4) (arg : W64) (r : UmeReq) : Prop :=
  r.tid = s.cur ∧ r.core = th.core ∧ r.die = th.core / 128 ∧ r.ctx = ctx.toNat ∧ r.asid = th.c.asid ∧ r.d = sd ∧ r.arg = arg

/-! The ring (R407, R411): bobbins and their metadata, names and buffers. -/
def bobbin (s : State) (b : Nat) : Bobbin := s.ring.bob.getD b {}
def metaOf (x : Bobbin) (lo len : Nat) : Nat := x.meta_.toNat / 2 ^ lo % 2 ^ len
def HELD (x : Bobbin) : Bool := x.meta_.getLsbD 32
def DIRTY (x : Bobbin) : Bool := x.meta_.getLsbD 51
def CLAIM (x : Bobbin) : Bool := x.meta_.getLsbD 52
def POISON (x : Bobbin) : Bool := x.meta_.getLsbD 62
def word8 (p : BitVec 512) (w : Nat) : Nat := p.toNat / 2 ^ (64 * w) % 2 ^ 64
def nameOf (th : Thread) (h : BitVec 2) : HoldName := th.holds.getD h.toNat {}
def bufOf (s : State) (core i : Nat) : HoldBuf := (s.core core).r.bufs.getD i {}
def stationQueue (s : State) (core : Nat) : List RingOp := (s.core core).r.queue
/-- The bobbin lies in a window for the thread's ASID, or the thread is a supervisor; a retired one lies in none (R410). -/
def inRingWindow (s : State) (th : Thread) (b : Nat) : Prop :=
  b < 4096 ∧ b ∉ s.ring.retired ∧ (th.sup = true ∨ ∃ e ∈ (s.core th.core).r.win, e.2.getLsbD 41 = true ∧
    e.2.toNat / 2 ^ 25 % 2 ^ 16 = th.c.asid.toNat ∧ e.2.toNat % 2 ^ 12 ≤ b ∧ b < e.2.toNat / 2 ^ 12 % 2 ^ 13)
/-- No name is LOST and the station has room (R413). -/
structure RingReady (s : State) (th : Thread) : Prop extends State.Plain s th where
  rg : th.rg = false
  mob : th.mob = false
  gm : th.gm = false
  names : ∀ h : BitVec 2, (nameOf th h).st ≠ .lost
  room : (stationQueue s th.core).length < 16
/-- The word queues an operation on a bobbin and the thread becomes `u`; the ring, memory and slots are as before. -/
def RingQueues (i : Instr) (s : State) (th u : Thread) (b : Nat) (fn : RingFn) : Prop :=
  Next i s fun t => t.threads = (s.setThread s.cur u).threads ∧ t.ring = s.ring ∧ t.mem = s.mem ∧ t.slots = s.slots ∧
    ∃ o : RingOp, stationQueue t th.core = stationQueue s th.core ++ [o] ∧ o.tid = s.cur ∧ o.bobbin = b ∧ o.fn = fn ∧ o.since = s.cycle

/-- Only the given metadata fields differ. -/
def MetaBut (x y : Bobbin) (l : List (Nat × Nat)) : Prop :=
  ∀ k, (∀ f ∈ l, ¬ (f.1 ≤ k ∧ k < f.1 + f.2)) → y.meta_.getLsbD k = x.meta_.getLsbD k

/-- What a passage of the bobbin performs of one queued operation (R414-R419), on the bobbin `x` of a station: whether it is done, and the
bobbin after it. -/
def Passes (st : Nat) (x y : Bobbin) (q : HoldBuf) (fn : RingFn) (done : Prop) : Prop :=
  let mine := HELD x = true ∧ metaOf x 33 9 = st
  let foreign := CLAIM x = true ∧ metaOf x 53 9 ≠ st
  match fn with
  | .peek _ _ => done ∧ y = x
  | .board _ _ buf =>
    if HELD x = false ∧ DIRTY x = false ∧ ¬ foreign then
      done ∧ (POISON x = false → HELD y = true ∧ metaOf y 33 9 = st % 512 ∧ metaOf y 42 2 = buf % 4 ∧ metaOf y 44 7 = 0 ∧ CLAIM y = false ∧
        y.com = x.com ∧ y.pend = x.pend) ∧ (POISON x = true → y = x)
    else ¬ done ∧ y.com = x.com ∧ y.pend = x.pend ∧ CLAIM y = true ∧ (CLAIM x = true → y = x) ∧ (CLAIM x = false → metaOf y 53 9 = st % 512)
  | .alight _ buf => done ∧ (mine ∧ metaOf x 42 2 = buf → y.pend = q.data ∧ y.com = x.com ∧ HELD y = false ∧ DIRTY y = true ∧ POISON y = false) ∧
      (¬ (mine ∧ metaOf x 42 2 = buf) → y = x)
  | .rel _ buf => done ∧ (mine ∧ metaOf x 42 2 = buf → y.pend = x.pend ∧ y.com = x.com ∧ HELD y = false ∧ DIRTY y = DIRTY x) ∧
      (¬ (mine ∧ metaOf x 42 2 = buf) → y = x)
  | .radd v w => if HELD x = true ∨ foreign then ¬ done ∧ y = x
    else done ∧ (POISON x = true → y = x) ∧ (POISON x = false → w < 8 → DIRTY y = true ∧ y.com = x.com ∧ MetaBut x y [(51, 1)] ∧
      ∀ k, k < 8 → word8 y.pend k = if k = w then (word8 x.pend w + v.toNat) % 2 ^ 64 else word8 x.pend k)
  | .rmax v w sg => if HELD x = true ∨ foreign then ¬ done ∧ y = x
    else done ∧ (POISON x = true → y = x) ∧ (POISON x = false → w < 8 → DIRTY y = true ∧ y.com = x.com ∧ MetaBut x y [(51, 1)] ∧
      ∀ k, k < 8 → word8 y.pend k = if k = w then
          (if sg then (max (sgn 64 (word8 x.pend w)) (sgn 64 v.toNat) % 2 ^ 64).toNat else max (word8 x.pend w) v.toNat)
        else word8 x.pend k)
  | .drop _ buf => done ∧ (mine ∧ metaOf x 42 2 = buf → HELD y = false ∧ y.pend = x.pend ∧ y.com = x.com) ∧
      (¬ (mine ∧ metaOf x 42 2 = buf) → y = x)

end Sys2Proof.Claims

/-- The unmasking engine (R375-R385): cfg with 0 releases a context or answers 2 or 1, with an address sends the request; its read
of the block at the home answers 2, 1 or 3, or loads every RW field and owns the context; round sends a request and is answered 1, 2 or 3
with nothing changed, or runs: it ranks the valid candidates, commits the first of them, and writes their output records, the mask and
dirty maps and the dirty list, and no other byte; at its completion ICONS and ROUND step on and the token fills; a fault sets BAD and ERR; stat and dirty read.
Complete here, each with `exec i s = .next t` for a `t` that is said (`Next`), from premises on the state and the operands
alone: `umeCfgBlockRead`, `umeRoundExecution`, `umeRoundCompletion`, `umeCfg`, `umeRound`, `umeStat`, `umeDirty`. -/
def Obligations.UnmaskingEngine : Prop :=
  (∀ (s : State) (th : Thread) (sa : BitVec 5) (sd ctx : BitVec 4) (sel : BitVec 2), s.Plain th →
    let die := th.core / 128
    let a := th.src sa
    let c := ctxOf s die ctx.toNat
    let mine := ctxField c 584 1 = 1 ∧ (th.sup = true ∨ ctxField c 568 16 = th.c.asid.toNat)
    let seen := th.sup = true ∨ ctxOwned c th.c.asid
    let busy := s.umeBusy die ctx.toNat = true
    (th.rg = true → (∀ f, th.full f = true) →
      ∀ i ∈ [Instr.umeCfg sa sd ctx, .umeRound sa sd ctx, .umeStat sd sel ctx, .umeDirty sd ctx], Traps i s th .privilege 6) ∧
    (th.rg = false → th.Ready [sa] [sd] →
      (a = 0 → (¬ mine → WritesX (.umeCfg sa sd ctx) s th sd 2) ∧ (mine → busy → WritesX (.umeCfg sa sd ctx) s th sd 1) ∧
        (mine → ¬ busy → Next (.umeCfg sa sd ctx) s fun t => t.threads = (s.setThread s.cur (th.retire.setX sd 0)).threads ∧
          ctxOf t die ctx.toNat = {} ∧ t.mem = s.mem)) ∧
      (a ≠ 0 → (∀ k va, names th.core a.toNat ≠ some (.glob k va)) → Traps (.umeCfg sa sd ctx) s th .addressSpace a) ∧
      (∀ k va, names th.core a.toNat = some (.glob k va) →
        (a.toNat % 64 ≠ 0 → Traps (.umeCfg sa sd ctx) s th .misaligned a) ∧
        (a.toNat % 64 = 0 → Next (.umeCfg sa sd ctx) s fun t => ∃ r, t.pool = s.pool ++ [.umeCfgBlockRead r] ∧ umeSent s th sd ctx a r ∧
          t.threads = (s.setThread s.cur (th.retire.empty sd)).threads ∧ t.mem = s.mem)) ∧
      (Next (.umeRound sa sd ctx) s fun t => ∃ r, t.pool = s.pool ++ [.umeRoundExecution r] ∧
        umeSent s th sd ctx (BitVec.ofNat 64 (a.toNat % 2 ^ 32)) r ∧ (r.status = 2 ↔ busy) ∧
        t.threads = (s.setThread s.cur (th.retire.empty sd)).threads ∧ t.mem = s.mem)) ∧
    (th.rg = false → th.full sd = true →
      (¬ seen → WritesX (.umeStat sd sel ctx) s th sd 0 ∧ WritesX (.umeDirty sd ctx) s th sd 0) ∧
      (seen → WritesX (.umeDirty sd ctx) s th sd (BitVec.ofNat 64 (c.st.written + c.st.total * 2 ^ 32)) ∧
        (sel = 0 → WritesX (.umeStat sd sel ctx) s th sd (BitVec.ofNat 64 ((if s.umeBusy die ctx.toNat then 1 else 0) +
          (if c.st.nan then 2 else 0) + (if c.st.dovf then 4 else 0) + (if c.bad then 8 else 0) + c.err.toNat * 2 ^ 8 +
          c.st.klast * 2 ^ 16 + c.st.masked * 2 ^ 32))) ∧
        (sel = 1 → WritesX (.umeStat sd sel ctx) s th sd (BitVec.ofNat 64 (ctxField c 536 32 + ctxField c 96 32 * 2 ^ 32))) ∧
        (sel = 2 → WritesX (.umeStat sd sel ctx) s th sd (BitVec.ofNat 64 (c.st.read + c.st.drop * 2 ^ 32))) ∧
        (sel = 3 → WritesX (.umeStat sd sel ctx) s th sd 0)))) ∧
  (∀ (s : State) (r : UmeReq) (th : Thread) (k1 v1 k2 v2 : Nat) (x1 x2 : Xlat), Instr.umeCfgBlockRead r ∈ s.pool → cfgReady s r = true →
    s.threads.find r.tid = some th → th.chunk.open_ = false → r.lost = [] → r.arg.toNat % 64 = 0 → names r.core r.arg.toNat = some (.glob k1 v1) →
    names r.core (r.arg + 64).toNat = some (.glob k2 v2) → (s.die (homeDie k1 v1)).failed = false →
    (s.die (homeDie k2 v2)).failed = false → s.xlate r.asid k1 v1 false = .ok x1 → s.xlate r.asid k2 v2 false = .ok x2 →
    Next (.umeCfgBlockRead r) s fun t =>
      let block := s.rd (x1.key (homeDie k1 v1) v1) 64 + s.rd (x2.key (homeDie k2 v2) v2) 64 * 2 ^ 512
      let c := ctxOf s r.die r.ctx
      let d := ctxOf t r.die r.ctx
      let fills := fun (v : W64) => ∃ u, t.threads.find r.tid = some u ∧ u.c = (th.setX r.d v).c
      let foreign := ctxField c 584 1 = 1 ∧ ctxField c 568 16 ≠ r.asid.toNat
      t.mem = s.mem ∧
      (foreign → fills 2 ∧ d = c) ∧ (¬ foreign → s.umeBusy r.die r.ctx = true → fills 1 ∧ d = c) ∧
      (¬ foreign → s.umeBusy r.die r.ctx = false → badBlock block → fills 3 ∧ d = c) ∧
      (¬ foreign → s.umeBusy r.die r.ctx = false → ¬ badBlock block → fills 0 ∧ ctxOwned d r.asid ∧ ctxField d 96 32 = 0 ∧
        ctxField d 536 32 = 0 ∧ d.st = c.st ∧ d.bad = c.bad ∧ d.err = c.err ∧ ∀ f ∈ ctxRW, ctxField d f.1 f.2 = block / 2 ^ f.1 % 2 ^ f.2)) ∧
  (∀ (s : State) (r : UmeReq), Instr.umeRoundExecution r ∈ s.pool → roundReady s r = true →
    let c := ctxOf s r.die r.ctx
    let ends := fun (v : W64) => Next (.umeRoundExecution r) s fun t => t.mem = s.mem ∧ ctxOf t r.die r.ctx = c ∧
      .umeRoundCompletion { r with status := v } ∈ t.pool
    (¬ ctxOwned c r.asid → ends 1) ∧ (ctxOwned c r.asid → r.status = 2 → ends 2) ∧
    (ctxOwned c r.asid → r.status ≠ 2 → ctxField c 64 24 < r.arg.toNat → ends 3) ∧
    (ctxOwned c r.asid → r.status ≠ 2 → r.arg.toNat ≤ ctxField c 64 24 → Next (.umeRoundExecution r) s fun t =>
      (ctxOf t r.die r.ctx).reg = c.reg ∧ (ctxOf t r.die r.ctx).st = c.st) ∧
    -- a round whose structures are reached: it writes what R377 and R379 say and no other byte, and its report is R383's
    (∀ (K : Nat → Nat) (ranked : List Nat) (met : Nat), ctxOwned c r.asid → r.arg.toNat ≤ ctxField c 64 24 →
      s.inChunk r.tid r.id = false →
      let v : RoundView := ⟨s, c, r.arg.toNat, K⟩
      let won := ranked.take (v.commits ranked met)
      let fresh := v.listed (won.map v.pos)
      v.Ranks ranked → v.Meets ranked met → RoundReach v r won → Next (.umeRoundExecution r) s fun t =>
        .umeRoundCompletion { r with status := 0 } ∈ t.pool ∧ (ctxOf t r.die r.ctx).reg = c.reg ∧ (ctxOf t r.die r.ctx).st = c.st ∧
        (∀ w ∈ v.writes won, t.rd (K w.1) w.2.1 = w.2.2) ∧
        (∀ a, (∀ w ∈ v.writes won, a < K w.1 ∨ K w.1 + w.2.1 ≤ a) → readByte t.mem a = readByte s.mem a) ∧
        ∃ nan : Bool, (nan = true ↔ ∃ i, v.valid i ∧ isNaN 8 23 (v.conf i)) ∧
          (ctxOf t r.die r.ctx).pend = ⟨won.length, v.M - won.length, nan, decide (ctxField c 384 24 < fresh.length), v.n,
            v.n - ranked.length, min fresh.length (ctxField c 384 24), fresh.length⟩)) ∧
  (∀ (s : State) (r : UmeReq) (th : Thread), Instr.umeRoundCompletion r ∈ s.pool → s.threads.find r.tid = some th →
    Next (.umeRoundCompletion r) s fun t => t.mem = s.mem ∧ (∃ u, t.threads.find r.tid = some u ∧ u.c = (th.setX r.d r.status).c) ∧
      let c := ctxOf s r.die r.ctx
      let d := ctxOf t r.die r.ctx
      (r.status = 0 → ctxField d 96 32 = (ctxField c 96 32 + r.arg.toNat) % 2 ^ 32 ∧ ctxField d 536 32 = (ctxField c 536 32 + 1) % 2 ^ 32 ∧
        d.st = c.pend ∧ d.bad = false ∧ d.err = 0 ∧ ctxField d 568 17 = ctxField c 568 17) ∧
      (r.status ∈ [1, 2, 3] → d = c) ∧
      (4 ≤ r.status.toNat → d.bad = true ∧ d.err.toNat = r.status.toNat / 2 ^ 56 ∧ d.reg = c.reg ∧ d.st = c.st))

namespace Sys2Proof.Claims

open Sys2Proof.Machine

/-- `ring` (R410-R419, R421, R424): a LOST name reports first, the window is checked next; peek, radd and rmax queue and the thread goes on; a
board answers 2 or 1, or waits with its name WAITING and its buffer taken; hget and hset act on a HELD name, alight and rel make it
BUSY and queue, a name that holds nothing traps with detail 3.
Complete here, each with `exec i s = .next t` for a `t` that is said (`Next`), from premises on the state and the operands
alone: `ringPeek`, `ringBoard`, `ringHget`, `ringHset`, `ringAlight`, `ringRel`, `ringRadd`, `ringRmax`. -/
def RingWords : Prop :=
  ∀ (s : State) (th : Thread) (sa sb : BitVec 5) (sd : BitVec 4) (h : BitVec 2),
  (s.Plain th → th.rg = false → th.mob = false → (∀ f, th.full f = true) → (nameOf th h).st = .lost →
    (∀ k : BitVec 2, k.toNat < h.toNat → (nameOf th k).st ≠ .lost) → th.mo.waitId = 0 → ∀ (w : BitVec 4) (v : BitVec 3) (g : BitVec 1) (k : BitVec 2),
    let u : Thread := { th with holds := th.holds.put {} h.toNat {} }
    ∀ i ∈ [Instr.ringPeek sa sd w, .ringBoard sa sd k, .ringHget sd v k, .ringHset sa v k, .ringAlight k, .ringRel k, .ringRadd sa sb v,
        .ringRmax sa sb g v],
      exec i s = .next ((s.setThread s.cur u).takeTrap s.cur .ring (BitVec.ofNat 8 (nameOf th h).why) (BitVec.ofNat 64 (nameOf th h).bobbin)
        th.c.pc)) ∧
  (RingReady s th →
    let b := (th.src sa).toNat
    let x := nameOf th h
    (∀ w : BitVec 4, th.Ready [sa] [sd] →
      (¬ inRingWindow s th b → Traps (.ringPeek sa sd w) s th .addressSpace (th.src sa)) ∧
      (inRingWindow s th b → RingQueues (.ringPeek sa sd w) s th (th.retire.empty sd) b (.peek sd w.toNat))) ∧
    (∀ (w : BitVec 3) (g : BitVec 1), th.Ready [sa, sb] [] →
      (¬ inRingWindow s th b → Traps (.ringRadd sa sb w) s th .addressSpace (th.src sa) ∧
        Traps (.ringRmax sa sb g w) s th .addressSpace (th.src sa)) ∧
      (inRingWindow s th b → RingQueues (.ringRadd sa sb w) s th th.retire b (.radd (th.src sb) w.toNat) ∧
        RingQueues (.ringRmax sa sb g w) s th th.retire b (.rmax (th.src sb) w.toNat (g == 1)))) ∧
    (th.Ready [sa] [sd] → th.mo.waitId = 0 →
      (¬ inRingWindow s th b → Traps (.ringBoard sa sd h) s th .addressSpace (th.src sa)) ∧
      (inRingWindow s th b →
        (x.st ≠ .empty → Next (.ringBoard sa sd h) s fun t => t = s.setThread s.cur (th.bindVx.retire.setX sd 2)) ∧
        (x.st = .empty → (∀ i, i < 4 → (bufOf s th.core i).used = true) → Next (.ringBoard sa sd h) s fun t =>
          t = s.setThread s.cur (th.bindVx.retire.setX sd 1)) ∧
        (∀ i, x.st = .empty → i < 4 → (bufOf s th.core i).used = false → (∀ j, j < i → (bufOf s th.core j).used = true) →
          Next (.ringBoard sa sd h) s fun t => t.ring = s.ring ∧ t.mem = s.mem ∧
            (∃ u, t.threads.find s.cur = some u ∧ u.run = .parked (.request u.mo.waitId) ∧ u.mo.waitId ≠ 0 ∧ u.vx = true ∧ u.c.pc = th.c.pc ∧
              (nameOf u h).st = .waiting ∧ (nameOf u h).buf = i ∧ (nameOf u h).bobbin = b) ∧ (bufOf t th.core i).used = true ∧
            ∃ o : RingOp, stationQueue t th.core = stationQueue s th.core ++ [o] ∧ o.bobbin = b ∧ o.fn = .board sd h i ∧ o.tid = s.cur))) ∧
    (th.Ready [sa] [sd] → th.mo.waitId ≠ 0 → th.mo.syncErr = none → th.mo.acquired = true → exec (.ringBoard sa sd h) s = .next (s.setThread s.cur
      { th.retire with mo := { th.mo with acquired := false, waitId := 0 } })) ∧
    (x.st ≠ .held → x.st ≠ .busy → (∀ f, th.full f = true) → ∀ w : BitVec 3,
      ∀ i ∈ [Instr.ringHget sd w h, .ringHset sa w h, .ringAlight h, .ringRel h],
        exec i s = .next ((s.setThread s.cur th).takeTrap s.cur .ring 3 0xFFFF th.c.pc)) ∧
    (x.st = .held → ∀ w : BitVec 3,
      (th.full sd = true → WritesX (.ringHget sd w h) s th sd (BitVec.ofNat 64 (word8 (bufOf s th.core x.buf).data w.toNat))) ∧
      (th.Ready [sa] [] → Next (.ringHset sa w h) s fun t => t.threads = (s.setThread s.cur th.retire).threads ∧ t.mem = s.mem ∧
        t.ring = s.ring ∧ (∀ j, j ≠ x.buf → bufOf t th.core j = bufOf s th.core j) ∧
        ∀ k, k < 8 → word8 (bufOf t th.core x.buf).data k = if k = w.toNat then (th.src sa).toNat else word8 (bufOf s th.core x.buf).data k) ∧
      (let u : Thread := { th.retire with holds := th.holds.put {} h.toNat { x with st := .busy } }
       RingQueues (.ringAlight h) s th u x.bobbin (.alight h x.buf) ∧ RingQueues (.ringRel h) s th u x.bobbin (.rel h x.buf))))

end Sys2Proof.Claims

namespace Sys2Proof.Claims

open Sys2Proof.Machine

/-- The steps of the ring (R406, R408, R414-R421): a passage performs the station's queued operation, and not before 64 ring cycles after its
issue; a peek's register and a board's are filled 64 ring cycles after it; a seam crossing commits a dirty bobbin and ages a held one; a hold
that has aged to 64 breaks, its pending payload unchanged, and the holder's buffer is marked lost. Payloads change nowhere else.
Complete here, each with `exec i s = .next t` for a `t` that is said (`Next`), from premises on the state and the operands
alone: `stationPassage`, `seamCrossing`, `holdBreak`. -/
def RingSteps : Prop :=
  (∀ (b st k : Nat) (s : State) (o : RingOp), ringDue s (.stationPassage b st) = some k → k % 2 = 1 → stationQueue s st = [o] →
    o.bobbin = b → (4 * o.since + 64 ≤ k / 2 ∨ ∃ h i, o.fn = .drop h i) → Next (.stationPassage b st) s fun t => t.mem = s.mem ∧
      (∀ c, c ≠ b → bobbin t c = bobbin s c) ∧
      (CLAIM (bobbin s b) = false ∨ metaOf (bobbin s b) 53 9 ≠ st →
        Passes st (bobbin s b) (bobbin t b) (bufOf s st (match o.fn with | .alight _ i => i | _ => 0)) o.fn (stationQueue t st = [])) ∧
      (∀ d w, o.fn = .peek d w → ∃ f : RingFill, (t.core st).r.fills = (s.core st).r.fills ++ [f] ∧ f.at_ = k / 2 + 64 ∧ f.tid = o.tid ∧
        f.d = d ∧ f.req = none ∧ f.bobbin = b ∧ (8 ≤ w → f.v = (bobbin s b).meta_ ∧ f.bad = none) ∧
        (w < 8 → POISON (bobbin s b) = false → f.v = BitVec.ofNat 64 (word8 (bobbin s b).com w) ∧ f.bad = none) ∧
        (w < 8 → POISON (bobbin s b) = true → f.v = 0 ∧ f.bad = some b)) ∧
      (∀ d h i, o.fn = .board d h i → stationQueue t st = [] → ∃ f : RingFill, (t.core st).r.fills = (s.core st).r.fills ++ [f] ∧
        f.at_ = k / 2 + 64 ∧ f.tid = o.tid ∧ f.d = d ∧ f.req = some o.id ∧ f.v = (if POISON (bobbin s b) then 3 else 0) ∧
        (POISON (bobbin s b) = false → (bufOf t st i).data = (bobbin s b).com ∧ (bufOf t st i).used = true))) ∧
  (∀ (b st k : Nat) (s : State) (o : RingOp), ringDue s (.stationPassage b st) = some k → k % 2 = 1 → stationQueue s st = [o] →
    o.bobbin = b → k / 2 < 4 * o.since + 64 → (∀ h i, o.fn ≠ .drop h i) → Next (.stationPassage b st) s fun t => t.mem = s.mem ∧
      (bobbin t b).com = (bobbin s b).com ∧ (bobbin t b).pend = (bobbin s b).pend ∧
      ((∀ i, i < 4 → (bufOf s st i).lost = false) → stationQueue t st = [o])) ∧
  -- the fill of a register
  (∀ (b st k : Nat) (s : State) (f : RingFill) (th : Thread), ringDue s (.stationPassage b st) = some k → k % 2 = 0 →
    (s.core st).r.fills = [f] → f.at_ = k / 2 → f.bobbin = b → s.threads.find f.tid = some th → Next (.stationPassage b st) s fun t =>
      t.mem = s.mem ∧ t.ring = s.ring ∧ (t.core st).r.fills = [] ∧ ∃ u, t.threads.find f.tid = some u ∧
        (f.req = none → u.c = (th.setX f.d f.v).c ∧ match f.bad with
          | some p => Reports th u .memError (BitVec.ofNat 64 p)
          | none => u.mo = th.mo) ∧
        (∀ id, f.req = some id → if th.mo.waitId = id then u.c = (th.setX f.d f.v).c ∧ u.mo = { th.mo with acquired := true } else u = th)) ∧
  (∀ (b k : Nat) (s : State), ringDue s (.seamCrossing b) = some k → Next (.seamCrossing b) s fun t =>
    let x := bobbin s b
    let y := bobbin t b
    t.mem = s.mem ∧ t.threads = s.threads ∧ (∀ c, c ≠ b → bobbin t c = bobbin s c) ∧ y.pend = x.pend ∧ DIRTY y = false ∧
    (DIRTY x = true → y.com = x.pend ∧ metaOf y 0 32 = (metaOf x 0 32 + 1) % 2 ^ 32) ∧
    (DIRTY x = false → y.com = x.com ∧ metaOf y 0 32 = metaOf x 0 32) ∧
    (HELD x = true → metaOf y 44 7 = (metaOf x 44 7 + 1) % 2 ^ 7) ∧ (HELD x = false → metaOf y 44 7 = metaOf x 44 7) ∧
    MetaBut x y [(0, 32), (44, 7), (51, 1)] ∧
    (HELD x = true ∧ metaOf y 44 7 = 64 → t.agenda = .holdBreak b :: s.agenda)) ∧
  (∀ (b : Nat) (s : State), HELD (bobbin s b) = true → metaOf (bobbin s b) 44 7 = 64 → Next (.holdBreak b) s fun t =>
    let x := bobbin s b
    let y := bobbin t b
    let q := bufOf t (metaOf x 33 9) (metaOf x 42 2)
    t.mem = s.mem ∧ t.threads = s.threads ∧ (∀ c, c ≠ b → bobbin t c = bobbin s c) ∧ y.com = x.com ∧ y.pend = x.pend ∧ HELD y = false ∧
    MetaBut x y [(32, 1)] ∧
    -- a hold that a halt has given up holds no buffer any more (R423)
    if ∃ o ∈ stationQueue s (metaOf x 33 9), o.bobbin = b ∧ ∃ h, o.fn = .drop h (metaOf x 42 2) then
      q = bufOf s (metaOf x 33 9) (metaOf x 42 2)
    else q.lost = true)

end Sys2Proof.Claims

/-- Ring words, passages and the seam: `RingWords`, `RingSteps` above. -/
def Obligations.RingWordsAndSteps : Prop := Sys2Proof.Claims.RingWords ∧ Sys2Proof.Claims.RingSteps

namespace Sys2Proof.Claims

open Sys2Proof.Machine

/-- A port over which messages and copies to a package may leave (R437, R438). -/
def Usable (s : State) (pkg n : Nat) : Prop :=
  n < 18 ∧ (∃ i, i < 4 ∧ (s.out.route.getD pkg 0xFFFFF).toNat / 2 ^ (5 * i) % 32 = n) ∧ s.out.pkgid.getLsbD 16 = true ∧
    (s.port n).up = true ∧ (3 ≤ (s.port n).version ∨ (pkg < 2 ^ 12 ∧ s.out.pkgid.toNat % 2 ^ 16 < 2 ^ 12))

/-- The fields of a flit (R433), good under a version of the link. -/
structure FlitIs (ver : Nat) (f : BitVec 2048) (kind seq dst src cls plen payload : Nat) : Prop where
  kind : f.toNat / 2 ^ 12 % 2 ^ 4 = kind
  seq : f.toNat % 2 ^ 12 = seq
  dst : f.toNat / 2 ^ 32 % 2 ^ 16 = dst
  src : f.toNat / 2 ^ 48 % 2 ^ 16 = src
  cls : f.toNat / 2 ^ 64 % 2 ^ 8 = cls
  plen : f.toNat / 2 ^ 72 % 2 ^ 8 = plen
  payload : f.toNat / 2 ^ 96 % 2 ^ 1920 = payload
  good : flitGood ver f = true

/-- A port over which a data flit to a package goes out at once: up, the ids fit its version, nothing held (R434, R436, R438). -/
structure Talks (s : State) (n pkg : Nat) : Prop where
  up : (s.port n).up = true
  id : s.out.pkgid.getLsbD 16 = true
  version : (s.port n).version = 3 ∨ ((s.port n).version = 2 ∧ s.out.pkgid.toNat % 2 ^ 16 < 2 ^ 12 ∧ pkg < 2 ^ 12)
  free : (s.port n).hold = [] ∧ (s.port n).replay.length < 64

/-- One data flit has left over the port, and stays in its replay buffer (R434). -/
def Flits (s t : State) (n dst cls plen payload : Nat) : Prop :=
  ∃ f, t.out.sent = s.out.sent ++ [.flit n f] ∧ (t.port n).replay = (s.port n).replay ++ [f] ∧
    (t.port n).sendSeq.toNat = ((s.port n).sendSeq.toNat + 1) % 2 ^ 12 ∧
    FlitIs (s.port n).version f 1 ((s.port n).sendSeq.toNat % 2 ^ 12) dst (s.out.pkgid.toNat % 2 ^ 16) cls plen payload
/-- A reply of class 1 to another package (R439, R441): the status, the number that it answers, and whether that is a copy's; where they
stand in the payload is the model's choice (log entry 87). -/
def Replied (s t : State) (n : Nat) (pkg : W16) (v : W64) (id : Nat) (copy : Bool) : Prop :=
  Flits s t n pkg.toNat 1 13 (v.toNat + id % 2 ^ 32 * 2 ^ 64 + (if copy then 2 ^ 96 else 0))

/-- A message with the hardware bytes of R171 for a sender. -/
def stampedFor (m : BitVec 512) (t : Tid) (core : Nat) (asid : W16) : BitVec 512 :=
  m.extractLsb' 304 208 ++ asid ++ m.extractLsb' 80 208 ++ BitVec.ofNat 16 core ++ BitVec.ofNat 32 t ++ m.extractLsb' 8 24 ++ 1#8

/-- The message that `msg.recv` takes (R442): of the thread's ASID, arrived over the fabric, high priority first. -/
def firstFabric (th : Thread) (l : List Msg) : Option Msg :=
  let q := l.filter fun m => m.asid == th.c.asid && m.pkg.isSome
  (q.filter fun m => m.prio).head?.or (q.filter fun m => !m.prio).head?

/-- The bytes stand from a key on, but for OVF (R315), and every other byte reads as before. -/
def Wrote (s t : State) (key : Nat) (l : List W8) : Prop :=
  (∀ k, k < l.length → ¬ OvfByte s (key + k) → readByte t.mem (key + k) = l.getD k 0) ∧
  ∀ a, ¬ (key ≤ a ∧ a < key + l.length) → readByte t.mem a = readByte s.mem a

/-- Versions are those that the LX9 offers (R436), or none. -/
def Versions (s : State) : Prop := ∀ n, (s.port n).version ≤ 3

end Sys2Proof.Claims

/-- `msg` and what arrives (R434, R437-R443, R454): `send`, its release and earlier copies over, sends the stamped 64 bytes in one flit over
a usable port and empties its status, or waits for the answer of the thread's older message to that core; answers 0x20 with no port, parks for
an open copy, acts as a post for the own id; `recv` takes the oldest fabric message of its ASID, high priority first; `probe` reports a
package; a message that a port has passed upward is queued with its stamp, or refused, and answered over the port; the flit of a copy is
performed at its home, and the last one is answered; the answer of another package fills the status.
Complete here, each with `exec i s = .next t` for a `t` that is said (`Next`), from premises on the state and the operands
alone: `mailboxDelivery`, `copyPeerArrival`, `fabricMessageArrival`, `msgSend`, `msgRecv`, `msgProbe`. -/
def Obligations.FabricMessages : Prop :=
  (∀ s pkg n, n ∈ s.upPorts pkg ↔ Usable s pkg n) ∧
  (∀ (s : State) (th : Thread), s.Plain th → th.rg = true → (∀ d, th.full d = true) → ∀ (sa sb : BitVec 5) (sd : BitVec 4) (pr : BitVec 1),
    Traps (.msgSend sa sb sd pr) s th .privilege 6 ∧ Traps (.msgRecv sa sd) s th .privilege 6 ∧ Traps (.msgProbe sa sd) s th .privilege 6) ∧
  (∀ (s : State) (th : Thread), s.Plain th → th.rg = false → th.region = none → th.chunk.held = [] → Versions s →
    s.ecc = [] →
    let own := s.out.pkgid.toNat % 2 ^ 16
    (∀ (sa sb : BitVec 5) (sd : BitVec 4) (pr : BitVec 1) (off : Nat), th.Ready [sa, sb] [sd] → LocalAt s th (th.src sb) true off →
      let a := th.src sa
      let m := BitVec.ofNat 512 (s.rd (spKey th.core off) 64)
      let dest := a.toNat / 2 ^ 16 % 2 ^ 16
      let i := Instr.msgSend sa sb sd pr
      let posted := fun (p : PostReq) => p.tid = s.cur ∧ p.core = th.core ∧ p.asid = th.c.asid ∧ p.d = some sd ∧
        p.dst = a.toNat % 512 ∧ p.prio = (pr == 1) ∧ p.wake = (if a.getLsbD 63 then some (a.toNat / 2 ^ 32 % 2 ^ 15) else none) ∧
        p.bytes = stamped m s.cur th ∧ p.id = s.nextId ∧ p.answer = none
      -- an older message of the thread to that core of that package at that priority is not answered yet
      let older := ∃ q : PostReq, (Instr.mailboxDelivery q ∈ s.pool ∨ Instr.faultMessageDelivery q ∈ s.pool) ∧ q.tid = s.cur ∧
        q.dst = a.toNat % 512 ∧ q.prio = (pr == 1) ∧ q.id < s.nextId ∧ ∃ n, q.fabric = some (BitVec.ofNat 16 dest, n)
      (th.sup = false → kindOf m < 16 → Traps i s th .privilege 5) ∧
      (th.sup = true ∨ 16 ≤ kindOf m → ((dest = own ∧ a.toNat % 512 = th.core) ∨ s.outstanding s.cur th < 32) →
        (dest = own → let sc : BitVec 2 := if a.toNat % 512 / 128 = th.core / 128 then 1 else 2
          ReleaseDone s th sc → Next i s fun t => t.threads = (s.setThread s.cur ((released th sc).retire.empty sd)).threads ∧
            t.mem = s.mem ∧ ∃ p, t.pool = s.pool ++ [postStep p] ∧ posted p ∧ p.fabric = none) ∧
        (dest ≠ own → s.peerCopyOpen s.cur (BitVec.ofNat 16 dest) = true →
          exec i s = .next (s.setThread s.cur (th.park (.peerCopy (BitVec.ofNat 16 dest))))) ∧
        (dest ≠ own → s.peerCopyOpen s.cur (BitVec.ofNat 16 dest) = false → ReleaseDone s th 3 →
          (s.upPorts dest = [] → Next i s fun t => t.threads = (s.setThread s.cur ((released th 3).retire.setX sd 0x20)).threads ∧
            t.pool = s.pool ∧ t.mem = s.mem ∧ t.out = s.out) ∧
          (s.upPorts dest ≠ [] → Next i s fun t => t.threads = (s.setThread s.cur ((released th 3).retire.empty sd)).threads ∧
            t.mem = s.mem ∧ ∃ p n, t.pool = s.pool ++ [.mailboxDelivery p] ∧ posted p ∧ p.fabric = some (BitVec.ofNat 16 dest, n) ∧
              (older → t.out = s.out) ∧
              (¬ older → Usable s dest n ∧ (Talks s n dest → Flits s t n dest (if pr = 1 then 2 else 3) 72
                ((stamped m s.cur th).toNat + a.toNat % 512 * 2 ^ 512 +
                  (if a.getLsbD 63 then a.toNat / 2 ^ 32 % 2 ^ 15 + 2 ^ 15 else 0) * 2 ^ 528 + s.nextId % 2 ^ 32 * 2 ^ 544))))))) ∧
    (∀ (sa : BitVec 5) (sd : BitVec 4) (off : Nat), th.Ready [sa] [sd] → LocalAt s th (th.src sa) false off →
      match firstFabric th (s.core th.core).k.mailbox with
      | none => WritesX (.msgRecv sa sd) s th sd 1
      | some m => s.olderAccess s.cur th.core (th.src sa) 64 = none → Next (.msgRecv sa sd) s fun t =>
          t.threads.find s.cur = some ((acquired s th).retire.setX sd (BitVec.ofNat 64 ((m.pkg.getD 0).toNat * 2 ^ 16))) ∧
          (t.core th.core).k.mailbox = (s.core th.core).k.mailbox.erase m ∧
          t.mem = writeLE s.mem (spKey th.core off) 64 m.bytes.toNat ∧ EmptyL1 t th.core) ∧
    (∀ (sa : BitVec 5) (sd : BitVec 4), th.Ready [sa] [sd] → let pkg := (th.src sa).toNat % 2 ^ 16
      -- the ports of its route that are up
      let up := ((List.range 4).map fun k => (s.out.route.getD pkg 0xFFFFF).toNat / 2 ^ (5 * k) % 32).filter
        fun n => decide (n < 18) && (s.port n).up
      WritesX (.msgProbe sa sd) s th sd (if pkg = own then 1 else if s.out.pkgid.getLsbD 16 = false then 0 else match up with
        | [] => 0
        | n :: ns => BitVec.ofNat 64 ((if s.upPorts pkg = [] then 0 else 1) + 2 ^ 4 * (ns.length + 1) + 2 ^ 8 * (s.port n).version)))) ∧
  (∀ (s : State) (p : PostReq) (src : W16) (n : Nat), p.fabric = some (src, n) → p.dst < 512 → p.d = none →
    (s.port n).next true = some (.fabricMessageArrival p) → Talks s n src.toNat →
    let box := (s.core p.dst).k.mailbox
    let room := if p.prio then 16 else 12
    Next (.fabricMessageArrival p) s fun t => t.mem = s.mem ∧ (t.port n).inbox = (s.port n).inbox.erase (.fabricMessageArrival p) ∧
      (s.out.tray ≠ .serving → Replied s t n src 0x20 p.id false ∧ t.threads = s.threads ∧ t.cores = s.cores) ∧
      (s.out.tray = .serving →
        (s.coreMode p.dst = .retired → Replied s t n src 2 p.id false ∧ t.threads = s.threads ∧ t.cores = s.cores) ∧
        (s.coreMode p.dst ≠ .retired → room ≤ box.length → Replied s t n src 1 p.id false ∧ t.threads = s.threads ∧ t.cores = s.cores) ∧
        (s.coreMode p.dst ≠ .retired → box.length < room → Replied s t n src 0 p.id false ∧
          (t.core p.dst).k.mailbox = box ++
            [{ prio := p.prio, asid := p.asid, bytes := stampedFor p.bytes p.tid p.core p.asid, pkg := some src }] ∧
          ∀ w u, p.wake = some w → s.threads.find w = some u → u.core = p.dst → ∃ v, t.threads.find w = some v ∧ v.c.wake = true))) ∧
  (∀ (s : State) (src asid : W16) (dst : W64) (bytes : List W8) (sc : BitVec 2) (tag : CopyFlit),
    let i := Instr.copyPeerArrival src asid dst bytes sc tag
    let n := tag.port
    let ends := fun (code : Nat) => Next i s fun t => t.mem = s.mem ∧ t.threads = s.threads ∧
      (t.port n).inbox = (s.port n).inbox.erase i ∧ Replied s t n src (token code dst) tag.id true ∧
      (tag.last = false → (src, tag.id) ∈ (t.port n).failed)
    (s.port n).next false = some i → s.isHeld i = false → Talks s n src.toNat →
    -- what is left of a copy that has failed goes
    ((src, tag.id) ∈ (s.port n).failed → Next i s fun t => t.mem = s.mem ∧ t.threads = s.threads ∧ t.out.sent = s.out.sent ∧
      (t.port n).inbox = (s.port n).inbox.erase i) ∧
    ((src, tag.id) ∉ (s.port n).failed →
      (s.out.tray = .drained ∨ s.out.tray = .off ∨ (s.out.tray = .quiesced ∧ tag.first = true) → ends 0x20) ∧
      (s.out.tray = .serving ∨ (s.out.tray = .quiesced ∧ tag.first = false) → bytes ≠ [] → dst.toNat % 64 + bytes.length ≤ 64 →
        ((∀ k va, names 0 dst.toNat ≠ some (.glob k va)) → ends 0x07) ∧
        (∀ k va, names 0 dst.toNat = some (.glob k va) →
          ((s.die (homeDie k va)).failed = true → ends 0x12) ∧
          ((s.die (homeDie k va)).failed = false →
            (∀ x, s.xlate asid k va true = .ok x → x.entry.getLsbD 3 = false → Next i s fun t =>
              Wrote s t (x.key (homeDie k va) va) bytes ∧ t.threads = s.threads ∧ (t.port n).inbox = (s.port n).inbox.erase i ∧
              (tag.last = true → Replied s t n src 0 tag.id true) ∧ (tag.last = false → t.out.sent = s.out.sent) ∧
              -- at system scope no L1 keeps the line
              (sc = 3 → (s.die (homeDie k va)).tlbHit asid k va = some x → ∀ c l, l ∈ (t.core c).m.l1 →
                l.line = x.key (homeDie k va) va / 64 → l.leaving = true)) ∧
            (∀ e, s.xlate asid k va true = .error e → Next i s fun t => t.mem = s.mem ∧ t.out.sent = s.out.sent ∧
              (t.port n).next false = some i ∧ HeldAtHome t (homeDie k va) asid i)))))) ∧
  (∀ (s : State) (p : PostReq) (v : W64), p.fabric.isSome = true → p.answer = some v → Instr.mailboxDelivery p ∈ s.pool →
    olderPost s p = false → Next (.mailboxDelivery p) s fun t => t.mem = s.mem ∧ t.cores = s.cores ∧
      ((∀ q a, Instr.mailboxDelivery q ∈ s.pool → q.fabric ≠ some (a, 31)) → status s p v t))

/-- Links (R433-R436, R438, R455): the good data flit with the next number is acknowledged and passed upward, an answer to what it
answers, anything else as the port's next message or flit of a copy; any other flit asks once for a replay, which is charged to the lanes
that failed; an acknowledgement frees flits, a replay request resends from the flit that it names; a port that may not carry data
sends none and asks nothing; a lane charged 16 times is spared, with the spare in use the port goes down; training takes the highest common version;
a lost port drops its buffers and what it had passed upward, and ends its messages and copies with 0x21.
Complete here, each with `exec i s = .next t` for a `t` that is said (`Next`), from premises on the state and the operands
alone: `flitData`, `flitReplayRequest`, `flitAcknowledge`, `flitIdle`, `laneSparing`, `portTraining`, `portSurpriseDown`. -/
def Obligations.LinksAndFlits : Prop :=
  ∀ (s : State) (n : Nat), n < 18 → Versions s →
  let p := s.port n
  let own := s.out.pkgid.toNat % 2 ^ 16
  -- the port may carry data
  let carries := s.out.pkgid.getLsbD 16 = true ∧ (3 ≤ p.version ∨ own < 2 ^ 12)
  let src := if 3 ≤ p.version then own else own % 2 ^ 12
  let still := fun (t : State) => t.threads = s.threads ∧ t.mem = s.mem
  -- a flit that is not passed on
  let refused := fun (bad : BitVec 8) (t : State) => still t ∧ (t.port n).recvSeq = p.recvSeq ∧ (t.port n).replay = p.replay ∧
    (p.asked = true ∨ ¬ carries → t.out.sent = s.out.sent ∧ (t.port n).asked = p.asked ∧
      ∀ l, l < 8 → (t.port n).retries.getD l 0 = if bad.getLsbD l then p.retries.getD l 0 else 0) ∧
    (p.asked = false → carries → (t.port n).asked = true ∧
      (∃ f, t.out.sent = s.out.sent ++ [.flit n f] ∧ FlitIs p.version f 2 (p.recvSeq.toNat % 2 ^ 12) 0 src 0 0 0) ∧
      (∀ l, l < 8 → (t.port n).retries.getD l 0 = if bad.getLsbD l then p.retries.getD l 0 + 1 else 0) ∧
      ((∃ l, l < 8 ∧ 16 ≤ (t.port n).retries.getD l 0) → ∃ l, .laneSparing n l ∈ t.agenda ∧ 16 ≤ (t.port n).retries.getD l 0))
  -- the flits that an acknowledgement frees; what was held follows
  let frees := fun (bits : BitVec 2048) (t : State) => still t ∧ (t.port n).recvSeq = p.recvSeq ∧
    (∀ i f, p.replay[i]? = some f → flitSeq f = flitAck bits →
      (∀ j g, j < i → p.replay[j]? = some g → flitSeq g ≠ flitAck bits) → p.replay.drop (i + 1) <+: (t.port n).replay ∧
        (p.hold = [] ∨ ¬ carries → (t.port n).replay = p.replay.drop (i + 1))) ∧
    ((∀ f ∈ p.replay, flitSeq f ≠ flitAck bits) → (t.port n).replay = p.replay)
  (p.up = true →
    (∀ bits : BitVec 2048, flitGood p.version bits = true → flitKind bits = 1 →
      (¬ carries → Next (.flitData n bits 0) s fun t => still t ∧ (t.port n).recvSeq = p.recvSeq ∧ (t.port n).inbox = p.inbox) ∧
      (carries → flitSeq bits ≠ p.recvSeq.toNat → Next (.flitData n bits 0) s fun t => still t ∧
        (t.port n).recvSeq = p.recvSeq ∧ (t.port n).asked = true ∧ (t.port n).inbox = p.inbox) ∧
      (carries → flitSeq bits = p.recvSeq.toNat → Next (.flitData n bits 0) s fun t => still t ∧
        (t.port n).recvSeq.toNat = (p.recvSeq.toNat + 1) % 2 ^ 12 ∧ (t.port n).asked = false ∧
        (∃ f, t.out.sent.getLast? = some (.flit n f) ∧ FlitIs p.version f 3 0 0 own 0 0 0 ∧ f.toNat / 2 ^ 16 % 2 ^ 12 = flitSeq bits) ∧
        let cls := bits.toNat / 2 ^ 64 % 2 ^ 8
        let load := bits.toNat / 2 ^ 96
        let from_ := bits.toNat / 2 ^ 48 % 2 ^ 16
        -- an answer (log entry 87)
        (cls = 1 → (t.port n).inbox = p.inbox ∧
          (∀ q : PostReq, Instr.mailboxDelivery q ∈ s.pool → q.fabric.isSome = true → q.answer = none →
            q.id % 2 ^ 32 = load / 2 ^ 64 % 2 ^ 32 → load / 2 ^ 96 % 2 ^ 8 ≠ 1 →
            .mailboxDelivery { q with answer := some (BitVec.ofNat 64 load) } ∈ t.pool) ∧
          ∀ r : CopyReq, Instr.copyCompletion r ∈ s.pool → r.kind = .peer → r.lines ≠ [] → r.id % 2 ^ 32 = load / 2 ^ 64 % 2 ^ 32 →
            load / 2 ^ 96 % 2 ^ 8 = 1 → .copyCompletion { r with status := BitVec.ofNat 64 load, lines := [] } ∈ t.pool) ∧
        (cls ≠ 1 → ∃ i, (t.port n).inbox = p.inbox ++ [i] ∧ (p.inbox = [] → t.agenda.head? = some i) ∧
          (2 ≤ cls → ∃ q : PostReq, i = .fabricMessageArrival q ∧ q.fabric = some (BitVec.ofNat 16 from_, n) ∧ q.d = none ∧
            q.prio = (cls == 2) ∧ q.bytes.toNat = load % 2 ^ 512 ∧ q.dst = load / 2 ^ 512 % 512) ∧
          (cls = 0 → ∃ asid dst l sc tag, i = .copyPeerArrival (BitVec.ofNat 16 from_) asid dst l sc tag ∧ tag.port = n ∧
            dst.toNat = load % 2 ^ 64 ∧ asid.toNat = load / 2 ^ 64 % 2 ^ 16 ∧
            ∀ k, k < l.length → (l.getD k 0).toNat = load / 2 ^ (128 + 8 * k) % 2 ^ 8)))) ∧
    (∀ (bits : BitVec 2048) (bad : BitVec 8), bad ≠ 0 ∨ flitGood p.version bits = false ∨ flitKind bits ≠ 1 →
      Next (.flitData n bits bad) s (refused bad)) ∧
    (∀ f : RxFlit,
      (f.bad ≠ 0 ∨ flitGood p.version f.bits = false ∨ flitKind f.bits ≠ 3 → Next (.flitAcknowledge n f) s (refused f.bad)) ∧
      (f.bad ≠ 0 ∨ flitGood p.version f.bits = false ∨ flitKind f.bits ≠ 0 → Next (.flitIdle n f) s (refused f.bad)) ∧
      (f.bad ≠ 0 ∨ flitGood p.version f.bits = false ∨ flitKind f.bits ≠ 2 → Next (.flitReplayRequest n f) s (refused f.bad)) ∧
      (f.bad = 0 → flitGood p.version f.bits = true →
        (flitKind f.bits = 3 → Next (.flitAcknowledge n f) s (frees f.bits)) ∧
        (flitKind f.bits = 0 → Next (.flitIdle n f) s (frees f.bits)) ∧
        (flitKind f.bits = 2 → Next (.flitReplayRequest n f) s fun t => frees f.bits t ∧
          ((∀ g ∈ p.replay, flitSeq g ≠ flitAck f.bits) →
            (carries → t.out.sent = s.out.sent ++ (p.replay.dropWhile fun g => flitSeq g != flitSeq f.bits).map (.flit n)) ∧
            (¬ carries → t.out.sent = s.out.sent ∧ (t.port n).owed = some (flitSeq f.bits)))))) ∧
    (∀ lane, lane < 8 → 16 ≤ p.retries.getD lane 0 →
      (p.spare = none → Next (.laneSparing n lane) s fun t => still t ∧ (t.port n).up = true ∧
        (t.port n).spare = some lane ∧ (t.port n).replay = p.replay ∧ (t.port n).lanes.getLsbD lane = false ∧
        t.out.repairs = s.out.repairs ++ [.lane n lane] ∧
        (carries → t.out.sent = s.out.sent ++ p.replay.map (.flit n) ++ [.event (.laneSpared n lane)])) ∧
      (p.spare.isSome = true → Next (.laneSparing n lane) s fun t => (t.port n).up = false ∧ (t.port n).down = true ∧
        (t.port n).replay = [])) ∧
    (Next (.portSurpriseDown n) s fun t => t.mem = s.mem ∧ (t.port n).up = false ∧ (t.port n).replay = [] ∧ (t.port n).hold = [] ∧
      (t.port n).inbox = [] ∧ t.out.sent.getLast? = some (.event (.portDown n)) ∧
      (∀ src asid dst l sc tag, tag.port = n → .copyPeerArrival src asid dst l sc tag ∉ t.pool) ∧
      (∀ r : CopyReq, Instr.copyCompletion r ∈ s.pool → r.kind = .peer → r.lines = [n] →
        .copyCompletion { r with status := token 0x21 r.dst, lines := [] } ∈ t.pool) ∧
      (∀ q a, Instr.mailboxDelivery q ∈ s.pool → q.fabric = some (a, n) → q.answer = none → .mailboxDelivery q ∉ t.pool ∧
        ((∀ r b, Instr.mailboxDelivery r ∈ s.pool → r.fabric ≠ some (b, 31)) →
          (∀ r b, Instr.mailboxDelivery r ∈ s.pool → r.fabric = some (b, n) → r.tid = q.tid → r = q) → status s q 0x21 t)))) ∧
  (p.up = false → p.down = false → ∀ offered : List Nat,
    ((3 ∈ offered ∨ 2 ∈ offered) → Next (.portTraining n offered) s fun t => still t ∧ (t.port n).up = true ∧
      (t.port n).version = (if 3 ∈ offered then 3 else 2) ∧ (t.port n).sendSeq = 0 ∧ (t.port n).recvSeq = 0 ∧ (t.port n).replay = [] ∧
      (t.port n).hold = []) ∧
    (3 ∉ offered → 2 ∉ offered → exec (.portTraining n offered) s = .next s))

namespace Sys2Proof.Claims

open Sys2Proof.Machine

/-- A number's little-endian bytes. -/
def bytesOf (n v : Nat) : List W8 := (List.range n).map fun k => BitVec.ofNat 8 (v / 256 ^ k)
/-- A management read of an offset answers a value. -/
def Reads (s : State) (off : Nat) (v : W64) : Prop := exec (.mgmtReadRegister off) s = .next (s.send (.reply (bytesOf 8 v.toNat)))
/-- The outer registers become `o`, with one reply more; threads and memory stay. -/
def Heard (i : Instr) (s : State) (o : Outer) (v : W8) : Prop :=
  Next i s fun t => t.out = { o with sent := s.out.sent ++ [.reply [v]] } ∧ t.threads = s.threads ∧ t.mem = s.mem
/-- Every thread is as it was, but for the replies that a record at rest gives those that wait for it (R361). -/
def SameThreads (s t : State) : Prop :=
  ∀ k th, s.threads.find k = some th → ∃ w, t.threads.find k = some { th with mo := { th.mo with reply := w } }
/-- A management write of an offset by any of its names. -/
def writesOf (off : Nat) (v : W64) (also : List Instr) : List Instr := .mgmtWriteRegister off v :: .registerWrite none off v :: also
def pcapReg (s : State) (off : Nat) : Nat := (s.pcap off).toNat
/-- The power-capping registers differ from `s` as said; the reply is 0. -/
def PcapTo (i : Instr) (s : State) (v : Nat → Nat) : Prop :=
  Next i s fun t => t.threads = s.threads ∧ t.mem = s.mem ∧ t.out.sent = s.out.sent ++ [.reply [0]] ∧
    ∀ off ∈ [0x100, 0x108, 0x110, 0x118, 0x120, 0x128], pcapReg t off = v off
/-- CLMP set where a value was clamped (R452). -/
def clmp (st : Nat) (on : Bool) : Nat := if on then st ||| 2 ^ 33 else st
/-- The window's address in the global space and its ASID (R446). -/
def windowOf (s : State) (win off : Nat) : W16 × W64 :=
  (BitVec.ofNat 16 (s.out.wasid.getD win 0).toNat, BitVec.ofNat 64 ((s.out.wbase.getD win 0).toNat + off))
/-- The limit that the next window gets (R453). -/
def nextLimit (s : State) : Nat :=
  let g := pcapReg s 0x120
  if g % 2 ^ 16 = 0 then pcapReg s 0x100
  else max (pcapReg s 0x110) (min (pcapReg s 0x100) (g / 2 ^ 32 * pcapReg s 0x128 / 65536))

/-- A write of a function that is performed now (R447): one that comes and has no earlier write of its function before it, or one that
waited, in flight, and whose turn has come. -/
def Comes (s : State) (f : HostFn) (i : Instr) : Prop :=
  (f.seq = none ∧ f.fn ≤ 64 ∧ s.hostBefore f.fn s.nextId = false) ∨ ∃ q, f.seq = some q ∧ i ∈ s.pool ∧ s.hostBefore f.fn q = false
/-- A function reads a register of its BAR0. -/
def HostSees (s : State) (fn off : Nat) (v : W64) : Prop :=
  exec (.hostRead (.bar0 fn) off 8) s = .next (s.send (.readData (bytesOf 8 v.toNat)))

end Sys2Proof.Claims

namespace Sys2Proof.Claims

open Sys2Proof.Machine

/-- The host's accesses (R446-R449, R451): a write through a window is performed at the home of the address that the window gave when it
came, after the earlier writes of its function; a read answers its bytes, all ones where nothing is mapped; either is held for a missing
translation; a relaxed write may wait; BAR0 gives a virtual function its own ASIDs' wake bits alone; a doorbell posts one message of kind
0x08 with the hardware bytes of R449 under the ASID assigned to it and clears that ASID's host wake; HWAKE bits are set by ones.
Complete here, each with `exec i s = .next t` for a `t` that is said (`Next`), from premises on the state and the operands
alone: `hostWrite`, `hostRead`, `doorbellWrite`, `hwakeWrite`. -/
def HostAccesses : Prop :=
  ∀ s : State, s.ready = true →
  -- a write performed at an address, which a held one leaves under its number
  (∀ (fn seq : Nat) (asid : W16) (ea : W64) (bytes : List W8) (i : Instr) (off win : Nat) (relaxed : Bool),
    (i = .hostWrite (.win fn win) off bytes false ∧ fn ≤ 64 ∧ win < 16 ∧ off + bytes.length ≤ 2 ^ 32 ∧ (asid, ea) = windowOf s win off ∧
      relaxed = false ∧ seq = s.nextId ∧ s.hostBefore fn s.nextId = false) ∨
    (i = .hostWrite (.at_ fn seq asid ea) 0 bytes relaxed ∧ i ∈ s.pool ∧ (relaxed = true ∨ s.hostBefore fn seq = false)) →
    bytes ≠ [] → ea.toNat % 64 + bytes.length ≤ 64 →
    ((∀ k va, names 0 ea.toNat ≠ some (.glob k va)) → Next i s fun t => t.mem = s.mem ∧ t.threads = s.threads ∧ t.out = s.out) ∧
    (∀ k va, names 0 ea.toNat = some (.glob k va) →
      ((s.die (homeDie k va)).failed = true → Next i s fun t => t.mem = s.mem ∧ t.threads = s.threads ∧ t.out = s.out) ∧
      ((s.die (homeDie k va)).failed = false →
        (∀ x, s.xlate asid k va true = .ok x → x.entry.getLsbD 3 = false → Next i s fun t =>
          Wrote s t (x.key (homeDie k va) va) bytes ∧ t.threads = s.threads ∧ t.out = s.out) ∧
        (∀ e, s.xlate asid k va true = .error e → Next i s fun t => t.mem = s.mem ∧ t.out = s.out ∧
          HeldAtHome t (homeDie k va) asid (.hostWrite (.at_ fn seq asid ea) 0 bytes relaxed))))) ∧
  -- one that waits keeps the address that it had
  (∀ (fn win off : Nat) (bytes : List W8) (relaxed : Bool), fn ≤ 64 → win < 16 → off + bytes.length ≤ 2 ^ 32 →
    relaxed = true ∨ s.hostBefore fn s.nextId = true → Next (.hostWrite (.win fn win) off bytes relaxed) s fun t => t.mem = s.mem ∧
      t.threads = s.threads ∧ t.out = s.out ∧
      t.pool = s.pool ++ [.hostWrite (.at_ fn s.nextId (windowOf s win off).1 (windowOf s win off).2) 0 bytes relaxed]) ∧
  (∀ (fn win off n seq : Nat) (asid : W16) (ea : W64) (i : Instr), 0 < n → ea.toNat % 64 + n ≤ 64 →
    (i = .hostRead (.win fn win) off n ∧ fn ≤ 64 ∧ win < 16 ∧ off + n ≤ 2 ^ 32 ∧ (asid, ea) = windowOf s win off) ∨
      (i = .hostRead (.at_ fn seq asid ea) off n ∧ i ∈ s.pool) →
    let ones := Next i s fun t => t.mem = s.mem ∧ t.threads = s.threads ∧
      t.out.sent = s.out.sent ++ [.readData (List.replicate n 0xFF)]
    ((∀ k va, names 0 ea.toNat ≠ some (.glob k va)) → ones) ∧
    (∀ k va, names 0 ea.toNat = some (.glob k va) →
      ((s.die (homeDie k va)).failed = true → ones) ∧
      ((s.die (homeDie k va)).failed = false →
        (∀ x, s.xlate asid k va false = .ok x → Next i s fun t => t.mem = s.mem ∧ t.threads = s.threads ∧
          t.out.sent = s.out.sent ++ [.readData ((List.range n).map fun j => readByte s.mem (x.key (homeDie k va) va + j))]) ∧
        (∀ e, s.xlate asid k va false = .error e → Next i s fun t => t.mem = s.mem ∧ t.out = s.out ∧
          HeldAtHome t (homeDie k va) asid (.hostRead (.at_ 0 0 asid ea) 0 n))))) ∧
  -- BAR0, of the physical function and of a virtual one
  HostSees s 0 8 s.out.pkgid ∧
  (∀ i, i < 16 → HostSees s 0 (0x200 + 16 * i) (s.out.wbase.getD i 0) ∧ HostSees s 0 (0x208 + 16 * i) (s.out.wasid.getD i 0)) ∧
  (∀ off, off % 8 = 0 → ((0x100 ≤ off ∧ off ≤ 0x128) ∨ (0x100000 ≤ off ∧ off < 0x140000)) → HostSees s 0 off 0) ∧
  (∀ j, j < 1024 → HostSees s 0 (0x2000 + 8 * j) (s.out.hwake.getD j 0)) ∧
  (∀ fn, 0 < fn → fn ≤ 64 →
    (∀ j, j < 1024 → ∃ v : W64, HostSees s fn (0x2000 + 8 * j) v ∧ ∀ b, b < 64 → v.getLsbD b =
      ((s.out.hwake.getD j 0).getLsbD b && decide (s.out.fnOf.getD (64 * j + b) 0 = fn))) ∧
    ∀ off, off % 8 = 0 → off + 8 ≤ 2 ^ 26 → ¬ (0x2000 ≤ off ∧ off < 0x4000) → HostSees s fn off 0) ∧
  (∀ (db : HostReg) (bytes : List W8), db.n < 512 → let i := Instr.doorbellWrite db bytes
    let box := (s.core db.n).k.mailbox
    let ignored := Next i s fun t => t.mem = s.mem ∧ t.threads = s.threads ∧ t.cores = s.cores ∧ t.out = s.out
    (db.by_.seq = none → db.by_.fn ≤ 64 → s.hostBefore db.by_.fn s.nextId = true → Next i s fun t => t.mem = s.mem ∧
      t.threads = s.threads ∧ t.cores = s.cores ∧ t.out = s.out ∧
      t.pool = s.pool ++ [.doorbellWrite ⟨⟨db.by_.fn, some s.nextId⟩, db.n⟩ bytes]) ∧
    (Comes s db.by_ i →
      (s.out.doorbell.find db.n = none → ignored) ∧
      (∀ f asid, s.out.doorbell.find db.n = some (f, asid) →
        (bytes.length ≠ 64 → ignored) ∧ (db.by_.fn ≠ 0 → db.by_.fn ≠ f → ignored) ∧
        (bytes.length = 64 → db.by_.fn = 0 ∨ db.by_.fn = f → Next i s fun t => t.mem = s.mem ∧ t.threads = s.threads ∧
          (t.out.hwake.getD (asid.toNat / 64) 0).getLsbD (asid.toNat % 64) = false ∧
          (s.coreMode db.n ≠ .retired → box.length < 16 → ∃ m : Msg, (t.core db.n).k.mailbox = box ++ [m] ∧ m.prio = true ∧
            m.asid = asid ∧ m.pkg = none ∧ ∀ k, k < 64 → (m.bytes.toNat / 256 ^ k % 256) = (if k = 0 then 1 else if k = 1 then 8
              else if 4 ≤ k ∧ k < 8 then 255 else if k = 8 then 255 else if k = 9 then 1
              else if k = 36 then asid.toNat % 256 else if k = 37 then asid.toNat / 256 else (bytes.getD k 0).toNat)) ∧
          (s.coreMode db.n = .retired ∨ 16 ≤ box.length → (t.core db.n).k.mailbox = box))))) ∧
  (∀ (j : HostReg) (v : W64), j.n < 1024 → Comes s j.by_ (.hwakeWrite j v) → Next (.hwakeWrite j v) s fun t => t.mem = s.mem ∧
    t.threads = s.threads ∧ t.out.sent = s.out.sent ∧
    (∀ b, b < 64 → (t.out.hwake.getD j.n 0).getLsbD b = ((s.out.hwake.getD j.n 0).getLsbD b ||
      (v.getLsbD b && (decide (j.by_.fn = 0) || decide (s.out.fnOf.getD (64 * j.n + b) 0 = j.by_.fn))))) ∧
    ∀ k, k ≠ j.n → t.out.hwake.getD k 0 = s.out.hwake.getD k 0)

end Sys2Proof.Claims

namespace Sys2Proof.Claims

open Sys2Proof.Machine

/-- The package's registers (R315, R352, R438, R451-R453, R457): what a read of each offset answers, an offset that the table does not list
zero; what a write stores, a read-only or unknown offset answering 1 with nothing changed; the host's writes, which hear no
reply and reach only its own registers; the clamps of the power-capping registers and the limit of the next window.
Complete here, each with `exec i s = .next t` for a `t` that is said (`Next`), from premises on the state and the operands
alone: `mgmtReadRegister`, `mgmtWriteRegister`, `pkgidWrite`, `routeEntryWrite`, `pcapRegisterWrite`, `pcapStatusClear`,
`wrlogWrite`, `lrverWrite`, `registerWrite`, `powerWindowBoundary`. -/
def PackageRegisters : Prop :=
  ∀ s : State,
  (s.out.tray ≠ .off →
    Reads s 0x8 s.out.pkgid ∧ (∀ off ∈ [0x100, 0x108, 0x110, 0x118, 0x120, 0x128], Reads s off (s.pcap off)) ∧
    (∀ i, i < 16 → Reads s (0x200 + 16 * i) (s.out.wbase.getD i 0) ∧ Reads s (0x208 + 16 * i) (s.out.wasid.getD i 0)) ∧
    (∀ j, j < 1024 → Reads s (0x2000 + 8 * j) (s.out.hwake.getD j 0)) ∧
    (∀ p, p < 32768 → Reads s (0x100000 + 8 * p) (s.out.route.getD p 0xFFFFF)) ∧
    (∀ a, a < 65536 → Reads s (0x200000 + 8 * a) (s.out.lrver.getD a 6) ∧ Reads s (0x300000 + 8 * a) (s.out.wrlog.getD a 0) ∧
      Reads s (0x400000 + 8 * a) (s.out.allow.getD a (BitVec.allOnes 64))) ∧
    (∀ off, off % 8 ≠ 0 ∨ (0x8 < off ∧ off < 0x100) ∨ (0x128 < off ∧ off < 0x200) ∨ (0x300 ≤ off ∧ off < 0x2000) ∨
      (0x4000 ≤ off ∧ off < 0x100000) ∨ (0x140000 ≤ off ∧ off < 0x200000) ∨ (0x280000 ≤ off ∧ off < 0x300000) ∨
      (0x380000 ≤ off ∧ off < 0x400000) ∨ 0x480000 ≤ off → Reads s off 0) ∧
    (∃ v : W64, Reads s 0 v ∧ v.toNat % 2 ^ 8 = s.out.boot.toNat % 2 ^ 8 ∧
      let alive := fun c => s.coreMode c ≠ .retired ∧ (s.die (c / 128)).failed = false
      v.toNat / 2 ^ 8 % 2 ^ 10 = (if s.out.boot.getLsbD 0 then ((List.range 512).filter fun c => decide (alive c)).length else 0) ∧
      v.toNat / 2 ^ 18 % 2 ^ 7 = (if s.out.boot.getLsbD 0 then ((List.range 64).filter fun k =>
        (List.range 8).any fun c => decide (alive (8 * k + c))).length else 0)) ∧
    (∀ (avg : Nat) (w : PowerWindow), avg < 65536 → pcapReg s 0x100 < 65536 → pcapReg s 0x110 < 65536 →
      Next (.powerWindowBoundary avg w) s fun t => t.mem = s.mem ∧ t.threads = s.threads ∧
        let old := pcapReg s 0x118
        let st := pcapReg t 0x118
        st % 2 ^ 16 = avg ∧ st / 2 ^ 16 % 2 ^ 16 = nextLimit s ∧ (st.testBit 32 = decide (w.throttled ≠ .none)) ∧ (st.testBit 33 = old.testBit 33) ∧
        (st.testBit 34 = (old.testBit 34 || (decide (w.throttled = .full) && decide (old / 2 ^ 16 % 2 ^ 16 < avg)))) ∧
        ∀ off, off ≠ 0x118 → s.pcap off = t.pcap off)) ∧
  (s.served = true → ∀ v : W64,
    (∀ i ∈ writesOf 0x8 v [.pkgidWrite v],
      (s.out.pkgid.getLsbD 16 = true → v.toNat % 2 ^ 16 ≠ s.out.pkgid.toNat % 2 ^ 16 → Heard i s s.out 1) ∧
      -- with nothing held at a port (R438)
      (s.out.pkgid.getLsbD 16 = false ∨ v.toNat % 2 ^ 16 = s.out.pkgid.toNat % 2 ^ 16 →
        (∀ n, (s.port n).hold = [] ∧ (s.port n).owed = none) → Heard i s { s.out with pkgid := BitVec.ofNat 64 (v.toNat % 2 ^ 17) } 0)) ∧
    (∀ p, p < 32768 → ∀ i ∈ writesOf (0x100000 + 8 * p) v [.routeEntryWrite p v], ∃ w : W64,
      (∀ k, k < 4 → w.toNat / 2 ^ (5 * k) % 32 = let x := v.toNat / 2 ^ (5 * k) % 32
        if x < 18 then x else 31) ∧ w.toNat < 2 ^ 20 ∧ Heard i s { s.out with route := s.out.route.set p w } 0) ∧
    (∀ a : W16, ∀ i ∈ writesOf (0x200000 + 8 * a.toNat) v [.lrverWrite a v],
      Heard i s { s.out with lrver := s.out.lrver.set a.toNat (v &&& 6) } 0) ∧
    (∀ a : W16, ∀ i ∈ writesOf (0x400000 + 8 * a.toNat) v [], Heard i s { s.out with allow := s.out.allow.set a.toNat v } 0) ∧
    (∀ k, k < 16 → (∀ i ∈ writesOf (0x200 + 16 * k) v [], Next i s fun t => t.out.wbase.getD k 0 = v ∧ t.mem = s.mem ∧
        t.out.sent = s.out.sent ++ [.reply [0]]) ∧
      (∀ i ∈ writesOf (0x208 + 16 * k) v [], Next i s fun t => t.out.wasid.getD k 0 = BitVec.ofNat 64 (v.toNat % 2 ^ 16) ∧ t.mem = s.mem ∧
        t.out.sent = s.out.sent ++ [.reply [0]])) ∧
    (∀ a : W16, (∀ d, d < 4 → (s.die d).logBase + 2 ^ 19 ≤ 2 ^ 38) → ∀ i ∈ writesOf (0x300000 + 8 * a.toNat) v [.wrlogWrite a v],
      Next i s fun t => let w := v.toNat / 32 * 32
        t.threads = s.threads ∧ t.out.sent = s.out.sent ++ [.reply [0]] ∧ (t.out.wrlog.getD a.toNat 0).toNat = w ∧
        (∀ d k, d < 4 → k < 8 → readByte t.mem (physKey d ((s.die d).logBase + 8 * a.toNat) + k) = BitVec.ofNat 8 (w / 256 ^ k)) ∧
        ∀ x, (∀ d, d < 4 → ¬ (physKey d ((s.die d).logBase + 8 * a.toNat) ≤ x ∧ x < physKey d ((s.die d).logBase + 8 * a.toNat) + 8)) →
          readByte t.mem x = readByte s.mem x) ∧
    (∀ off, off = 0 ∨ off % 8 ≠ 0 ∨ (0x2000 ≤ off ∧ off < 0x4000) ∨ 0x480000 ≤ off → ∀ i ∈ writesOf off v [], Heard i s s.out 1) ∧
    (let w := v.toNat % 2 ^ 16
     let r := pcapReg s
     (∀ i ∈ writesOf 0x100 v [.pcapRegisterWrite 0x100 v], let x := max 1200 (min 3000 w)
       PcapTo i s fun o => if o = 0x100 then x else if o = 0x110 then min (r 0x110) x
         else if o = 0x118 then clmp (r 0x118) (x != w) else r o) ∧
     (∀ i ∈ writesOf 0x108 v [.pcapRegisterWrite 0x108 v], let x := max 1 (min 1000 w)
       PcapTo i s fun o => if o = 0x108 then x else if o = 0x118 then clmp (r 0x118) (x != w) else r o) ∧
     (1200 ≤ r 0x100 → ∀ i ∈ writesOf 0x110 v [.pcapRegisterWrite 0x110 v], let x := max 1200 (min (r 0x100) w)
       PcapTo i s fun o => if o = 0x110 then x else if o = 0x118 then clmp (r 0x118) (x != w) else r o) ∧
     (∀ i ∈ writesOf 0x118 v [.pcapStatusClear v], Next i s fun t => t.out.sent = s.out.sent ++ [.reply [0]] ∧ t.mem = s.mem ∧
       (∀ k, (pcapReg t 0x118).testBit k = ((r 0x118).testBit k && !((k == 33 || k == 34) && v.getLsbD k))) ∧
       ∀ o, o ≠ 0x118 → t.pcap o = s.pcap o) ∧
     (∀ i ∈ writesOf 0x120 v [.pcapRegisterWrite 0x120 v],
       PcapTo i s fun o => if o = 0x120 then v.toNat / 2 ^ 32 * 2 ^ 32 + w else r o) ∧
     (∀ i ∈ writesOf 0x128 v [.pcapRegisterWrite 0x128 v], PcapTo i s fun o => if o = 0x128 then w else r o))) ∧
  (s.ready = true → ∀ (f : HostFn) (off : Nat) (v : W64), let i := Instr.registerWrite (some f) off v
    Comes s f i →
    (f.fn ≠ 0 ∨ off = 0 ∨ off = 8 ∨ off % 8 ≠ 0 ∨ (0x100 ≤ off ∧ off < 0x200) ∨ (0x100000 ≤ off ∧ off < 0x200000) ∨ 0x400000 ≤ off →
      Next i s fun t => t.out = s.out ∧ t.mem = s.mem ∧ t.threads = s.threads) ∧
    (f.fn = 0 →
      (∀ k, k < 16 → off = 0x200 + 16 * k → Next i s fun t => t.out.wbase.getD k 0 = v ∧ t.out.sent = s.out.sent ∧ t.mem = s.mem) ∧
      (∀ k, k < 16 → off = 0x208 + 16 * k → Next i s fun t => t.out.wasid.getD k 0 = BitVec.ofNat 64 (v.toNat % 2 ^ 16) ∧
        t.out.sent = s.out.sent ∧ t.mem = s.mem) ∧
      (∀ a, a < 65536 → off = 0x200000 + 8 * a → Next i s fun t =>
        t.out = { s.out with lrver := s.out.lrver.set a (v &&& 6) } ∧ t.mem = s.mem)))

end Sys2Proof.Claims

/-- The host's accesses and the package's registers: `HostAccesses`, `PackageRegisters` above. -/
def Obligations.HostAccessesAndRegisters : Prop := Sys2Proof.Claims.HostAccesses ∧ Sys2Proof.Claims.PackageRegisters

/-- Management (R94, R105, R109, R356, R450, R454, R464): a file that fails a check of its header is answered with reason 1, 2 or 3 and changes
nothing, one that fails a later check with 4, 5 or 6, an accepted one with 0, its images loaded and its digest measured; an arm
is answered as `lrec.arm` is; a tray passes through its states in order, and a command out of order leaves it.
Complete here: `mgmtLoadOzrum`, `mgmtArmLaunch`, `trayQuiesce`, `trayDrain`, `trayPoweroff`, `trayReinsertion`. -/
def Obligations.ManagementCommands : Prop :=
  ∀ s : State,
  (s.ready = true → s.served = true → ∀ (asid : W16) (file : List W8),
    let i := Instr.mgmtLoadOzrum asid file
    let rejects := fun (v : W8) => Next i s fun t => t.threads = s.threads ∧ t.mem = s.mem ∧ t.pkg = s.pkg ∧ t.dies = s.dies ∧
      t.out.sent = s.out.sent ++ [.reply [v]] ∧ t.out.meas = s.out.meas
    let s0 := s.setupRing asid
    (file.length < 128 ∨ ofBytes (file.take 4) ≠ 0x4D525A4F → rejects 1) ∧
    (headerError file ≠ 0 → rejects (BitVec.ofNat 8 (headerError file))) ∧
    (headerError file = 0 → s0.planLoad asid file = none → rejects 4) ∧
    (∀ l, headerError file = 0 → s0.planLoad asid file = some l →
      (signedFile file = true → signatureOk s.out.keys file = false → rejects 5) ∧
      (signedFile file = false → asid ∈ s.pkg.signed → rejects 6) ∧
      ((signedFile file = true ∧ signatureOk s.out.keys file = true) ∨ (signedFile file = false ∧ asid ∉ s.pkg.signed) → Next i s fun t =>
        SameThreads s t ∧ t.out.sent = s.out.sent ++ [.reply [0]] ∧ (∀ im ∈ l.images, im ∈ t.pkg.images) ∧
        t.out.meas.getD 4 0 = sha512 (bytesOf 64 (s.out.meas.getD 4 0).toNat ++ bytesOf 64 (sha512 file).toNat) ∧
        ∀ k, k ≠ 4 → t.out.meas.getD k 0 = s.out.meas.getD k 0))) ∧
  (s.ready = true → s.served = true → ∀ lid : W16, let i := Instr.mgmtArmLaunch lid
    (record s lid.toNat = none → exec i s = .next (s.send (.reply [1]))) ∧
    (∀ r, record s lid.toNat = some r →
      (¬ AtRest r → exec i s = .next (s.send (.reply [2]))) ∧
      (AtRest r → s.out.tray = .serving → let c := s.armCheck r
        Next i s fun t => SameThreads s t ∧ t.out.sent = s.out.sent ++ [.reply [BitVec.ofNat 8 c]] ∧
          ∃ q, record t lid.toNat = some q ∧ KeepsBut r q [(2, 2), (96, 8)] ∧
            (if c = 0 then field q 2 1 = 1 ∧ field q 3 1 = 0 ∧ field q 96 8 = 0 else field q 2 1 = 4 ∧ field q 3 1 = c)))) ∧
  (s.served = true →
    let same := fun (i : Instr) (v : W8) => Next i s fun t => t.out = { s.out with sent := s.out.sent ++ [.reply [v]] } ∧
      t.threads = s.threads ∧ t.mem = s.mem
    let now : W8 := if s.out.tray = .serving then 0 else if s.out.tray = .quiesced then 1 else 2
    let moves := fun (i : Instr) (x : TrayState) (v : W8) => Next i s fun t =>
      t.out.tray = x ∧ t.out.sent = s.out.sent ++ [.reply [v]]
    (s.out.tray = .serving → moves .trayQuiesce .quiesced 1 ∧
      (s.pkg.pre = .none → Next .trayQuiesce s fun t => t.agenda = .preemptionRequest :: s.agenda)) ∧
    (s.out.tray ≠ .serving → same .trayQuiesce now) ∧
    (s.out.tray = .quiesced → s.drained = true → moves .trayDrain .drained 2) ∧
    (s.out.tray = .quiesced → s.drained = false → Instr.trayDrain ∉ s.pool → exec .trayDrain s = .next (s.push .trayDrain)) ∧
    (s.out.tray ≠ .quiesced → same .trayDrain now) ∧
    (s.out.tray = .drained → moves .trayPoweroff .off 3 ∧ Next .trayPoweroff s fun t => t.threads = [] ∧ t.mem = [] ∧ t.pool = []) ∧
    (s.out.tray ≠ .drained → same .trayPoweroff now)) ∧
  (s.out.tray = .off → ∀ offered : List Nat, Next (.trayReinsertion offered) s fun t => t.out.tray = .serving ∧
    t.out.sent = s.out.sent ++ [.reply [0]] ∧ t.mem = s.mem ∧
    ∀ n, n < 18 → 3 ∈ offered ∨ 2 ∈ offered → (t.port n).up = true ∧ (t.port n).version = if 3 ∈ offered then 3 else 2)

namespace Sys2Proof.Claims

open Sys2Proof.Machine

/-- A measurement register after digests of these bytes, in order (R464). -/
def extended (l : List (List W8)) : BitVec 512 :=
  l.foldl (fun m d => sha512 (bytesOf 64 m.toNat ++ bytesOf 64 (sha512 d).toNat)) 0
/-- A part that self-test finds failed without a spare, or that a field record of the configuration block names (R456, R457, R462). -/
def bootFails (s : State) (b : BootResult) (p : FailedPart) : Prop :=
  p ∈ b.failed ∨ ∃ k, s.out.repairs[k]? = some (.part p) ∧ k ∉ b.badRecords
def bootRetires (s : State) (b : BootResult) (c : Nat) : Prop := bootFails s b (.core c) ∨ bootFails s b (.cluster (c / 8))
/-- The firmware of a die's controller passes measurement. -/
def firmwareOk (l : List Firmware) (die : Nat) : Bool := match l[die]? with
  | some f => f.ok
  | none => false
def firmwareBytes (l : List Firmware) (die : Nat) : List W8 := match l[die]? with
  | some f => f.bytes
  | none => []

end Sys2Proof.Claims

/-- Bring-up (R456-R458, R462), take-over (R463), measurement and attestation (R464, R465): the first failing step stops the boot with its
FAIL and STEP; after the last the package is READY, memory reads zero, registers 0 to 3 are measured, failed parts are out of service and
kept so by the field records, and each cluster in service has its supervisor, under ASID 0 with 64 KiB where the block names no other; a
take-over measures the firmware and, where it passes, makes the standby active; one that fails leaves a die without a controller
after a missed heartbeat; a request extends registers 5 to 7; SPDM requests are answered, measurements as they stand. The capability
and algorithm flags are those of SPDM 1.2 (log entry 89).
Complete here: `powerOnReset`, `heartbeatMiss`, `firmwareUpdate`, `spdmGetVersion`, `spdmGetCapabilities`,
`spdmNegotiateAlgorithms`, `spdmGetDigests`, `spdmGetCertificate`, `spdmChallenge`, `spdmGetMeasurements`,
`measurementExtendRequest`. -/
def Obligations.BringUpAndAttestation : Prop :=
  (∀ (s : State) (b : BootResult), let spad := b.config.supSpad.getD 65536
    let asid := b.config.supAsid.getD 0
    let file := b.config.supFile
    spad ≤ 655360 →
    let stops := fun (step fail : Nat) => Next (.powerOnReset b) s fun t => t.out.boot = BitVec.ofNat 64 (step * 2 + fail * 16) ∧
      t.threads = [] ∧ t.mem = [] ∧ t.out.repairs = s.out.repairs
    let ordered := ∀ d, ¬ bootFails s b (.ordering d)
    let controlled := ∀ d, d < 4 → firmwareOk b.active d = true ∨ firmwareOk b.standby d = true
    (b.pllOk = false → stops 0 1) ∧
    (b.pllOk = true → b.configOk = false → stops 0 2) ∧
    (b.pllOk = true → b.configOk = true → b.badStacks ≠ [] → stops 1 3) ∧
    (b.pllOk = true → b.configOk = true → b.badStacks = [] → ¬ ordered → stops 2 5) ∧
    (b.pllOk = true → b.configOk = true → b.badStacks = [] → ordered →
      (¬ controlled ∨ signatureOk b.config.keys file = false ∨ defaultEntry file = none → stops 4 4) ∧
      (∀ img words entry, controlled → signatureOk b.config.keys file = true → defaultEntry file = some (img, words, entry) →
       Next (.powerOnReset b) s fun t =>
        t.out.boot = BitVec.ofNat 64 (1 + 6 * 2) ∧ (∀ a, a < 2 ^ 40 → readByte t.mem a = 0) ∧ t.fe = [] ∧ t.cycle = 0 ∧
        (∀ c, c < 512 → (t.coreMode c = .retired ↔ bootRetires s b c)) ∧ t.ring.bob = [] ∧
        (∀ x, x ∈ t.ring.retired ↔ ∃ l, bootFails s b (.ringRow l) ∧ x ∈ l) ∧
        (∀ d x, x ∈ (t.die d).l2Off ↔ ∃ l, bootFails s b (.l2Sets d l) ∧ x ∈ l) ∧
        (∀ x ∈ b.badLanes, (t.port x.1).spare.isSome = true ∧ ∀ y ∈ b.badLanes, y.1 = x.1 → y.2 ≠ x.2 → (t.port x.1).down = true) ∧
        t.out.keys = b.config.keys ∧ t.out.repairs = s.out.repairs ∧
        t.out.meas.getD 0 0 = sha512 (List.replicate 64 0 ++ bytesOf 64 (Config.bootDigest 0 0).toNat) ∧
        t.out.meas.getD 1 0 = extended [b.config.bytes ++ Config.fieldBytes (s.out.repairs.map Repair.code), file] ∧
        t.out.meas.getD 2 0 = extended ((List.range 4).map (firmwareBytes b.active)) ∧
        t.out.meas.getD 3 0 = extended ((List.range 4).map (firmwareBytes b.standby)) ∧
        (∀ k, 4 ≤ k → k < 8 → t.out.meas.getD k 0 = 0) ∧
        (∀ d, d < 4 → (t.die d).ctl.active = if firmwareOk b.active d then 0 else 1) ∧
        (∀ e ∈ b.config.doorbells, e.1 < 512 → e.2.1 ≤ 64 → (∀ x ∈ b.config.doorbells, x.1 % 512 = e.1 → x = e) →
          t.out.doorbell.find e.1 = some (e.2.1, e.2.2)) ∧
        ∀ c, c < 64 → let core := 8 * c + 7
          (bootRetires s b core → t.threads.find (64 * core) = none) ∧
          (¬ bootRetires s b core → (t.cluster c).supTid = some (64 * core) ∧ ∃ u, t.threads.find (64 * core) = some u ∧ u.core = core ∧
            u.sup = true ∧ u.bound = some 0 ∧ u.c.pc = entry ∧ u.c.img = img ∧ ⟨img, 0, words.length, asid⟩ ∈ (t.core core).k.images ∧
            u.c.asid = asid ∧ u.c.evec = 0 ∧ u.lau.spBase = 655360 - spad ∧ u.lau.spLen = spad ∧
            u.x 15 = 655360 ∧ (∀ k : BitVec 4, k ≠ 15 → u.x k = 0) ∧ u.c.fe = 0xFFFF ∧ u.c.pred = 1 ∧ u.c.hint = 0 ∧ u.ih = false)))) ∧
  (∀ (s : State) (die : Nat) (fw : List W8), s.ready = true → die < 4 →
    let m := sha512 (bytesOf 64 (s.out.meas.getD 2 0).toNat ++ bytesOf 64 (sha512 fw).toNat)
    let old := (s.die die).ctl
    let rest := fun (t : State) => t.out.meas.getD 2 0 = m ∧ t.threads = s.threads ∧ t.mem = s.mem ∧ t.pool = s.pool ∧ t.ring = s.ring ∧
      (∀ k, k ≠ 2 → t.out.meas.getD k 0 = s.out.meas.getD k 0) ∧ (∀ d, d ≠ die → t.die d = s.die d) ∧
      (t.die die).pantry = (s.die die).pantry
    (Next (.heartbeatMiss die fw false) s fun t => rest t ∧ (t.die die).ctl = { old with alive := false }) ∧
    (Next (.firmwareUpdate die fw false) s fun t => rest t ∧ t.dies = s.dies) ∧
    ∀ i, (i = Instr.heartbeatMiss die fw true ∨ i = Instr.firmwareUpdate die fw true) → Next i s fun t => rest t ∧
      (t.die die).ctl.active = 1 - old.active ∧ (t.die die).ctl.alive = true ∧ (t.die die).ctl.queue = [] ∧
      (t.die die).ctl.kicks = old.kicks ∧ (t.die die).ctl.mirror = (t.die die).ctl.seqno) ∧
  (∀ (s : State) (k : Nat) (d : BitVec 512), s.ready = true → 5 ≤ k → k ≤ 7 → Next (.measurementExtendRequest k d) s fun t =>
    t.out.meas.getD k 0 = sha512 (bytesOf 64 (s.out.meas.getD k 0).toNat ++ bytesOf 64 d.toNat) ∧
    (∀ j, j ≠ k → t.out.meas.getD j 0 = s.out.meas.getD j 0) ∧ t.threads = s.threads ∧ t.mem = s.mem) ∧
  (∀ s : State, s.out.tray ≠ .off →
    let answers := fun (i : Instr) (a : Spdm) (l : List W8) => exec i s = .next (s.send (.spdm a l))
    let signature := fun (l : List W8) => bytesOf 132 (Config.spdmSign l).toNat
    let chain := bytesOf 64 (sha512 Config.certChain).toNat
    answers .spdmGetVersion .version [0x12] ∧ answers .spdmGetCapabilities .capabilities (bytesOf 4 0x16) ∧
    (∀ l, answers (.spdmNegotiateAlgorithms l) .algorithms (bytesOf 4 0x100 ++ bytesOf 4 4)) ∧ answers .spdmGetDigests .digests chain ∧
    (∀ off n, answers (.spdmGetCertificate off n) .certificate ((Config.certChain.drop off).take n)) ∧
    ∀ nonce : BitVec 256, let q := bytesOf 32 nonce.toNat
      answers (.spdmChallenge nonce) .challengeAuth (q ++ chain ++ signature (q ++ chain)) ∧
      let ms := (List.range 8).flatMap fun k => bytesOf 64 (s.out.meas.getD k 0).toNat
      answers (.spdmGetMeasurements nonce) .measurements (ms ++ q ++ signature (ms ++ q)))

namespace Sys2Proof.Claims

open Sys2Proof.Machine

/-- The thread has stopped for a pre-emption (R370), or is on its way. -/
def Halted (th : Thread) : Prop := (∃ b, th.run = .stopped b) ∨ ∃ d, th.run = .travelling d
/-- Its PC names a word marked as a safe point (R106, R370). -/
def AtSafePoint (s : State) (th : Thread) : Prop :=
  ∃ im m, s.loadedImage th.c.asid th.c.img = some im ∧ (th.c.pc.toNat, m) ∈ im.safe
/-- Pantries list each record once. -/
def PantryOk (s : State) : Prop := ∀ d, (s.die d).pantry.sorted = true ∧ ∀ e ∈ (s.die d).pantry, e.1 < 4096
/-- ARMED, RUNNING or CANCELLING (R353). -/
def Busy (r : BitVec 2048) : Prop := field r 2 1 ∈ [1, 2, 5]
/-- Where a launch's save area starts in memory (R371). -/
def saveAt (s : State) (r : BitVec 2048) (key : Nat) : Prop :=
  ∃ k va, names 0 (field r 88 8) = some (.glob k va) ∧ va % 64 = 0 ∧ s.keyOf (BitVec.ofNat 16 (field r 6 2)) k va = some key

/-- The one access that a die holds for a page, and a controller lives there to answer for it (R398, R463). -/
def OneHeld (s : State) (die page : Nat) (i : Instr) : Prop :=
  s.ctlAlive die = true ∧ ∃ h, (s.die die).held.filter (fun h => h.page == page) = [h] ∧ h.waits = false ∧ h.ev = i
/-- No thread is resident on the core. -/
def Vacated (t : State) (core : Nat) : Prop := ∀ e ∈ t.threads, e.2.core = core → ∃ d, e.2.run = .travelling d
/-- No core has contexts waiting in its arrival queue (R28). -/
def NoArrivals (s : State) : Prop := ∀ c, (s.core c).k.arrivals = []
/-- The core that `task.halt` names, of the issuing core's cluster (R121). -/
def haltCoreOf (th : Thread) (a : W64) : Nat := th.core / 8 * 8 + a.toNat % 8
/-- What `task.halt` leaves of its own thread: the status, and the word is over. -/
def haltEnd (th : Thread) (sd : BitVec 4) (v : W64) : Thread :=
  { th.retire.setX sd v with mo := { th.mo with acquired := false } }
/-- `task.halt` writes its status and does nothing else. -/
def HaltsWith (i : Instr) (s : State) (th : Thread) (sd : BitVec 4) (v : W64) : Prop :=
  exec i s = .next (s.setThread s.cur (haltEnd th sd v))
/-- The load with its one part failed. -/
def failed (r : LoadReq) (p : Part) (code : Nat) : LoadReq := { r with parts := [{ p with lost := code }] }

end Sys2Proof.Claims

/-- Pre-emption (R370, R371, R373): a request stops every parked thread at once and leaves the others to issue; one about to issue a safe
point stops there, any after 3,000 cycles; the save, made when all have stopped and outstanding work is done, suspends every busy
record and leaves the rest of it, a launch without tasks and walkers saving its header; a resume waits for the save, then restarts
every thread together, wake token set, and makes a launch ARMED or RUNNING by its task count, or CANCELLING again (log entry 14).
Complete here: `preemptionRequest`, `preemptSafePointStop`, `preemptTimeoutStop`, `preemptionSave`, `preemptionResume`. -/
def Obligations.Preemption : Prop :=
  ∀ s : State, s.threads.sorted = true →
  (s.pkg.pre = .none → Next .preemptionRequest s fun t => t.pkg.pre = .requested s.cycle ∧ t.mem = s.mem ∧
    ∀ k th, s.threads.find k = some th →
      (th.isParked = false → th.gm = false → t.threads.find k = some th) ∧
      (∀ w, th.run = .parked w → w ≠ .merge → w ≠ .echo → (∀ c, w ≠ .halt c) → ∃ u, t.threads.find k = some u ∧
        u.run = .stopped (decide (w = .supervisor)) ∧ (w ≠ .token → th.mo.acquired = false → u.c.pc = th.c.pc ∧ u.c.x = th.c.x))) ∧
  (∀ (k : Tid) (th : Thread) (n : Nat), s.pkg.pre = .requested n → s.threads.find k = some th → th.gm = false →
    ((∃ c, th.run = .ready c) ∨ ∃ c, th.run = .slot c) →
    let stops := fun (i : Instr) => Next i s fun t => t.mem = s.mem ∧
      (∀ j, j ≠ k → t.threads.find j = s.threads.find j) ∧
      (th.holds = [] → t.threads.find k = some { th with run := .stopped false, lent := false }) ∧
      -- a HELD name is LOST at the halt (R423)
      (∀ h x, h < 4 → th.holds = [(h, x)] → x.st = .held → (bufOf t th.core x.buf).used = false ∧
        t.threads.find k = some { th with run := .stopped false, lent := false, holds := [(h, { x with st := .lost, why := 2 })] })
    (AtSafePoint s th → stops (.preemptSafePointStop k)) ∧ (n + 3000 ≤ s.cycle → stops (.preemptTimeoutStop k))) ∧
  (saveReady s = true → PantryOk s → Next .preemptionSave s fun t => t.pkg.pre = .saved ∧
    (∀ e ∈ t.threads, Halted e.2) ∧
    (∀ lid r, record s lid = some r → (Busy r → ∃ q, record t lid = some q ∧ field q 2 1 = 7 ∧ KeepsBut r q [(2, 1)]) ∧
      (¬ Busy r → record t lid = some r)) ∧
    ∀ lid r key, s.threads = [] → record s lid = some r → Busy r → (field r 50 1).testBit 1 = false →
      (∀ l q, record s l = some q → Busy q → l = lid) → s.activeWalkers = [] → saveAt s r key →
      Wrote s t key (bytesOf 64 (0x45564153 + 2 ^ 32 + 64 * 2 ^ 256))) ∧
  (∀ n, s.pkg.pre = .requested n → Instr.preemptionResume ∉ s.pool → exec .preemptionResume s = .next (s.push .preemptionResume)) ∧
  (s.pkg.pre = .saved →
    (s.pkg.saved = [] → Next .preemptionResume s fun t => t.pkg.pre = .none ∧ t.mem = s.mem ∧
      (∀ c, (s.cores.find c).isSome = true → t.coreMode c = if s.coreMode c = .faulted then .running else s.coreMode c) ∧
      ∀ k th b, s.threads.find k = some th → th.run = .stopped b → th.gang = none → ∃ u, t.threads.find k = some u ∧
        u.c = { th.c with wake := true } ∧ (b = true → u.run = .parked .supervisor) ∧
        (b = false → u.run = if th.bslot.isSome then .slot (s.cycle + 16) else .ready s.cycle)) ∧
    (∀ lid c r key, s.pkg.saved = [(lid, c, [])] → record s lid.toNat = some r → field r 2 1 = 7 → (field r 50 1).testBit 1 = false →
      saveAt s r key → s.rd (key + 6) 2 = 0 → Next .preemptionResume s fun t => t.pkg.pre = .none ∧ t.pkg.saved = [] ∧ t.mem = s.mem ∧
        ∃ q, record t lid.toNat = some q ∧ field q 2 1 = (if c then 5 else if s.rd (key + 8) 4 = 0 then 1 else 2) ∧ KeepsBut r q [(2, 1)]))

namespace Sys2Proof.Claims

open Sys2Proof.Machine

/-- Answers to translation faults (R398, R399): on "retry" the controller's entry, if any, is written and every held access of the page
goes on, those of other pages and requests that wait in the die (R396) staying held; on "fail" the part of a load in that page has failed, an atomic and a
reduction report cause 0x09, a host read answers all ones, a copy of another package is answered with 0x09.
Complete here: `faultAnswerRetry`, `faultAnswerFail`. -/
def FaultAnswers : Prop :=
  ∀ (s : State) (die page : Nat), s.ctlAlive die = true → (∃ h ∈ (s.die die).held, h.page = page ∧ h.waits = false) →
  (∀ (entryAt : Option Nat) (entry : W64), Next (.faultAnswerRetry die page entryAt entry) s fun t =>
    (∀ h, h ∈ (t.die die).held ↔ h ∈ (s.die die).held ∧ (h.page ≠ page ∨ h.waits = true)) ∧ t.threads = s.threads ∧
    (entryAt = none → t.mem = s.mem) ∧ (∀ a, entryAt = some a → Stored s t (physKey die a) 8 entry.toNat) ∧ (∀ i ∈ s.pool, i ∈ t.pool) ∧
    ∀ h ∈ (s.die die).held, h.page = page → h.waits = false → (∀ c, h.ev ≠ .accTransferCompletion c) → (∀ c b, h.ev ≠ .firingOperandsConsumed c b) →
      (∀ c, h.ev ≠ .writeLogAppend c) →
      h.ev ∈ t.pool) ∧
  (Next (.faultAnswerFail die page) s fun t => (∀ h, h ∈ (t.die die).held → h ∈ (s.die die).held ∧ (h.page ≠ page ∨ h.waits = true))) ∧
  (∀ (r : LoadReq) (p : Part) (d : BitVec 4), OneHeld s die page (.loadCompletion r) → r.parts = [p] → r.dst = .scalar d →
    inPage r.core page p.ea = true → Next (.faultAnswerFail die page) s fun t => t.mem = s.mem ∧ t.threads = s.threads ∧
      t.pool = s.pool ++ [.loadCompletion (failed r p 9)]) ∧
  (∀ (a : AtomReq) (th : Thread), s.threads.find a.tid = some th →
    (OneHeld s die page (.atomicAtHome a) → Next (.faultAnswerFail die page) s fun t => t.mem = s.mem ∧ ∃ u,
      t.threads.find a.tid = some u ∧ u.c = (th.setX a.d 0).c ∧ ∃ b, u.mo.deferred = th.mo.deferred ++ [(.page, a.ea, b)]) ∧
    (OneHeld s die page (.remoteUpdate a) → Next (.faultAnswerFail die page) s fun t => t.mem = s.mem ∧ ∃ u,
      t.threads.find a.tid = some u ∧ u.c = th.c ∧ ∃ b, u.mo.deferred = th.mo.deferred ++ [(.page, a.ea, b)])) ∧
  (∀ at_ off n, OneHeld s die page (.hostRead at_ off n) → Next (.faultAnswerFail die page) s fun t => t.mem = s.mem ∧
    t.threads = s.threads ∧ t.out.sent = s.out.sent ++ [.readData (List.replicate n 0xFF)]) ∧
  (∀ (src : W16) asid dst bytes sc tag, OneHeld s die page (.copyPeerArrival src asid dst bytes sc tag) → Talks s tag.port src.toNat →
    Next (.faultAnswerFail die page) s fun t => t.mem = s.mem ∧ t.threads = s.threads ∧
      Replied s t tag.port src (token 9 dst) tag.id true)

end Sys2Proof.Claims

namespace Sys2Proof.Claims

open Sys2Proof.Machine

/-- A load whose read has failed (R141): the register is zero and full, and its thread owes a report of cause 0x09 (a page) or 0x12 (an
error of memory) with the load's address.
Complete here: `loadCompletion`. -/
def FailedLoads : Prop :=
  ∀ (s : State) (th : Thread) (r : LoadReq) (a : W64) (n code : Nat), s.threads.find r.tid = some th → Instr.loadCompletion r ∈ s.pool →
    loadReady s r = true → r.parts = [⟨a, n, 0, 8 * n, code⟩] → code ≠ 0 → ((∃ d, r.dst = .scalar d) ∨ ∃ d, r.dst = .pair d) →
    Next (.loadCompletion r) s fun t => t.mem = s.mem ∧ t.pool = s.pool.erase (.loadCompletion r) ∧
      ∃ u, t.threads.find r.tid = some u ∧ Delivered r th u 0 ∧ Reports th u (if code = 9 then .page else .memError) a

end Sys2Proof.Claims

/-- Cores and parts that stop (R72, R121, R205, R425, R459-R462): `task.halt` refuses core 7, a retired core, a resume of a running core and a retire of
one; halts a core once its producers have completed; resumes it, the thread at a reserved word going on after it; retires it. A
lasting fault retires its core with a core-fault message and events; of a cluster its cores; disables sets of an L2; takes a die or
bobbins out of service; poisons a bobbin. A retired core has no thread. A transient memory error is counted, a lasting one retires the row,
its line alone is lost, and the part of a load in flight that reads it has failed; a bank without spare rows, or a channel with 256
retired ones, takes the pseudo-channel out (which rows share a bank is the part's own, log entry 90).
Complete here: `coreLastingFault`, `hbmUncorrectableRead`, `taskHaltHalt`, `taskHaltResume`, `taskHaltRetire`. -/
def Obligations.CoresThatStop : Prop :=
  (∀ (s : State) (th : Thread) (sa : BitVec 5) (sd : BitVec 4), s.Plain th → th.sup = true → th.rg = false → th.Ready [sa] [sd] →
    th.core % 8 = 7 → th.gang = none → s.threads.sorted = true → let c := haltCoreOf th (th.src sa)
    let m := s.coreMode c
    (∀ i ∈ [Instr.taskHaltHalt sa sd, .taskHaltResume sa sd, .taskHaltRetire sa sd],
      (c % 8 = 7 → HaltsWith i s th sd 1) ∧ (c % 8 ≠ 7 → m = .retired → HaltsWith i s th sd 2)) ∧
    (c % 8 ≠ 7 →
      (m = .running → HaltsWith (.taskHaltResume sa sd) s th sd 3 ∧ HaltsWith (.taskHaltRetire sa sd) s th sd 4) ∧
      (m = .halted ∨ m = .faulted → s.coreQuiet c = true → HaltsWith (.taskHaltHalt sa sd) s th sd 0) ∧
      ((∀ e ∈ s.threads, e.2.core = c → e.2.gm = false) → m = .running →
        (s.coreQuiet c = true → Next (.taskHaltHalt sa sd) s fun t => t.mem = s.mem ∧ t.coreMode c = .halted ∧
          t.threads.find s.cur = some (haltEnd th sd 0) ∧
          ∀ k u, k ≠ s.cur → s.threads.find k = some u → u.core ≠ c → t.threads.find k = some u) ∧
        (∀ k u, s.threads.find k = some u → u.core = c → u.c.fe ≠ 0xFFFF → u.mo.waitId = 0 → (∀ r, Instr.syncAccessServe r ∉ s.pool) →
          Next (.taskHaltHalt sa sd) s fun t => t.mem = s.mem ∧ t.coreMode c = .halted ∧
            t.threads.find s.cur = some ({ th with mo := { th.mo with acquired := true } }.park (.halt c)))) ∧
      (m = .halted ∨ m = .faulted → (s.core c).k.reserver ≠ some s.cur → Next (.taskHaltResume sa sd) s fun t => t.mem = s.mem ∧ t.coreMode c = .running ∧
        t.threads.find s.cur = some (haltEnd th sd 0) ∧
        ∀ k u, (s.core c).k.reserver = some k → s.threads.find k = some u → ∃ v, t.threads.find k = some v ∧
          v.c.pc = if m = .faulted then u.c.pc + 1 else u.c.pc) ∧
      (m = .halted ∨ m = .faulted → NoArrivals s → Next (.taskHaltRetire sa sd) s fun t =>
        t.coreMode c = .retired ∧ Vacated t c ∧ .event (.coreRetired c) ∈ t.out.sent ∧
        ∃ u, t.threads.find s.cur = some u ∧ u.x sd = 0 ∧ u.full sd = true ∧ u.c.pc = th.c.pc + 1))) ∧
  (∀ (s : State) (core : Nat), core < 512 → s.coreMode core ≠ .retired → NoArrivals s → Next (.coreLastingFault (.core core)) s fun t =>
    t.coreMode core = .retired ∧ Vacated t core ∧ .event (.coreFault core) ∈ t.out.sent ∧ .event (.coreRetired core) ∈ t.out.sent ∧
    let sup := core / 8 * 8 + 7
    (s.coreMode sup ≠ .retired → (s.core sup).k.mailbox.length < 16 → ¬ PostsBefore s 0xFFFFFFFF sup → ∃ m ∈ (t.core sup).k.mailbox, m.prio = true ∧ kindOf m.bytes = 2 ∧
      m.bytes.toNat / 2 ^ 16 % 2 ^ 16 = 0x12 ∧ m.bytes.toNat / 2 ^ 64 % 2 ^ 16 = core % 2 ^ 16)) ∧
  -- the other parts whose failure the spec describes (R425, R460, R462)
  (∀ s : State,
    (∀ k, k < 64 → (∃ c, c < 8 ∧ s.coreMode (8 * k + c) ≠ .retired) → Next (.coreLastingFault (.cluster k)) s fun t =>
      (∀ c, c < 8 → t.coreMode (8 * k + c) = .retired) ∧ t.out.sent.getLast? = some (.event (.clusterRetired k))) ∧
    (∀ d sets, d < 4 → Next (.coreLastingFault (.l2Sets d sets)) s fun t => t.mem = s.mem ∧ t.threads = s.threads ∧
      (∀ x ∈ sets, x ∈ (t.die d).l2Off) ∧ (∀ e ∈ (t.die d).l2, e.1 ∉ sets) ∧ t.out.sent = s.out.sent ++ [.event (.l2Retired d sets)]) ∧
    (∀ d, d < 4 → (s.die d).failed = false → Next (.coreLastingFault (.ordering d)) s fun t => t.mem = s.mem ∧ t.threads = s.threads ∧
      (t.die d).failed = true ∧ (∀ e, e ≠ d → t.die e = s.die e) ∧ t.out.sent = s.out.sent ++ [.event (.dieFailed d)]) ∧
    (∀ l, (∀ b ∈ l, b < 4096) → Next (.coreLastingFault (.ringRow l)) s fun t => t.mem = s.mem ∧ t.threads = s.threads ∧
      t.ring.bob = s.ring.bob ∧ (∀ b, b ∈ t.ring.retired ↔ b ∈ s.ring.retired ∨ b ∈ l) ∧
      t.out.sent = s.out.sent ++ [.event (.ringRetired l)]) ∧
    (∀ b, b < 4096 → Next (.coreLastingFault (.payload b)) s fun t => t.mem = s.mem ∧ t.threads = s.threads ∧ t.out = s.out ∧
      POISON (bobbin t b) = true ∧ MetaBut (bobbin s b) (bobbin t b) [(62, 1)] ∧ (bobbin t b).com = (bobbin s b).com ∧
      (bobbin t b).pend = (bobbin s b).pend ∧ ∀ c, c ≠ b → bobbin t c = bobbin s c) ∧
    (∀ b core, b < 4096 → core < 512 → Next (.coreLastingFault (.metadata b core)) s fun t => t.mem = s.mem ∧ t.threads = s.threads ∧
      t.ring = s.ring ∧ .event (.coreFault core) ∈ t.out.sent ∧
      let sup := core / 8 * 8 + 7
      (s.coreMode sup ≠ .retired → (s.core sup).k.mailbox.length < 16 → ¬ PostsBefore s 0xFFFFFFFF sup → ∃ m ∈ (t.core sup).k.mailbox,
        m.prio = true ∧ kindOf m.bytes = 2 ∧ m.bytes.toNat / 2 ^ 16 % 2 ^ 16 = 0x12 ∧ m.bytes.toNat / 2 ^ 64 % 2 ^ 16 = core))) ∧
  (∀ (s : State) (die pa : Nat), die < 4 → pa < 0x3000000000 →
    let k := rowOf die pa
    let bank := (s.die die).rows.countP fun r => r.1 == k.1 && r.2.1 == k.2.1
    let chan := (s.die die).rows.countP fun r => r.1 == k.1
    let fresh := k ∉ (s.die die).rows ∧ k.1 ∉ (s.die die).chans
    -- the row goes to a spare row of its bank (R459)
    let spared := fun (t : State) => (t.die die).rows = (s.die die).rows ++ [k] ∧ (t.die die).chans = (s.die die).chans ∧
      t.out.sent = s.out.sent ++ [.event (.rowRetired die pa)] ∧ .row die pa ∈ t.out.repairs
    (Next (.hbmUncorrectableRead die pa false false) s fun t => (t.die die).soft = (s.die die).soft + 1 ∧ t.mem = s.mem ∧
      t.threads = s.threads ∧ t.pool = s.pool ∧ t.out = s.out) ∧
    (fresh → bank < 32 → chan < 255 → Next (.hbmUncorrectableRead die pa false true) s fun t => spared t ∧ t.mem = s.mem ∧
      t.threads = s.threads ∧ t.pool = s.pool) ∧
    (fresh → bank < 32 → chan < 255 → Next (.hbmUncorrectableRead die pa true false) s fun t => spared t ∧
      (∀ a, a / 64 ≠ physKey die pa / 64 → readByte t.mem a = readByte s.mem a) ∧
      ∀ r p d th k va key, s.pool = [.loadCompletion r] → r.parts = [p] → r.dst = .scalar d → s.threads.find r.tid = some th →
        names r.core p.ea.toNat = some (.glob k va) → s.keyOf r.asid k va = some key → key / 64 = physKey die pa / 64 →
        t.pool = [.loadCompletion (failed r p 18)] ∧ t.threads = s.threads) ∧
    -- with the spare rows used up, or 256 rows retired, the pseudo-channel goes (R459, R461)
    (fresh → 32 ≤ bank ∨ 255 ≤ chan → Next (.hbmUncorrectableRead die pa false true) s fun t => k.1 ∈ (t.die die).chans ∧
      t.out.sent.getLast? = some (.event (.channelRetired die pa))))

namespace Sys2Proof.Claims

open Sys2Proof.Machine

/-- The deadlock detector (R317, R318): a sweep that is due counts quiet sweeps; the second in a row after the first idle one reports a
deadlock to the host, and every cluster supervisor with a vector, outside a handler, takes cause 0x10 at its instruction; other
threads stay.
Complete here: `deadlockSweep`. -/
def DeadlockSweeps : Prop :=
  ∀ s : State, sweepDue s = true →
    (Next .deadlockSweep s fun t => t.mem = s.mem ∧ t.pkg.nextSweep = s.pkg.nextSweep + 256 ∧ t.pkg.moved = false) ∧
    (s.allIdle = false → Next .deadlockSweep s fun t => t.pkg.sweeps = 0 ∧ t.threads = s.threads ∧ t.out = s.out) ∧
    (s.allIdle = true → s.pkg.moved = true → Next .deadlockSweep s fun t => t.pkg.sweeps = 1 ∧ t.threads = s.threads ∧ t.out = s.out) ∧
    (s.allIdle = true → s.pkg.moved = false → s.pkg.sweeps < 2 → Next .deadlockSweep s fun t =>
      t.pkg.sweeps = s.pkg.sweeps + 1 ∧ t.threads = s.threads ∧ t.out = s.out) ∧
    (s.allIdle = true → s.pkg.moved = false → s.pkg.sweeps = 2 → Next .deadlockSweep s fun t => t.pkg.sweeps = 0 ∧
      t.out.sent = s.out.sent ++ [.event .deadlock] ∧
      (∀ k, (∀ c, c < 64 → (s.cluster c).supTid ≠ some k) → t.threads.find k = s.threads.find k) ∧
      ∀ c k th, c < 64 → (s.cluster c).supTid = some k → (∀ d, d < 64 → (s.cluster d).supTid = some k → d = c) →
        s.threads.find k = some th → th.region = none → th.det = false → th.mo.acquired = false → th.ih = false → th.c.evec.getLsbD 63 = true →
        ∃ u, t.threads.find k = some u ∧ u.c.ecause = 0x0010 ∧ u.ih = true ∧ u.c.epc = th.c.img ++ th.c.pc ∧
          u.c.pc = th.c.evec.extractLsb' 0 32 ∧ u.c.img = th.c.evec.extractLsb' 32 16 ∧ u.isParked = false)

end Sys2Proof.Claims

/-- Answers to translation faults, loads that have failed, and the deadlock detector: `FaultAnswers`, `FailedLoads`, `DeadlockSweeps` above. -/
def Obligations.FaultAnswersAndSweeps : Prop := Sys2Proof.Claims.FaultAnswers ∧ Sys2Proof.Claims.FailedLoads ∧ Sys2Proof.Claims.DeadlockSweeps

/-- Every step, of whatever instruction or event, keeps memory and the full/empty bits in their canonical forms (log entry 1): keys rise
strictly and no entry holds what an unlisted one reads as, so that equal memories are equal data. -/
def Obligations.MemoryStaysCanonical : Prop := ∀ s t : State, s.Canonical → step s = .next t → t.Canonical
end

