-- ==== Sys2Proof/Laws/Encode.lean ====
section
/-! SUPPORT. What the field readers answer on a word built by the encoder, which opcode's decoder reads a word, and when a
word's decoding is that decoder's answer. -/

set_option Elab.async false

namespace Sys2Proof

theorem getLsbD_app {n m : Nat} (x : BitVec n) (y : BitVec m) (i : Nat) :
    (x ++ y).getLsbD i = if i < m then y.getLsbD i else x.getLsbD (i - m) := by
  rw [BitVec.getLsbD_append]

@[simp] theorem opOf_encRR (op : BitVec 8) (fn : BitVec 4) (sd : BitVec 4) (sa : BitVec 5) (sb : BitVec 5) (pg : BitVec 4) (pn : BitVec 1) (w : BitVec 1) : opOf (encRR op fn sd sa sb pg pn w) = op := by
  unfold opOf encRR
  rw [BitVec.extractLsb'_append_eq_of_le (by decide),
    BitVec.extractLsb'_append_eq_of_le (by decide),
    BitVec.extractLsb'_append_eq_of_le (by decide),
    BitVec.extractLsb'_append_eq_of_le (by decide),
    BitVec.extractLsb'_append_eq_of_le (by decide),
    BitVec.extractLsb'_append_eq_of_le (by decide),
    BitVec.extractLsb'_append_eq_of_le (by decide)]
  exact BitVec.extractLsb'_eq_self

@[simp] theorem rrFn_encRR (op : BitVec 8) (fn : BitVec 4) (sd : BitVec 4) (sa : BitVec 5) (sb : BitVec 5) (pg : BitVec 4) (pn : BitVec 1) (w : BitVec 1) : rrFn (encRR op fn sd sa sb pg pn w) = fn := by
  unfold rrFn encRR
  rw [BitVec.extractLsb'_append_eq_of_le (by decide),
    BitVec.extractLsb'_append_eq_of_le (by decide),
    BitVec.extractLsb'_append_eq_of_le (by decide),
    BitVec.extractLsb'_append_eq_of_le (by decide),
    BitVec.extractLsb'_append_eq_of_le (by decide),
    BitVec.extractLsb'_append_eq_of_le (by decide),
    BitVec.extractLsb'_append_eq_of_add_le (by decide)]
  exact BitVec.extractLsb'_eq_self

@[simp] theorem rrSd_encRR (op : BitVec 8) (fn : BitVec 4) (sd : BitVec 4) (sa : BitVec 5) (sb : BitVec 5) (pg : BitVec 4) (pn : BitVec 1) (w : BitVec 1) : rrSd (encRR op fn sd sa sb pg pn w) = sd := by
  unfold rrSd encRR
  rw [BitVec.extractLsb'_append_eq_of_le (by decide),
    BitVec.extractLsb'_append_eq_of_le (by decide),
    BitVec.extractLsb'_append_eq_of_le (by decide),
    BitVec.extractLsb'_append_eq_of_le (by decide),
    BitVec.extractLsb'_append_eq_of_le (by decide),
    BitVec.extractLsb'_append_eq_of_add_le (by decide)]
  exact BitVec.extractLsb'_eq_self

@[simp] theorem rrSa_encRR (op : BitVec 8) (fn : BitVec 4) (sd : BitVec 4) (sa : BitVec 5) (sb : BitVec 5) (pg : BitVec 4) (pn : BitVec 1) (w : BitVec 1) : rrSa (encRR op fn sd sa sb pg pn w) = sa := by
  unfold rrSa encRR
  rw [BitVec.extractLsb'_append_eq_of_le (by decide),
    BitVec.extractLsb'_append_eq_of_le (by decide),
    BitVec.extractLsb'_append_eq_of_le (by decide),
    BitVec.extractLsb'_append_eq_of_le (by decide),
    BitVec.extractLsb'_append_eq_of_add_le (by decide)]
  exact BitVec.extractLsb'_eq_self

@[simp] theorem rrSb_encRR (op : BitVec 8) (fn : BitVec 4) (sd : BitVec 4) (sa : BitVec 5) (sb : BitVec 5) (pg : BitVec 4) (pn : BitVec 1) (w : BitVec 1) : rrSb (encRR op fn sd sa sb pg pn w) = sb := by
  unfold rrSb encRR
  rw [BitVec.extractLsb'_append_eq_of_le (by decide), BitVec.extractLsb'_append_eq_of_le (by decide), BitVec.extractLsb'_append_eq_of_le (by decide), BitVec.extractLsb'_append_eq_of_add_le (by decide)]
  exact BitVec.extractLsb'_eq_self

@[simp] theorem rrPg_encRR (op : BitVec 8) (fn : BitVec 4) (sd : BitVec 4) (sa : BitVec 5) (sb : BitVec 5) (pg : BitVec 4) (pn : BitVec 1) (w : BitVec 1) : rrPg (encRR op fn sd sa sb pg pn w) = pg := by
  unfold rrPg encRR
  rw [BitVec.extractLsb'_append_eq_of_le (by decide), BitVec.extractLsb'_append_eq_of_le (by decide), BitVec.extractLsb'_append_eq_of_add_le (by decide)]
  exact BitVec.extractLsb'_eq_self

@[simp] theorem rrPn_encRR (op : BitVec 8) (fn : BitVec 4) (sd : BitVec 4) (sa : BitVec 5) (sb : BitVec 5) (pg : BitVec 4) (pn : BitVec 1) (w : BitVec 1) : rrPn (encRR op fn sd sa sb pg pn w) = pn := by
  unfold rrPn encRR
  rw [BitVec.extractLsb'_append_eq_of_le (by decide), BitVec.extractLsb'_append_eq_of_add_le (by decide)]
  exact BitVec.extractLsb'_eq_self

@[simp] theorem rrW_encRR (op : BitVec 8) (fn : BitVec 4) (sd : BitVec 4) (sa : BitVec 5) (sb : BitVec 5) (pg : BitVec 4) (pn : BitVec 1) (w : BitVec 1) : rrW (encRR op fn sd sa sb pg pn w) = w := by
  unfold rrW encRR
  rw [BitVec.extractLsb'_append_eq_of_add_le (by decide)]
  exact BitVec.extractLsb'_eq_self

@[simp] theorem opOf_encRI (op : BitVec 8) (sd : BitVec 4) (sa : BitVec 5) (imm : BitVec 15) : opOf (encRI op sd sa imm) = op := by
  unfold opOf encRI
  rw [BitVec.extractLsb'_append_eq_of_le (by decide), BitVec.extractLsb'_append_eq_of_le (by decide), BitVec.extractLsb'_append_eq_of_le (by decide)]
  exact BitVec.extractLsb'_eq_self

@[simp] theorem riSd_encRI (op : BitVec 8) (sd : BitVec 4) (sa : BitVec 5) (imm : BitVec 15) : riSd (encRI op sd sa imm) = sd := by
  unfold riSd encRI
  rw [BitVec.extractLsb'_append_eq_of_le (by decide), BitVec.extractLsb'_append_eq_of_le (by decide), BitVec.extractLsb'_append_eq_of_add_le (by decide)]
  exact BitVec.extractLsb'_eq_self

@[simp] theorem riSa_encRI (op : BitVec 8) (sd : BitVec 4) (sa : BitVec 5) (imm : BitVec 15) : riSa (encRI op sd sa imm) = sa := by
  unfold riSa encRI
  rw [BitVec.extractLsb'_append_eq_of_le (by decide), BitVec.extractLsb'_append_eq_of_add_le (by decide)]
  exact BitVec.extractLsb'_eq_self

@[simp] theorem riImm_encRI (op : BitVec 8) (sd : BitVec 4) (sa : BitVec 5) (imm : BitVec 15) : riImm (encRI op sd sa imm) = imm := by
  unfold riImm encRI
  rw [BitVec.extractLsb'_append_eq_of_add_le (by decide)]
  exact BitVec.extractLsb'_eq_self

@[simp] theorem opOf_encBR (op : BitVec 8) (pg : BitVec 4) (pn : BitVec 1) (off : BitVec 19) : opOf (encBR op pg pn off) = op := by
  unfold opOf encBR
  rw [BitVec.extractLsb'_append_eq_of_le (by decide), BitVec.extractLsb'_append_eq_of_le (by decide), BitVec.extractLsb'_append_eq_of_le (by decide)]
  exact BitVec.extractLsb'_eq_self

@[simp] theorem brPg_encBR (op : BitVec 8) (pg : BitVec 4) (pn : BitVec 1) (off : BitVec 19) : brPg (encBR op pg pn off) = pg := by
  unfold brPg encBR
  rw [BitVec.extractLsb'_append_eq_of_le (by decide), BitVec.extractLsb'_append_eq_of_le (by decide), BitVec.extractLsb'_append_eq_of_add_le (by decide)]
  exact BitVec.extractLsb'_eq_self

@[simp] theorem brPn_encBR (op : BitVec 8) (pg : BitVec 4) (pn : BitVec 1) (off : BitVec 19) : brPn (encBR op pg pn off) = pn := by
  unfold brPn encBR
  rw [BitVec.extractLsb'_append_eq_of_le (by decide), BitVec.extractLsb'_append_eq_of_add_le (by decide)]
  exact BitVec.extractLsb'_eq_self

@[simp] theorem brOff_encBR (op : BitVec 8) (pg : BitVec 4) (pn : BitVec 1) (off : BitVec 19) : brOff (encBR op pg pn off) = off := by
  unfold brOff encBR
  rw [BitVec.extractLsb'_append_eq_of_add_le (by decide)]
  exact BitVec.extractLsb'_eq_self

@[simp] theorem opOf_encMEM (op : BitVec 8) (sd : BitVec 4) (sb : BitVec 5) (sz : BitVec 3) (rh : BitVec 2) (off : BitVec 10) : opOf (encMEM op sd sb sz rh off) = op := by
  unfold opOf encMEM
  rw [BitVec.extractLsb'_append_eq_of_le (by decide),
    BitVec.extractLsb'_append_eq_of_le (by decide),
    BitVec.extractLsb'_append_eq_of_le (by decide),
    BitVec.extractLsb'_append_eq_of_le (by decide),
    BitVec.extractLsb'_append_eq_of_le (by decide)]
  exact BitVec.extractLsb'_eq_self

@[simp] theorem memSd_encMEM (op : BitVec 8) (sd : BitVec 4) (sb : BitVec 5) (sz : BitVec 3) (rh : BitVec 2) (off : BitVec 10) : memSd (encMEM op sd sb sz rh off) = sd := by
  unfold memSd encMEM
  rw [BitVec.extractLsb'_append_eq_of_le (by decide),
    BitVec.extractLsb'_append_eq_of_le (by decide),
    BitVec.extractLsb'_append_eq_of_le (by decide),
    BitVec.extractLsb'_append_eq_of_le (by decide),
    BitVec.extractLsb'_append_eq_of_add_le (by decide)]
  exact BitVec.extractLsb'_eq_self

@[simp] theorem memSb_encMEM (op : BitVec 8) (sd : BitVec 4) (sb : BitVec 5) (sz : BitVec 3) (rh : BitVec 2) (off : BitVec 10) : memSb (encMEM op sd sb sz rh off) = sb := by
  unfold memSb encMEM
  rw [BitVec.extractLsb'_append_eq_of_le (by decide), BitVec.extractLsb'_append_eq_of_le (by decide), BitVec.extractLsb'_append_eq_of_le (by decide), BitVec.extractLsb'_append_eq_of_add_le (by decide)]
  exact BitVec.extractLsb'_eq_self

@[simp] theorem memSz_encMEM (op : BitVec 8) (sd : BitVec 4) (sb : BitVec 5) (sz : BitVec 3) (rh : BitVec 2) (off : BitVec 10) : memSz (encMEM op sd sb sz rh off) = sz := by
  unfold memSz encMEM
  rw [BitVec.extractLsb'_append_eq_of_le (by decide), BitVec.extractLsb'_append_eq_of_le (by decide), BitVec.extractLsb'_append_eq_of_add_le (by decide)]
  exact BitVec.extractLsb'_eq_self

@[simp] theorem memRh_encMEM (op : BitVec 8) (sd : BitVec 4) (sb : BitVec 5) (sz : BitVec 3) (rh : BitVec 2) (off : BitVec 10) : memRh (encMEM op sd sb sz rh off) = rh := by
  unfold memRh encMEM
  rw [BitVec.extractLsb'_append_eq_of_le (by decide), BitVec.extractLsb'_append_eq_of_add_le (by decide)]
  exact BitVec.extractLsb'_eq_self

@[simp] theorem memOff_encMEM (op : BitVec 8) (sd : BitVec 4) (sb : BitVec 5) (sz : BitVec 3) (rh : BitVec 2) (off : BitVec 10) : memOff (encMEM op sd sb sz rh off) = off := by
  unfold memOff encMEM
  rw [BitVec.extractLsb'_append_eq_of_add_le (by decide)]
  exact BitVec.extractLsb'_eq_self

@[simp] theorem opOf_encVV (op : BitVec 8) (fn : BitVec 4) (vd : BitVec 5) (va : BitVec 5) (vb : BitVec 5) (vm : BitVec 3) (ty : BitVec 2) : opOf (encVV op fn vd va vb vm ty) = op := by
  unfold opOf encVV
  rw [BitVec.extractLsb'_append_eq_of_le (by decide),
    BitVec.extractLsb'_append_eq_of_le (by decide),
    BitVec.extractLsb'_append_eq_of_le (by decide),
    BitVec.extractLsb'_append_eq_of_le (by decide),
    BitVec.extractLsb'_append_eq_of_le (by decide),
    BitVec.extractLsb'_append_eq_of_le (by decide)]
  exact BitVec.extractLsb'_eq_self

@[simp] theorem vvFn_encVV (op : BitVec 8) (fn : BitVec 4) (vd : BitVec 5) (va : BitVec 5) (vb : BitVec 5) (vm : BitVec 3) (ty : BitVec 2) : vvFn (encVV op fn vd va vb vm ty) = fn := by
  unfold vvFn encVV
  rw [BitVec.extractLsb'_append_eq_of_le (by decide),
    BitVec.extractLsb'_append_eq_of_le (by decide),
    BitVec.extractLsb'_append_eq_of_le (by decide),
    BitVec.extractLsb'_append_eq_of_le (by decide),
    BitVec.extractLsb'_append_eq_of_le (by decide),
    BitVec.extractLsb'_append_eq_of_add_le (by decide)]
  exact BitVec.extractLsb'_eq_self

@[simp] theorem vvVd_encVV (op : BitVec 8) (fn : BitVec 4) (vd : BitVec 5) (va : BitVec 5) (vb : BitVec 5) (vm : BitVec 3) (ty : BitVec 2) : vvVd (encVV op fn vd va vb vm ty) = vd := by
  unfold vvVd encVV
  rw [BitVec.extractLsb'_append_eq_of_le (by decide),
    BitVec.extractLsb'_append_eq_of_le (by decide),
    BitVec.extractLsb'_append_eq_of_le (by decide),
    BitVec.extractLsb'_append_eq_of_le (by decide),
    BitVec.extractLsb'_append_eq_of_add_le (by decide)]
  exact BitVec.extractLsb'_eq_self

@[simp] theorem vvVa_encVV (op : BitVec 8) (fn : BitVec 4) (vd : BitVec 5) (va : BitVec 5) (vb : BitVec 5) (vm : BitVec 3) (ty : BitVec 2) : vvVa (encVV op fn vd va vb vm ty) = va := by
  unfold vvVa encVV
  rw [BitVec.extractLsb'_append_eq_of_le (by decide), BitVec.extractLsb'_append_eq_of_le (by decide), BitVec.extractLsb'_append_eq_of_le (by decide), BitVec.extractLsb'_append_eq_of_add_le (by decide)]
  exact BitVec.extractLsb'_eq_self

@[simp] theorem vvVb_encVV (op : BitVec 8) (fn : BitVec 4) (vd : BitVec 5) (va : BitVec 5) (vb : BitVec 5) (vm : BitVec 3) (ty : BitVec 2) : vvVb (encVV op fn vd va vb vm ty) = vb := by
  unfold vvVb encVV
  rw [BitVec.extractLsb'_append_eq_of_le (by decide), BitVec.extractLsb'_append_eq_of_le (by decide), BitVec.extractLsb'_append_eq_of_add_le (by decide)]
  exact BitVec.extractLsb'_eq_self

@[simp] theorem vvVm_encVV (op : BitVec 8) (fn : BitVec 4) (vd : BitVec 5) (va : BitVec 5) (vb : BitVec 5) (vm : BitVec 3) (ty : BitVec 2) : vvVm (encVV op fn vd va vb vm ty) = vm := by
  unfold vvVm encVV
  rw [BitVec.extractLsb'_append_eq_of_le (by decide), BitVec.extractLsb'_append_eq_of_add_le (by decide)]
  exact BitVec.extractLsb'_eq_self

@[simp] theorem vvTy_encVV (op : BitVec 8) (fn : BitVec 4) (vd : BitVec 5) (va : BitVec 5) (vb : BitVec 5) (vm : BitVec 3) (ty : BitVec 2) : vvTy (encVV op fn vd va vb vm ty) = ty := by
  unfold vvTy encVV
  rw [BitVec.extractLsb'_append_eq_of_add_le (by decide)]
  exact BitVec.extractLsb'_eq_self

@[simp] theorem opOf_encVM (op : BitVec 8) (v : BitVec 5) (sb : BitVec 5) (si : BitVec 5) (vm : BitVec 3) (rh : BitVec 2) (ew : BitVec 2) (md : BitVec 2) : opOf (encVM op v sb si vm rh ew md) = op := by
  unfold opOf encVM
  rw [BitVec.extractLsb'_append_eq_of_le (by decide),
    BitVec.extractLsb'_append_eq_of_le (by decide),
    BitVec.extractLsb'_append_eq_of_le (by decide),
    BitVec.extractLsb'_append_eq_of_le (by decide),
    BitVec.extractLsb'_append_eq_of_le (by decide),
    BitVec.extractLsb'_append_eq_of_le (by decide),
    BitVec.extractLsb'_append_eq_of_le (by decide)]
  exact BitVec.extractLsb'_eq_self

@[simp] theorem vmV_encVM (op : BitVec 8) (v : BitVec 5) (sb : BitVec 5) (si : BitVec 5) (vm : BitVec 3) (rh : BitVec 2) (ew : BitVec 2) (md : BitVec 2) : vmV (encVM op v sb si vm rh ew md) = v := by
  unfold vmV encVM
  rw [BitVec.extractLsb'_append_eq_of_le (by decide),
    BitVec.extractLsb'_append_eq_of_le (by decide),
    BitVec.extractLsb'_append_eq_of_le (by decide),
    BitVec.extractLsb'_append_eq_of_le (by decide),
    BitVec.extractLsb'_append_eq_of_le (by decide),
    BitVec.extractLsb'_append_eq_of_le (by decide),
    BitVec.extractLsb'_append_eq_of_add_le (by decide)]
  exact BitVec.extractLsb'_eq_self

@[simp] theorem vmSb_encVM (op : BitVec 8) (v : BitVec 5) (sb : BitVec 5) (si : BitVec 5) (vm : BitVec 3) (rh : BitVec 2) (ew : BitVec 2) (md : BitVec 2) : vmSb (encVM op v sb si vm rh ew md) = sb := by
  unfold vmSb encVM
  rw [BitVec.extractLsb'_append_eq_of_le (by decide),
    BitVec.extractLsb'_append_eq_of_le (by decide),
    BitVec.extractLsb'_append_eq_of_le (by decide),
    BitVec.extractLsb'_append_eq_of_le (by decide),
    BitVec.extractLsb'_append_eq_of_le (by decide),
    BitVec.extractLsb'_append_eq_of_add_le (by decide)]
  exact BitVec.extractLsb'_eq_self

@[simp] theorem vmSi_encVM (op : BitVec 8) (v : BitVec 5) (sb : BitVec 5) (si : BitVec 5) (vm : BitVec 3) (rh : BitVec 2) (ew : BitVec 2) (md : BitVec 2) : vmSi (encVM op v sb si vm rh ew md) = si := by
  unfold vmSi encVM
  rw [BitVec.extractLsb'_append_eq_of_le (by decide),
    BitVec.extractLsb'_append_eq_of_le (by decide),
    BitVec.extractLsb'_append_eq_of_le (by decide),
    BitVec.extractLsb'_append_eq_of_le (by decide),
    BitVec.extractLsb'_append_eq_of_add_le (by decide)]
  exact BitVec.extractLsb'_eq_self

@[simp] theorem vmVm_encVM (op : BitVec 8) (v : BitVec 5) (sb : BitVec 5) (si : BitVec 5) (vm : BitVec 3) (rh : BitVec 2) (ew : BitVec 2) (md : BitVec 2) : vmVm (encVM op v sb si vm rh ew md) = vm := by
  unfold vmVm encVM
  rw [BitVec.extractLsb'_append_eq_of_le (by decide), BitVec.extractLsb'_append_eq_of_le (by decide), BitVec.extractLsb'_append_eq_of_le (by decide), BitVec.extractLsb'_append_eq_of_add_le (by decide)]
  exact BitVec.extractLsb'_eq_self

@[simp] theorem vmRh_encVM (op : BitVec 8) (v : BitVec 5) (sb : BitVec 5) (si : BitVec 5) (vm : BitVec 3) (rh : BitVec 2) (ew : BitVec 2) (md : BitVec 2) : vmRh (encVM op v sb si vm rh ew md) = rh := by
  unfold vmRh encVM
  rw [BitVec.extractLsb'_append_eq_of_le (by decide), BitVec.extractLsb'_append_eq_of_le (by decide), BitVec.extractLsb'_append_eq_of_add_le (by decide)]
  exact BitVec.extractLsb'_eq_self

@[simp] theorem vmEw_encVM (op : BitVec 8) (v : BitVec 5) (sb : BitVec 5) (si : BitVec 5) (vm : BitVec 3) (rh : BitVec 2) (ew : BitVec 2) (md : BitVec 2) : vmEw (encVM op v sb si vm rh ew md) = ew := by
  unfold vmEw encVM
  rw [BitVec.extractLsb'_append_eq_of_le (by decide), BitVec.extractLsb'_append_eq_of_add_le (by decide)]
  exact BitVec.extractLsb'_eq_self

@[simp] theorem vmMd_encVM (op : BitVec 8) (v : BitVec 5) (sb : BitVec 5) (si : BitVec 5) (vm : BitVec 3) (rh : BitVec 2) (ew : BitVec 2) (md : BitVec 2) : vmMd (encVM op v sb si vm rh ew md) = md := by
  unfold vmMd encVM
  rw [BitVec.extractLsb'_append_eq_of_add_le (by decide)]
  exact BitVec.extractLsb'_eq_self

@[simp] theorem opOf_encMX (op : BitVec 8) (ac : BitVec 3) (asel : BitVec 1) (a : BitVec 5) (bsel : BitVec 1) (b : BitVec 5) (da : BitVec 1) (db : BitVec 1) (sk : BitVec 3) (mf : BitVec 4) : opOf (encMX op ac asel a bsel b da db sk mf) = op := by
  unfold opOf encMX
  rw [BitVec.extractLsb'_append_eq_of_le (by decide),
    BitVec.extractLsb'_append_eq_of_le (by decide),
    BitVec.extractLsb'_append_eq_of_le (by decide),
    BitVec.extractLsb'_append_eq_of_le (by decide),
    BitVec.extractLsb'_append_eq_of_le (by decide),
    BitVec.extractLsb'_append_eq_of_le (by decide),
    BitVec.extractLsb'_append_eq_of_le (by decide),
    BitVec.extractLsb'_append_eq_of_le (by decide),
    BitVec.extractLsb'_append_eq_of_le (by decide)]
  exact BitVec.extractLsb'_eq_self

@[simp] theorem mxAc_encMX (op : BitVec 8) (ac : BitVec 3) (asel : BitVec 1) (a : BitVec 5) (bsel : BitVec 1) (b : BitVec 5) (da : BitVec 1) (db : BitVec 1) (sk : BitVec 3) (mf : BitVec 4) : mxAc (encMX op ac asel a bsel b da db sk mf) = ac := by
  unfold mxAc encMX
  rw [BitVec.extractLsb'_append_eq_of_le (by decide),
    BitVec.extractLsb'_append_eq_of_le (by decide),
    BitVec.extractLsb'_append_eq_of_le (by decide),
    BitVec.extractLsb'_append_eq_of_le (by decide),
    BitVec.extractLsb'_append_eq_of_le (by decide),
    BitVec.extractLsb'_append_eq_of_le (by decide),
    BitVec.extractLsb'_append_eq_of_le (by decide),
    BitVec.extractLsb'_append_eq_of_le (by decide),
    BitVec.extractLsb'_append_eq_of_add_le (by decide)]
  exact BitVec.extractLsb'_eq_self

@[simp] theorem mxAsel_encMX (op : BitVec 8) (ac : BitVec 3) (asel : BitVec 1) (a : BitVec 5) (bsel : BitVec 1) (b : BitVec 5) (da : BitVec 1) (db : BitVec 1) (sk : BitVec 3) (mf : BitVec 4) : mxAsel (encMX op ac asel a bsel b da db sk mf) = asel := by
  unfold mxAsel encMX
  rw [BitVec.extractLsb'_append_eq_of_le (by decide),
    BitVec.extractLsb'_append_eq_of_le (by decide),
    BitVec.extractLsb'_append_eq_of_le (by decide),
    BitVec.extractLsb'_append_eq_of_le (by decide),
    BitVec.extractLsb'_append_eq_of_le (by decide),
    BitVec.extractLsb'_append_eq_of_le (by decide),
    BitVec.extractLsb'_append_eq_of_le (by decide),
    BitVec.extractLsb'_append_eq_of_add_le (by decide)]
  exact BitVec.extractLsb'_eq_self

@[simp] theorem mxA_encMX (op : BitVec 8) (ac : BitVec 3) (asel : BitVec 1) (a : BitVec 5) (bsel : BitVec 1) (b : BitVec 5) (da : BitVec 1) (db : BitVec 1) (sk : BitVec 3) (mf : BitVec 4) : mxA (encMX op ac asel a bsel b da db sk mf) = a := by
  unfold mxA encMX
  rw [BitVec.extractLsb'_append_eq_of_le (by decide),
    BitVec.extractLsb'_append_eq_of_le (by decide),
    BitVec.extractLsb'_append_eq_of_le (by decide),
    BitVec.extractLsb'_append_eq_of_le (by decide),
    BitVec.extractLsb'_append_eq_of_le (by decide),
    BitVec.extractLsb'_append_eq_of_le (by decide),
    BitVec.extractLsb'_append_eq_of_add_le (by decide)]
  exact BitVec.extractLsb'_eq_self

@[simp] theorem mxBsel_encMX (op : BitVec 8) (ac : BitVec 3) (asel : BitVec 1) (a : BitVec 5) (bsel : BitVec 1) (b : BitVec 5) (da : BitVec 1) (db : BitVec 1) (sk : BitVec 3) (mf : BitVec 4) : mxBsel (encMX op ac asel a bsel b da db sk mf) = bsel := by
  unfold mxBsel encMX
  rw [BitVec.extractLsb'_append_eq_of_le (by decide),
    BitVec.extractLsb'_append_eq_of_le (by decide),
    BitVec.extractLsb'_append_eq_of_le (by decide),
    BitVec.extractLsb'_append_eq_of_le (by decide),
    BitVec.extractLsb'_append_eq_of_le (by decide),
    BitVec.extractLsb'_append_eq_of_add_le (by decide)]
  exact BitVec.extractLsb'_eq_self

@[simp] theorem mxB_encMX (op : BitVec 8) (ac : BitVec 3) (asel : BitVec 1) (a : BitVec 5) (bsel : BitVec 1) (b : BitVec 5) (da : BitVec 1) (db : BitVec 1) (sk : BitVec 3) (mf : BitVec 4) : mxB (encMX op ac asel a bsel b da db sk mf) = b := by
  unfold mxB encMX
  rw [BitVec.extractLsb'_append_eq_of_le (by decide),
    BitVec.extractLsb'_append_eq_of_le (by decide),
    BitVec.extractLsb'_append_eq_of_le (by decide),
    BitVec.extractLsb'_append_eq_of_le (by decide),
    BitVec.extractLsb'_append_eq_of_add_le (by decide)]
  exact BitVec.extractLsb'_eq_self

@[simp] theorem mxDa_encMX (op : BitVec 8) (ac : BitVec 3) (asel : BitVec 1) (a : BitVec 5) (bsel : BitVec 1) (b : BitVec 5) (da : BitVec 1) (db : BitVec 1) (sk : BitVec 3) (mf : BitVec 4) : mxDa (encMX op ac asel a bsel b da db sk mf) = da := by
  unfold mxDa encMX
  rw [BitVec.extractLsb'_append_eq_of_le (by decide), BitVec.extractLsb'_append_eq_of_le (by decide), BitVec.extractLsb'_append_eq_of_le (by decide), BitVec.extractLsb'_append_eq_of_add_le (by decide)]
  exact BitVec.extractLsb'_eq_self

@[simp] theorem mxDb_encMX (op : BitVec 8) (ac : BitVec 3) (asel : BitVec 1) (a : BitVec 5) (bsel : BitVec 1) (b : BitVec 5) (da : BitVec 1) (db : BitVec 1) (sk : BitVec 3) (mf : BitVec 4) : mxDb (encMX op ac asel a bsel b da db sk mf) = db := by
  unfold mxDb encMX
  rw [BitVec.extractLsb'_append_eq_of_le (by decide), BitVec.extractLsb'_append_eq_of_le (by decide), BitVec.extractLsb'_append_eq_of_add_le (by decide)]
  exact BitVec.extractLsb'_eq_self

@[simp] theorem mxSk_encMX (op : BitVec 8) (ac : BitVec 3) (asel : BitVec 1) (a : BitVec 5) (bsel : BitVec 1) (b : BitVec 5) (da : BitVec 1) (db : BitVec 1) (sk : BitVec 3) (mf : BitVec 4) : mxSk (encMX op ac asel a bsel b da db sk mf) = sk := by
  unfold mxSk encMX
  rw [BitVec.extractLsb'_append_eq_of_le (by decide), BitVec.extractLsb'_append_eq_of_add_le (by decide)]
  exact BitVec.extractLsb'_eq_self

@[simp] theorem mxMf_encMX (op : BitVec 8) (ac : BitVec 3) (asel : BitVec 1) (a : BitVec 5) (bsel : BitVec 1) (b : BitVec 5) (da : BitVec 1) (db : BitVec 1) (sk : BitVec 3) (mf : BitVec 4) : mxMf (encMX op ac asel a bsel b da db sk mf) = mf := by
  unfold mxMf encMX
  rw [BitVec.extractLsb'_append_eq_of_add_le (by decide)]
  exact BitVec.extractLsb'_eq_self

@[simp] theorem opOf_encEN (op : BitVec 8) (fn : BitVec 4) (sa : BitVec 5) (sb : BitVec 5) (sd : BitVec 4) (imm : BitVec 6) : opOf (encEN op fn sa sb sd imm) = op := by
  unfold opOf encEN
  rw [BitVec.extractLsb'_append_eq_of_le (by decide),
    BitVec.extractLsb'_append_eq_of_le (by decide),
    BitVec.extractLsb'_append_eq_of_le (by decide),
    BitVec.extractLsb'_append_eq_of_le (by decide),
    BitVec.extractLsb'_append_eq_of_le (by decide)]
  exact BitVec.extractLsb'_eq_self

@[simp] theorem enFn_encEN (op : BitVec 8) (fn : BitVec 4) (sa : BitVec 5) (sb : BitVec 5) (sd : BitVec 4) (imm : BitVec 6) : enFn (encEN op fn sa sb sd imm) = fn := by
  unfold enFn encEN
  rw [BitVec.extractLsb'_append_eq_of_le (by decide),
    BitVec.extractLsb'_append_eq_of_le (by decide),
    BitVec.extractLsb'_append_eq_of_le (by decide),
    BitVec.extractLsb'_append_eq_of_le (by decide),
    BitVec.extractLsb'_append_eq_of_add_le (by decide)]
  exact BitVec.extractLsb'_eq_self

@[simp] theorem enSa_encEN (op : BitVec 8) (fn : BitVec 4) (sa : BitVec 5) (sb : BitVec 5) (sd : BitVec 4) (imm : BitVec 6) : enSa (encEN op fn sa sb sd imm) = sa := by
  unfold enSa encEN
  rw [BitVec.extractLsb'_append_eq_of_le (by decide), BitVec.extractLsb'_append_eq_of_le (by decide), BitVec.extractLsb'_append_eq_of_le (by decide), BitVec.extractLsb'_append_eq_of_add_le (by decide)]
  exact BitVec.extractLsb'_eq_self

@[simp] theorem enSb_encEN (op : BitVec 8) (fn : BitVec 4) (sa : BitVec 5) (sb : BitVec 5) (sd : BitVec 4) (imm : BitVec 6) : enSb (encEN op fn sa sb sd imm) = sb := by
  unfold enSb encEN
  rw [BitVec.extractLsb'_append_eq_of_le (by decide), BitVec.extractLsb'_append_eq_of_le (by decide), BitVec.extractLsb'_append_eq_of_add_le (by decide)]
  exact BitVec.extractLsb'_eq_self

@[simp] theorem enSd_encEN (op : BitVec 8) (fn : BitVec 4) (sa : BitVec 5) (sb : BitVec 5) (sd : BitVec 4) (imm : BitVec 6) : enSd (encEN op fn sa sb sd imm) = sd := by
  unfold enSd encEN
  rw [BitVec.extractLsb'_append_eq_of_le (by decide), BitVec.extractLsb'_append_eq_of_add_le (by decide)]
  exact BitVec.extractLsb'_eq_self

@[simp] theorem enImm_encEN (op : BitVec 8) (fn : BitVec 4) (sa : BitVec 5) (sb : BitVec 5) (sd : BitVec 4) (imm : BitVec 6) : enImm (encEN op fn sa sb sd imm) = imm := by
  unfold enImm encEN
  rw [BitVec.extractLsb'_append_eq_of_add_le (by decide)]
  exact BitVec.extractLsb'_eq_self

@[simp] theorem opOf_encHI (op : BitVec 8) (p : BitVec 24) : opOf (encHI op p) = op := by
  unfold opOf encHI
  rw [BitVec.extractLsb'_append_eq_of_le (by decide)]
  exact BitVec.extractLsb'_eq_self

@[simp] theorem hiP_encHI (op : BitVec 8) (p : BitVec 24) : hiP (encHI op p) = p := by
  unfold hiP encHI
  rw [BitVec.extractLsb'_append_eq_of_add_le (by decide)]
  exact BitVec.extractLsb'_eq_self

theorem zeros_ok {w m : W32} (h : w &&& m = 0#32) (i : Instr) : zeros m w i = .ok i := if_pos h

/-- A masked word is zero when every bit of the mask is zero in it. -/
theorem and_zero (w m : W32) (h : ∀ i, i < 32 → m.getLsbD i = true → w.getLsbD i = false) : w &&& m = 0#32 := by
  apply BitVec.eq_of_getLsbD_eq
  intro i hi
  rw [BitVec.getLsbD_and, BitVec.getLsbD_zero]
  cases hm : m.getLsbD i
  · simp
  · simp [h i hi hm]

/-- Bits that an entry says must be 0 in `IMM6` of format EN. -/
theorem low_zero (op : BitVec 8) (fn : BitVec 4) (sa sb : BitVec 5) (sd : BitVec 4) (imm m : BitVec 6)
    (h : imm &&& m = 0#6) : encEN op fn sa sb sd imm &&& (0#26 ++ m) = 0#32 := by
  refine and_zero _ _ fun i hi hm => ?_
  have hi' := congrArg (fun x => x.getLsbD i) h
  simp only [BitVec.getLsbD_and, BitVec.getLsbD_zero] at hi'
  rw [getLsbD_app] at hm
  split at hm
  · rename_i h6
    rw [encEN, getLsbD_app, if_pos h6]
    simpa [hm] using hi'
  · simp at hm

theorem decodeOp_01 (w : W32) (h : opOf w = 0x01#8) : decodeOp w = decode01 w := by
  unfold decodeOp
  rw [h]
  rfl

theorem decodeOp_02 (w : W32) (h : opOf w = 0x02#8) : decodeOp w = decode02 w := by
  unfold decodeOp
  rw [h]
  rfl

theorem decodeOp_03 (w : W32) (h : opOf w = 0x03#8) : decodeOp w = decode03 w := by
  unfold decodeOp
  rw [h]
  rfl

theorem decodeOp_04 (w : W32) (h : opOf w = 0x04#8) : decodeOp w = decode04 w := by
  unfold decodeOp
  rw [h]
  rfl

theorem decodeOp_05 (w : W32) (h : opOf w = 0x05#8) : decodeOp w = decode05 w := by
  unfold decodeOp
  rw [h]
  rfl

theorem decodeOp_06 (w : W32) (h : opOf w = 0x06#8) : decodeOp w = decode06 w := by
  unfold decodeOp
  rw [h]
  rfl

theorem decodeOp_07 (w : W32) (h : opOf w = 0x07#8) : decodeOp w = decode07 w := by
  unfold decodeOp
  rw [h]
  rfl

theorem decodeOp_08 (w : W32) (h : opOf w = 0x08#8) : decodeOp w = decode08 w := by
  unfold decodeOp
  rw [h]
  rfl

theorem decodeOp_09 (w : W32) (h : opOf w = 0x09#8) : decodeOp w = decode09 w := by
  unfold decodeOp
  rw [h]
  rfl

theorem decodeOp_0A (w : W32) (h : opOf w = 0x0A#8) : decodeOp w = decode0A w := by
  unfold decodeOp
  rw [h]
  rfl

theorem decodeOp_10 (w : W32) (h : opOf w = 0x10#8) : decodeOp w = decode10 w := by
  unfold decodeOp
  rw [h]
  rfl

theorem decodeOp_11 (w : W32) (h : opOf w = 0x11#8) : decodeOp w = decode11 w := by
  unfold decodeOp
  rw [h]
  rfl

theorem decodeOp_12 (w : W32) (h : opOf w = 0x12#8) : decodeOp w = decode12 w := by
  unfold decodeOp
  rw [h]
  rfl

theorem decodeOp_13 (w : W32) (h : opOf w = 0x13#8) : decodeOp w = decode13 w := by
  unfold decodeOp
  rw [h]
  rfl

theorem decodeOp_14 (w : W32) (h : opOf w = 0x14#8) : decodeOp w = decode14 w := by
  unfold decodeOp
  rw [h]
  rfl

theorem decodeOp_15 (w : W32) (h : opOf w = 0x15#8) : decodeOp w = decode15 w := by
  unfold decodeOp
  rw [h]
  rfl

theorem decodeOp_16 (w : W32) (h : opOf w = 0x16#8) : decodeOp w = decode16 w := by
  unfold decodeOp
  rw [h]
  rfl

theorem decodeOp_17 (w : W32) (h : opOf w = 0x17#8) : decodeOp w = decode17 w := by
  unfold decodeOp
  rw [h]
  rfl

theorem decodeOp_18 (w : W32) (h : opOf w = 0x18#8) : decodeOp w = decode18 w := by
  unfold decodeOp
  rw [h]
  rfl

theorem decodeOp_19 (w : W32) (h : opOf w = 0x19#8) : decodeOp w = decode19 w := by
  unfold decodeOp
  rw [h]
  rfl

theorem decodeOp_1A (w : W32) (h : opOf w = 0x1A#8) : decodeOp w = decode1A w := by
  unfold decodeOp
  rw [h]
  rfl

theorem decodeOp_1B (w : W32) (h : opOf w = 0x1B#8) : decodeOp w = decode1B w := by
  unfold decodeOp
  rw [h]
  rfl

theorem decodeOp_1C (w : W32) (h : opOf w = 0x1C#8) : decodeOp w = decode1C w := by
  unfold decodeOp
  rw [h]
  rfl

theorem decodeOp_1D (w : W32) (h : opOf w = 0x1D#8) : decodeOp w = decode1D w := by
  unfold decodeOp
  rw [h]
  rfl

theorem decodeOp_20 (w : W32) (h : opOf w = 0x20#8) : decodeOp w = decode20 w := by
  unfold decodeOp
  rw [h]
  rfl

theorem decodeOp_21 (w : W32) (h : opOf w = 0x21#8) : decodeOp w = decode21 w := by
  unfold decodeOp
  rw [h]
  rfl

theorem decodeOp_22 (w : W32) (h : opOf w = 0x22#8) : decodeOp w = decode22 w := by
  unfold decodeOp
  rw [h]
  rfl

theorem decodeOp_30 (w : W32) (h : opOf w = 0x30#8) : decodeOp w = decode30 w := by
  unfold decodeOp
  rw [h]
  rfl

theorem decodeOp_31 (w : W32) (h : opOf w = 0x31#8) : decodeOp w = decode31 w := by
  unfold decodeOp
  rw [h]
  rfl

theorem decodeOp_32 (w : W32) (h : opOf w = 0x32#8) : decodeOp w = decode32 w := by
  unfold decodeOp
  rw [h]
  rfl

theorem decodeOp_33 (w : W32) (h : opOf w = 0x33#8) : decodeOp w = decode33 w := by
  unfold decodeOp
  rw [h]
  rfl

theorem decodeOp_34 (w : W32) (h : opOf w = 0x34#8) : decodeOp w = decode34 w := by
  unfold decodeOp
  rw [h]
  rfl

theorem decodeOp_40 (w : W32) (h : opOf w = 0x40#8) : decodeOp w = decode40 w := by
  unfold decodeOp
  rw [h]
  rfl

theorem decodeOp_41 (w : W32) (h : opOf w = 0x41#8) : decodeOp w = decode41 w := by
  unfold decodeOp
  rw [h]
  rfl

theorem decodeOp_42 (w : W32) (h : opOf w = 0x42#8) : decodeOp w = decode42 w := by
  unfold decodeOp
  rw [h]
  rfl

theorem decodeOp_43 (w : W32) (h : opOf w = 0x43#8) : decodeOp w = decode43 w := by
  unfold decodeOp
  rw [h]
  rfl

theorem decodeOp_44 (w : W32) (h : opOf w = 0x44#8) : decodeOp w = decode44 w := by
  unfold decodeOp
  rw [h]
  rfl

theorem decodeOp_45 (w : W32) (h : opOf w = 0x45#8) : decodeOp w = decode45 w := by
  unfold decodeOp
  rw [h]
  rfl

theorem decodeOp_46 (w : W32) (h : opOf w = 0x46#8) : decodeOp w = decode46 w := by
  unfold decodeOp
  rw [h]
  rfl

theorem decodeOp_47 (w : W32) (h : opOf w = 0x47#8) : decodeOp w = decode47 w := by
  unfold decodeOp
  rw [h]
  rfl

theorem decodeOp_48 (w : W32) (h : opOf w = 0x48#8) : decodeOp w = decode48 w := by
  unfold decodeOp
  rw [h]
  rfl

theorem decodeOp_49 (w : W32) (h : opOf w = 0x49#8) : decodeOp w = decode49 w := by
  unfold decodeOp
  rw [h]
  rfl

theorem decodeOp_4A (w : W32) (h : opOf w = 0x4A#8) : decodeOp w = decode4A w := by
  unfold decodeOp
  rw [h]
  rfl

theorem decodeOp_50 (w : W32) (h : opOf w = 0x50#8) : decodeOp w = decode50 w := by
  unfold decodeOp
  rw [h]
  rfl

theorem decodeOp_51 (w : W32) (h : opOf w = 0x51#8) : decodeOp w = decode51 w := by
  unfold decodeOp
  rw [h]
  rfl

theorem decodeOp_52 (w : W32) (h : opOf w = 0x52#8) : decodeOp w = decode52 w := by
  unfold decodeOp
  rw [h]
  rfl

theorem decodeOp_53 (w : W32) (h : opOf w = 0x53#8) : decodeOp w = decode53 w := by
  unfold decodeOp
  rw [h]
  rfl

theorem decodeOp_54 (w : W32) (h : opOf w = 0x54#8) : decodeOp w = decode54 w := by
  unfold decodeOp
  rw [h]
  rfl

theorem decodeOp_55 (w : W32) (h : opOf w = 0x55#8) : decodeOp w = decode55 w := by
  unfold decodeOp
  rw [h]
  rfl

theorem decodeOp_56 (w : W32) (h : opOf w = 0x56#8) : decodeOp w = decode56 w := by
  unfold decodeOp
  rw [h]
  rfl

theorem decodeOp_57 (w : W32) (h : opOf w = 0x57#8) : decodeOp w = decode57 w := by
  unfold decodeOp
  rw [h]
  rfl

theorem decodeOp_58 (w : W32) (h : opOf w = 0x58#8) : decodeOp w = decode58 w := by
  unfold decodeOp
  rw [h]
  rfl

theorem decodeOp_59 (w : W32) (h : opOf w = 0x59#8) : decodeOp w = decode59 w := by
  unfold decodeOp
  rw [h]
  rfl

theorem decodeOp_5A (w : W32) (h : opOf w = 0x5A#8) : decodeOp w = decode5A w := by
  unfold decodeOp
  rw [h]
  rfl

theorem decodeOp_5B (w : W32) (h : opOf w = 0x5B#8) : decodeOp w = decode5B w := by
  unfold decodeOp
  rw [h]
  rfl

theorem decodeOp_5C (w : W32) (h : opOf w = 0x5C#8) : decodeOp w = decode5C w := by
  unfold decodeOp
  rw [h]
  rfl

theorem decodeOp_5D (w : W32) (h : opOf w = 0x5D#8) : decodeOp w = decode5D w := by
  unfold decodeOp
  rw [h]
  rfl

theorem decodeOp_60 (w : W32) (h : opOf w = 0x60#8) : decodeOp w = decode60 w := by
  unfold decodeOp
  rw [h]
  rfl

theorem decodeOp_61 (w : W32) (h : opOf w = 0x61#8) : decodeOp w = decode61 w := by
  unfold decodeOp
  rw [h]
  rfl

theorem decodeOp_62 (w : W32) (h : opOf w = 0x62#8) : decodeOp w = decode62 w := by
  unfold decodeOp
  rw [h]
  rfl

theorem decodeOp_63 (w : W32) (h : opOf w = 0x63#8) : decodeOp w = decode63 w := by
  unfold decodeOp
  rw [h]
  rfl

theorem decodeOp_64 (w : W32) (h : opOf w = 0x64#8) : decodeOp w = decode64 w := by
  unfold decodeOp
  rw [h]
  rfl

theorem decodeOp_70 (w : W32) (h : opOf w = 0x70#8) : decodeOp w = decode70 w := by
  unfold decodeOp
  rw [h]
  rfl

theorem decodeOp_71 (w : W32) (h : opOf w = 0x71#8) : decodeOp w = decode71 w := by
  unfold decodeOp
  rw [h]
  rfl

theorem decodeOp_72 (w : W32) (h : opOf w = 0x72#8) : decodeOp w = decode72 w := by
  unfold decodeOp
  rw [h]
  rfl

theorem decodeOp_80 (w : W32) (h : opOf w = 0x80#8) : decodeOp w = decode80 w := by
  unfold decodeOp
  rw [h]
  rfl

theorem decodeOp_81 (w : W32) (h : opOf w = 0x81#8) : decodeOp w = decode81 w := by
  unfold decodeOp
  rw [h]
  rfl

theorem decodeOp_82 (w : W32) (h : opOf w = 0x82#8) : decodeOp w = decode82 w := by
  unfold decodeOp
  rw [h]
  rfl

theorem decodeOp_83 (w : W32) (h : opOf w = 0x83#8) : decodeOp w = decode83 w := by
  unfold decodeOp
  rw [h]
  rfl

theorem decodeOp_84 (w : W32) (h : opOf w = 0x84#8) : decodeOp w = decode84 w := by
  unfold decodeOp
  rw [h]
  rfl

theorem decodeOp_90 (w : W32) (h : opOf w = 0x90#8) : decodeOp w = decode90 w := by
  unfold decodeOp
  rw [h]
  rfl

theorem decodeOp_91 (w : W32) (h : opOf w = 0x91#8) : decodeOp w = decode91 w := by
  unfold decodeOp
  rw [h]
  rfl

theorem decodeOp_92 (w : W32) (h : opOf w = 0x92#8) : decodeOp w = decode92 w := by
  unfold decodeOp
  rw [h]
  rfl

theorem decodeOp_93 (w : W32) (h : opOf w = 0x93#8) : decodeOp w = decode93 w := by
  unfold decodeOp
  rw [h]
  rfl

theorem decodeOp_A0 (w : W32) (h : opOf w = 0xA0#8) : decodeOp w = decodeA0 w := by
  unfold decodeOp
  rw [h]
  rfl

theorem decodeOp_A1 (w : W32) (h : opOf w = 0xA1#8) : decodeOp w = decodeA1 w := by
  unfold decodeOp
  rw [h]
  rfl

theorem decodeOp_A2 (w : W32) (h : opOf w = 0xA2#8) : decodeOp w = decodeA2 w := by
  unfold decodeOp
  rw [h]
  rfl

theorem decodeOp_A3 (w : W32) (h : opOf w = 0xA3#8) : decodeOp w = decodeA3 w := by
  unfold decodeOp
  rw [h]
  rfl

theorem decodeOp_B0 (w : W32) (h : opOf w = 0xB0#8) : decodeOp w = decodeB0 w := by
  unfold decodeOp
  rw [h]
  rfl

theorem decodeOp_B1 (w : W32) (h : opOf w = 0xB1#8) : decodeOp w = decodeB1 w := by
  unfold decodeOp
  rw [h]
  rfl

theorem decodeOp_F0 (w : W32) (h : opOf w = 0xF0#8) : decodeOp w = decodeF0 w := by
  unfold decodeOp
  rw [h]
  rfl

theorem decodeOp_F1 (w : W32) (h : opOf w = 0xF1#8) : decodeOp w = decodeF1 w := by
  unfold decodeOp
  rw [h]
  rfl

theorem decodeOp_F2 (w : W32) (h : opOf w = 0xF2#8) : decodeOp w = decodeF2 w := by
  unfold decodeOp
  rw [h]
  rfl

theorem decodeOp_F3 (w : W32) (h : opOf w = 0xF3#8) : decodeOp w = decodeF3 w := by
  unfold decodeOp
  rw [h]
  rfl

theorem decodeOp_F4 (w : W32) (h : opOf w = 0xF4#8) : decodeOp w = decodeF4 w := by
  unfold decodeOp
  rw [h]
  rfl

theorem decodeOp_F5 (w : W32) (h : opOf w = 0xF5#8) : decodeOp w = decodeF5 w := by
  unfold decodeOp
  rw [h]
  rfl

theorem decodeOp_hint (op : BitVec 8) (p : BitVec 24) (h : 0xF6 ≤ op.toNat ∧ op.toNat ≤ 0xFE) :
    decodeOp (encHI op p) = .ok (.hintUnnamed op p) := by
  have hc : op = 0xF6#8 ∨ op = 0xF7#8 ∨ op = 0xF8#8 ∨ op = 0xF9#8 ∨ op = 0xFA#8 ∨ op = 0xFB#8 ∨ op = 0xFC#8 ∨ op = 0xFD#8 ∨
      op = 0xFE#8 := by
    revert op
    decide
  rcases hc with rfl | rfl | rfl | rfl | rfl | rfl | rfl | rfl | rfl <;> (unfold decodeOp; rw [opOf_encHI, hiP_encHI]; rfl)

/-- A word that is not an illegal word is what its opcode's decoder reads, if that is well-formed. -/
theorem decode_of (w : W32) (i : Instr) (h0 : opOf w ≠ 0#8) (h1 : opOf w ≠ 0xFF#8) (hd : decodeOp w = .ok i)
    (hw : wellFormed i = true) : decode w = .ok i := by
  unfold decode
  rw [if_neg (by rintro rfl; exact h0 (by decide)), if_neg (by rintro rfl; exact h1 (by decide)), hd]
  simp [gate, hw]

end Sys2Proof
end

