-- ==== Sys2Proof/Laws/Issue.lean ====
section
/-! SUPPORT. What `issue` answers for a thread that issues alone: each shared operation once, so that no later proof unfolds
it. -/

set_option Elab.async false

namespace Sys2Proof.Machine

open Host (Outcome)

/-! ## Tables -/

theorem Tab.find_set_same {α : Type} (t : Tab α) (a : Nat) (x : α) : (t.set a x).find a = some x := by
  induction t with
  | nil => simp [Tab.set, Tab.find]
  | cons e r ih =>
    obtain ⟨k, v⟩ := e
    unfold Tab.set
    split
    · simp [Tab.find]
    · split
      · simp [Tab.find]
      · rename_i h
        simp [Tab.find, h, ih]

theorem Tab.find_set_other {α : Type} (t : Tab α) (a b : Nat) (x : α) (h : b ≠ a) : (t.set a x).find b = t.find b := by
  induction t with
  | nil => simp [Tab.set, Tab.find, Ne.symm h]
  | cons e r ih =>
    obtain ⟨k, v⟩ := e
    unfold Tab.set
    split
    · simp [Tab.find, Ne.symm h]
    · split
      · rename_i hk
        subst hk
        simp [Tab.find, Ne.symm h]
      · simp [Tab.find, ih]

theorem find_setThread (s : State) (t : Tid) (th : Thread) : (s.setThread t th).threads.find t = some th :=
  Tab.find_set_same _ _ _

theorem find_setThread_other (s : State) (t k : Tid) (th : Thread) (h : k ≠ t) :
    (s.setThread t th).threads.find k = s.threads.find k := Tab.find_set_other _ _ _ _ h

/-! ## The checks before a word's own part (R74) -/

theorem eTrap_none {th : Thread} {l : List (BitVec 5)} (h : ∀ f ∈ l, th.full (fieldReg f) = true) : th.eTrap l = none := by
  induction l with
  | nil => rfl
  | cons f r ih =>
    have hf := h f (by simp)
    simp [Thread.eTrap, hf, ih fun g hg => h g (by simp [hg])]

theorem firstEmpty_none {th : Thread} {l : List (BitVec 4)} (h : ∀ d ∈ l, th.full d = true) : th.firstEmpty l = none := by
  induction l with
  | nil => rfl
  | cons f r ih =>
    have hf := h f (by simp)
    simp [Thread.firstEmpty, hf, ih fun g hg => h g (by simp [hg])]

/-- A word goes on to its own part when its mode, its guard and its operands allow it. -/
theorem precheck_go {th : Thread} {q : Issue} {w : W32} {pend : BitVec 5 → Bool} (hs : q.sup = true → th.sup = true)
    (ha : q.anch = true → th.mob = false) (hg : ∀ g n, q.guard = some (g, n) → th.guardOk g n = true)
    (hr : th.Ready q.srcs q.dsts) (hv : ∀ v ∈ q.vecs, pend v = false) : th.precheck q w pend = .go := by
  unfold Thread.precheck
  have h1 : (q.sup && !th.sup) = false := by cases h : q.sup <;> simp [h, hs]
  have h2 : (q.anch && th.mob) = false := by cases h : q.anch <;> simp [h, ha]
  rw [if_neg (by simp [h1]), if_neg (by simp [h2])]
  have h4 : th.firstEmpty (q.srcs.map fieldReg ++ q.dsts) = none := by
    apply firstEmpty_none
    intro d hd
    rcases List.mem_append.mp hd with h | h
    · obtain ⟨f, hf, rfl⟩ := List.mem_map.mp h
      exact hr.srcs f hf
    · exact hr.dsts d h
  have h5 : q.vecs.find? pend = none := by
    rw [List.find?_eq_none]
    intro v hv'
    simp [hv v hv']
  cases hq : q.guard with
  | none => simp [eTrap_none hr.srcs, h4, h5]
  | some g => simp [hg g.1 g.2 hq, eTrap_none hr.srcs, h4, h5]

/-- A word without guard, mode condition or vector register. -/
theorem precheck_go_plain {th : Thread} {srcs : List (BitVec 5)} {dsts : List (BitVec 4)} {w : W32} {pend : BitVec 5 → Bool}
    (hr : th.Ready srcs dsts) : th.precheck { srcs := srcs, dsts := dsts } w pend = .go :=
  precheck_go (by simp) (by simp) (by simp) hr (by simp)

/-- A guarded word. -/
theorem precheck_go_guard {th : Thread} {srcs : List (BitVec 5)} {dsts : List (BitVec 4)} {g : BitVec 4} {n : BitVec 1}
    {w : W32} {pend : BitVec 5 → Bool} (hg : th.guardOk g n = true) (hr : th.Ready srcs dsts) :
    th.precheck { guard := some (g, n), srcs := srcs, dsts := dsts } w pend = .go :=
  precheck_go (by simp) (by simp) (by rintro _ _ ⟨⟩; exact hg) hr (by simp)

/-! ## A word of a lone thread -/

theorem openChunk_plain {s : State} {th : Thread} (h : th.det = false) : s.openChunk s.cur th = s := by
  simp [State.openChunk, h]

/-- A word that writes no vector register saves none. -/
@[simp] theorem saved_none (s : State) (t : Tid) (r : Res) : s.saved t none r = r := by
  cases r with
  | done s1 =>
    have : s.saveVec s1 t none = some s1 := by
      unfold State.saveVec
      cases s1.threads.find t <;> rfl
    simp [State.saved, this]
  | _ => rfl

/-- Outside a region no vector register is saved (R327). -/
theorem saved_outside {s s1 : State} {t : Tid} {vd : Option (BitVec 5)} {u : Thread} (hf : s1.threads.find t = some u)
    (hr : u.region = none) : s.saved t vd (.done s1) = .done s1 := by
  cases vd <;> simp [State.saved, State.saveVec, hf, hr]

/-- No masks enter a checkpoint outside regions and chunks (R321, R327). -/
theorem keepSlot_closed {s : State} {t : Tid} {th : Thread} (hr : th.region = none) (hc : th.chunk.open_ = false) :
    s.keepSlot t th = s := by
  simp [State.keepSlot, hr, hc]

/-- A lone thread's word, outside deterministic launches, is its checks and its own part. -/
theorem issue_plain {s : State} {th : Thread} {q : Issue} {body : Body} {vd : Option (BitVec 5)} (h : s.Plain th)
    (hp : th.precheck q s.word (s.vecPending s.cur) = .go) (hv : th.region = none ∨ q.vx = false) :
    issue q s body vd = s.settle s.cur th q.vx (s.saved s.cur vd (body s s.cur th)) := by
  have hgm : (if th.gm then th.gang else none) = none := by rcases h.gang with g | g <;> simp [g]
  have hk : (if q.vx then s.keepSlot s.cur th else s) = s := by
    rcases hv with g | g
    · rw [keepSlot_closed g h.chunk]; simp
    · simp [g]
  simp only [issue, h.here, hgm, State.takeDeferred, h.reports, openChunk_plain h.det, State.issueLone, hp, hk]

theorem countWord_closed {s : State} {t : Tid} (h : ∀ u, s.threads.find t = some u → u.chunk.open_ = false) :
    s.countWord t = s := by
  unfold State.countWord
  cases hf : s.threads.find t with
  | none => rfl
  | some u => simp [h u hf]

theorem settle_done {s s1 : State} {t : Tid} {th : Thread}
    (h : ∀ u, s1.threads.find t = some u → u.chunk.open_ = false) : s.settle t th false (.done s1) = .next s1 := by
  simp [State.settle, countWord_closed h]

theorem countWord_setThread {s : State} {t : Tid} {u : Thread} (h : u.chunk.open_ = false) :
    (s.setThread t u).countWord t = s.setThread t u :=
  countWord_closed (by rw [find_setThread]; rintro _ ⟨⟩; exact h)

/-- A finished part that changes its own thread alone. -/
theorem settle_own {s : State} {t : Tid} {th u : Thread} (h : u.chunk.open_ = false) :
    s.settle t th false (.done (s.setThread t u)) = .next (s.setThread t u) := by
  simp [State.settle, countWord_setThread h]

/-- Whatever a lone thread's context does alone, it is the next state. -/
theorem issue_onThread {s : State} {th : Thread} {q : Issue} {f : Thread → Thread} (h : s.Plain th)
    (hp : th.precheck q s.word (s.vecPending s.cur) = .go) (hvx : q.vx = false) (hf : (f th).chunk = th.chunk) :
    issue q s (onThread f) = .next (s.setThread s.cur (f th)) := by
  rw [issue_plain h hp (.inr hvx), hvx, saved_none]
  exact settle_own (by rw [hf]; exact h.chunk)

/-- A word that writes one scalar register. -/
theorem issue_writesX {s : State} {th : Thread} {q : Issue} {d : BitVec 4} {f : Thread → W64} (h : s.Plain th)
    (hp : th.precheck q s.word (s.vecPending s.cur) = .go) (hvx : q.vx = false) :
    issue q s (writesX d f) = .next (s.setThread s.cur (th.retire.setX d (f th))) :=
  issue_onThread h hp hvx rfl

/-- A word that writes one predicate. -/
theorem issue_writesP {s : State} {th : Thread} {q : Issue} {d : BitVec 4} {f : Thread → Bool} (h : s.Plain th)
    (hp : th.precheck q s.word (s.vecPending s.cur) = .go) (hvx : q.vx = false) :
    issue q s (writesP d f) = .next (s.setThread s.cur (th.retire.setP d (f th))) := by
  refine issue_onThread h hp hvx ?_
  unfold Thread.setP
  split <;> rfl

theorem Tab.set_set {α : Type} (t : Tab α) (a : Nat) (x y : α) : (t.set a x).set a y = t.set a y := by
  induction t with
  | nil => simp [Tab.set]
  | cons e r ih =>
    obtain ⟨k, v⟩ := e
    by_cases h1 : a < k
    · simp [Tab.set, h1]
    · by_cases h2 : k = a
      · simp [Tab.set, h2]
      · simp [Tab.set, h1, h2, ih]

theorem setThread_setThread (s : State) (t : Tid) (a b : Thread) : (s.setThread t a).setThread t b = s.setThread t b := by
  simp [State.setThread, Tab.set_set]

theorem Tab.set_find_self {α : Type} {t : Tab α} {a : Nat} {x : α} (hs : t.sorted = true) (h : t.find a = some x) :
    t.set a x = t := by
  induction t with
  | nil => simp [Tab.find] at h
  | cons e r ih =>
    obtain ⟨k, v⟩ := e
    have hr : Tab.sorted r = true := by
      cases r with
      | nil => rfl
      | cons f q => simp [Tab.sorted] at hs; exact hs.2
    unfold Tab.find at h
    by_cases hk : k = a
    · rw [if_pos hk] at h
      cases h
      unfold Tab.set
      subst hk
      simp
    · rw [if_neg hk] at h
      have hlt : ¬ a < k := by
        intro hlt
        have : ∀ (l : Tab α) (b : Nat), Tab.sorted ((b, v) :: l) = true → a < b → Tab.find l a = none := by
          intro l
          induction l with
          | nil => intros; rfl
          | cons g q ihq =>
            intro b hb hab
            obtain ⟨k2, v2⟩ := g
            simp only [Tab.sorted, Bool.and_eq_true, decide_eq_true_eq] at hb
            unfold Tab.find
            rw [if_neg (by omega)]
            apply ihq b _ hab
            cases q with
            | nil => rfl
            | cons g2 q2 =>
              obtain ⟨k3, v3⟩ := g2
              have := hb.2
              simp only [Tab.sorted, Bool.and_eq_true, decide_eq_true_eq] at this ⊢
              exact ⟨by omega, this.2⟩
        rw [this r k hs hlt] at h
        cases h
      unfold Tab.set
      rw [if_neg hlt, if_neg hk, ih hr h]

/-! ## A word of a lone thread, in a deterministic launch too (R138, R319) -/

theorem eTrap_chunk (th : Thread) (ch : Chunk) (l : List (BitVec 5)) : ({ th with chunk := ch } : Thread).eTrap l = th.eTrap l := by
  induction l with
  | nil => rfl
  | cons f r ih => unfold Thread.eTrap; rw [ih]; rfl

theorem firstEmpty_chunk (th : Thread) (ch : Chunk) (l : List (BitVec 4)) :
    ({ th with chunk := ch } : Thread).firstEmpty l = th.firstEmpty l := by
  induction l with
  | nil => rfl
  | cons f r ih => unfold Thread.firstEmpty; rw [ih]; rfl

/-- The checks before a word's own part do not look at the chunk. -/
theorem precheck_chunk (th : Thread) (ch : Chunk) (q : Issue) (w : W32) (p : BitVec 5 → Bool) :
    ({ th with chunk := ch } : Thread).precheck q w p = th.precheck q w p := by
  unfold Thread.precheck
  rw [eTrap_chunk, firstEmpty_chunk]
  rfl

theorem chunk_self (th : Thread) : ({ th with chunk := th.chunk } : Thread) = th := rfl

/-- Opening a chunk changes the chunk alone. -/
theorem openChunk_cases (s : State) (t : Tid) (th : Thread) :
    s.openChunk t th = s ∨ (th.det = true ∧ ∃ ch, s.openChunk t th = s.setThread t { th with chunk := ch }) := by
  unfold State.openChunk
  split
  · rename_i h
    right
    simp only [Bool.and_eq_true] at h
    exact ⟨h.1.1.1, _, rfl⟩
  · exact .inl rfl

/-- Counting a word changes the thread's chunk, and the place of a thread whose chunk ends. -/
theorem countWord_cases (s : State) (t : Tid) (v : Thread) :
    ∃ ch r b, (s.setThread t v).countWord t = s.setThread t { v with chunk := ch, run := r, bslot := b } ∧
      (v.chunk.open_ = false → ch = v.chunk ∧ r = v.run ∧ b = v.bslot) := by
  unfold State.countWord
  rw [find_setThread]
  dsimp only
  split
  · rename_i h
    simp only [Bool.and_eq_true] at h
    split
    · have hpk : ∃ r b, v.park .turn = { v with run := r, bslot := b } := by
        unfold Thread.park
        split
        · exact ⟨v.run, v.bslot, rfl⟩
        · exact ⟨.parked .turn, none, rfl⟩
      obtain ⟨r, b, hk⟩ := hpk
      rw [hk, setThread_setThread]
      exact ⟨_, r, b, rfl, fun hc => by simp [hc] at h⟩
    · rw [setThread_setThread]
      exact ⟨_, v.run, v.bslot, rfl, fun hc => by simp [hc] at h⟩
  · exact ⟨v.chunk, v.run, v.bslot, rfl, fun _ => ⟨rfl, rfl, rfl⟩⟩

/-- A lone thread's word is its checks and its own part, from the state with its chunk open. -/
theorem issue_alone {s : State} {th : Thread} {q : Issue} {body : Body} (h : s.Alone th)
    (hp : th.precheck q s.word (s.vecPending s.cur) = .go) (hvx : q.vx = false) :
    (issue q s body = s.settle s.cur th q.vx (body s s.cur th)) ∨
    (th.det = true ∧ ∃ ch, issue q s body = (s.setThread s.cur { th with chunk := ch }).settle s.cur { th with chunk := ch } q.vx
      (body (s.setThread s.cur { th with chunk := ch }) s.cur { th with chunk := ch })) := by
  have hgm : (if th.gm then th.gang else none) = none := by rcases h.gang with g | g <;> simp [g]
  rcases openChunk_cases s s.cur th with ho | ⟨hd, ch, ho⟩
  · left
    simp only [issue, h.here, hgm, State.takeDeferred, h.reports, ho, State.issueLone, hp, hvx, saved_none, Bool.false_eq_true, if_false]
  · right
    refine ⟨hd, ch, ?_⟩
    have hp1 : ({ th with chunk := ch } : Thread).precheck q (s.setThread s.cur { th with chunk := ch }).word
        ((s.setThread s.cur { th with chunk := ch }).vecPending s.cur) = .go := by rw [precheck_chunk]; exact hp
    simp only [issue, h.here, hgm, State.takeDeferred, h.reports, ho, find_setThread, State.issueLone, hp1, hvx, saved_none, Bool.false_eq_true, if_false]

/-- Whatever a lone thread's context does alone, it is what the word does (R138). -/
theorem issue_acts {i : Instr} {s : State} {th : Thread} {q : Issue} {f : Thread → Thread} (h : s.Alone th)
    (hi : exec i s = issue q s (onThread f)) (hp : th.precheck q s.word (s.vecPending s.cur) = .go) (hvx : q.vx = false)
    (hc : (f th).chunk = th.chunk) (hf : ∀ ch, f { th with chunk := ch } = { f th with chunk := ch }) : Acts i s th (f th) := by
  unfold Acts
  rw [hi]
  rcases issue_alone (body := onThread f) h hp hvx with hq | ⟨hd, ch, hq⟩
  · rw [hq, hvx]
    obtain ⟨ch, r, b, he, hu⟩ := countWord_cases s s.cur (f th)
    refine ⟨ch, r, b, ?_, fun _ ho => hu (by rw [hc]; exact ho)⟩
    simp only [State.settle, onThread]
    exact congrArg _ he
  · rw [hq, hvx]
    obtain ⟨c2, r, b, he, hu⟩ := countWord_cases (s.setThread s.cur { th with chunk := ch }) s.cur (f { th with chunk := ch })
    refine ⟨c2, r, b, ?_, fun hn => by simp [hd] at hn⟩
    simp only [State.settle, onThread]
    refine congrArg _ ?_
    refine he.trans ?_
    rw [setThread_setThread, hf]

/-- A word that writes one scalar register. -/
theorem acts_writesX {i : Instr} {s : State} {th : Thread} {q : Issue} {d : BitVec 4} {f : Thread → W64} (h : s.Alone th)
    (hi : exec i s = issue q s (writesX d f)) (hp : th.precheck q s.word (s.vecPending s.cur) = .go) (hvx : q.vx = false)
    (hf : ∀ ch, f { th with chunk := ch } = f th) : Acts i s th (th.retire.setX d (f th)) :=
  issue_acts (f := fun u => u.retire.setX d (f u)) h hi hp hvx rfl (by intro ch; simp only [hf]; rfl)

/-- A word that writes one predicate. -/
theorem acts_writesP {i : Instr} {s : State} {th : Thread} {q : Issue} {d : BitVec 4} {f : Thread → Bool} (h : s.Alone th)
    (hi : exec i s = issue q s (writesP d f)) (hp : th.precheck q s.word (s.vecPending s.cur) = .go) (hvx : q.vx = false)
    (hf : ∀ ch, f { th with chunk := ch } = f th) : Acts i s th (th.retire.setP d (f th)) := by
  refine issue_acts (f := fun u => u.retire.setP d (f u)) h hi hp hvx ?_ ?_
  · unfold Thread.setP; split <;> rfl
  · intro ch; simp only [hf]; unfold Thread.setP; split <;> rfl

/-- A word whose guard does not hold only retires (R69). -/
theorem acts_off {i : Instr} {s : State} {th : Thread} {q : Issue} {body : Body} {vd : Option (BitVec 5)} (h : s.Alone th)
    (hi : exec i s = issue q s body vd) (hp : th.precheck q s.word (s.vecPending s.cur) = .off) : Acts i s th th.retire := by
  unfold Acts
  rw [hi]
  have hgm : (if th.gm then th.gang else none) = none := by rcases h.gang with g | g <;> simp [g]
  rcases openChunk_cases s s.cur th with ho | ⟨hd, ch, ho⟩
  · obtain ⟨c2, r, b, he, hu⟩ := countWord_cases s s.cur th.retire
    refine ⟨c2, r, b, ?_, fun _ hc => hu hc⟩
    simp only [issue, h.here, hgm, State.takeDeferred, h.reports, ho, State.issueLone, hp]
    exact congrArg _ he
  · have hp1 : ({ th with chunk := ch } : Thread).precheck q (s.setThread s.cur { th with chunk := ch }).word
        ((s.setThread s.cur { th with chunk := ch }).vecPending s.cur) = .off := by rw [precheck_chunk]; exact hp
    obtain ⟨c2, r, b, he, hu⟩ := countWord_cases (s.setThread s.cur { th with chunk := ch }) s.cur
      ({ th with chunk := ch } : Thread).retire
    refine ⟨c2, r, b, ?_, fun hn => by simp [hd] at hn⟩
    simp only [issue, h.here, hgm, State.takeDeferred, h.reports, ho, find_setThread, State.issueLone, hp1]
    refine congrArg _ (he.trans ?_)
    rw [setThread_setThread]
    rfl

end Sys2Proof.Machine
end

