-- ==== Sys2Proof/Laws/Links.lean ====
section
/-! SUPPORT. What the operations on ports write, and what they leave: of the machine, a port's flits touch `out` alone. -/

set_option Elab.async false

namespace Sys2Proof.Machine

@[simp] theorem State.port_setPort (s : State) (n : Nat) (p : Port) : (s.setPort n p).port n = p := by
  simp [State.port, State.setPort, State.modOut, Tab.getD, Tab.find_set_same]
theorem State.port_setPort_other (s : State) {n m : Nat} (p : Port) (h : m ≠ n) : (s.setPort n p).port m = s.port m := by
  simp [State.port, State.setPort, State.modOut, Tab.getD, Tab.find_set_other _ _ _ _ h]
@[simp] theorem State.port_send (s : State) (m : Sent) (n : Nat) : (s.send m).port n = s.port n := rfl

/-- The states differ in `out` at most. -/
structure State.SameButOut (s t : State) : Prop where
  cycle : t.cycle = s.cycle
  threads : t.threads = s.threads
  cores : t.cores = s.cores
  slots : t.slots = s.slots
  clusters : t.clusters = s.clusters
  dies : t.dies = s.dies
  ring : t.ring = s.ring
  pkg : t.pkg = s.pkg
  mem : t.mem = s.mem
  fe : t.fe = s.fe
  ecc : t.ecc = s.ecc
  agenda : t.agenda = s.agenda
  pool : t.pool = s.pool
  plan : t.plan = s.plan
  nextId : t.nextId = s.nextId
  fresh : t.fresh = s.fresh
  cur : t.cur = s.cur
  word : t.word = s.word

theorem State.SameButOut.refl (s : State) : s.SameButOut s := ⟨rfl, rfl, rfl, rfl, rfl, rfl, rfl, rfl, rfl, rfl, rfl, rfl, rfl, rfl, rfl, rfl, rfl, rfl⟩
theorem State.SameButOut.trans {a b c : State} (h : a.SameButOut b) (k : b.SameButOut c) : a.SameButOut c :=
  ⟨k.cycle.trans h.cycle, k.threads.trans h.threads, k.cores.trans h.cores, k.slots.trans h.slots,
   k.clusters.trans h.clusters, k.dies.trans h.dies, k.ring.trans h.ring, k.pkg.trans h.pkg,
   k.mem.trans h.mem, k.fe.trans h.fe, k.ecc.trans h.ecc, k.agenda.trans h.agenda,
   k.pool.trans h.pool, k.plan.trans h.plan, k.nextId.trans h.nextId, k.fresh.trans h.fresh,
   k.cur.trans h.cur, k.word.trans h.word⟩
theorem State.sameButOut_setPort (s : State) (n : Nat) (p : Port) : s.SameButOut (s.setPort n p) :=
  ⟨rfl, rfl, rfl, rfl, rfl, rfl, rfl, rfl, rfl, rfl, rfl, rfl, rfl, rfl, rfl, rfl, rfl, rfl⟩
theorem State.sameButOut_send (s : State) (m : Sent) : s.SameButOut (s.send m) :=
  ⟨rfl, rfl, rfl, rfl, rfl, rfl, rfl, rfl, rfl, rfl, rfl, rfl, rfl, rfl, rfl, rfl, rfl, rfl⟩

theorem State.sameButOut_pumpN (n k : Nat) (s : State) : s.SameButOut (State.pumpN n k s) := by
  induction k generalizing s with
  | zero => exact .refl s
  | succ k ih =>
    simp only [State.pumpN]
    split
    · exact .refl s
    · split
      · exact .refl s
      · exact ((sameButOut_setPort ..).trans (sameButOut_send ..)).trans (ih _)

/-- What a port may do with held flits: it sends. -/
theorem State.sameButOut_pump (s : State) (n : Nat) : s.SameButOut (s.pump n) := by
  unfold State.pump
  split
  · exact sameButOut_pumpN ..
  · exact .refl s

/-- A data flit that is sent, or held, touches `out` alone (R434). -/
theorem State.sameButOut_emit (s : State) (n cls dst : Nat) (l : List W8) : s.SameButOut (s.emit n cls dst l) :=
  (sameButOut_setPort ..).trans (sameButOut_pump ..)

theorem State.sameButOut_reply (s : State) (n : Nat) (pkg : W16) (v : W64) (id : Nat) (copy : Bool) :
    s.SameButOut (s.reply n pkg v id copy) := sameButOut_emit ..

theorem sameButOut_foldl (l : List (BitVec 2048)) (n : Nat) (s : State) :
    s.SameButOut (l.foldl (fun a f => a.send (.flit n f)) s) := by
  induction l generalizing s with
  | nil => exact .refl s
  | cons f r ih => exact (s.sameButOut_send _).trans (ih _)

theorem State.sameButOut_resend (s : State) (n seq : Nat) : s.SameButOut (s.resend n seq) := by
  unfold State.resend
  split
  · exact sameButOut_foldl ..
  · exact sameButOut_setPort ..

theorem State.sameButOut_control (s : State) (n kind seq : Nat) : s.SameButOut (s.control n kind seq) := sameButOut_send ..

end Sys2Proof.Machine
end

