-- ==== Sys2Proof/Laws/State.lean ====
section
/-! SUPPORT. One lemma per field per update of the state: what an update writes and what it leaves. -/

set_option Elab.async false

namespace Sys2Proof.Machine

/-! ### `State.setThread` -/

@[simp] theorem State.setThread_cycle (s : State) (k : Tid) (th : Thread) : (s.setThread k th).cycle = s.cycle := rfl
@[simp] theorem State.setThread_threads (s : State) (k : Tid) (th : Thread) : (s.setThread k th).threads = s.threads.set k th := rfl
@[simp] theorem State.setThread_cores (s : State) (k : Tid) (th : Thread) : (s.setThread k th).cores = s.cores := rfl
@[simp] theorem State.setThread_slots (s : State) (k : Tid) (th : Thread) : (s.setThread k th).slots = s.slots := rfl
@[simp] theorem State.setThread_clusters (s : State) (k : Tid) (th : Thread) : (s.setThread k th).clusters = s.clusters := rfl
@[simp] theorem State.setThread_dies (s : State) (k : Tid) (th : Thread) : (s.setThread k th).dies = s.dies := rfl
@[simp] theorem State.setThread_ring (s : State) (k : Tid) (th : Thread) : (s.setThread k th).ring = s.ring := rfl
@[simp] theorem State.setThread_pkg (s : State) (k : Tid) (th : Thread) : (s.setThread k th).pkg = s.pkg := rfl
@[simp] theorem State.setThread_out (s : State) (k : Tid) (th : Thread) : (s.setThread k th).out = s.out := rfl
@[simp] theorem State.setThread_mem (s : State) (k : Tid) (th : Thread) : (s.setThread k th).mem = s.mem := rfl
@[simp] theorem State.setThread_fe (s : State) (k : Tid) (th : Thread) : (s.setThread k th).fe = s.fe := rfl
@[simp] theorem State.setThread_ecc (s : State) (k : Tid) (th : Thread) : (s.setThread k th).ecc = s.ecc := rfl
@[simp] theorem State.setThread_agenda (s : State) (k : Tid) (th : Thread) : (s.setThread k th).agenda = s.agenda := rfl
@[simp] theorem State.setThread_pool (s : State) (k : Tid) (th : Thread) : (s.setThread k th).pool = s.pool := rfl
@[simp] theorem State.setThread_plan (s : State) (k : Tid) (th : Thread) : (s.setThread k th).plan = s.plan := rfl
@[simp] theorem State.setThread_nextId (s : State) (k : Tid) (th : Thread) : (s.setThread k th).nextId = s.nextId := rfl
@[simp] theorem State.setThread_fresh (s : State) (k : Tid) (th : Thread) : (s.setThread k th).fresh = s.fresh := rfl
@[simp] theorem State.setThread_cur (s : State) (k : Tid) (th : Thread) : (s.setThread k th).cur = s.cur := rfl
@[simp] theorem State.setThread_word (s : State) (k : Tid) (th : Thread) : (s.setThread k th).word = s.word := rfl

/-! ### `State.setCore` -/

@[simp] theorem State.setCore_cycle (s : State) (n : Nat) (c : Core) : (s.setCore n c).cycle = s.cycle := rfl
@[simp] theorem State.setCore_threads (s : State) (n : Nat) (c : Core) : (s.setCore n c).threads = s.threads := rfl
@[simp] theorem State.setCore_cores (s : State) (n : Nat) (c : Core) : (s.setCore n c).cores = s.cores.set n c := rfl
@[simp] theorem State.setCore_slots (s : State) (n : Nat) (c : Core) : (s.setCore n c).slots = s.slots := rfl
@[simp] theorem State.setCore_clusters (s : State) (n : Nat) (c : Core) : (s.setCore n c).clusters = s.clusters := rfl
@[simp] theorem State.setCore_dies (s : State) (n : Nat) (c : Core) : (s.setCore n c).dies = s.dies := rfl
@[simp] theorem State.setCore_ring (s : State) (n : Nat) (c : Core) : (s.setCore n c).ring = s.ring := rfl
@[simp] theorem State.setCore_pkg (s : State) (n : Nat) (c : Core) : (s.setCore n c).pkg = s.pkg := rfl
@[simp] theorem State.setCore_out (s : State) (n : Nat) (c : Core) : (s.setCore n c).out = s.out := rfl
@[simp] theorem State.setCore_mem (s : State) (n : Nat) (c : Core) : (s.setCore n c).mem = s.mem := rfl
@[simp] theorem State.setCore_fe (s : State) (n : Nat) (c : Core) : (s.setCore n c).fe = s.fe := rfl
@[simp] theorem State.setCore_ecc (s : State) (n : Nat) (c : Core) : (s.setCore n c).ecc = s.ecc := rfl
@[simp] theorem State.setCore_agenda (s : State) (n : Nat) (c : Core) : (s.setCore n c).agenda = s.agenda := rfl
@[simp] theorem State.setCore_pool (s : State) (n : Nat) (c : Core) : (s.setCore n c).pool = s.pool := rfl
@[simp] theorem State.setCore_plan (s : State) (n : Nat) (c : Core) : (s.setCore n c).plan = s.plan := rfl
@[simp] theorem State.setCore_nextId (s : State) (n : Nat) (c : Core) : (s.setCore n c).nextId = s.nextId := rfl
@[simp] theorem State.setCore_fresh (s : State) (n : Nat) (c : Core) : (s.setCore n c).fresh = s.fresh := rfl
@[simp] theorem State.setCore_cur (s : State) (n : Nat) (c : Core) : (s.setCore n c).cur = s.cur := rfl
@[simp] theorem State.setCore_word (s : State) (n : Nat) (c : Core) : (s.setCore n c).word = s.word := rfl

/-! ### `State.modCore` -/

@[simp] theorem State.modCore_cycle (s : State) (n : Nat) (f : Core → Core) : (s.modCore n f).cycle = s.cycle := rfl
@[simp] theorem State.modCore_threads (s : State) (n : Nat) (f : Core → Core) : (s.modCore n f).threads = s.threads := rfl
@[simp] theorem State.modCore_cores (s : State) (n : Nat) (f : Core → Core) : (s.modCore n f).cores = s.cores.set n (f (s.core n)) := rfl
@[simp] theorem State.modCore_slots (s : State) (n : Nat) (f : Core → Core) : (s.modCore n f).slots = s.slots := rfl
@[simp] theorem State.modCore_clusters (s : State) (n : Nat) (f : Core → Core) : (s.modCore n f).clusters = s.clusters := rfl
@[simp] theorem State.modCore_dies (s : State) (n : Nat) (f : Core → Core) : (s.modCore n f).dies = s.dies := rfl
@[simp] theorem State.modCore_ring (s : State) (n : Nat) (f : Core → Core) : (s.modCore n f).ring = s.ring := rfl
@[simp] theorem State.modCore_pkg (s : State) (n : Nat) (f : Core → Core) : (s.modCore n f).pkg = s.pkg := rfl
@[simp] theorem State.modCore_out (s : State) (n : Nat) (f : Core → Core) : (s.modCore n f).out = s.out := rfl
@[simp] theorem State.modCore_mem (s : State) (n : Nat) (f : Core → Core) : (s.modCore n f).mem = s.mem := rfl
@[simp] theorem State.modCore_fe (s : State) (n : Nat) (f : Core → Core) : (s.modCore n f).fe = s.fe := rfl
@[simp] theorem State.modCore_ecc (s : State) (n : Nat) (f : Core → Core) : (s.modCore n f).ecc = s.ecc := rfl
@[simp] theorem State.modCore_agenda (s : State) (n : Nat) (f : Core → Core) : (s.modCore n f).agenda = s.agenda := rfl
@[simp] theorem State.modCore_pool (s : State) (n : Nat) (f : Core → Core) : (s.modCore n f).pool = s.pool := rfl
@[simp] theorem State.modCore_plan (s : State) (n : Nat) (f : Core → Core) : (s.modCore n f).plan = s.plan := rfl
@[simp] theorem State.modCore_nextId (s : State) (n : Nat) (f : Core → Core) : (s.modCore n f).nextId = s.nextId := rfl
@[simp] theorem State.modCore_fresh (s : State) (n : Nat) (f : Core → Core) : (s.modCore n f).fresh = s.fresh := rfl
@[simp] theorem State.modCore_cur (s : State) (n : Nat) (f : Core → Core) : (s.modCore n f).cur = s.cur := rfl
@[simp] theorem State.modCore_word (s : State) (n : Nat) (f : Core → Core) : (s.modCore n f).word = s.word := rfl

/-! ### `State.modM` -/

@[simp] theorem State.modM_cycle (s : State) (n : Nat) (f : CoreMem → CoreMem) : (s.modM n f).cycle = s.cycle := rfl
@[simp] theorem State.modM_threads (s : State) (n : Nat) (f : CoreMem → CoreMem) : (s.modM n f).threads = s.threads := rfl
@[simp] theorem State.modM_slots (s : State) (n : Nat) (f : CoreMem → CoreMem) : (s.modM n f).slots = s.slots := rfl
@[simp] theorem State.modM_clusters (s : State) (n : Nat) (f : CoreMem → CoreMem) : (s.modM n f).clusters = s.clusters := rfl
@[simp] theorem State.modM_dies (s : State) (n : Nat) (f : CoreMem → CoreMem) : (s.modM n f).dies = s.dies := rfl
@[simp] theorem State.modM_ring (s : State) (n : Nat) (f : CoreMem → CoreMem) : (s.modM n f).ring = s.ring := rfl
@[simp] theorem State.modM_pkg (s : State) (n : Nat) (f : CoreMem → CoreMem) : (s.modM n f).pkg = s.pkg := rfl
@[simp] theorem State.modM_out (s : State) (n : Nat) (f : CoreMem → CoreMem) : (s.modM n f).out = s.out := rfl
@[simp] theorem State.modM_mem (s : State) (n : Nat) (f : CoreMem → CoreMem) : (s.modM n f).mem = s.mem := rfl
@[simp] theorem State.modM_fe (s : State) (n : Nat) (f : CoreMem → CoreMem) : (s.modM n f).fe = s.fe := rfl
@[simp] theorem State.modM_ecc (s : State) (n : Nat) (f : CoreMem → CoreMem) : (s.modM n f).ecc = s.ecc := rfl
@[simp] theorem State.modM_agenda (s : State) (n : Nat) (f : CoreMem → CoreMem) : (s.modM n f).agenda = s.agenda := rfl
@[simp] theorem State.modM_pool (s : State) (n : Nat) (f : CoreMem → CoreMem) : (s.modM n f).pool = s.pool := rfl
@[simp] theorem State.modM_plan (s : State) (n : Nat) (f : CoreMem → CoreMem) : (s.modM n f).plan = s.plan := rfl
@[simp] theorem State.modM_nextId (s : State) (n : Nat) (f : CoreMem → CoreMem) : (s.modM n f).nextId = s.nextId := rfl
@[simp] theorem State.modM_fresh (s : State) (n : Nat) (f : CoreMem → CoreMem) : (s.modM n f).fresh = s.fresh := rfl
@[simp] theorem State.modM_cur (s : State) (n : Nat) (f : CoreMem → CoreMem) : (s.modM n f).cur = s.cur := rfl
@[simp] theorem State.modM_word (s : State) (n : Nat) (f : CoreMem → CoreMem) : (s.modM n f).word = s.word := rfl

/-! ### `State.modE` -/

@[simp] theorem State.modE_cycle (s : State) (n : Nat) (f : CoreEng → CoreEng) : (s.modE n f).cycle = s.cycle := rfl
@[simp] theorem State.modE_threads (s : State) (n : Nat) (f : CoreEng → CoreEng) : (s.modE n f).threads = s.threads := rfl
@[simp] theorem State.modE_slots (s : State) (n : Nat) (f : CoreEng → CoreEng) : (s.modE n f).slots = s.slots := rfl
@[simp] theorem State.modE_clusters (s : State) (n : Nat) (f : CoreEng → CoreEng) : (s.modE n f).clusters = s.clusters := rfl
@[simp] theorem State.modE_dies (s : State) (n : Nat) (f : CoreEng → CoreEng) : (s.modE n f).dies = s.dies := rfl
@[simp] theorem State.modE_ring (s : State) (n : Nat) (f : CoreEng → CoreEng) : (s.modE n f).ring = s.ring := rfl
@[simp] theorem State.modE_pkg (s : State) (n : Nat) (f : CoreEng → CoreEng) : (s.modE n f).pkg = s.pkg := rfl
@[simp] theorem State.modE_out (s : State) (n : Nat) (f : CoreEng → CoreEng) : (s.modE n f).out = s.out := rfl
@[simp] theorem State.modE_mem (s : State) (n : Nat) (f : CoreEng → CoreEng) : (s.modE n f).mem = s.mem := rfl
@[simp] theorem State.modE_fe (s : State) (n : Nat) (f : CoreEng → CoreEng) : (s.modE n f).fe = s.fe := rfl
@[simp] theorem State.modE_ecc (s : State) (n : Nat) (f : CoreEng → CoreEng) : (s.modE n f).ecc = s.ecc := rfl
@[simp] theorem State.modE_agenda (s : State) (n : Nat) (f : CoreEng → CoreEng) : (s.modE n f).agenda = s.agenda := rfl
@[simp] theorem State.modE_pool (s : State) (n : Nat) (f : CoreEng → CoreEng) : (s.modE n f).pool = s.pool := rfl
@[simp] theorem State.modE_plan (s : State) (n : Nat) (f : CoreEng → CoreEng) : (s.modE n f).plan = s.plan := rfl
@[simp] theorem State.modE_nextId (s : State) (n : Nat) (f : CoreEng → CoreEng) : (s.modE n f).nextId = s.nextId := rfl
@[simp] theorem State.modE_fresh (s : State) (n : Nat) (f : CoreEng → CoreEng) : (s.modE n f).fresh = s.fresh := rfl
@[simp] theorem State.modE_cur (s : State) (n : Nat) (f : CoreEng → CoreEng) : (s.modE n f).cur = s.cur := rfl
@[simp] theorem State.modE_word (s : State) (n : Nat) (f : CoreEng → CoreEng) : (s.modE n f).word = s.word := rfl

/-! ### `State.modK` -/

@[simp] theorem State.modK_cycle (s : State) (n : Nat) (f : CoreCtl → CoreCtl) : (s.modK n f).cycle = s.cycle := rfl
@[simp] theorem State.modK_threads (s : State) (n : Nat) (f : CoreCtl → CoreCtl) : (s.modK n f).threads = s.threads := rfl
@[simp] theorem State.modK_slots (s : State) (n : Nat) (f : CoreCtl → CoreCtl) : (s.modK n f).slots = s.slots := rfl
@[simp] theorem State.modK_clusters (s : State) (n : Nat) (f : CoreCtl → CoreCtl) : (s.modK n f).clusters = s.clusters := rfl
@[simp] theorem State.modK_dies (s : State) (n : Nat) (f : CoreCtl → CoreCtl) : (s.modK n f).dies = s.dies := rfl
@[simp] theorem State.modK_ring (s : State) (n : Nat) (f : CoreCtl → CoreCtl) : (s.modK n f).ring = s.ring := rfl
@[simp] theorem State.modK_pkg (s : State) (n : Nat) (f : CoreCtl → CoreCtl) : (s.modK n f).pkg = s.pkg := rfl
@[simp] theorem State.modK_out (s : State) (n : Nat) (f : CoreCtl → CoreCtl) : (s.modK n f).out = s.out := rfl
@[simp] theorem State.modK_mem (s : State) (n : Nat) (f : CoreCtl → CoreCtl) : (s.modK n f).mem = s.mem := rfl
@[simp] theorem State.modK_fe (s : State) (n : Nat) (f : CoreCtl → CoreCtl) : (s.modK n f).fe = s.fe := rfl
@[simp] theorem State.modK_ecc (s : State) (n : Nat) (f : CoreCtl → CoreCtl) : (s.modK n f).ecc = s.ecc := rfl
@[simp] theorem State.modK_agenda (s : State) (n : Nat) (f : CoreCtl → CoreCtl) : (s.modK n f).agenda = s.agenda := rfl
@[simp] theorem State.modK_pool (s : State) (n : Nat) (f : CoreCtl → CoreCtl) : (s.modK n f).pool = s.pool := rfl
@[simp] theorem State.modK_plan (s : State) (n : Nat) (f : CoreCtl → CoreCtl) : (s.modK n f).plan = s.plan := rfl
@[simp] theorem State.modK_nextId (s : State) (n : Nat) (f : CoreCtl → CoreCtl) : (s.modK n f).nextId = s.nextId := rfl
@[simp] theorem State.modK_fresh (s : State) (n : Nat) (f : CoreCtl → CoreCtl) : (s.modK n f).fresh = s.fresh := rfl
@[simp] theorem State.modK_cur (s : State) (n : Nat) (f : CoreCtl → CoreCtl) : (s.modK n f).cur = s.cur := rfl
@[simp] theorem State.modK_word (s : State) (n : Nat) (f : CoreCtl → CoreCtl) : (s.modK n f).word = s.word := rfl

/-! ### `State.modR` -/

@[simp] theorem State.modR_cycle (s : State) (n : Nat) (f : CoreRing → CoreRing) : (s.modR n f).cycle = s.cycle := rfl
@[simp] theorem State.modR_threads (s : State) (n : Nat) (f : CoreRing → CoreRing) : (s.modR n f).threads = s.threads := rfl
@[simp] theorem State.modR_slots (s : State) (n : Nat) (f : CoreRing → CoreRing) : (s.modR n f).slots = s.slots := rfl
@[simp] theorem State.modR_clusters (s : State) (n : Nat) (f : CoreRing → CoreRing) : (s.modR n f).clusters = s.clusters := rfl
@[simp] theorem State.modR_dies (s : State) (n : Nat) (f : CoreRing → CoreRing) : (s.modR n f).dies = s.dies := rfl
@[simp] theorem State.modR_ring (s : State) (n : Nat) (f : CoreRing → CoreRing) : (s.modR n f).ring = s.ring := rfl
@[simp] theorem State.modR_pkg (s : State) (n : Nat) (f : CoreRing → CoreRing) : (s.modR n f).pkg = s.pkg := rfl
@[simp] theorem State.modR_out (s : State) (n : Nat) (f : CoreRing → CoreRing) : (s.modR n f).out = s.out := rfl
@[simp] theorem State.modR_mem (s : State) (n : Nat) (f : CoreRing → CoreRing) : (s.modR n f).mem = s.mem := rfl
@[simp] theorem State.modR_fe (s : State) (n : Nat) (f : CoreRing → CoreRing) : (s.modR n f).fe = s.fe := rfl
@[simp] theorem State.modR_ecc (s : State) (n : Nat) (f : CoreRing → CoreRing) : (s.modR n f).ecc = s.ecc := rfl
@[simp] theorem State.modR_agenda (s : State) (n : Nat) (f : CoreRing → CoreRing) : (s.modR n f).agenda = s.agenda := rfl
@[simp] theorem State.modR_pool (s : State) (n : Nat) (f : CoreRing → CoreRing) : (s.modR n f).pool = s.pool := rfl
@[simp] theorem State.modR_plan (s : State) (n : Nat) (f : CoreRing → CoreRing) : (s.modR n f).plan = s.plan := rfl
@[simp] theorem State.modR_nextId (s : State) (n : Nat) (f : CoreRing → CoreRing) : (s.modR n f).nextId = s.nextId := rfl
@[simp] theorem State.modR_fresh (s : State) (n : Nat) (f : CoreRing → CoreRing) : (s.modR n f).fresh = s.fresh := rfl
@[simp] theorem State.modR_cur (s : State) (n : Nat) (f : CoreRing → CoreRing) : (s.modR n f).cur = s.cur := rfl
@[simp] theorem State.modR_word (s : State) (n : Nat) (f : CoreRing → CoreRing) : (s.modR n f).word = s.word := rfl

/-! ### `State.modCluster` -/

@[simp] theorem State.modCluster_cycle (s : State) (n : Nat) (f : Cluster → Cluster) : (s.modCluster n f).cycle = s.cycle := rfl
@[simp] theorem State.modCluster_threads (s : State) (n : Nat) (f : Cluster → Cluster) : (s.modCluster n f).threads = s.threads := rfl
@[simp] theorem State.modCluster_cores (s : State) (n : Nat) (f : Cluster → Cluster) : (s.modCluster n f).cores = s.cores := rfl
@[simp] theorem State.modCluster_slots (s : State) (n : Nat) (f : Cluster → Cluster) : (s.modCluster n f).slots = s.slots := rfl
@[simp] theorem State.modCluster_clusters (s : State) (n : Nat) (f : Cluster → Cluster) : (s.modCluster n f).clusters = s.clusters.set n (f (s.cluster n)) := rfl
@[simp] theorem State.modCluster_dies (s : State) (n : Nat) (f : Cluster → Cluster) : (s.modCluster n f).dies = s.dies := rfl
@[simp] theorem State.modCluster_ring (s : State) (n : Nat) (f : Cluster → Cluster) : (s.modCluster n f).ring = s.ring := rfl
@[simp] theorem State.modCluster_pkg (s : State) (n : Nat) (f : Cluster → Cluster) : (s.modCluster n f).pkg = s.pkg := rfl
@[simp] theorem State.modCluster_out (s : State) (n : Nat) (f : Cluster → Cluster) : (s.modCluster n f).out = s.out := rfl
@[simp] theorem State.modCluster_mem (s : State) (n : Nat) (f : Cluster → Cluster) : (s.modCluster n f).mem = s.mem := rfl
@[simp] theorem State.modCluster_fe (s : State) (n : Nat) (f : Cluster → Cluster) : (s.modCluster n f).fe = s.fe := rfl
@[simp] theorem State.modCluster_ecc (s : State) (n : Nat) (f : Cluster → Cluster) : (s.modCluster n f).ecc = s.ecc := rfl
@[simp] theorem State.modCluster_agenda (s : State) (n : Nat) (f : Cluster → Cluster) : (s.modCluster n f).agenda = s.agenda := rfl
@[simp] theorem State.modCluster_pool (s : State) (n : Nat) (f : Cluster → Cluster) : (s.modCluster n f).pool = s.pool := rfl
@[simp] theorem State.modCluster_plan (s : State) (n : Nat) (f : Cluster → Cluster) : (s.modCluster n f).plan = s.plan := rfl
@[simp] theorem State.modCluster_nextId (s : State) (n : Nat) (f : Cluster → Cluster) : (s.modCluster n f).nextId = s.nextId := rfl
@[simp] theorem State.modCluster_fresh (s : State) (n : Nat) (f : Cluster → Cluster) : (s.modCluster n f).fresh = s.fresh := rfl
@[simp] theorem State.modCluster_cur (s : State) (n : Nat) (f : Cluster → Cluster) : (s.modCluster n f).cur = s.cur := rfl
@[simp] theorem State.modCluster_word (s : State) (n : Nat) (f : Cluster → Cluster) : (s.modCluster n f).word = s.word := rfl

/-! ### `State.modDie` -/

@[simp] theorem State.modDie_cycle (s : State) (n : Nat) (f : Die → Die) : (s.modDie n f).cycle = s.cycle := rfl
@[simp] theorem State.modDie_threads (s : State) (n : Nat) (f : Die → Die) : (s.modDie n f).threads = s.threads := rfl
@[simp] theorem State.modDie_cores (s : State) (n : Nat) (f : Die → Die) : (s.modDie n f).cores = s.cores := rfl
@[simp] theorem State.modDie_slots (s : State) (n : Nat) (f : Die → Die) : (s.modDie n f).slots = s.slots := rfl
@[simp] theorem State.modDie_clusters (s : State) (n : Nat) (f : Die → Die) : (s.modDie n f).clusters = s.clusters := rfl
@[simp] theorem State.modDie_dies (s : State) (n : Nat) (f : Die → Die) : (s.modDie n f).dies = s.dies.set n (f (s.die n)) := rfl
@[simp] theorem State.modDie_ring (s : State) (n : Nat) (f : Die → Die) : (s.modDie n f).ring = s.ring := rfl
@[simp] theorem State.modDie_pkg (s : State) (n : Nat) (f : Die → Die) : (s.modDie n f).pkg = s.pkg := rfl
@[simp] theorem State.modDie_out (s : State) (n : Nat) (f : Die → Die) : (s.modDie n f).out = s.out := rfl
@[simp] theorem State.modDie_mem (s : State) (n : Nat) (f : Die → Die) : (s.modDie n f).mem = s.mem := rfl
@[simp] theorem State.modDie_fe (s : State) (n : Nat) (f : Die → Die) : (s.modDie n f).fe = s.fe := rfl
@[simp] theorem State.modDie_ecc (s : State) (n : Nat) (f : Die → Die) : (s.modDie n f).ecc = s.ecc := rfl
@[simp] theorem State.modDie_agenda (s : State) (n : Nat) (f : Die → Die) : (s.modDie n f).agenda = s.agenda := rfl
@[simp] theorem State.modDie_pool (s : State) (n : Nat) (f : Die → Die) : (s.modDie n f).pool = s.pool := rfl
@[simp] theorem State.modDie_plan (s : State) (n : Nat) (f : Die → Die) : (s.modDie n f).plan = s.plan := rfl
@[simp] theorem State.modDie_nextId (s : State) (n : Nat) (f : Die → Die) : (s.modDie n f).nextId = s.nextId := rfl
@[simp] theorem State.modDie_fresh (s : State) (n : Nat) (f : Die → Die) : (s.modDie n f).fresh = s.fresh := rfl
@[simp] theorem State.modDie_cur (s : State) (n : Nat) (f : Die → Die) : (s.modDie n f).cur = s.cur := rfl
@[simp] theorem State.modDie_word (s : State) (n : Nat) (f : Die → Die) : (s.modDie n f).word = s.word := rfl

/-! ### `State.modPkg` -/

@[simp] theorem State.modPkg_cycle (s : State) (f : Pkg → Pkg) : (s.modPkg f).cycle = s.cycle := rfl
@[simp] theorem State.modPkg_threads (s : State) (f : Pkg → Pkg) : (s.modPkg f).threads = s.threads := rfl
@[simp] theorem State.modPkg_cores (s : State) (f : Pkg → Pkg) : (s.modPkg f).cores = s.cores := rfl
@[simp] theorem State.modPkg_slots (s : State) (f : Pkg → Pkg) : (s.modPkg f).slots = s.slots := rfl
@[simp] theorem State.modPkg_clusters (s : State) (f : Pkg → Pkg) : (s.modPkg f).clusters = s.clusters := rfl
@[simp] theorem State.modPkg_dies (s : State) (f : Pkg → Pkg) : (s.modPkg f).dies = s.dies := rfl
@[simp] theorem State.modPkg_ring (s : State) (f : Pkg → Pkg) : (s.modPkg f).ring = s.ring := rfl
@[simp] theorem State.modPkg_pkg (s : State) (f : Pkg → Pkg) : (s.modPkg f).pkg = f s.pkg := rfl
@[simp] theorem State.modPkg_out (s : State) (f : Pkg → Pkg) : (s.modPkg f).out = s.out := rfl
@[simp] theorem State.modPkg_mem (s : State) (f : Pkg → Pkg) : (s.modPkg f).mem = s.mem := rfl
@[simp] theorem State.modPkg_fe (s : State) (f : Pkg → Pkg) : (s.modPkg f).fe = s.fe := rfl
@[simp] theorem State.modPkg_ecc (s : State) (f : Pkg → Pkg) : (s.modPkg f).ecc = s.ecc := rfl
@[simp] theorem State.modPkg_agenda (s : State) (f : Pkg → Pkg) : (s.modPkg f).agenda = s.agenda := rfl
@[simp] theorem State.modPkg_pool (s : State) (f : Pkg → Pkg) : (s.modPkg f).pool = s.pool := rfl
@[simp] theorem State.modPkg_plan (s : State) (f : Pkg → Pkg) : (s.modPkg f).plan = s.plan := rfl
@[simp] theorem State.modPkg_nextId (s : State) (f : Pkg → Pkg) : (s.modPkg f).nextId = s.nextId := rfl
@[simp] theorem State.modPkg_fresh (s : State) (f : Pkg → Pkg) : (s.modPkg f).fresh = s.fresh := rfl
@[simp] theorem State.modPkg_cur (s : State) (f : Pkg → Pkg) : (s.modPkg f).cur = s.cur := rfl
@[simp] theorem State.modPkg_word (s : State) (f : Pkg → Pkg) : (s.modPkg f).word = s.word := rfl

/-! ### `State.modOut` -/

@[simp] theorem State.modOut_cycle (s : State) (f : Outer → Outer) : (s.modOut f).cycle = s.cycle := rfl
@[simp] theorem State.modOut_threads (s : State) (f : Outer → Outer) : (s.modOut f).threads = s.threads := rfl
@[simp] theorem State.modOut_cores (s : State) (f : Outer → Outer) : (s.modOut f).cores = s.cores := rfl
@[simp] theorem State.modOut_slots (s : State) (f : Outer → Outer) : (s.modOut f).slots = s.slots := rfl
@[simp] theorem State.modOut_clusters (s : State) (f : Outer → Outer) : (s.modOut f).clusters = s.clusters := rfl
@[simp] theorem State.modOut_dies (s : State) (f : Outer → Outer) : (s.modOut f).dies = s.dies := rfl
@[simp] theorem State.modOut_ring (s : State) (f : Outer → Outer) : (s.modOut f).ring = s.ring := rfl
@[simp] theorem State.modOut_pkg (s : State) (f : Outer → Outer) : (s.modOut f).pkg = s.pkg := rfl
@[simp] theorem State.modOut_out (s : State) (f : Outer → Outer) : (s.modOut f).out = f s.out := rfl
@[simp] theorem State.modOut_mem (s : State) (f : Outer → Outer) : (s.modOut f).mem = s.mem := rfl
@[simp] theorem State.modOut_fe (s : State) (f : Outer → Outer) : (s.modOut f).fe = s.fe := rfl
@[simp] theorem State.modOut_ecc (s : State) (f : Outer → Outer) : (s.modOut f).ecc = s.ecc := rfl
@[simp] theorem State.modOut_agenda (s : State) (f : Outer → Outer) : (s.modOut f).agenda = s.agenda := rfl
@[simp] theorem State.modOut_pool (s : State) (f : Outer → Outer) : (s.modOut f).pool = s.pool := rfl
@[simp] theorem State.modOut_plan (s : State) (f : Outer → Outer) : (s.modOut f).plan = s.plan := rfl
@[simp] theorem State.modOut_nextId (s : State) (f : Outer → Outer) : (s.modOut f).nextId = s.nextId := rfl
@[simp] theorem State.modOut_fresh (s : State) (f : Outer → Outer) : (s.modOut f).fresh = s.fresh := rfl
@[simp] theorem State.modOut_cur (s : State) (f : Outer → Outer) : (s.modOut f).cur = s.cur := rfl
@[simp] theorem State.modOut_word (s : State) (f : Outer → Outer) : (s.modOut f).word = s.word := rfl

/-! ### `State.send` -/

@[simp] theorem State.send_cycle (s : State) (m : Sent) : (s.send m).cycle = s.cycle := rfl
@[simp] theorem State.send_threads (s : State) (m : Sent) : (s.send m).threads = s.threads := rfl
@[simp] theorem State.send_cores (s : State) (m : Sent) : (s.send m).cores = s.cores := rfl
@[simp] theorem State.send_slots (s : State) (m : Sent) : (s.send m).slots = s.slots := rfl
@[simp] theorem State.send_clusters (s : State) (m : Sent) : (s.send m).clusters = s.clusters := rfl
@[simp] theorem State.send_dies (s : State) (m : Sent) : (s.send m).dies = s.dies := rfl
@[simp] theorem State.send_ring (s : State) (m : Sent) : (s.send m).ring = s.ring := rfl
@[simp] theorem State.send_pkg (s : State) (m : Sent) : (s.send m).pkg = s.pkg := rfl
@[simp] theorem State.send_mem (s : State) (m : Sent) : (s.send m).mem = s.mem := rfl
@[simp] theorem State.send_fe (s : State) (m : Sent) : (s.send m).fe = s.fe := rfl
@[simp] theorem State.send_ecc (s : State) (m : Sent) : (s.send m).ecc = s.ecc := rfl
@[simp] theorem State.send_agenda (s : State) (m : Sent) : (s.send m).agenda = s.agenda := rfl
@[simp] theorem State.send_pool (s : State) (m : Sent) : (s.send m).pool = s.pool := rfl
@[simp] theorem State.send_plan (s : State) (m : Sent) : (s.send m).plan = s.plan := rfl
@[simp] theorem State.send_nextId (s : State) (m : Sent) : (s.send m).nextId = s.nextId := rfl
@[simp] theorem State.send_fresh (s : State) (m : Sent) : (s.send m).fresh = s.fresh := rfl
@[simp] theorem State.send_cur (s : State) (m : Sent) : (s.send m).cur = s.cur := rfl
@[simp] theorem State.send_word (s : State) (m : Sent) : (s.send m).word = s.word := rfl

/-! ### `State.push` -/

@[simp] theorem State.push_cycle (s : State) (i : Instr) : (s.push i).cycle = s.cycle := rfl
@[simp] theorem State.push_threads (s : State) (i : Instr) : (s.push i).threads = s.threads := rfl
@[simp] theorem State.push_cores (s : State) (i : Instr) : (s.push i).cores = s.cores := rfl
@[simp] theorem State.push_slots (s : State) (i : Instr) : (s.push i).slots = s.slots := rfl
@[simp] theorem State.push_clusters (s : State) (i : Instr) : (s.push i).clusters = s.clusters := rfl
@[simp] theorem State.push_dies (s : State) (i : Instr) : (s.push i).dies = s.dies := rfl
@[simp] theorem State.push_ring (s : State) (i : Instr) : (s.push i).ring = s.ring := rfl
@[simp] theorem State.push_pkg (s : State) (i : Instr) : (s.push i).pkg = s.pkg := rfl
@[simp] theorem State.push_out (s : State) (i : Instr) : (s.push i).out = s.out := rfl
@[simp] theorem State.push_mem (s : State) (i : Instr) : (s.push i).mem = s.mem := rfl
@[simp] theorem State.push_fe (s : State) (i : Instr) : (s.push i).fe = s.fe := rfl
@[simp] theorem State.push_ecc (s : State) (i : Instr) : (s.push i).ecc = s.ecc := rfl
@[simp] theorem State.push_agenda (s : State) (i : Instr) : (s.push i).agenda = s.agenda := rfl
@[simp] theorem State.push_pool (s : State) (i : Instr) : (s.push i).pool = s.pool ++ [i] := rfl
@[simp] theorem State.push_plan (s : State) (i : Instr) : (s.push i).plan = s.plan := rfl
@[simp] theorem State.push_nextId (s : State) (i : Instr) : (s.push i).nextId = s.nextId := rfl
@[simp] theorem State.push_fresh (s : State) (i : Instr) : (s.push i).fresh = s.fresh := rfl
@[simp] theorem State.push_cur (s : State) (i : Instr) : (s.push i).cur = s.cur := rfl
@[simp] theorem State.push_word (s : State) (i : Instr) : (s.push i).word = s.word := rfl

/-! ### `State.urge` -/

@[simp] theorem State.urge_cycle (s : State) (i : Instr) : (s.urge i).cycle = s.cycle := rfl
@[simp] theorem State.urge_threads (s : State) (i : Instr) : (s.urge i).threads = s.threads := rfl
@[simp] theorem State.urge_cores (s : State) (i : Instr) : (s.urge i).cores = s.cores := rfl
@[simp] theorem State.urge_slots (s : State) (i : Instr) : (s.urge i).slots = s.slots := rfl
@[simp] theorem State.urge_clusters (s : State) (i : Instr) : (s.urge i).clusters = s.clusters := rfl
@[simp] theorem State.urge_dies (s : State) (i : Instr) : (s.urge i).dies = s.dies := rfl
@[simp] theorem State.urge_ring (s : State) (i : Instr) : (s.urge i).ring = s.ring := rfl
@[simp] theorem State.urge_pkg (s : State) (i : Instr) : (s.urge i).pkg = s.pkg := rfl
@[simp] theorem State.urge_out (s : State) (i : Instr) : (s.urge i).out = s.out := rfl
@[simp] theorem State.urge_mem (s : State) (i : Instr) : (s.urge i).mem = s.mem := rfl
@[simp] theorem State.urge_fe (s : State) (i : Instr) : (s.urge i).fe = s.fe := rfl
@[simp] theorem State.urge_ecc (s : State) (i : Instr) : (s.urge i).ecc = s.ecc := rfl
@[simp] theorem State.urge_agenda (s : State) (i : Instr) : (s.urge i).agenda = i :: s.agenda := rfl
@[simp] theorem State.urge_pool (s : State) (i : Instr) : (s.urge i).pool = s.pool := rfl
@[simp] theorem State.urge_plan (s : State) (i : Instr) : (s.urge i).plan = s.plan := rfl
@[simp] theorem State.urge_nextId (s : State) (i : Instr) : (s.urge i).nextId = s.nextId := rfl
@[simp] theorem State.urge_fresh (s : State) (i : Instr) : (s.urge i).fresh = s.fresh := rfl
@[simp] theorem State.urge_cur (s : State) (i : Instr) : (s.urge i).cur = s.cur := rfl
@[simp] theorem State.urge_word (s : State) (i : Instr) : (s.urge i).word = s.word := rfl

/-! ### `State.takeId` -/

@[simp] theorem State.takeId_cycle (s : State) : (s.takeId.2).cycle = s.cycle := rfl
@[simp] theorem State.takeId_threads (s : State) : (s.takeId.2).threads = s.threads := rfl
@[simp] theorem State.takeId_cores (s : State) : (s.takeId.2).cores = s.cores := rfl
@[simp] theorem State.takeId_slots (s : State) : (s.takeId.2).slots = s.slots := rfl
@[simp] theorem State.takeId_clusters (s : State) : (s.takeId.2).clusters = s.clusters := rfl
@[simp] theorem State.takeId_dies (s : State) : (s.takeId.2).dies = s.dies := rfl
@[simp] theorem State.takeId_ring (s : State) : (s.takeId.2).ring = s.ring := rfl
@[simp] theorem State.takeId_pkg (s : State) : (s.takeId.2).pkg = s.pkg := rfl
@[simp] theorem State.takeId_out (s : State) : (s.takeId.2).out = s.out := rfl
@[simp] theorem State.takeId_mem (s : State) : (s.takeId.2).mem = s.mem := rfl
@[simp] theorem State.takeId_fe (s : State) : (s.takeId.2).fe = s.fe := rfl
@[simp] theorem State.takeId_ecc (s : State) : (s.takeId.2).ecc = s.ecc := rfl
@[simp] theorem State.takeId_agenda (s : State) : (s.takeId.2).agenda = s.agenda := rfl
@[simp] theorem State.takeId_pool (s : State) : (s.takeId.2).pool = s.pool := rfl
@[simp] theorem State.takeId_plan (s : State) : (s.takeId.2).plan = s.plan := rfl
@[simp] theorem State.takeId_nextId (s : State) : (s.takeId.2).nextId = s.nextId + 1 := rfl
@[simp] theorem State.takeId_fresh (s : State) : (s.takeId.2).fresh = s.fresh := rfl
@[simp] theorem State.takeId_cur (s : State) : (s.takeId.2).cur = s.cur := rfl
@[simp] theorem State.takeId_word (s : State) : (s.takeId.2).word = s.word := rfl

/-! ### `State.freeWord` -/

@[simp] theorem State.freeWord_cycle (s : State) : (s.freeWord.2).cycle = s.cycle := rfl
@[simp] theorem State.freeWord_threads (s : State) : (s.freeWord.2).threads = s.threads := rfl
@[simp] theorem State.freeWord_cores (s : State) : (s.freeWord.2).cores = s.cores := rfl
@[simp] theorem State.freeWord_slots (s : State) : (s.freeWord.2).slots = s.slots := rfl
@[simp] theorem State.freeWord_clusters (s : State) : (s.freeWord.2).clusters = s.clusters := rfl
@[simp] theorem State.freeWord_dies (s : State) : (s.freeWord.2).dies = s.dies := rfl
@[simp] theorem State.freeWord_ring (s : State) : (s.freeWord.2).ring = s.ring := rfl
@[simp] theorem State.freeWord_pkg (s : State) : (s.freeWord.2).pkg = s.pkg := rfl
@[simp] theorem State.freeWord_out (s : State) : (s.freeWord.2).out = s.out := rfl
@[simp] theorem State.freeWord_mem (s : State) : (s.freeWord.2).mem = s.mem := rfl
@[simp] theorem State.freeWord_fe (s : State) : (s.freeWord.2).fe = s.fe := rfl
@[simp] theorem State.freeWord_ecc (s : State) : (s.freeWord.2).ecc = s.ecc := rfl
@[simp] theorem State.freeWord_agenda (s : State) : (s.freeWord.2).agenda = s.agenda := rfl
@[simp] theorem State.freeWord_pool (s : State) : (s.freeWord.2).pool = s.pool := rfl
@[simp] theorem State.freeWord_plan (s : State) : (s.freeWord.2).plan = s.plan := rfl
@[simp] theorem State.freeWord_nextId (s : State) : (s.freeWord.2).nextId = s.nextId := rfl
@[simp] theorem State.freeWord_fresh (s : State) : (s.freeWord.2).fresh = s.fresh + 1 := rfl
@[simp] theorem State.freeWord_cur (s : State) : (s.freeWord.2).cur = s.cur := rfl
@[simp] theorem State.freeWord_word (s : State) : (s.freeWord.2).word = s.word := rfl

/-! ### `State.setVreg` -/

@[simp] theorem State.setVreg_cycle (s : State) (t : Thread) (v : BitVec 5) (x : BitVec 4096) : (s.setVreg t v x).cycle = s.cycle := rfl
@[simp] theorem State.setVreg_threads (s : State) (t : Thread) (v : BitVec 5) (x : BitVec 4096) : (s.setVreg t v x).threads = s.threads := rfl
@[simp] theorem State.setVreg_cores (s : State) (t : Thread) (v : BitVec 5) (x : BitVec 4096) : (s.setVreg t v x).cores = s.cores := rfl
@[simp] theorem State.setVreg_clusters (s : State) (t : Thread) (v : BitVec 5) (x : BitVec 4096) : (s.setVreg t v x).clusters = s.clusters := rfl
@[simp] theorem State.setVreg_dies (s : State) (t : Thread) (v : BitVec 5) (x : BitVec 4096) : (s.setVreg t v x).dies = s.dies := rfl
@[simp] theorem State.setVreg_ring (s : State) (t : Thread) (v : BitVec 5) (x : BitVec 4096) : (s.setVreg t v x).ring = s.ring := rfl
@[simp] theorem State.setVreg_pkg (s : State) (t : Thread) (v : BitVec 5) (x : BitVec 4096) : (s.setVreg t v x).pkg = s.pkg := rfl
@[simp] theorem State.setVreg_out (s : State) (t : Thread) (v : BitVec 5) (x : BitVec 4096) : (s.setVreg t v x).out = s.out := rfl
@[simp] theorem State.setVreg_mem (s : State) (t : Thread) (v : BitVec 5) (x : BitVec 4096) : (s.setVreg t v x).mem = s.mem := rfl
@[simp] theorem State.setVreg_fe (s : State) (t : Thread) (v : BitVec 5) (x : BitVec 4096) : (s.setVreg t v x).fe = s.fe := rfl
@[simp] theorem State.setVreg_ecc (s : State) (t : Thread) (v : BitVec 5) (x : BitVec 4096) : (s.setVreg t v x).ecc = s.ecc := rfl
@[simp] theorem State.setVreg_agenda (s : State) (t : Thread) (v : BitVec 5) (x : BitVec 4096) : (s.setVreg t v x).agenda = s.agenda := rfl
@[simp] theorem State.setVreg_pool (s : State) (t : Thread) (v : BitVec 5) (x : BitVec 4096) : (s.setVreg t v x).pool = s.pool := rfl
@[simp] theorem State.setVreg_plan (s : State) (t : Thread) (v : BitVec 5) (x : BitVec 4096) : (s.setVreg t v x).plan = s.plan := rfl
@[simp] theorem State.setVreg_nextId (s : State) (t : Thread) (v : BitVec 5) (x : BitVec 4096) : (s.setVreg t v x).nextId = s.nextId := rfl
@[simp] theorem State.setVreg_fresh (s : State) (t : Thread) (v : BitVec 5) (x : BitVec 4096) : (s.setVreg t v x).fresh = s.fresh := rfl
@[simp] theorem State.setVreg_cur (s : State) (t : Thread) (v : BitVec 5) (x : BitVec 4096) : (s.setVreg t v x).cur = s.cur := rfl
@[simp] theorem State.setVreg_word (s : State) (t : Thread) (v : BitVec 5) (x : BitVec 4096) : (s.setVreg t v x).word = s.word := rfl

/-! ### `State.wr` -/

@[simp] theorem State.wr_cycle (s : State) (k n v : Nat) : (s.wr k n v).cycle = s.cycle := rfl
@[simp] theorem State.wr_threads (s : State) (k n v : Nat) : (s.wr k n v).threads = s.threads := rfl
@[simp] theorem State.wr_cores (s : State) (k n v : Nat) : (s.wr k n v).cores = s.cores := rfl
@[simp] theorem State.wr_slots (s : State) (k n v : Nat) : (s.wr k n v).slots = s.slots := rfl
@[simp] theorem State.wr_clusters (s : State) (k n v : Nat) : (s.wr k n v).clusters = s.clusters := rfl
@[simp] theorem State.wr_dies (s : State) (k n v : Nat) : (s.wr k n v).dies = s.dies := rfl
@[simp] theorem State.wr_ring (s : State) (k n v : Nat) : (s.wr k n v).ring = s.ring := rfl
@[simp] theorem State.wr_pkg (s : State) (k n v : Nat) : (s.wr k n v).pkg = s.pkg := rfl
@[simp] theorem State.wr_out (s : State) (k n v : Nat) : (s.wr k n v).out = s.out := rfl
@[simp] theorem State.wr_mem (s : State) (k n v : Nat) : (s.wr k n v).mem = writeLE s.mem k n v := rfl
@[simp] theorem State.wr_fe (s : State) (k n v : Nat) : (s.wr k n v).fe = s.fe := rfl
@[simp] theorem State.wr_agenda (s : State) (k n v : Nat) : (s.wr k n v).agenda = s.agenda := rfl
@[simp] theorem State.wr_pool (s : State) (k n v : Nat) : (s.wr k n v).pool = s.pool := rfl
@[simp] theorem State.wr_plan (s : State) (k n v : Nat) : (s.wr k n v).plan = s.plan := rfl
@[simp] theorem State.wr_nextId (s : State) (k n v : Nat) : (s.wr k n v).nextId = s.nextId := rfl
@[simp] theorem State.wr_fresh (s : State) (k n v : Nat) : (s.wr k n v).fresh = s.fresh := rfl
@[simp] theorem State.wr_cur (s : State) (k n v : Nat) : (s.wr k n v).cur = s.cur := rfl
@[simp] theorem State.wr_word (s : State) (k n v : Nat) : (s.wr k n v).word = s.word := rfl

/-! ### `State.zero` -/

@[simp] theorem State.zero_cycle (s : State) (k n : Nat) : (s.zero k n).cycle = s.cycle := rfl
@[simp] theorem State.zero_threads (s : State) (k n : Nat) : (s.zero k n).threads = s.threads := rfl
@[simp] theorem State.zero_cores (s : State) (k n : Nat) : (s.zero k n).cores = s.cores := rfl
@[simp] theorem State.zero_slots (s : State) (k n : Nat) : (s.zero k n).slots = s.slots := rfl
@[simp] theorem State.zero_clusters (s : State) (k n : Nat) : (s.zero k n).clusters = s.clusters := rfl
@[simp] theorem State.zero_dies (s : State) (k n : Nat) : (s.zero k n).dies = s.dies := rfl
@[simp] theorem State.zero_ring (s : State) (k n : Nat) : (s.zero k n).ring = s.ring := rfl
@[simp] theorem State.zero_pkg (s : State) (k n : Nat) : (s.zero k n).pkg = s.pkg := rfl
@[simp] theorem State.zero_out (s : State) (k n : Nat) : (s.zero k n).out = s.out := rfl
@[simp] theorem State.zero_fe (s : State) (k n : Nat) : (s.zero k n).fe = s.fe := rfl
@[simp] theorem State.zero_agenda (s : State) (k n : Nat) : (s.zero k n).agenda = s.agenda := rfl
@[simp] theorem State.zero_pool (s : State) (k n : Nat) : (s.zero k n).pool = s.pool := rfl
@[simp] theorem State.zero_plan (s : State) (k n : Nat) : (s.zero k n).plan = s.plan := rfl
@[simp] theorem State.zero_nextId (s : State) (k n : Nat) : (s.zero k n).nextId = s.nextId := rfl
@[simp] theorem State.zero_fresh (s : State) (k n : Nat) : (s.zero k n).fresh = s.fresh := rfl
@[simp] theorem State.zero_cur (s : State) (k n : Nat) : (s.zero k n).cur = s.cur := rfl
@[simp] theorem State.zero_word (s : State) (k n : Nat) : (s.zero k n).word = s.word := rfl

/-! ### `State.setFe` -/

@[simp] theorem State.setFe_cycle (s : State) (c off : Nat) (b : Bool) : (s.setFe c off b).cycle = s.cycle := rfl
@[simp] theorem State.setFe_threads (s : State) (c off : Nat) (b : Bool) : (s.setFe c off b).threads = s.threads := rfl
@[simp] theorem State.setFe_cores (s : State) (c off : Nat) (b : Bool) : (s.setFe c off b).cores = s.cores := rfl
@[simp] theorem State.setFe_slots (s : State) (c off : Nat) (b : Bool) : (s.setFe c off b).slots = s.slots := rfl
@[simp] theorem State.setFe_clusters (s : State) (c off : Nat) (b : Bool) : (s.setFe c off b).clusters = s.clusters := rfl
@[simp] theorem State.setFe_dies (s : State) (c off : Nat) (b : Bool) : (s.setFe c off b).dies = s.dies := rfl
@[simp] theorem State.setFe_ring (s : State) (c off : Nat) (b : Bool) : (s.setFe c off b).ring = s.ring := rfl
@[simp] theorem State.setFe_pkg (s : State) (c off : Nat) (b : Bool) : (s.setFe c off b).pkg = s.pkg := rfl
@[simp] theorem State.setFe_out (s : State) (c off : Nat) (b : Bool) : (s.setFe c off b).out = s.out := rfl
@[simp] theorem State.setFe_mem (s : State) (c off : Nat) (b : Bool) : (s.setFe c off b).mem = s.mem := rfl
@[simp] theorem State.setFe_ecc (s : State) (c off : Nat) (b : Bool) : (s.setFe c off b).ecc = s.ecc := rfl
@[simp] theorem State.setFe_agenda (s : State) (c off : Nat) (b : Bool) : (s.setFe c off b).agenda = s.agenda := rfl
@[simp] theorem State.setFe_pool (s : State) (c off : Nat) (b : Bool) : (s.setFe c off b).pool = s.pool := rfl
@[simp] theorem State.setFe_plan (s : State) (c off : Nat) (b : Bool) : (s.setFe c off b).plan = s.plan := rfl
@[simp] theorem State.setFe_nextId (s : State) (c off : Nat) (b : Bool) : (s.setFe c off b).nextId = s.nextId := rfl
@[simp] theorem State.setFe_fresh (s : State) (c off : Nat) (b : Bool) : (s.setFe c off b).fresh = s.fresh := rfl
@[simp] theorem State.setFe_cur (s : State) (c off : Nat) (b : Bool) : (s.setFe c off b).cur = s.cur := rfl
@[simp] theorem State.setFe_word (s : State) (c off : Nat) (b : Bool) : (s.setFe c off b).word = s.word := rfl

/-! ### `State.fillFe` -/

@[simp] theorem State.fillFe_cycle (s : State) (c off n : Nat) : (s.fillFe c off n).cycle = s.cycle := rfl
@[simp] theorem State.fillFe_threads (s : State) (c off n : Nat) : (s.fillFe c off n).threads = s.threads := rfl
@[simp] theorem State.fillFe_cores (s : State) (c off n : Nat) : (s.fillFe c off n).cores = s.cores := rfl
@[simp] theorem State.fillFe_slots (s : State) (c off n : Nat) : (s.fillFe c off n).slots = s.slots := rfl
@[simp] theorem State.fillFe_clusters (s : State) (c off n : Nat) : (s.fillFe c off n).clusters = s.clusters := rfl
@[simp] theorem State.fillFe_dies (s : State) (c off n : Nat) : (s.fillFe c off n).dies = s.dies := rfl
@[simp] theorem State.fillFe_ring (s : State) (c off n : Nat) : (s.fillFe c off n).ring = s.ring := rfl
@[simp] theorem State.fillFe_pkg (s : State) (c off n : Nat) : (s.fillFe c off n).pkg = s.pkg := rfl
@[simp] theorem State.fillFe_out (s : State) (c off n : Nat) : (s.fillFe c off n).out = s.out := rfl
@[simp] theorem State.fillFe_mem (s : State) (c off n : Nat) : (s.fillFe c off n).mem = s.mem := rfl
@[simp] theorem State.fillFe_ecc (s : State) (c off n : Nat) : (s.fillFe c off n).ecc = s.ecc := rfl
@[simp] theorem State.fillFe_agenda (s : State) (c off n : Nat) : (s.fillFe c off n).agenda = s.agenda := rfl
@[simp] theorem State.fillFe_pool (s : State) (c off n : Nat) : (s.fillFe c off n).pool = s.pool := rfl
@[simp] theorem State.fillFe_plan (s : State) (c off n : Nat) : (s.fillFe c off n).plan = s.plan := rfl
@[simp] theorem State.fillFe_nextId (s : State) (c off n : Nat) : (s.fillFe c off n).nextId = s.nextId := rfl
@[simp] theorem State.fillFe_fresh (s : State) (c off n : Nat) : (s.fillFe c off n).fresh = s.fresh := rfl
@[simp] theorem State.fillFe_cur (s : State) (c off n : Nat) : (s.fillFe c off n).cur = s.cur := rfl
@[simp] theorem State.fillFe_word (s : State) (c off n : Nat) : (s.fillFe c off n).word = s.word := rfl

/-! ### `State.modThread` -/

@[simp] theorem State.modThread_cycle (s : State) (k : Tid) (f : Thread → Thread) : (s.modThread k f).cycle = s.cycle := by
  unfold State.modThread; split <;> rfl
@[simp] theorem State.modThread_cores (s : State) (k : Tid) (f : Thread → Thread) : (s.modThread k f).cores = s.cores := by
  unfold State.modThread; split <;> rfl
@[simp] theorem State.modThread_slots (s : State) (k : Tid) (f : Thread → Thread) : (s.modThread k f).slots = s.slots := by
  unfold State.modThread; split <;> rfl
@[simp] theorem State.modThread_clusters (s : State) (k : Tid) (f : Thread → Thread) : (s.modThread k f).clusters = s.clusters := by
  unfold State.modThread; split <;> rfl
@[simp] theorem State.modThread_dies (s : State) (k : Tid) (f : Thread → Thread) : (s.modThread k f).dies = s.dies := by
  unfold State.modThread; split <;> rfl
@[simp] theorem State.modThread_ring (s : State) (k : Tid) (f : Thread → Thread) : (s.modThread k f).ring = s.ring := by
  unfold State.modThread; split <;> rfl
@[simp] theorem State.modThread_pkg (s : State) (k : Tid) (f : Thread → Thread) : (s.modThread k f).pkg = s.pkg := by
  unfold State.modThread; split <;> rfl
@[simp] theorem State.modThread_out (s : State) (k : Tid) (f : Thread → Thread) : (s.modThread k f).out = s.out := by
  unfold State.modThread; split <;> rfl
@[simp] theorem State.modThread_mem (s : State) (k : Tid) (f : Thread → Thread) : (s.modThread k f).mem = s.mem := by
  unfold State.modThread; split <;> rfl
@[simp] theorem State.modThread_fe (s : State) (k : Tid) (f : Thread → Thread) : (s.modThread k f).fe = s.fe := by
  unfold State.modThread; split <;> rfl
@[simp] theorem State.modThread_ecc (s : State) (k : Tid) (f : Thread → Thread) : (s.modThread k f).ecc = s.ecc := by
  unfold State.modThread; split <;> rfl
@[simp] theorem State.modThread_agenda (s : State) (k : Tid) (f : Thread → Thread) : (s.modThread k f).agenda = s.agenda := by
  unfold State.modThread; split <;> rfl
@[simp] theorem State.modThread_pool (s : State) (k : Tid) (f : Thread → Thread) : (s.modThread k f).pool = s.pool := by
  unfold State.modThread; split <;> rfl
@[simp] theorem State.modThread_plan (s : State) (k : Tid) (f : Thread → Thread) : (s.modThread k f).plan = s.plan := by
  unfold State.modThread; split <;> rfl
@[simp] theorem State.modThread_nextId (s : State) (k : Tid) (f : Thread → Thread) : (s.modThread k f).nextId = s.nextId := by
  unfold State.modThread; split <;> rfl
@[simp] theorem State.modThread_fresh (s : State) (k : Tid) (f : Thread → Thread) : (s.modThread k f).fresh = s.fresh := by
  unfold State.modThread; split <;> rfl
@[simp] theorem State.modThread_cur (s : State) (k : Tid) (f : Thread → Thread) : (s.modThread k f).cur = s.cur := by
  unfold State.modThread; split <;> rfl
@[simp] theorem State.modThread_word (s : State) (k : Tid) (f : Thread → Thread) : (s.modThread k f).word = s.word := by
  unfold State.modThread; split <;> rfl

/-! ### `State.setMask` -/

@[simp] theorem State.setMask_cycle (s : State) (t : Thread) (n : BitVec 3) (x : BitVec 128) : (s.setMask t n x).cycle = s.cycle := by
  unfold State.setMask; split <;> rfl
@[simp] theorem State.setMask_threads (s : State) (t : Thread) (n : BitVec 3) (x : BitVec 128) : (s.setMask t n x).threads = s.threads := by
  unfold State.setMask; split <;> rfl
@[simp] theorem State.setMask_cores (s : State) (t : Thread) (n : BitVec 3) (x : BitVec 128) : (s.setMask t n x).cores = s.cores := by
  unfold State.setMask; split <;> rfl
@[simp] theorem State.setMask_clusters (s : State) (t : Thread) (n : BitVec 3) (x : BitVec 128) : (s.setMask t n x).clusters = s.clusters := by
  unfold State.setMask; split <;> rfl
@[simp] theorem State.setMask_dies (s : State) (t : Thread) (n : BitVec 3) (x : BitVec 128) : (s.setMask t n x).dies = s.dies := by
  unfold State.setMask; split <;> rfl
@[simp] theorem State.setMask_ring (s : State) (t : Thread) (n : BitVec 3) (x : BitVec 128) : (s.setMask t n x).ring = s.ring := by
  unfold State.setMask; split <;> rfl
@[simp] theorem State.setMask_pkg (s : State) (t : Thread) (n : BitVec 3) (x : BitVec 128) : (s.setMask t n x).pkg = s.pkg := by
  unfold State.setMask; split <;> rfl
@[simp] theorem State.setMask_out (s : State) (t : Thread) (n : BitVec 3) (x : BitVec 128) : (s.setMask t n x).out = s.out := by
  unfold State.setMask; split <;> rfl
@[simp] theorem State.setMask_mem (s : State) (t : Thread) (n : BitVec 3) (x : BitVec 128) : (s.setMask t n x).mem = s.mem := by
  unfold State.setMask; split <;> rfl
@[simp] theorem State.setMask_fe (s : State) (t : Thread) (n : BitVec 3) (x : BitVec 128) : (s.setMask t n x).fe = s.fe := by
  unfold State.setMask; split <;> rfl
@[simp] theorem State.setMask_ecc (s : State) (t : Thread) (n : BitVec 3) (x : BitVec 128) : (s.setMask t n x).ecc = s.ecc := by
  unfold State.setMask; split <;> rfl
@[simp] theorem State.setMask_agenda (s : State) (t : Thread) (n : BitVec 3) (x : BitVec 128) : (s.setMask t n x).agenda = s.agenda := by
  unfold State.setMask; split <;> rfl
@[simp] theorem State.setMask_pool (s : State) (t : Thread) (n : BitVec 3) (x : BitVec 128) : (s.setMask t n x).pool = s.pool := by
  unfold State.setMask; split <;> rfl
@[simp] theorem State.setMask_plan (s : State) (t : Thread) (n : BitVec 3) (x : BitVec 128) : (s.setMask t n x).plan = s.plan := by
  unfold State.setMask; split <;> rfl
@[simp] theorem State.setMask_nextId (s : State) (t : Thread) (n : BitVec 3) (x : BitVec 128) : (s.setMask t n x).nextId = s.nextId := by
  unfold State.setMask; split <;> rfl
@[simp] theorem State.setMask_fresh (s : State) (t : Thread) (n : BitVec 3) (x : BitVec 128) : (s.setMask t n x).fresh = s.fresh := by
  unfold State.setMask; split <;> rfl
@[simp] theorem State.setMask_cur (s : State) (t : Thread) (n : BitVec 3) (x : BitVec 128) : (s.setMask t n x).cur = s.cur := by
  unfold State.setMask; split <;> rfl
@[simp] theorem State.setMask_word (s : State) (t : Thread) (n : BitVec 3) (x : BitVec 128) : (s.setMask t n x).word = s.word := by
  unfold State.setMask; split <;> rfl

end Sys2Proof.Machine
end

