-- ==== Sys2Proof/Laws/Memory.lean ====
section
/-! SUPPORT. Memory's laws: every operation on memory and on the full/empty bits keeps the canonical form (log entry 1); a read
after a write gives what was written, and a write leaves every other byte alone. -/

set_option Elab.async false

namespace Sys2Proof.Machine

/-! ## Tables -/

/-- The keys of a canonical table all lie above `a`. -/
def Tab.above {α : Type} (a : Nat) (t : Tab α) : Prop := ∀ e ∈ t, a < e.1

theorem Tab.sorted_cons {α : Type} (k : Nat) (v : α) (r : Tab α) :
    Tab.sorted ((k, v) :: r) = true ↔ Tab.above k r ∧ Tab.sorted r = true := by
  induction r generalizing k v with
  | nil => simp [Tab.sorted, Tab.above]
  | cons e r ih =>
    obtain ⟨b, y⟩ := e
    simp only [Tab.sorted, Bool.and_eq_true, decide_eq_true_eq]
    constructor
    · rintro ⟨h, hs⟩
      refine ⟨?_, hs⟩
      intro e he
      rcases List.mem_cons.1 he with rfl | he
      · exact h
      · exact Nat.lt_trans h (((ih b y).1 hs).1 e he)
    · rintro ⟨h, hs⟩
      exact ⟨h (b, y) (by simp), hs⟩

theorem Tab.mem_set {α : Type} {t : Tab α} {a : Nat} {x : α} {e : Nat × α} (h : e ∈ t.set a x) : e = (a, x) ∨ e ∈ t := by
  induction t with
  | nil => exact .inl (by simpa [Tab.set] using h)
  | cons c r ih =>
    obtain ⟨k, v⟩ := c
    unfold Tab.set at h
    split at h
    · simpa using h
    · split at h
      · rcases List.mem_cons.1 h with rfl | h
        · exact .inl rfl
        · exact .inr (by simp [h])
      · rcases List.mem_cons.1 h with rfl | h
        · exact .inr (by simp)
        · exact (ih h).imp id fun m => by simp [m]

theorem Tab.mem_erase {α : Type} {t : Tab α} {a : Nat} {e : Nat × α} (h : e ∈ t.erase a) : e ∈ t := by
  induction t with
  | nil => simp [Tab.erase] at h
  | cons c r ih =>
    obtain ⟨k, v⟩ := c
    unfold Tab.erase at h
    split at h
    · exact List.mem_cons_of_mem _ (ih h)
    · rcases List.mem_cons.1 h with rfl | h
      · simp
      · exact List.mem_cons_of_mem _ (ih h)

theorem Tab.sorted_set {α : Type} {t : Tab α} (h : t.sorted = true) (a : Nat) (x : α) : (t.set a x).sorted = true := by
  induction t with
  | nil => rfl
  | cons c r ih =>
    obtain ⟨k, v⟩ := c
    have ⟨ha, hs⟩ := (Tab.sorted_cons k v r).1 h
    unfold Tab.set
    split
    · rename_i hk
      rw [Tab.sorted_cons]
      refine ⟨?_, h⟩
      intro e he
      rcases List.mem_cons.1 he with rfl | he
      · exact hk
      · exact Nat.lt_trans hk (ha e he)
    · split
      · rename_i hk
        subst hk
        exact (Tab.sorted_cons _ _ _).2 ⟨ha, hs⟩
      · rename_i h1 h2
        refine (Tab.sorted_cons _ _ _).2 ⟨?_, ih hs⟩
        intro e he
        rcases Tab.mem_set he with rfl | he
        · simp only; omega
        · exact ha e he

theorem Tab.sorted_erase {α : Type} {t : Tab α} (h : t.sorted = true) (a : Nat) : (t.erase a).sorted = true := by
  induction t with
  | nil => rfl
  | cons c r ih =>
    obtain ⟨k, v⟩ := c
    have ⟨ha, hs⟩ := (Tab.sorted_cons k v r).1 h
    unfold Tab.erase
    split
    · exact ih hs
    · exact (Tab.sorted_cons _ _ _).2 ⟨fun e he => ha e (Tab.mem_erase he), ih hs⟩

theorem Tab.sorted_filter {α : Type} {t : Tab α} (h : t.sorted = true) (p : Nat × α → Bool) :
    Tab.sorted (t.filter p) = true := by
  induction t with
  | nil => rfl
  | cons c r ih =>
    obtain ⟨k, v⟩ := c
    have ⟨ha, hs⟩ := (Tab.sorted_cons k v r).1 h
    by_cases hp : p (k, v) = true
    · rw [List.filter_cons_of_pos hp]
      exact (Tab.sorted_cons _ _ _).2 ⟨fun e he => ha e (List.mem_filter.1 he).1, ih hs⟩
    · rw [List.filter_cons_of_neg hp]
      exact ih hs

theorem Tab.wf_iff {α : Type} [DecidableEq α] {d : α} {t : Tab α} :
    Tab.wf d t = true ↔ t.sorted = true ∧ ∀ e ∈ t, e.2 ≠ d := by
  simp [Tab.wf]

/-- Writing in the canonical form keeps it. -/
theorem Tab.wf_put {α : Type} [DecidableEq α] {d : α} {t : Tab α} (h : Tab.wf d t = true) (a : Nat) (x : α) :
    Tab.wf d (t.put d a x) = true := by
  have ⟨hs, hd⟩ := Tab.wf_iff.1 h
  unfold Tab.put
  split
  · exact Tab.wf_iff.2 ⟨Tab.sorted_erase hs a, fun e he => hd e (Tab.mem_erase he)⟩
  · rename_i hx
    refine Tab.wf_iff.2 ⟨Tab.sorted_set hs a x, fun e he => ?_⟩
    rcases Tab.mem_set he with rfl | he
    · exact hx
    · exact hd e he

theorem Tab.wf_filter {α : Type} [DecidableEq α] {d : α} {t : Tab α} (h : Tab.wf d t = true) (p : Nat × α → Bool) :
    Tab.wf d (t.filter p) = true :=
  have ⟨hs, hd⟩ := Tab.wf_iff.1 h
  Tab.wf_iff.2 ⟨Tab.sorted_filter hs p, fun e he => hd e (List.mem_filter.1 he).1⟩

theorem Tab.find_erase_same {α : Type} (t : Tab α) (a : Nat) : (t.erase a).find a = none := by
  induction t with
  | nil => rfl
  | cons c r ih =>
    obtain ⟨k, v⟩ := c
    unfold Tab.erase
    split
    · exact ih
    · rename_i h
      simpa [Tab.find, h] using ih

theorem Tab.find_erase_other {α : Type} (t : Tab α) {a b : Nat} (h : b ≠ a) : (t.erase a).find b = t.find b := by
  induction t with
  | nil => rfl
  | cons c r ih =>
    obtain ⟨k, v⟩ := c
    unfold Tab.erase
    split
    · rename_i hk
      subst hk
      simp [Tab.find, Ne.symm h, ih]
    · simp [Tab.find, ih]

/-- A read after a write in the canonical form gives what was written. -/
theorem Tab.getD_put_same {α : Type} [DecidableEq α] (t : Tab α) (d : α) (a : Nat) (x : α) : (t.put d a x).getD a d = x := by
  unfold Tab.put Tab.getD
  split
  · rename_i h
    simp [Tab.find_erase_same, h]
  · simp [Tab.find_set_same]

/-- A write leaves every other entry. -/
theorem Tab.getD_put_other {α : Type} [DecidableEq α] (t : Tab α) (d : α) {a b : Nat} (x : α) (h : b ≠ a) :
    (t.put d a x).getD b d = t.getD b d := by
  unfold Tab.put Tab.getD
  split
  · rw [Tab.find_erase_other t h]
  · rw [Tab.find_set_other t a b x h]

/-! ## Memory -/

theorem wf_writeByte {m : Tab W8} (h : Memory.wf m) (k : Nat) (b : W8) : Memory.wf (writeByte m k b) := Tab.wf_put h k b

@[simp] theorem readByte_writeByte_same (m : Tab W8) (k : Nat) (b : W8) : readByte (writeByte m k b) k = b :=
  Tab.getD_put_same m unlisted k b

theorem readByte_writeByte_other (m : Tab W8) {k a : Nat} (b : W8) (h : a ≠ k) : readByte (writeByte m k b) a = readByte m a :=
  Tab.getD_put_other m unlisted b h

theorem wf_writeLE {m : Tab W8} (h : Memory.wf m) (k n v : Nat) : Memory.wf (writeLE m k n v) := by
  induction n generalizing m k v with
  | zero => exact h
  | succ n ih => exact ih (wf_writeByte h _ _) _ _

theorem wf_writeMasked {m : Tab W8} (h : Memory.wf m) (k mask n v : Nat) : Memory.wf (writeMasked m k mask n v) := by
  induction n generalizing m k mask v with
  | zero => exact h
  | succ n ih =>
    unfold writeMasked
    split
    · exact ih (wf_writeByte h _ _) _ _ _
    · exact ih h _ _ _

/-- A write of `n` bytes leaves every byte outside them. -/
theorem readByte_writeLE_other (m : Tab W8) (k n v a : Nat) (h : a < k ∨ k + n ≤ a) : readByte (writeLE m k n v) a = readByte m a := by
  induction n generalizing m k v with
  | zero => rfl
  | succ n ih =>
    unfold writeLE
    rw [ih _ _ _ (by omega), readByte_writeByte_other _ _ (by omega)]

theorem readByte_writeMasked_other (m : Tab W8) (k mask n v a : Nat) (h : a < k ∨ k + n ≤ a) :
    readByte (writeMasked m k mask n v) a = readByte m a := by
  induction n generalizing m k mask v with
  | zero => rfl
  | succ n ih =>
    unfold writeMasked
    rw [ih _ _ _ _ (by omega)]
    split
    · exact readByte_writeByte_other _ _ (by omega)
    · rfl

/-- A read is the same in two memories that agree on its bytes. -/
theorem readLE_congr {m m' : Tab W8} {k n : Nat} (h : ∀ a, k ≤ a → a < k + n → readByte m' a = readByte m a) :
    readLE m' k n = readLE m k n := by
  induction n generalizing k with
  | zero => rfl
  | succ n ih =>
    unfold readLE
    rw [h k (by omega) (by omega), ih fun a h1 h2 => h a (by omega) (by omega)]

/-- A read of the bytes just written gives the value's low bytes. -/
theorem readLE_writeLE_same (m : Tab W8) (k n v : Nat) : readLE (writeLE m k n v) k n = v % 256 ^ n := by
  induction n generalizing m k v with
  | zero => simp [readLE, Nat.mod_one]
  | succ n ih =>
    unfold readLE writeLE
    rw [ih, readByte_writeLE_other _ _ _ _ _ (by omega), readByte_writeByte_same, BitVec.toNat_ofNat,
      show 256 ^ (n + 1) = 256 * 256 ^ n by rw [Nat.pow_succ, Nat.mul_comm], Nat.mod_mul]

theorem readLE_writeLE_other (m : Tab W8) (k n v a j : Nat) (h : a + j ≤ k ∨ k + n ≤ a) :
    readLE (writeLE m k n v) a j = readLE m a j :=
  readLE_congr fun b h1 h2 => readByte_writeLE_other m k n v b (by omega)

/-- A value read is below 256^n. -/
theorem readLE_lt (m : Tab W8) (k n : Nat) : readLE m k n < 256 ^ n := by
  induction n generalizing k with
  | zero => simp [readLE]
  | succ n ih =>
    have h := ih (k + 1)
    have h1 := (readByte m k).isLt
    unfold readLE
    rw [Nat.pow_succ]
    omega

/-! ## The state -/

theorem State.canonical_reset : State.reset.Canonical := ⟨rfl, rfl⟩

/-- The canonical form is about memory and the full/empty bits alone. -/
theorem State.Canonical.of_eq {s t : State} (h : s.Canonical) (hm : t.mem = s.mem) (hf : t.fe = s.fe) : t.Canonical :=
  ⟨hm ▸ h.mem, hf ▸ h.fe⟩

theorem State.Canonical.setThread {s : State} (h : s.Canonical) (k : Tid) (th : Thread) : (s.setThread k th).Canonical :=
  h.of_eq rfl rfl

theorem State.Canonical.modThread {s : State} (h : s.Canonical) (k : Tid) (f : Thread → Thread) : (s.modThread k f).Canonical :=
  h.of_eq (by simp) (by simp)

theorem State.Canonical.wr {s : State} (h : s.Canonical) (k n v : Nat) : (s.wr k n v).Canonical :=
  ⟨wf_writeLE h.mem k n v, h.fe⟩

theorem State.Canonical.zero {s : State} (h : s.Canonical) (k n : Nat) : (s.zero k n).Canonical := ⟨Tab.wf_filter h.mem _, h.fe⟩

theorem State.Canonical.setFe {s : State} (h : s.Canonical) (c off : Nat) (b : Bool) : (s.setFe c off b).Canonical :=
  ⟨h.mem, Tab.wf_put h.fe _ _⟩

theorem State.Canonical.fillFe {s : State} (h : s.Canonical) (c off n : Nat) : (s.fillFe c off n).Canonical :=
  ⟨h.mem, Tab.wf_filter h.fe _⟩

@[simp] theorem State.l2Touch_mem (s : State) (line : Nat) (code : BitVec 2) (w : Bool) : (s.l2Touch line code w).mem = s.mem := by
  unfold State.l2Touch; split <;> rfl

@[simp] theorem State.l2Touch_fe (s : State) (line : Nat) (code : BitVec 2) (w : Bool) : (s.l2Touch line code w).fe = s.fe := by
  unfold State.l2Touch; split <;> rfl

theorem State.Canonical.writeHome {s : State} (h : s.Canonical) (k n v : Nat) : (s.writeHome k n v).Canonical :=
  (h.wr k n v).of_eq (State.l2Touch_mem _ _ _ _) (State.l2Touch_fe _ _ _ _)

theorem State.Canonical.writeHomeLine {s : State} (h : s.Canonical) (line : Nat) (mask : W64) (d : BitVec 512) (code : BitVec 2) :
    (s.writeHomeLine line mask d code).Canonical :=
  State.Canonical.of_eq (s := { s with mem := writeMasked s.mem (line * 64) mask.toNat 64 d.toNat })
    ⟨wf_writeMasked h.mem _ _ _ _, h.fe⟩ (State.l2Touch_mem _ _ _ _) (State.l2Touch_fe _ _ _ _)

/-- A byte outside a write keeps its value in the state after it. -/
theorem State.rd_wr_other (s : State) (k n v a j : Nat) (h : a + j ≤ k ∨ k + n ≤ a) : (s.wr k n v).rd a j = s.rd a j :=
  readLE_writeLE_other s.mem k n v a j h

theorem State.rd_wr_same (s : State) (k n v : Nat) : (s.wr k n v).rd k n = v % 256 ^ n := readLE_writeLE_same s.mem k n v

/-- Cleared bytes read zero. -/
theorem readByte_zero (s : State) (k n a : Nat) (h : k ≤ a) (h' : a < k + n) : readByte (s.zero k n).mem a = 0 := by
  have key : ∀ t : Tab W8, Tab.find (t.filter fun e => decide (e.1 < k) || decide (k + n ≤ e.1)) a = none := by
    intro t
    induction t with
    | nil => rfl
    | cons c r ih =>
      obtain ⟨b, y⟩ := c
      by_cases hb : b < k ∨ k + n ≤ b
      · rw [List.filter_cons_of_pos (by simpa using hb)]
        have : b ≠ a := by omega
        simpa [Tab.find, this] using ih
      · rw [List.filter_cons_of_neg (by simpa using hb)]
        exact ih
  simp [readByte, Tab.getD, State.zero, key, unlisted]

end Sys2Proof.Machine
end

