-- ==== Sys2Proof/Laws/PerInstr.lean ====
section
/-! SUPPORT. The family `Encode` of statements about one instruction: its word decodes to it (R46-R73). A step that is no
instruction word has no word. -/

set_option Elab.async false
set_option linter.unusedSimpArgs false

namespace Sys2Proof.Laws.Encode

/-- The word of a well-formed instruction decodes to that instruction, and a reserved word to no instruction. -/
def Statement : Instr → Prop
  | .reservedEncoding w => encode (.reservedEncoding w) = some w ∧ ∀ r, decode w = .error r → decodeIssue w = .reservedEncoding w
  | i => ∀ w, encode i = some w → wellFormed i = true → decode w = .ok i


theorem faultMessageDelivery : ∀ z0, Statement (.faultMessageDelivery z0) := by
  intro z0 w hw hwf
  exact absurd hw (nofun)

theorem loadCompletion : ∀ z0, Statement (.loadCompletion z0) := by
  intro z0 w hw hwf
  exact absurd hw (nofun)

theorem storePerformAtHome : ∀ z0, Statement (.storePerformAtHome z0) := by
  intro z0 w hw hwf
  exact absurd hw (nofun)

theorem atomicAtHome : ∀ z0, Statement (.atomicAtHome z0) := by
  intro z0 w hw hwf
  exact absurd hw (nofun)

theorem remoteUpdate : ∀ z0, Statement (.remoteUpdate z0) := by
  intro z0 w hw hwf
  exact absurd hw (nofun)

theorem migrationDeparture : ∀ z0 z1, Statement (.migrationDeparture z0 z1) := by
  intro z0 z1 w hw hwf
  exact absurd hw (nofun)

theorem migrationArrival : ∀ z0, Statement (.migrationArrival z0) := by
  intro z0 w hw hwf
  exact absurd hw (nofun)

theorem codeAbsent : ∀ z0 z1, Statement (.codeAbsent z0 z1) := by
  intro z0 z1 w hw hwf
  exact absurd hw (nofun)

theorem codeStartMessage : ∀ z0 z1 z2, Statement (.codeStartMessage z0 z1 z2) := by
  intro z0 z1 z2 w hw hwf
  exact absurd hw (nofun)

theorem codeRefusal : ∀ z0 z1, Statement (.codeRefusal z0 z1) := by
  intro z0 z1 w hw hwf
  exact absurd hw (nofun)

theorem syncAccessServe : ∀ z0, Statement (.syncAccessServe z0) := by
  intro z0 w hw hwf
  exact absurd hw (nofun)

theorem syncRetryLimit : ∀ z0, Statement (.syncRetryLimit z0) := by
  intro z0 w hw hwf
  exact absurd hw (nofun)

theorem mailboxDelivery : ∀ z0, Statement (.mailboxDelivery z0) := by
  intro z0 w hw hwf
  exact absurd hw (nofun)

theorem resumeMessage : ∀ z0, Statement (.resumeMessage z0) := by
  intro z0 w hw hwf
  exact absurd hw (nofun)

theorem clusterControlWrite : ∀ z0, Statement (.clusterControlWrite z0) := by
  intro z0 w hw hwf
  exact absurd hw (nofun)

theorem clusterControlRead : ∀ z0, Statement (.clusterControlRead z0) := by
  intro z0 w hw hwf
  exact absurd hw (nofun)

theorem barrierRelease : ∀ z0, Statement (.barrierRelease z0) := by
  intro z0 w hw hwf
  exact absurd hw (nofun)

theorem heldFpTrapDelivery : ∀ z0, Statement (.heldFpTrapDelivery z0) := by
  intro z0 w hw hwf
  exact absurd hw (nofun)

theorem mmaEngineStart : ∀ z0, Statement (.mmaEngineStart z0) := by
  intro z0 w hw hwf
  exact absurd hw (nofun)

theorem mmaOperandsConsumed : ∀ z0, Statement (.mmaOperandsConsumed z0) := by
  intro z0 w hw hwf
  exact absurd hw (nofun)

theorem mmaCompletion : ∀ z0, Statement (.mmaCompletion z0) := by
  intro z0 w hw hwf
  exact absurd hw (nofun)

theorem accTransferCompletion : ∀ z0, Statement (.accTransferCompletion z0) := by
  intro z0 w hw hwf
  exact absurd hw (nofun)

theorem copyEngineStart : ∀ z0, Statement (.copyEngineStart z0) := by
  intro z0 w hw hwf
  exact absurd hw (nofun)

theorem copyCompletion : ∀ z0, Statement (.copyCompletion z0) := by
  intro z0 w hw hwf
  exact absurd hw (nofun)

theorem engineFiring : ∀ z0 z1, Statement (.engineFiring z0 z1) := by
  intro z0 z1 w hw hwf
  exact absurd hw (nofun)

theorem firingOperandsConsumed : ∀ z0 z1, Statement (.firingOperandsConsumed z0 z1) := by
  intro z0 z1 w hw hwf
  exact absurd hw (nofun)

theorem firingCompletion : ∀ z0 z1, Statement (.firingCompletion z0 z1) := by
  intro z0 z1 w hw hwf
  exact absurd hw (nofun)

theorem bankGateEffect : ∀ z0 z1, Statement (.bankGateEffect z0 z1) := by
  intro z0 z1 w hw hwf
  exact absurd hw (nofun)

theorem bankWakeEnd : ∀ z0 z1, Statement (.bankWakeEnd z0 z1) := by
  intro z0 z1 w hw hwf
  exact absurd hw (nofun)

theorem allocationClearDone : ∀ z0, Statement (.allocationClearDone z0) := by
  intro z0 w hw hwf
  exact absurd hw (nofun)

theorem releaseClearDone : ∀ z0 z1, Statement (.releaseClearDone z0 z1) := by
  intro z0 z1 w hw hwf
  exact absurd hw (nofun)

theorem storeBufferDrain : ∀ z0 z1, Statement (.storeBufferDrain z0 z1) := by
  intro z0 z1 w hw hwf
  exact absurd hw (nofun)

theorem signaturePlacement : ∀ z0 z1, Statement (.signaturePlacement z0 z1) := by
  intro z0 z1 w hw hwf
  exact absurd hw (nofun)

theorem releaseProbeEcho : ∀ z0 z1, Statement (.releaseProbeEcho z0 z1) := by
  intro z0 z1 w hw hwf
  exact absurd hw (nofun)

theorem writeLogAppend : ∀ z0, Statement (.writeLogAppend z0) := by
  intro z0 w hw hwf
  exact absurd hw (nofun)

theorem dirtyLogMerge : ∀ z0, Statement (.dirtyLogMerge z0) := by
  intro z0 w hw hwf
  exact absurd hw (nofun)

theorem deadlockSweep : Statement .deadlockSweep := by
  intro w hw hwf
  exact absurd hw (nofun)

theorem chunkCommit : ∀ z0, Statement (.chunkCommit z0) := by
  intro z0 w hw hwf
  exact absurd hw (nofun)

theorem regionSquash : ∀ z0, Statement (.regionSquash z0) := by
  intro z0 w hw hwf
  exact absurd hw (nofun)

theorem taskStart : ∀ z0, Statement (.taskStart z0) := by
  intro z0 w hw hwf
  exact absurd hw (nofun)

theorem launchCompletion : ∀ z0, Statement (.launchCompletion z0) := by
  intro z0 w hw hwf
  exact absurd hw (nofun)

theorem walkerHandout : ∀ z0 z1, Statement (.walkerHandout z0 z1) := by
  intro z0 z1 w hw hwf
  exact absurd hw (nofun)

theorem walkerSplit : ∀ z0 z1 z2, Statement (.walkerSplit z0 z1 z2) := by
  intro z0 z1 z2 w hw hwf
  exact absurd hw (nofun)

theorem preemptionRequest : Statement .preemptionRequest := by
  intro w hw hwf
  exact absurd hw (nofun)

theorem preemptSafePointStop : ∀ z0, Statement (.preemptSafePointStop z0) := by
  intro z0 w hw hwf
  exact absurd hw (nofun)

theorem preemptTimeoutStop : ∀ z0, Statement (.preemptTimeoutStop z0) := by
  intro z0 w hw hwf
  exact absurd hw (nofun)

theorem preemptionSave : Statement .preemptionSave := by
  intro w hw hwf
  exact absurd hw (nofun)

theorem preemptionResume : Statement .preemptionResume := by
  intro w hw hwf
  exact absurd hw (nofun)

theorem umeCfgBlockRead : ∀ z0, Statement (.umeCfgBlockRead z0) := by
  intro z0 w hw hwf
  exact absurd hw (nofun)

theorem umeRoundExecution : ∀ z0, Statement (.umeRoundExecution z0) := by
  intro z0 w hw hwf
  exact absurd hw (nofun)

theorem umeRoundCompletion : ∀ z0, Statement (.umeRoundCompletion z0) := by
  intro z0 w hw hwf
  exact absurd hw (nofun)

theorem stationPassage : ∀ z0 z1, Statement (.stationPassage z0 z1) := by
  intro z0 z1 w hw hwf
  exact absurd hw (nofun)

theorem seamCrossing : ∀ z0, Statement (.seamCrossing z0) := by
  intro z0 w hw hwf
  exact absurd hw (nofun)

theorem holdBreak : ∀ z0, Statement (.holdBreak z0) := by
  intro z0 w hw hwf
  exact absurd hw (nofun)

theorem flitData : ∀ z0 z1 z2, Statement (.flitData z0 z1 z2) := by
  intro z0 z1 z2 w hw hwf
  exact absurd hw (nofun)

theorem flitReplayRequest : ∀ z0 z1, Statement (.flitReplayRequest z0 z1) := by
  intro z0 z1 w hw hwf
  exact absurd hw (nofun)

theorem flitAcknowledge : ∀ z0 z1, Statement (.flitAcknowledge z0 z1) := by
  intro z0 z1 w hw hwf
  exact absurd hw (nofun)

theorem flitIdle : ∀ z0 z1, Statement (.flitIdle z0 z1) := by
  intro z0 z1 w hw hwf
  exact absurd hw (nofun)

theorem laneSparing : ∀ z0 z1, Statement (.laneSparing z0 z1) := by
  intro z0 z1 w hw hwf
  exact absurd hw (nofun)

theorem portTraining : ∀ z0 z1, Statement (.portTraining z0 z1) := by
  intro z0 z1 w hw hwf
  exact absurd hw (nofun)

theorem portSurpriseDown : ∀ z0, Statement (.portSurpriseDown z0) := by
  intro z0 w hw hwf
  exact absurd hw (nofun)

theorem copyPeerArrival : ∀ z0 z1 z2 z3 z4 z5, Statement (.copyPeerArrival z0 z1 z2 z3 z4 z5) := by
  intro z0 z1 z2 z3 z4 z5 w hw hwf
  exact absurd hw (nofun)

theorem fabricMessageArrival : ∀ z0, Statement (.fabricMessageArrival z0) := by
  intro z0 w hw hwf
  exact absurd hw (nofun)

theorem hostWrite : ∀ z0 z1 z2 z3, Statement (.hostWrite z0 z1 z2 z3) := by
  intro z0 z1 z2 z3 w hw hwf
  exact absurd hw (nofun)

theorem hostRead : ∀ z0 z1 z2, Statement (.hostRead z0 z1 z2) := by
  intro z0 z1 z2 w hw hwf
  exact absurd hw (nofun)

theorem doorbellWrite : ∀ z0 z1, Statement (.doorbellWrite z0 z1) := by
  intro z0 z1 w hw hwf
  exact absurd hw (nofun)

theorem hwakeWrite : ∀ z0 z1, Statement (.hwakeWrite z0 z1) := by
  intro z0 z1 w hw hwf
  exact absurd hw (nofun)

theorem mgmtReadRegister : ∀ z0, Statement (.mgmtReadRegister z0) := by
  intro z0 w hw hwf
  exact absurd hw (nofun)

theorem mgmtWriteRegister : ∀ z0 z1, Statement (.mgmtWriteRegister z0 z1) := by
  intro z0 z1 w hw hwf
  exact absurd hw (nofun)

theorem mgmtLoadOzrum : ∀ z0 z1, Statement (.mgmtLoadOzrum z0 z1) := by
  intro z0 z1 w hw hwf
  exact absurd hw (nofun)

theorem mgmtArmLaunch : ∀ z0, Statement (.mgmtArmLaunch z0) := by
  intro z0 w hw hwf
  exact absurd hw (nofun)

theorem trayQuiesce : Statement .trayQuiesce := by
  intro w hw hwf
  exact absurd hw (nofun)

theorem trayDrain : Statement .trayDrain := by
  intro w hw hwf
  exact absurd hw (nofun)

theorem trayPoweroff : Statement .trayPoweroff := by
  intro w hw hwf
  exact absurd hw (nofun)

theorem trayReinsertion : ∀ z0, Statement (.trayReinsertion z0) := by
  intro z0 w hw hwf
  exact absurd hw (nofun)

theorem pkgidWrite : ∀ z0, Statement (.pkgidWrite z0) := by
  intro z0 w hw hwf
  exact absurd hw (nofun)

theorem routeEntryWrite : ∀ z0 z1, Statement (.routeEntryWrite z0 z1) := by
  intro z0 z1 w hw hwf
  exact absurd hw (nofun)

theorem pcapRegisterWrite : ∀ z0 z1, Statement (.pcapRegisterWrite z0 z1) := by
  intro z0 z1 w hw hwf
  exact absurd hw (nofun)

theorem pcapStatusClear : ∀ z0, Statement (.pcapStatusClear z0) := by
  intro z0 w hw hwf
  exact absurd hw (nofun)

theorem wrlogWrite : ∀ z0 z1, Statement (.wrlogWrite z0 z1) := by
  intro z0 z1 w hw hwf
  exact absurd hw (nofun)

theorem lrverWrite : ∀ z0 z1, Statement (.lrverWrite z0 z1) := by
  intro z0 z1 w hw hwf
  exact absurd hw (nofun)

theorem registerWrite : ∀ z0 z1 z2, Statement (.registerWrite z0 z1 z2) := by
  intro z0 z1 z2 w hw hwf
  exact absurd hw (nofun)

theorem powerWindowBoundary : ∀ z0 z1, Statement (.powerWindowBoundary z0 z1) := by
  intro z0 z1 w hw hwf
  exact absurd hw (nofun)

theorem powerOnReset : ∀ z0, Statement (.powerOnReset z0) := by
  intro z0 w hw hwf
  exact absurd hw (nofun)

theorem heartbeatMiss : ∀ z0 z1 z2, Statement (.heartbeatMiss z0 z1 z2) := by
  intro z0 z1 z2 w hw hwf
  exact absurd hw (nofun)

theorem firmwareUpdate : ∀ z0 z1 z2, Statement (.firmwareUpdate z0 z1 z2) := by
  intro z0 z1 z2 w hw hwf
  exact absurd hw (nofun)

theorem coreLastingFault : ∀ z0, Statement (.coreLastingFault z0) := by
  intro z0 w hw hwf
  exact absurd hw (nofun)

theorem hbmUncorrectableRead : ∀ z0 z1 z2 z3, Statement (.hbmUncorrectableRead z0 z1 z2 z3) := by
  intro z0 z1 z2 z3 w hw hwf
  exact absurd hw (nofun)

theorem translationProbe : ∀ z0, Statement (.translationProbe z0) := by
  intro z0 w hw hwf
  exact absurd hw (nofun)

theorem faultAnswerRetry : ∀ z0 z1 z2 z3, Statement (.faultAnswerRetry z0 z1 z2 z3) := by
  intro z0 z1 z2 z3 w hw hwf
  exact absurd hw (nofun)

theorem faultAnswerFail : ∀ z0 z1, Statement (.faultAnswerFail z0 z1) := by
  intro z0 z1 w hw hwf
  exact absurd hw (nofun)

theorem spdmGetVersion : Statement .spdmGetVersion := by
  intro w hw hwf
  exact absurd hw (nofun)

theorem spdmGetCapabilities : Statement .spdmGetCapabilities := by
  intro w hw hwf
  exact absurd hw (nofun)

theorem spdmNegotiateAlgorithms : ∀ z0, Statement (.spdmNegotiateAlgorithms z0) := by
  intro z0 w hw hwf
  exact absurd hw (nofun)

theorem spdmGetDigests : Statement .spdmGetDigests := by
  intro w hw hwf
  exact absurd hw (nofun)

theorem spdmGetCertificate : ∀ z0 z1, Statement (.spdmGetCertificate z0 z1) := by
  intro z0 z1 w hw hwf
  exact absurd hw (nofun)

theorem spdmChallenge : ∀ z0, Statement (.spdmChallenge z0) := by
  intro z0 w hw hwf
  exact absurd hw (nofun)

theorem spdmGetMeasurements : ∀ z0, Statement (.spdmGetMeasurements z0) := by
  intro z0 w hw hwf
  exact absurd hw (nofun)

theorem tidReleaseMessage : ∀ z0, Statement (.tidReleaseMessage z0) := by
  intro z0 w hw hwf
  exact absurd hw (nofun)

theorem measurementExtendRequest : ∀ z0 z1, Statement (.measurementExtendRequest z0 z1) := by
  intro z0 z1 w hw hwf
  exact absurd hw (nofun)

theorem bra : ∀ o, Statement (.bra o) := by
  intro o w hw hwf
  replace hw := (Option.some.inj hw).symm
  have ho : opOf w = 0x01#8 := hw ▸ opOf_encBR ..
  refine decode_of w _ (by rw [ho]; decide) (by rw [ho]; decide) ?_ hwf
  rw [decodeOp_01 w ho]
  unfold decode01
  subst hw
  simp only [brPg_encBR, brPn_encBR, brOff_encBR]

theorem call : ∀ o, Statement (.call o) := by
  intro o w hw hwf
  replace hw := (Option.some.inj hw).symm
  have ho : opOf w = 0x02#8 := hw ▸ opOf_encBR ..
  refine decode_of w _ (by rw [ho]; decide) (by rw [ho]; decide) ?_ hwf
  rw [decodeOp_02 w ho]
  unfold decode02
  subst hw
  simp only [brPg_encBR, brPn_encBR, brOff_encBR]

theorem jrGo : ∀ o, Statement (.jrGo o) := by
  intro o w hw hwf
  replace hw := (Option.some.inj hw).symm
  have ho : opOf w = 0x03#8 := hw ▸ opOf_encRR ..
  refine decode_of w _ (by rw [ho]; decide) (by rw [ho]; decide) ?_ hwf
  rw [decodeOp_03 w ho]
  unfold decode03
  subst hw
  simp only [rrFn_encRR, rrSd_encRR, rrSa_encRR, rrSb_encRR, rrPg_encRR, rrPn_encRR, rrW_encRR]
  rfl

theorem jrLink : ∀ o, Statement (.jrLink o) := by
  intro o w hw hwf
  replace hw := (Option.some.inj hw).symm
  have ho : opOf w = 0x03#8 := hw ▸ opOf_encRR ..
  refine decode_of w _ (by rw [ho]; decide) (by rw [ho]; decide) ?_ hwf
  rw [decodeOp_03 w ho]
  unfold decode03
  subst hw
  simp only [rrFn_encRR, rrSd_encRR, rrSa_encRR, rrSb_encRR, rrPg_encRR, rrPn_encRR, rrW_encRR]
  rfl

theorem jrRet : ∀ o, Statement (.jrRet o) := by
  intro o w hw hwf
  replace hw := (Option.some.inj hw).symm
  have ho : opOf w = 0x03#8 := hw ▸ opOf_encRR ..
  refine decode_of w _ (by rw [ho]; decide) (by rw [ho]; decide) ?_ hwf
  rw [decodeOp_03 w ho]
  unfold decode03
  subst hw
  simp only [rrFn_encRR, rrSd_encRR, rrSa_encRR, rrSb_encRR, rrPg_encRR, rrPn_encRR, rrW_encRR]
  rfl

theorem taskExit : Statement .taskExit := by
  intro w hw hwf
  replace hw := (Option.some.inj hw).symm
  have ho : opOf w = 0x04#8 := hw ▸ opOf_encEN ..
  refine decode_of w _ (by rw [ho]; decide) (by rw [ho]; decide) ?_ hwf
  rw [decodeOp_04 w ho]
  unfold decode04
  subst hw
  simp only [enFn_encEN, enSa_encEN, enSb_encEN, enSd_encEN, enImm_encEN]
  rfl

theorem taskYield : Statement .taskYield := by
  intro w hw hwf
  replace hw := (Option.some.inj hw).symm
  have ho : opOf w = 0x04#8 := hw ▸ opOf_encEN ..
  refine decode_of w _ (by rw [ho]; decide) (by rw [ho]; decide) ?_ hwf
  rw [decodeOp_04 w ho]
  unfold decode04
  subst hw
  simp only [enFn_encEN, enSa_encEN, enSb_encEN, enSd_encEN, enImm_encEN]
  rfl

theorem taskPark : Statement .taskPark := by
  intro w hw hwf
  replace hw := (Option.some.inj hw).symm
  have ho : opOf w = 0x04#8 := hw ▸ opOf_encEN ..
  refine decode_of w _ (by rw [ho]; decide) (by rw [ho]; decide) ?_ hwf
  rw [decodeOp_04 w ho]
  unfold decode04
  subst hw
  simp only [enFn_encEN, enSa_encEN, enSb_encEN, enSd_encEN, enImm_encEN]
  rfl

theorem taskHaltHalt : ∀ sa sd, Statement (.taskHaltHalt sa sd) := by
  intro sa sd w hw hwf
  replace hw := (Option.some.inj hw).symm
  have ho : opOf w = 0x04#8 := hw ▸ opOf_encEN ..
  refine decode_of w _ (by rw [ho]; decide) (by rw [ho]; decide) ?_ hwf
  rw [decodeOp_04 w ho]
  unfold decode04
  subst hw
  simp only [enFn_encEN, enSa_encEN, enSb_encEN, enSd_encEN, enImm_encEN]
  rfl

theorem taskHaltResume : ∀ sa sd, Statement (.taskHaltResume sa sd) := by
  intro sa sd w hw hwf
  replace hw := (Option.some.inj hw).symm
  have ho : opOf w = 0x04#8 := hw ▸ opOf_encEN ..
  refine decode_of w _ (by rw [ho]; decide) (by rw [ho]; decide) ?_ hwf
  rw [decodeOp_04 w ho]
  unfold decode04
  subst hw
  simp only [enFn_encEN, enSa_encEN, enSb_encEN, enSd_encEN, enImm_encEN]
  rfl

theorem taskHaltRetire : ∀ sa sd, Statement (.taskHaltRetire sa sd) := by
  intro sa sd w hw hwf
  replace hw := (Option.some.inj hw).symm
  have ho : opOf w = 0x04#8 := hw ▸ opOf_encEN ..
  refine decode_of w _ (by rw [ho]; decide) (by rw [ho]; decide) ?_ hwf
  rw [decodeOp_04 w ho]
  unfold decode04
  subst hw
  simp only [enFn_encEN, enSa_encEN, enSb_encEN, enSd_encEN, enImm_encEN]
  rfl

theorem trapSys : ∀ code, Statement (.trapSys code) := by
  intro code w hw hwf
  replace hw := (Option.some.inj hw).symm
  have ho : opOf w = 0x05#8 := hw ▸ opOf_encEN ..
  refine decode_of w _ (by rw [ho]; decide) (by rw [ho]; decide) ?_ hwf
  rw [decodeOp_05 w ho]
  unfold decode05
  subst hw
  simp only [enFn_encEN, enSa_encEN, enSb_encEN, enSd_encEN, enImm_encEN]
  rfl

theorem trapBrk : ∀ code, Statement (.trapBrk code) := by
  intro code w hw hwf
  replace hw := (Option.some.inj hw).symm
  have ho : opOf w = 0x05#8 := hw ▸ opOf_encEN ..
  refine decode_of w _ (by rw [ho]; decide) (by rw [ho]; decide) ?_ hwf
  rw [decodeOp_05 w ho]
  unfold decode05
  subst hw
  simp only [enFn_encEN, enSa_encEN, enSb_encEN, enSd_encEN, enImm_encEN]
  rfl

theorem trapAssert : ∀ pa code, Statement (.trapAssert pa code) := by
  intro pa code w hw hwf
  replace hw := (Option.some.inj hw).symm
  have hz : w &&& (0x00080000 : W32) = 0#32 := by
    subst hw
    refine and_zero _ _ fun i hi h => ?_
    have hb : i = 19 := by revert i; decide
    rcases hb with rfl <;> (simp only [encEN, getLsbD_app, Nat.reduceLT, Nat.reduceSub, ↓reduceIte]; rfl)
  have h0 : BitVec.extractLsb' 0 4 (0#1 ++ pa : BitVec 5) = pa := by
    clear hw hwf hz; revert pa; decide
  have ho : opOf w = 0x05#8 := hw ▸ opOf_encEN ..
  refine decode_of w _ (by rw [ho]; decide) (by rw [ho]; decide) ?_ hwf
  rw [decodeOp_05 w ho]
  unfold decode05
  subst hw
  simp only [enFn_encEN, enSa_encEN, enSb_encEN, enSd_encEN, enImm_encEN, h0]
  exact zeros_ok hz _

theorem eret : Statement .eret := by
  intro w hw hwf
  replace hw := (Option.some.inj hw).symm
  have ho : opOf w = 0x06#8 := hw ▸ opOf_encEN ..
  refine decode_of w _ (by rw [ho]; decide) (by rw [ho]; decide) ?_ hwf
  rw [decodeOp_06 w ho]
  unfold decode06
  subst hw
  simp only [enFn_encEN, enSa_encEN, enSb_encEN, enSd_encEN, enImm_encEN]
  rfl

theorem sysrGet : ∀ sd sel, Statement (.sysrGet sd sel) := by
  intro sd sel w hw hwf
  replace hw := (Option.some.inj hw).symm
  have ho : opOf w = 0x07#8 := hw ▸ opOf_encEN ..
  refine decode_of w _ (by rw [ho]; decide) (by rw [ho]; decide) ?_ hwf
  rw [decodeOp_07 w ho]
  unfold decode07
  subst hw
  simp only [enFn_encEN, enSa_encEN, enSb_encEN, enSd_encEN, enImm_encEN]
  rfl

theorem sysrSet : ∀ sa sel, Statement (.sysrSet sa sel) := by
  intro sa sel w hw hwf
  replace hw := (Option.some.inj hw).symm
  have ho : opOf w = 0x07#8 := hw ▸ opOf_encEN ..
  refine decode_of w _ (by rw [ho]; decide) (by rw [ho]; decide) ?_ hwf
  rw [decodeOp_07 w ho]
  unfold decode07
  subst hw
  simp only [enFn_encEN, enSa_encEN, enSb_encEN, enSd_encEN, enImm_encEN]
  rfl

theorem sysrSetb : ∀ sa sel, Statement (.sysrSetb sa sel) := by
  intro sa sel w hw hwf
  replace hw := (Option.some.inj hw).symm
  have ho : opOf w = 0x07#8 := hw ▸ opOf_encEN ..
  refine decode_of w _ (by rw [ho]; decide) (by rw [ho]; decide) ?_ hwf
  rw [decodeOp_07 w ho]
  unfold decode07
  subst hw
  simp only [enFn_encEN, enSa_encEN, enSb_encEN, enSd_encEN, enImm_encEN]
  rfl

theorem sysrClrb : ∀ sa sel, Statement (.sysrClrb sa sel) := by
  intro sa sel w hw hwf
  replace hw := (Option.some.inj hw).symm
  have ho : opOf w = 0x07#8 := hw ▸ opOf_encEN ..
  refine decode_of w _ (by rw [ho]; decide) (by rw [ho]; decide) ?_ hwf
  rw [decodeOp_07 w ho]
  unfold decode07
  subst hw
  simp only [enFn_encEN, enSa_encEN, enSb_encEN, enSd_encEN, enImm_encEN]
  rfl

theorem modeSetrm : ∀ rm, Statement (.modeSetrm rm) := by
  intro rm w hw hwf
  replace hw := (Option.some.inj hw).symm
  have hz : w &&& (0x00000038 : W32) = 0#32 := by
    subst hw
    exact low_zero _ _ _ _ _ _ 0x38#6 (by clear hwf; revert rm; decide)
  have h0 : BitVec.extractLsb' 0 3 (0#3 ++ rm : BitVec 6) = rm := by
    clear hw hwf hz; revert rm; decide
  have ho : opOf w = 0x08#8 := hw ▸ opOf_encEN ..
  refine decode_of w _ (by rw [ho]; decide) (by rw [ho]; decide) ?_ hwf
  rw [decodeOp_08 w ho]
  unfold decode08
  subst hw
  simp only [enFn_encEN, enSa_encEN, enSb_encEN, enSd_encEN, enImm_encEN, h0]
  exact zeros_ok hz _

theorem modeMobile : Statement .modeMobile := by
  intro w hw hwf
  replace hw := (Option.some.inj hw).symm
  have ho : opOf w = 0x08#8 := hw ▸ opOf_encEN ..
  refine decode_of w _ (by rw [ho]; decide) (by rw [ho]; decide) ?_ hwf
  rw [decodeOp_08 w ho]
  unfold decode08
  subst hw
  simp only [enFn_encEN, enSa_encEN, enSb_encEN, enSd_encEN, enImm_encEN]
  rfl

theorem modeAnchor : Statement .modeAnchor := by
  intro w hw hwf
  replace hw := (Option.some.inj hw).symm
  have ho : opOf w = 0x08#8 := hw ▸ opOf_encEN ..
  refine decode_of w _ (by rw [ho]; decide) (by rw [ho]; decide) ?_ hwf
  rw [decodeOp_08 w ho]
  unfold decode08
  subst hw
  simp only [enFn_encEN, enSa_encEN, enSb_encEN, enSd_encEN, enImm_encEN]
  rfl

theorem modeGetfl : ∀ sd, Statement (.modeGetfl sd) := by
  intro sd w hw hwf
  replace hw := (Option.some.inj hw).symm
  have ho : opOf w = 0x08#8 := hw ▸ opOf_encEN ..
  refine decode_of w _ (by rw [ho]; decide) (by rw [ho]; decide) ?_ hwf
  rw [decodeOp_08 w ho]
  unfold decode08
  subst hw
  simp only [enFn_encEN, enSa_encEN, enSb_encEN, enSd_encEN, enImm_encEN]
  rfl

theorem modeClrfl : ∀ mask, Statement (.modeClrfl mask) := by
  intro mask w hw hwf
  replace hw := (Option.some.inj hw).symm
  have ho : opOf w = 0x08#8 := hw ▸ opOf_encEN ..
  refine decode_of w _ (by rw [ho]; decide) (by rw [ho]; decide) ?_ hwf
  rw [decodeOp_08 w ho]
  unfold decode08
  subst hw
  simp only [enFn_encEN, enSa_encEN, enSb_encEN, enSd_encEN, enImm_encEN]
  rfl

theorem mbxPost : ∀ sa sb sd prio, Statement (.mbxPost sa sb sd prio) := by
  intro sa sb sd prio w hw hwf
  replace hw := (Option.some.inj hw).symm
  have h0 : BitVec.extractLsb' 0 1 (0#5 ++ prio : BitVec 6) = prio := by
    clear hw hwf; revert prio; decide
  have ho : opOf w = 0x09#8 := hw ▸ opOf_encEN ..
  refine decode_of w _ (by rw [ho]; decide) (by rw [ho]; decide) ?_ hwf
  rw [decodeOp_09 w ho]
  unfold decode09
  subst hw
  simp only [enFn_encEN, enSa_encEN, enSb_encEN, enSd_encEN, enImm_encEN, h0]
  rfl

theorem mbxFetch : ∀ sa sd, Statement (.mbxFetch sa sd) := by
  intro sa sd w hw hwf
  replace hw := (Option.some.inj hw).symm
  have ho : opOf w = 0x09#8 := hw ▸ opOf_encEN ..
  refine decode_of w _ (by rw [ho]; decide) (by rw [ho]; decide) ?_ hwf
  rw [decodeOp_09 w ho]
  unfold decode09
  subst hw
  simp only [enFn_encEN, enSa_encEN, enSb_encEN, enSd_encEN, enImm_encEN]
  rfl

theorem mbxCount : ∀ sd, Statement (.mbxCount sd) := by
  intro sd w hw hwf
  replace hw := (Option.some.inj hw).symm
  have ho : opOf w = 0x09#8 := hw ▸ opOf_encEN ..
  refine decode_of w _ (by rw [ho]; decide) (by rw [ho]; decide) ?_ hwf
  rw [decodeOp_09 w ho]
  unfold decode09
  subst hw
  simp only [enFn_encEN, enSa_encEN, enSb_encEN, enSd_encEN, enImm_encEN]
  rfl

theorem waitFull : ∀ r, Statement (.waitFull r) := by
  intro r w hw hwf
  replace hw := (Option.some.inj hw).symm
  have hz : w &&& (0x00080000 : W32) = 0#32 := by
    subst hw
    refine and_zero _ _ fun i hi h => ?_
    have hb : i = 19 := by revert i; decide
    rcases hb with rfl <;> (simp only [encEN, getLsbD_app, Nat.reduceLT, Nat.reduceSub, ↓reduceIte]; rfl)
  have h0 : BitVec.extractLsb' 0 4 (0#1 ++ r : BitVec 5) = r := by
    clear hw hwf hz; revert r; decide
  have ho : opOf w = 0x0A#8 := hw ▸ opOf_encEN ..
  refine decode_of w _ (by rw [ho]; decide) (by rw [ho]; decide) ?_ hwf
  rw [decodeOp_0A w ho]
  unfold decode0A
  subst hw
  simp only [enFn_encEN, enSa_encEN, enSb_encEN, enSd_encEN, enImm_encEN, h0]
  exact zeros_ok hz _

theorem waitAny : ∀ sa sd, Statement (.waitAny sa sd) := by
  intro sa sd w hw hwf
  replace hw := (Option.some.inj hw).symm
  have ho : opOf w = 0x0A#8 := hw ▸ opOf_encEN ..
  refine decode_of w _ (by rw [ho]; decide) (by rw [ho]; decide) ?_ hwf
  rw [decodeOp_0A w ho]
  unfold decode0A
  subst hw
  simp only [enFn_encEN, enSa_encEN, enSb_encEN, enSd_encEN, enImm_encEN]
  rfl

theorem aluAdd : ∀ o, Statement (.aluAdd o) := by
  intro o w hw hwf
  replace hw := (Option.some.inj hw).symm
  have ho : opOf w = 0x10#8 := hw ▸ opOf_encRR ..
  refine decode_of w _ (by rw [ho]; decide) (by rw [ho]; decide) ?_ hwf
  rw [decodeOp_10 w ho]
  unfold decode10
  subst hw
  simp only [rrFn_encRR, rrSd_encRR, rrSa_encRR, rrSb_encRR, rrPg_encRR, rrPn_encRR, rrW_encRR]
  rfl

theorem aluSub : ∀ o, Statement (.aluSub o) := by
  intro o w hw hwf
  replace hw := (Option.some.inj hw).symm
  have ho : opOf w = 0x10#8 := hw ▸ opOf_encRR ..
  refine decode_of w _ (by rw [ho]; decide) (by rw [ho]; decide) ?_ hwf
  rw [decodeOp_10 w ho]
  unfold decode10
  subst hw
  simp only [rrFn_encRR, rrSd_encRR, rrSa_encRR, rrSb_encRR, rrPg_encRR, rrPn_encRR, rrW_encRR]
  rfl

theorem aluMul : ∀ o, Statement (.aluMul o) := by
  intro o w hw hwf
  replace hw := (Option.some.inj hw).symm
  have ho : opOf w = 0x10#8 := hw ▸ opOf_encRR ..
  refine decode_of w _ (by rw [ho]; decide) (by rw [ho]; decide) ?_ hwf
  rw [decodeOp_10 w ho]
  unfold decode10
  subst hw
  simp only [rrFn_encRR, rrSd_encRR, rrSa_encRR, rrSb_encRR, rrPg_encRR, rrPn_encRR, rrW_encRR]
  rfl

theorem aluMulh : ∀ o, Statement (.aluMulh o) := by
  intro o w hw hwf
  replace hw := (Option.some.inj hw).symm
  have ho : opOf w = 0x10#8 := hw ▸ opOf_encRR ..
  refine decode_of w _ (by rw [ho]; decide) (by rw [ho]; decide) ?_ hwf
  rw [decodeOp_10 w ho]
  unfold decode10
  subst hw
  simp only [rrFn_encRR, rrSd_encRR, rrSa_encRR, rrSb_encRR, rrPg_encRR, rrPn_encRR, rrW_encRR]
  rfl

theorem aluMulhu : ∀ o, Statement (.aluMulhu o) := by
  intro o w hw hwf
  replace hw := (Option.some.inj hw).symm
  have ho : opOf w = 0x10#8 := hw ▸ opOf_encRR ..
  refine decode_of w _ (by rw [ho]; decide) (by rw [ho]; decide) ?_ hwf
  rw [decodeOp_10 w ho]
  unfold decode10
  subst hw
  simp only [rrFn_encRR, rrSd_encRR, rrSa_encRR, rrSb_encRR, rrPg_encRR, rrPn_encRR, rrW_encRR]
  rfl

theorem aluAnd : ∀ o, Statement (.aluAnd o) := by
  intro o w hw hwf
  replace hw := (Option.some.inj hw).symm
  have ho : opOf w = 0x10#8 := hw ▸ opOf_encRR ..
  refine decode_of w _ (by rw [ho]; decide) (by rw [ho]; decide) ?_ hwf
  rw [decodeOp_10 w ho]
  unfold decode10
  subst hw
  simp only [rrFn_encRR, rrSd_encRR, rrSa_encRR, rrSb_encRR, rrPg_encRR, rrPn_encRR, rrW_encRR]
  rfl

theorem aluOr : ∀ o, Statement (.aluOr o) := by
  intro o w hw hwf
  replace hw := (Option.some.inj hw).symm
  have ho : opOf w = 0x10#8 := hw ▸ opOf_encRR ..
  refine decode_of w _ (by rw [ho]; decide) (by rw [ho]; decide) ?_ hwf
  rw [decodeOp_10 w ho]
  unfold decode10
  subst hw
  simp only [rrFn_encRR, rrSd_encRR, rrSa_encRR, rrSb_encRR, rrPg_encRR, rrPn_encRR, rrW_encRR]
  rfl

theorem aluXor : ∀ o, Statement (.aluXor o) := by
  intro o w hw hwf
  replace hw := (Option.some.inj hw).symm
  have ho : opOf w = 0x10#8 := hw ▸ opOf_encRR ..
  refine decode_of w _ (by rw [ho]; decide) (by rw [ho]; decide) ?_ hwf
  rw [decodeOp_10 w ho]
  unfold decode10
  subst hw
  simp only [rrFn_encRR, rrSd_encRR, rrSa_encRR, rrSb_encRR, rrPg_encRR, rrPn_encRR, rrW_encRR]
  rfl

theorem aluAndn : ∀ o, Statement (.aluAndn o) := by
  intro o w hw hwf
  replace hw := (Option.some.inj hw).symm
  have ho : opOf w = 0x10#8 := hw ▸ opOf_encRR ..
  refine decode_of w _ (by rw [ho]; decide) (by rw [ho]; decide) ?_ hwf
  rw [decodeOp_10 w ho]
  unfold decode10
  subst hw
  simp only [rrFn_encRR, rrSd_encRR, rrSa_encRR, rrSb_encRR, rrPg_encRR, rrPn_encRR, rrW_encRR]
  rfl

theorem aluOrn : ∀ o, Statement (.aluOrn o) := by
  intro o w hw hwf
  replace hw := (Option.some.inj hw).symm
  have ho : opOf w = 0x10#8 := hw ▸ opOf_encRR ..
  refine decode_of w _ (by rw [ho]; decide) (by rw [ho]; decide) ?_ hwf
  rw [decodeOp_10 w ho]
  unfold decode10
  subst hw
  simp only [rrFn_encRR, rrSd_encRR, rrSa_encRR, rrSb_encRR, rrPg_encRR, rrPn_encRR, rrW_encRR]
  rfl

theorem aluShl : ∀ o, Statement (.aluShl o) := by
  intro o w hw hwf
  replace hw := (Option.some.inj hw).symm
  have ho : opOf w = 0x10#8 := hw ▸ opOf_encRR ..
  refine decode_of w _ (by rw [ho]; decide) (by rw [ho]; decide) ?_ hwf
  rw [decodeOp_10 w ho]
  unfold decode10
  subst hw
  simp only [rrFn_encRR, rrSd_encRR, rrSa_encRR, rrSb_encRR, rrPg_encRR, rrPn_encRR, rrW_encRR]
  rfl

theorem aluShr : ∀ o, Statement (.aluShr o) := by
  intro o w hw hwf
  replace hw := (Option.some.inj hw).symm
  have ho : opOf w = 0x10#8 := hw ▸ opOf_encRR ..
  refine decode_of w _ (by rw [ho]; decide) (by rw [ho]; decide) ?_ hwf
  rw [decodeOp_10 w ho]
  unfold decode10
  subst hw
  simp only [rrFn_encRR, rrSd_encRR, rrSa_encRR, rrSb_encRR, rrPg_encRR, rrPn_encRR, rrW_encRR]
  rfl

theorem aluSra : ∀ o, Statement (.aluSra o) := by
  intro o w hw hwf
  replace hw := (Option.some.inj hw).symm
  have ho : opOf w = 0x10#8 := hw ▸ opOf_encRR ..
  refine decode_of w _ (by rw [ho]; decide) (by rw [ho]; decide) ?_ hwf
  rw [decodeOp_10 w ho]
  unfold decode10
  subst hw
  simp only [rrFn_encRR, rrSd_encRR, rrSa_encRR, rrSb_encRR, rrPg_encRR, rrPn_encRR, rrW_encRR]
  rfl

theorem aluRot : ∀ o, Statement (.aluRot o) := by
  intro o w hw hwf
  replace hw := (Option.some.inj hw).symm
  have ho : opOf w = 0x10#8 := hw ▸ opOf_encRR ..
  refine decode_of w _ (by rw [ho]; decide) (by rw [ho]; decide) ?_ hwf
  rw [decodeOp_10 w ho]
  unfold decode10
  subst hw
  simp only [rrFn_encRR, rrSd_encRR, rrSa_encRR, rrSb_encRR, rrPg_encRR, rrPn_encRR, rrW_encRR]
  rfl

theorem aluMin : ∀ o, Statement (.aluMin o) := by
  intro o w hw hwf
  replace hw := (Option.some.inj hw).symm
  have ho : opOf w = 0x10#8 := hw ▸ opOf_encRR ..
  refine decode_of w _ (by rw [ho]; decide) (by rw [ho]; decide) ?_ hwf
  rw [decodeOp_10 w ho]
  unfold decode10
  subst hw
  simp only [rrFn_encRR, rrSd_encRR, rrSa_encRR, rrSb_encRR, rrPg_encRR, rrPn_encRR, rrW_encRR]
  rfl

theorem aluMax : ∀ o, Statement (.aluMax o) := by
  intro o w hw hwf
  replace hw := (Option.some.inj hw).symm
  have ho : opOf w = 0x10#8 := hw ▸ opOf_encRR ..
  refine decode_of w _ (by rw [ho]; decide) (by rw [ho]; decide) ?_ hwf
  rw [decodeOp_10 w ho]
  unfold decode10
  subst hw
  simp only [rrFn_encRR, rrSd_encRR, rrSa_encRR, rrSb_encRR, rrPg_encRR, rrPn_encRR, rrW_encRR]
  rfl

theorem alxMinu : ∀ o, Statement (.alxMinu o) := by
  intro o w hw hwf
  replace hw := (Option.some.inj hw).symm
  have ho : opOf w = 0x11#8 := hw ▸ opOf_encRR ..
  refine decode_of w _ (by rw [ho]; decide) (by rw [ho]; decide) ?_ hwf
  rw [decodeOp_11 w ho]
  unfold decode11
  subst hw
  simp only [rrFn_encRR, rrSd_encRR, rrSa_encRR, rrSb_encRR, rrPg_encRR, rrPn_encRR, rrW_encRR]
  rfl

theorem alxMaxu : ∀ o, Statement (.alxMaxu o) := by
  intro o w hw hwf
  replace hw := (Option.some.inj hw).symm
  have ho : opOf w = 0x11#8 := hw ▸ opOf_encRR ..
  refine decode_of w _ (by rw [ho]; decide) (by rw [ho]; decide) ?_ hwf
  rw [decodeOp_11 w ho]
  unfold decode11
  subst hw
  simp only [rrFn_encRR, rrSd_encRR, rrSa_encRR, rrSb_encRR, rrPg_encRR, rrPn_encRR, rrW_encRR]
  rfl

theorem alxDiv : ∀ o, Statement (.alxDiv o) := by
  intro o w hw hwf
  replace hw := (Option.some.inj hw).symm
  have ho : opOf w = 0x11#8 := hw ▸ opOf_encRR ..
  refine decode_of w _ (by rw [ho]; decide) (by rw [ho]; decide) ?_ hwf
  rw [decodeOp_11 w ho]
  unfold decode11
  subst hw
  simp only [rrFn_encRR, rrSd_encRR, rrSa_encRR, rrSb_encRR, rrPg_encRR, rrPn_encRR, rrW_encRR]
  rfl

theorem alxDivu : ∀ o, Statement (.alxDivu o) := by
  intro o w hw hwf
  replace hw := (Option.some.inj hw).symm
  have ho : opOf w = 0x11#8 := hw ▸ opOf_encRR ..
  refine decode_of w _ (by rw [ho]; decide) (by rw [ho]; decide) ?_ hwf
  rw [decodeOp_11 w ho]
  unfold decode11
  subst hw
  simp only [rrFn_encRR, rrSd_encRR, rrSa_encRR, rrSb_encRR, rrPg_encRR, rrPn_encRR, rrW_encRR]
  rfl

theorem alxRem : ∀ o, Statement (.alxRem o) := by
  intro o w hw hwf
  replace hw := (Option.some.inj hw).symm
  have ho : opOf w = 0x11#8 := hw ▸ opOf_encRR ..
  refine decode_of w _ (by rw [ho]; decide) (by rw [ho]; decide) ?_ hwf
  rw [decodeOp_11 w ho]
  unfold decode11
  subst hw
  simp only [rrFn_encRR, rrSd_encRR, rrSa_encRR, rrSb_encRR, rrPg_encRR, rrPn_encRR, rrW_encRR]
  rfl

theorem alxRemu : ∀ o, Statement (.alxRemu o) := by
  intro o w hw hwf
  replace hw := (Option.some.inj hw).symm
  have ho : opOf w = 0x11#8 := hw ▸ opOf_encRR ..
  refine decode_of w _ (by rw [ho]; decide) (by rw [ho]; decide) ?_ hwf
  rw [decodeOp_11 w ho]
  unfold decode11
  subst hw
  simp only [rrFn_encRR, rrSd_encRR, rrSa_encRR, rrSb_encRR, rrPg_encRR, rrPn_encRR, rrW_encRR]
  rfl

theorem alxClz : ∀ o, Statement (.alxClz o) := by
  intro o w hw hwf
  replace hw := (Option.some.inj hw).symm
  have ho : opOf w = 0x11#8 := hw ▸ opOf_encRR ..
  refine decode_of w _ (by rw [ho]; decide) (by rw [ho]; decide) ?_ hwf
  rw [decodeOp_11 w ho]
  unfold decode11
  subst hw
  simp only [rrFn_encRR, rrSd_encRR, rrSa_encRR, rrSb_encRR, rrPg_encRR, rrPn_encRR, rrW_encRR]
  rfl

theorem alxCtz : ∀ o, Statement (.alxCtz o) := by
  intro o w hw hwf
  replace hw := (Option.some.inj hw).symm
  have ho : opOf w = 0x11#8 := hw ▸ opOf_encRR ..
  refine decode_of w _ (by rw [ho]; decide) (by rw [ho]; decide) ?_ hwf
  rw [decodeOp_11 w ho]
  unfold decode11
  subst hw
  simp only [rrFn_encRR, rrSd_encRR, rrSa_encRR, rrSb_encRR, rrPg_encRR, rrPn_encRR, rrW_encRR]
  rfl

theorem alxPopc : ∀ o, Statement (.alxPopc o) := by
  intro o w hw hwf
  replace hw := (Option.some.inj hw).symm
  have ho : opOf w = 0x11#8 := hw ▸ opOf_encRR ..
  refine decode_of w _ (by rw [ho]; decide) (by rw [ho]; decide) ?_ hwf
  rw [decodeOp_11 w ho]
  unfold decode11
  subst hw
  simp only [rrFn_encRR, rrSd_encRR, rrSa_encRR, rrSb_encRR, rrPg_encRR, rrPn_encRR, rrW_encRR]
  rfl

theorem alxBrev : ∀ o, Statement (.alxBrev o) := by
  intro o w hw hwf
  replace hw := (Option.some.inj hw).symm
  have ho : opOf w = 0x11#8 := hw ▸ opOf_encRR ..
  refine decode_of w _ (by rw [ho]; decide) (by rw [ho]; decide) ?_ hwf
  rw [decodeOp_11 w ho]
  unfold decode11
  subst hw
  simp only [rrFn_encRR, rrSd_encRR, rrSa_encRR, rrSb_encRR, rrPg_encRR, rrPn_encRR, rrW_encRR]
  rfl

theorem alxBswap : ∀ o, Statement (.alxBswap o) := by
  intro o w hw hwf
  replace hw := (Option.some.inj hw).symm
  have ho : opOf w = 0x11#8 := hw ▸ opOf_encRR ..
  refine decode_of w _ (by rw [ho]; decide) (by rw [ho]; decide) ?_ hwf
  rw [decodeOp_11 w ho]
  unfold decode11
  subst hw
  simp only [rrFn_encRR, rrSd_encRR, rrSa_encRR, rrSb_encRR, rrPg_encRR, rrPn_encRR, rrW_encRR]
  rfl

theorem alxSel : ∀ o, Statement (.alxSel o) := by
  intro o w hw hwf
  replace hw := (Option.some.inj hw).symm
  have ho : opOf w = 0x11#8 := hw ▸ opOf_encRR ..
  refine decode_of w _ (by rw [ho]; decide) (by rw [ho]; decide) ?_ hwf
  rw [decodeOp_11 w ho]
  unfold decode11
  subst hw
  simp only [rrFn_encRR, rrSd_encRR, rrSa_encRR, rrSb_encRR, rrPg_encRR, rrPn_encRR, rrW_encRR]
  rfl

theorem alxLea1 : ∀ o, Statement (.alxLea1 o) := by
  intro o w hw hwf
  replace hw := (Option.some.inj hw).symm
  have ho : opOf w = 0x11#8 := hw ▸ opOf_encRR ..
  refine decode_of w _ (by rw [ho]; decide) (by rw [ho]; decide) ?_ hwf
  rw [decodeOp_11 w ho]
  unfold decode11
  subst hw
  simp only [rrFn_encRR, rrSd_encRR, rrSa_encRR, rrSb_encRR, rrPg_encRR, rrPn_encRR, rrW_encRR]
  rfl

theorem alxLea2 : ∀ o, Statement (.alxLea2 o) := by
  intro o w hw hwf
  replace hw := (Option.some.inj hw).symm
  have ho : opOf w = 0x11#8 := hw ▸ opOf_encRR ..
  refine decode_of w _ (by rw [ho]; decide) (by rw [ho]; decide) ?_ hwf
  rw [decodeOp_11 w ho]
  unfold decode11
  subst hw
  simp only [rrFn_encRR, rrSd_encRR, rrSa_encRR, rrSb_encRR, rrPg_encRR, rrPn_encRR, rrW_encRR]
  rfl

theorem alxLea3 : ∀ o, Statement (.alxLea3 o) := by
  intro o w hw hwf
  replace hw := (Option.some.inj hw).symm
  have ho : opOf w = 0x11#8 := hw ▸ opOf_encRR ..
  refine decode_of w _ (by rw [ho]; decide) (by rw [ho]; decide) ?_ hwf
  rw [decodeOp_11 w ho]
  unfold decode11
  subst hw
  simp only [rrFn_encRR, rrSd_encRR, rrSa_encRR, rrSb_encRR, rrPg_encRR, rrPn_encRR, rrW_encRR]
  rfl

theorem alxLea4 : ∀ o, Statement (.alxLea4 o) := by
  intro o w hw hwf
  replace hw := (Option.some.inj hw).symm
  have ho : opOf w = 0x11#8 := hw ▸ opOf_encRR ..
  refine decode_of w _ (by rw [ho]; decide) (by rw [ho]; decide) ?_ hwf
  rw [decodeOp_11 w ho]
  unfold decode11
  subst hw
  simp only [rrFn_encRR, rrSd_encRR, rrSa_encRR, rrSb_encRR, rrPg_encRR, rrPn_encRR, rrW_encRR]
  rfl

theorem bitsExt : ∀ o, Statement (.bitsExt o) := by
  intro o w hw hwf
  replace hw := (Option.some.inj hw).symm
  have ho : opOf w = 0x12#8 := hw ▸ opOf_encRR ..
  refine decode_of w _ (by rw [ho]; decide) (by rw [ho]; decide) ?_ hwf
  rw [decodeOp_12 w ho]
  unfold decode12
  subst hw
  simp only [rrFn_encRR, rrSd_encRR, rrSa_encRR, rrSb_encRR, rrPg_encRR, rrPn_encRR, rrW_encRR]
  rfl

theorem bitsExtu : ∀ o, Statement (.bitsExtu o) := by
  intro o w hw hwf
  replace hw := (Option.some.inj hw).symm
  have ho : opOf w = 0x12#8 := hw ▸ opOf_encRR ..
  refine decode_of w _ (by rw [ho]; decide) (by rw [ho]; decide) ?_ hwf
  rw [decodeOp_12 w ho]
  unfold decode12
  subst hw
  simp only [rrFn_encRR, rrSd_encRR, rrSa_encRR, rrSb_encRR, rrPg_encRR, rrPn_encRR, rrW_encRR]
  rfl

theorem bitsIns : ∀ o, Statement (.bitsIns o) := by
  intro o w hw hwf
  replace hw := (Option.some.inj hw).symm
  have ho : opOf w = 0x12#8 := hw ▸ opOf_encRR ..
  refine decode_of w _ (by rw [ho]; decide) (by rw [ho]; decide) ?_ hwf
  rw [decodeOp_12 w ho]
  unfold decode12
  subst hw
  simp only [rrFn_encRR, rrSd_encRR, rrSa_encRR, rrSb_encRR, rrPg_encRR, rrPn_encRR, rrW_encRR]
  rfl

theorem movMov : ∀ o, Statement (.movMov o) := by
  intro o w hw hwf
  replace hw := (Option.some.inj hw).symm
  have ho : opOf w = 0x13#8 := hw ▸ opOf_encRR ..
  refine decode_of w _ (by rw [ho]; decide) (by rw [ho]; decide) ?_ hwf
  rw [decodeOp_13 w ho]
  unfold decode13
  subst hw
  simp only [rrFn_encRR, rrSd_encRR, rrSa_encRR, rrSb_encRR, rrPg_encRR, rrPn_encRR, rrW_encRR]
  rfl

theorem movMovp : ∀ o, Statement (.movMovp o) := by
  intro o w hw hwf
  replace hw := (Option.some.inj hw).symm
  have ho : opOf w = 0x13#8 := hw ▸ opOf_encRR ..
  refine decode_of w _ (by rw [ho]; decide) (by rw [ho]; decide) ?_ hwf
  rw [decodeOp_13 w ho]
  unfold decode13
  subst hw
  simp only [rrFn_encRR, rrSd_encRR, rrSa_encRR, rrSb_encRR, rrPg_encRR, rrPn_encRR, rrW_encRR]
  rfl

theorem movSetp : ∀ o, Statement (.movSetp o) := by
  intro o w hw hwf
  replace hw := (Option.some.inj hw).symm
  have ho : opOf w = 0x13#8 := hw ▸ opOf_encRR ..
  refine decode_of w _ (by rw [ho]; decide) (by rw [ho]; decide) ?_ hwf
  rw [decodeOp_13 w ho]
  unfold decode13
  subst hw
  simp only [rrFn_encRR, rrSd_encRR, rrSa_encRR, rrSb_encRR, rrPg_encRR, rrPn_encRR, rrW_encRR]
  rfl

theorem movZx8 : ∀ o, Statement (.movZx8 o) := by
  intro o w hw hwf
  replace hw := (Option.some.inj hw).symm
  have ho : opOf w = 0x13#8 := hw ▸ opOf_encRR ..
  refine decode_of w _ (by rw [ho]; decide) (by rw [ho]; decide) ?_ hwf
  rw [decodeOp_13 w ho]
  unfold decode13
  subst hw
  simp only [rrFn_encRR, rrSd_encRR, rrSa_encRR, rrSb_encRR, rrPg_encRR, rrPn_encRR, rrW_encRR]
  rfl

theorem movZx16 : ∀ o, Statement (.movZx16 o) := by
  intro o w hw hwf
  replace hw := (Option.some.inj hw).symm
  have ho : opOf w = 0x13#8 := hw ▸ opOf_encRR ..
  refine decode_of w _ (by rw [ho]; decide) (by rw [ho]; decide) ?_ hwf
  rw [decodeOp_13 w ho]
  unfold decode13
  subst hw
  simp only [rrFn_encRR, rrSd_encRR, rrSa_encRR, rrSb_encRR, rrPg_encRR, rrPn_encRR, rrW_encRR]
  rfl

theorem movZx32 : ∀ o, Statement (.movZx32 o) := by
  intro o w hw hwf
  replace hw := (Option.some.inj hw).symm
  have ho : opOf w = 0x13#8 := hw ▸ opOf_encRR ..
  refine decode_of w _ (by rw [ho]; decide) (by rw [ho]; decide) ?_ hwf
  rw [decodeOp_13 w ho]
  unfold decode13
  subst hw
  simp only [rrFn_encRR, rrSd_encRR, rrSa_encRR, rrSb_encRR, rrPg_encRR, rrPn_encRR, rrW_encRR]
  rfl

theorem movSx8 : ∀ o, Statement (.movSx8 o) := by
  intro o w hw hwf
  replace hw := (Option.some.inj hw).symm
  have ho : opOf w = 0x13#8 := hw ▸ opOf_encRR ..
  refine decode_of w _ (by rw [ho]; decide) (by rw [ho]; decide) ?_ hwf
  rw [decodeOp_13 w ho]
  unfold decode13
  subst hw
  simp only [rrFn_encRR, rrSd_encRR, rrSa_encRR, rrSb_encRR, rrPg_encRR, rrPn_encRR, rrW_encRR]
  rfl

theorem movSx16 : ∀ o, Statement (.movSx16 o) := by
  intro o w hw hwf
  replace hw := (Option.some.inj hw).symm
  have ho : opOf w = 0x13#8 := hw ▸ opOf_encRR ..
  refine decode_of w _ (by rw [ho]; decide) (by rw [ho]; decide) ?_ hwf
  rw [decodeOp_13 w ho]
  unfold decode13
  subst hw
  simp only [rrFn_encRR, rrSd_encRR, rrSa_encRR, rrSb_encRR, rrPg_encRR, rrPn_encRR, rrW_encRR]
  rfl

theorem movSx32 : ∀ o, Statement (.movSx32 o) := by
  intro o w hw hwf
  replace hw := (Option.some.inj hw).symm
  have ho : opOf w = 0x13#8 := hw ▸ opOf_encRR ..
  refine decode_of w _ (by rw [ho]; decide) (by rw [ho]; decide) ?_ hwf
  rw [decodeOp_13 w ho]
  unfold decode13
  subst hw
  simp only [rrFn_encRR, rrSd_encRR, rrSa_encRR, rrSb_encRR, rrPg_encRR, rrPn_encRR, rrW_encRR]
  rfl

theorem addi : ∀ o, Statement (.addi o) := by
  intro o w hw hwf
  replace hw := (Option.some.inj hw).symm
  have ho : opOf w = 0x14#8 := hw ▸ opOf_encRI ..
  refine decode_of w _ (by rw [ho]; decide) (by rw [ho]; decide) ?_ hwf
  rw [decodeOp_14 w ho]
  unfold decode14
  subst hw
  simp only [riSd_encRI, riSa_encRI, riImm_encRI]

theorem andi : ∀ o, Statement (.andi o) := by
  intro o w hw hwf
  replace hw := (Option.some.inj hw).symm
  have ho : opOf w = 0x15#8 := hw ▸ opOf_encRI ..
  refine decode_of w _ (by rw [ho]; decide) (by rw [ho]; decide) ?_ hwf
  rw [decodeOp_15 w ho]
  unfold decode15
  subst hw
  simp only [riSd_encRI, riSa_encRI, riImm_encRI]

theorem ori : ∀ o, Statement (.ori o) := by
  intro o w hw hwf
  replace hw := (Option.some.inj hw).symm
  have ho : opOf w = 0x16#8 := hw ▸ opOf_encRI ..
  refine decode_of w _ (by rw [ho]; decide) (by rw [ho]; decide) ?_ hwf
  rw [decodeOp_16 w ho]
  unfold decode16
  subst hw
  simp only [riSd_encRI, riSa_encRI, riImm_encRI]

theorem xori : ∀ o, Statement (.xori o) := by
  intro o w hw hwf
  replace hw := (Option.some.inj hw).symm
  have ho : opOf w = 0x17#8 := hw ▸ opOf_encRI ..
  refine decode_of w _ (by rw [ho]; decide) (by rw [ho]; decide) ?_ hwf
  rw [decodeOp_17 w ho]
  unfold decode17
  subst hw
  simp only [riSd_encRI, riSa_encRI, riImm_encRI]

theorem shli : ∀ o, Statement (.shli o) := by
  intro o w hw hwf
  replace hw := (Option.some.inj hw).symm
  have ho : opOf w = 0x18#8 := hw ▸ opOf_encRI ..
  refine decode_of w _ (by rw [ho]; decide) (by rw [ho]; decide) ?_ hwf
  rw [decodeOp_18 w ho]
  unfold decode18
  subst hw
  simp only [riSd_encRI, riSa_encRI, riImm_encRI]

theorem shri : ∀ o, Statement (.shri o) := by
  intro o w hw hwf
  replace hw := (Option.some.inj hw).symm
  have ho : opOf w = 0x19#8 := hw ▸ opOf_encRI ..
  refine decode_of w _ (by rw [ho]; decide) (by rw [ho]; decide) ?_ hwf
  rw [decodeOp_19 w ho]
  unfold decode19
  subst hw
  simp only [riSd_encRI, riSa_encRI, riImm_encRI]

theorem srai : ∀ o, Statement (.srai o) := by
  intro o w hw hwf
  replace hw := (Option.some.inj hw).symm
  have ho : opOf w = 0x1A#8 := hw ▸ opOf_encRI ..
  refine decode_of w _ (by rw [ho]; decide) (by rw [ho]; decide) ?_ hwf
  rw [decodeOp_1A w ho]
  unfold decode1A
  subst hw
  simp only [riSd_encRI, riSa_encRI, riImm_encRI]

theorem li : ∀ o, Statement (.li o) := by
  intro o w hw hwf
  replace hw := (Option.some.inj hw).symm
  have ho : opOf w = 0x1B#8 := hw ▸ opOf_encRI ..
  refine decode_of w _ (by rw [ho]; decide) (by rw [ho]; decide) ?_ hwf
  rw [decodeOp_1B w ho]
  unfold decode1B
  subst hw
  simp only [riSd_encRI, riSa_encRI, riImm_encRI]

theorem lhi : ∀ o, Statement (.lhi o) := by
  intro o w hw hwf
  replace hw := (Option.some.inj hw).symm
  have ho : opOf w = 0x1C#8 := hw ▸ opOf_encRI ..
  refine decode_of w _ (by rw [ho]; decide) (by rw [ho]; decide) ?_ hwf
  rw [decodeOp_1C w ho]
  unfold decode1C
  subst hw
  simp only [riSd_encRI, riSa_encRI, riImm_encRI]

theorem muli : ∀ o, Statement (.muli o) := by
  intro o w hw hwf
  replace hw := (Option.some.inj hw).symm
  have ho : opOf w = 0x1D#8 := hw ▸ opOf_encRI ..
  refine decode_of w _ (by rw [ho]; decide) (by rw [ho]; decide) ?_ hwf
  rw [decodeOp_1D w ho]
  unfold decode1D
  subst hw
  simp only [riSd_encRI, riSa_encRI, riImm_encRI]

theorem fpuFadd : ∀ o, Statement (.fpuFadd o) := by
  intro o w hw hwf
  replace hw := (Option.some.inj hw).symm
  have ho : opOf w = 0x20#8 := hw ▸ opOf_encRR ..
  refine decode_of w _ (by rw [ho]; decide) (by rw [ho]; decide) ?_ hwf
  rw [decodeOp_20 w ho]
  unfold decode20
  subst hw
  simp only [rrFn_encRR, rrSd_encRR, rrSa_encRR, rrSb_encRR, rrPg_encRR, rrPn_encRR, rrW_encRR]
  rfl

theorem fpuFsub : ∀ o, Statement (.fpuFsub o) := by
  intro o w hw hwf
  replace hw := (Option.some.inj hw).symm
  have ho : opOf w = 0x20#8 := hw ▸ opOf_encRR ..
  refine decode_of w _ (by rw [ho]; decide) (by rw [ho]; decide) ?_ hwf
  rw [decodeOp_20 w ho]
  unfold decode20
  subst hw
  simp only [rrFn_encRR, rrSd_encRR, rrSa_encRR, rrSb_encRR, rrPg_encRR, rrPn_encRR, rrW_encRR]
  rfl

theorem fpuFmul : ∀ o, Statement (.fpuFmul o) := by
  intro o w hw hwf
  replace hw := (Option.some.inj hw).symm
  have ho : opOf w = 0x20#8 := hw ▸ opOf_encRR ..
  refine decode_of w _ (by rw [ho]; decide) (by rw [ho]; decide) ?_ hwf
  rw [decodeOp_20 w ho]
  unfold decode20
  subst hw
  simp only [rrFn_encRR, rrSd_encRR, rrSa_encRR, rrSb_encRR, rrPg_encRR, rrPn_encRR, rrW_encRR]
  rfl

theorem fpuFdiv : ∀ o, Statement (.fpuFdiv o) := by
  intro o w hw hwf
  replace hw := (Option.some.inj hw).symm
  have ho : opOf w = 0x20#8 := hw ▸ opOf_encRR ..
  refine decode_of w _ (by rw [ho]; decide) (by rw [ho]; decide) ?_ hwf
  rw [decodeOp_20 w ho]
  unfold decode20
  subst hw
  simp only [rrFn_encRR, rrSd_encRR, rrSa_encRR, rrSb_encRR, rrPg_encRR, rrPn_encRR, rrW_encRR]
  rfl

theorem fpuFsqrt : ∀ o, Statement (.fpuFsqrt o) := by
  intro o w hw hwf
  replace hw := (Option.some.inj hw).symm
  have ho : opOf w = 0x20#8 := hw ▸ opOf_encRR ..
  refine decode_of w _ (by rw [ho]; decide) (by rw [ho]; decide) ?_ hwf
  rw [decodeOp_20 w ho]
  unfold decode20
  subst hw
  simp only [rrFn_encRR, rrSd_encRR, rrSa_encRR, rrSb_encRR, rrPg_encRR, rrPn_encRR, rrW_encRR]
  rfl

theorem fpuFmin : ∀ o, Statement (.fpuFmin o) := by
  intro o w hw hwf
  replace hw := (Option.some.inj hw).symm
  have ho : opOf w = 0x20#8 := hw ▸ opOf_encRR ..
  refine decode_of w _ (by rw [ho]; decide) (by rw [ho]; decide) ?_ hwf
  rw [decodeOp_20 w ho]
  unfold decode20
  subst hw
  simp only [rrFn_encRR, rrSd_encRR, rrSa_encRR, rrSb_encRR, rrPg_encRR, rrPn_encRR, rrW_encRR]
  rfl

theorem fpuFmax : ∀ o, Statement (.fpuFmax o) := by
  intro o w hw hwf
  replace hw := (Option.some.inj hw).symm
  have ho : opOf w = 0x20#8 := hw ▸ opOf_encRR ..
  refine decode_of w _ (by rw [ho]; decide) (by rw [ho]; decide) ?_ hwf
  rw [decodeOp_20 w ho]
  unfold decode20
  subst hw
  simp only [rrFn_encRR, rrSd_encRR, rrSa_encRR, rrSb_encRR, rrPg_encRR, rrPn_encRR, rrW_encRR]
  rfl

theorem fpuFabs : ∀ o, Statement (.fpuFabs o) := by
  intro o w hw hwf
  replace hw := (Option.some.inj hw).symm
  have ho : opOf w = 0x20#8 := hw ▸ opOf_encRR ..
  refine decode_of w _ (by rw [ho]; decide) (by rw [ho]; decide) ?_ hwf
  rw [decodeOp_20 w ho]
  unfold decode20
  subst hw
  simp only [rrFn_encRR, rrSd_encRR, rrSa_encRR, rrSb_encRR, rrPg_encRR, rrPn_encRR, rrW_encRR]
  rfl

theorem fpuFneg : ∀ o, Statement (.fpuFneg o) := by
  intro o w hw hwf
  replace hw := (Option.some.inj hw).symm
  have ho : opOf w = 0x20#8 := hw ▸ opOf_encRR ..
  refine decode_of w _ (by rw [ho]; decide) (by rw [ho]; decide) ?_ hwf
  rw [decodeOp_20 w ho]
  unfold decode20
  subst hw
  simp only [rrFn_encRR, rrSd_encRR, rrSa_encRR, rrSb_encRR, rrPg_encRR, rrPn_encRR, rrW_encRR]
  rfl

theorem fpuFsgnj : ∀ o, Statement (.fpuFsgnj o) := by
  intro o w hw hwf
  replace hw := (Option.some.inj hw).symm
  have ho : opOf w = 0x20#8 := hw ▸ opOf_encRR ..
  refine decode_of w _ (by rw [ho]; decide) (by rw [ho]; decide) ?_ hwf
  rw [decodeOp_20 w ho]
  unfold decode20
  subst hw
  simp only [rrFn_encRR, rrSd_encRR, rrSa_encRR, rrSb_encRR, rrPg_encRR, rrPn_encRR, rrW_encRR]
  rfl

theorem fpuFma : ∀ o, Statement (.fpuFma o) := by
  intro o w hw hwf
  replace hw := (Option.some.inj hw).symm
  have ho : opOf w = 0x20#8 := hw ▸ opOf_encRR ..
  refine decode_of w _ (by rw [ho]; decide) (by rw [ho]; decide) ?_ hwf
  rw [decodeOp_20 w ho]
  unfold decode20
  subst hw
  simp only [rrFn_encRR, rrSd_encRR, rrSa_encRR, rrSb_encRR, rrPg_encRR, rrPn_encRR, rrW_encRR]
  rfl

theorem fpuFms : ∀ o, Statement (.fpuFms o) := by
  intro o w hw hwf
  replace hw := (Option.some.inj hw).symm
  have ho : opOf w = 0x20#8 := hw ▸ opOf_encRR ..
  refine decode_of w _ (by rw [ho]; decide) (by rw [ho]; decide) ?_ hwf
  rw [decodeOp_20 w ho]
  unfold decode20
  subst hw
  simp only [rrFn_encRR, rrSd_encRR, rrSa_encRR, rrSb_encRR, rrPg_encRR, rrPn_encRR, rrW_encRR]
  rfl

theorem fpuFnma : ∀ o, Statement (.fpuFnma o) := by
  intro o w hw hwf
  replace hw := (Option.some.inj hw).symm
  have ho : opOf w = 0x20#8 := hw ▸ opOf_encRR ..
  refine decode_of w _ (by rw [ho]; decide) (by rw [ho]; decide) ?_ hwf
  rw [decodeOp_20 w ho]
  unfold decode20
  subst hw
  simp only [rrFn_encRR, rrSd_encRR, rrSa_encRR, rrSb_encRR, rrPg_encRR, rrPn_encRR, rrW_encRR]
  rfl

theorem fpuFclass : ∀ o, Statement (.fpuFclass o) := by
  intro o w hw hwf
  replace hw := (Option.some.inj hw).symm
  have ho : opOf w = 0x20#8 := hw ▸ opOf_encRR ..
  refine decode_of w _ (by rw [ho]; decide) (by rw [ho]; decide) ?_ hwf
  rw [decodeOp_20 w ho]
  unfold decode20
  subst hw
  simp only [rrFn_encRR, rrSd_encRR, rrSa_encRR, rrSb_encRR, rrPg_encRR, rrPn_encRR, rrW_encRR]
  rfl

theorem fcvtI2f : ∀ o, Statement (.fcvtI2f o) := by
  intro o w hw hwf
  replace hw := (Option.some.inj hw).symm
  have ho : opOf w = 0x21#8 := hw ▸ opOf_encRR ..
  refine decode_of w _ (by rw [ho]; decide) (by rw [ho]; decide) ?_ hwf
  rw [decodeOp_21 w ho]
  unfold decode21
  subst hw
  simp only [rrFn_encRR, rrSd_encRR, rrSa_encRR, rrSb_encRR, rrPg_encRR, rrPn_encRR, rrW_encRR]
  rfl

theorem fcvtU2f : ∀ o, Statement (.fcvtU2f o) := by
  intro o w hw hwf
  replace hw := (Option.some.inj hw).symm
  have ho : opOf w = 0x21#8 := hw ▸ opOf_encRR ..
  refine decode_of w _ (by rw [ho]; decide) (by rw [ho]; decide) ?_ hwf
  rw [decodeOp_21 w ho]
  unfold decode21
  subst hw
  simp only [rrFn_encRR, rrSd_encRR, rrSa_encRR, rrSb_encRR, rrPg_encRR, rrPn_encRR, rrW_encRR]
  rfl

theorem fcvtF2i : ∀ o, Statement (.fcvtF2i o) := by
  intro o w hw hwf
  replace hw := (Option.some.inj hw).symm
  have ho : opOf w = 0x21#8 := hw ▸ opOf_encRR ..
  refine decode_of w _ (by rw [ho]; decide) (by rw [ho]; decide) ?_ hwf
  rw [decodeOp_21 w ho]
  unfold decode21
  subst hw
  simp only [rrFn_encRR, rrSd_encRR, rrSa_encRR, rrSb_encRR, rrPg_encRR, rrPn_encRR, rrW_encRR]
  rfl

theorem fcvtF2u : ∀ o, Statement (.fcvtF2u o) := by
  intro o w hw hwf
  replace hw := (Option.some.inj hw).symm
  have ho : opOf w = 0x21#8 := hw ▸ opOf_encRR ..
  refine decode_of w _ (by rw [ho]; decide) (by rw [ho]; decide) ?_ hwf
  rw [decodeOp_21 w ho]
  unfold decode21
  subst hw
  simp only [rrFn_encRR, rrSd_encRR, rrSa_encRR, rrSb_encRR, rrPg_encRR, rrPn_encRR, rrW_encRR]
  rfl

theorem fcvtF2f : ∀ o, Statement (.fcvtF2f o) := by
  intro o w hw hwf
  replace hw := (Option.some.inj hw).symm
  have ho : opOf w = 0x21#8 := hw ▸ opOf_encRR ..
  refine decode_of w _ (by rw [ho]; decide) (by rw [ho]; decide) ?_ hwf
  rw [decodeOp_21 w ho]
  unfold decode21
  subst hw
  simp only [rrFn_encRR, rrSd_encRR, rrSa_encRR, rrSb_encRR, rrPg_encRR, rrPn_encRR, rrW_encRR]
  rfl

theorem fcvtTobf16 : ∀ o, Statement (.fcvtTobf16 o) := by
  intro o w hw hwf
  replace hw := (Option.some.inj hw).symm
  have ho : opOf w = 0x21#8 := hw ▸ opOf_encRR ..
  refine decode_of w _ (by rw [ho]; decide) (by rw [ho]; decide) ?_ hwf
  rw [decodeOp_21 w ho]
  unfold decode21
  subst hw
  simp only [rrFn_encRR, rrSd_encRR, rrSa_encRR, rrSb_encRR, rrPg_encRR, rrPn_encRR, rrW_encRR]
  rfl

theorem fcvtFrombf16 : ∀ o, Statement (.fcvtFrombf16 o) := by
  intro o w hw hwf
  replace hw := (Option.some.inj hw).symm
  have ho : opOf w = 0x21#8 := hw ▸ opOf_encRR ..
  refine decode_of w _ (by rw [ho]; decide) (by rw [ho]; decide) ?_ hwf
  rw [decodeOp_21 w ho]
  unfold decode21
  subst hw
  simp only [rrFn_encRR, rrSd_encRR, rrSa_encRR, rrSb_encRR, rrPg_encRR, rrPn_encRR, rrW_encRR]
  rfl

theorem fcvtTofp16 : ∀ o, Statement (.fcvtTofp16 o) := by
  intro o w hw hwf
  replace hw := (Option.some.inj hw).symm
  have ho : opOf w = 0x21#8 := hw ▸ opOf_encRR ..
  refine decode_of w _ (by rw [ho]; decide) (by rw [ho]; decide) ?_ hwf
  rw [decodeOp_21 w ho]
  unfold decode21
  subst hw
  simp only [rrFn_encRR, rrSd_encRR, rrSa_encRR, rrSb_encRR, rrPg_encRR, rrPn_encRR, rrW_encRR]
  rfl

theorem fcvtFromfp16 : ∀ o, Statement (.fcvtFromfp16 o) := by
  intro o w hw hwf
  replace hw := (Option.some.inj hw).symm
  have ho : opOf w = 0x21#8 := hw ▸ opOf_encRR ..
  refine decode_of w _ (by rw [ho]; decide) (by rw [ho]; decide) ?_ hwf
  rw [decodeOp_21 w ho]
  unfold decode21
  subst hw
  simp only [rrFn_encRR, rrSd_encRR, rrSa_encRR, rrSb_encRR, rrPg_encRR, rrPn_encRR, rrW_encRR]
  rfl

theorem fcmpFeq : ∀ o, Statement (.fcmpFeq o) := by
  intro o w hw hwf
  replace hw := (Option.some.inj hw).symm
  have ho : opOf w = 0x22#8 := hw ▸ opOf_encRR ..
  refine decode_of w _ (by rw [ho]; decide) (by rw [ho]; decide) ?_ hwf
  rw [decodeOp_22 w ho]
  unfold decode22
  subst hw
  simp only [rrFn_encRR, rrSd_encRR, rrSa_encRR, rrSb_encRR, rrPg_encRR, rrPn_encRR, rrW_encRR]
  rfl

theorem fcmpFlt : ∀ o, Statement (.fcmpFlt o) := by
  intro o w hw hwf
  replace hw := (Option.some.inj hw).symm
  have ho : opOf w = 0x22#8 := hw ▸ opOf_encRR ..
  refine decode_of w _ (by rw [ho]; decide) (by rw [ho]; decide) ?_ hwf
  rw [decodeOp_22 w ho]
  unfold decode22
  subst hw
  simp only [rrFn_encRR, rrSd_encRR, rrSa_encRR, rrSb_encRR, rrPg_encRR, rrPn_encRR, rrW_encRR]
  rfl

theorem fcmpFle : ∀ o, Statement (.fcmpFle o) := by
  intro o w hw hwf
  replace hw := (Option.some.inj hw).symm
  have ho : opOf w = 0x22#8 := hw ▸ opOf_encRR ..
  refine decode_of w _ (by rw [ho]; decide) (by rw [ho]; decide) ?_ hwf
  rw [decodeOp_22 w ho]
  unfold decode22
  subst hw
  simp only [rrFn_encRR, rrSd_encRR, rrSa_encRR, rrSb_encRR, rrPg_encRR, rrPn_encRR, rrW_encRR]
  rfl

theorem fcmpFun : ∀ o, Statement (.fcmpFun o) := by
  intro o w hw hwf
  replace hw := (Option.some.inj hw).symm
  have ho : opOf w = 0x22#8 := hw ▸ opOf_encRR ..
  refine decode_of w _ (by rw [ho]; decide) (by rw [ho]; decide) ?_ hwf
  rw [decodeOp_22 w ho]
  unfold decode22
  subst hw
  simp only [rrFn_encRR, rrSd_encRR, rrSa_encRR, rrSb_encRR, rrPg_encRR, rrPn_encRR, rrW_encRR]
  rfl

theorem cmpEq : ∀ o, Statement (.cmpEq o) := by
  intro o w hw hwf
  replace hw := (Option.some.inj hw).symm
  have ho : opOf w = 0x30#8 := hw ▸ opOf_encRR ..
  refine decode_of w _ (by rw [ho]; decide) (by rw [ho]; decide) ?_ hwf
  rw [decodeOp_30 w ho]
  unfold decode30
  subst hw
  simp only [rrFn_encRR, rrSd_encRR, rrSa_encRR, rrSb_encRR, rrPg_encRR, rrPn_encRR, rrW_encRR]
  rfl

theorem cmpNe : ∀ o, Statement (.cmpNe o) := by
  intro o w hw hwf
  replace hw := (Option.some.inj hw).symm
  have ho : opOf w = 0x30#8 := hw ▸ opOf_encRR ..
  refine decode_of w _ (by rw [ho]; decide) (by rw [ho]; decide) ?_ hwf
  rw [decodeOp_30 w ho]
  unfold decode30
  subst hw
  simp only [rrFn_encRR, rrSd_encRR, rrSa_encRR, rrSb_encRR, rrPg_encRR, rrPn_encRR, rrW_encRR]
  rfl

theorem cmpLt : ∀ o, Statement (.cmpLt o) := by
  intro o w hw hwf
  replace hw := (Option.some.inj hw).symm
  have ho : opOf w = 0x30#8 := hw ▸ opOf_encRR ..
  refine decode_of w _ (by rw [ho]; decide) (by rw [ho]; decide) ?_ hwf
  rw [decodeOp_30 w ho]
  unfold decode30
  subst hw
  simp only [rrFn_encRR, rrSd_encRR, rrSa_encRR, rrSb_encRR, rrPg_encRR, rrPn_encRR, rrW_encRR]
  rfl

theorem cmpLtu : ∀ o, Statement (.cmpLtu o) := by
  intro o w hw hwf
  replace hw := (Option.some.inj hw).symm
  have ho : opOf w = 0x30#8 := hw ▸ opOf_encRR ..
  refine decode_of w _ (by rw [ho]; decide) (by rw [ho]; decide) ?_ hwf
  rw [decodeOp_30 w ho]
  unfold decode30
  subst hw
  simp only [rrFn_encRR, rrSd_encRR, rrSa_encRR, rrSb_encRR, rrPg_encRR, rrPn_encRR, rrW_encRR]
  rfl

theorem cmpLe : ∀ o, Statement (.cmpLe o) := by
  intro o w hw hwf
  replace hw := (Option.some.inj hw).symm
  have ho : opOf w = 0x30#8 := hw ▸ opOf_encRR ..
  refine decode_of w _ (by rw [ho]; decide) (by rw [ho]; decide) ?_ hwf
  rw [decodeOp_30 w ho]
  unfold decode30
  subst hw
  simp only [rrFn_encRR, rrSd_encRR, rrSa_encRR, rrSb_encRR, rrPg_encRR, rrPn_encRR, rrW_encRR]
  rfl

theorem cmpLeu : ∀ o, Statement (.cmpLeu o) := by
  intro o w hw hwf
  replace hw := (Option.some.inj hw).symm
  have ho : opOf w = 0x30#8 := hw ▸ opOf_encRR ..
  refine decode_of w _ (by rw [ho]; decide) (by rw [ho]; decide) ?_ hwf
  rw [decodeOp_30 w ho]
  unfold decode30
  subst hw
  simp only [rrFn_encRR, rrSd_encRR, rrSa_encRR, rrSb_encRR, rrPg_encRR, rrPn_encRR, rrW_encRR]
  rfl

theorem cmpGt : ∀ o, Statement (.cmpGt o) := by
  intro o w hw hwf
  replace hw := (Option.some.inj hw).symm
  have ho : opOf w = 0x30#8 := hw ▸ opOf_encRR ..
  refine decode_of w _ (by rw [ho]; decide) (by rw [ho]; decide) ?_ hwf
  rw [decodeOp_30 w ho]
  unfold decode30
  subst hw
  simp only [rrFn_encRR, rrSd_encRR, rrSa_encRR, rrSb_encRR, rrPg_encRR, rrPn_encRR, rrW_encRR]
  rfl

theorem cmpGtu : ∀ o, Statement (.cmpGtu o) := by
  intro o w hw hwf
  replace hw := (Option.some.inj hw).symm
  have ho : opOf w = 0x30#8 := hw ▸ opOf_encRR ..
  refine decode_of w _ (by rw [ho]; decide) (by rw [ho]; decide) ?_ hwf
  rw [decodeOp_30 w ho]
  unfold decode30
  subst hw
  simp only [rrFn_encRR, rrSd_encRR, rrSa_encRR, rrSb_encRR, rrPg_encRR, rrPn_encRR, rrW_encRR]
  rfl

theorem cmpGe : ∀ o, Statement (.cmpGe o) := by
  intro o w hw hwf
  replace hw := (Option.some.inj hw).symm
  have ho : opOf w = 0x30#8 := hw ▸ opOf_encRR ..
  refine decode_of w _ (by rw [ho]; decide) (by rw [ho]; decide) ?_ hwf
  rw [decodeOp_30 w ho]
  unfold decode30
  subst hw
  simp only [rrFn_encRR, rrSd_encRR, rrSa_encRR, rrSb_encRR, rrPg_encRR, rrPn_encRR, rrW_encRR]
  rfl

theorem cmpGeu : ∀ o, Statement (.cmpGeu o) := by
  intro o w hw hwf
  replace hw := (Option.some.inj hw).symm
  have ho : opOf w = 0x30#8 := hw ▸ opOf_encRR ..
  refine decode_of w _ (by rw [ho]; decide) (by rw [ho]; decide) ?_ hwf
  rw [decodeOp_30 w ho]
  unfold decode30
  subst hw
  simp only [rrFn_encRR, rrSd_encRR, rrSa_encRR, rrSb_encRR, rrPg_encRR, rrPn_encRR, rrW_encRR]
  rfl

theorem cmpTst : ∀ o, Statement (.cmpTst o) := by
  intro o w hw hwf
  replace hw := (Option.some.inj hw).symm
  have ho : opOf w = 0x30#8 := hw ▸ opOf_encRR ..
  refine decode_of w _ (by rw [ho]; decide) (by rw [ho]; decide) ?_ hwf
  rw [decodeOp_30 w ho]
  unfold decode30
  subst hw
  simp only [rrFn_encRR, rrSd_encRR, rrSa_encRR, rrSb_encRR, rrPg_encRR, rrPn_encRR, rrW_encRR]
  rfl

theorem ceqi : ∀ o, Statement (.ceqi o) := by
  intro o w hw hwf
  replace hw := (Option.some.inj hw).symm
  have ho : opOf w = 0x31#8 := hw ▸ opOf_encRI ..
  refine decode_of w _ (by rw [ho]; decide) (by rw [ho]; decide) ?_ hwf
  rw [decodeOp_31 w ho]
  unfold decode31
  subst hw
  simp only [riSd_encRI, riSa_encRI, riImm_encRI]

theorem clti : ∀ o, Statement (.clti o) := by
  intro o w hw hwf
  replace hw := (Option.some.inj hw).symm
  have ho : opOf w = 0x32#8 := hw ▸ opOf_encRI ..
  refine decode_of w _ (by rw [ho]; decide) (by rw [ho]; decide) ?_ hwf
  rw [decodeOp_32 w ho]
  unfold decode32
  subst hw
  simp only [riSd_encRI, riSa_encRI, riImm_encRI]

theorem cltui : ∀ o, Statement (.cltui o) := by
  intro o w hw hwf
  replace hw := (Option.some.inj hw).symm
  have ho : opOf w = 0x33#8 := hw ▸ opOf_encRI ..
  refine decode_of w _ (by rw [ho]; decide) (by rw [ho]; decide) ?_ hwf
  rw [decodeOp_33 w ho]
  unfold decode33
  subst hw
  simp only [riSd_encRI, riSa_encRI, riImm_encRI]

theorem predAnd : ∀ o, Statement (.predAnd o) := by
  intro o w hw hwf
  replace hw := (Option.some.inj hw).symm
  have hz : w &&& (0x00008400 : W32) = 0#32 := by
    subst hw
    refine and_zero _ _ fun i hi h => ?_
    have hb : i = 10 ∨ i = 15 := by revert i; decide
    rcases hb with rfl | rfl <;> (simp only [encRR, getLsbD_app, Nat.reduceLT, Nat.reduceSub, ↓reduceIte]; rfl)
  have h0 : BitVec.extractLsb' 0 4 (0#1 ++ o.pa : BitVec 5) = o.pa := by
    clear hw hwf hz; generalize o.pa = t0; revert t0; decide
  have h1 : BitVec.extractLsb' 0 4 (0#1 ++ o.pb : BitVec 5) = o.pb := by
    clear hw hwf hz h0; generalize o.pb = t0; revert t0; decide
  have ho : opOf w = 0x34#8 := hw ▸ opOf_encRR ..
  refine decode_of w _ (by rw [ho]; decide) (by rw [ho]; decide) ?_ hwf
  rw [decodeOp_34 w ho]
  unfold decode34
  subst hw
  simp only [rrFn_encRR, rrSd_encRR, rrSa_encRR, rrSb_encRR, rrPg_encRR, rrPn_encRR, rrW_encRR, h0, h1]
  exact zeros_ok hz _

theorem predOr : ∀ o, Statement (.predOr o) := by
  intro o w hw hwf
  replace hw := (Option.some.inj hw).symm
  have hz : w &&& (0x00008400 : W32) = 0#32 := by
    subst hw
    refine and_zero _ _ fun i hi h => ?_
    have hb : i = 10 ∨ i = 15 := by revert i; decide
    rcases hb with rfl | rfl <;> (simp only [encRR, getLsbD_app, Nat.reduceLT, Nat.reduceSub, ↓reduceIte]; rfl)
  have h0 : BitVec.extractLsb' 0 4 (0#1 ++ o.pa : BitVec 5) = o.pa := by
    clear hw hwf hz; generalize o.pa = t0; revert t0; decide
  have h1 : BitVec.extractLsb' 0 4 (0#1 ++ o.pb : BitVec 5) = o.pb := by
    clear hw hwf hz h0; generalize o.pb = t0; revert t0; decide
  have ho : opOf w = 0x34#8 := hw ▸ opOf_encRR ..
  refine decode_of w _ (by rw [ho]; decide) (by rw [ho]; decide) ?_ hwf
  rw [decodeOp_34 w ho]
  unfold decode34
  subst hw
  simp only [rrFn_encRR, rrSd_encRR, rrSa_encRR, rrSb_encRR, rrPg_encRR, rrPn_encRR, rrW_encRR, h0, h1]
  exact zeros_ok hz _

theorem predXor : ∀ o, Statement (.predXor o) := by
  intro o w hw hwf
  replace hw := (Option.some.inj hw).symm
  have hz : w &&& (0x00008400 : W32) = 0#32 := by
    subst hw
    refine and_zero _ _ fun i hi h => ?_
    have hb : i = 10 ∨ i = 15 := by revert i; decide
    rcases hb with rfl | rfl <;> (simp only [encRR, getLsbD_app, Nat.reduceLT, Nat.reduceSub, ↓reduceIte]; rfl)
  have h0 : BitVec.extractLsb' 0 4 (0#1 ++ o.pa : BitVec 5) = o.pa := by
    clear hw hwf hz; generalize o.pa = t0; revert t0; decide
  have h1 : BitVec.extractLsb' 0 4 (0#1 ++ o.pb : BitVec 5) = o.pb := by
    clear hw hwf hz h0; generalize o.pb = t0; revert t0; decide
  have ho : opOf w = 0x34#8 := hw ▸ opOf_encRR ..
  refine decode_of w _ (by rw [ho]; decide) (by rw [ho]; decide) ?_ hwf
  rw [decodeOp_34 w ho]
  unfold decode34
  subst hw
  simp only [rrFn_encRR, rrSd_encRR, rrSa_encRR, rrSb_encRR, rrPg_encRR, rrPn_encRR, rrW_encRR, h0, h1]
  exact zeros_ok hz _

theorem predAndn : ∀ o, Statement (.predAndn o) := by
  intro o w hw hwf
  replace hw := (Option.some.inj hw).symm
  have hz : w &&& (0x00008400 : W32) = 0#32 := by
    subst hw
    refine and_zero _ _ fun i hi h => ?_
    have hb : i = 10 ∨ i = 15 := by revert i; decide
    rcases hb with rfl | rfl <;> (simp only [encRR, getLsbD_app, Nat.reduceLT, Nat.reduceSub, ↓reduceIte]; rfl)
  have h0 : BitVec.extractLsb' 0 4 (0#1 ++ o.pa : BitVec 5) = o.pa := by
    clear hw hwf hz; generalize o.pa = t0; revert t0; decide
  have h1 : BitVec.extractLsb' 0 4 (0#1 ++ o.pb : BitVec 5) = o.pb := by
    clear hw hwf hz h0; generalize o.pb = t0; revert t0; decide
  have ho : opOf w = 0x34#8 := hw ▸ opOf_encRR ..
  refine decode_of w _ (by rw [ho]; decide) (by rw [ho]; decide) ?_ hwf
  rw [decodeOp_34 w ho]
  unfold decode34
  subst hw
  simp only [rrFn_encRR, rrSd_encRR, rrSa_encRR, rrSb_encRR, rrPg_encRR, rrPn_encRR, rrW_encRR, h0, h1]
  exact zeros_ok hz _

theorem predNot : ∀ o, Statement (.predNot o) := by
  intro o w hw hwf
  replace hw := (Option.some.inj hw).symm
  have hz : w &&& (0x00008400 : W32) = 0#32 := by
    subst hw
    refine and_zero _ _ fun i hi h => ?_
    have hb : i = 10 ∨ i = 15 := by revert i; decide
    rcases hb with rfl | rfl <;> (simp only [encRR, getLsbD_app, Nat.reduceLT, Nat.reduceSub, ↓reduceIte]; rfl)
  have h0 : BitVec.extractLsb' 0 4 (0#1 ++ o.pa : BitVec 5) = o.pa := by
    clear hw hwf hz; generalize o.pa = t0; revert t0; decide
  have ho : opOf w = 0x34#8 := hw ▸ opOf_encRR ..
  refine decode_of w _ (by rw [ho]; decide) (by rw [ho]; decide) ?_ hwf
  rw [decodeOp_34 w ho]
  unfold decode34
  subst hw
  simp only [rrFn_encRR, rrSd_encRR, rrSa_encRR, rrSb_encRR, rrPg_encRR, rrPn_encRR, rrW_encRR, h0]
  exact zeros_ok hz _

theorem predMov : ∀ o, Statement (.predMov o) := by
  intro o w hw hwf
  replace hw := (Option.some.inj hw).symm
  have hz : w &&& (0x00008400 : W32) = 0#32 := by
    subst hw
    refine and_zero _ _ fun i hi h => ?_
    have hb : i = 10 ∨ i = 15 := by revert i; decide
    rcases hb with rfl | rfl <;> (simp only [encRR, getLsbD_app, Nat.reduceLT, Nat.reduceSub, ↓reduceIte]; rfl)
  have h0 : BitVec.extractLsb' 0 4 (0#1 ++ o.pa : BitVec 5) = o.pa := by
    clear hw hwf hz; generalize o.pa = t0; revert t0; decide
  have ho : opOf w = 0x34#8 := hw ▸ opOf_encRR ..
  refine decode_of w _ (by rw [ho]; decide) (by rw [ho]; decide) ?_ hwf
  rw [decodeOp_34 w ho]
  unfold decode34
  subst hw
  simp only [rrFn_encRR, rrSd_encRR, rrSa_encRR, rrSb_encRR, rrPg_encRR, rrPn_encRR, rrW_encRR, h0]
  exact zeros_ok hz _

theorem ld : ∀ o, Statement (.ld o) := by
  intro o w hw hwf
  replace hw := (Option.some.inj hw).symm
  have ho : opOf w = 0x40#8 := hw ▸ opOf_encMEM ..
  refine decode_of w _ (by rw [ho]; decide) (by rw [ho]; decide) ?_ hwf
  rw [decodeOp_40 w ho]
  unfold decode40
  subst hw
  simp only [memSd_encMEM, memSb_encMEM, memSz_encMEM, memRh_encMEM, memOff_encMEM]

theorem st : ∀ o, Statement (.st o) := by
  intro o w hw hwf
  replace hw := (Option.some.inj hw).symm
  have ho : opOf w = 0x41#8 := hw ▸ opOf_encMEM ..
  refine decode_of w _ (by rw [ho]; decide) (by rw [ho]; decide) ?_ hwf
  rw [decodeOp_41 w ho]
  unfold decode41
  subst hw
  simp only [memSd_encMEM, memSb_encMEM, memSz_encMEM, memRh_encMEM, memOff_encMEM]

theorem ldacq : ∀ o, Statement (.ldacq o) := by
  intro o w hw hwf
  replace hw := (Option.some.inj hw).symm
  have ho : opOf w = 0x42#8 := hw ▸ opOf_encMEM ..
  refine decode_of w _ (by rw [ho]; decide) (by rw [ho]; decide) ?_ hwf
  rw [decodeOp_42 w ho]
  unfold decode42
  subst hw
  simp only [memSd_encMEM, memSb_encMEM, memSz_encMEM, memRh_encMEM, memOff_encMEM]

theorem strel : ∀ o, Statement (.strel o) := by
  intro o w hw hwf
  replace hw := (Option.some.inj hw).symm
  have ho : opOf w = 0x43#8 := hw ▸ opOf_encMEM ..
  refine decode_of w _ (by rw [ho]; decide) (by rw [ho]; decide) ?_ hwf
  rw [decodeOp_43 w ho]
  unfold decode43
  subst hw
  simp only [memSd_encMEM, memSb_encMEM, memSz_encMEM, memRh_encMEM, memOff_encMEM]

theorem ldsy : ∀ o, Statement (.ldsy o) := by
  intro o w hw hwf
  replace hw := (Option.some.inj hw).symm
  have ho : opOf w = 0x44#8 := hw ▸ opOf_encMEM ..
  refine decode_of w _ (by rw [ho]; decide) (by rw [ho]; decide) ?_ hwf
  rw [decodeOp_44 w ho]
  unfold decode44
  subst hw
  simp only [memSd_encMEM, memSb_encMEM, memSz_encMEM, memRh_encMEM, memOff_encMEM]

theorem stsy : ∀ o, Statement (.stsy o) := by
  intro o w hw hwf
  replace hw := (Option.some.inj hw).symm
  have ho : opOf w = 0x45#8 := hw ▸ opOf_encMEM ..
  refine decode_of w _ (by rw [ho]; decide) (by rw [ho]; decide) ?_ hwf
  rw [decodeOp_45 w ho]
  unfold decode45
  subst hw
  simp only [memSd_encMEM, memSb_encMEM, memSz_encMEM, memRh_encMEM, memOff_encMEM]

theorem pf : ∀ o, Statement (.pf o) := by
  intro o w hw hwf
  replace hw := (Option.some.inj hw).symm
  have ho : opOf w = 0x46#8 := hw ▸ opOf_encMEM ..
  refine decode_of w _ (by rw [ho]; decide) (by rw [ho]; decide) ?_ hwf
  rw [decodeOp_46 w ho]
  unfold decode46
  subst hw
  simp only [memSd_encMEM, memSb_encMEM, memSz_encMEM, memRh_encMEM, memOff_encMEM]

theorem amoAdd : ∀ o, Statement (.amoAdd o) := by
  intro o w hw hwf
  replace hw := (Option.some.inj hw).symm
  have h0 : BitVec.extractLsb' 4 2 (o.ord ++ o.sc ++ o.sz : BitVec 6) = o.ord := by
    clear hw hwf; generalize o.ord = t0; generalize o.sc = t1; generalize o.sz = t2; revert t0 t1 t2; decide
  have h1 : BitVec.extractLsb' 2 2 (o.ord ++ o.sc ++ o.sz : BitVec 6) = o.sc := by
    clear hw hwf h0; generalize o.ord = t0; generalize o.sc = t1; generalize o.sz = t2; revert t0 t1 t2; decide
  have h2 : BitVec.extractLsb' 0 2 (o.ord ++ o.sc ++ o.sz : BitVec 6) = o.sz := by
    clear hw hwf h0 h1; generalize o.ord = t0; generalize o.sc = t1; generalize o.sz = t2; revert t0 t1 t2; decide
  have ho : opOf w = 0x47#8 := hw ▸ opOf_encEN ..
  refine decode_of w _ (by rw [ho]; decide) (by rw [ho]; decide) ?_ hwf
  rw [decodeOp_47 w ho]
  unfold decode47
  subst hw
  simp only [enFn_encEN, enSa_encEN, enSb_encEN, enSd_encEN, enImm_encEN, h0, h1, h2]
  rfl

theorem amoAnd : ∀ o, Statement (.amoAnd o) := by
  intro o w hw hwf
  replace hw := (Option.some.inj hw).symm
  have h0 : BitVec.extractLsb' 4 2 (o.ord ++ o.sc ++ o.sz : BitVec 6) = o.ord := by
    clear hw hwf; generalize o.ord = t0; generalize o.sc = t1; generalize o.sz = t2; revert t0 t1 t2; decide
  have h1 : BitVec.extractLsb' 2 2 (o.ord ++ o.sc ++ o.sz : BitVec 6) = o.sc := by
    clear hw hwf h0; generalize o.ord = t0; generalize o.sc = t1; generalize o.sz = t2; revert t0 t1 t2; decide
  have h2 : BitVec.extractLsb' 0 2 (o.ord ++ o.sc ++ o.sz : BitVec 6) = o.sz := by
    clear hw hwf h0 h1; generalize o.ord = t0; generalize o.sc = t1; generalize o.sz = t2; revert t0 t1 t2; decide
  have ho : opOf w = 0x47#8 := hw ▸ opOf_encEN ..
  refine decode_of w _ (by rw [ho]; decide) (by rw [ho]; decide) ?_ hwf
  rw [decodeOp_47 w ho]
  unfold decode47
  subst hw
  simp only [enFn_encEN, enSa_encEN, enSb_encEN, enSd_encEN, enImm_encEN, h0, h1, h2]
  rfl

theorem amoOr : ∀ o, Statement (.amoOr o) := by
  intro o w hw hwf
  replace hw := (Option.some.inj hw).symm
  have h0 : BitVec.extractLsb' 4 2 (o.ord ++ o.sc ++ o.sz : BitVec 6) = o.ord := by
    clear hw hwf; generalize o.ord = t0; generalize o.sc = t1; generalize o.sz = t2; revert t0 t1 t2; decide
  have h1 : BitVec.extractLsb' 2 2 (o.ord ++ o.sc ++ o.sz : BitVec 6) = o.sc := by
    clear hw hwf h0; generalize o.ord = t0; generalize o.sc = t1; generalize o.sz = t2; revert t0 t1 t2; decide
  have h2 : BitVec.extractLsb' 0 2 (o.ord ++ o.sc ++ o.sz : BitVec 6) = o.sz := by
    clear hw hwf h0 h1; generalize o.ord = t0; generalize o.sc = t1; generalize o.sz = t2; revert t0 t1 t2; decide
  have ho : opOf w = 0x47#8 := hw ▸ opOf_encEN ..
  refine decode_of w _ (by rw [ho]; decide) (by rw [ho]; decide) ?_ hwf
  rw [decodeOp_47 w ho]
  unfold decode47
  subst hw
  simp only [enFn_encEN, enSa_encEN, enSb_encEN, enSd_encEN, enImm_encEN, h0, h1, h2]
  rfl

theorem amoXor : ∀ o, Statement (.amoXor o) := by
  intro o w hw hwf
  replace hw := (Option.some.inj hw).symm
  have h0 : BitVec.extractLsb' 4 2 (o.ord ++ o.sc ++ o.sz : BitVec 6) = o.ord := by
    clear hw hwf; generalize o.ord = t0; generalize o.sc = t1; generalize o.sz = t2; revert t0 t1 t2; decide
  have h1 : BitVec.extractLsb' 2 2 (o.ord ++ o.sc ++ o.sz : BitVec 6) = o.sc := by
    clear hw hwf h0; generalize o.ord = t0; generalize o.sc = t1; generalize o.sz = t2; revert t0 t1 t2; decide
  have h2 : BitVec.extractLsb' 0 2 (o.ord ++ o.sc ++ o.sz : BitVec 6) = o.sz := by
    clear hw hwf h0 h1; generalize o.ord = t0; generalize o.sc = t1; generalize o.sz = t2; revert t0 t1 t2; decide
  have ho : opOf w = 0x47#8 := hw ▸ opOf_encEN ..
  refine decode_of w _ (by rw [ho]; decide) (by rw [ho]; decide) ?_ hwf
  rw [decodeOp_47 w ho]
  unfold decode47
  subst hw
  simp only [enFn_encEN, enSa_encEN, enSb_encEN, enSd_encEN, enImm_encEN, h0, h1, h2]
  rfl

theorem amoMin : ∀ o, Statement (.amoMin o) := by
  intro o w hw hwf
  replace hw := (Option.some.inj hw).symm
  have h0 : BitVec.extractLsb' 4 2 (o.ord ++ o.sc ++ o.sz : BitVec 6) = o.ord := by
    clear hw hwf; generalize o.ord = t0; generalize o.sc = t1; generalize o.sz = t2; revert t0 t1 t2; decide
  have h1 : BitVec.extractLsb' 2 2 (o.ord ++ o.sc ++ o.sz : BitVec 6) = o.sc := by
    clear hw hwf h0; generalize o.ord = t0; generalize o.sc = t1; generalize o.sz = t2; revert t0 t1 t2; decide
  have h2 : BitVec.extractLsb' 0 2 (o.ord ++ o.sc ++ o.sz : BitVec 6) = o.sz := by
    clear hw hwf h0 h1; generalize o.ord = t0; generalize o.sc = t1; generalize o.sz = t2; revert t0 t1 t2; decide
  have ho : opOf w = 0x47#8 := hw ▸ opOf_encEN ..
  refine decode_of w _ (by rw [ho]; decide) (by rw [ho]; decide) ?_ hwf
  rw [decodeOp_47 w ho]
  unfold decode47
  subst hw
  simp only [enFn_encEN, enSa_encEN, enSb_encEN, enSd_encEN, enImm_encEN, h0, h1, h2]
  rfl

theorem amoMax : ∀ o, Statement (.amoMax o) := by
  intro o w hw hwf
  replace hw := (Option.some.inj hw).symm
  have h0 : BitVec.extractLsb' 4 2 (o.ord ++ o.sc ++ o.sz : BitVec 6) = o.ord := by
    clear hw hwf; generalize o.ord = t0; generalize o.sc = t1; generalize o.sz = t2; revert t0 t1 t2; decide
  have h1 : BitVec.extractLsb' 2 2 (o.ord ++ o.sc ++ o.sz : BitVec 6) = o.sc := by
    clear hw hwf h0; generalize o.ord = t0; generalize o.sc = t1; generalize o.sz = t2; revert t0 t1 t2; decide
  have h2 : BitVec.extractLsb' 0 2 (o.ord ++ o.sc ++ o.sz : BitVec 6) = o.sz := by
    clear hw hwf h0 h1; generalize o.ord = t0; generalize o.sc = t1; generalize o.sz = t2; revert t0 t1 t2; decide
  have ho : opOf w = 0x47#8 := hw ▸ opOf_encEN ..
  refine decode_of w _ (by rw [ho]; decide) (by rw [ho]; decide) ?_ hwf
  rw [decodeOp_47 w ho]
  unfold decode47
  subst hw
  simp only [enFn_encEN, enSa_encEN, enSb_encEN, enSd_encEN, enImm_encEN, h0, h1, h2]
  rfl

theorem amoMinu : ∀ o, Statement (.amoMinu o) := by
  intro o w hw hwf
  replace hw := (Option.some.inj hw).symm
  have h0 : BitVec.extractLsb' 4 2 (o.ord ++ o.sc ++ o.sz : BitVec 6) = o.ord := by
    clear hw hwf; generalize o.ord = t0; generalize o.sc = t1; generalize o.sz = t2; revert t0 t1 t2; decide
  have h1 : BitVec.extractLsb' 2 2 (o.ord ++ o.sc ++ o.sz : BitVec 6) = o.sc := by
    clear hw hwf h0; generalize o.ord = t0; generalize o.sc = t1; generalize o.sz = t2; revert t0 t1 t2; decide
  have h2 : BitVec.extractLsb' 0 2 (o.ord ++ o.sc ++ o.sz : BitVec 6) = o.sz := by
    clear hw hwf h0 h1; generalize o.ord = t0; generalize o.sc = t1; generalize o.sz = t2; revert t0 t1 t2; decide
  have ho : opOf w = 0x47#8 := hw ▸ opOf_encEN ..
  refine decode_of w _ (by rw [ho]; decide) (by rw [ho]; decide) ?_ hwf
  rw [decodeOp_47 w ho]
  unfold decode47
  subst hw
  simp only [enFn_encEN, enSa_encEN, enSb_encEN, enSd_encEN, enImm_encEN, h0, h1, h2]
  rfl

theorem amoMaxu : ∀ o, Statement (.amoMaxu o) := by
  intro o w hw hwf
  replace hw := (Option.some.inj hw).symm
  have h0 : BitVec.extractLsb' 4 2 (o.ord ++ o.sc ++ o.sz : BitVec 6) = o.ord := by
    clear hw hwf; generalize o.ord = t0; generalize o.sc = t1; generalize o.sz = t2; revert t0 t1 t2; decide
  have h1 : BitVec.extractLsb' 2 2 (o.ord ++ o.sc ++ o.sz : BitVec 6) = o.sc := by
    clear hw hwf h0; generalize o.ord = t0; generalize o.sc = t1; generalize o.sz = t2; revert t0 t1 t2; decide
  have h2 : BitVec.extractLsb' 0 2 (o.ord ++ o.sc ++ o.sz : BitVec 6) = o.sz := by
    clear hw hwf h0 h1; generalize o.ord = t0; generalize o.sc = t1; generalize o.sz = t2; revert t0 t1 t2; decide
  have ho : opOf w = 0x47#8 := hw ▸ opOf_encEN ..
  refine decode_of w _ (by rw [ho]; decide) (by rw [ho]; decide) ?_ hwf
  rw [decodeOp_47 w ho]
  unfold decode47
  subst hw
  simp only [enFn_encEN, enSa_encEN, enSb_encEN, enSd_encEN, enImm_encEN, h0, h1, h2]
  rfl

theorem amoSwap : ∀ o, Statement (.amoSwap o) := by
  intro o w hw hwf
  replace hw := (Option.some.inj hw).symm
  have h0 : BitVec.extractLsb' 4 2 (o.ord ++ o.sc ++ o.sz : BitVec 6) = o.ord := by
    clear hw hwf; generalize o.ord = t0; generalize o.sc = t1; generalize o.sz = t2; revert t0 t1 t2; decide
  have h1 : BitVec.extractLsb' 2 2 (o.ord ++ o.sc ++ o.sz : BitVec 6) = o.sc := by
    clear hw hwf h0; generalize o.ord = t0; generalize o.sc = t1; generalize o.sz = t2; revert t0 t1 t2; decide
  have h2 : BitVec.extractLsb' 0 2 (o.ord ++ o.sc ++ o.sz : BitVec 6) = o.sz := by
    clear hw hwf h0 h1; generalize o.ord = t0; generalize o.sc = t1; generalize o.sz = t2; revert t0 t1 t2; decide
  have ho : opOf w = 0x47#8 := hw ▸ opOf_encEN ..
  refine decode_of w _ (by rw [ho]; decide) (by rw [ho]; decide) ?_ hwf
  rw [decodeOp_47 w ho]
  unfold decode47
  subst hw
  simp only [enFn_encEN, enSa_encEN, enSb_encEN, enSd_encEN, enImm_encEN, h0, h1, h2]
  rfl

theorem amoCas : ∀ o, Statement (.amoCas o) := by
  intro o w hw hwf
  replace hw := (Option.some.inj hw).symm
  have h0 : BitVec.extractLsb' 4 2 (o.ord ++ o.sc ++ o.sz : BitVec 6) = o.ord := by
    clear hw hwf; generalize o.ord = t0; generalize o.sc = t1; generalize o.sz = t2; revert t0 t1 t2; decide
  have h1 : BitVec.extractLsb' 2 2 (o.ord ++ o.sc ++ o.sz : BitVec 6) = o.sc := by
    clear hw hwf h0; generalize o.ord = t0; generalize o.sc = t1; generalize o.sz = t2; revert t0 t1 t2; decide
  have h2 : BitVec.extractLsb' 0 2 (o.ord ++ o.sc ++ o.sz : BitVec 6) = o.sz := by
    clear hw hwf h0 h1; generalize o.ord = t0; generalize o.sc = t1; generalize o.sz = t2; revert t0 t1 t2; decide
  have ho : opOf w = 0x47#8 := hw ▸ opOf_encEN ..
  refine decode_of w _ (by rw [ho]; decide) (by rw [ho]; decide) ?_ hwf
  rw [decodeOp_47 w ho]
  unfold decode47
  subst hw
  simp only [enFn_encEN, enSa_encEN, enSb_encEN, enSd_encEN, enImm_encEN, h0, h1, h2]
  rfl

theorem amoFadd : ∀ o, Statement (.amoFadd o) := by
  intro o w hw hwf
  replace hw := (Option.some.inj hw).symm
  have h0 : BitVec.extractLsb' 4 2 (o.ord ++ o.sc ++ o.sz : BitVec 6) = o.ord := by
    clear hw hwf; generalize o.ord = t0; generalize o.sc = t1; generalize o.sz = t2; revert t0 t1 t2; decide
  have h1 : BitVec.extractLsb' 2 2 (o.ord ++ o.sc ++ o.sz : BitVec 6) = o.sc := by
    clear hw hwf h0; generalize o.ord = t0; generalize o.sc = t1; generalize o.sz = t2; revert t0 t1 t2; decide
  have h2 : BitVec.extractLsb' 0 2 (o.ord ++ o.sc ++ o.sz : BitVec 6) = o.sz := by
    clear hw hwf h0 h1; generalize o.ord = t0; generalize o.sc = t1; generalize o.sz = t2; revert t0 t1 t2; decide
  have ho : opOf w = 0x47#8 := hw ▸ opOf_encEN ..
  refine decode_of w _ (by rw [ho]; decide) (by rw [ho]; decide) ?_ hwf
  rw [decodeOp_47 w ho]
  unfold decode47
  subst hw
  simp only [enFn_encEN, enSa_encEN, enSb_encEN, enSd_encEN, enImm_encEN, h0, h1, h2]
  rfl

theorem redAdd : ∀ o, Statement (.redAdd o) := by
  intro o w hw hwf
  replace hw := (Option.some.inj hw).symm
  have hz : w &&& (0x00000030 : W32) = 0#32 := by
    subst hw
    exact low_zero _ _ _ _ _ _ 0x30#6 (by clear hwf; generalize o.sc = t0; generalize o.sz = t1; revert t0 t1; decide)
  have h0 : BitVec.extractLsb' 2 2 (0#2 ++ o.sc ++ o.sz : BitVec 6) = o.sc := by
    clear hw hwf hz; generalize o.sc = t0; generalize o.sz = t1; revert t0 t1; decide
  have h1 : BitVec.extractLsb' 0 2 (0#2 ++ o.sc ++ o.sz : BitVec 6) = o.sz := by
    clear hw hwf hz h0; generalize o.sc = t0; generalize o.sz = t1; revert t0 t1; decide
  have ho : opOf w = 0x48#8 := hw ▸ opOf_encEN ..
  refine decode_of w _ (by rw [ho]; decide) (by rw [ho]; decide) ?_ hwf
  rw [decodeOp_48 w ho]
  unfold decode48
  subst hw
  simp only [enFn_encEN, enSa_encEN, enSb_encEN, enSd_encEN, enImm_encEN, h0, h1]
  exact zeros_ok hz _

theorem redFadd : ∀ o, Statement (.redFadd o) := by
  intro o w hw hwf
  replace hw := (Option.some.inj hw).symm
  have hz : w &&& (0x00000030 : W32) = 0#32 := by
    subst hw
    exact low_zero _ _ _ _ _ _ 0x30#6 (by clear hwf; generalize o.sc = t0; generalize o.sz = t1; revert t0 t1; decide)
  have h0 : BitVec.extractLsb' 2 2 (0#2 ++ o.sc ++ o.sz : BitVec 6) = o.sc := by
    clear hw hwf hz; generalize o.sc = t0; generalize o.sz = t1; revert t0 t1; decide
  have h1 : BitVec.extractLsb' 0 2 (0#2 ++ o.sc ++ o.sz : BitVec 6) = o.sz := by
    clear hw hwf hz h0; generalize o.sc = t0; generalize o.sz = t1; revert t0 t1; decide
  have ho : opOf w = 0x48#8 := hw ▸ opOf_encEN ..
  refine decode_of w _ (by rw [ho]; decide) (by rw [ho]; decide) ?_ hwf
  rw [decodeOp_48 w ho]
  unfold decode48
  subst hw
  simp only [enFn_encEN, enSa_encEN, enSb_encEN, enSd_encEN, enImm_encEN, h0, h1]
  exact zeros_ok hz _

theorem redMin : ∀ o, Statement (.redMin o) := by
  intro o w hw hwf
  replace hw := (Option.some.inj hw).symm
  have hz : w &&& (0x00000030 : W32) = 0#32 := by
    subst hw
    exact low_zero _ _ _ _ _ _ 0x30#6 (by clear hwf; generalize o.sc = t0; generalize o.sz = t1; revert t0 t1; decide)
  have h0 : BitVec.extractLsb' 2 2 (0#2 ++ o.sc ++ o.sz : BitVec 6) = o.sc := by
    clear hw hwf hz; generalize o.sc = t0; generalize o.sz = t1; revert t0 t1; decide
  have h1 : BitVec.extractLsb' 0 2 (0#2 ++ o.sc ++ o.sz : BitVec 6) = o.sz := by
    clear hw hwf hz h0; generalize o.sc = t0; generalize o.sz = t1; revert t0 t1; decide
  have ho : opOf w = 0x48#8 := hw ▸ opOf_encEN ..
  refine decode_of w _ (by rw [ho]; decide) (by rw [ho]; decide) ?_ hwf
  rw [decodeOp_48 w ho]
  unfold decode48
  subst hw
  simp only [enFn_encEN, enSa_encEN, enSb_encEN, enSd_encEN, enImm_encEN, h0, h1]
  exact zeros_ok hz _

theorem redMax : ∀ o, Statement (.redMax o) := by
  intro o w hw hwf
  replace hw := (Option.some.inj hw).symm
  have hz : w &&& (0x00000030 : W32) = 0#32 := by
    subst hw
    exact low_zero _ _ _ _ _ _ 0x30#6 (by clear hwf; generalize o.sc = t0; generalize o.sz = t1; revert t0 t1; decide)
  have h0 : BitVec.extractLsb' 2 2 (0#2 ++ o.sc ++ o.sz : BitVec 6) = o.sc := by
    clear hw hwf hz; generalize o.sc = t0; generalize o.sz = t1; revert t0 t1; decide
  have h1 : BitVec.extractLsb' 0 2 (0#2 ++ o.sc ++ o.sz : BitVec 6) = o.sz := by
    clear hw hwf hz h0; generalize o.sc = t0; generalize o.sz = t1; revert t0 t1; decide
  have ho : opOf w = 0x48#8 := hw ▸ opOf_encEN ..
  refine decode_of w _ (by rw [ho]; decide) (by rw [ho]; decide) ?_ hwf
  rw [decodeOp_48 w ho]
  unfold decode48
  subst hw
  simp only [enFn_encEN, enSa_encEN, enSb_encEN, enSd_encEN, enImm_encEN, h0, h1]
  exact zeros_ok hz _

theorem redOr : ∀ o, Statement (.redOr o) := by
  intro o w hw hwf
  replace hw := (Option.some.inj hw).symm
  have hz : w &&& (0x00000030 : W32) = 0#32 := by
    subst hw
    exact low_zero _ _ _ _ _ _ 0x30#6 (by clear hwf; generalize o.sc = t0; generalize o.sz = t1; revert t0 t1; decide)
  have h0 : BitVec.extractLsb' 2 2 (0#2 ++ o.sc ++ o.sz : BitVec 6) = o.sc := by
    clear hw hwf hz; generalize o.sc = t0; generalize o.sz = t1; revert t0 t1; decide
  have h1 : BitVec.extractLsb' 0 2 (0#2 ++ o.sc ++ o.sz : BitVec 6) = o.sz := by
    clear hw hwf hz h0; generalize o.sc = t0; generalize o.sz = t1; revert t0 t1; decide
  have ho : opOf w = 0x48#8 := hw ▸ opOf_encEN ..
  refine decode_of w _ (by rw [ho]; decide) (by rw [ho]; decide) ?_ hwf
  rw [decodeOp_48 w ho]
  unfold decode48
  subst hw
  simp only [enFn_encEN, enSa_encEN, enSb_encEN, enSd_encEN, enImm_encEN, h0, h1]
  exact zeros_ok hz _

theorem redAnd : ∀ o, Statement (.redAnd o) := by
  intro o w hw hwf
  replace hw := (Option.some.inj hw).symm
  have hz : w &&& (0x00000030 : W32) = 0#32 := by
    subst hw
    exact low_zero _ _ _ _ _ _ 0x30#6 (by clear hwf; generalize o.sc = t0; generalize o.sz = t1; revert t0 t1; decide)
  have h0 : BitVec.extractLsb' 2 2 (0#2 ++ o.sc ++ o.sz : BitVec 6) = o.sc := by
    clear hw hwf hz; generalize o.sc = t0; generalize o.sz = t1; revert t0 t1; decide
  have h1 : BitVec.extractLsb' 0 2 (0#2 ++ o.sc ++ o.sz : BitVec 6) = o.sz := by
    clear hw hwf hz h0; generalize o.sc = t0; generalize o.sz = t1; revert t0 t1; decide
  have ho : opOf w = 0x48#8 := hw ▸ opOf_encEN ..
  refine decode_of w _ (by rw [ho]; decide) (by rw [ho]; decide) ?_ hwf
  rw [decodeOp_48 w ho]
  unfold decode48
  subst hw
  simp only [enFn_encEN, enSa_encEN, enSb_encEN, enSd_encEN, enImm_encEN, h0, h1]
  exact zeros_ok hz _

theorem fenceAcq : ∀ sc, Statement (.fenceAcq sc) := by
  intro sc w hw hwf
  replace hw := (Option.some.inj hw).symm
  have h0 : BitVec.extractLsb' 0 2 (0#4 ++ sc : BitVec 6) = sc := by
    clear hw hwf; revert sc; decide
  have ho : opOf w = 0x49#8 := hw ▸ opOf_encEN ..
  refine decode_of w _ (by rw [ho]; decide) (by rw [ho]; decide) ?_ hwf
  rw [decodeOp_49 w ho]
  unfold decode49
  subst hw
  simp only [enFn_encEN, enSa_encEN, enSb_encEN, enSd_encEN, enImm_encEN, h0]
  rfl

theorem fenceRel : ∀ sc, Statement (.fenceRel sc) := by
  intro sc w hw hwf
  replace hw := (Option.some.inj hw).symm
  have h0 : BitVec.extractLsb' 0 2 (0#4 ++ sc : BitVec 6) = sc := by
    clear hw hwf; revert sc; decide
  have ho : opOf w = 0x49#8 := hw ▸ opOf_encEN ..
  refine decode_of w _ (by rw [ho]; decide) (by rw [ho]; decide) ?_ hwf
  rw [decodeOp_49 w ho]
  unfold decode49
  subst hw
  simp only [enFn_encEN, enSa_encEN, enSb_encEN, enSd_encEN, enImm_encEN, h0]
  rfl

theorem fenceFull : ∀ sc, Statement (.fenceFull sc) := by
  intro sc w hw hwf
  replace hw := (Option.some.inj hw).symm
  have h0 : BitVec.extractLsb' 0 2 (0#4 ++ sc : BitVec 6) = sc := by
    clear hw hwf; revert sc; decide
  have ho : opOf w = 0x49#8 := hw ▸ opOf_encEN ..
  refine decode_of w _ (by rw [ho]; decide) (by rw [ho]; decide) ?_ hwf
  rw [decodeOp_49 w ho]
  unfold decode49
  subst hw
  simp only [enFn_encEN, enSa_encEN, enSb_encEN, enSd_encEN, enImm_encEN, h0]
  rfl

theorem go : ∀ sa, Statement (.go sa) := by
  intro sa w hw hwf
  replace hw := (Option.some.inj hw).symm
  have ho : opOf w = 0x4A#8 := hw ▸ opOf_encEN ..
  refine decode_of w _ (by rw [ho]; decide) (by rw [ho]; decide) ?_ hwf
  rw [decodeOp_4A w ho]
  unfold decode4A
  subst hw
  simp only [enFn_encEN, enSa_encEN, enSb_encEN, enSd_encEN, enImm_encEN]
  rfl

theorem vfAdd : ∀ o, Statement (.vfAdd o) := by
  intro o w hw hwf
  replace hw := (Option.some.inj hw).symm
  have ho : opOf w = 0x50#8 := hw ▸ opOf_encVV ..
  refine decode_of w _ (by rw [ho]; decide) (by rw [ho]; decide) ?_ hwf
  rw [decodeOp_50 w ho]
  unfold decode50
  subst hw
  simp only [vvFn_encVV, vvVd_encVV, vvVa_encVV, vvVb_encVV, vvVm_encVV, vvTy_encVV]
  rfl

theorem vfSub : ∀ o, Statement (.vfSub o) := by
  intro o w hw hwf
  replace hw := (Option.some.inj hw).symm
  have ho : opOf w = 0x50#8 := hw ▸ opOf_encVV ..
  refine decode_of w _ (by rw [ho]; decide) (by rw [ho]; decide) ?_ hwf
  rw [decodeOp_50 w ho]
  unfold decode50
  subst hw
  simp only [vvFn_encVV, vvVd_encVV, vvVa_encVV, vvVb_encVV, vvVm_encVV, vvTy_encVV]
  rfl

theorem vfMul : ∀ o, Statement (.vfMul o) := by
  intro o w hw hwf
  replace hw := (Option.some.inj hw).symm
  have ho : opOf w = 0x50#8 := hw ▸ opOf_encVV ..
  refine decode_of w _ (by rw [ho]; decide) (by rw [ho]; decide) ?_ hwf
  rw [decodeOp_50 w ho]
  unfold decode50
  subst hw
  simp only [vvFn_encVV, vvVd_encVV, vvVa_encVV, vvVb_encVV, vvVm_encVV, vvTy_encVV]
  rfl

theorem vfFma : ∀ o, Statement (.vfFma o) := by
  intro o w hw hwf
  replace hw := (Option.some.inj hw).symm
  have ho : opOf w = 0x50#8 := hw ▸ opOf_encVV ..
  refine decode_of w _ (by rw [ho]; decide) (by rw [ho]; decide) ?_ hwf
  rw [decodeOp_50 w ho]
  unfold decode50
  subst hw
  simp only [vvFn_encVV, vvVd_encVV, vvVa_encVV, vvVb_encVV, vvVm_encVV, vvTy_encVV]
  rfl

theorem vfFms : ∀ o, Statement (.vfFms o) := by
  intro o w hw hwf
  replace hw := (Option.some.inj hw).symm
  have ho : opOf w = 0x50#8 := hw ▸ opOf_encVV ..
  refine decode_of w _ (by rw [ho]; decide) (by rw [ho]; decide) ?_ hwf
  rw [decodeOp_50 w ho]
  unfold decode50
  subst hw
  simp only [vvFn_encVV, vvVd_encVV, vvVa_encVV, vvVb_encVV, vvVm_encVV, vvTy_encVV]
  rfl

theorem vfFnma : ∀ o, Statement (.vfFnma o) := by
  intro o w hw hwf
  replace hw := (Option.some.inj hw).symm
  have ho : opOf w = 0x50#8 := hw ▸ opOf_encVV ..
  refine decode_of w _ (by rw [ho]; decide) (by rw [ho]; decide) ?_ hwf
  rw [decodeOp_50 w ho]
  unfold decode50
  subst hw
  simp only [vvFn_encVV, vvVd_encVV, vvVa_encVV, vvVb_encVV, vvVm_encVV, vvTy_encVV]
  rfl

theorem vfMin : ∀ o, Statement (.vfMin o) := by
  intro o w hw hwf
  replace hw := (Option.some.inj hw).symm
  have ho : opOf w = 0x50#8 := hw ▸ opOf_encVV ..
  refine decode_of w _ (by rw [ho]; decide) (by rw [ho]; decide) ?_ hwf
  rw [decodeOp_50 w ho]
  unfold decode50
  subst hw
  simp only [vvFn_encVV, vvVd_encVV, vvVa_encVV, vvVb_encVV, vvVm_encVV, vvTy_encVV]
  rfl

theorem vfMax : ∀ o, Statement (.vfMax o) := by
  intro o w hw hwf
  replace hw := (Option.some.inj hw).symm
  have ho : opOf w = 0x50#8 := hw ▸ opOf_encVV ..
  refine decode_of w _ (by rw [ho]; decide) (by rw [ho]; decide) ?_ hwf
  rw [decodeOp_50 w ho]
  unfold decode50
  subst hw
  simp only [vvFn_encVV, vvVd_encVV, vvVa_encVV, vvVb_encVV, vvVm_encVV, vvTy_encVV]
  rfl

theorem vfAbs : ∀ o, Statement (.vfAbs o) := by
  intro o w hw hwf
  replace hw := (Option.some.inj hw).symm
  have ho : opOf w = 0x50#8 := hw ▸ opOf_encVV ..
  refine decode_of w _ (by rw [ho]; decide) (by rw [ho]; decide) ?_ hwf
  rw [decodeOp_50 w ho]
  unfold decode50
  subst hw
  simp only [vvFn_encVV, vvVd_encVV, vvVa_encVV, vvVb_encVV, vvVm_encVV, vvTy_encVV]
  rfl

theorem vfNeg : ∀ o, Statement (.vfNeg o) := by
  intro o w hw hwf
  replace hw := (Option.some.inj hw).symm
  have ho : opOf w = 0x50#8 := hw ▸ opOf_encVV ..
  refine decode_of w _ (by rw [ho]; decide) (by rw [ho]; decide) ?_ hwf
  rw [decodeOp_50 w ho]
  unfold decode50
  subst hw
  simp only [vvFn_encVV, vvVd_encVV, vvVa_encVV, vvVb_encVV, vvVm_encVV, vvTy_encVV]
  rfl

theorem vfDiv : ∀ o, Statement (.vfDiv o) := by
  intro o w hw hwf
  replace hw := (Option.some.inj hw).symm
  have ho : opOf w = 0x50#8 := hw ▸ opOf_encVV ..
  refine decode_of w _ (by rw [ho]; decide) (by rw [ho]; decide) ?_ hwf
  rw [decodeOp_50 w ho]
  unfold decode50
  subst hw
  simp only [vvFn_encVV, vvVd_encVV, vvVa_encVV, vvVb_encVV, vvVm_encVV, vvTy_encVV]
  rfl

theorem vfSqrt : ∀ o, Statement (.vfSqrt o) := by
  intro o w hw hwf
  replace hw := (Option.some.inj hw).symm
  have ho : opOf w = 0x50#8 := hw ▸ opOf_encVV ..
  refine decode_of w _ (by rw [ho]; decide) (by rw [ho]; decide) ?_ hwf
  rw [decodeOp_50 w ho]
  unfold decode50
  subst hw
  simp only [vvFn_encVV, vvVd_encVV, vvVa_encVV, vvVb_encVV, vvVm_encVV, vvTy_encVV]
  rfl

theorem vfsAdd : ∀ o, Statement (.vfsAdd o) := by
  intro o w hw hwf
  replace hw := (Option.some.inj hw).symm
  have ho : opOf w = 0x51#8 := hw ▸ opOf_encVV ..
  refine decode_of w _ (by rw [ho]; decide) (by rw [ho]; decide) ?_ hwf
  rw [decodeOp_51 w ho]
  unfold decode51
  subst hw
  simp only [vvFn_encVV, vvVd_encVV, vvVa_encVV, vvVb_encVV, vvVm_encVV, vvTy_encVV]
  rfl

theorem vfsSub : ∀ o, Statement (.vfsSub o) := by
  intro o w hw hwf
  replace hw := (Option.some.inj hw).symm
  have ho : opOf w = 0x51#8 := hw ▸ opOf_encVV ..
  refine decode_of w _ (by rw [ho]; decide) (by rw [ho]; decide) ?_ hwf
  rw [decodeOp_51 w ho]
  unfold decode51
  subst hw
  simp only [vvFn_encVV, vvVd_encVV, vvVa_encVV, vvVb_encVV, vvVm_encVV, vvTy_encVV]
  rfl

theorem vfsMul : ∀ o, Statement (.vfsMul o) := by
  intro o w hw hwf
  replace hw := (Option.some.inj hw).symm
  have ho : opOf w = 0x51#8 := hw ▸ opOf_encVV ..
  refine decode_of w _ (by rw [ho]; decide) (by rw [ho]; decide) ?_ hwf
  rw [decodeOp_51 w ho]
  unfold decode51
  subst hw
  simp only [vvFn_encVV, vvVd_encVV, vvVa_encVV, vvVb_encVV, vvVm_encVV, vvTy_encVV]
  rfl

theorem vfsFma : ∀ o, Statement (.vfsFma o) := by
  intro o w hw hwf
  replace hw := (Option.some.inj hw).symm
  have ho : opOf w = 0x51#8 := hw ▸ opOf_encVV ..
  refine decode_of w _ (by rw [ho]; decide) (by rw [ho]; decide) ?_ hwf
  rw [decodeOp_51 w ho]
  unfold decode51
  subst hw
  simp only [vvFn_encVV, vvVd_encVV, vvVa_encVV, vvVb_encVV, vvVm_encVV, vvTy_encVV]
  rfl

theorem vfsFms : ∀ o, Statement (.vfsFms o) := by
  intro o w hw hwf
  replace hw := (Option.some.inj hw).symm
  have ho : opOf w = 0x51#8 := hw ▸ opOf_encVV ..
  refine decode_of w _ (by rw [ho]; decide) (by rw [ho]; decide) ?_ hwf
  rw [decodeOp_51 w ho]
  unfold decode51
  subst hw
  simp only [vvFn_encVV, vvVd_encVV, vvVa_encVV, vvVb_encVV, vvVm_encVV, vvTy_encVV]
  rfl

theorem vfsFnma : ∀ o, Statement (.vfsFnma o) := by
  intro o w hw hwf
  replace hw := (Option.some.inj hw).symm
  have ho : opOf w = 0x51#8 := hw ▸ opOf_encVV ..
  refine decode_of w _ (by rw [ho]; decide) (by rw [ho]; decide) ?_ hwf
  rw [decodeOp_51 w ho]
  unfold decode51
  subst hw
  simp only [vvFn_encVV, vvVd_encVV, vvVa_encVV, vvVb_encVV, vvVm_encVV, vvTy_encVV]
  rfl

theorem vfsMin : ∀ o, Statement (.vfsMin o) := by
  intro o w hw hwf
  replace hw := (Option.some.inj hw).symm
  have ho : opOf w = 0x51#8 := hw ▸ opOf_encVV ..
  refine decode_of w _ (by rw [ho]; decide) (by rw [ho]; decide) ?_ hwf
  rw [decodeOp_51 w ho]
  unfold decode51
  subst hw
  simp only [vvFn_encVV, vvVd_encVV, vvVa_encVV, vvVb_encVV, vvVm_encVV, vvTy_encVV]
  rfl

theorem vfsMax : ∀ o, Statement (.vfsMax o) := by
  intro o w hw hwf
  replace hw := (Option.some.inj hw).symm
  have ho : opOf w = 0x51#8 := hw ▸ opOf_encVV ..
  refine decode_of w _ (by rw [ho]; decide) (by rw [ho]; decide) ?_ hwf
  rw [decodeOp_51 w ho]
  unfold decode51
  subst hw
  simp only [vvFn_encVV, vvVd_encVV, vvVa_encVV, vvVb_encVV, vvVm_encVV, vvTy_encVV]
  rfl

theorem vfsAbs : ∀ o, Statement (.vfsAbs o) := by
  intro o w hw hwf
  replace hw := (Option.some.inj hw).symm
  have ho : opOf w = 0x51#8 := hw ▸ opOf_encVV ..
  refine decode_of w _ (by rw [ho]; decide) (by rw [ho]; decide) ?_ hwf
  rw [decodeOp_51 w ho]
  unfold decode51
  subst hw
  simp only [vvFn_encVV, vvVd_encVV, vvVa_encVV, vvVb_encVV, vvVm_encVV, vvTy_encVV]
  rfl

theorem vfsNeg : ∀ o, Statement (.vfsNeg o) := by
  intro o w hw hwf
  replace hw := (Option.some.inj hw).symm
  have ho : opOf w = 0x51#8 := hw ▸ opOf_encVV ..
  refine decode_of w _ (by rw [ho]; decide) (by rw [ho]; decide) ?_ hwf
  rw [decodeOp_51 w ho]
  unfold decode51
  subst hw
  simp only [vvFn_encVV, vvVd_encVV, vvVa_encVV, vvVb_encVV, vvVm_encVV, vvTy_encVV]
  rfl

theorem vfsDiv : ∀ o, Statement (.vfsDiv o) := by
  intro o w hw hwf
  replace hw := (Option.some.inj hw).symm
  have ho : opOf w = 0x51#8 := hw ▸ opOf_encVV ..
  refine decode_of w _ (by rw [ho]; decide) (by rw [ho]; decide) ?_ hwf
  rw [decodeOp_51 w ho]
  unfold decode51
  subst hw
  simp only [vvFn_encVV, vvVd_encVV, vvVa_encVV, vvVb_encVV, vvVm_encVV, vvTy_encVV]
  rfl

theorem vfsSqrt : ∀ o, Statement (.vfsSqrt o) := by
  intro o w hw hwf
  replace hw := (Option.some.inj hw).symm
  have ho : opOf w = 0x51#8 := hw ▸ opOf_encVV ..
  refine decode_of w _ (by rw [ho]; decide) (by rw [ho]; decide) ?_ hwf
  rw [decodeOp_51 w ho]
  unfold decode51
  subst hw
  simp only [vvFn_encVV, vvVd_encVV, vvVa_encVV, vvVb_encVV, vvVm_encVV, vvTy_encVV]
  rfl

theorem viAdd : ∀ o, Statement (.viAdd o) := by
  intro o w hw hwf
  replace hw := (Option.some.inj hw).symm
  have ho : opOf w = 0x52#8 := hw ▸ opOf_encVV ..
  refine decode_of w _ (by rw [ho]; decide) (by rw [ho]; decide) ?_ hwf
  rw [decodeOp_52 w ho]
  unfold decode52
  subst hw
  simp only [vvFn_encVV, vvVd_encVV, vvVa_encVV, vvVb_encVV, vvVm_encVV, vvTy_encVV]
  rfl

theorem viSub : ∀ o, Statement (.viSub o) := by
  intro o w hw hwf
  replace hw := (Option.some.inj hw).symm
  have ho : opOf w = 0x52#8 := hw ▸ opOf_encVV ..
  refine decode_of w _ (by rw [ho]; decide) (by rw [ho]; decide) ?_ hwf
  rw [decodeOp_52 w ho]
  unfold decode52
  subst hw
  simp only [vvFn_encVV, vvVd_encVV, vvVa_encVV, vvVb_encVV, vvVm_encVV, vvTy_encVV]
  rfl

theorem viMul : ∀ o, Statement (.viMul o) := by
  intro o w hw hwf
  replace hw := (Option.some.inj hw).symm
  have ho : opOf w = 0x52#8 := hw ▸ opOf_encVV ..
  refine decode_of w _ (by rw [ho]; decide) (by rw [ho]; decide) ?_ hwf
  rw [decodeOp_52 w ho]
  unfold decode52
  subst hw
  simp only [vvFn_encVV, vvVd_encVV, vvVa_encVV, vvVb_encVV, vvVm_encVV, vvTy_encVV]
  rfl

theorem viMulh : ∀ o, Statement (.viMulh o) := by
  intro o w hw hwf
  replace hw := (Option.some.inj hw).symm
  have ho : opOf w = 0x52#8 := hw ▸ opOf_encVV ..
  refine decode_of w _ (by rw [ho]; decide) (by rw [ho]; decide) ?_ hwf
  rw [decodeOp_52 w ho]
  unfold decode52
  subst hw
  simp only [vvFn_encVV, vvVd_encVV, vvVa_encVV, vvVb_encVV, vvVm_encVV, vvTy_encVV]
  rfl

theorem viMin : ∀ o, Statement (.viMin o) := by
  intro o w hw hwf
  replace hw := (Option.some.inj hw).symm
  have ho : opOf w = 0x52#8 := hw ▸ opOf_encVV ..
  refine decode_of w _ (by rw [ho]; decide) (by rw [ho]; decide) ?_ hwf
  rw [decodeOp_52 w ho]
  unfold decode52
  subst hw
  simp only [vvFn_encVV, vvVd_encVV, vvVa_encVV, vvVb_encVV, vvVm_encVV, vvTy_encVV]
  rfl

theorem viMax : ∀ o, Statement (.viMax o) := by
  intro o w hw hwf
  replace hw := (Option.some.inj hw).symm
  have ho : opOf w = 0x52#8 := hw ▸ opOf_encVV ..
  refine decode_of w _ (by rw [ho]; decide) (by rw [ho]; decide) ?_ hwf
  rw [decodeOp_52 w ho]
  unfold decode52
  subst hw
  simp only [vvFn_encVV, vvVd_encVV, vvVa_encVV, vvVb_encVV, vvVm_encVV, vvTy_encVV]
  rfl

theorem viMinu : ∀ o, Statement (.viMinu o) := by
  intro o w hw hwf
  replace hw := (Option.some.inj hw).symm
  have ho : opOf w = 0x52#8 := hw ▸ opOf_encVV ..
  refine decode_of w _ (by rw [ho]; decide) (by rw [ho]; decide) ?_ hwf
  rw [decodeOp_52 w ho]
  unfold decode52
  subst hw
  simp only [vvFn_encVV, vvVd_encVV, vvVa_encVV, vvVb_encVV, vvVm_encVV, vvTy_encVV]
  rfl

theorem viMaxu : ∀ o, Statement (.viMaxu o) := by
  intro o w hw hwf
  replace hw := (Option.some.inj hw).symm
  have ho : opOf w = 0x52#8 := hw ▸ opOf_encVV ..
  refine decode_of w _ (by rw [ho]; decide) (by rw [ho]; decide) ?_ hwf
  rw [decodeOp_52 w ho]
  unfold decode52
  subst hw
  simp only [vvFn_encVV, vvVd_encVV, vvVa_encVV, vvVb_encVV, vvVm_encVV, vvTy_encVV]
  rfl

theorem viAbs : ∀ o, Statement (.viAbs o) := by
  intro o w hw hwf
  replace hw := (Option.some.inj hw).symm
  have ho : opOf w = 0x52#8 := hw ▸ opOf_encVV ..
  refine decode_of w _ (by rw [ho]; decide) (by rw [ho]; decide) ?_ hwf
  rw [decodeOp_52 w ho]
  unfold decode52
  subst hw
  simp only [vvFn_encVV, vvVd_encVV, vvVa_encVV, vvVb_encVV, vvVm_encVV, vvTy_encVV]
  rfl

theorem viNeg : ∀ o, Statement (.viNeg o) := by
  intro o w hw hwf
  replace hw := (Option.some.inj hw).symm
  have ho : opOf w = 0x52#8 := hw ▸ opOf_encVV ..
  refine decode_of w _ (by rw [ho]; decide) (by rw [ho]; decide) ?_ hwf
  rw [decodeOp_52 w ho]
  unfold decode52
  subst hw
  simp only [vvFn_encVV, vvVd_encVV, vvVa_encVV, vvVb_encVV, vvVm_encVV, vvTy_encVV]
  rfl

theorem viAdds : ∀ o, Statement (.viAdds o) := by
  intro o w hw hwf
  replace hw := (Option.some.inj hw).symm
  have ho : opOf w = 0x52#8 := hw ▸ opOf_encVV ..
  refine decode_of w _ (by rw [ho]; decide) (by rw [ho]; decide) ?_ hwf
  rw [decodeOp_52 w ho]
  unfold decode52
  subst hw
  simp only [vvFn_encVV, vvVd_encVV, vvVa_encVV, vvVb_encVV, vvVm_encVV, vvTy_encVV]
  rfl

theorem viSubs : ∀ o, Statement (.viSubs o) := by
  intro o w hw hwf
  replace hw := (Option.some.inj hw).symm
  have ho : opOf w = 0x52#8 := hw ▸ opOf_encVV ..
  refine decode_of w _ (by rw [ho]; decide) (by rw [ho]; decide) ?_ hwf
  rw [decodeOp_52 w ho]
  unfold decode52
  subst hw
  simp only [vvFn_encVV, vvVd_encVV, vvVa_encVV, vvVb_encVV, vvVm_encVV, vvTy_encVV]
  rfl

theorem visAdd : ∀ o, Statement (.visAdd o) := by
  intro o w hw hwf
  replace hw := (Option.some.inj hw).symm
  have ho : opOf w = 0x53#8 := hw ▸ opOf_encVV ..
  refine decode_of w _ (by rw [ho]; decide) (by rw [ho]; decide) ?_ hwf
  rw [decodeOp_53 w ho]
  unfold decode53
  subst hw
  simp only [vvFn_encVV, vvVd_encVV, vvVa_encVV, vvVb_encVV, vvVm_encVV, vvTy_encVV]
  rfl

theorem visSub : ∀ o, Statement (.visSub o) := by
  intro o w hw hwf
  replace hw := (Option.some.inj hw).symm
  have ho : opOf w = 0x53#8 := hw ▸ opOf_encVV ..
  refine decode_of w _ (by rw [ho]; decide) (by rw [ho]; decide) ?_ hwf
  rw [decodeOp_53 w ho]
  unfold decode53
  subst hw
  simp only [vvFn_encVV, vvVd_encVV, vvVa_encVV, vvVb_encVV, vvVm_encVV, vvTy_encVV]
  rfl

theorem visMul : ∀ o, Statement (.visMul o) := by
  intro o w hw hwf
  replace hw := (Option.some.inj hw).symm
  have ho : opOf w = 0x53#8 := hw ▸ opOf_encVV ..
  refine decode_of w _ (by rw [ho]; decide) (by rw [ho]; decide) ?_ hwf
  rw [decodeOp_53 w ho]
  unfold decode53
  subst hw
  simp only [vvFn_encVV, vvVd_encVV, vvVa_encVV, vvVb_encVV, vvVm_encVV, vvTy_encVV]
  rfl

theorem visMulh : ∀ o, Statement (.visMulh o) := by
  intro o w hw hwf
  replace hw := (Option.some.inj hw).symm
  have ho : opOf w = 0x53#8 := hw ▸ opOf_encVV ..
  refine decode_of w _ (by rw [ho]; decide) (by rw [ho]; decide) ?_ hwf
  rw [decodeOp_53 w ho]
  unfold decode53
  subst hw
  simp only [vvFn_encVV, vvVd_encVV, vvVa_encVV, vvVb_encVV, vvVm_encVV, vvTy_encVV]
  rfl

theorem visMin : ∀ o, Statement (.visMin o) := by
  intro o w hw hwf
  replace hw := (Option.some.inj hw).symm
  have ho : opOf w = 0x53#8 := hw ▸ opOf_encVV ..
  refine decode_of w _ (by rw [ho]; decide) (by rw [ho]; decide) ?_ hwf
  rw [decodeOp_53 w ho]
  unfold decode53
  subst hw
  simp only [vvFn_encVV, vvVd_encVV, vvVa_encVV, vvVb_encVV, vvVm_encVV, vvTy_encVV]
  rfl

theorem visMax : ∀ o, Statement (.visMax o) := by
  intro o w hw hwf
  replace hw := (Option.some.inj hw).symm
  have ho : opOf w = 0x53#8 := hw ▸ opOf_encVV ..
  refine decode_of w _ (by rw [ho]; decide) (by rw [ho]; decide) ?_ hwf
  rw [decodeOp_53 w ho]
  unfold decode53
  subst hw
  simp only [vvFn_encVV, vvVd_encVV, vvVa_encVV, vvVb_encVV, vvVm_encVV, vvTy_encVV]
  rfl

theorem visMinu : ∀ o, Statement (.visMinu o) := by
  intro o w hw hwf
  replace hw := (Option.some.inj hw).symm
  have ho : opOf w = 0x53#8 := hw ▸ opOf_encVV ..
  refine decode_of w _ (by rw [ho]; decide) (by rw [ho]; decide) ?_ hwf
  rw [decodeOp_53 w ho]
  unfold decode53
  subst hw
  simp only [vvFn_encVV, vvVd_encVV, vvVa_encVV, vvVb_encVV, vvVm_encVV, vvTy_encVV]
  rfl

theorem visMaxu : ∀ o, Statement (.visMaxu o) := by
  intro o w hw hwf
  replace hw := (Option.some.inj hw).symm
  have ho : opOf w = 0x53#8 := hw ▸ opOf_encVV ..
  refine decode_of w _ (by rw [ho]; decide) (by rw [ho]; decide) ?_ hwf
  rw [decodeOp_53 w ho]
  unfold decode53
  subst hw
  simp only [vvFn_encVV, vvVd_encVV, vvVa_encVV, vvVb_encVV, vvVm_encVV, vvTy_encVV]
  rfl

theorem visAbs : ∀ o, Statement (.visAbs o) := by
  intro o w hw hwf
  replace hw := (Option.some.inj hw).symm
  have ho : opOf w = 0x53#8 := hw ▸ opOf_encVV ..
  refine decode_of w _ (by rw [ho]; decide) (by rw [ho]; decide) ?_ hwf
  rw [decodeOp_53 w ho]
  unfold decode53
  subst hw
  simp only [vvFn_encVV, vvVd_encVV, vvVa_encVV, vvVb_encVV, vvVm_encVV, vvTy_encVV]
  rfl

theorem visNeg : ∀ o, Statement (.visNeg o) := by
  intro o w hw hwf
  replace hw := (Option.some.inj hw).symm
  have ho : opOf w = 0x53#8 := hw ▸ opOf_encVV ..
  refine decode_of w _ (by rw [ho]; decide) (by rw [ho]; decide) ?_ hwf
  rw [decodeOp_53 w ho]
  unfold decode53
  subst hw
  simp only [vvFn_encVV, vvVd_encVV, vvVa_encVV, vvVb_encVV, vvVm_encVV, vvTy_encVV]
  rfl

theorem visAdds : ∀ o, Statement (.visAdds o) := by
  intro o w hw hwf
  replace hw := (Option.some.inj hw).symm
  have ho : opOf w = 0x53#8 := hw ▸ opOf_encVV ..
  refine decode_of w _ (by rw [ho]; decide) (by rw [ho]; decide) ?_ hwf
  rw [decodeOp_53 w ho]
  unfold decode53
  subst hw
  simp only [vvFn_encVV, vvVd_encVV, vvVa_encVV, vvVb_encVV, vvVm_encVV, vvTy_encVV]
  rfl

theorem visSubs : ∀ o, Statement (.visSubs o) := by
  intro o w hw hwf
  replace hw := (Option.some.inj hw).symm
  have ho : opOf w = 0x53#8 := hw ▸ opOf_encVV ..
  refine decode_of w _ (by rw [ho]; decide) (by rw [ho]; decide) ?_ hwf
  rw [decodeOp_53 w ho]
  unfold decode53
  subst hw
  simp only [vvFn_encVV, vvVd_encVV, vvVa_encVV, vvVb_encVV, vvVm_encVV, vvTy_encVV]
  rfl

theorem vlAnd : ∀ o, Statement (.vlAnd o) := by
  intro o w hw hwf
  replace hw := (Option.some.inj hw).symm
  have ho : opOf w = 0x54#8 := hw ▸ opOf_encVV ..
  refine decode_of w _ (by rw [ho]; decide) (by rw [ho]; decide) ?_ hwf
  rw [decodeOp_54 w ho]
  unfold decode54
  subst hw
  simp only [vvFn_encVV, vvVd_encVV, vvVa_encVV, vvVb_encVV, vvVm_encVV, vvTy_encVV]
  rfl

theorem vlOr : ∀ o, Statement (.vlOr o) := by
  intro o w hw hwf
  replace hw := (Option.some.inj hw).symm
  have ho : opOf w = 0x54#8 := hw ▸ opOf_encVV ..
  refine decode_of w _ (by rw [ho]; decide) (by rw [ho]; decide) ?_ hwf
  rw [decodeOp_54 w ho]
  unfold decode54
  subst hw
  simp only [vvFn_encVV, vvVd_encVV, vvVa_encVV, vvVb_encVV, vvVm_encVV, vvTy_encVV]
  rfl

theorem vlXor : ∀ o, Statement (.vlXor o) := by
  intro o w hw hwf
  replace hw := (Option.some.inj hw).symm
  have ho : opOf w = 0x54#8 := hw ▸ opOf_encVV ..
  refine decode_of w _ (by rw [ho]; decide) (by rw [ho]; decide) ?_ hwf
  rw [decodeOp_54 w ho]
  unfold decode54
  subst hw
  simp only [vvFn_encVV, vvVd_encVV, vvVa_encVV, vvVb_encVV, vvVm_encVV, vvTy_encVV]
  rfl

theorem vlAndn : ∀ o, Statement (.vlAndn o) := by
  intro o w hw hwf
  replace hw := (Option.some.inj hw).symm
  have ho : opOf w = 0x54#8 := hw ▸ opOf_encVV ..
  refine decode_of w _ (by rw [ho]; decide) (by rw [ho]; decide) ?_ hwf
  rw [decodeOp_54 w ho]
  unfold decode54
  subst hw
  simp only [vvFn_encVV, vvVd_encVV, vvVa_encVV, vvVb_encVV, vvVm_encVV, vvTy_encVV]
  rfl

theorem vlShl : ∀ o, Statement (.vlShl o) := by
  intro o w hw hwf
  replace hw := (Option.some.inj hw).symm
  have ho : opOf w = 0x54#8 := hw ▸ opOf_encVV ..
  refine decode_of w _ (by rw [ho]; decide) (by rw [ho]; decide) ?_ hwf
  rw [decodeOp_54 w ho]
  unfold decode54
  subst hw
  simp only [vvFn_encVV, vvVd_encVV, vvVa_encVV, vvVb_encVV, vvVm_encVV, vvTy_encVV]
  rfl

theorem vlShr : ∀ o, Statement (.vlShr o) := by
  intro o w hw hwf
  replace hw := (Option.some.inj hw).symm
  have ho : opOf w = 0x54#8 := hw ▸ opOf_encVV ..
  refine decode_of w _ (by rw [ho]; decide) (by rw [ho]; decide) ?_ hwf
  rw [decodeOp_54 w ho]
  unfold decode54
  subst hw
  simp only [vvFn_encVV, vvVd_encVV, vvVa_encVV, vvVb_encVV, vvVm_encVV, vvTy_encVV]
  rfl

theorem vlSra : ∀ o, Statement (.vlSra o) := by
  intro o w hw hwf
  replace hw := (Option.some.inj hw).symm
  have ho : opOf w = 0x54#8 := hw ▸ opOf_encVV ..
  refine decode_of w _ (by rw [ho]; decide) (by rw [ho]; decide) ?_ hwf
  rw [decodeOp_54 w ho]
  unfold decode54
  subst hw
  simp only [vvFn_encVV, vvVd_encVV, vvVa_encVV, vvVb_encVV, vvVm_encVV, vvTy_encVV]
  rfl

theorem vlsAnd : ∀ o, Statement (.vlsAnd o) := by
  intro o w hw hwf
  replace hw := (Option.some.inj hw).symm
  have ho : opOf w = 0x55#8 := hw ▸ opOf_encVV ..
  refine decode_of w _ (by rw [ho]; decide) (by rw [ho]; decide) ?_ hwf
  rw [decodeOp_55 w ho]
  unfold decode55
  subst hw
  simp only [vvFn_encVV, vvVd_encVV, vvVa_encVV, vvVb_encVV, vvVm_encVV, vvTy_encVV]
  rfl

theorem vlsOr : ∀ o, Statement (.vlsOr o) := by
  intro o w hw hwf
  replace hw := (Option.some.inj hw).symm
  have ho : opOf w = 0x55#8 := hw ▸ opOf_encVV ..
  refine decode_of w _ (by rw [ho]; decide) (by rw [ho]; decide) ?_ hwf
  rw [decodeOp_55 w ho]
  unfold decode55
  subst hw
  simp only [vvFn_encVV, vvVd_encVV, vvVa_encVV, vvVb_encVV, vvVm_encVV, vvTy_encVV]
  rfl

theorem vlsXor : ∀ o, Statement (.vlsXor o) := by
  intro o w hw hwf
  replace hw := (Option.some.inj hw).symm
  have ho : opOf w = 0x55#8 := hw ▸ opOf_encVV ..
  refine decode_of w _ (by rw [ho]; decide) (by rw [ho]; decide) ?_ hwf
  rw [decodeOp_55 w ho]
  unfold decode55
  subst hw
  simp only [vvFn_encVV, vvVd_encVV, vvVa_encVV, vvVb_encVV, vvVm_encVV, vvTy_encVV]
  rfl

theorem vlsAndn : ∀ o, Statement (.vlsAndn o) := by
  intro o w hw hwf
  replace hw := (Option.some.inj hw).symm
  have ho : opOf w = 0x55#8 := hw ▸ opOf_encVV ..
  refine decode_of w _ (by rw [ho]; decide) (by rw [ho]; decide) ?_ hwf
  rw [decodeOp_55 w ho]
  unfold decode55
  subst hw
  simp only [vvFn_encVV, vvVd_encVV, vvVa_encVV, vvVb_encVV, vvVm_encVV, vvTy_encVV]
  rfl

theorem vlsShl : ∀ o, Statement (.vlsShl o) := by
  intro o w hw hwf
  replace hw := (Option.some.inj hw).symm
  have ho : opOf w = 0x55#8 := hw ▸ opOf_encVV ..
  refine decode_of w _ (by rw [ho]; decide) (by rw [ho]; decide) ?_ hwf
  rw [decodeOp_55 w ho]
  unfold decode55
  subst hw
  simp only [vvFn_encVV, vvVd_encVV, vvVa_encVV, vvVb_encVV, vvVm_encVV, vvTy_encVV]
  rfl

theorem vlsShr : ∀ o, Statement (.vlsShr o) := by
  intro o w hw hwf
  replace hw := (Option.some.inj hw).symm
  have ho : opOf w = 0x55#8 := hw ▸ opOf_encVV ..
  refine decode_of w _ (by rw [ho]; decide) (by rw [ho]; decide) ?_ hwf
  rw [decodeOp_55 w ho]
  unfold decode55
  subst hw
  simp only [vvFn_encVV, vvVd_encVV, vvVa_encVV, vvVb_encVV, vvVm_encVV, vvTy_encVV]
  rfl

theorem vlsSra : ∀ o, Statement (.vlsSra o) := by
  intro o w hw hwf
  replace hw := (Option.some.inj hw).symm
  have ho : opOf w = 0x55#8 := hw ▸ opOf_encVV ..
  refine decode_of w _ (by rw [ho]; decide) (by rw [ho]; decide) ?_ hwf
  rw [decodeOp_55 w ho]
  unfold decode55
  subst hw
  simp only [vvFn_encVV, vvVd_encVV, vvVa_encVV, vvVb_encVV, vvVm_encVV, vvTy_encVV]
  rfl

theorem vcmpFeq : ∀ o, Statement (.vcmpFeq o) := by
  intro o w hw hwf
  replace hw := (Option.some.inj hw).symm
  have h0 : BitVec.extractLsb' 0 3 (0#2 ++ o.md : BitVec 5) = o.md := by
    clear hw hwf; generalize o.md = t0; revert t0; decide
  have ho : opOf w = 0x56#8 := hw ▸ opOf_encVV ..
  refine decode_of w _ (by rw [ho]; decide) (by rw [ho]; decide) ?_ hwf
  rw [decodeOp_56 w ho]
  unfold decode56
  subst hw
  simp only [vvFn_encVV, vvVd_encVV, vvVa_encVV, vvVb_encVV, vvVm_encVV, vvTy_encVV, h0]
  rfl

theorem vcmpFlt : ∀ o, Statement (.vcmpFlt o) := by
  intro o w hw hwf
  replace hw := (Option.some.inj hw).symm
  have h0 : BitVec.extractLsb' 0 3 (0#2 ++ o.md : BitVec 5) = o.md := by
    clear hw hwf; generalize o.md = t0; revert t0; decide
  have ho : opOf w = 0x56#8 := hw ▸ opOf_encVV ..
  refine decode_of w _ (by rw [ho]; decide) (by rw [ho]; decide) ?_ hwf
  rw [decodeOp_56 w ho]
  unfold decode56
  subst hw
  simp only [vvFn_encVV, vvVd_encVV, vvVa_encVV, vvVb_encVV, vvVm_encVV, vvTy_encVV, h0]
  rfl

theorem vcmpFle : ∀ o, Statement (.vcmpFle o) := by
  intro o w hw hwf
  replace hw := (Option.some.inj hw).symm
  have h0 : BitVec.extractLsb' 0 3 (0#2 ++ o.md : BitVec 5) = o.md := by
    clear hw hwf; generalize o.md = t0; revert t0; decide
  have ho : opOf w = 0x56#8 := hw ▸ opOf_encVV ..
  refine decode_of w _ (by rw [ho]; decide) (by rw [ho]; decide) ?_ hwf
  rw [decodeOp_56 w ho]
  unfold decode56
  subst hw
  simp only [vvFn_encVV, vvVd_encVV, vvVa_encVV, vvVb_encVV, vvVm_encVV, vvTy_encVV, h0]
  rfl

theorem vcmpFun : ∀ o, Statement (.vcmpFun o) := by
  intro o w hw hwf
  replace hw := (Option.some.inj hw).symm
  have h0 : BitVec.extractLsb' 0 3 (0#2 ++ o.md : BitVec 5) = o.md := by
    clear hw hwf; generalize o.md = t0; revert t0; decide
  have ho : opOf w = 0x56#8 := hw ▸ opOf_encVV ..
  refine decode_of w _ (by rw [ho]; decide) (by rw [ho]; decide) ?_ hwf
  rw [decodeOp_56 w ho]
  unfold decode56
  subst hw
  simp only [vvFn_encVV, vvVd_encVV, vvVa_encVV, vvVb_encVV, vvVm_encVV, vvTy_encVV, h0]
  rfl

theorem vcmpIeq : ∀ o, Statement (.vcmpIeq o) := by
  intro o w hw hwf
  replace hw := (Option.some.inj hw).symm
  have h0 : BitVec.extractLsb' 0 3 (0#2 ++ o.md : BitVec 5) = o.md := by
    clear hw hwf; generalize o.md = t0; revert t0; decide
  have ho : opOf w = 0x56#8 := hw ▸ opOf_encVV ..
  refine decode_of w _ (by rw [ho]; decide) (by rw [ho]; decide) ?_ hwf
  rw [decodeOp_56 w ho]
  unfold decode56
  subst hw
  simp only [vvFn_encVV, vvVd_encVV, vvVa_encVV, vvVb_encVV, vvVm_encVV, vvTy_encVV, h0]
  rfl

theorem vcmpIlt : ∀ o, Statement (.vcmpIlt o) := by
  intro o w hw hwf
  replace hw := (Option.some.inj hw).symm
  have h0 : BitVec.extractLsb' 0 3 (0#2 ++ o.md : BitVec 5) = o.md := by
    clear hw hwf; generalize o.md = t0; revert t0; decide
  have ho : opOf w = 0x56#8 := hw ▸ opOf_encVV ..
  refine decode_of w _ (by rw [ho]; decide) (by rw [ho]; decide) ?_ hwf
  rw [decodeOp_56 w ho]
  unfold decode56
  subst hw
  simp only [vvFn_encVV, vvVd_encVV, vvVa_encVV, vvVb_encVV, vvVm_encVV, vvTy_encVV, h0]
  rfl

theorem vcmpIltu : ∀ o, Statement (.vcmpIltu o) := by
  intro o w hw hwf
  replace hw := (Option.some.inj hw).symm
  have h0 : BitVec.extractLsb' 0 3 (0#2 ++ o.md : BitVec 5) = o.md := by
    clear hw hwf; generalize o.md = t0; revert t0; decide
  have ho : opOf w = 0x56#8 := hw ▸ opOf_encVV ..
  refine decode_of w _ (by rw [ho]; decide) (by rw [ho]; decide) ?_ hwf
  rw [decodeOp_56 w ho]
  unfold decode56
  subst hw
  simp only [vvFn_encVV, vvVd_encVV, vvVa_encVV, vvVb_encVV, vvVm_encVV, vvTy_encVV, h0]
  rfl

theorem vcmpIle : ∀ o, Statement (.vcmpIle o) := by
  intro o w hw hwf
  replace hw := (Option.some.inj hw).symm
  have h0 : BitVec.extractLsb' 0 3 (0#2 ++ o.md : BitVec 5) = o.md := by
    clear hw hwf; generalize o.md = t0; revert t0; decide
  have ho : opOf w = 0x56#8 := hw ▸ opOf_encVV ..
  refine decode_of w _ (by rw [ho]; decide) (by rw [ho]; decide) ?_ hwf
  rw [decodeOp_56 w ho]
  unfold decode56
  subst hw
  simp only [vvFn_encVV, vvVd_encVV, vvVa_encVV, vvVb_encVV, vvVm_encVV, vvTy_encVV, h0]
  rfl

theorem vcmpsFeq : ∀ o, Statement (.vcmpsFeq o) := by
  intro o w hw hwf
  replace hw := (Option.some.inj hw).symm
  have h0 : BitVec.extractLsb' 0 3 (0#2 ++ o.md : BitVec 5) = o.md := by
    clear hw hwf; generalize o.md = t0; revert t0; decide
  have ho : opOf w = 0x57#8 := hw ▸ opOf_encVV ..
  refine decode_of w _ (by rw [ho]; decide) (by rw [ho]; decide) ?_ hwf
  rw [decodeOp_57 w ho]
  unfold decode57
  subst hw
  simp only [vvFn_encVV, vvVd_encVV, vvVa_encVV, vvVb_encVV, vvVm_encVV, vvTy_encVV, h0]
  rfl

theorem vcmpsFlt : ∀ o, Statement (.vcmpsFlt o) := by
  intro o w hw hwf
  replace hw := (Option.some.inj hw).symm
  have h0 : BitVec.extractLsb' 0 3 (0#2 ++ o.md : BitVec 5) = o.md := by
    clear hw hwf; generalize o.md = t0; revert t0; decide
  have ho : opOf w = 0x57#8 := hw ▸ opOf_encVV ..
  refine decode_of w _ (by rw [ho]; decide) (by rw [ho]; decide) ?_ hwf
  rw [decodeOp_57 w ho]
  unfold decode57
  subst hw
  simp only [vvFn_encVV, vvVd_encVV, vvVa_encVV, vvVb_encVV, vvVm_encVV, vvTy_encVV, h0]
  rfl

theorem vcmpsFle : ∀ o, Statement (.vcmpsFle o) := by
  intro o w hw hwf
  replace hw := (Option.some.inj hw).symm
  have h0 : BitVec.extractLsb' 0 3 (0#2 ++ o.md : BitVec 5) = o.md := by
    clear hw hwf; generalize o.md = t0; revert t0; decide
  have ho : opOf w = 0x57#8 := hw ▸ opOf_encVV ..
  refine decode_of w _ (by rw [ho]; decide) (by rw [ho]; decide) ?_ hwf
  rw [decodeOp_57 w ho]
  unfold decode57
  subst hw
  simp only [vvFn_encVV, vvVd_encVV, vvVa_encVV, vvVb_encVV, vvVm_encVV, vvTy_encVV, h0]
  rfl

theorem vcmpsFun : ∀ o, Statement (.vcmpsFun o) := by
  intro o w hw hwf
  replace hw := (Option.some.inj hw).symm
  have h0 : BitVec.extractLsb' 0 3 (0#2 ++ o.md : BitVec 5) = o.md := by
    clear hw hwf; generalize o.md = t0; revert t0; decide
  have ho : opOf w = 0x57#8 := hw ▸ opOf_encVV ..
  refine decode_of w _ (by rw [ho]; decide) (by rw [ho]; decide) ?_ hwf
  rw [decodeOp_57 w ho]
  unfold decode57
  subst hw
  simp only [vvFn_encVV, vvVd_encVV, vvVa_encVV, vvVb_encVV, vvVm_encVV, vvTy_encVV, h0]
  rfl

theorem vcmpsIeq : ∀ o, Statement (.vcmpsIeq o) := by
  intro o w hw hwf
  replace hw := (Option.some.inj hw).symm
  have h0 : BitVec.extractLsb' 0 3 (0#2 ++ o.md : BitVec 5) = o.md := by
    clear hw hwf; generalize o.md = t0; revert t0; decide
  have ho : opOf w = 0x57#8 := hw ▸ opOf_encVV ..
  refine decode_of w _ (by rw [ho]; decide) (by rw [ho]; decide) ?_ hwf
  rw [decodeOp_57 w ho]
  unfold decode57
  subst hw
  simp only [vvFn_encVV, vvVd_encVV, vvVa_encVV, vvVb_encVV, vvVm_encVV, vvTy_encVV, h0]
  rfl

theorem vcmpsIlt : ∀ o, Statement (.vcmpsIlt o) := by
  intro o w hw hwf
  replace hw := (Option.some.inj hw).symm
  have h0 : BitVec.extractLsb' 0 3 (0#2 ++ o.md : BitVec 5) = o.md := by
    clear hw hwf; generalize o.md = t0; revert t0; decide
  have ho : opOf w = 0x57#8 := hw ▸ opOf_encVV ..
  refine decode_of w _ (by rw [ho]; decide) (by rw [ho]; decide) ?_ hwf
  rw [decodeOp_57 w ho]
  unfold decode57
  subst hw
  simp only [vvFn_encVV, vvVd_encVV, vvVa_encVV, vvVb_encVV, vvVm_encVV, vvTy_encVV, h0]
  rfl

theorem vcmpsIltu : ∀ o, Statement (.vcmpsIltu o) := by
  intro o w hw hwf
  replace hw := (Option.some.inj hw).symm
  have h0 : BitVec.extractLsb' 0 3 (0#2 ++ o.md : BitVec 5) = o.md := by
    clear hw hwf; generalize o.md = t0; revert t0; decide
  have ho : opOf w = 0x57#8 := hw ▸ opOf_encVV ..
  refine decode_of w _ (by rw [ho]; decide) (by rw [ho]; decide) ?_ hwf
  rw [decodeOp_57 w ho]
  unfold decode57
  subst hw
  simp only [vvFn_encVV, vvVd_encVV, vvVa_encVV, vvVb_encVV, vvVm_encVV, vvTy_encVV, h0]
  rfl

theorem vcmpsIle : ∀ o, Statement (.vcmpsIle o) := by
  intro o w hw hwf
  replace hw := (Option.some.inj hw).symm
  have h0 : BitVec.extractLsb' 0 3 (0#2 ++ o.md : BitVec 5) = o.md := by
    clear hw hwf; generalize o.md = t0; revert t0; decide
  have ho : opOf w = 0x57#8 := hw ▸ opOf_encVV ..
  refine decode_of w _ (by rw [ho]; decide) (by rw [ho]; decide) ?_ hwf
  rw [decodeOp_57 w ho]
  unfold decode57
  subst hw
  simp only [vvFn_encVV, vvVd_encVV, vvVa_encVV, vvVb_encVV, vvVm_encVV, vvTy_encVV, h0]
  rfl

theorem vsel : ∀ o, Statement (.vsel o) := by
  intro o w hw hwf
  replace hw := (Option.some.inj hw).symm
  have ho : opOf w = 0x58#8 := hw ▸ opOf_encVV ..
  refine decode_of w _ (by rw [ho]; decide) (by rw [ho]; decide) ?_ hwf
  rw [decodeOp_58 w ho]
  unfold decode58
  subst hw
  simp only [vvFn_encVV, vvVd_encVV, vvVa_encVV, vvVb_encVV, vvVm_encVV, vvTy_encVV]
  rfl

theorem vcvtNarrow : ∀ o, Statement (.vcvtNarrow o) := by
  intro o w hw hwf
  replace hw := (Option.some.inj hw).symm
  have ho : opOf w = 0x59#8 := hw ▸ opOf_encVV ..
  refine decode_of w _ (by rw [ho]; decide) (by rw [ho]; decide) ?_ hwf
  rw [decodeOp_59 w ho]
  unfold decode59
  subst hw
  simp only [vvFn_encVV, vvVd_encVV, vvVa_encVV, vvVb_encVV, vvVm_encVV, vvTy_encVV]
  rfl

theorem vcvtNarrows : ∀ o, Statement (.vcvtNarrows o) := by
  intro o w hw hwf
  replace hw := (Option.some.inj hw).symm
  have ho : opOf w = 0x59#8 := hw ▸ opOf_encVV ..
  refine decode_of w _ (by rw [ho]; decide) (by rw [ho]; decide) ?_ hwf
  rw [decodeOp_59 w ho]
  unfold decode59
  subst hw
  simp only [vvFn_encVV, vvVd_encVV, vvVa_encVV, vvVb_encVV, vvVm_encVV, vvTy_encVV]
  rfl

theorem vcvtWiden : ∀ o, Statement (.vcvtWiden o) := by
  intro o w hw hwf
  replace hw := (Option.some.inj hw).symm
  have ho : opOf w = 0x59#8 := hw ▸ opOf_encVV ..
  refine decode_of w _ (by rw [ho]; decide) (by rw [ho]; decide) ?_ hwf
  rw [decodeOp_59 w ho]
  unfold decode59
  subst hw
  simp only [vvFn_encVV, vvVd_encVV, vvVa_encVV, vvVb_encVV, vvVm_encVV, vvTy_encVV]
  rfl

theorem vcvtI2f : ∀ o, Statement (.vcvtI2f o) := by
  intro o w hw hwf
  replace hw := (Option.some.inj hw).symm
  have ho : opOf w = 0x59#8 := hw ▸ opOf_encVV ..
  refine decode_of w _ (by rw [ho]; decide) (by rw [ho]; decide) ?_ hwf
  rw [decodeOp_59 w ho]
  unfold decode59
  subst hw
  simp only [vvFn_encVV, vvVd_encVV, vvVa_encVV, vvVb_encVV, vvVm_encVV, vvTy_encVV]
  rfl

theorem vcvtF2i : ∀ o, Statement (.vcvtF2i o) := by
  intro o w hw hwf
  replace hw := (Option.some.inj hw).symm
  have ho : opOf w = 0x59#8 := hw ▸ opOf_encVV ..
  refine decode_of w _ (by rw [ho]; decide) (by rw [ho]; decide) ?_ hwf
  rw [decodeOp_59 w ho]
  unfold decode59
  subst hw
  simp only [vvFn_encVV, vvVd_encVV, vvVa_encVV, vvVb_encVV, vvVm_encVV, vvTy_encVV]
  rfl

theorem vredFsum : ∀ o, Statement (.vredFsum o) := by
  intro o w hw hwf
  replace hw := (Option.some.inj hw).symm
  have ho : opOf w = 0x5A#8 := hw ▸ opOf_encVV ..
  refine decode_of w _ (by rw [ho]; decide) (by rw [ho]; decide) ?_ hwf
  rw [decodeOp_5A w ho]
  unfold decode5A
  subst hw
  simp only [vvFn_encVV, vvVd_encVV, vvVa_encVV, vvVb_encVV, vvVm_encVV, vvTy_encVV]
  rfl

theorem vredFmax : ∀ o, Statement (.vredFmax o) := by
  intro o w hw hwf
  replace hw := (Option.some.inj hw).symm
  have ho : opOf w = 0x5A#8 := hw ▸ opOf_encVV ..
  refine decode_of w _ (by rw [ho]; decide) (by rw [ho]; decide) ?_ hwf
  rw [decodeOp_5A w ho]
  unfold decode5A
  subst hw
  simp only [vvFn_encVV, vvVd_encVV, vvVa_encVV, vvVb_encVV, vvVm_encVV, vvTy_encVV]
  rfl

theorem vredFmin : ∀ o, Statement (.vredFmin o) := by
  intro o w hw hwf
  replace hw := (Option.some.inj hw).symm
  have ho : opOf w = 0x5A#8 := hw ▸ opOf_encVV ..
  refine decode_of w _ (by rw [ho]; decide) (by rw [ho]; decide) ?_ hwf
  rw [decodeOp_5A w ho]
  unfold decode5A
  subst hw
  simp only [vvFn_encVV, vvVd_encVV, vvVa_encVV, vvVb_encVV, vvVm_encVV, vvTy_encVV]
  rfl

theorem vredIsum : ∀ o, Statement (.vredIsum o) := by
  intro o w hw hwf
  replace hw := (Option.some.inj hw).symm
  have ho : opOf w = 0x5A#8 := hw ▸ opOf_encVV ..
  refine decode_of w _ (by rw [ho]; decide) (by rw [ho]; decide) ?_ hwf
  rw [decodeOp_5A w ho]
  unfold decode5A
  subst hw
  simp only [vvFn_encVV, vvVd_encVV, vvVa_encVV, vvVb_encVV, vvVm_encVV, vvTy_encVV]
  rfl

theorem vredImax : ∀ o, Statement (.vredImax o) := by
  intro o w hw hwf
  replace hw := (Option.some.inj hw).symm
  have ho : opOf w = 0x5A#8 := hw ▸ opOf_encVV ..
  refine decode_of w _ (by rw [ho]; decide) (by rw [ho]; decide) ?_ hwf
  rw [decodeOp_5A w ho]
  unfold decode5A
  subst hw
  simp only [vvFn_encVV, vvVd_encVV, vvVa_encVV, vvVb_encVV, vvVm_encVV, vvTy_encVV]
  rfl

theorem vredImin : ∀ o, Statement (.vredImin o) := by
  intro o w hw hwf
  replace hw := (Option.some.inj hw).symm
  have ho : opOf w = 0x5A#8 := hw ▸ opOf_encVV ..
  refine decode_of w _ (by rw [ho]; decide) (by rw [ho]; decide) ?_ hwf
  rw [decodeOp_5A w ho]
  unfold decode5A
  subst hw
  simp only [vvFn_encVV, vvVd_encVV, vvVa_encVV, vvVb_encVV, vvVm_encVV, vvTy_encVV]
  rfl

theorem vredAnd : ∀ o, Statement (.vredAnd o) := by
  intro o w hw hwf
  replace hw := (Option.some.inj hw).symm
  have ho : opOf w = 0x5A#8 := hw ▸ opOf_encVV ..
  refine decode_of w _ (by rw [ho]; decide) (by rw [ho]; decide) ?_ hwf
  rw [decodeOp_5A w ho]
  unfold decode5A
  subst hw
  simp only [vvFn_encVV, vvVd_encVV, vvVa_encVV, vvVb_encVV, vvVm_encVV, vvTy_encVV]
  rfl

theorem vredOr : ∀ o, Statement (.vredOr o) := by
  intro o w hw hwf
  replace hw := (Option.some.inj hw).symm
  have ho : opOf w = 0x5A#8 := hw ▸ opOf_encVV ..
  refine decode_of w _ (by rw [ho]; decide) (by rw [ho]; decide) ?_ hwf
  rw [decodeOp_5A w ho]
  unfold decode5A
  subst hw
  simp only [vvFn_encVV, vvVd_encVV, vvVa_encVV, vvVb_encVV, vvVm_encVV, vvTy_encVV]
  rfl

theorem vpermPerm : ∀ o, Statement (.vpermPerm o) := by
  intro o w hw hwf
  replace hw := (Option.some.inj hw).symm
  have ho : opOf w = 0x5B#8 := hw ▸ opOf_encVV ..
  refine decode_of w _ (by rw [ho]; decide) (by rw [ho]; decide) ?_ hwf
  rw [decodeOp_5B w ho]
  unfold decode5B
  subst hw
  simp only [vvFn_encVV, vvVd_encVV, vvVa_encVV, vvVb_encVV, vvVm_encVV, vvTy_encVV]
  rfl

theorem vpermRot : ∀ o, Statement (.vpermRot o) := by
  intro o w hw hwf
  replace hw := (Option.some.inj hw).symm
  have ho : opOf w = 0x5B#8 := hw ▸ opOf_encVV ..
  refine decode_of w _ (by rw [ho]; decide) (by rw [ho]; decide) ?_ hwf
  rw [decodeOp_5B w ho]
  unfold decode5B
  subst hw
  simp only [vvFn_encVV, vvVd_encVV, vvVa_encVV, vvVb_encVV, vvVm_encVV, vvTy_encVV]
  rfl

theorem vpermBcastl : ∀ o, Statement (.vpermBcastl o) := by
  intro o w hw hwf
  replace hw := (Option.some.inj hw).symm
  have ho : opOf w = 0x5B#8 := hw ▸ opOf_encVV ..
  refine decode_of w _ (by rw [ho]; decide) (by rw [ho]; decide) ?_ hwf
  rw [decodeOp_5B w ho]
  unfold decode5B
  subst hw
  simp only [vvFn_encVV, vvVd_encVV, vvVa_encVV, vvVb_encVV, vvVm_encVV, vvTy_encVV]
  rfl

theorem vpermZip : ∀ o, Statement (.vpermZip o) := by
  intro o w hw hwf
  replace hw := (Option.some.inj hw).symm
  have ho : opOf w = 0x5B#8 := hw ▸ opOf_encVV ..
  refine decode_of w _ (by rw [ho]; decide) (by rw [ho]; decide) ?_ hwf
  rw [decodeOp_5B w ho]
  unfold decode5B
  subst hw
  simp only [vvFn_encVV, vvVd_encVV, vvVa_encVV, vvVb_encVV, vvVm_encVV, vvTy_encVV]
  rfl

theorem vpermUnzip : ∀ o, Statement (.vpermUnzip o) := by
  intro o w hw hwf
  replace hw := (Option.some.inj hw).symm
  have ho : opOf w = 0x5B#8 := hw ▸ opOf_encVV ..
  refine decode_of w _ (by rw [ho]; decide) (by rw [ho]; decide) ?_ hwf
  rw [decodeOp_5B w ho]
  unfold decode5B
  subst hw
  simp only [vvFn_encVV, vvVd_encVV, vvVa_encVV, vvVb_encVV, vvVm_encVV, vvTy_encVV]
  rfl

theorem vpermCompress : ∀ o, Statement (.vpermCompress o) := by
  intro o w hw hwf
  replace hw := (Option.some.inj hw).symm
  have ho : opOf w = 0x5B#8 := hw ▸ opOf_encVV ..
  refine decode_of w _ (by rw [ho]; decide) (by rw [ho]; decide) ?_ hwf
  rw [decodeOp_5B w ho]
  unfold decode5B
  subst hw
  simp only [vvFn_encVV, vvVd_encVV, vvVa_encVV, vvVb_encVV, vvVm_encVV, vvTy_encVV]
  rfl

theorem vpermExpand : ∀ o, Statement (.vpermExpand o) := by
  intro o w hw hwf
  replace hw := (Option.some.inj hw).symm
  have ho : opOf w = 0x5B#8 := hw ▸ opOf_encVV ..
  refine decode_of w _ (by rw [ho]; decide) (by rw [ho]; decide) ?_ hwf
  rw [decodeOp_5B w ho]
  unfold decode5B
  subst hw
  simp only [vvFn_encVV, vvVd_encVV, vvVa_encVV, vvVb_encVV, vvVm_encVV, vvTy_encVV]
  rfl

theorem vpermIota : ∀ vd vm ty, Statement (.vpermIota vd vm ty) := by
  intro vd vm ty w hw hwf
  replace hw := (Option.some.inj hw).symm
  have ho : opOf w = 0x5B#8 := hw ▸ opOf_encVV ..
  refine decode_of w _ (by rw [ho]; decide) (by rw [ho]; decide) ?_ hwf
  rw [decodeOp_5B w ho]
  unfold decode5B
  subst hw
  simp only [vvFn_encVV, vvVd_encVV, vvVa_encVV, vvVb_encVV, vvVm_encVV, vvTy_encVV]
  rfl

theorem vsfEx2 : ∀ o, Statement (.vsfEx2 o) := by
  intro o w hw hwf
  replace hw := (Option.some.inj hw).symm
  have ho : opOf w = 0x5C#8 := hw ▸ opOf_encVV ..
  refine decode_of w _ (by rw [ho]; decide) (by rw [ho]; decide) ?_ hwf
  rw [decodeOp_5C w ho]
  unfold decode5C
  subst hw
  simp only [vvFn_encVV, vvVd_encVV, vvVa_encVV, vvVb_encVV, vvVm_encVV, vvTy_encVV]
  rfl

theorem vsfLg2 : ∀ o, Statement (.vsfLg2 o) := by
  intro o w hw hwf
  replace hw := (Option.some.inj hw).symm
  have ho : opOf w = 0x5C#8 := hw ▸ opOf_encVV ..
  refine decode_of w _ (by rw [ho]; decide) (by rw [ho]; decide) ?_ hwf
  rw [decodeOp_5C w ho]
  unfold decode5C
  subst hw
  simp only [vvFn_encVV, vvVd_encVV, vvVa_encVV, vvVb_encVV, vvVm_encVV, vvTy_encVV]
  rfl

theorem vsfRcp : ∀ o, Statement (.vsfRcp o) := by
  intro o w hw hwf
  replace hw := (Option.some.inj hw).symm
  have ho : opOf w = 0x5C#8 := hw ▸ opOf_encVV ..
  refine decode_of w _ (by rw [ho]; decide) (by rw [ho]; decide) ?_ hwf
  rw [decodeOp_5C w ho]
  unfold decode5C
  subst hw
  simp only [vvFn_encVV, vvVd_encVV, vvVa_encVV, vvVb_encVV, vvVm_encVV, vvTy_encVV]
  rfl

theorem vsfRsqrt : ∀ o, Statement (.vsfRsqrt o) := by
  intro o w hw hwf
  replace hw := (Option.some.inj hw).symm
  have ho : opOf w = 0x5C#8 := hw ▸ opOf_encVV ..
  refine decode_of w _ (by rw [ho]; decide) (by rw [ho]; decide) ?_ hwf
  rw [decodeOp_5C w ho]
  unfold decode5C
  subst hw
  simp only [vvFn_encVV, vvVd_encVV, vvVa_encVV, vvVb_encVV, vvVm_encVV, vvTy_encVV]
  rfl

theorem vsfSin : ∀ o, Statement (.vsfSin o) := by
  intro o w hw hwf
  replace hw := (Option.some.inj hw).symm
  have ho : opOf w = 0x5C#8 := hw ▸ opOf_encVV ..
  refine decode_of w _ (by rw [ho]; decide) (by rw [ho]; decide) ?_ hwf
  rw [decodeOp_5C w ho]
  unfold decode5C
  subst hw
  simp only [vvFn_encVV, vvVd_encVV, vvVa_encVV, vvVb_encVV, vvVm_encVV, vvTy_encVV]
  rfl

theorem vsfCos : ∀ o, Statement (.vsfCos o) := by
  intro o w hw hwf
  replace hw := (Option.some.inj hw).symm
  have ho : opOf w = 0x5C#8 := hw ▸ opOf_encVV ..
  refine decode_of w _ (by rw [ho]; decide) (by rw [ho]; decide) ?_ hwf
  rw [decodeOp_5C w ho]
  unfold decode5C
  subst hw
  simp only [vvFn_encVV, vvVd_encVV, vvVa_encVV, vvVb_encVV, vvVm_encVV, vvTy_encVV]
  rfl

theorem vsfTanh : ∀ o, Statement (.vsfTanh o) := by
  intro o w hw hwf
  replace hw := (Option.some.inj hw).symm
  have ho : opOf w = 0x5C#8 := hw ▸ opOf_encVV ..
  refine decode_of w _ (by rw [ho]; decide) (by rw [ho]; decide) ?_ hwf
  rw [decodeOp_5C w ho]
  unfold decode5C
  subst hw
  simp only [vvFn_encVV, vvVd_encVV, vvVa_encVV, vvVb_encVV, vvVm_encVV, vvTy_encVV]
  rfl

theorem vsfSigm : ∀ o, Statement (.vsfSigm o) := by
  intro o w hw hwf
  replace hw := (Option.some.inj hw).symm
  have ho : opOf w = 0x5C#8 := hw ▸ opOf_encVV ..
  refine decode_of w _ (by rw [ho]; decide) (by rw [ho]; decide) ?_ hwf
  rw [decodeOp_5C w ho]
  unfold decode5C
  subst hw
  simp only [vvFn_encVV, vvVd_encVV, vvVa_encVV, vvVb_encVV, vvVm_encVV, vvTy_encVV]
  rfl

theorem vmvSplat : ∀ vd sb vm ty, Statement (.vmvSplat vd sb vm ty) := by
  intro vd sb vm ty w hw hwf
  replace hw := (Option.some.inj hw).symm
  have ho : opOf w = 0x5D#8 := hw ▸ opOf_encVV ..
  refine decode_of w _ (by rw [ho]; decide) (by rw [ho]; decide) ?_ hwf
  rw [decodeOp_5D w ho]
  unfold decode5D
  subst hw
  simp only [vvFn_encVV, vvVd_encVV, vvVa_encVV, vvVb_encVV, vvVm_encVV, vvTy_encVV]
  rfl

theorem vmvExtract : ∀ sd va sb ty, Statement (.vmvExtract sd va sb ty) := by
  intro sd va sb ty w hw hwf
  replace hw := (Option.some.inj hw).symm
  have hz : w &&& (0x00080000 : W32) = 0#32 := by
    subst hw
    refine and_zero _ _ fun i hi h => ?_
    have hb : i = 19 := by revert i; decide
    rcases hb with rfl <;> (simp only [encVV, getLsbD_app, Nat.reduceLT, Nat.reduceSub, ↓reduceIte]; rfl)
  have h0 : BitVec.extractLsb' 0 4 (0#1 ++ sd : BitVec 5) = sd := by
    clear hw hwf hz; revert sd; decide
  have ho : opOf w = 0x5D#8 := hw ▸ opOf_encVV ..
  refine decode_of w _ (by rw [ho]; decide) (by rw [ho]; decide) ?_ hwf
  rw [decodeOp_5D w ho]
  unfold decode5D
  subst hw
  simp only [vvFn_encVV, vvVd_encVV, vvVa_encVV, vvVb_encVV, vvVm_encVV, vvTy_encVV, h0]
  exact zeros_ok hz _

theorem vmvInsert : ∀ vd sa sb ty, Statement (.vmvInsert vd sa sb ty) := by
  intro vd sa sb ty w hw hwf
  replace hw := (Option.some.inj hw).symm
  have ho : opOf w = 0x5D#8 := hw ▸ opOf_encVV ..
  refine decode_of w _ (by rw [ho]; decide) (by rw [ho]; decide) ?_ hwf
  rw [decodeOp_5D w ho]
  unfold decode5D
  subst hw
  simp only [vvFn_encVV, vvVd_encVV, vvVa_encVV, vvVb_encVV, vvVm_encVV, vvTy_encVV]
  rfl

theorem vmvMtos : ∀ sd half ma, Statement (.vmvMtos sd half ma) := by
  intro sd half ma w hw hwf
  replace hw := (Option.some.inj hw).symm
  have hz : w &&& (0x000843E3 : W32) = 0#32 := by
    subst hw
    refine and_zero _ _ fun i hi h => ?_
    have hb : i = 0 ∨ i = 1 ∨ i = 5 ∨ i = 6 ∨ i = 7 ∨ i = 8 ∨ i = 9 ∨ i = 14 ∨ i = 19 := by revert i; decide
    rcases hb with rfl | rfl | rfl | rfl | rfl | rfl | rfl | rfl | rfl <;> (simp only [encVV, getLsbD_app, Nat.reduceLT, Nat.reduceSub, ↓reduceIte]; rfl)
  have h0 : BitVec.extractLsb' 0 4 (0#1 ++ sd : BitVec 5) = sd := by
    clear hw hwf hz; revert sd; decide
  have h1 : BitVec.extractLsb' 3 1 (0#1 ++ half ++ ma : BitVec 5) = half := by
    clear hw hwf hz h0; revert half ma; decide
  have h2 : BitVec.extractLsb' 0 3 (0#1 ++ half ++ ma : BitVec 5) = ma := by
    clear hw hwf hz h0 h1; revert half ma; decide
  have ho : opOf w = 0x5D#8 := hw ▸ opOf_encVV ..
  refine decode_of w _ (by rw [ho]; decide) (by rw [ho]; decide) ?_ hwf
  rw [decodeOp_5D w ho]
  unfold decode5D
  subst hw
  simp only [vvFn_encVV, vvVd_encVV, vvVa_encVV, vvVb_encVV, vvVm_encVV, vvTy_encVV, h0, h1, h2]
  exact zeros_ok hz _

theorem vmvStom : ∀ half md sb, Statement (.vmvStom half md sb) := by
  intro half md sb w hw hwf
  replace hw := (Option.some.inj hw).symm
  have hz : w &&& (0x00087C03 : W32) = 0#32 := by
    subst hw
    refine and_zero _ _ fun i hi h => ?_
    have hb : i = 0 ∨ i = 1 ∨ i = 10 ∨ i = 11 ∨ i = 12 ∨ i = 13 ∨ i = 14 ∨ i = 19 := by revert i; decide
    rcases hb with rfl | rfl | rfl | rfl | rfl | rfl | rfl | rfl <;> (simp only [encVV, getLsbD_app, Nat.reduceLT, Nat.reduceSub, ↓reduceIte]; rfl)
  have h0 : BitVec.extractLsb' 3 1 (0#1 ++ half ++ md : BitVec 5) = half := by
    clear hw hwf hz; revert half md; decide
  have h1 : BitVec.extractLsb' 0 3 (0#1 ++ half ++ md : BitVec 5) = md := by
    clear hw hwf hz h0; revert half md; decide
  have ho : opOf w = 0x5D#8 := hw ▸ opOf_encVV ..
  refine decode_of w _ (by rw [ho]; decide) (by rw [ho]; decide) ?_ hwf
  rw [decodeOp_5D w ho]
  unfold decode5D
  subst hw
  simp only [vvFn_encVV, vvVd_encVV, vvVa_encVV, vvVb_encVV, vvVm_encVV, vvTy_encVV, h0, h1]
  exact zeros_ok hz _

theorem vld : ∀ o, Statement (.vld o) := by
  intro o w hw hwf
  replace hw := (Option.some.inj hw).symm
  have ho : opOf w = 0x60#8 := hw ▸ opOf_encVM ..
  refine decode_of w _ (by rw [ho]; decide) (by rw [ho]; decide) ?_ hwf
  rw [decodeOp_60 w ho]
  unfold decode60
  subst hw
  simp only [vmV_encVM, vmSb_encVM, vmSi_encVM, vmVm_encVM, vmRh_encVM, vmEw_encVM, vmMd_encVM]

theorem vst : ∀ o, Statement (.vst o) := by
  intro o w hw hwf
  replace hw := (Option.some.inj hw).symm
  have ho : opOf w = 0x61#8 := hw ▸ opOf_encVM ..
  refine decode_of w _ (by rw [ho]; decide) (by rw [ho]; decide) ?_ hwf
  rw [decodeOp_61 w ho]
  unfold decode61
  subst hw
  simp only [vmV_encVM, vmSb_encVM, vmSi_encVM, vmVm_encVM, vmRh_encVM, vmEw_encVM, vmMd_encVM]

theorem vgth : ∀ o, Statement (.vgth o) := by
  intro o w hw hwf
  replace hw := (Option.some.inj hw).symm
  have hz : w &&& (0x00000003 : W32) = 0#32 := by
    subst hw
    refine and_zero _ _ fun i hi h => ?_
    have hb : i = 0 ∨ i = 1 := by revert i; decide
    rcases hb with rfl | rfl <;> (simp only [encVM, getLsbD_app, Nat.reduceLT, Nat.reduceSub, ↓reduceIte]; rfl)
  have ho : opOf w = 0x62#8 := hw ▸ opOf_encVM ..
  refine decode_of w _ (by rw [ho]; decide) (by rw [ho]; decide) ?_ hwf
  rw [decodeOp_62 w ho]
  unfold decode62
  rw [zeros_ok hz]
  subst hw
  simp only [vmV_encVM, vmSb_encVM, vmSi_encVM, vmVm_encVM, vmRh_encVM, vmEw_encVM, vmMd_encVM]

theorem vsct : ∀ o, Statement (.vsct o) := by
  intro o w hw hwf
  replace hw := (Option.some.inj hw).symm
  have hz : w &&& (0x00000003 : W32) = 0#32 := by
    subst hw
    refine and_zero _ _ fun i hi h => ?_
    have hb : i = 0 ∨ i = 1 := by revert i; decide
    rcases hb with rfl | rfl <;> (simp only [encVM, getLsbD_app, Nat.reduceLT, Nat.reduceSub, ↓reduceIte]; rfl)
  have ho : opOf w = 0x63#8 := hw ▸ opOf_encVM ..
  refine decode_of w _ (by rw [ho]; decide) (by rw [ho]; decide) ?_ hwf
  rw [decodeOp_63 w ho]
  unfold decode63
  rw [zeros_ok hz]
  subst hw
  simp only [vmV_encVM, vmSb_encVM, vmSi_encVM, vmVm_encVM, vmRh_encVM, vmEw_encVM, vmMd_encVM]

theorem gangForm : ∀ sa sd, Statement (.gangForm sa sd) := by
  intro sa sd w hw hwf
  replace hw := (Option.some.inj hw).symm
  have ho : opOf w = 0x64#8 := hw ▸ opOf_encEN ..
  refine decode_of w _ (by rw [ho]; decide) (by rw [ho]; decide) ?_ hwf
  rw [decodeOp_64 w ho]
  unfold decode64
  subst hw
  simp only [enFn_encEN, enSa_encEN, enSb_encEN, enSd_encEN, enImm_encEN]
  rfl

theorem gangJoin : ∀ sa sd, Statement (.gangJoin sa sd) := by
  intro sa sd w hw hwf
  replace hw := (Option.some.inj hw).symm
  have ho : opOf w = 0x64#8 := hw ▸ opOf_encEN ..
  refine decode_of w _ (by rw [ho]; decide) (by rw [ho]; decide) ?_ hwf
  rw [decodeOp_64 w ho]
  unfold decode64
  subst hw
  simp only [enFn_encEN, enSa_encEN, enSb_encEN, enSd_encEN, enImm_encEN]
  rfl

theorem gangDisband : Statement .gangDisband := by
  intro w hw hwf
  replace hw := (Option.some.inj hw).symm
  have ho : opOf w = 0x64#8 := hw ▸ opOf_encEN ..
  refine decode_of w _ (by rw [ho]; decide) (by rw [ho]; decide) ?_ hwf
  rw [decodeOp_64 w ho]
  unfold decode64
  subst hw
  simp only [enFn_encEN, enSa_encEN, enSb_encEN, enSd_encEN, enImm_encEN]
  rfl

theorem gangIdx : ∀ sd, Statement (.gangIdx sd) := by
  intro sd w hw hwf
  replace hw := (Option.some.inj hw).symm
  have ho : opOf w = 0x64#8 := hw ▸ opOf_encEN ..
  refine decode_of w _ (by rw [ho]; decide) (by rw [ho]; decide) ?_ hwf
  rw [decodeOp_64 w ho]
  unfold decode64
  subst hw
  simp only [enFn_encEN, enSa_encEN, enSb_encEN, enSd_encEN, enImm_encEN]
  rfl

theorem mmaE4m3 : ∀ o, Statement (.mmaE4m3 o) := by
  intro o w hw hwf
  replace hw := (Option.some.inj hw).symm
  have ho : opOf w = 0x70#8 := hw ▸ opOf_encMX ..
  refine decode_of w _ (by rw [ho]; decide) (by rw [ho]; decide) ?_ hwf
  rw [decodeOp_70 w ho]
  unfold decode70
  subst hw
  simp only [mxAc_encMX, mxAsel_encMX, mxA_encMX, mxBsel_encMX, mxB_encMX, mxDa_encMX, mxDb_encMX, mxSk_encMX, mxMf_encMX]
  rfl

theorem mmaE5m2 : ∀ o, Statement (.mmaE5m2 o) := by
  intro o w hw hwf
  replace hw := (Option.some.inj hw).symm
  have ho : opOf w = 0x70#8 := hw ▸ opOf_encMX ..
  refine decode_of w _ (by rw [ho]; decide) (by rw [ho]; decide) ?_ hwf
  rw [decodeOp_70 w ho]
  unfold decode70
  subst hw
  simp only [mxAc_encMX, mxAsel_encMX, mxA_encMX, mxBsel_encMX, mxB_encMX, mxDa_encMX, mxDb_encMX, mxSk_encMX, mxMf_encMX]
  rfl

theorem mmaE4m3e5m2 : ∀ o, Statement (.mmaE4m3e5m2 o) := by
  intro o w hw hwf
  replace hw := (Option.some.inj hw).symm
  have ho : opOf w = 0x70#8 := hw ▸ opOf_encMX ..
  refine decode_of w _ (by rw [ho]; decide) (by rw [ho]; decide) ?_ hwf
  rw [decodeOp_70 w ho]
  unfold decode70
  subst hw
  simp only [mxAc_encMX, mxAsel_encMX, mxA_encMX, mxBsel_encMX, mxB_encMX, mxDa_encMX, mxDb_encMX, mxSk_encMX, mxMf_encMX]
  rfl

theorem mmaE2m1 : ∀ o, Statement (.mmaE2m1 o) := by
  intro o w hw hwf
  replace hw := (Option.some.inj hw).symm
  have ho : opOf w = 0x70#8 := hw ▸ opOf_encMX ..
  refine decode_of w _ (by rw [ho]; decide) (by rw [ho]; decide) ?_ hwf
  rw [decodeOp_70 w ho]
  unfold decode70
  subst hw
  simp only [mxAc_encMX, mxAsel_encMX, mxA_encMX, mxBsel_encMX, mxB_encMX, mxDa_encMX, mxDb_encMX, mxSk_encMX, mxMf_encMX]
  rfl

theorem mmaBf16 : ∀ o, Statement (.mmaBf16 o) := by
  intro o w hw hwf
  replace hw := (Option.some.inj hw).symm
  have ho : opOf w = 0x70#8 := hw ▸ opOf_encMX ..
  refine decode_of w _ (by rw [ho]; decide) (by rw [ho]; decide) ?_ hwf
  rw [decodeOp_70 w ho]
  unfold decode70
  subst hw
  simp only [mxAc_encMX, mxAsel_encMX, mxA_encMX, mxBsel_encMX, mxB_encMX, mxDa_encMX, mxDb_encMX, mxSk_encMX, mxMf_encMX]
  rfl

theorem mmaFp16 : ∀ o, Statement (.mmaFp16 o) := by
  intro o w hw hwf
  replace hw := (Option.some.inj hw).symm
  have ho : opOf w = 0x70#8 := hw ▸ opOf_encMX ..
  refine decode_of w _ (by rw [ho]; decide) (by rw [ho]; decide) ?_ hwf
  rw [decodeOp_70 w ho]
  unfold decode70
  subst hw
  simp only [mxAc_encMX, mxAsel_encMX, mxA_encMX, mxBsel_encMX, mxB_encMX, mxDa_encMX, mxDb_encMX, mxSk_encMX, mxMf_encMX]
  rfl

theorem mmaI8 : ∀ o, Statement (.mmaI8 o) := by
  intro o w hw hwf
  replace hw := (Option.some.inj hw).symm
  have ho : opOf w = 0x70#8 := hw ▸ opOf_encMX ..
  refine decode_of w _ (by rw [ho]; decide) (by rw [ho]; decide) ?_ hwf
  rw [decodeOp_70 w ho]
  unfold decode70
  subst hw
  simp only [mxAc_encMX, mxAsel_encMX, mxA_encMX, mxBsel_encMX, mxB_encMX, mxDa_encMX, mxDb_encMX, mxSk_encMX, mxMf_encMX]
  rfl

theorem mmaU8i8 : ∀ o, Statement (.mmaU8i8 o) := by
  intro o w hw hwf
  replace hw := (Option.some.inj hw).symm
  have ho : opOf w = 0x70#8 := hw ▸ opOf_encMX ..
  refine decode_of w _ (by rw [ho]; decide) (by rw [ho]; decide) ?_ hwf
  rw [decodeOp_70 w ho]
  unfold decode70
  subst hw
  simp only [mxAc_encMX, mxAsel_encMX, mxA_encMX, mxBsel_encMX, mxB_encMX, mxDa_encMX, mxDb_encMX, mxSk_encMX, mxMf_encMX]
  rfl

theorem accZero : ∀ an, Statement (.accZero an) := by
  intro an w hw hwf
  replace hw := (Option.some.inj hw).symm
  have hz : w &&& (0x00000038 : W32) = 0#32 := by
    subst hw
    exact low_zero _ _ _ _ _ _ 0x38#6 (by clear hwf; revert an; decide)
  have h0 : BitVec.extractLsb' 0 3 (0#3 ++ an : BitVec 6) = an := by
    clear hw hwf hz; revert an; decide
  have ho : opOf w = 0x71#8 := hw ▸ opOf_encEN ..
  refine decode_of w _ (by rw [ho]; decide) (by rw [ho]; decide) ?_ hwf
  rw [decodeOp_71 w ho]
  unfold decode71
  subst hw
  simp only [enFn_encEN, enSa_encEN, enSb_encEN, enSd_encEN, enImm_encEN, h0]
  exact zeros_ok hz _

theorem accLd : ∀ sa sb sd sc an, Statement (.accLd sa sb sd sc an) := by
  intro sa sb sd sc an w hw hwf
  replace hw := (Option.some.inj hw).symm
  have hz : w &&& (0x00000020 : W32) = 0#32 := by
    subst hw
    exact low_zero _ _ _ _ _ _ 0x20#6 (by clear hwf; revert sc an; decide)
  have h0 : BitVec.extractLsb' 3 2 (0#1 ++ sc ++ an : BitVec 6) = sc := by
    clear hw hwf hz; revert sc an; decide
  have h1 : BitVec.extractLsb' 0 3 (0#1 ++ sc ++ an : BitVec 6) = an := by
    clear hw hwf hz h0; revert sc an; decide
  have ho : opOf w = 0x71#8 := hw ▸ opOf_encEN ..
  refine decode_of w _ (by rw [ho]; decide) (by rw [ho]; decide) ?_ hwf
  rw [decodeOp_71 w ho]
  unfold decode71
  subst hw
  simp only [enFn_encEN, enSa_encEN, enSb_encEN, enSd_encEN, enImm_encEN, h0, h1]
  exact zeros_ok hz _

theorem accSt : ∀ sa sb sd sc an, Statement (.accSt sa sb sd sc an) := by
  intro sa sb sd sc an w hw hwf
  replace hw := (Option.some.inj hw).symm
  have hz : w &&& (0x00000020 : W32) = 0#32 := by
    subst hw
    exact low_zero _ _ _ _ _ _ 0x20#6 (by clear hwf; revert sc an; decide)
  have h0 : BitVec.extractLsb' 3 2 (0#1 ++ sc ++ an : BitVec 6) = sc := by
    clear hw hwf hz; revert sc an; decide
  have h1 : BitVec.extractLsb' 0 3 (0#1 ++ sc ++ an : BitVec 6) = an := by
    clear hw hwf hz h0; revert sc an; decide
  have ho : opOf w = 0x71#8 := hw ▸ opOf_encEN ..
  refine decode_of w _ (by rw [ho]; decide) (by rw [ho]; decide) ?_ hwf
  rw [decodeOp_71 w ho]
  unfold decode71
  subst hw
  simp only [enFn_encEN, enSa_encEN, enSb_encEN, enSd_encEN, enImm_encEN, h0, h1]
  exact zeros_ok hz _

theorem accRowRead : ∀ va sb an, Statement (.accRowRead va sb an) := by
  intro va sb an w hw hwf
  replace hw := (Option.some.inj hw).symm
  have hz : w &&& (0x00000030 : W32) = 0#32 := by
    subst hw
    exact low_zero _ _ _ _ _ _ 0x30#6 (by clear hwf; revert an; decide)
  have h0 : BitVec.extractLsb' 0 3 (0#3 ++ an : BitVec 6) = an := by
    clear hw hwf hz; revert an; decide
  have hb : (0#3 ++ an : BitVec 6).getLsbD 3 = false := by clear hw hwf hz h0; revert an; decide
  have ho : opOf w = 0x71#8 := hw ▸ opOf_encEN ..
  refine decode_of w _ (by rw [ho]; decide) (by rw [ho]; decide) ?_ hwf
  rw [decodeOp_71 w ho]
  unfold decode71
  subst hw
  simp only [enFn_encEN, enSa_encEN, enSb_encEN, enSd_encEN, enImm_encEN, h0, hb]
  exact zeros_ok hz _

theorem accRowWrite : ∀ va sb an, Statement (.accRowWrite va sb an) := by
  intro va sb an w hw hwf
  replace hw := (Option.some.inj hw).symm
  have hz : w &&& (0x00000030 : W32) = 0#32 := by
    subst hw
    exact low_zero _ _ _ _ _ _ 0x30#6 (by clear hwf; revert an; decide)
  have h0 : BitVec.extractLsb' 0 3 (1#3 ++ an : BitVec 6) = an := by
    clear hw hwf hz; revert an; decide
  have h1 : BitVec.extractLsb' 0 3 (1#3 ++ an : BitVec 6) = an := by
    clear hw hwf hz h0; revert an; decide
  have hb : (1#3 ++ an : BitVec 6).getLsbD 3 = true := by clear hw hwf hz h0; revert an; decide
  have ho : opOf w = 0x71#8 := hw ▸ opOf_encEN ..
  refine decode_of w _ (by rw [ho]; decide) (by rw [ho]; decide) ?_ hwf
  rw [decodeOp_71 w ho]
  unfold decode71
  subst hw
  simp only [enFn_encEN, enSa_encEN, enSb_encEN, enSd_encEN, enImm_encEN, h0, h1, hb]
  exact zeros_ok hz _

theorem accScale : ∀ sa an, Statement (.accScale sa an) := by
  intro sa an w hw hwf
  replace hw := (Option.some.inj hw).symm
  have hz : w &&& (0x00000038 : W32) = 0#32 := by
    subst hw
    exact low_zero _ _ _ _ _ _ 0x38#6 (by clear hwf; revert an; decide)
  have h0 : BitVec.extractLsb' 0 3 (0#3 ++ an : BitVec 6) = an := by
    clear hw hwf hz; revert an; decide
  have ho : opOf w = 0x71#8 := hw ▸ opOf_encEN ..
  refine decode_of w _ (by rw [ho]; decide) (by rw [ho]; decide) ?_ hwf
  rw [decodeOp_71 w ho]
  unfold decode71
  subst hw
  simp only [enFn_encEN, enSa_encEN, enSb_encEN, enSd_encEN, enImm_encEN, h0]
  exact zeros_ok hz _

theorem skdSet : ∀ sa sb sk, Statement (.skdSet sa sb sk) := by
  intro sa sb sk w hw hwf
  replace hw := (Option.some.inj hw).symm
  have hz : w &&& (0x0000003C : W32) = 0#32 := by
    subst hw
    exact low_zero _ _ _ _ _ _ 0x3C#6 (by clear hwf; revert sk; decide)
  have h0 : BitVec.extractLsb' 0 2 (0#4 ++ sk : BitVec 6) = sk := by
    clear hw hwf hz; revert sk; decide
  have ho : opOf w = 0x72#8 := hw ▸ opOf_encEN ..
  refine decode_of w _ (by rw [ho]; decide) (by rw [ho]; decide) ?_ hwf
  rw [decodeOp_72 w ho]
  unfold decode72
  subst hw
  simp only [enFn_encEN, enSa_encEN, enSb_encEN, enSd_encEN, enImm_encEN, h0]
  exact zeros_ok hz _

theorem skdReset : ∀ sk, Statement (.skdReset sk) := by
  intro sk w hw hwf
  replace hw := (Option.some.inj hw).symm
  have hz : w &&& (0x0000003C : W32) = 0#32 := by
    subst hw
    exact low_zero _ _ _ _ _ _ 0x3C#6 (by clear hwf; revert sk; decide)
  have h0 : BitVec.extractLsb' 0 2 (0#4 ++ sk : BitVec 6) = sk := by
    clear hw hwf hz; revert sk; decide
  have ho : opOf w = 0x72#8 := hw ▸ opOf_encEN ..
  refine decode_of w _ (by rw [ho]; decide) (by rw [ho]; decide) ?_ hwf
  rw [decodeOp_72 w ho]
  unfold decode72
  subst hw
  simp only [enFn_encEN, enSa_encEN, enSb_encEN, enSd_encEN, enImm_encEN, h0]
  exact zeros_ok hz _

theorem skdPos : ∀ sd sk, Statement (.skdPos sd sk) := by
  intro sd sk w hw hwf
  replace hw := (Option.some.inj hw).symm
  have hz : w &&& (0x0000003C : W32) = 0#32 := by
    subst hw
    exact low_zero _ _ _ _ _ _ 0x3C#6 (by clear hwf; revert sk; decide)
  have h0 : BitVec.extractLsb' 0 2 (0#4 ++ sk : BitVec 6) = sk := by
    clear hw hwf hz; revert sk; decide
  have ho : opOf w = 0x72#8 := hw ▸ opOf_encEN ..
  refine decode_of w _ (by rw [ho]; decide) (by rw [ho]; decide) ?_ hwf
  rw [decodeOp_72 w ho]
  unfold decode72
  subst hw
  simp only [enFn_encEN, enSa_encEN, enSb_encEN, enSd_encEN, enImm_encEN, h0]
  exact zeros_ok hz _

theorem cbCfg : ∀ sa sb sd n, Statement (.cbCfg sa sb sd n) := by
  intro sa sb sd n w hw hwf
  replace hw := (Option.some.inj hw).symm
  have hz : w &&& (0x00000030 : W32) = 0#32 := by
    subst hw
    exact low_zero _ _ _ _ _ _ 0x30#6 (by clear hwf; revert n; decide)
  have h0 : BitVec.extractLsb' 0 4 (0#2 ++ n : BitVec 6) = n := by
    clear hw hwf hz; revert n; decide
  have ho : opOf w = 0x80#8 := hw ▸ opOf_encEN ..
  refine decode_of w _ (by rw [ho]; decide) (by rw [ho]; decide) ?_ hwf
  rw [decodeOp_80 w ho]
  unfold decode80
  subst hw
  simp only [enFn_encEN, enSa_encEN, enSb_encEN, enSd_encEN, enImm_encEN, h0]
  exact zeros_ok hz _

theorem cbPut : ∀ sa sd n, Statement (.cbPut sa sd n) := by
  intro sa sd n w hw hwf
  replace hw := (Option.some.inj hw).symm
  have hz : w &&& (0x00000030 : W32) = 0#32 := by
    subst hw
    exact low_zero _ _ _ _ _ _ 0x30#6 (by clear hwf; revert n; decide)
  have h0 : BitVec.extractLsb' 0 4 (0#2 ++ n : BitVec 6) = n := by
    clear hw hwf hz; revert n; decide
  have ho : opOf w = 0x80#8 := hw ▸ opOf_encEN ..
  refine decode_of w _ (by rw [ho]; decide) (by rw [ho]; decide) ?_ hwf
  rw [decodeOp_80 w ho]
  unfold decode80
  subst hw
  simp only [enFn_encEN, enSa_encEN, enSb_encEN, enSd_encEN, enImm_encEN, h0]
  exact zeros_ok hz _

theorem cbGet : ∀ sa sd n, Statement (.cbGet sa sd n) := by
  intro sa sd n w hw hwf
  replace hw := (Option.some.inj hw).symm
  have hz : w &&& (0x00000030 : W32) = 0#32 := by
    subst hw
    exact low_zero _ _ _ _ _ _ 0x30#6 (by clear hwf; revert n; decide)
  have h0 : BitVec.extractLsb' 0 4 (0#2 ++ n : BitVec 6) = n := by
    clear hw hwf hz; revert n; decide
  have ho : opOf w = 0x80#8 := hw ▸ opOf_encEN ..
  refine decode_of w _ (by rw [ho]; decide) (by rw [ho]; decide) ?_ hwf
  rw [decodeOp_80 w ho]
  unfold decode80
  subst hw
  simp only [enFn_encEN, enSa_encEN, enSb_encEN, enSd_encEN, enImm_encEN, h0]
  exact zeros_ok hz _

theorem cbRoom : ∀ sd n, Statement (.cbRoom sd n) := by
  intro sd n w hw hwf
  replace hw := (Option.some.inj hw).symm
  have hz : w &&& (0x00000030 : W32) = 0#32 := by
    subst hw
    exact low_zero _ _ _ _ _ _ 0x30#6 (by clear hwf; revert n; decide)
  have h0 : BitVec.extractLsb' 0 4 (0#2 ++ n : BitVec 6) = n := by
    clear hw hwf hz; revert n; decide
  have ho : opOf w = 0x80#8 := hw ▸ opOf_encEN ..
  refine decode_of w _ (by rw [ho]; decide) (by rw [ho]; decide) ?_ hwf
  rw [decodeOp_80 w ho]
  unfold decode80
  subst hw
  simp only [enFn_encEN, enSa_encEN, enSb_encEN, enSd_encEN, enImm_encEN, h0]
  exact zeros_ok hz _

theorem cbCount : ∀ sd n, Statement (.cbCount sd n) := by
  intro sd n w hw hwf
  replace hw := (Option.some.inj hw).symm
  have hz : w &&& (0x00000030 : W32) = 0#32 := by
    subst hw
    exact low_zero _ _ _ _ _ _ 0x30#6 (by clear hwf; revert n; decide)
  have h0 : BitVec.extractLsb' 0 4 (0#2 ++ n : BitVec 6) = n := by
    clear hw hwf hz; revert n; decide
  have ho : opOf w = 0x80#8 := hw ▸ opOf_encEN ..
  refine decode_of w _ (by rw [ho]; decide) (by rw [ho]; decide) ?_ hwf
  rw [decodeOp_80 w ho]
  unfold decode80
  subst hw
  simp only [enFn_encEN, enSa_encEN, enSb_encEN, enSd_encEN, enImm_encEN, h0]
  exact zeros_ok hz _

theorem cbWait : ∀ sa room n, Statement (.cbWait sa room n) := by
  intro sa room n w hw hwf
  replace hw := (Option.some.inj hw).symm
  have hz : w &&& (0x00000020 : W32) = 0#32 := by
    subst hw
    exact low_zero _ _ _ _ _ _ 0x20#6 (by clear hwf; revert room n; decide)
  have h0 : BitVec.extractLsb' 4 1 (0#1 ++ room ++ n : BitVec 6) = room := by
    clear hw hwf hz; revert room n; decide
  have h1 : BitVec.extractLsb' 0 4 (0#1 ++ room ++ n : BitVec 6) = n := by
    clear hw hwf hz h0; revert room n; decide
  have ho : opOf w = 0x80#8 := hw ▸ opOf_encEN ..
  refine decode_of w _ (by rw [ho]; decide) (by rw [ho]; decide) ?_ hwf
  rw [decodeOp_80 w ho]
  unfold decode80
  subst hw
  simp only [enFn_encEN, enSa_encEN, enSb_encEN, enSd_encEN, enImm_encEN, h0, h1]
  exact zeros_ok hz _

theorem engBind : ∀ sa sd, Statement (.engBind sa sd) := by
  intro sa sd w hw hwf
  replace hw := (Option.some.inj hw).symm
  have ho : opOf w = 0x81#8 := hw ▸ opOf_encEN ..
  refine decode_of w _ (by rw [ho]; decide) (by rw [ho]; decide) ?_ hwf
  rw [decodeOp_81 w ho]
  unfold decode81
  subst hw
  simp only [enFn_encEN, enSa_encEN, enSb_encEN, enSd_encEN, enImm_encEN]
  rfl

theorem engArm : ∀ sa, Statement (.engArm sa) := by
  intro sa w hw hwf
  replace hw := (Option.some.inj hw).symm
  have ho : opOf w = 0x81#8 := hw ▸ opOf_encEN ..
  refine decode_of w _ (by rw [ho]; decide) (by rw [ho]; decide) ?_ hwf
  rw [decodeOp_81 w ho]
  unfold decode81
  subst hw
  simp only [enFn_encEN, enSa_encEN, enSb_encEN, enSd_encEN, enImm_encEN]
  rfl

theorem engOnce : ∀ sa, Statement (.engOnce sa) := by
  intro sa w hw hwf
  replace hw := (Option.some.inj hw).symm
  have ho : opOf w = 0x81#8 := hw ▸ opOf_encEN ..
  refine decode_of w _ (by rw [ho]; decide) (by rw [ho]; decide) ?_ hwf
  rw [decodeOp_81 w ho]
  unfold decode81
  subst hw
  simp only [enFn_encEN, enSa_encEN, enSb_encEN, enSd_encEN, enImm_encEN]
  rfl

theorem engUnbind : ∀ sa, Statement (.engUnbind sa) := by
  intro sa w hw hwf
  replace hw := (Option.some.inj hw).symm
  have ho : opOf w = 0x81#8 := hw ▸ opOf_encEN ..
  refine decode_of w _ (by rw [ho]; decide) (by rw [ho]; decide) ?_ hwf
  rw [decodeOp_81 w ho]
  unfold decode81
  subst hw
  simp only [enFn_encEN, enSa_encEN, enSb_encEN, enSd_encEN, enImm_encEN]
  rfl

theorem engStat : ∀ sa sd, Statement (.engStat sa sd) := by
  intro sa sd w hw hwf
  replace hw := (Option.some.inj hw).symm
  have ho : opOf w = 0x81#8 := hw ▸ opOf_encEN ..
  refine decode_of w _ (by rw [ho]; decide) (by rw [ho]; decide) ?_ hwf
  rw [decodeOp_81 w ho]
  unfold decode81
  subst hw
  simp only [enFn_encEN, enSa_encEN, enSb_encEN, enSd_encEN, enImm_encEN]
  rfl

theorem copyLin : ∀ sa sb sd c, Statement (.copyLin sa sb sd c) := by
  intro sa sb sd c w hw hwf
  replace hw := (Option.some.inj hw).symm
  have hz : w &&& (0x0000003C : W32) = 0#32 := by
    subst hw
    exact low_zero _ _ _ _ _ _ 0x3C#6 (by clear hwf; revert c; decide)
  have h0 : BitVec.extractLsb' 0 2 (0#4 ++ c : BitVec 6) = c := by
    clear hw hwf hz; revert c; decide
  have ho : opOf w = 0x82#8 := hw ▸ opOf_encEN ..
  refine decode_of w _ (by rw [ho]; decide) (by rw [ho]; decide) ?_ hwf
  rw [decodeOp_82 w ho]
  unfold decode82
  subst hw
  simp only [enFn_encEN, enSa_encEN, enSb_encEN, enSd_encEN, enImm_encEN, h0]
  exact zeros_ok hz _

theorem copyTile2d : ∀ sa sb sd c, Statement (.copyTile2d sa sb sd c) := by
  intro sa sb sd c w hw hwf
  replace hw := (Option.some.inj hw).symm
  have hz : w &&& (0x0000003C : W32) = 0#32 := by
    subst hw
    exact low_zero _ _ _ _ _ _ 0x3C#6 (by clear hwf; revert c; decide)
  have h0 : BitVec.extractLsb' 0 2 (0#4 ++ c : BitVec 6) = c := by
    clear hw hwf hz; revert c; decide
  have ho : opOf w = 0x82#8 := hw ▸ opOf_encEN ..
  refine decode_of w _ (by rw [ho]; decide) (by rw [ho]; decide) ?_ hwf
  rw [decodeOp_82 w ho]
  unfold decode82
  subst hw
  simp only [enFn_encEN, enSa_encEN, enSb_encEN, enSd_encEN, enImm_encEN, h0]
  exact zeros_ok hz _

theorem copyPeer : ∀ sa sb sd c, Statement (.copyPeer sa sb sd c) := by
  intro sa sb sd c w hw hwf
  replace hw := (Option.some.inj hw).symm
  have hz : w &&& (0x0000003C : W32) = 0#32 := by
    subst hw
    exact low_zero _ _ _ _ _ _ 0x3C#6 (by clear hwf; revert c; decide)
  have h0 : BitVec.extractLsb' 0 2 (0#4 ++ c : BitVec 6) = c := by
    clear hw hwf hz; revert c; decide
  have ho : opOf w = 0x82#8 := hw ▸ opOf_encEN ..
  refine decode_of w _ (by rw [ho]; decide) (by rw [ho]; decide) ?_ hwf
  rw [decodeOp_82 w ho]
  unfold decode82
  subst hw
  simp only [enFn_encEN, enSa_encEN, enSb_encEN, enSd_encEN, enImm_encEN, h0]
  exact zeros_ok hz _

theorem copyBcast : ∀ sa sb sd c, Statement (.copyBcast sa sb sd c) := by
  intro sa sb sd c w hw hwf
  replace hw := (Option.some.inj hw).symm
  have hz : w &&& (0x0000003C : W32) = 0#32 := by
    subst hw
    exact low_zero _ _ _ _ _ _ 0x3C#6 (by clear hwf; revert c; decide)
  have h0 : BitVec.extractLsb' 0 2 (0#4 ++ c : BitVec 6) = c := by
    clear hw hwf hz; revert c; decide
  have ho : opOf w = 0x82#8 := hw ▸ opOf_encEN ..
  refine decode_of w _ (by rw [ho]; decide) (by rw [ho]; decide) ?_ hwf
  rw [decodeOp_82 w ho]
  unfold decode82
  subst hw
  simp only [enFn_encEN, enSa_encEN, enSb_encEN, enSd_encEN, enImm_encEN, h0]
  exact zeros_ok hz _

theorem bankFmtset : ∀ sa sd n, Statement (.bankFmtset sa sd n) := by
  intro sa sd n w hw hwf
  replace hw := (Option.some.inj hw).symm
  have hz : w &&& (0x00000030 : W32) = 0#32 := by
    subst hw
    exact low_zero _ _ _ _ _ _ 0x30#6 (by clear hwf; revert n; decide)
  have h0 : BitVec.extractLsb' 0 4 (0#2 ++ n : BitVec 6) = n := by
    clear hw hwf hz; revert n; decide
  have ho : opOf w = 0x83#8 := hw ▸ opOf_encEN ..
  refine decode_of w _ (by rw [ho]; decide) (by rw [ho]; decide) ?_ hwf
  rw [decodeOp_83 w ho]
  unfold decode83
  subst hw
  simp only [enFn_encEN, enSa_encEN, enSb_encEN, enSd_encEN, enImm_encEN, h0]
  exact zeros_ok hz _

theorem bankFmtget : ∀ sd n, Statement (.bankFmtget sd n) := by
  intro sd n w hw hwf
  replace hw := (Option.some.inj hw).symm
  have hz : w &&& (0x00000030 : W32) = 0#32 := by
    subst hw
    exact low_zero _ _ _ _ _ _ 0x30#6 (by clear hwf; revert n; decide)
  have h0 : BitVec.extractLsb' 0 4 (0#2 ++ n : BitVec 6) = n := by
    clear hw hwf hz; revert n; decide
  have ho : opOf w = 0x83#8 := hw ▸ opOf_encEN ..
  refine decode_of w _ (by rw [ho]; decide) (by rw [ho]; decide) ?_ hwf
  rw [decodeOp_83 w ho]
  unfold decode83
  subst hw
  simp only [enFn_encEN, enSa_encEN, enSb_encEN, enSd_encEN, enImm_encEN, h0]
  exact zeros_ok hz _

theorem bankGate : ∀ n, Statement (.bankGate n) := by
  intro n w hw hwf
  replace hw := (Option.some.inj hw).symm
  have hz : w &&& (0x00000030 : W32) = 0#32 := by
    subst hw
    exact low_zero _ _ _ _ _ _ 0x30#6 (by clear hwf; revert n; decide)
  have h0 : BitVec.extractLsb' 0 4 (0#2 ++ n : BitVec 6) = n := by
    clear hw hwf hz; revert n; decide
  have ho : opOf w = 0x83#8 := hw ▸ opOf_encEN ..
  refine decode_of w _ (by rw [ho]; decide) (by rw [ho]; decide) ?_ hwf
  rw [decodeOp_83 w ho]
  unfold decode83
  subst hw
  simp only [enFn_encEN, enSa_encEN, enSb_encEN, enSd_encEN, enImm_encEN, h0]
  exact zeros_ok hz _

theorem bankWake : ∀ n, Statement (.bankWake n) := by
  intro n w hw hwf
  replace hw := (Option.some.inj hw).symm
  have hz : w &&& (0x00000030 : W32) = 0#32 := by
    subst hw
    exact low_zero _ _ _ _ _ _ 0x30#6 (by clear hwf; revert n; decide)
  have h0 : BitVec.extractLsb' 0 4 (0#2 ++ n : BitVec 6) = n := by
    clear hw hwf hz; revert n; decide
  have ho : opOf w = 0x83#8 := hw ▸ opOf_encEN ..
  refine decode_of w _ (by rw [ho]; decide) (by rw [ho]; decide) ?_ hwf
  rw [decodeOp_83 w ho]
  unfold decode83
  subst hw
  simp only [enFn_encEN, enSa_encEN, enSb_encEN, enSd_encEN, enImm_encEN, h0]
  exact zeros_ok hz _

theorem rlkQuery : ∀ sa sd h, Statement (.rlkQuery sa sd h) := by
  intro sa sd h w hw hwf
  replace hw := (Option.some.inj hw).symm
  have hz : w &&& (0x0000003E : W32) = 0#32 := by
    subst hw
    exact low_zero _ _ _ _ _ _ 0x3E#6 (by clear hwf; revert h; decide)
  have h0 : BitVec.extractLsb' 0 1 (0#5 ++ h : BitVec 6) = h := by
    clear hw hwf hz; revert h; decide
  have ho : opOf w = 0x84#8 := hw ▸ opOf_encEN ..
  refine decode_of w _ (by rw [ho]; decide) (by rw [ho]; decide) ?_ hwf
  rw [decodeOp_84 w ho]
  unfold decode84
  subst hw
  simp only [enFn_encEN, enSa_encEN, enSb_encEN, enSd_encEN, enImm_encEN, h0]
  exact zeros_ok hz _

theorem rlkDrop : ∀ sa, Statement (.rlkDrop sa) := by
  intro sa w hw hwf
  replace hw := (Option.some.inj hw).symm
  have ho : opOf w = 0x84#8 := hw ▸ opOf_encEN ..
  refine decode_of w _ (by rw [ho]; decide) (by rw [ho]; decide) ?_ hwf
  rw [decodeOp_84 w ho]
  unfold decode84
  subst hw
  simp only [enFn_encEN, enSa_encEN, enSb_encEN, enSd_encEN, enImm_encEN]
  rfl

theorem barReg : ∀ sa sb sd bn, Statement (.barReg sa sb sd bn) := by
  intro sa sb sd bn w hw hwf
  replace hw := (Option.some.inj hw).symm
  have hz : w &&& (0x00000038 : W32) = 0#32 := by
    subst hw
    exact low_zero _ _ _ _ _ _ 0x38#6 (by clear hwf; revert bn; decide)
  have h0 : BitVec.extractLsb' 0 3 (0#3 ++ bn : BitVec 6) = bn := by
    clear hw hwf hz; revert bn; decide
  have ho : opOf w = 0x90#8 := hw ▸ opOf_encEN ..
  refine decode_of w _ (by rw [ho]; decide) (by rw [ho]; decide) ?_ hwf
  rw [decodeOp_90 w ho]
  unfold decode90
  subst hw
  simp only [enFn_encEN, enSa_encEN, enSb_encEN, enSd_encEN, enImm_encEN, h0]
  exact zeros_ok hz _

theorem barArrive : ∀ sd bn, Statement (.barArrive sd bn) := by
  intro sd bn w hw hwf
  replace hw := (Option.some.inj hw).symm
  have hz : w &&& (0x00000038 : W32) = 0#32 := by
    subst hw
    exact low_zero _ _ _ _ _ _ 0x38#6 (by clear hwf; revert bn; decide)
  have h0 : BitVec.extractLsb' 0 3 (0#3 ++ bn : BitVec 6) = bn := by
    clear hw hwf hz; revert bn; decide
  have ho : opOf w = 0x90#8 := hw ▸ opOf_encEN ..
  refine decode_of w _ (by rw [ho]; decide) (by rw [ho]; decide) ?_ hwf
  rw [decodeOp_90 w ho]
  unfold decode90
  subst hw
  simp only [enFn_encEN, enSa_encEN, enSb_encEN, enSd_encEN, enImm_encEN, h0]
  exact zeros_ok hz _

theorem barWait : ∀ sa bn, Statement (.barWait sa bn) := by
  intro sa bn w hw hwf
  replace hw := (Option.some.inj hw).symm
  have hz : w &&& (0x00000038 : W32) = 0#32 := by
    subst hw
    exact low_zero _ _ _ _ _ _ 0x38#6 (by clear hwf; revert bn; decide)
  have h0 : BitVec.extractLsb' 0 3 (0#3 ++ bn : BitVec 6) = bn := by
    clear hw hwf hz; revert bn; decide
  have ho : opOf w = 0x90#8 := hw ▸ opOf_encEN ..
  refine decode_of w _ (by rw [ho]; decide) (by rw [ho]; decide) ?_ hwf
  rw [decodeOp_90 w ho]
  unfold decode90
  subst hw
  simp only [enFn_encEN, enSa_encEN, enSb_encEN, enSd_encEN, enImm_encEN, h0]
  exact zeros_ok hz _

theorem barArrw : ∀ sd bn, Statement (.barArrw sd bn) := by
  intro sd bn w hw hwf
  replace hw := (Option.some.inj hw).symm
  have hz : w &&& (0x00000038 : W32) = 0#32 := by
    subst hw
    exact low_zero _ _ _ _ _ _ 0x38#6 (by clear hwf; revert bn; decide)
  have h0 : BitVec.extractLsb' 0 3 (0#3 ++ bn : BitVec 6) = bn := by
    clear hw hwf hz; revert bn; decide
  have ho : opOf w = 0x90#8 := hw ▸ opOf_encEN ..
  refine decode_of w _ (by rw [ho]; decide) (by rw [ho]; decide) ?_ hwf
  rw [decodeOp_90 w ho]
  unfold decode90
  subst hw
  simp only [enFn_encEN, enSa_encEN, enSb_encEN, enSd_encEN, enImm_encEN, h0]
  exact zeros_ok hz _

theorem barDrop : ∀ bn, Statement (.barDrop bn) := by
  intro bn w hw hwf
  replace hw := (Option.some.inj hw).symm
  have hz : w &&& (0x00000038 : W32) = 0#32 := by
    subst hw
    exact low_zero _ _ _ _ _ _ 0x38#6 (by clear hwf; revert bn; decide)
  have h0 : BitVec.extractLsb' 0 3 (0#3 ++ bn : BitVec 6) = bn := by
    clear hw hwf hz; revert bn; decide
  have ho : opOf w = 0x90#8 := hw ▸ opOf_encEN ..
  refine decode_of w _ (by rw [ho]; decide) (by rw [ho]; decide) ?_ hwf
  rw [decodeOp_90 w ho]
  unfold decode90
  subst hw
  simp only [enFn_encEN, enSa_encEN, enSb_encEN, enSd_encEN, enImm_encEN, h0]
  exact zeros_ok hz _

theorem arBegin : ∀ sa sd, Statement (.arBegin sa sd) := by
  intro sa sd w hw hwf
  replace hw := (Option.some.inj hw).symm
  have ho : opOf w = 0x91#8 := hw ▸ opOf_encEN ..
  refine decode_of w _ (by rw [ho]; decide) (by rw [ho]; decide) ?_ hwf
  rw [decodeOp_91 w ho]
  unfold decode91
  subst hw
  simp only [enFn_encEN, enSa_encEN, enSb_encEN, enSd_encEN, enImm_encEN]
  rfl

theorem arAbort : Statement .arAbort := by
  intro w hw hwf
  replace hw := (Option.some.inj hw).symm
  have ho : opOf w = 0x91#8 := hw ▸ opOf_encEN ..
  refine decode_of w _ (by rw [ho]; decide) (by rw [ho]; decide) ?_ hwf
  rw [decodeOp_91 w ho]
  unfold decode91
  subst hw
  simp only [enFn_encEN, enSa_encEN, enSb_encEN, enSd_encEN, enImm_encEN]
  rfl

theorem arDraw : ∀ sd, Statement (.arDraw sd) := by
  intro sd w hw hwf
  replace hw := (Option.some.inj hw).symm
  have ho : opOf w = 0x91#8 := hw ▸ opOf_encEN ..
  refine decode_of w _ (by rw [ho]; decide) (by rw [ho]; decide) ?_ hwf
  rw [decodeOp_91 w ho]
  unfold decode91
  subst hw
  simp only [enFn_encEN, enSa_encEN, enSb_encEN, enSd_encEN, enImm_encEN]
  rfl

theorem arStatus : ∀ sd, Statement (.arStatus sd) := by
  intro sd w hw hwf
  replace hw := (Option.some.inj hw).symm
  have ho : opOf w = 0x91#8 := hw ▸ opOf_encEN ..
  refine decode_of w _ (by rw [ho]; decide) (by rw [ho]; decide) ?_ hwf
  rw [decodeOp_91 w ho]
  unfold decode91
  subst hw
  simp only [enFn_encEN, enSa_encEN, enSb_encEN, enSd_encEN, enImm_encEN]
  rfl

theorem pcommit : ∀ sa sd, Statement (.pcommit sa sd) := by
  intro sa sd w hw hwf
  replace hw := (Option.some.inj hw).symm
  have ho : opOf w = 0x92#8 := hw ▸ opOf_encEN ..
  refine decode_of w _ (by rw [ho]; decide) (by rw [ho]; decide) ?_ hwf
  rw [decodeOp_92 w ho]
  unfold decode92
  subst hw
  simp only [enFn_encEN, enSa_encEN, enSb_encEN, enSd_encEN, enImm_encEN]
  rfl

theorem annealCfg : ∀ sa sb sd, Statement (.annealCfg sa sb sd) := by
  intro sa sb sd w hw hwf
  replace hw := (Option.some.inj hw).symm
  have ho : opOf w = 0x93#8 := hw ▸ opOf_encEN ..
  refine decode_of w _ (by rw [ho]; decide) (by rw [ho]; decide) ?_ hwf
  rw [decodeOp_93 w ho]
  unfold decode93
  subst hw
  simp only [enFn_encEN, enSa_encEN, enSb_encEN, enSd_encEN, enImm_encEN]
  rfl

theorem annealOff : ∀ sd, Statement (.annealOff sd) := by
  intro sd w hw hwf
  replace hw := (Option.some.inj hw).symm
  have ho : opOf w = 0x93#8 := hw ▸ opOf_encEN ..
  refine decode_of w _ (by rw [ho]; decide) (by rw [ho]; decide) ?_ hwf
  rw [decodeOp_93 w ho]
  unfold decode93
  subst hw
  simp only [enFn_encEN, enSa_encEN, enSb_encEN, enSd_encEN, enImm_encEN]
  rfl

theorem annealReset : ∀ sd, Statement (.annealReset sd) := by
  intro sd w hw hwf
  replace hw := (Option.some.inj hw).symm
  have ho : opOf w = 0x93#8 := hw ▸ opOf_encEN ..
  refine decode_of w _ (by rw [ho]; decide) (by rw [ho]; decide) ?_ hwf
  rw [decodeOp_93 w ho]
  unfold decode93
  subst hw
  simp only [enFn_encEN, enSa_encEN, enSb_encEN, enSd_encEN, enImm_encEN]
  rfl

theorem cacheWb : ∀ sa sb, Statement (.cacheWb sa sb) := by
  intro sa sb w hw hwf
  replace hw := (Option.some.inj hw).symm
  have hz : w &&& (0x0000003F : W32) = 0#32 := by
    subst hw
    exact low_zero _ _ _ _ _ _ 0x3F#6 (by decide)
  have ho : opOf w = 0xA0#8 := hw ▸ opOf_encEN ..
  refine decode_of w _ (by rw [ho]; decide) (by rw [ho]; decide) ?_ hwf
  rw [decodeOp_A0 w ho]
  unfold decodeA0
  subst hw
  simp only [enFn_encEN, enSa_encEN, enSb_encEN, enSd_encEN, enImm_encEN]
  exact zeros_ok hz _

theorem cacheInv : ∀ sa sb, Statement (.cacheInv sa sb) := by
  intro sa sb w hw hwf
  replace hw := (Option.some.inj hw).symm
  have hz : w &&& (0x0000003F : W32) = 0#32 := by
    subst hw
    exact low_zero _ _ _ _ _ _ 0x3F#6 (by decide)
  have ho : opOf w = 0xA0#8 := hw ▸ opOf_encEN ..
  refine decode_of w _ (by rw [ho]; decide) (by rw [ho]; decide) ?_ hwf
  rw [decodeOp_A0 w ho]
  unfold decodeA0
  subst hw
  simp only [enFn_encEN, enSa_encEN, enSb_encEN, enSd_encEN, enImm_encEN]
  exact zeros_ok hz _

theorem cacheHarvest : Statement .cacheHarvest := by
  intro w hw hwf
  replace hw := (Option.some.inj hw).symm
  have hz : w &&& (0x0000003F : W32) = 0#32 := by
    subst hw
    exact low_zero _ _ _ _ _ _ 0x3F#6 (by decide)
  have ho : opOf w = 0xA0#8 := hw ▸ opOf_encEN ..
  refine decode_of w _ (by rw [ho]; decide) (by rw [ho]; decide) ?_ hwf
  rw [decodeOp_A0 w ho]
  unfold decodeA0
  subst hw
  simp only [enFn_encEN, enSa_encEN, enSb_encEN, enSd_encEN, enImm_encEN]
  exact zeros_ok hz _

theorem cacheRetain : ∀ sa sb code, Statement (.cacheRetain sa sb code) := by
  intro sa sb code w hw hwf
  replace hw := (Option.some.inj hw).symm
  have hz : w &&& (0x0000003C : W32) = 0#32 := by
    subst hw
    exact low_zero _ _ _ _ _ _ 0x3C#6 (by clear hwf; revert code; decide)
  have h0 : BitVec.extractLsb' 0 2 (0#4 ++ code : BitVec 6) = code := by
    clear hw hwf hz; revert code; decide
  have ho : opOf w = 0xA0#8 := hw ▸ opOf_encEN ..
  refine decode_of w _ (by rw [ho]; decide) (by rw [ho]; decide) ?_ hwf
  rw [decodeOp_A0 w ho]
  unfold decodeA0
  subst hw
  simp only [enFn_encEN, enSa_encEN, enSb_encEN, enSd_encEN, enImm_encEN, h0]
  exact zeros_ok hz _

theorem cacheTlbi : ∀ sa sb kind, Statement (.cacheTlbi sa sb kind) := by
  intro sa sb kind w hw hwf
  replace hw := (Option.some.inj hw).symm
  have hz : w &&& (0x0000003C : W32) = 0#32 := by
    subst hw
    exact low_zero _ _ _ _ _ _ 0x3C#6 (by clear hwf; revert kind; decide)
  have h0 : BitVec.extractLsb' 0 2 (0#4 ++ kind : BitVec 6) = kind := by
    clear hw hwf hz; revert kind; decide
  have ho : opOf w = 0xA0#8 := hw ▸ opOf_encEN ..
  refine decode_of w _ (by rw [ho]; decide) (by rw [ho]; decide) ?_ hwf
  rw [decodeOp_A0 w ho]
  unfold decodeA0
  subst hw
  simp only [enFn_encEN, enSa_encEN, enSb_encEN, enSd_encEN, enImm_encEN, h0]
  exact zeros_ok hz _

theorem lrecPatch : ∀ sa sb sd n, Statement (.lrecPatch sa sb sd n) := by
  intro sa sb sd n w hw hwf
  replace hw := (Option.some.inj hw).symm
  have hz : w &&& (0x00000020 : W32) = 0#32 := by
    subst hw
    exact low_zero _ _ _ _ _ _ 0x20#6 (by clear hwf; revert n; decide)
  have h0 : BitVec.extractLsb' 0 5 (0#1 ++ n : BitVec 6) = n := by
    clear hw hwf hz; revert n; decide
  have ho : opOf w = 0xA1#8 := hw ▸ opOf_encEN ..
  refine decode_of w _ (by rw [ho]; decide) (by rw [ho]; decide) ?_ hwf
  rw [decodeOp_A1 w ho]
  unfold decodeA1
  subst hw
  simp only [enFn_encEN, enSa_encEN, enSb_encEN, enSd_encEN, enImm_encEN, h0]
  exact zeros_ok hz _

theorem lrecArm : ∀ sa sd, Statement (.lrecArm sa sd) := by
  intro sa sd w hw hwf
  replace hw := (Option.some.inj hw).symm
  have ho : opOf w = 0xA1#8 := hw ▸ opOf_encEN ..
  refine decode_of w _ (by rw [ho]; decide) (by rw [ho]; decide) ?_ hwf
  rw [decodeOp_A1 w ho]
  unfold decodeA1
  subst hw
  simp only [enFn_encEN, enSa_encEN, enSb_encEN, enSd_encEN, enImm_encEN]
  rfl

theorem lrecQuery : ∀ sa sd n, Statement (.lrecQuery sa sd n) := by
  intro sa sd n w hw hwf
  replace hw := (Option.some.inj hw).symm
  have hz : w &&& (0x00000020 : W32) = 0#32 := by
    subst hw
    exact low_zero _ _ _ _ _ _ 0x20#6 (by clear hwf; revert n; decide)
  have h0 : BitVec.extractLsb' 0 5 (0#1 ++ n : BitVec 6) = n := by
    clear hw hwf hz; revert n; decide
  have ho : opOf w = 0xA1#8 := hw ▸ opOf_encEN ..
  refine decode_of w _ (by rw [ho]; decide) (by rw [ho]; decide) ?_ hwf
  rw [decodeOp_A1 w ho]
  unfold decodeA1
  subst hw
  simp only [enFn_encEN, enSa_encEN, enSb_encEN, enSd_encEN, enImm_encEN, h0]
  exact zeros_ok hz _

theorem lrecCancel : ∀ sa sd, Statement (.lrecCancel sa sd) := by
  intro sa sd w hw hwf
  replace hw := (Option.some.inj hw).symm
  have ho : opOf w = 0xA1#8 := hw ▸ opOf_encEN ..
  refine decode_of w _ (by rw [ho]; decide) (by rw [ho]; decide) ?_ hwf
  rw [decodeOp_A1 w ho]
  unfold decodeA1
  subst hw
  simp only [enFn_encEN, enSa_encEN, enSb_encEN, enSd_encEN, enImm_encEN]
  rfl

theorem lrecWait : ∀ sa sd, Statement (.lrecWait sa sd) := by
  intro sa sd w hw hwf
  replace hw := (Option.some.inj hw).symm
  have ho : opOf w = 0xA1#8 := hw ▸ opOf_encEN ..
  refine decode_of w _ (by rw [ho]; decide) (by rw [ho]; decide) ?_ hwf
  rw [decodeOp_A1 w ho]
  unfold decodeA1
  subst hw
  simp only [enFn_encEN, enSa_encEN, enSb_encEN, enSd_encEN, enImm_encEN]
  rfl

theorem walkNext : ∀ sd, Statement (.walkNext sd) := by
  intro sd w hw hwf
  replace hw := (Option.some.inj hw).symm
  have ho : opOf w = 0xA2#8 := hw ▸ opOf_encEN ..
  refine decode_of w _ (by rw [ho]; decide) (by rw [ho]; decide) ?_ hwf
  rw [decodeOp_A2 w ho]
  unfold decodeA2
  subst hw
  simp only [enFn_encEN, enSa_encEN, enSb_encEN, enSd_encEN, enImm_encEN]
  rfl

theorem walkInfo : ∀ sd sel, Statement (.walkInfo sd sel) := by
  intro sd sel w hw hwf
  replace hw := (Option.some.inj hw).symm
  have ho : opOf w = 0xA2#8 := hw ▸ opOf_encEN ..
  refine decode_of w _ (by rw [ho]; decide) (by rw [ho]; decide) ?_ hwf
  rw [decodeOp_A2 w ho]
  unfold decodeA2
  subst hw
  simp only [enFn_encEN, enSa_encEN, enSb_encEN, enSd_encEN, enImm_encEN]
  rfl

theorem umeCfg : ∀ sa sd ctx, Statement (.umeCfg sa sd ctx) := by
  intro sa sd ctx w hw hwf
  replace hw := (Option.some.inj hw).symm
  have hz : w &&& (0x00000030 : W32) = 0#32 := by
    subst hw
    exact low_zero _ _ _ _ _ _ 0x30#6 (by clear hwf; revert ctx; decide)
  have h0 : BitVec.extractLsb' 0 4 (0#2 ++ ctx : BitVec 6) = ctx := by
    clear hw hwf hz; revert ctx; decide
  have ho : opOf w = 0xA3#8 := hw ▸ opOf_encEN ..
  refine decode_of w _ (by rw [ho]; decide) (by rw [ho]; decide) ?_ hwf
  rw [decodeOp_A3 w ho]
  unfold decodeA3
  subst hw
  simp only [enFn_encEN, enSa_encEN, enSb_encEN, enSd_encEN, enImm_encEN, h0]
  exact zeros_ok hz _

theorem umeRound : ∀ sa sd ctx, Statement (.umeRound sa sd ctx) := by
  intro sa sd ctx w hw hwf
  replace hw := (Option.some.inj hw).symm
  have hz : w &&& (0x00000030 : W32) = 0#32 := by
    subst hw
    exact low_zero _ _ _ _ _ _ 0x30#6 (by clear hwf; revert ctx; decide)
  have h0 : BitVec.extractLsb' 0 4 (0#2 ++ ctx : BitVec 6) = ctx := by
    clear hw hwf hz; revert ctx; decide
  have ho : opOf w = 0xA3#8 := hw ▸ opOf_encEN ..
  refine decode_of w _ (by rw [ho]; decide) (by rw [ho]; decide) ?_ hwf
  rw [decodeOp_A3 w ho]
  unfold decodeA3
  subst hw
  simp only [enFn_encEN, enSa_encEN, enSb_encEN, enSd_encEN, enImm_encEN, h0]
  exact zeros_ok hz _

theorem umeStat : ∀ sd sel ctx, Statement (.umeStat sd sel ctx) := by
  intro sd sel ctx w hw hwf
  replace hw := (Option.some.inj hw).symm
  have h0 : BitVec.extractLsb' 4 2 (sel ++ ctx : BitVec 6) = sel := by
    clear hw hwf; revert sel ctx; decide
  have h1 : BitVec.extractLsb' 0 4 (sel ++ ctx : BitVec 6) = ctx := by
    clear hw hwf h0; revert sel ctx; decide
  have ho : opOf w = 0xA3#8 := hw ▸ opOf_encEN ..
  refine decode_of w _ (by rw [ho]; decide) (by rw [ho]; decide) ?_ hwf
  rw [decodeOp_A3 w ho]
  unfold decodeA3
  subst hw
  simp only [enFn_encEN, enSa_encEN, enSb_encEN, enSd_encEN, enImm_encEN, h0, h1]
  rfl

theorem umeDirty : ∀ sd ctx, Statement (.umeDirty sd ctx) := by
  intro sd ctx w hw hwf
  replace hw := (Option.some.inj hw).symm
  have hz : w &&& (0x00000030 : W32) = 0#32 := by
    subst hw
    exact low_zero _ _ _ _ _ _ 0x30#6 (by clear hwf; revert ctx; decide)
  have h0 : BitVec.extractLsb' 0 4 (0#2 ++ ctx : BitVec 6) = ctx := by
    clear hw hwf hz; revert ctx; decide
  have ho : opOf w = 0xA3#8 := hw ▸ opOf_encEN ..
  refine decode_of w _ (by rw [ho]; decide) (by rw [ho]; decide) ?_ hwf
  rw [decodeOp_A3 w ho]
  unfold decodeA3
  subst hw
  simp only [enFn_encEN, enSa_encEN, enSb_encEN, enSd_encEN, enImm_encEN, h0]
  exact zeros_ok hz _

theorem ringPeek : ∀ sa sd wi, Statement (.ringPeek sa sd wi) := by
  intro sa sd wi w hw hwf
  replace hw := (Option.some.inj hw).symm
  have hz : w &&& (0x00000030 : W32) = 0#32 := by
    subst hw
    exact low_zero _ _ _ _ _ _ 0x30#6 (by clear hwf; revert wi; decide)
  have h0 : BitVec.extractLsb' 0 4 (0#2 ++ wi : BitVec 6) = wi := by
    clear hw hwf hz; revert wi; decide
  have ho : opOf w = 0xB0#8 := hw ▸ opOf_encEN ..
  refine decode_of w _ (by rw [ho]; decide) (by rw [ho]; decide) ?_ hwf
  rw [decodeOp_B0 w ho]
  unfold decodeB0
  subst hw
  simp only [enFn_encEN, enSa_encEN, enSb_encEN, enSd_encEN, enImm_encEN, h0]
  exact zeros_ok hz _

theorem ringBoard : ∀ sa sd hn, Statement (.ringBoard sa sd hn) := by
  intro sa sd hn w hw hwf
  replace hw := (Option.some.inj hw).symm
  have hz : w &&& (0x0000003C : W32) = 0#32 := by
    subst hw
    exact low_zero _ _ _ _ _ _ 0x3C#6 (by clear hwf; revert hn; decide)
  have h0 : BitVec.extractLsb' 0 2 (0#4 ++ hn : BitVec 6) = hn := by
    clear hw hwf hz; revert hn; decide
  have ho : opOf w = 0xB0#8 := hw ▸ opOf_encEN ..
  refine decode_of w _ (by rw [ho]; decide) (by rw [ho]; decide) ?_ hwf
  rw [decodeOp_B0 w ho]
  unfold decodeB0
  subst hw
  simp only [enFn_encEN, enSa_encEN, enSb_encEN, enSd_encEN, enImm_encEN, h0]
  exact zeros_ok hz _

theorem ringHget : ∀ sd wi hn, Statement (.ringHget sd wi hn) := by
  intro sd wi hn w hw hwf
  replace hw := (Option.some.inj hw).symm
  have hz : w &&& (0x00000020 : W32) = 0#32 := by
    subst hw
    exact low_zero _ _ _ _ _ _ 0x20#6 (by clear hwf; revert wi hn; decide)
  have h0 : BitVec.extractLsb' 2 3 (0#1 ++ wi ++ hn : BitVec 6) = wi := by
    clear hw hwf hz; revert wi hn; decide
  have h1 : BitVec.extractLsb' 0 2 (0#1 ++ wi ++ hn : BitVec 6) = hn := by
    clear hw hwf hz h0; revert wi hn; decide
  have ho : opOf w = 0xB0#8 := hw ▸ opOf_encEN ..
  refine decode_of w _ (by rw [ho]; decide) (by rw [ho]; decide) ?_ hwf
  rw [decodeOp_B0 w ho]
  unfold decodeB0
  subst hw
  simp only [enFn_encEN, enSa_encEN, enSb_encEN, enSd_encEN, enImm_encEN, h0, h1]
  exact zeros_ok hz _

theorem ringHset : ∀ sa wi hn, Statement (.ringHset sa wi hn) := by
  intro sa wi hn w hw hwf
  replace hw := (Option.some.inj hw).symm
  have hz : w &&& (0x00000020 : W32) = 0#32 := by
    subst hw
    exact low_zero _ _ _ _ _ _ 0x20#6 (by clear hwf; revert wi hn; decide)
  have h0 : BitVec.extractLsb' 2 3 (0#1 ++ wi ++ hn : BitVec 6) = wi := by
    clear hw hwf hz; revert wi hn; decide
  have h1 : BitVec.extractLsb' 0 2 (0#1 ++ wi ++ hn : BitVec 6) = hn := by
    clear hw hwf hz h0; revert wi hn; decide
  have ho : opOf w = 0xB0#8 := hw ▸ opOf_encEN ..
  refine decode_of w _ (by rw [ho]; decide) (by rw [ho]; decide) ?_ hwf
  rw [decodeOp_B0 w ho]
  unfold decodeB0
  subst hw
  simp only [enFn_encEN, enSa_encEN, enSb_encEN, enSd_encEN, enImm_encEN, h0, h1]
  exact zeros_ok hz _

theorem ringAlight : ∀ hn, Statement (.ringAlight hn) := by
  intro hn w hw hwf
  replace hw := (Option.some.inj hw).symm
  have hz : w &&& (0x0000003C : W32) = 0#32 := by
    subst hw
    exact low_zero _ _ _ _ _ _ 0x3C#6 (by clear hwf; revert hn; decide)
  have h0 : BitVec.extractLsb' 0 2 (0#4 ++ hn : BitVec 6) = hn := by
    clear hw hwf hz; revert hn; decide
  have ho : opOf w = 0xB0#8 := hw ▸ opOf_encEN ..
  refine decode_of w _ (by rw [ho]; decide) (by rw [ho]; decide) ?_ hwf
  rw [decodeOp_B0 w ho]
  unfold decodeB0
  subst hw
  simp only [enFn_encEN, enSa_encEN, enSb_encEN, enSd_encEN, enImm_encEN, h0]
  exact zeros_ok hz _

theorem ringRel : ∀ hn, Statement (.ringRel hn) := by
  intro hn w hw hwf
  replace hw := (Option.some.inj hw).symm
  have hz : w &&& (0x0000003C : W32) = 0#32 := by
    subst hw
    exact low_zero _ _ _ _ _ _ 0x3C#6 (by clear hwf; revert hn; decide)
  have h0 : BitVec.extractLsb' 0 2 (0#4 ++ hn : BitVec 6) = hn := by
    clear hw hwf hz; revert hn; decide
  have ho : opOf w = 0xB0#8 := hw ▸ opOf_encEN ..
  refine decode_of w _ (by rw [ho]; decide) (by rw [ho]; decide) ?_ hwf
  rw [decodeOp_B0 w ho]
  unfold decodeB0
  subst hw
  simp only [enFn_encEN, enSa_encEN, enSb_encEN, enSd_encEN, enImm_encEN, h0]
  exact zeros_ok hz _

theorem ringRadd : ∀ sa sb wi, Statement (.ringRadd sa sb wi) := by
  intro sa sb wi w hw hwf
  replace hw := (Option.some.inj hw).symm
  have hz : w &&& (0x00000038 : W32) = 0#32 := by
    subst hw
    exact low_zero _ _ _ _ _ _ 0x38#6 (by clear hwf; revert wi; decide)
  have h0 : BitVec.extractLsb' 0 3 (0#3 ++ wi : BitVec 6) = wi := by
    clear hw hwf hz; revert wi; decide
  have ho : opOf w = 0xB0#8 := hw ▸ opOf_encEN ..
  refine decode_of w _ (by rw [ho]; decide) (by rw [ho]; decide) ?_ hwf
  rw [decodeOp_B0 w ho]
  unfold decodeB0
  subst hw
  simp only [enFn_encEN, enSa_encEN, enSb_encEN, enSd_encEN, enImm_encEN, h0]
  exact zeros_ok hz _

theorem ringRmax : ∀ sa sb sgn wi, Statement (.ringRmax sa sb sgn wi) := by
  intro sa sb sgn wi w hw hwf
  replace hw := (Option.some.inj hw).symm
  have hz : w &&& (0x00000030 : W32) = 0#32 := by
    subst hw
    exact low_zero _ _ _ _ _ _ 0x30#6 (by clear hwf; revert sgn wi; decide)
  have h0 : BitVec.extractLsb' 3 1 (0#2 ++ sgn ++ wi : BitVec 6) = sgn := by
    clear hw hwf hz; revert sgn wi; decide
  have h1 : BitVec.extractLsb' 0 3 (0#2 ++ sgn ++ wi : BitVec 6) = wi := by
    clear hw hwf hz h0; revert sgn wi; decide
  have ho : opOf w = 0xB0#8 := hw ▸ opOf_encEN ..
  refine decode_of w _ (by rw [ho]; decide) (by rw [ho]; decide) ?_ hwf
  rw [decodeOp_B0 w ho]
  unfold decodeB0
  subst hw
  simp only [enFn_encEN, enSa_encEN, enSb_encEN, enSd_encEN, enImm_encEN, h0, h1]
  exact zeros_ok hz _

theorem msgSend : ∀ sa sb sd prio, Statement (.msgSend sa sb sd prio) := by
  intro sa sb sd prio w hw hwf
  replace hw := (Option.some.inj hw).symm
  have hz : w &&& (0x0000003E : W32) = 0#32 := by
    subst hw
    exact low_zero _ _ _ _ _ _ 0x3E#6 (by clear hwf; revert prio; decide)
  have h0 : BitVec.extractLsb' 0 1 (0#5 ++ prio : BitVec 6) = prio := by
    clear hw hwf hz; revert prio; decide
  have ho : opOf w = 0xB1#8 := hw ▸ opOf_encEN ..
  refine decode_of w _ (by rw [ho]; decide) (by rw [ho]; decide) ?_ hwf
  rw [decodeOp_B1 w ho]
  unfold decodeB1
  subst hw
  simp only [enFn_encEN, enSa_encEN, enSb_encEN, enSd_encEN, enImm_encEN, h0]
  exact zeros_ok hz _

theorem msgRecv : ∀ sa sd, Statement (.msgRecv sa sd) := by
  intro sa sd w hw hwf
  replace hw := (Option.some.inj hw).symm
  have hz : w &&& (0x0000003F : W32) = 0#32 := by
    subst hw
    exact low_zero _ _ _ _ _ _ 0x3F#6 (by decide)
  have ho : opOf w = 0xB1#8 := hw ▸ opOf_encEN ..
  refine decode_of w _ (by rw [ho]; decide) (by rw [ho]; decide) ?_ hwf
  rw [decodeOp_B1 w ho]
  unfold decodeB1
  subst hw
  simp only [enFn_encEN, enSa_encEN, enSb_encEN, enSd_encEN, enImm_encEN]
  exact zeros_ok hz _

theorem msgProbe : ∀ sa sd, Statement (.msgProbe sa sd) := by
  intro sa sd w hw hwf
  replace hw := (Option.some.inj hw).symm
  have hz : w &&& (0x0000003F : W32) = 0#32 := by
    subst hw
    exact low_zero _ _ _ _ _ _ 0x3F#6 (by decide)
  have ho : opOf w = 0xB1#8 := hw ▸ opOf_encEN ..
  refine decode_of w _ (by rw [ho]; decide) (by rw [ho]; decide) ?_ hwf
  rw [decodeOp_B1 w ho]
  unfold decodeB1
  subst hw
  simp only [enFn_encEN, enSa_encEN, enSb_encEN, enSd_encEN, enImm_encEN]
  exact zeros_ok hz _

theorem hintImmx : ∀ p, Statement (.hintImmx p) := by
  intro p w hw hwf
  replace hw := (Option.some.inj hw).symm
  have ho : opOf w = 0xF0#8 := hw ▸ opOf_encHI ..
  refine decode_of w _ (by rw [ho]; decide) (by rw [ho]; decide) ?_ hwf
  rw [decodeOp_F0 w ho]
  unfold decodeF0
  subst hw
  simp only [hiP_encHI]

theorem hintScl : ∀ v, Statement (.hintScl v) := by
  intro v w hw hwf
  replace hw := (Option.some.inj hw).symm
  have h0 : BitVec.extractLsb' 0 5 (0#19 ++ v : BitVec 24) = v :=
    (BitVec.extractLsb'_append_eq_of_add_le (by decide)).trans BitVec.extractLsb'_eq_self
  have ho : opOf w = 0xF1#8 := hw ▸ opOf_encHI ..
  refine decode_of w _ (by rw [ho]; decide) (by rw [ho]; decide) ?_ hwf
  rw [decodeOp_F1 w ho]
  unfold decodeF1
  subst hw
  simp only [hiP_encHI, h0]

theorem hintLat : ∀ lat, Statement (.hintLat lat) := by
  intro lat w hw hwf
  replace hw := (Option.some.inj hw).symm
  have h0 : BitVec.extractLsb' 0 3 (0#21 ++ lat : BitVec 24) = lat :=
    (BitVec.extractLsb'_append_eq_of_add_le (by decide)).trans BitVec.extractLsb'_eq_self
  have ho : opOf w = 0xF2#8 := hw ▸ opOf_encHI ..
  refine decode_of w _ (by rw [ho]; decide) (by rw [ho]; decide) ?_ hwf
  rw [decodeOp_F2 w ho]
  unfold decodeF2
  subst hw
  simp only [hiP_encHI, h0]

theorem hintRh : ∀ code, Statement (.hintRh code) := by
  intro code w hw hwf
  replace hw := (Option.some.inj hw).symm
  have h0 : BitVec.extractLsb' 0 2 (0#22 ++ code : BitVec 24) = code :=
    (BitVec.extractLsb'_append_eq_of_add_le (by decide)).trans BitVec.extractLsb'_eq_self
  have ho : opOf w = 0xF3#8 := hw ▸ opOf_encHI ..
  refine decode_of w _ (by rw [ho]; decide) (by rw [ho]; decide) ?_ hwf
  rw [decodeOp_F3 w ho]
  unfold decodeF3
  subst hw
  simp only [hiP_encHI, h0]

theorem hintSrk : ∀ k, Statement (.hintSrk k) := by
  intro k w hw hwf
  replace hw := (Option.some.inj hw).symm
  have ho : opOf w = 0xF4#8 := hw ▸ opOf_encHI ..
  refine decode_of w _ (by rw [ho]; decide) (by rw [ho]; decide) ?_ hwf
  rw [decodeOp_F4 w ho]
  unfold decodeF4
  subst hw
  simp only [hiP_encHI]

theorem hintNop : Statement .hintNop := by
  intro w hw hwf
  replace hw := (Option.some.inj hw).symm
  have ho : opOf w = 0xF5#8 := hw ▸ opOf_encHI ..
  refine decode_of w _ (by rw [ho]; decide) (by rw [ho]; decide) ?_ hwf
  rw [decodeOp_F5 w ho]
  unfold decodeF5
  subst hw
  simp only [hiP_encHI]

theorem hintUnnamed : ∀ op p, Statement (.hintUnnamed op p) := by
  intro op p w hw hwf
  cases hw
  have h : 0xF6 ≤ op.toNat ∧ op.toNat ≤ 0xFE := by
    have h : (decide (0xF6 ≤ op.toNat) && decide (op.toNat ≤ 0xFE)) = true := hwf
    simpa using h
  refine decode_of _ _ (by rw [opOf_encHI]; rintro rfl; exact absurd h (by decide))
    (by rw [opOf_encHI]; rintro rfl; exact absurd h (by decide)) ?_ hwf
  exact decodeOp_hint _ _ h

theorem illegalWordZeros : Statement .illegalWordZeros := by
  intro w hw hwf
  cases hw
  rfl

theorem illegalWordOnes : Statement .illegalWordOnes := by
  intro w hw hwf
  cases hw
  rfl

theorem reservedEncoding : ∀ w, Statement (.reservedEncoding w) := by
  intro w
  exact ⟨rfl, fun r h => by simp [decodeIssue, h]⟩

end Sys2Proof.Laws.Encode
end

