-- ==== Sys2Proof/Tests/Slice0.lean ====
section
/-! SUPPORT. The model's own tests, each on one step or one word, and for every statement a state that meets its hypotheses. -/

set_option Elab.async false

namespace Sys2Proof.Tests

open Sys2Proof.Machine Sys2Proof.Claims

/-! ## What the statements assume can be met

Each theorem names a concrete state and operands that meet a statement's hypotheses together. -/

/-- A thread in slot 0 of core 0, every register full. -/
def one : Thread := { bslot := some 0, run := .slot 0 }
/-- It holds three numbers in registers 1, 2 and 3. -/
def holding (a b d : W64) : Thread := ((one.setX 1 a).setX 2 b).setX 3 d
/-- A core whose scratchpad is open to ASID 0. -/
def openCore : Core := { m := { lpu := [(0, 0x0100_00A0_0000_0000)] } }
/-- The machine with that thread alone. -/
def solo (th : Thread) : State := { threads := [(0, th)], cores := [(0, openCore)] }

theorem alone_solo (th : Thread) (h : th.gang = none) (hd : th.mo.deferred = []) : (solo th).Alone th := ⟨rfl, .inr h, hd⟩
theorem plain_solo (th : Thread) (h : th.gang = none) (hd : th.mo.deferred = []) (h1 : th.det = false)
    (h2 : th.chunk.open_ = false) : (solo th).Plain th := ⟨alone_solo th h hd, h1, h2⟩

theorem witness_RoundTrip :
    encode (.aluAdd ⟨1, 0b10010, 3, 4, 1, 1⟩) = some 0x1001_90D3 ∧ wellFormed (.aluAdd ⟨1, 0b10010, 3, 4, 1, 1⟩) = true ∧
    encode .taskYield = some 0x0410_0000 ∧ wellFormed .taskYield = true := by decide +kernel

theorem witness_IntegerAndBitFieldFunctions :
    let th := holding 7 0x0802 9
    (solo th).Alone th ∧ th.guardOk 0 0 = true ∧ th.Ready [1, 2] [3] ∧ th.Ready [1] [3] :=
  ⟨alone_solo _ rfl rfl, rfl, ⟨by decide, by decide⟩, ⟨by decide, by decide⟩⟩

theorem witness_ImmediateFunctions :
    let th := (holding 7 2 9).modC fun c => { c with hint := 0x0410_0000_0012_3456 }
    (solo th).Alone th ∧ th.Ready [1] [3] ∧ th.Ready [] [3] :=
  ⟨alone_solo _ rfl rfl, ⟨by decide, by decide⟩, ⟨by decide, by decide⟩⟩

theorem witness_MovesAndPredicates :
    let th := holding 0xFFFF_FFFF_8000_0080 2 9
    (solo th).Alone th ∧ th.guardOk 0 0 = true ∧ th.Ready [1] [3] ∧ th.Ready [] [3] ∧ th.Ready [1] [] ∧ th.Ready [1, 2] [] :=
  ⟨alone_solo _ rfl rfl, rfl, ⟨by decide, by decide⟩, ⟨by decide, by decide⟩, ⟨by decide, by decide⟩, ⟨by decide, by decide⟩⟩

/-- A guard on `p1`, which is clear, with empty operands. -/
theorem witness_GuardedOff :
    guardOf (.aluAdd ⟨3, 1, 2, 1, 0, 0⟩) = some (1, 0) ∧ (solo one).Alone one ∧ (one.p 1 ^^ (0 : BitVec 1) == 1) = false ∧
    guardOf (.bra ⟨0, 1, 5⟩) = some (0, 1) ∧ (one.p 0 ^^ (1 : BitVec 1) == 1) = false ∧
    decode 0x1001_90D3 = .ok (.aluAdd ⟨1, 0b10010, 3, 4, 1, 1⟩) :=
  ⟨rfl, alone_solo _ rfl rfl, rfl, rfl, rfl, by decide +kernel⟩

/-- Registers 1 and 3 are empty; the second source is strict in the first case, none is in the second. -/
theorem witness_EmptyOperands :
    let th := (holding 7 2 9).empty 1 |>.empty 3
    (solo th).Plain th ∧
    operandsOf (.aluAdd ⟨3, 2, 0b10001, 0, 0, 1⟩) = some ([2, 0b10001], [3]) ∧ firstStrict th [2, 0b10001] = some 1 ∧
    operandsOf (.aluAdd ⟨3, 2, 2, 0, 0, 1⟩) = some ([2, 2], [3]) ∧ firstStrict th [2, 2] = none ∧
    ((([2, 2] : List (BitVec 5)).map fun (f : BitVec 5) => f.extractLsb' 0 4) ++ [3]).find? (fun k => !th.full k) = some 3 ∧
    guardOf (.aluAdd ⟨3, 2, 2, 0, 0, 1⟩) = some (0, 0) ∧ (th.p 0 ^^ (0 : BitVec 1) == 1) = true :=
  ⟨plain_solo _ rfl rfl rfl rfl, rfl, by decide, rfl, by decide, by decide, rfl, rfl⟩

/-- 1.5, 2.0 and -0.0 in FP64, where `W` is 1. -/
theorem witness_FloatsRoundOnce :
    let th := holding 0x3FF8_0000_0000_0000 0x4000_0000_0000_0000 0x8000_0000_0000_0000
    (solo th).Plain th ∧ th.guardOk 0 0 = true ∧ th.Ready [1, 2] [3] ∧ th.Ready [1] [3] ∧
    isFinite (ebOf 1) (mbOf 1) (operand 1 (th.src 1)) ∧ isFinite (ebOf 1) (mbOf 1) (operand 1 (th.src 2)) ∧
    isFinite (ebOf 1) (mbOf 1) (operand 1 (th.x 3)) ∧ ¬ isZero (ebOf 1) (mbOf 1) (operand 1 (th.src 2)) ∧
    signAt (ebOf 1) (mbOf 1) (operand 1 (th.src 1)) = false := by
  refine ⟨plain_solo _ rfl rfl rfl rfl, rfl, ⟨by decide, by decide⟩, ⟨by decide, by decide⟩, ?_, ?_, ?_, ?_, ?_⟩ <;>
  first | (show _ ≠ _; decide +kernel) | decide +kernel

/-- A number, infinities of both signs, a quiet and a signalling NaN in FP64. -/
theorem witness_FloatSpecials :
    let th := holding 0x7FF0_0000_0000_0000 0x7FF8_0000_0000_0000 0x7FF0_0000_0000_0001
    (solo th).Plain th ∧ th.guardOk 0 0 = true ∧ th.Ready [1, 2] [3] ∧ th.Ready [1] [3] ∧ th.Ready [1, 2] [] ∧
    isInf 11 52 (operand 1 (th.src 1)) ∧ (isNaN 11 52 (operand 1 (th.src 2)) ∧ ¬ isSignalling 11 52 (operand 1 (th.src 2))) ∧
    isSignalling 11 52 (operand 1 (th.x 3)) ∧ isNaN 11 52 (operand 1 (th.x 3)) ∧
    isInf 11 52 (operand 1 0xFFF0_0000_0000_0000) ∧ signAt 11 52 (operand 1 0xFFF0_0000_0000_0000) = true ∧
    isZero 11 52 (operand 1 0x8000_0000_0000_0000) := by
  refine ⟨plain_solo _ rfl rfl rfl rfl, rfl, ⟨by decide, by decide⟩, ⟨by decide, by decide⟩, ⟨by decide, by decide⟩, ?_, ?_, ?_, ?_, ?_, ?_, ?_⟩ <;>
  (try simp only [isInf, isNaN, isSignalling, isZero]) <;> decide +kernel

/-- Compares: lt and eq as the order of values gives them for two infinities. -/
theorem witness_FloatCompares :
    let x := operand 1 0xFFF0_0000_0000_0000
    let y := operand 1 0x7FF0_0000_0000_0000
    ¬ (isNaN 11 52 x ∨ isNaN 11 52 y) ∧
    (true = true ↔ (isFinite 11 52 x ∧ isFinite 11 52 y ∧ value 11 52 x < value 11 52 y) ∨
      (isInf 11 52 x ∧ signAt 11 52 x = true ∧ ¬ (isInf 11 52 y ∧ signAt 11 52 y = true)) ∨
      (isInf 11 52 y ∧ signAt 11 52 y = false ∧ ¬ (isInf 11 52 x ∧ signAt 11 52 x = false))) ∧
    (false = true ↔ (isFinite 11 52 x ∧ isFinite 11 52 y ∧ value 11 52 x = value 11 52 y) ∨ (isInf 11 52 x ∧ x = y)) := by
  have h1 : ¬ isFinite 11 52 (operand 1 0xFFF0_0000_0000_0000) := by simp only [isFinite]; decide +kernel
  refine ⟨by simp only [isNaN]; decide +kernel, ?_, ?_⟩
  · refine ⟨fun _ => .inr (.inl ?_), fun _ => rfl⟩
    simp only [isInf]; decide +kernel
  · refine ⟨fun h => absurd h (by decide), fun h => ?_⟩
    rcases h with ⟨h, -⟩ | ⟨-, h⟩
    · exact absurd h h1
    · exact absurd h (by decide +kernel)

/-- The same states serve the conversions; in FP64 `0.0` is a number that rounds to the integer 0. -/
theorem witness_ConversionsRoundOnce :
    let th := holding 0 0 0
    (solo th).Plain th ∧ th.guardOk 0 0 = true ∧ th.Ready [1] [3] ∧ th.rm ≠ 5 ∧
    (∀ e ∈ conversions, ∀ w, e.2.1 w (th.src 1)) ∧ RoundedInt th.rm.toNat (value 11 52 (operand 1 (th.src 1))) 0 := by
  refine ⟨plain_solo _ rfl rfl rfl rfl, rfl, ⟨by decide, by decide⟩, by decide, ?_, ?_⟩
  · intro e he w
    simp only [conversions, List.mem_cons, List.not_mem_nil, or_false] at he
    rcases he with rfl | rfl | rfl | rfl | rfl | rfl | rfl <;> first | trivial | (revert w; simp only [isFinite]; decide +kernel)
  · have h : value 11 52 (operand 1 ((holding 0 0 0).src 1)) = 0 := by
      have : operand 1 ((holding 0 0 0).src 1) = 0 := by decide +kernel
      rw [this]
      simp [value]
    rw [h]
    constructor <;> norm_num

theorem witness_StochasticConversions :
    let th := ({ holding 0 0 0 with c := { (holding 0 0 0).c with status := 5 } } : Thread)
    (solo th).Plain th ∧ th.rm = 5 ∧ th.Ready [1] [3] ∧ |(th.src 1).toInt| ≤ (0 : Int) :=
  ⟨plain_solo _ rfl rfl rfl rfl, by decide, ⟨by decide, by decide⟩, by decide⟩

/-- A register that holds a link value of image 5, and one of image 0xFFFF. -/
theorem witness_Branches :
    let th := holding 0x0000_0005_0000_0100 0x0000_FFFF_0000_0000 9
    (solo th).Plain th ∧ (th.p 0 ^^ (0 : BitVec 1) == 1) = true ∧ th.full 14 = true ∧ th.Ready [1] [] ∧ th.full 3 = true ∧
    (th.src 1).extractLsb' 32 16 ≠ 0xFFFF ∧ (th.src 2).extractLsb' 32 16 = 0xFFFF :=
  ⟨plain_solo _ rfl rfl rfl rfl, rfl, rfl, ⟨by decide, by decide⟩, rfl, by decide, by decide⟩

/-- A thread with a handler, outside it; `p0` is set and `p1` clear. The second is in its handler. -/
def handled : Thread := { one with c := { one.c with evec := 0x8000_0005_0000_0200 } }
def handling : Thread := { handled with c := { handled.c with status := 0x40000, epc := 0x0007_0000_0030 } }
theorem witness_TrapsAndReturns :
    (solo handled).Plain handled ∧ handled.region = none ∧ handled.isParked = false ∧ handled.rg = false ∧
    handled.p 0 = true ∧ handled.p 1 = false ∧ handled.ih = false ∧ (solo handling).Plain handling ∧ handling.ih = true ∧
    (solo one).Plain one ∧ one.c.evec.getLsbD 63 = false :=
  ⟨plain_solo _ rfl rfl rfl rfl, rfl, rfl, rfl, rfl, rfl, rfl, plain_solo _ rfl rfl rfl rfl, rfl, plain_solo _ rfl rfl rfl rfl, rfl⟩

theorem witness_SystemRegisters :
    (solo handling).Plain handling ∧ handling.Ready [1] [] ∧ handling.Ready [] [3] ∧
    systemRegister (solo handling) handling 0x0C = some 0x0007_0000_0030 ∧
    (∀ s ∈ [0x05#6, 0x06#6, 0x07#6, 0x0B#6, 0x0D#6, 0x10#6, 0x3F#6], (systemRegister (solo handling) handling s).isSome = true) ∧
    mayWrite handling 0x0C ∧ mayWrite handling 0x3F ∧ ¬ mayWrite handling 0x0E ∧ ¬ mayWrite one 0x0D ∧ ¬ mayWrite one 0x08 := by
  refine ⟨plain_solo _ rfl rfl rfl rfl, ⟨by decide, by decide⟩, ⟨by decide, by decide⟩, by decide, by decide, ?_, ?_, ?_, ?_, ?_⟩ <;>
  simp only [mayWrite] <;> decide

theorem witness_ReservedSelectors : (0x10 : Nat) ≤ (0x10#6).toNat ∧ (0x10 : Nat) ≤ (0x3F#6).toNat ∧ (solo one).Alone one ∧
    one.full 3 = true ∧ one.full ((1#5).extractLsb' 0 4) = true := ⟨by decide, by decide, alone_solo _ rfl rfl, rfl, rfl⟩

theorem witness_ModesHintsAndWaits :
    let parked := (one.empty 3)
    let vec := one.setBit 17 true
    let det := one.setBit 16 true
    (solo one).Plain one ∧ one.vx = false ∧ one.ih = false ∧ one.rg = false ∧ one.gm = false ∧ one.sup = false ∧ one.bars = [] ∧
    one.det = false ∧ one.full 3 = true ∧ one.c.wake = false ∧
    (solo vec).Plain vec ∧ vec.vx = true ∧ (solo parked).Plain parked ∧ parked.full 3 = false ∧ (solo det).Alone det ∧ det.det = true ∧
    (holding 0xC 0 0).Ready [1] [3] ∧ ((holding 0xC 0 0).src 1).getLsbD 2 = true ∧
    ((holding 0x8 0 0).empty 3).full 3 = false :=
  ⟨plain_solo _ rfl rfl rfl rfl, rfl, rfl, rfl, rfl, rfl, rfl, rfl, rfl, rfl, plain_solo _ rfl rfl rfl rfl, by decide,
    plain_solo _ rfl rfl rfl rfl, rfl, alone_solo _ rfl rfl, by decide, ⟨by decide, by decide⟩, by decide, by decide⟩

theorem witness_Privileges :
    let mob := one.setBit 14 true
    encode (.taskHaltHalt 1 2) = some 0x0430_8080 ∧ wellFormed (.taskHaltHalt 1 2) = true ∧
    (solo one).Plain one ∧ one.sup = false ∧ (solo mob).Plain mob ∧ mob.mob = true := by
  refine ⟨by decide +kernel, by decide +kernel, plain_solo _ rfl rfl rfl rfl, rfl, plain_solo _ rfl rfl rfl rfl, by decide⟩

/-- The machine right after reset with one word placed where the next step fetches it. -/
def placed : State := (State.reset.withFetchWord 32 0x1001_90D3).refresh
theorem witness_StepRunsWord :
    (State.reset.withFetchWord 32 0x1001_90D3).agenda = [] ∧ placed.choose = some (.turn 0 0) ∧
    placed.threads.find 0 = some (fetchThread 0) ∧ placed.pkg.pre = .none ∧ (fetchThread 0).lau.exiting = false ∧
    placed.imageOf 0 0 0 = some ⟨0, 0, 1, 0⟩ ∧ placed.rd (isKey 0 0) 4 = 0x1001_90D3 ∧
    decode 0x1001_90D3 = .ok (.aluAdd ⟨1, 0b10010, 3, 4, 1, 1⟩) := by decide +kernel

/-! ### Messages and code -/

/-- Address 128 of its scratchpad in register 2, its release at package scope over. -/
def posting : Thread := { holding 7 128 0 with mo := { rel := some { scope := 1, probes := [], placed := true } } }
/-- A message of kind 0x20 stands there, and one waits in the core's mailbox. -/
def post : State := { solo posting with
  mem := writeLE [] (spKey 0 128) 64 0x2001
  cores := [(0, { openCore with k := { mailbox := [{ prio := true, asid := 0, bytes := 5 }] } })] }
theorem witness_MailboxWords :
    post.Plain posting ∧ posting.rg = false ∧ posting.region = none ∧ posting.chunk.held = [] ∧
    posting.Ready [1, 2] [3] ∧ posting.Ready [2] [3] ∧ LocalAt post posting (posting.src 2) true 128 ∧
    LocalAt post posting (posting.src 2) false 128 ∧ kindOf (BitVec.ofNat 512 (post.rd (spKey 0 128) 64)) = 32 ∧
    kindOf (BitVec.ofNat 512 ((solo posting).rd (spKey 0 128) 64)) = 0 ∧ posting.sup = false ∧
    ReleaseDone post posting 1 ∧ firstMessage posting [] = none ∧
    firstMessage posting (post.core 0).k.mailbox = some { prio := true, asid := 0, bytes := 5 } ∧ post.ecc = [] ∧
    post.outstanding 0 posting < 32 ∧ post.olderAccess 0 0 128 64 = none :=
  ⟨⟨⟨rfl, .inr rfl, rfl⟩, rfl, rfl⟩, rfl, rfl, rfl, ⟨by decide, by decide⟩, ⟨by decide, by decide⟩,
    ⟨by decide, by decide, by decide +kernel, by decide +kernel⟩, ⟨by decide, by decide, by decide +kernel, by decide +kernel⟩,
    by decide +kernel, by decide +kernel, rfl, ⟨_, rfl, rfl, by decide +kernel⟩, rfl, rfl, rfl,
    by decide +kernel, by decide +kernel⟩

/-- A post of thread 1 of core 1 to core 0, which waits for its status in register 3; it names thread 0. -/
def sentPost : PostReq := ⟨0, 1, 1, 0, true, some 3, 0, true, some 0, none, 0x0002_0300, none⟩
/-- The receiver is parked for its supervisor; with `n` messages queued at core 0, in a mode. -/
noncomputable def arriving (i : PostReq → Instr) (n : Nat) (mode : CoreMode) : State := {
  threads := [(0, { one with run := .parked .supervisor }), (1, { one with core := 1 })]
  cores := [(0, { openCore with k := { mailbox := List.replicate n { prio := true, asid := 0, bytes := 5 }, mode := mode } })]
  pool := [i sentPost] }
theorem witness_MessagesArrive :
    sentPost.fabric = none ∧ Instr.mailboxDelivery sentPost ∈ (arriving .mailboxDelivery 0 .running).pool ∧
    olderPost (arriving .mailboxDelivery 0 .running) sentPost = false ∧
    (arriving .mailboxDelivery 0 .retired).coreMode 0 = .retired ∧
    ((arriving .mailboxDelivery 15 .running).core 0).k.mailbox.length < 16 ∧
    16 ≤ ((arriving .mailboxDelivery 16 .running).core 0).k.mailbox.length ∧
    12 ≤ ((arriving .mailboxDelivery 12 .running).core 0).k.mailbox.length ∧
    Instr.faultMessageDelivery sentPost ∈ (arriving .faultMessageDelivery 15 .running).pool ∧
    Instr.resumeMessage sentPost ∈ (arriving .resumeMessage 0 .running).pool ∧
    (sentPost.bytes.extractLsb' 128 32).toNat = 0 ∧
    (∃ th : Thread, (arriving .resumeMessage 0 .running).threads.find 0 = some th ∧ th.core = sentPost.dst ∧ th.parkedSup = true) ∧
    (arriving .resumeMessage 0 .running).coreMode 0 ≠ .retired ∧
    Instr.clusterControlWrite sentPost ∈ (arriving .clusterControlWrite 0 .running).pool ∧
    Instr.clusterControlRead sentPost ∈ (arriving .clusterControlRead 0 .running).pool :=
  ⟨rfl, .head _, by decide +kernel, by decide +kernel, by decide +kernel, by decide +kernel, by decide +kernel, .head _, .head _,
    by decide +kernel, ⟨_, rfl, rfl, rfl⟩, by decide, .head _, .head _⟩

/-- Image 0 of ASID 0 is loaded, one word long. -/
def loaded : Pkg := { images := [{ asid := 0, id := 0, words := [0xF000_0000] }] }
/-- Threads 0 and 1 are held for their reports, both with a handler, the first of the earlier window. -/
def reporting : State := {
  cycle := 64
  threads := [(0, { handled with run := .parked .fpHeld, bslot := none }), (1, { handled with run := .parked .fpHeld, bslot := none })]
  cores := [(0, { openCore with k := { fpHeld := [⟨0, 5, 1, 0x100, 2, none, false⟩, ⟨1, 3, 2, 0x200, 4, none, false⟩] } })]
  pool := [.heldFpTrapDelivery 0] }
theorem witness_CoreEvents :
    (solo one).Plain one ∧ one.core < 512 ∧ (solo one).cur < 2 ^ 32 ∧ (solo one).coreMode 7 ≠ .retired ∧
    ((solo one).core 7).k.mailbox.length < 16 ∧
    (let s : State := { solo one with pool := [.codeAbsent 0 0] }
     Instr.codeAbsent 0 0 ∈ s.pool ∧ s.imageOf 0 one.c.asid one.c.img = none ∧ s.loadedImage one.c.asid one.c.img = none) ∧
    (let s : State := { solo one with pool := [.codeAbsent 0 0], pkg := loaded }
     s.loadedImage 0 0 = some { asid := 0, id := 0, words := [0xF000_0000] } ∧ s.placeImage 0 1 = some (0, [])) ∧
    (let s : State := { solo { one with run := .parked .code } with pool := [.codeStartMessage 0 0 0, .codeRefusal 0 0] }
     Instr.codeStartMessage 0 0 0 ∈ s.pool ∧ Instr.codeRefusal 0 0 ∈ s.pool) ∧
    Instr.heldFpTrapDelivery 0 ∈ reporting.pool ∧ (reporting.core 0).k.fpRep = none ∧
    (∀ g ∈ (reporting.core 0).k.fpHeld, g = ⟨0, 5, 1, 0x100, 2, none, false⟩ ∨ 1 < g.window ∨ (1 = g.window ∧ 5 < g.slot)) ∧
    1 < reporting.cycle / 16 ∧ handled.region = none ∧ handled.det = false ∧ handled.c.evec.getLsbD 63 = true ∧ handled.ih = false := by
  refine ⟨⟨⟨rfl, .inr rfl, rfl⟩, rfl, rfl⟩, by decide, by decide, by decide, by decide, ⟨.head _, rfl, rfl⟩, ⟨rfl, by decide +kernel⟩,
    ⟨.head _, .tail _ (.head _)⟩, .head _, rfl, by decide +kernel, by decide, rfl, rfl, rfl, rfl⟩


/-! ### Memory -/

/-- Register 1 holds an address; registers 2 and 3 hold data. -/
def at_ (a : W64) : Thread := holding a 5 6
/-- A global address, and one in the scratchpad of core 1 of the cluster. -/
def globalA : W64 := 0x0040_0000_0001_0040
def peerA : W64 := 0x0010_0000_0010_0080
theorem here_solo (a : W64) : Here (solo (at_ a)) (at_ a) :=
  ⟨⟨⟨rfl, .inr rfl, rfl⟩, by show (0#32).getLsbD 16 = false; rfl, rfl⟩, rfl, by show (0#32).getLsbD 19 = false; rfl, by show (0#32).getLsbD 20 = false; rfl,
    .inl (by show (0#32).getLsbD 14 = false; rfl)⟩

theorem breaks_hole {s : State} {th : Thread} {a : W64} {n : Nat} {b : Bool} (h : names th.core a.toNat = none) :
    Breaks s th a n b .addressSpace := by simp [Breaks, h]
theorem breaks_alignment {s : State} {th : Thread} {a : W64} {n : Nat} {b : Bool} {p : Place} (h : names th.core a.toNat = some p)
    (h' : a.toNat % n ≠ 0) : Breaks s th a n b .misaligned := by simp [Breaks, h, h']
theorem breaks_window {s : State} {th : Thread} {a : W64} {n off : Nat} {b : Bool} (h : names th.core a.toNat = some (.sp th.core off))
    (h' : a.toNat % n = 0) (hs : th.sup = false) (hw : ¬ inWindow s th.core th.c.asid off n) : Breaks s th a n b .localProt := by
  simp [Breaks, h, h', hs, hw]
theorem breaks_lock {s : State} {th : Thread} {a : W64} {n off : Nat} {b : Bool} (h : names th.core a.toNat = some (.sp th.core off))
    (h' : a.toNat % n = 0) (hw : inWindow s th.core th.c.asid off n) (hl : s.lockHit th.core (Place.sp th.core off).key n b = true) :
    Breaks s th a n b .lock := by simp [Breaks, h, h', hw, hl]
/-- An aligned access inside the window, under no lock, breaks no rule. -/
theorem breaks_none {s : State} {th : Thread} {a : W64} {n off : Nat} {b : Bool} (h : names th.core a.toNat = some (.sp th.core off))
    (h' : a.toNat % n = 0) (hw : inWindow s th.core th.c.asid off n) (hl : s.lockHit th.core (Place.sp th.core off).key n b = false) :
    ∀ c, ¬ Breaks s th a n b c := by simp [Breaks, h, h', hw, hl]
/-- So does an aligned access to a place that is not of its own scratchpad. -/
theorem breaks_none_away {s : State} {th : Thread} {a : W64} {n : Nat} {b : Bool} {p : Place} (h : names th.core a.toNat = some p)
    (h' : a.toNat % n = 0) (hp : ∀ off, p ≠ .sp th.core off) (hl : s.lockHit th.core p.key n b = false) :
    ∀ c, ¬ Breaks s th a n b c := by simp [Breaks, h, h', hp, hl]
theorem in_window {th : Thread} {off n : Nat} (h : off + n ≤ 655360) (hc : th.core = 0) (ha : th.c.asid = 0) :
    inWindow (solo th) th.core th.c.asid off n := by
  refine ⟨(0, 0x0100_00A0_0000_0000), ?_, by decide, ?_, ?_, ?_⟩
  · rw [hc]; exact .head _
  · rw [ha]; decide
  · simp
  · exact h

/-- A machine whose core 0 has a range lock on the bytes 128 to 191. -/
def locked (th : Thread) : State := { solo th with
  cores := [(0, { openCore with m := { openCore.m with locks := [(0, ⟨128, 0, true, 1, 0⟩)] } })] }

/-- Each rule of `CHECK` can be the first that is broken. -/
theorem witness_AddressChecks :
    Here (solo (at_ 128)) (at_ 128) ∧ (at_ 128).Ready [1] (filled 3 3) ∧ (at_ 128).Ready [1] (filled 3 4) ∧
    (at_ 128).Ready ((filled 3 4).map (fun d => 0#1 ++ d) ++ [1]) [] ∧ (at_ 128).Ready [1, 2, 0#1 ++ 3#4] [3] ∧ (at_ 128).Ready [1, 2] [] ∧
    (at_ 128).mo.waitId = 0 ∧
    Breaks (solo (at_ 655360)) (at_ 655360) 655360 8 true .addressSpace ∧ Breaks (solo (at_ 4)) (at_ 4) 4 8 false .misaligned ∧
    Breaks { solo (at_ 655352) with cores := [] } (at_ 655352) 655352 8 false .localProt ∧
    Breaks (locked (at_ 128)) (at_ 128) 128 8 true .lock ∧ (∃ k va, names 0 globalA.toNat = some (.glob k va)) := by
  refine ⟨here_solo _, ⟨by decide, by decide⟩, ⟨by decide, by decide⟩, ⟨by decide, by decide⟩, ⟨by decide, by decide⟩, ⟨by decide, by decide⟩,
    rfl, breaks_hole (by decide), breaks_alignment (p := .sp 0 4) (by decide) (by decide), breaks_window (off := 655352) (by decide) (by decide) rfl ?_,
    breaks_lock (off := 128) (by decide) (by decide) ?_ (by decide +kernel), ⟨4, 65600, by decide⟩⟩
  · rintro ⟨e, he, -⟩
    simp [State.core, Tab.getD, Tab.find] at he
  · exact ⟨_, .head _, by decide, by decide, by decide, by decide⟩

/-- Accesses that may go: the last bytes of its scratchpad, another core's, global memory. -/
theorem witness_LoadsIssue :
    Here (solo (at_ 655352)) (at_ 655352) ∧ (at_ 655352).Ready [1] (filled 3 3) ∧
    memAddress (at_ 655352) 1 3 0 = 655352 ∧ MayGo (solo (at_ 655352)) (at_ 655352) 655352 8 true ∧
    MayGo (solo (at_ peerA)) (at_ peerA) peerA 8 true ∧ MayGo (solo (at_ globalA)) (at_ globalA) globalA 8 true ∧
    (at_ 655352).Ready [1] [] :=
  ⟨here_solo _, ⟨by decide, by decide⟩, by decide,
    ⟨breaks_none (off := 655352) (by decide) (by decide) (in_window (by decide) rfl rfl) (by decide +kernel), .inl ⟨655352, by decide⟩⟩,
    ⟨breaks_none_away (p := .sp 1 128) (by decide) (by decide) (fun _ => by show Place.sp 1 128 ≠ .sp 0 _; simp) (by decide +kernel), .inr (by decide +kernel)⟩,
    ⟨breaks_none_away (p := .glob 4 65600) (by decide) (by decide) (fun _ => by simp) (by decide +kernel), .inr (by decide +kernel)⟩,
    ⟨by decide, by decide⟩⟩

/-- The same with a release at cluster, die, package or system scope over. -/
def over_ (sc : BitVec 2) (a : W64) : Thread := { at_ a with mo := { rel := some { scope := sc, probes := [], placed := true } } }
theorem witness_StoresIssue :
    Here (solo (at_ 655352)) (at_ 655352) ∧ (at_ 655352).Ready ((filled 2 3).map (fun d => 0#1 ++ d) ++ [1]) [] ∧
    (∀ c, ¬ Breaks (solo (at_ 655352)) (at_ 655352) 655352 8 false c) ∧
    (solo (at_ 655352)).storeWait 0 (at_ 655352) (storeParts (at_ 655352) ⟨2, 1, 3, 0, 0⟩) = none ∧
    (solo (at_ globalA)).storeWait 0 (at_ globalA) (storeParts (at_ globalA) ⟨2, 1, 3, 0, 0⟩) = none ∧
    (solo (at_ peerA)).storeWait 0 (at_ peerA) (storeParts (at_ peerA) ⟨2, 1, 3, 0, 0⟩) = none ∧
    ReleaseDone (solo (over_ 1 globalA)) (over_ 1 globalA) 1 ∧
    (solo (over_ 1 globalA)).storeWait 0 (released (over_ 1 globalA) 1) (storeParts (over_ 1 globalA) ⟨2, 1, 3, 1, 0⟩) = none :=
  ⟨here_solo _, ⟨by decide, by decide⟩,
    breaks_none (off := 655352) (by decide) (by decide) (in_window (by decide) rfl rfl) (by decide +kernel), by decide +kernel, by decide +kernel, by decide +kernel,
    ⟨_, rfl, rfl, by decide +kernel⟩, by decide +kernel⟩

theorem witness_AtomicsIssue :
    Here (solo (over_ 2 globalA)) (over_ 2 globalA) ∧ (over_ 2 globalA).Ready [1, 2, 0#1 ++ 3#4] [3] ∧ (over_ 2 globalA).Ready [1, 2] [] ∧
    MayGo (solo (over_ 2 globalA)) (over_ 2 globalA) globalA 8 false ∧ (over_ 2 globalA).src 1 = globalA ∧
    ReleaseDone (solo (over_ 2 globalA)) (over_ 2 globalA) 2 ∧ (solo (over_ 2 globalA)).outstanding 0 (over_ 2 globalA) < 32 :=
  ⟨⟨⟨⟨rfl, .inr rfl, rfl⟩, rfl, rfl⟩, rfl, rfl, rfl, .inl rfl⟩, ⟨by decide, by decide⟩, ⟨by decide, by decide⟩,
    ⟨breaks_none_away (p := .glob 4 65600) (by decide) (by decide) (fun _ => by simp) (by decide +kernel), .inr (by decide +kernel)⟩,
    rfl, ⟨_, rfl, rfl, by decide +kernel⟩, by decide +kernel⟩

/-- A thread whose sync access has been served. -/
def served : Thread := { at_ 128 with mo := { waitId := 5, acquired := true } }
theorem witness_SyncFencesAndGo :
    Here (solo (at_ 128)) (at_ 128) ∧ names 0 128 = some (.sp 0 128) ∧ (at_ 128).mo.waitId = 0 ∧
    MayGo (solo (at_ 128)) (at_ 128) 128 8 false ∧ (at_ 128).Ready [1] [3] ∧
    Here (solo served) served ∧ served.mo.waitId ≠ 0 ∧ served.mo.acquired = true ∧ served.Ready [1] [3] ∧ served.Ready [0#1 ++ 3#4, 1] [] ∧
    (∀ sc ∈ [1, 2, 3], ReleaseDone (solo (over_ sc 128)) (over_ sc 128) sc) ∧
    (solo (over_ 3 128)).producersDone 0 (over_ 3 128) = true ∧ (solo (over_ 3 128)).ringOpen 0 = false ∧
    (names 0 ((at_ 128).src 1).toNat).isSome = true := by
  refine ⟨here_solo _, by decide, rfl,
    ⟨breaks_none (off := 128) (by decide) (by decide) (in_window (by decide) rfl rfl) (by decide +kernel), .inl ⟨128, by decide⟩⟩,
    ⟨by decide, by decide⟩, ⟨⟨⟨rfl, .inr rfl, rfl⟩, rfl, rfl⟩, rfl, rfl, rfl, .inl rfl⟩, by decide, rfl, ⟨by decide, by decide⟩,
    ⟨by decide, by decide⟩, ?_, by decide +kernel, by decide +kernel, by decide⟩
  intro sc h
  simp only [List.mem_cons, List.not_mem_nil, or_false] at h
  rcases h with rfl | rfl | rfl <;> exact ⟨_, rfl, rfl, by decide +kernel⟩

/-! ### What memory performs -/

/-- The page of `globalA` has a translation, writable, to frame 1 of die 0. -/
def tr : Xlat := { asid := 0, space := 4, vpage := 65536, size := 0, entry := 0x10007 }
def mapped (s : State) : State := { s with dies := [(0, { tlb := [tr] })] }
noncomputable def flying (i : Instr) (th : Thread) : State := { solo th with pool := [i] }
/-- A load of `n` bytes from an address into register 3, of `th`. -/
def readOf_ (a : W64) (n : Nat) (code : Nat := 0) : LoadReq := ⟨0, 0, 0, 0, .scalar 3, [⟨a, n, 0, 8 * n, code⟩], .plain, 0⟩
theorem one_load (a : W64) (n : Nat) (f : State → State) (h : (f (flying (.loadCompletion (readOf_ a n)) one)).threads = [(0, one)])
    (hp : (f (flying (.loadCompletion (readOf_ a n)) one)).pool = [.loadCompletion (readOf_ a n)])
    (he : (f (flying (.loadCompletion (readOf_ a n)) one)).ecc = [])
    (hr : loadReady (f (flying (.loadCompletion (readOf_ a n)) one)) (readOf_ a n) = true) (hn : n ∈ [1, 2, 4, 8, 16] ∧ a.toNat % n = 0) :
    OneLoad (f (flying (.loadCompletion (readOf_ a n)) one)) one (readOf_ a n) a n :=
  ⟨by rw [h]; rfl, ⟨rfl, rfl, rfl⟩, by rw [hp]; exact .head _, hr, rfl, he, hn, .inl ⟨3, rfl⟩⟩
/-- The last bytes of the scratchpad; another core's, which is no owner of an allocation for its ASID; mapped and unmapped global memory. -/
theorem witness_LoadsComplete :
    OneLoad (flying (.loadCompletion (readOf_ 655352 8)) one) one (readOf_ 655352 8) 655352 8 ∧ names 0 655352 = some (.sp 0 655352) ∧
    (flying (.loadCompletion (readOf_ 655352 8)) one).ownerCheck 0 0 0 655352 8 true = none ∧
    OneLoad (flying (.loadCompletion (readOf_ peerA 8)) one) one (readOf_ peerA 8) peerA 8 ∧ names 0 peerA.toNat = some (.sp 1 128) ∧
    ((flying (.loadCompletion (readOf_ peerA 8)) one).ownerCheck 0 1 0 128 8 true).isSome = true ∧
    OneLoad (mapped (flying (.loadCompletion (readOf_ globalA 8)) one)) one (readOf_ globalA 8) globalA 8 ∧
    (mapped (flying (.loadCompletion (readOf_ globalA 8)) one)).xlate 0 4 65600 false = .ok tr ∧
    copyInL1 (mapped (flying (.loadCompletion (readOf_ globalA 8)) one)) 0 0 4 65600 8 = none ∧
    OneLoad (flying (.loadCompletion (readOf_ globalA 8)) one) one (readOf_ globalA 8) globalA 8 ∧
    names 0 globalA.toNat = some (.glob 4 65600) ∧
    (∃ e, (flying (.loadCompletion (readOf_ globalA 8)) one).xlate 0 4 65600 false = .error e) ∧
    copyInL1 { solo one with cores := [(0, { m := { l1 := [⟨1025, 0, 7, false, false, 0, []⟩], tcache := [tr] } })] } 0 0 4 65600 8 =
      some ⟨1025, 0, 7, false, false, 0, []⟩ :=
  ⟨one_load _ _ id rfl rfl rfl (by decide +kernel) (by decide), by decide, by decide +kernel,
   one_load _ _ id rfl rfl rfl (by decide +kernel) (by decide), by decide, by decide +kernel,
   one_load _ _ mapped rfl rfl rfl (by decide +kernel) (by decide), by decide +kernel, by decide +kernel,
   one_load _ _ id rfl rfl rfl (by decide +kernel) (by decide), by decide, ⟨_, rfl⟩, by decide +kernel⟩
theorem witness_FailedLoads :
    let s := flying (.loadCompletion (readOf_ globalA 8 9)) one
    s.threads.find 0 = some one ∧ Instr.loadCompletion (readOf_ globalA 8 9) ∈ s.pool ∧ loadReady s (readOf_ globalA 8 9) = true ∧
    loadReady (flying (.loadCompletion (readOf_ globalA 8 18)) one) (readOf_ globalA 8 18) = true :=
  ⟨rfl, .head _, by decide +kernel, by decide +kernel⟩

def writeOf_ (a : W64) : StoreReq := ⟨0, 0, 0, 0, [⟨a, 8, 5, 0⟩], 3⟩
/-- An entry of the store buffer of cluster 0 for the line of `globalA`, of this thread. -/
def entry : CsbEntry := { id := 7, asid := 0, va := globalA.toNat / 64, mask := 0xFF, data := 5, writers := [(0, 9)], cores := [0] }
noncomputable def draining : State := { flying (.storeBufferDrain 0 7) one with clusters := [(0, { csb := [entry] })] }
theorem witness_StoresPerform :
    let s := flying (.storePerformAtHome (writeOf_ 655352)) one
    let t := flying (.storePerformAtHome (writeOf_ peerA)) one
    s.threads.find 0 = some one ∧ storeReady s (writeOf_ 655352) = true ∧ ({ s with pool := [] } : State).accessOpen 0 0 = false ∧
    s.ownerCheck 0 0 0 655352 8 false = none ∧ storeReady t (writeOf_ peerA) = true ∧ (t.ownerCheck 0 1 0 128 8 false).isSome = true ∧
    Instr.storeBufferDrain 0 7 ∈ draining.pool ∧ drainReady draining 0 7 = true ∧ drainEntry draining 0 7 = some entry ∧
    entry.cores.Nodup ∧ names 0 (entry.va * 64) = some (.glob 4 65600) ∧ (mapped draining).xlate 0 4 65600 true = .ok tr ∧
    drainReady (mapped draining) 0 7 = true ∧ (∃ e, draining.xlate 0 4 65600 true = .error e) :=
  ⟨rfl, by decide +kernel, by decide +kernel, by decide +kernel, by decide +kernel, by decide +kernel, .head _, by decide +kernel, rfl,
   by decide, by decide, by decide +kernel, by decide +kernel, ⟨_, rfl⟩⟩

def amoOf (a : W64) : AtomReq := ⟨0, 0, 0, 0, .add, a, 8, 5, 0, 3, false⟩
theorem one_atomic (a : W64) (i : Instr) (f : State → State) (ht : (f (flying i one)).threads = [(0, one)]) (hp : (f (flying i one)).pool = [i])
    (hr : atomReady (f (flying i one)) (amoOf a) = true) (he : (f (flying i one)).ecc = []) (ha : a.toNat % 8 = 0) :
    OneAtomic (f (flying i one)) one (amoOf a) i :=
  ⟨by rw [ht]; rfl, by rw [hp]; exact .head _, hr, he, ⟨by simp [amoOf], by simp [amoOf], ha⟩, ⟨by show (5#64).toNat < 2 ^ 64; decide, by show (0#64).toNat < 2 ^ 64; decide⟩⟩
theorem witness_AtomicsPerform :
    OneAtomic (flying (.atomicAtHome (amoOf 655352)) one) one (amoOf 655352) (.atomicAtHome (amoOf 655352)) ∧
    OneAtomic (mapped (flying (.atomicAtHome (amoOf globalA)) one)) one (amoOf globalA) (.atomicAtHome (amoOf globalA)) ∧
    OneAtomic (flying (.remoteUpdate (amoOf globalA)) one) one (amoOf globalA) (.remoteUpdate (amoOf globalA)) ∧
    OneAtomic (flying (.remoteUpdate (amoOf peerA)) one) one (amoOf peerA) (.remoteUpdate (amoOf peerA)) :=
  ⟨one_atomic _ _ id rfl rfl (by decide +kernel) rfl (by decide), one_atomic _ _ mapped rfl rfl (by decide +kernel) rfl (by decide),
   one_atomic _ _ id rfl rfl (by decide +kernel) rfl (by decide), one_atomic _ _ id rfl rfl (by decide +kernel) rfl (by decide)⟩

/-- A release with one probe out, and one whose probes are back. -/
def releasing (l : List ProbeTo) : Thread := { one with mo := { rel := some { scope := 2, probes := l } } }
theorem witness_ReleaseSteps :
    Instr.releaseProbeEcho 0 (.die 1) ∈ (flying (.releaseProbeEcho 0 (.die 1)) (releasing [.die 1])).pool ∧
    (flying (.releaseProbeEcho 0 (.die 1)) (releasing [.die 1])).echoReady 0 (releasing [.die 1]) (.die 1) = true ∧
    Instr.signaturePlacement 0 2 ∈ (flying (.signaturePlacement 0 2) (releasing [])).pool ∧
    placeReady (flying (.signaturePlacement 0 2) (releasing [])) 0 2 = true :=
  ⟨.head _, by decide +kernel, .head _, by decide +kernel⟩

/-- `ldsy` on a full word of the own scratchpad, on one of another core's with no window there. -/
def syncOf_ (owner : Nat) (lim : Nat) : SyncReq := ⟨5, 0, 0, owner, 128, 128, 4, false, 3, 0, 0, lim⟩
def waiting_ : Thread := { one with mo := { waitId := 5 }, run := .parked (.request 5) }
theorem witness_SyncSteps :
    let s := flying (.syncAccessServe (syncOf_ 0 0)) waiting_
    syncReady s (syncOf_ 0 0) = true ∧ s.ownerCheck 0 0 0 128 4 false = none ∧ waiting_.region = none ∧ waiting_.det = false ∧ waiting_.gm = false ∧
    ((flying (.syncAccessServe (syncOf_ 1 0)) waiting_).ownerCheck 0 1 0 128 4 false).isSome = true ∧ (waiting_.setBit 20 true).gm = true ∧
    (let t : State := { flying (.syncRetryLimit (syncOf_ 0 9)) waiting_ with pool := [.syncAccessServe (syncOf_ 0 9), .syncRetryLimit (syncOf_ 0 9)], cycle := 9 }
     Instr.syncRetryLimit (syncOf_ 0 9) ∈ t.pool ∧ Instr.syncAccessServe (syncOf_ 0 9) ∈ t.pool ∧ 0 + 9 ≤ t.cycle) :=
  ⟨by decide +kernel, by decide +kernel, rfl, rfl, rfl, by decide +kernel, by decide, .tail _ (.head _), .head _, by decide⟩

/-- A mobile thread, its access to core 1 of its cluster; one that travels. -/
def mobile : Thread := (at_ peerA).setBit 14 true
def travelling : Thread := { one with run := .travelling 1 }
def migMsg : MigMsg := ⟨0, 1, 0, 0⟩
theorem witness_Migration :
    (solo mobile).Plain mobile ∧ mobile.region = none ∧ mobile.rg = false ∧ mobile.gm = false ∧ mobile.mob = true ∧ mobile.ih = false ∧
    names 0 peerA.toNat = some (.sp 1 128) ∧ memAddress mobile 1 3 0 = peerA ∧ mobile.Ready [1] (filled 3 3) ∧
    (let s := flying (.migrationDeparture 0 1) { mobile with run := .departing 1 }
     s.producersDone 0 mobile = true ∧ s.acked 0 mobile 2 = true ∧ (s.core 0).k.arrivals = []) ∧
    (flying (.migrationArrival migMsg) travelling).freeCtx 1 = some 0 ∧
    (let s : State := { flying (.migrationArrival migMsg) travelling with threads := (0, travelling) :: (List.range 64).map fun i =>
        (64 + i, { one with core := 1, cidx := i }) }
     s.threads.find 0 = some travelling ∧ s.freeCtx 1 = none ∧ (s.core 1).k.arrivals.length < 16) := by
  refine ⟨plain_solo _ rfl rfl (by decide) rfl, rfl, by decide, by decide, by decide, by decide, by decide, by decide, ⟨by decide, by decide⟩,
    ⟨by decide +kernel, by decide +kernel, rfl⟩, by decide +kernel, rfl, by decide +kernel, by decide +kernel⟩

def probing : Thread := { at_ globalA with run := .parked .translation, mo := { probe := some (globalA, false) } }
/-- A log of ASID 0: its descriptor stands at frame 1 of die 0, in the page of `globalA`. -/
noncomputable def logging (m : Tab W8) : State := { mapped (flying (.writeLogAppend 0) one) with
  cores := [(0, { m := { wlog := [⟨0, globalA, 1⟩] } })], mem := m }
theorem witness_TranslationLogsAndBanks :
    (mapped (flying (.translationProbe 0) probing)).xlate 0 4 65600 false = .ok tr ∧
    (∃ e, (flying (.translationProbe 0) probing).xlate 0 4 65600 false = .error e) ∧ probing.migrates = false ∧
    ((probing.setBit 14 true).migrates = true) ∧ coreBeside 0 (sliceOf (0 % 2 ^ 38)) = 0 ∧
    (match (logging []).wlogDesc 0 0 with | .none => true | _ => false) = true ∧
    (match (logging (writeLE [] (physKey 0 0x100000) 8 globalA.toNat)).wlogDesc 0 0 with | .at_ k => k == 65600 | _ => false) = true ∧
    (match (logging (writeLE [] (physKey 0 0x100000) 8 0x0040_0000_0002_0000)).wlogDesc 0 0 with | .fault _ _ => true | _ => false) = true ∧
    Instr.dirtyLogMerge 0 ∈ (flying (.dirtyLogMerge 0) one).pool ∧
    (let s : State := { flying (.bankWakeEnd 0 15) one with cores := [(0, { m := { waking := [(15, 32)] } })], cycle := 32 }
     Instr.bankWakeEnd 0 15 ∈ s.pool ∧ (s.core 0).m.waking.find 15 = some 32 ∧ 32 ≤ s.cycle) :=
  ⟨by decide +kernel, ⟨_, rfl⟩, by decide, by decide, by decide, by decide +kernel, by decide +kernel, by decide +kernel, .head _, .head _,
   by decide +kernel, by decide⟩

/-! ### Gangs, barriers, regions -/

/-- Thread 0 of core 0 leads a pending gang of two in slot 0; thread 64 of core 1 is about to join. -/
def pending : Gang := ⟨0, 2, 0, false, [0], 0, 0⟩
def formedG : Gang := ⟨0, 2, 0, true, [0, 64], 0, 0⟩
def joining : Thread := { holding 0 0 0 with core := 1 }
def leading : Thread := { holding 2 0 0 with gang := some formedG }
def pairOf (l j : Thread) (cur : Tid) : State := { threads := [(0, l), (64, j)], cores := [(0, openCore), (1, openCore)], cur := cur }
theorem here_pair {l j : Thread} {cur : Tid} {th : Thread} (h : (pairOf l j cur).threads.find cur = some th) (hg : th.gm = false)
    (hd : th.mo.deferred = []) (h1 : th.det = false) (h2 : th.chunk.open_ = false) (h3 : th.region = none) (h4 : th.rg = false)
    (h5 : th.mob = false ∨ th.ih = true) : Here (pairOf l j cur) th := ⟨⟨⟨h, .inl hg, hd⟩, h1, h2⟩, h3, h4, hg, h5⟩
theorem witness_Gangs :
    (let s := solo (holding 8 3 1)
     Here s (holding 8 3 1) ∧ (holding 8 3 1).Ready [1] [3] ∧ (holding 8 3 1).gang = none ∧
     ((holding 8 3 1).src 2).toNat ∉ [2, 4, 8] ∧ groupOf 0 8 % 8 + 8 = 8 ∧ groupOf 0 2 % 8 + 2 ≠ 8 ∧ ¬ gangThere s 0 2 0) ∧
    (let s := pairOf { one with run := .parked .gangForm, gang := some pending } joining 64
     Here s joining ∧ gangThere s 1 2 0 ∧ s.pendingLeader (1 / 8 * 8 + (joining.src 1).toNat % 8) 0 = some (0, pending) ∧
     (∃ l, s.threads.find 0 = some l) ∧ groupBase 0 2 = groupBase 1 2 ∧ groupBase 0 2 ≠ groupBase 2 2 ∧
     ¬ (∃ m ∈ pending.members, ∃ u, s.threads.find m = some u ∧ u.core % 2 = 1 % 2) ∧
     (∃ m ∈ pending.members, ∃ u, s.threads.find m = some u ∧ u.core % 2 = 2 % 2)) ∧
    (solo joining).pendingLeader 0 0 = none ∧
    (let s := pairOf leading { joining with gang := some formedG, run := .parked (.gangJoin 0) } 0
     Here s leading ∧ leading.Ready [1] [3] ∧ leading.gang = some formedG ∧ formedG.formed = true ∧ s.cur ∈ formedG.members) := by
  refine ⟨⟨⟨⟨⟨rfl, .inr rfl, rfl⟩, rfl, rfl⟩, rfl, rfl, rfl, .inl rfl⟩, ⟨by decide, by decide⟩, rfl, by decide, by decide, by decide, ?_⟩,
    ⟨here_pair rfl rfl rfl rfl rfl rfl rfl (.inl rfl), ?_, by decide +kernel, ⟨_, rfl⟩, by decide, by decide, ?_, ?_⟩, by decide +kernel,
    ⟨here_pair rfl rfl rfl rfl rfl rfl rfl (.inl rfl), ⟨by decide, by decide⟩, rfl, rfl, .head _⟩⟩
  · rintro ⟨e, he, g, hg, -⟩
    cases he with
    | head => simp [holding, one, Thread.setX, Thread.modC] at hg
    | tail _ h => cases h
  · exact ⟨_, .head _, pending, rfl, rfl, by decide, by decide⟩
  · rintro ⟨m, hm, u, hu, hc⟩
    have : m = 0 := by simpa [pending] using hm
    subst this
    have hu' : u = { one with run := .parked .gangForm, gang := some pending } := by
      have : (pairOf { one with run := .parked .gangForm, gang := some pending } joining 64).threads.find 0 =
        some { one with run := .parked .gangForm, gang := some pending } := rfl
      rw [this] at hu; exact (Option.some.inj hu).symm
    subst hu'; exact absurd hc (by decide)
  · exact ⟨0, .head _, _, rfl, by decide⟩

/-- Registered for tag 1 of one core of one thread, at ARR; the last to arrive. -/
def registered (arr : W32) (w : Option W32) : Thread := { holding 1 1 0 with bars := [(1, ⟨arr, w⟩)] }
def tagged (th : Thread) : State := { solo th with
  pkg := { tags := [(1, { owner := some 0, cores := 1, done := 5, parts := [(0, { threads := 1, reg := 1 })] })] } }
theorem witness_Barriers :
    Here (solo (holding 1 1 0)) (holding 1 1 0) ∧ (holding 1 1 0).Ready [1, 2] [3] ∧ (holding 1 1 0).mob = false ∧
    ((solo (holding 1 1 0)).tag 1).owner = none ∧ ((tagged (holding 1 1 0)).tag 1).parts.find 0 = some { threads := 1, reg := 1 } ∧
    ((tagged (holding 1 1 0)).tag 1).cores = 1 ∧ (holding 1 1 0).bars.find 1 = none ∧
    Here (tagged (registered 5 none)) (registered 5 none) ∧ (registered 5 none).bars.find 1 = some ⟨5, none⟩ ∧
    (5 : W32) + 1 ≠ 5 + 3 ∧ (7 : W32) + 1 = 5 + 3 ∧ (registered 6 (some 5)).bars.find 1 = some ⟨6, some 5⟩ ∧
    ((5 : W32) - 5).toNat < 2 ^ 31 ∧ ((tagged (registered 5 none)).tag 1).release = none ∧
    LastOfCore (tagged (registered 5 none)) 1 0 { registered 5 none with bars := (registered 5 none).bars.set 1 ⟨6, none⟩ } := by
  refine ⟨⟨⟨⟨rfl, .inr rfl, rfl⟩, rfl, rfl⟩, rfl, rfl, rfl, .inl rfl⟩, ⟨by decide, by decide⟩, rfl, rfl, rfl, rfl, rfl,
    ⟨⟨⟨rfl, .inr rfl, rfl⟩, rfl, rfl⟩, rfl, rfl, rfl, .inl rfl⟩, rfl, by decide, by decide, rfl, by decide, rfl, ⟨_, rfl, rfl, rfl, by decide⟩, ?_⟩
  intro e he r hr _
  have he' : e ∈ [(0, { registered 5 none with bars := [(1, (⟨6, none⟩ : BarReg))] })] := he
  simp only [List.mem_cons, List.not_mem_nil, or_false] at he'
  subst he'
  have : r = ⟨6, none⟩ := (Option.some.inj hr).symm
  subst this
  decide
theorem witness_BarrierReleases :
    let s : State := { tagged (registered 6 none) with
      pkg := { tags := [(1, { owner := some 0, cores := 1, done := 5, counted := 1, parts := [(0, { threads := 1, reg := 1 })], release := some 40 })] },
      cycle := 40, pool := [.barrierRelease 1] }
    Instr.barrierRelease 1 ∈ s.pool ∧ (s.tag 1).release = some 40 ∧ 40 ≤ s.cycle ∧ s.allArrived 1 0 6 = false :=
  ⟨.head _, rfl, by decide, by decide +kernel⟩

/-- In a region that has read and holds nothing, or holds a line of its own scratchpad. -/
def inRegion (h : List HeldLine) : Thread := ({ holding 0x3F80_0000 0 0 with region := some { held := h } } : Thread).setBit 19 true
def aLine : HeldLine := { va := 2, mask := 0xFF, data := 0x1234 }
/-- A set placed since the region began meets what it has read. -/
def met (th : Thread) : State := { solo { th with region := some { reads := { lines := [7], count := 1 } } } with
  pkg := { order := [⟨1, ⟨[7], 1, 0⟩, true⟩], place := 1 }, pool := [.regionSquash 0] }
theorem witness_RegionWords :
    Here (solo (over_ 2 128)) (over_ 2 128) ∧ (over_ 2 128).ih = false ∧ (over_ 2 128).Ready [1] [3] ∧
    (solo (over_ 2 128)).producersDone 0 (over_ 2 128) = true ∧ (over_ 2 128).squashes < 4 ∧ ReleaseDone (solo (over_ 2 128)) (over_ 2 128) 2 ∧
    (solo (inRegion [])).Plain (inRegion []) ∧ (inRegion []).region = some {} ∧ (inRegion []).rg = true ∧ (inRegion []).full 3 = true :=
  ⟨⟨⟨⟨rfl, .inr rfl, rfl⟩, rfl, rfl⟩, rfl, rfl, rfl, .inl rfl⟩, rfl, ⟨by decide, by decide⟩, by decide +kernel, by decide,
    ⟨_, rfl, rfl, by decide +kernel⟩, ⟨⟨rfl, .inr rfl, rfl⟩, by decide, rfl⟩, rfl, by decide, by decide⟩
theorem homed_line (s : State) (th : Thread) (hw : (s.core th.core).m.wlog = []) (hd : (s.core th.core).m.dlog = []) (hc : th.core = 0) : Homed s th [aLine] :=
  ⟨⟨hw, by rw [hd]; decide⟩, fun l hl => by
    have : l = aLine := by simpa using hl
    subst this
    exact .inl ⟨0, 128, by rw [hc]; decide, by rw [hc]; rfl⟩, by simp⟩
theorem witness_RegionCommits :
    let th := inRegion [aLine]
    (solo th).Plain th ∧ th.region = some { held := [aLine] } ∧ th.rg = true ∧ th.Ready [1] [3] ∧ (solo th).producersDone 0 th = true ∧
    (solo th).delayed ((solo th).regionDecision th { held := [aLine] } ((th.src 1).extractLsb' 0 32)).set 0 = false ∧
    (solo th).regionValid { held := [aLine] } = true ∧ Homed (solo th) th [aLine] ∧ (solo th).heldAsleep 0 [aLine] = [] ∧
    ((solo th).annealOf 0).en = false ∧
    (let u := { inRegion [] with region := some { reads := { lines := [7], count := 1 } } }
     (met (inRegion [])).Plain u ∧ (met (inRegion [])).regionValid { reads := { lines := [7], count := 1 } } = false ∧
     (met (inRegion [])).producersDone 0 u = true ∧
     (met (inRegion [])).delayed ((met (inRegion [])).regionDecision u { reads := { lines := [7], count := 1 } } ((u.src 1).extractLsb' 0 32)).set 0 = false) :=
  ⟨⟨⟨rfl, .inr rfl, rfl⟩, by decide, rfl⟩, rfl, by decide, ⟨by decide, by decide⟩, by decide +kernel, by decide +kernel, by decide +kernel,
   homed_line _ _ rfl rfl rfl, by decide +kernel, rfl, ⟨⟨rfl, .inr rfl, rfl⟩, by decide, rfl⟩, by decide +kernel, by decide +kernel, by decide +kernel⟩
theorem witness_AnnealWords :
    (solo (holding 1 2 3)).Plain (holding 1 2 3) ∧ (holding 1 2 3).Ready [1, 2] [3] ∧ (holding 1 2 3).Ready [] [3] ∧ (holding 1 2 3).rg = false ∧
    (solo (inRegion [])).Plain (inRegion []) ∧ (inRegion []).Ready [1, 2] [3] :=
  ⟨plain_solo _ rfl rfl rfl rfl, ⟨by decide, by decide⟩, ⟨by decide, by decide⟩, rfl, ⟨⟨rfl, .inr rfl, rfl⟩, by decide, rfl⟩,
   ⟨by decide, by decide⟩⟩
/-- A deterministic lane whose chunk has ended. -/
def lane (reads : LineSet) : Thread := ({ holding 0 0 0 with
  run := .parked .turn, lau := { lane := some 0 }, chunk := { held := [aLine], ended := .full, open_ := true, reads := reads } } : Thread).setBit 16 true
def det (th : Thread) (commits : List Placed) : State := { solo th with pkg := { det := [(0, { commits := commits, lanes := [(0, 0)] })] } }
theorem witness_SquashesAndChunks :
    (met (inRegion [])).threads.find 0 = some { inRegion [] with region := some { reads := { lines := [7], count := 1 } } } ∧
    Instr.regionSquash 0 ∈ (met (inRegion [])).pool ∧ (met (inRegion [])).regionValid { reads := { lines := [7], count := 1 } } = false ∧
    (solo (inRegion [])).regionValid {} = true ∧
    (let th := lane {}
     chunkReady (det th []) 0 = true ∧ th.region = none ∧ th.gm = false ∧ th.chunk.ended = .full ∧ th.chunk.ring = [] ∧
     Homed (det th []) th th.chunk.held ∧ (det th []).heldBanks 0 = [] ∧ ((det th []).detOf 0).lane ≤ th.lau.lane.getD 0 ∧
     (det th []).chunkValid th = true) ∧
    (let th := lane { lines := [7], count := 1 }
     let s := det th [⟨1, ⟨[7], 1, 0⟩, false⟩]
     chunkReady s 0 = true ∧ s.chunkValid th = false ∧ Homed s th th.chunk.held ∧ s.heldBanks 0 = []) := by
  refine ⟨rfl, .head _, by decide +kernel, by decide +kernel, ⟨by decide +kernel, rfl, by decide, rfl, rfl, homed_line _ _ rfl rfl rfl, by decide +kernel,
    by decide, by decide +kernel⟩, by decide +kernel, by decide +kernel, homed_line _ _ rfl rfl rfl, by decide +kernel⟩

/-! ### Launches -/

theorem witness_CacheWords :
    let th := holding globalA 64 0
    let bad := holding 655360 64 0
    (solo th).Plain th ∧ th.Ready [1, 2] [] ∧ th.rg = false ∧ (names 0 (th.src 1).toNat).isSome = true ∧ th.mo.acquired = false ∧
    (solo bad).Plain bad ∧ bad.Ready [1, 2] [] ∧ names 0 (bad.src 1).toNat = none ∧ (solo (inRegion [])).Plain (inRegion []) ∧
    (inRegion []).Ready [1, 2] [] ∧
    (let w := { th with mo := { acquired := true } }
     (solo w).Plain w ∧ (∀ l ∈ ((solo w).core 0).m.l1, l.leaving = false)) :=
  ⟨plain_solo _ rfl rfl rfl rfl, ⟨by decide, by decide⟩, rfl, by decide, rfl, plain_solo _ rfl rfl rfl rfl, ⟨by decide, by decide⟩, by decide,
   ⟨⟨rfl, .inr rfl, rfl⟩, by decide, rfl⟩, ⟨by decide, by decide⟩, plain_solo _ rfl rfl rfl rfl, by simp [Tab.getD, Tab.find, State.core, solo, openCore]⟩

/-- A record of ASID 0 in a state: one dimension of four tiles of one element, one slot, placed on cluster 0 of die 0, no
successor. -/
def recIn (st : Nat) (spad : Nat := 0) : BitVec 2048 := BitVec.ofNat 2048 (2 + st <<< 16 + (0xFFFFFFFF <<< 96) + 1 <<< 128 + 4 <<< 160 + (0x00000001_00000001_00000001 <<< 192) +
  (0x0001_0001_0001_0001 <<< 288) + spad <<< 352 + 1 <<< 384 + 0xFF <<< 432 + 1 <<< 448 + ((2 ^ 128 - 1) <<< 512))
def withRec (s : State) (l : List (Nat × BitVec 2048)) : State := { s with dies := [(0, { pantry := l })] }
/-- LID 1 in register 1. -/
def arming (st : Nat) : State := withRec (solo (over_ 2 1)) [(1, recIn st)]
theorem witness_LaunchRecordWords :
    Here (arming 0) (over_ 2 1) ∧ (over_ 2 1).isParked = false ∧ (over_ 2 1).Ready [1] [3] ∧ (over_ 2 1).Ready [2] [] ∧
    Own (arming 0) (over_ 2 1) 1 (recIn 0) ∧ AtRest (recIn 0) ∧ Own (arming 2) (over_ 2 1) 1 (recIn 2) ∧ ¬ AtRest (recIn 2) ∧
    field (recIn 2) 2 1 ≠ 7 ∧ NotOwn (solo (over_ 2 1)) (over_ 2 1) 1 ∧ (over_ 2 1).mo.reply = none ∧ ReleaseDone (arming 0) (over_ 2 1) 2 ∧
    (arming 0).out.tray = .serving ∧
    ({ arming 0 with pkg := { images := [⟨0, 0, [0xF000_0000], []⟩] } } : State).armCheck (recIn 0) = 0 ∧ (arming 0).armCheck (recIn 0) = 0x16 ∧
    (let w := { over_ 2 1 with mo := { (over_ 2 1).mo with reply := some 3 } }
     Here (solo w) w ∧ w.mo.reply = some 3) := by
  refine ⟨⟨⟨⟨rfl, .inr rfl, rfl⟩, rfl, rfl⟩, rfl, rfl, rfl, .inl rfl⟩, rfl, ⟨by decide, by decide⟩, ⟨by decide, by decide⟩,
    ⟨rfl, by decide +kernel⟩, by simp only [AtRest]; decide +kernel, ⟨rfl, by decide +kernel⟩, by simp only [AtRest]; decide +kernel, by decide +kernel, ?_, rfl,
    ⟨_, rfl, rfl, by decide +kernel⟩, rfl, by decide +kernel, by decide +kernel, ⟨⟨⟨rfl, .inr rfl, rfl⟩, rfl, rfl⟩, rfl, rfl, rfl, .inl rfl⟩, rfl⟩
  rintro r ⟨h, -⟩
  have h' : (none : Option (BitVec 2048)) = some r := h
  simp at h'
theorem witness_TraversalOrders :
    let r := recIn 0
    1 ≤ field r 16 1 ∧ field r 16 1 ≤ 4 ∧ (∀ d, d < 4 → 1 ≤ field r (20 + 4 * d) 4 ∧ 1 ≤ field r (36 + 2 * d) 2) ∧ field r 17 1 ≤ 4 ∧
    field r 17 1 ≠ 4 ∧ totalOf r = 4 ∧
    (let g := recIn 0 ||| BitVec.ofNat 2048 (3 <<< 128 + 4 <<< 136 + 2 <<< 144) -- grouped rows, of two dimensions
     field (g ^^^ BitVec.ofNat 2048 (1 <<< 128)) 17 1 = 4 ∧ field (g ^^^ BitVec.ofNat 2048 (1 <<< 128)) 16 1 = 2 ∧
     1 ≤ field (g ^^^ BitVec.ofNat 2048 (1 <<< 128)) 18 2) := by decide +kernel

/-- A tile of launch 1, given by walker 0, which serves core 0 and has ordinals 2 and 3 left. -/
def tiling (tile : Bool) : Thread := { over_ 2 1 with c := { (over_ 2 1).c with lid := 1 }, lau := { walker := some 0, tile := tile } }
def walking (x : Walker) (pool : List Instr) : State := { solo (tiling true) with dies := [(0, { pantry := [(1, recIn 2)], walkers := [(0, x)] })], pool := pool }
def leftTwo : Walker := { lid := 1, active := true, cursor := 2, fin := 4, cores := [0], inflight := [0] }
theorem witness_WalkersAndTiles :
    Here (walking leftTwo []) (tiling true) ∧ record (walking leftTwo []) 1 = some (recIn 2) ∧ (tiling true).Ready [] [0, 1, 2, 3, 5, 4] ∧
    ReleaseDone (walking leftTwo []) (tiling true) 2 ∧ (tiling true).lau.walker = some 0 ∧ (walking leftTwo []).walker 0 = leftTwo ∧
    leftTwo.head = [] ∧ leftTwo.cursor < leftTwo.fin ∧ (walking leftTwo []).pkg.pre = .none ∧
    (walking { leftTwo with cursor := 4 } []).walker 0 = { leftTwo with cursor := 4 } ∧
    (walking leftTwo []).handoutCore 0 = some 0 ∧
    (walking leftTwo [.taskStart ⟨1, 1, some 0, 0, none, 0⟩]).splitChoice 1 = some (0, 1, 1) ∧ (0 : Nat) ≠ 1 := by
  refine ⟨⟨⟨⟨rfl, .inr rfl, rfl⟩, rfl, rfl⟩, rfl, rfl, rfl, .inl rfl⟩, rfl, ⟨by decide, by decide⟩, ⟨_, rfl, rfl, by decide +kernel⟩, rfl, rfl, rfl, by decide, rfl,
    rfl, by decide +kernel, by decide +kernel, by decide⟩

def startOf : TaskReq := ⟨1, 2, some 0, 0, none, 0⟩
noncomputable def starting (spad : Nat) : State := { withRec {} [(1, recIn 1 spad)] with pool := [.taskStart startOf], pkg := { admitted := [(1, 2)] } }
/-- A thread whose registers still clear; one that may exit, its release at package scope over; a launch about to complete. -/
def clearing : Thread := { one with run := .parked .clearing, lau := { spLen := 64, clearing := true } }
def allocated (th : Thread) (i : Instr) (a : Alloc) : State := { solo th with cores := [(0, { m := { allocs := [a] } })], pool := [i], cycle := 9 }
def doneRec : BitVec 2048 := recIn 2 ||| BitVec.ofNat 2048 (4 <<< 768)
noncomputable def completing (rs : List (Nat × BitVec 2048)) : State := { withRec (solo one) rs with threads := [], pool := [.launchCompletion 1] }
theorem witness_TaskLifetimes :
    taskReady (starting 0) startOf = true ∧ taskReady (starting 100) startOf = true ∧ (starting 0).newCtx 0 = some 0 ∧
    record (starting 0) 1 = some (recIn 1) ∧ record (starting 100) 1 = some (recIn 1 100) ∧
    clearDue (allocated clearing (.allocationClearDone 0) ⟨0, 64, 0, 0, false, 9⟩) 0 = true ∧
    (allocated clearing (.allocationClearDone 0) ⟨0, 64, 0, 0, false, 9⟩).threads.find 0 = some clearing ∧
    freeDue (allocated one (.releaseClearDone 0 128) ⟨128, 64, 0, 0, true, 9⟩) 0 128 = true ∧
    Here (solo (over_ 2 1)) (over_ 2 1) ∧ MayExit (solo (over_ 2 1)) (over_ 2 1) ∧ ((solo (over_ 2 1)).core 0).k.arrivals = [] ∧
    (solo (inRegion [])).Plain (inRegion []) ∧ (inRegion []).rg = true ∧
    record (completing [(1, recIn 6)]) 1 = some (recIn 6) ∧ field (recIn 6) 2 1 ∉ [1, 2] ∧
    Complete (completing [(1, doneRec)]) 1 doneRec ∧ (∀ i, i < 8 → field doneRec (64 + 2 * i) 2 = 0xFFFF) ∧
    (let r := doneRec ^^^ BitVec.ofNat 2048 (0xFFFD <<< 512)  -- the first successor is LID 2
     let q := recIn 0 ||| BitVec.ofNat 2048 (2 <<< 416)
     let s := completing [(1, r), (2, q)]
     Complete s 1 r ∧ field r 64 2 = 2 ∧ (∀ i, 1 ≤ i → i < 8 → field r (64 + 2 * i) 2 = 0xFFFF) ∧ record s 2 = some q ∧ field q 52 1 = 2 ∧
     field q 6 2 = field r 6 2) := by
  refine ⟨by decide +kernel, by decide +kernel, by decide +kernel, rfl, rfl, by decide +kernel, rfl, by decide +kernel,
    ⟨⟨⟨rfl, .inr rfl, rfl⟩, rfl, rfl⟩, rfl, rfl, rfl, .inl rfl⟩, ⟨by decide +kernel, by decide +kernel, ⟨_, rfl, rfl, by decide +kernel⟩, by decide +kernel, fun _ => by decide +kernel⟩, rfl,
    ⟨⟨rfl, .inr rfl, rfl⟩, by decide, rfl⟩, by decide, rfl, by decide +kernel,
    ⟨by decide +kernel, by decide +kernel, by simp [completing, withRec], by intro q hq; simp [completing, withRec] at hq⟩, by decide +kernel, ?_⟩
  refine ⟨⟨by decide +kernel, by decide +kernel, by simp [completing, withRec], by intro q hq; simp [completing, withRec] at hq⟩, by decide +kernel,
    by decide +kernel, rfl, by decide +kernel, by decide +kernel⟩

/-! ### Vectors and matrices -/

theorem vectors_of {s : State} {th : Thread} (hp : s.Plain th) (hm : th.mob = false) (hr : th.region = none) (ha : s.inAir = [])
    (hq : (s.core th.core).e.queue = []) (named wr : List (BitVec 5)) : Vectors s th named wr :=
  ⟨hp, hm, hr, fun v _ => by simp [State.vecPending, ha], fun v _ => by simp [State.groupBusy, hq]⟩
theorem bit_clear {a b d : W64} (k : Nat) : (holding a b d).c.status.getLsbD k = false := by
  show (0#32).getLsbD k = false; simp
theorem vectors_solo (a b d : W64) (named wr : List (BitVec 5)) : Vectors (solo (holding a b d)) (holding a b d) named wr :=
  vectors_of (plain_solo _ rfl rfl (bit_clear 16) rfl) (bit_clear 14) rfl rfl rfl named wr

theorem witness_VectorIntegers :
    Vectors (solo (holding 7 5 0)) (holding 7 5 0) [4, 5, 6] [4] ∧ (holding 7 5 0).Ready [1] [] :=
  ⟨vectors_solo .., by decide, by decide⟩
/-- Every element of a source is 1.5 in FP32, of another 0, a signalling NaN or -2. -/
def filledWith (v : Nat) : BitVec 4096 := BitVec.ofNat 4096 (v * ((2 ^ 4096 - 1) / (2 ^ 32 - 1)))
def vectors (th : Thread) (l : Tab (BitVec 4096)) : State := { solo th with slots := [(0, { v := l, m := [(1, 1), (2, 3)] })] }
theorem witness_VectorFloats :
    let th := holding 0x4000_0000 5 0
    let s := vectors th [(5, filledWith 0x3FC0_0000), (6, filledWith 0), (7, filledWith 0x7F80_0001), (8, filledWith 0xC000_0000)]
    Vectors s th [4, 5, 6] [4] ∧ th.Ready [1] [] ∧ element 32 (s.vreg th 5) 127 = 0x3FC0_0000 ∧
    isFinite 8 23 0x3FC0_0000 ∧ ¬ isZero 8 23 0x3FC0_0000 ∧ isZero 8 23 0 ∧ isNaN 8 23 0x7F80_0001 ∧ isSignalling 8 23 0x7F80_0001 ∧
    isFinite 8 23 0xC000_0000 ∧ signAt 8 23 0xC000_0000 = true ∧ (0 : BitVec 5) &&& th.ft = 0 ∧
    (0x10 : BitVec 5) &&& (th.modC fun c => { c with status := 0x2000 }).ft ≠ 0 := by
  refine ⟨vectors_of ⟨⟨rfl, .inr rfl, rfl⟩, rfl, rfl⟩ rfl rfl rfl rfl _ _, ⟨by decide, by decide⟩, by decide +kernel, ?_, ?_, ?_, ?_, ?_, ?_, ?_, ?_, ?_⟩ <;>
  first | decide | (unfold isFinite; decide) | (unfold isZero; decide) | (unfold isNaN; decide) | (unfold isSignalling isNaN; decide)
theorem witness_VectorCompares :
    Vectors (solo (holding 7 5 0)) (holding 7 5 0) [5, 6] [] ∧ (holding 7 5 0).Ready [1] [] := ⟨vectors_solo .., by decide, by decide⟩
/-- One with a scale hint that names register 9, one without; the scales are 2, and an invalid 0. -/
def scaling : Thread := (holding 7 5 0).modC fun c => { c with hint := 0x1009_0000_0000_0000 }
theorem witness_VectorConversions :
    Vectors (solo (holding 7 5 0)) (holding 7 5 0) [4, 5] [4] ∧ (HasScale (holding 7 5 0) none ∧ HasScale scaling (some 9)) ∧
    Vectors (vectors scaling []) scaling [4, 5, 9] [4] ∧ codeOk 0 6 ∧ validScale 0x4000_0000 ∧ ¬ validScale 0 ∧
    (scaling.modC fun c => { c with status := 5 }).rm = 5 := by
  refine ⟨vectors_solo .., ⟨by show (_ : Bool) = false; decide, by show (_ : Bool) = true ∧ (_ : Nat) = _; decide⟩, vectors_of ⟨⟨rfl, .inr rfl, rfl⟩, rfl, rfl⟩ rfl rfl rfl rfl _ _, ?_, ?_, ?_, ?_⟩ <;>
  first | decide | (unfold codeOk; decide) | (unfold validScale; decide)
theorem element_zero (w j : Nat) : element w 0 j = 0 := by simp [element]
theorem vreg_solo (a b d : W64) (v : BitVec 5) : (solo (holding a b d)).vreg (holding a b d) v = 0 := rfl
theorem witness_VectorReductions :
    Vectors (solo (holding 7 5 0)) (holding 7 5 0) [4, 5] [4] ∧ (∀ j, j < 128 → governs ((solo (holding 7 5 0)).mask (holding 7 5 0) 0) 32 j = true →
      isFinite 8 23 (element 32 ((solo (holding 7 5 0)).vreg (holding 7 5 0) 5) j)) := by
  refine ⟨vectors_solo .., fun j _ _ => ?_⟩
  rw [vreg_solo, element_zero]; unfold isFinite; decide
theorem witness_VectorMoves :
    Vectors (solo (holding 7 5 0)) (holding 7 5 0) [4, 5, 6] [4] ∧ (holding 7 5 0).Ready [1, 2] [] ∧ (holding 7 5 0).Ready [1] [3] ∧
    (holding 7 5 0).Ready [] [3] := ⟨vectors_solo .., ⟨by decide, by decide⟩, ⟨by decide, by decide⟩, by decide, by decide⟩
theorem witness_SpecialFunctions : Vectors (solo (holding 7 5 0)) (holding 7 5 0) [4, 5] [4] ∧ isFinite 8 23 0xBF80_0000 ∧
    ¬ isZero 8 23 0xBF80_0000 ∧ signAt 8 23 0xBF80_0000 = true ∧ isNaN 8 23 0x7F80_0001 := by
  refine ⟨vectors_solo .., ?_, ?_, ?_, ?_⟩ <;> first | decide | (unfold isFinite; decide) | (unfold isZero; decide) | (unfold isNaN; decide)

/-- Mask 1 has lane 0 alone and register 1 the address: the last bytes of the scratchpad, one past it, or an odd one. -/
def lane0 (a : W64) : State := vectors (holding a 0 0) []
theorem lane0_vectors (a : W64) (named wr : List (BitVec 5)) : Vectors (lane0 a) (holding a 0 0) named wr :=
  vectors_of ⟨⟨rfl, .inr rfl, rfl⟩, bit_clear 16, rfl⟩ (bit_clear 14) rfl rfl rfl named wr
theorem lane0_window {a : W64} {off n : Nat} (h : off + n ≤ 655360) : inWindow (lane0 a) (holding a 0 0).core (holding a 0 0).c.asid off n := by
  refine ⟨(0, 0x0100_00A0_0000_0000), .head _, by decide, ?_, ?_, ?_⟩
  · rfl
  · simp
  · exact h
theorem witness_VectorMemory :
    (holding 655356 0 0).rg = false ∧ (holding 655356 0 0).Ready [1] [] ∧ (holding 655356 0 0).Ready [1, 2] [] ∧
    Vectors (lane0 655356) (holding 655356 0 0) [4, 5] [4] ∧ activeOf ((lane0 655356).mask (holding 655356 0 0) 1) 32 = [0] ∧
    elementAddress (holding 655356 0 0) ⟨4, 1, 0, 1, 0, 0, 0⟩ 0 = 655356 ∧ laneAddress (lane0 655356) (holding 655356 0 0) ⟨4, 1, 5, 1, 0, 0⟩ 0 = 655356 ∧
    (∀ c, ¬ Breaks (lane0 655356) (holding 655356 0 0) 655356 4 true c) ∧ (∀ c, ¬ Breaks (lane0 655356) (holding 655356 0 0) 655356 4 false c) ∧
    (∃ off, names 0 (655356 : W64).toNat = some (.sp 0 off)) ∧
    (lane0 655356).storeWait 0 (holding 655356 0 0) [⟨655356, 4, 0, 0⟩] = none ∧
    FirstBreak (lane0 655360) (holding 655360 0 0) 4 true [0] (fun _ => 655360) 0 .addressSpace ∧
    FirstBreak (lane0 2) (holding 2 0 0) 4 false [0] (fun _ => 2) 0 .misaligned :=
  ⟨rfl, ⟨by decide, by decide⟩, ⟨by decide, by decide⟩, lane0_vectors .., by decide +kernel, by decide +kernel, by decide +kernel,
   breaks_none (off := 655356) (by decide) (by decide) (lane0_window (by decide)) (by decide +kernel),
   breaks_none (off := 655356) (by decide) (by decide) (lane0_window (by decide)) (by decide +kernel),
   ⟨655356, by decide⟩, by decide +kernel, ⟨[], [], rfl, by simp, breaks_hole (by decide)⟩,
   ⟨[], [], rfl, by simp, breaks_alignment (p := .sp 0 2) (by decide) (by decide)⟩⟩

/-- Registers 1 to 4 describe a tile at 0 with rows of 128 bytes and one at 16384 with rows of 64; accumulator 0 is its third. -/
def tiles_ : Thread := { ((holding 0 128 16384).setX 4 64) with lau := { accs := [3] } }
def tileWord : Mx := ⟨0, 1, 1, 1, 3, 0, 0, 1⟩
/-- The operand groups in vector registers, with the scale register 9 in the first of them. -/
def grouped : Mx := ⟨0, 0, 0, 0, 16, 0, 0, 0⟩
def scaled : Thread := tiles_.modC fun c => { c with hint := 0x1009_0000_0000_0000 }
theorem tile_fine {s : State} {th : Thread} {base ctl : W64} {sh : Nat × Nat} {bits code : Nat} (h1 : names th.core base.toNat = some (.sp th.core (localOf th.core base)))
    (h2 : ¬ (localOf th.core base % 64 ≠ 0 ∨ ctl.toNat % 2 ^ 24 % 64 ≠ 0 ∨ ctl.toNat % 2 ^ 24 = 0 ∨ (¬ ctl.getLsbD 55 = true ∧ ctl.toNat % 2 ^ 24 < 64 * rowBlocks sh bits)))
    (h3 : ¬ ((ctl.getLsbD 55 = true ∧ (40960 ≤ localOf th.core base ∨ localOf th.core base + ((blockRows sh bits - 1) * (ctl.toNat % 2 ^ 24) / 64 + 1) * 64 > 40960)) ∨
      (¬ ctl.getLsbD 55 = true ∧ localOf th.core base + (blockRows sh bits - 1) * (ctl.toNat % 2 ^ 24) + 64 * rowBlocks sh bits > 655360)))
    (hs : ∀ b ∈ blockList (localOf th.core base) ctl sh bits, inWindow s th.core th.c.asid b 64)
    (hf : ∀ k, (s.bankReg th.core k).toNat % 16 = 0) : ∀ c d v, ¬ TileFault s th base ctl sh bits code c d v := by
  intro c d v h
  simp only [TileFault, h1, ne_eq, not_true_eq_false, if_false] at h
  rw [if_neg (by simpa using h2), if_neg (by simpa using h3)] at h
  rcases h with ⟨-, -, l, r, b, hb, -, ho, -⟩ | ⟨-, -, -, k, l, r, b, hw, -⟩
  · exact ho (.inr (hs b (by rw [hb]; simp)))
  · exact hw.2.1 (hf k)
/-- Its queue holds these operations, the first entry of the skip list has two words. -/
def engined (th : Thread) (q : List MmaOp) : State := { solo th with
  cores := [(0, { openCore with e := { queue := q, sk := [(0, 0x20_0000)] } })] }
theorem vectors_engined (a b d : W64) (k : Thread → Thread) (hk : (k (holding a b d)).c.status = 0) (h1 : (k (holding a b d)).gang = none)
    (h2 : (k (holding a b d)).mo.deferred = []) (h3 : (k (holding a b d)).chunk.open_ = false) (h4 : (k (holding a b d)).region = none)
    (h5 : (k (holding a b d)).core = 0) (named wr : List (BitVec 5)) :
    Vectors (engined (k (holding a b d)) []) (k (holding a b d)) named wr := by
  refine vectors_of ⟨⟨rfl, .inr h1, h2⟩, ?_, h3⟩ ?_ h4 rfl ?_ named wr
  · simp [Thread.det, hk]
  · simp [Thread.mob, hk]
  · rw [h5]; rfl
theorem tiles_ready (o : Mx) (h : tiles_.Ready ((if o.asel = 1 then [o.a, fieldNext o.a] else []) ++ (if o.bsel = 1 then [o.b, fieldNext o.b] else [])) []) :
    MmaReady (engined tiles_ []) tiles_ 0 o :=
  ⟨vectors_engined 0 128 16384 (fun t => { t.setX 4 64 with lau := { accs := [3] } }) rfl rfl rfl rfl rfl rfl _ _, rfl, rfl, rfl, h⟩
theorem engined_window {th : Thread} {q : List MmaOp} {off n : Nat} (h : off + n ≤ 655360) (hc : th.core = 0) (ha : th.c.asid = 0) :
    inWindow (engined th q) th.core th.c.asid off n := by
  refine ⟨(0, 0x0100_00A0_0000_0000), ?_, by decide, ?_, ?_, h⟩
  · rw [hc]; exact .head _
  · rw [ha]; decide
  · simp
theorem all_below {l : List Nat} (h : (l.all fun b => decide (b + 64 ≤ 655360)) = true) : ∀ b ∈ l, b + 64 ≤ 655360 := by simpa using h
theorem witness_MatrixWords :
    MmaReady (engined tiles_ []) tiles_ 0 tileWord ∧ tiles_.lau.accs[tileWord.ac.toNat]? = some 3 ∧
    tiles_.lau.accs[(1 : BitVec 3).toNat]? = none ∧
    descriptors tiles_ 0 tileWord = [(0, 128, (64, 128), 4), (16384, 64, (128, 64), 4)] ∧
    (∀ c d v, ¬ TileFault (engined tiles_ []) tiles_ 0 128 (64, 128) 8 4 c d v) ∧
    (∀ c d v, ¬ TileFault (engined tiles_ []) tiles_ 16384 64 (128, 64) 8 4 c d v) ∧
    TileFault (engined tiles_ []) tiles_ 32 128 (64, 128) 8 4 .misaligned 0 32 ∧
    ((engined tiles_ []).core 0).e.queue.length < 4 ∧ ((engined tiles_ []).core 0).m.locks.length ≤ 30 ∧
    (tiles_.slices = none ∧ tileWord.sk ≠ 0 ∧ fieldOf (((engined tiles_ []).core 0).e.sk.getD 0 0) 20 16 ≠ 0 ∧ (engined tiles_ []).sleeping 0 0 2 = none) ∧
    ((scaleRegisters scaled 0).filter fun v => (registers 0 grouped.a ++ registers 0 grouped.b).contains v) = [9] := by
  refine ⟨tiles_ready _ ⟨by decide, by decide⟩, rfl, rfl, by decide +kernel, ?_, ?_, ?_, by decide, by decide, ⟨rfl, by decide, by decide, by decide +kernel⟩,
    by decide +kernel⟩
  · refine tile_fine (by decide) (by decide +kernel) (by decide +kernel) (fun b hb => engined_window (all_below (by decide +kernel) b hb) rfl rfl) fun k => ?_
    simp [State.bankReg, engined, openCore, State.core, Tab.getD, Tab.find, tiles_, holding, one, Thread.setX, Thread.modC]
  · refine tile_fine (by decide) (by decide +kernel) (by decide +kernel) (fun b hb => engined_window (all_below (by decide +kernel) b hb) rfl rfl) fun k => ?_
    simp [State.bankReg, engined, openCore, State.core, Tab.getD, Tab.find, tiles_, holding, one, Thread.setX, Thread.modC]
  · unfold TileFault
    rw [if_neg (by decide), if_pos (by decide)]
    exact ⟨rfl, rfl, rfl⟩
theorem witness_AccumulatorWords :
    tiles_.rg = false ∧ Vectors (engined tiles_ []) tiles_ [4] [4] ∧ (engined tiles_ []).Plain tiles_ ∧ tiles_.Ready [1, 2] [3] ∧ tiles_.Ready [1] [] ∧
    tiles_.lau.accs[(0 : BitVec 3).toNat]? = some 3 ∧ tiles_.lau.accs[(1 : BitVec 3).toNat]? = none ∧ ((engined tiles_ []).core 0).e.queue.length < 4 ∧
    ((engined tiles_ []).core 0).m.locks.length < 32 ∧ (∀ q ∈ ((engined tiles_ []).core 0).e.queue, q.acc ≠ 3) ∧
    fieldOf 1 0 20 % 2 = 1 ∧ fieldOf 655358 0 20 + 2 * fieldOf 2 0 16 > 655360 ∧ fieldOf 655358 0 20 + 2 * fieldOf 1 0 16 ≤ 655360 :=
  have v := vectors_engined 0 128 16384 (fun t => { t.setX 4 64 with lau := { accs := [3] } }) rfl rfl rfl rfl rfl rfl [4] [4]
  ⟨rfl, v, v.toPlain, ⟨by decide, by decide⟩, ⟨by decide, by decide⟩, rfl, rfl, by decide, by decide, by simp [engined, State.core, Tab.getD, Tab.find],
    by decide, by decide, by decide⟩
/-- Operations of the queue at each of their stages. -/
def queuedOp : MmaOp := { id := 1, tid := 0, kind := .mma, acc := 3 }
def describedOp : MmaOp := { queuedOp with stage := .started, a := .desc 0 128 false, b := .desc 16384 64 false }
def readOp : MmaOp := { queuedOp with stage := .consumed }
def transfer (k : QKind) (a p : W64) : MmaOp := { queuedOp with kind := k, stage := .started, addr := a, arg := p }
theorem witness_MatrixSteps :
    ((engined tiles_ [queuedOp]).nextStart 0 = some queuedOp ∧ startReady (engined tiles_ [queuedOp]) 0 = true ∧
      (engined tiles_ [queuedOp]).opAsleep 0 queuedOp = []) ∧
    ((engined tiles_ [describedOp]).running 0 QKind.computes = some describedOp ∧ tiles_.region = none ∧ tiles_.chunk.held = []) ∧
    (((engined tiles_ [{ readOp with bad := some 64 }]).core 0).e.queue = [{ readOp with bad := some 64 }] ∧
      ((engined tiles_ [readOp]).core 0).e.queue = [readOp] ∧ readOp.stage = .consumed ∧ readOp.form < 8 ∧ readOp.bad = none ∧
      (engined tiles_ [readOp]).threads.find readOp.tid = some tiles_) ∧
    (((engined tiles_ [transfer .st 655104 0]).core 0).e.queue = [transfer .st 655104 0] ∧ tiles_.chunk.open_ = false ∧
      (engined tiles_ [transfer .st 655104 0]).ecc = [] ∧ (8 : W64).toNat % 16 ≠ 0 ∧
      OwnRange (engined tiles_ []) 0 0 tiles_.sup 638976 (63 * 256 + 256)) := by
  refine ⟨⟨rfl, by decide +kernel, by decide +kernel⟩, ⟨by decide +kernel, rfl, rfl⟩, ⟨rfl, rfl, rfl, by decide, rfl, rfl⟩,
    ⟨rfl, rfl, rfl, by decide, by decide, .inr ⟨_, .head _, by decide, by decide, by decide, by decide⟩⟩⟩

/-! ### Buffers, bindings, copies -/

/-- A buffer of 4 elements of 4 bytes at 0 that holds two, and an empty one at 4096. -/
def inBuf : BitVec 256 := BitVec.ofNat 256 (4 * 2 ^ 64 + 2 * 2 ^ 96 + 2 * 2 ^ 128)
def outBuf : BitVec 256 := BitVec.ofNat 256 (4096 + 4 * 2 ^ 64 + 2 * 2 ^ 96)
/-- Core 0 with buffers 0 and 1, these bindings and these lock entries. -/
def buffered (th : Thread) (eng : Tab Binding) : State := { solo th with
  cores := [(0, { openCore with e := { cb := [(0, inBuf), (1, outBuf)], eng := eng } })] }
/-- A copy of one element of buffer 0 into buffer 1 in each firing. -/
def copying (k : BitVec 8) : Binding := { tid := 0, desc := BitVec.ofNat 256 (k.toNat + 2 ^ 16 + 2 ^ 32 + 2 ^ 64), asid := 0 }
theorem witness_BufferWords :
    let th := holding 1 0x2_0000_0004 0
    (buffered th []).Plain th ∧ th.rg = false ∧ th.chunk.cbs = [] ∧ th.Ready [1, 2] [3] ∧ th.Ready [1] [3] ∧ th.Ready [1] [] ∧ th.full 3 = true ∧
    BND (buffer (buffered th []) 0 0) = false ∧ BND (outBuf ||| 2 ^ 200) = true ∧
    (0 : Nat) % 2 ^ 2 = 0 ∧ (1 : Nat) % 2 ^ 2 ≠ 0 ∧ CAP (buffer (buffered th []) 0 2) = 0 ∧ CAP (buffer (buffered th []) 0 0) ≠ 0 ∧
    ¬ isIn (buffered th []) 0 0 ∧ isIn (buffered th [(0, copying 1)]) 0 0 ∧ isOut (buffered th [(0, copying 1)]) 0 1 ∧
    1 ≤ free (buffer (buffered th []) 0 0) ∧ 1 ≤ held (buffer (buffered th []) 0 0) ∧ held (buffer (buffered th []) 0 1) < 1 ∧
    (∃ off, names 0 (BASE inBuf) = some (.sp 0 off)) ∧ ReleaseDone (buffered (over_ 0 1) []) (over_ 0 1) 0 ∧
    (buffered (over_ 0 1) []).Plain (over_ 0 1) ∧ (over_ 0 1).rg = false := by
  refine ⟨⟨⟨rfl, .inr rfl, rfl⟩, rfl, rfl⟩, rfl, rfl, ⟨by decide, by decide⟩, ⟨by decide, by decide⟩, ⟨by decide, by decide⟩, rfl,
    by decide +kernel, by decide +kernel, by decide, by decide, by decide +kernel, by decide +kernel, ?_, ⟨_, .head _, by decide +kernel⟩,
    ⟨_, .head _, by decide +kernel⟩, by decide +kernel, by decide +kernel, by decide +kernel, ⟨0, by decide +kernel⟩,
    ⟨_, rfl, rfl, by decide +kernel⟩, ⟨⟨rfl, .inr rfl, rfl⟩, rfl, rfl⟩, rfl⟩
  rintro ⟨e, he, -⟩
  cases he

noncomputable def gating (b : Nat) (th : Thread) : State := { solo th with
  cores := [(0, { openCore with m := { openCore.m with gateReq := [b] } })], pool := [.bankGateEffect 0 b] }
def supervisor_ (a b d : W64) : Thread := (holding a b d).setBit 15 true
theorem witness_BanksAndLocks :
    let th := holding 9 0 0
    (solo th).Plain th ∧ th.rg = false ∧ th.Ready [1] [3] ∧ th.full 3 = true ∧ th.Ready [1] [] ∧ inWindow (solo th) 0 0 0 40960 ∧
    ¬ inWindow { solo th with cores := [] } 0 0 0 40960 ∧ (solo th).bankLocked 0 0 = false ∧ (locked th).bankLocked 0 0 = true ∧
    (holding 10 0 0).src 1 = 10 ∧ (bankOfCore (solo th) 0 0).toNat / 16 % 4 ≠ 1 ∧ (0x10 : W32).toNat / 16 % 4 = 1 ∧
    ((solo th).core 0).m.locks.find 9 = none ∧ ((locked th).core 0).m.locks.find 0 = some ⟨128, 0, true, 1, 0⟩ ∧
    ((supervisor_ 9 0 0).sup = true ∧ (solo (supervisor_ 9 0 0)).Plain (supervisor_ 9 0 0) ∧ (supervisor_ 9 0 0).rg = false) ∧
    Instr.bankGateEffect 0 15 ∈ (gating 15 th).pool ∧ gateReady (gating 15 th) 0 15 = true ∧
    ((solo (inRegion [])).Plain (inRegion []) ∧ (inRegion []).rg = true ∧ ∀ f, (inRegion []).full f = true) ∧
    ((solo (lane {})).Alone (lane {}) ∧ (lane {}).det = true ∧ (lane {}).chunk.open_ = true ∧ ∀ f, (lane {}).full f = true) := by
  refine ⟨plain_solo _ rfl rfl rfl rfl, rfl, ⟨by decide, by decide⟩, rfl, ⟨by decide, by decide⟩, ⟨_, .head _, by decide, by decide, by decide, by decide⟩, ?_,
    by decide +kernel, by decide +kernel, by decide, by decide +kernel, by decide, by decide +kernel, by decide +kernel,
    ⟨by decide, ⟨⟨rfl, .inr rfl, rfl⟩, by decide, rfl⟩, by decide⟩, .head _, by decide +kernel,
    ⟨⟨⟨rfl, .inr rfl, rfl⟩, by decide, rfl⟩, by decide, by decide +kernel⟩, ⟨alone_solo _ rfl rfl, by decide, rfl, by decide +kernel⟩⟩
  rintro ⟨e, he, -⟩
  simp [State.core, Tab.getD, Tab.find] at he

/-- The descriptor of `copying` stands at 128; `eng` are the bindings that exist. -/
def describing (d : BitVec 256) (eng : Tab Binding) : State := { buffered (holding 128 0 0) eng with mem := writeLE [] (spKey 0 128) 32 d.toNat }
theorem describing_none (d : BitVec 256) (eng : Tab Binding) : ∀ c, ¬ Breaks (describing d eng) (holding 128 0 0) 128 32 true c :=
  breaks_none (off := 128) (by decide) (by decide) ⟨_, .head _, by decide, by decide, by decide, by decide⟩ rfl
theorem witness_BindingWords :
    let th := holding 128 0 0
    let s := describing (copying 1).desc []
    s.Plain th ∧ th.rg = false ∧ th.region = none ∧ th.chunk = {} ∧ s.ecc = [] ∧ th.Ready [1] [3] ∧ th.Ready [1] [] ∧
    (∀ off, names 0 peerA.toNat ≠ some (.sp 0 off)) ∧ names 0 128 = some (.sp 0 128) ∧ (∀ c, ¬ Breaks s th 128 32 true c) ∧
    Breaks s th 16 32 true .misaligned ∧ s.sleeping 0 128 32 = none ∧
    BitVec.ofNat 256 (s.rd (spKey 0 128) 32) = (copying 1).desc ∧ (copying 1).desc.toNat % 256 ≠ 3 ∧ s.bindOk th (copying 1) = true ∧
    s.bindOk th (copying 4) = false ∧ bound s 0 0 = none ∧
    (∀ k, k < 16 → bound (describing (copying 1).desc ((List.range 16).map fun k => (k, copying 1))) 0 k ≠ none) ∧
    CAP (buffer s 0 0) ≠ 0 ∧ CAP (buffer s 0 1) ≠ 0 ∧ CAP (buffer s 0 2) = 0 ∧ ¬ isIn s 0 0 ∧ ¬ isOut s 0 1 ∧
    isIn (describing (copying 1).desc [(7, copying 1)]) 0 0 ∧
    bound (describing (copying 1).desc [(0, copying 1)]) 0 (128 % 16) = some (copying 1) ∧ (copying 1).asid = th.c.asid ∧ (copying 1).stage = none ∧
    ({ copying 1 with stage := some .started } : Binding).stage ≠ none := by
  refine ⟨⟨⟨rfl, .inr rfl, rfl⟩, rfl, rfl⟩, rfl, rfl, rfl, rfl, ⟨by decide, by decide⟩, ⟨by decide, by decide⟩, ?_, by decide, describing_none _ _,
    breaks_alignment (p := .sp 0 16) (by decide) (by decide), by decide +kernel, by decide +kernel, by decide +kernel, by decide +kernel,
    by decide +kernel, rfl, by decide +kernel, by decide +kernel, by decide +kernel, by decide +kernel, ?_, ?_, ⟨_, .head _, by decide +kernel⟩,
    rfl, rfl, rfl, by decide⟩
  · intro off h
    rw [show names 0 peerA.toNat = some (.sp 1 128) by decide] at h
    cases h
  all_goals
    rintro ⟨e, he, -⟩
    cases he

/-- The binding may fire, fires, has read its input, and has failed. -/
def armed_ (k : BitVec 8) : Binding := { copying k with armed := true }
def fired_ (k : BitVec 8) : Binding := { armed_ k with stage := some .started, id := 1 }
def consumed_ (k : BitVec 8) : Binding := { armed_ k with stage := some .consumed, id := 1 }
theorem witness_Firings :
    let th := holding 0 0 0
    (bound (buffered th [(0, armed_ 1)]) 0 0 = some (armed_ 1) ∧ firingReady (buffered th [(0, armed_ 1)]) 0 0 = true ∧ KINDo (armed_ 1) ≠ 3 ∧
      (buffered th [(0, armed_ 1)]).bindAsleep 0 (armed_ 1) = []) ∧
    (let s := buffered th [(0, fired_ 1)]
     firingConsumedReady s 0 0 = true ∧ s.firingAsleep 0 (fired_ 1) = [] ∧ KINDo (fired_ 1) = 1 ∧ OUTo (fired_ 1) = some 1 ∧
     s.threads.find (fired_ 1).tid = some th ∧ th.chunk.open_ = false ∧ s.ecc = [] ∧ (∀ k, (bankOfCore s 0 k).toNat % 16 = 0) ∧
     ESZ outBuf = ESZ inBuf ∧ NINo (fired_ 1) ≤ CAP outBuf ∧ CAP inBuf ≠ 0 ∧ OwnRange s 0 0 th.sup 0 4 ∧ OwnRange s 0 0 th.sup 4096 4) ∧
    (KINDo (fired_ 3) = 3 ∧ (fired_ 3).stage = some .started ∧ (fired_ 3).status = 0 ∧ firingConsumedReady (buffered th [(0, fired_ 3)]) 0 0 = true) ∧
    (firingDoneReady (buffered th [(0, consumed_ 1)]) 0 0 = true ∧ (consumed_ 1).status = 0) ∧
    (firingDoneReady (buffered th [(0, { consumed_ 1 with status := token 6 2 })]) 0 0 = true ∧ token 6 2 ≠ 0) := by
  refine ⟨⟨rfl, by decide +kernel, by decide +kernel, by decide +kernel⟩,
    ⟨by decide +kernel, by decide +kernel, by decide +kernel, by decide +kernel, rfl, rfl, rfl, fun k => ?_, by decide +kernel, by decide +kernel,
      by decide +kernel, ⟨by decide, .inr ⟨_, .head _, by decide, by decide, by decide, by decide⟩⟩,
      ⟨by decide, .inr ⟨_, .head _, by decide, by decide, by decide, by decide⟩⟩⟩,
    ⟨by decide +kernel, rfl, rfl, by decide +kernel⟩, ⟨by decide +kernel, rfl⟩, ⟨by decide +kernel, by decide⟩⟩
  simp [bankOfCore, buffered, openCore, State.core, Tab.getD, Tab.find]

/-- Bytes 0 to 63 to 4096; from a hole of the address space; nothing. -/
def plainCopy_ (src : W64) (len : Nat) : CopyReq := ⟨1, 0, 0, 0, 3, .lin, 4096, src, len, 0, 0, 0, 0, 0, 0, 0, [], [], none⟩
noncomputable def copies (i : CopyReq → Instr) (r : CopyReq) : State := { solo (holding 4096 64 0) with pool := [i r] }
theorem witness_Copies :
    let th := holding 4096 64 0
    (solo th).Plain th ∧ th.rg = false ∧ (∀ c, ((solo th).core c).m.locks.length ≤ 20) ∧ ((solo th).core 0).m.dlog.length < 64 ∧ th.Ready [1, fieldNext 1, 3] [3] ∧ th.Ready [fieldNext 3] [] ∧
    (∀ r ∈ [plainCopy_ 0 64, plainCopy_ 655360 64, plainCopy_ 0 0], Instr.copyEngineStart r ∈ (copies .copyEngineStart r).pool ∧
      copyReady (copies .copyEngineStart r) r = true ∧ (copies .copyEngineStart r).copyAsleep r = [] ∧ r.done = none) ∧
    PlainCopy (copies .copyEngineStart (plainCopy_ 0 64)) (plainCopy_ 0 64) th ∧ names 0 655360 = none ∧
    Instr.copyCompletion (plainCopy_ 0 64) ∈ (copies .copyCompletion (plainCopy_ 0 64)).pool ∧ (plainCopy_ 0 64).kind ≠ .peer := by
  refine ⟨plain_solo _ rfl rfl rfl rfl, rfl, fun c => ?_, by decide, ⟨by decide, by decide⟩, ⟨by decide, by decide⟩, ?_,
    ⟨rfl, rfl, ⟨by decide, .inr ⟨_, .head _, by decide, by decide, by decide, by decide⟩⟩,
      ⟨by decide, .inr ⟨_, .head _, by decide, by decide, by decide, by decide⟩⟩, by decide, fun b => ?_, rfl, rfl⟩, by decide, .head _, by decide⟩
  · by_cases h : c = 0 <;> simp [solo, openCore, State.core, Tab.getD, Tab.find, h, eq_comm]
  · intro r hr
    simp only [List.mem_cons, List.not_mem_nil, or_false] at hr
    rcases hr with rfl | rfl | rfl <;> exact ⟨.head _, by decide +kernel, by decide +kernel, rfl⟩
  · simp [bankOfCore, copies, solo, plainCopy_, openCore, State.core, Tab.getD, Tab.find]

/-! ### Unmasking, ring, fabric -/

/-- Context 0 is the thread's own, in range of two records; the other is of ASID 7. -/
def ownedCtx (asid : Nat) : UmeCtx := { reg := BitVec.ofNat 1024 (2 ^ 584 + asid * 2 ^ 568 + 2 * 2 ^ 64 + 4 * 2 ^ 432) }
noncomputable def unmasking (i : Instr) (c : List UmeCtx) : State := { mapped (flying i one) with
  dies := [(0, { tlb := [tr], ume := (List.range c.length).zip c })] }
def umeOf (arg : W64) (st : W64) : UmeReq := ⟨1, 0, 0, 0, 0, 0, 3, arg, st, []⟩
/-- The block of a configuration read: `MLEN` 4 and the offsets zero. -/
theorem witness_UnmaskingEngine :
    let s := unmasking (.umeCfgBlockRead (umeOf globalA 0)) []
    let own := unmasking (.umeRoundExecution (umeOf 1 0)) [ownedCtx 0]
    (solo (at_ globalA)).Plain (at_ globalA) ∧ (at_ globalA).rg = false ∧ (at_ globalA).Ready [1] [3] ∧ (at_ globalA).full 3 = true ∧
    (solo (at_ 0)).Plain (at_ 0) ∧ ((solo (inRegion [])).Plain (inRegion []) ∧ (inRegion []).rg = true ∧ ∀ f, (inRegion []).full f = true) ∧
    names 0 globalA.toNat = some (.glob 4 65600) ∧ globalA.toNat % 64 = 0 ∧ names 0 (at_ 65).c.pc.toNat ≠ some (.glob 4 65600) ∧
    own.umeBusy 0 0 = true ∧ ctxField (ctxOf own 0 0) 584 1 = 1 ∧ ctxOwned (ctxOf own 0 0) 0 ∧ ¬ ctxOwned (ctxOf s 0 0) 0 ∧
    ¬ ctxOwned (ctxOf (unmasking (.umeRoundExecution (umeOf 1 0)) [ownedCtx 7]) 0 0) 0 ∧
    Instr.umeCfgBlockRead (umeOf globalA 0) ∈ s.pool ∧ cfgReady s (umeOf globalA 0) = true ∧ s.threads.find 0 = some one ∧
    names 0 (globalA + 64).toNat = some (.glob 4 65664) ∧ s.xlate 0 4 65600 false = .ok tr ∧ s.xlate 0 4 65664 false = .ok tr ∧
    Instr.umeRoundExecution (umeOf 1 0) ∈ own.pool ∧ roundReady own (umeOf 1 0) = true ∧
    (umeOf 1 0).arg.toNat ≤ ctxField (ctxOf own 0 0) 64 24 ∧ ctxField (ctxOf own 0 0) 64 24 < (umeOf 3 0).arg.toNat ∧
    Instr.umeRoundCompletion (umeOf 1 3) ∈ (unmasking (.umeRoundCompletion (umeOf 1 3)) []).pool ∧
    badBlock 0 ∧ ¬ badBlock (2 * 2 ^ 64 + 4 * 2 ^ 432) ∧ (umeOf globalA 0).lost = [] := by
  refine ⟨plain_solo _ rfl rfl rfl rfl, by decide, ⟨by decide, by decide⟩, by decide, plain_solo _ rfl rfl rfl rfl,
    ⟨⟨⟨rfl, .inr rfl, rfl⟩, by decide, rfl⟩, by decide, by decide +kernel⟩, by decide, by decide, by decide, by decide +kernel, by decide +kernel,
    ⟨by decide +kernel, by decide +kernel⟩, fun h => ?_, fun h => ?_, .head _, by decide +kernel, rfl, by decide, by decide +kernel, by decide +kernel,
    .head _, by decide +kernel, by decide +kernel, by decide +kernel, .head _, .inl (by decide +kernel), ?_, rfl⟩
  · exact absurd h.1 (by decide +kernel)
  · exact absurd h.2 (by decide +kernel)
  · unfold badBlock; decide +kernel

/-- A round of one record, of position 0, which is masked: it commits. -/
def roundCtx : UmeCtx := { reg := BitVec.ofNat 1024 (2 ^ 584 + 1 * 2 ^ 448 + 4 * 2 ^ 432 + 4 * 2 ^ 384 + 2 * 2 ^ 64 + 0x40000000010040 +
  0x40000000010100 * 2 ^ 128 + 0x40000000010200 * 2 ^ 192 + 0x40000000010300 * 2 ^ 256 + 0x40000000010400 * 2 ^ 320) }
noncomputable def rounding : State := { unmasking (.umeRoundExecution (umeOf 1 0)) [roundCtx] with mem := [(0x10100, 1)] }
noncomputable def roundView : RoundView := ⟨rounding, ctxOf rounding 0 0, 1, fun ea => ea % 2 ^ 52⟩
theorem round_writes : roundView.writes [0] = [(0x40000000010300, 16, 2 ^ 96), (0x40000000010100, 8, 0),
    (0x40000000010200, 8, 2 ^ 64 - 1), (0x40000000010400, 16, (2 ^ 64 - 1) * 2 ^ 64)] := by decide +kernel
theorem round_unit (w : Bool) (ea : Nat) (h : ea ∈ [0x40000000010040, 0x40000000010100, 0x40000000010200, 0x40000000010300, 0x40000000010400]) :
    RoundUnit rounding (umeOf 1 0) roundView.K w ea := by
  simp only [List.mem_cons, List.not_mem_nil, or_false] at h
  rcases h with rfl | rfl | rfl | rfl | rfl
  · exact ⟨4, 0x10040, tr, by decide, by decide +kernel, by decide +kernel, by decide +kernel, fun _ => ⟨by decide, by decide⟩⟩
  · exact ⟨4, 0x10100, tr, by decide, by decide +kernel, by decide +kernel, by decide +kernel, fun _ => ⟨by decide, by decide⟩⟩
  · exact ⟨4, 0x10200, tr, by decide, by decide +kernel, by decide +kernel, by decide +kernel, fun _ => ⟨by decide, by decide⟩⟩
  · exact ⟨4, 0x10300, tr, by decide, by decide +kernel, by decide +kernel, by decide +kernel, fun _ => ⟨by decide, by decide⟩⟩
  · exact ⟨4, 0x10400, tr, by decide, by decide +kernel, by decide +kernel, by decide +kernel, fun _ => ⟨by decide, by decide⟩⟩
theorem round_masked : ∀ p, roundView.masked p = true → p = 0 := fun p h => by
  have l : roundView.len = 4 := by decide +kernel
  have q : p < 4 := by
    unfold RoundView.masked at h; rw [l] at h; simp at h; exact h.1
  have e : ∀ q, q < 4 → roundView.masked q = true → q = 0 := by decide +kernel
  exact e p q h
theorem witness_RoundRuns : ∃ met, Instr.umeRoundExecution (umeOf 1 0) ∈ rounding.pool ∧ roundReady rounding (umeOf 1 0) = true ∧
    ctxOwned (ctxOf rounding 0 0) 0 ∧ (umeOf 1 0).arg.toNat ≤ ctxField (ctxOf rounding 0 0) 64 24 ∧ rounding.inChunk 0 1 = false ∧
    roundView.Ranks [0] ∧ roundView.Meets [0] met ∧ [0].take (roundView.commits [0] met) = [0] ∧ RoundReach roundView (umeOf 1 0) [0] := by
  classical
  let P : Nat → Prop := fun i => below 8 23 (ctxField roundView.c 480 32) (roundView.conf i) ∨ equals 8 23 (ctxField roundView.c 480 32) (roundView.conf i)
  have hv : ∀ i, roundView.valid i → i = 0 := fun i h => by
    have : i < 1 := h.1
    omega
  refine ⟨([0].filter fun i => decide (P i)).length, .head _, by decide +kernel, ⟨by decide +kernel, by decide +kernel⟩, by decide +kernel, by decide +kernel,
    ⟨List.pairwise_singleton .., fun i => ⟨fun h => ?_, fun h => ?_⟩⟩, ⟨_, List.filter_sublist, rfl, fun i hi => by simp [List.mem_filter, hi, P]⟩, ?_, ?_⟩
  · obtain rfl : i = 0 := by simpa using h
    exact ⟨⟨by decide +kernel, by decide +kernel⟩, fun j hj _ hn => absurd (hv j hj) hn⟩
  · simp [hv i h.1]
  · have h : ∀ t, roundView.commits [0] t = 1 := fun t => by
      unfold RoundView.commits
      rw [show ctxField roundView.c 528 1 = 0 by decide +kernel, show ctxField roundView.c 464 16 = 0 by decide +kernel,
        show roundView.M = 1 by decide +kernel, show ctxField roundView.c 448 16 = 1 by decide +kernel, show ctxField roundView.c 416 16 = 0 by decide +kernel]
      rfl
    rw [h]; rfl
  · refine ⟨rfl, rfl, ⟨rfl, by decide +kernel, by decide +kernel⟩, by decide +kernel, fun i hi => ?_, fun i hi => ?_, fun q hq h => ?_, fun w hw => ?_, ?_⟩
    · have : i < 1 := hi
      obtain rfl : i = 0 := by omega
      exact round_unit _ _ (by decide +kernel)
    · have h1 : (roundView.len + 63) / 64 = 1 := by decide +kernel
      obtain rfl : i = 0 := by omega
      exact round_unit _ _ (by decide +kernel)
    · have h1 : roundView.len = 4 := by decide +kernel
      have e : ∀ q, q < 4 → roundView.marks ([0].map roundView.pos) q ≠ 0 → q = 0 := by decide +kernel
      obtain rfl := e q (by omega) h
      exact round_unit _ _ (by decide +kernel)
    · rw [round_writes] at hw
      simp only [List.mem_cons, List.not_mem_nil, or_false] at hw
      rcases hw with rfl | rfl | rfl | rfl <;> exact round_unit _ _ (by decide)
    · rw [round_writes]; decide +kernel

/-- Register 1 names bobbin 1; a name of the thread; the station's queue and four buffers. -/
def ringing (h : List HoldName) : Thread := { (supervisor_ 1 5 0) with holds := (List.range h.length).zip h }
def stationed (th : Thread) (q : List RingOp) (u : Bool) : State := { solo th with
  cores := [(0, { openCore with r := { queue := q, bufs := (List.range 4).map fun k => (k, ({ used := u, lost := false } : HoldBuf)) } })] }
theorem ring_ready (h : List HoldName) (u : Bool) (hl : ∀ k : BitVec 2, (nameOf (ringing h) k).st ≠ .lost) :
    RingReady (stationed (ringing h) [] u) (ringing h) :=
  ⟨⟨⟨rfl, .inr rfl, rfl⟩, by show ((0#32) ||| _).getLsbD 16 = false; decide, rfl⟩, by show ((0#32) ||| _).getLsbD 19 = false; decide,
    by show ((0#32) ||| _).getLsbD 14 = false; decide, by show ((0#32) ||| _).getLsbD 20 = false; decide, hl, by show 0 < 16; decide⟩
theorem witness_RingWords :
    let lost := ringing [⟨.lost, 0, 1, 2⟩]
    let holds := ringing [⟨.held, 2, 1, 1⟩]
    let waits : Thread := { ringing [⟨.waiting, 0, 1, 1⟩] with mo := { waitId := 5, acquired := true } }
    ((stationed lost [] false).Plain lost ∧ lost.rg = false ∧ lost.mob = false ∧ (∀ f, lost.full f = true) ∧ (nameOf lost 0).st = .lost ∧
      lost.mo.waitId = 0) ∧
    RingReady (stationed (ringing []) [] false) (ringing []) ∧ (ringing []).Ready [1] [3] ∧ (ringing []).Ready [1, 2] [] ∧
    inRingWindow (stationed (ringing []) [] false) (ringing []) 1 ∧ ¬ inRingWindow (stationed (ringing []) [] false) (ringing []) 4096 ∧
    (nameOf (ringing []) 0).st = .empty ∧ (∀ i, i < 4 → (bufOf (stationed (ringing []) [] true) 0 i).used = true) ∧
    (bufOf (stationed (ringing []) [] false) 0 0).used = false ∧ waits.mo.waitId ≠ 0 ∧ waits.mo.syncErr = none ∧ waits.mo.acquired = true ∧
    RingReady (stationed holds [] true) holds ∧ (nameOf holds 0).st = .held ∧ holds.full 3 = true ∧ holds.Ready [1] [] := by
  refine ⟨⟨⟨⟨rfl, .inr rfl, rfl⟩, by decide, rfl⟩, by decide, by decide, by decide +kernel, rfl, rfl⟩, ring_ready _ _ (by decide), ⟨by decide, by decide⟩,
    ⟨by decide, by decide⟩, ⟨by decide, by decide, .inl (by decide)⟩, fun h => absurd h.1 (by decide), rfl, by decide +kernel, rfl, by decide, rfl, rfl,
    ring_ready _ _ (by decide), rfl, by decide, ⟨by decide, by decide⟩⟩

def peekOp (since : Nat) : RingOp := ⟨1, 0, 1, .peek 3 0, since, 0⟩
/-- Ring cycle 4095 of bobbin 1, whose metadata are these. -/
def passing (q : List RingOp) (m : W64) : State := { stationed (ringing []) q false with cycle := 1023, ring := { bob := [(1, { meta_ := m })] } }
theorem witness_RingSteps :
    (ringDue (passing [peekOp 0] 0) (.stationPassage 1 0) = some 8191 ∧ stationQueue (passing [peekOp 0] 0) 0 = [peekOp 0] ∧ 4 * 0 + 64 ≤ 8191 / 2 ∧
      (passing [peekOp 0] 0).threads.find 0 = some (ringing []) ∧ CLAIM (bobbin (passing [peekOp 0] 0) 1) = false) ∧
    (ringDue (passing [peekOp 1020] 0x10_0000_0000_0000) (.stationPassage 1 0) = some 8191 ∧ 8191 / 2 < 4 * 1020 + 64) ∧
    ringDue (passing [] 0x8_0000_0000_0000) (.seamCrossing 1) = some 8190 ∧
    (HELD (bobbin (passing [] 0x4_0001_0000_0000) 1) = true ∧ metaOf (bobbin (passing [] 0x4_0001_0000_0000) 1) 44 7 = 64) := by
  refine ⟨⟨by decide +kernel, rfl, by decide, rfl, by decide⟩, ⟨by decide +kernel, by decide⟩, by decide +kernel, by decide, by decide⟩

/-- A package of id 1 whose port 3 leads to package 7. -/
def linked (p : Port) : Outer := { pkgid := 0x10001, route := [(7, 0x3)], ports := [(3, p)] }
def upPort : Port := { up := true, version := 3 }
theorem versions_linked (p : Port) (h : p.version ≤ 3) (s : State) (hs : s.out = linked p) : Versions s := by
  intro n
  have : s.port n = if 3 = n then p else {} := by
    simp [State.port, hs, linked, Tab.getD, Tab.find]
    by_cases e : 3 = n <;> simp [e]
  rw [this]; split
  · exact h
  · decide
noncomputable def away : PostReq := { sentPost with fabric := some (7, 3), d := none }
theorem crc_step {f : BitVec 2048} {a n m : Nat} {c d e : W32}
    (h : (List.range' a n).foldl (fun c i => crcByte c (f.extractLsb' (8 * i) 8)) c = d)
    (k : (List.range' (a + n) m).foldl (fun c i => crcByte c (f.extractLsb' (8 * i) 8)) d = e) :
    (List.range' a (n + m)).foldl (fun c i => crcByte c (f.extractLsb' (8 * i) 8)) c = e := by
  rw [← List.range'_append_1, List.foldl_append, h, k]
theorem crc_all {f : BitVec 2048} {v : W32} (h : (List.range' 0 252).foldl (fun c i => crcByte c (f.extractLsb' (8 * i) 8)) 0xFFFFFFFF = ~~~ v) :
    flitCrc f 252 = v := by
  rw [flitCrc, List.range_eq_range', h]; simp
theorem good_of {ver : Nat} {f : BitVec 2048} {v : W32} (h : flitCrc f 252 = v) (k : (flitGet f 252 4 == v.toNat && decide (flitKind f < 4) &&
    decide (flitGet f 2 2 < 4096) && decide (flitGet f 8 1 < 4) && decide (flitGet f 10 2 < 16) &&
    (decide (3 ≤ ver) || (decide (flitGet f 4 2 < 4096) && decide (flitGet f 6 2 < 4096))) &&
    (if flitKind f = 1 then decide (1 ≤ flitGet f 9 1) && decide (flitGet f 9 1 ≤ 240) else flitGet f 9 1 == 0)) = true) : flitGood ver f = true := by
  rw [flitGood, h, k]
/-- Data flits with sequence numbers 0 and 5, an acknowledgement of the first, an idle flit and a request for a replay; their
check sums, twelve bytes at a time. -/
def dataFlit : BitVec 2048 := BitVec.ofNat 2048 (0x340020007000100001000 + 0xD25BD86F * 2 ^ 2016)
theorem dataFlit_crc : flitCrc dataFlit 252 = 0xD25BD86F :=
  crc_all <|
  crc_step (a := 0) (n := 12) (m := 240) (d := 0x0ACDDBF5) (by decide +kernel) <|
  crc_step (a := 12) (n := 12) (m := 228) (d := 0xE83FF974) (by decide +kernel) <|
  crc_step (a := 24) (n := 12) (m := 216) (d := 0xCDD41924) (by decide +kernel) <|
  crc_step (a := 36) (n := 12) (m := 204) (d := 0xD1FED1E5) (by decide +kernel) <|
  crc_step (a := 48) (n := 12) (m := 192) (d := 0x131EAAD3) (by decide +kernel) <|
  crc_step (a := 60) (n := 12) (m := 180) (d := 0x94DACA3F) (by decide +kernel) <|
  crc_step (a := 72) (n := 12) (m := 168) (d := 0xFAF1D133) (by decide +kernel) <|
  crc_step (a := 84) (n := 12) (m := 156) (d := 0x51307D2C) (by decide +kernel) <|
  crc_step (a := 96) (n := 12) (m := 144) (d := 0x25575E80) (by decide +kernel) <|
  crc_step (a := 108) (n := 12) (m := 132) (d := 0xD9A1C31F) (by decide +kernel) <|
  crc_step (a := 120) (n := 12) (m := 120) (d := 0xB8F9AE71) (by decide +kernel) <|
  crc_step (a := 132) (n := 12) (m := 108) (d := 0x03019903) (by decide +kernel) <|
  crc_step (a := 144) (n := 12) (m := 96) (d := 0x038B4ADA) (by decide +kernel) <|
  crc_step (a := 156) (n := 12) (m := 84) (d := 0xA50452D5) (by decide +kernel) <|
  crc_step (a := 168) (n := 12) (m := 72) (d := 0x431541C0) (by decide +kernel) <|
  crc_step (a := 180) (n := 12) (m := 60) (d := 0x61FA6B51) (by decide +kernel) <|
  crc_step (a := 192) (n := 12) (m := 48) (d := 0x985D8EA8) (by decide +kernel) <|
  crc_step (a := 204) (n := 12) (m := 36) (d := 0x66CA31A1) (by decide +kernel) <|
  crc_step (a := 216) (n := 12) (m := 24) (d := 0x4A530AED) (by decide +kernel) <|
  crc_step (a := 228) (n := 12) (m := 12) (d := 0x2D0AEE50) (by decide +kernel) <|
  by decide +kernel
def laterFlit : BitVec 2048 := BitVec.ofNat 2048 (0x340020007000100001005 + 0xDE45C180 * 2 ^ 2016)
theorem laterFlit_crc : flitCrc laterFlit 252 = 0xDE45C180 :=
  crc_all <|
  crc_step (a := 0) (n := 12) (m := 240) (d := 0x926EACE5) (by decide +kernel) <|
  crc_step (a := 12) (n := 12) (m := 228) (d := 0x001C020C) (by decide +kernel) <|
  crc_step (a := 24) (n := 12) (m := 216) (d := 0x60F49526) (by decide +kernel) <|
  crc_step (a := 36) (n := 12) (m := 204) (d := 0x1A888E49) (by decide +kernel) <|
  crc_step (a := 48) (n := 12) (m := 192) (d := 0x446112E2) (by decide +kernel) <|
  crc_step (a := 60) (n := 12) (m := 180) (d := 0xEF6FDD38) (by decide +kernel) <|
  crc_step (a := 72) (n := 12) (m := 168) (d := 0x138DF481) (by decide +kernel) <|
  crc_step (a := 84) (n := 12) (m := 156) (d := 0x44CECB64) (by decide +kernel) <|
  crc_step (a := 96) (n := 12) (m := 144) (d := 0x4CD4905A) (by decide +kernel) <|
  crc_step (a := 108) (n := 12) (m := 132) (d := 0x61079C19) (by decide +kernel) <|
  crc_step (a := 120) (n := 12) (m := 120) (d := 0xEB783A60) (by decide +kernel) <|
  crc_step (a := 132) (n := 12) (m := 108) (d := 0xBF6AA5CA) (by decide +kernel) <|
  crc_step (a := 144) (n := 12) (m := 96) (d := 0x6BA1BD8E) (by decide +kernel) <|
  crc_step (a := 156) (n := 12) (m := 84) (d := 0x8545F1EC) (by decide +kernel) <|
  crc_step (a := 168) (n := 12) (m := 72) (d := 0x51837F21) (by decide +kernel) <|
  crc_step (a := 180) (n := 12) (m := 60) (d := 0x8655D695) (by decide +kernel) <|
  crc_step (a := 192) (n := 12) (m := 48) (d := 0x59E4E33D) (by decide +kernel) <|
  crc_step (a := 204) (n := 12) (m := 36) (d := 0xD4A9A86A) (by decide +kernel) <|
  crc_step (a := 216) (n := 12) (m := 24) (d := 0x957DEE4A) (by decide +kernel) <|
  crc_step (a := 228) (n := 12) (m := 12) (d := 0x2CA2DE69) (by decide +kernel) <|
  by decide +kernel
def ackFlit : BitVec 2048 := BitVec.ofNat 2048 (0x300000007000100003000 + 0x2746EB72 * 2 ^ 2016)
theorem ackFlit_crc : flitCrc ackFlit 252 = 0x2746EB72 :=
  crc_all <|
  crc_step (a := 0) (n := 12) (m := 240) (d := 0x56C21169) (by decide +kernel) <|
  crc_step (a := 12) (n := 12) (m := 228) (d := 0xA781ABF2) (by decide +kernel) <|
  crc_step (a := 24) (n := 12) (m := 216) (d := 0xF3E8C09D) (by decide +kernel) <|
  crc_step (a := 36) (n := 12) (m := 204) (d := 0xD8971D58) (by decide +kernel) <|
  crc_step (a := 48) (n := 12) (m := 192) (d := 0xD3BDD58F) (by decide +kernel) <|
  crc_step (a := 60) (n := 12) (m := 180) (d := 0x3AD9C91D) (by decide +kernel) <|
  crc_step (a := 72) (n := 12) (m := 168) (d := 0x50481028) (by decide +kernel) <|
  crc_step (a := 84) (n := 12) (m := 156) (d := 0x4FF46FEF) (by decide +kernel) <|
  crc_step (a := 96) (n := 12) (m := 144) (d := 0xE1A11E52) (by decide +kernel) <|
  crc_step (a := 108) (n := 12) (m := 132) (d := 0x4717DF19) (by decide +kernel) <|
  crc_step (a := 120) (n := 12) (m := 120) (d := 0x72973F4F) (by decide +kernel) <|
  crc_step (a := 132) (n := 12) (m := 108) (d := 0x0447EF98) (by decide +kernel) <|
  crc_step (a := 144) (n := 12) (m := 96) (d := 0xFF94EE56) (by decide +kernel) <|
  crc_step (a := 156) (n := 12) (m := 84) (d := 0x270A5395) (by decide +kernel) <|
  crc_step (a := 168) (n := 12) (m := 72) (d := 0xE492318A) (by decide +kernel) <|
  crc_step (a := 180) (n := 12) (m := 60) (d := 0xC1909B6E) (by decide +kernel) <|
  crc_step (a := 192) (n := 12) (m := 48) (d := 0x554256E4) (by decide +kernel) <|
  crc_step (a := 204) (n := 12) (m := 36) (d := 0x7912FC54) (by decide +kernel) <|
  crc_step (a := 216) (n := 12) (m := 24) (d := 0xC3FFB083) (by decide +kernel) <|
  crc_step (a := 228) (n := 12) (m := 12) (d := 0x28DF2B0A) (by decide +kernel) <|
  by decide +kernel
def idleFlit : BitVec 2048 := BitVec.ofNat 2048 (0x300000007000100000000 + 0x58C7DD98 * 2 ^ 2016)
theorem idleFlit_crc : flitCrc idleFlit 252 = 0x58C7DD98 :=
  crc_all <|
  crc_step (a := 0) (n := 12) (m := 240) (d := 0x7EA85A75) (by decide +kernel) <|
  crc_step (a := 12) (n := 12) (m := 228) (d := 0xA4162126) (by decide +kernel) <|
  crc_step (a := 24) (n := 12) (m := 216) (d := 0x23E60C40) (by decide +kernel) <|
  crc_step (a := 36) (n := 12) (m := 204) (d := 0xBBF9E667) (by decide +kernel) <|
  crc_step (a := 48) (n := 12) (m := 192) (d := 0xB5221570) (by decide +kernel) <|
  crc_step (a := 60) (n := 12) (m := 180) (d := 0xB2B0BF42) (by decide +kernel) <|
  crc_step (a := 72) (n := 12) (m := 168) (d := 0xF84FC008) (by decide +kernel) <|
  crc_step (a := 84) (n := 12) (m := 156) (d := 0xE53A6721) (by decide +kernel) <|
  crc_step (a := 96) (n := 12) (m := 144) (d := 0xF50BC279) (by decide +kernel) <|
  crc_step (a := 108) (n := 12) (m := 132) (d := 0x64A753F6) (by decide +kernel) <|
  crc_step (a := 120) (n := 12) (m := 120) (d := 0x00E731D1) (by decide +kernel) <|
  crc_step (a := 132) (n := 12) (m := 108) (d := 0xFBC3FB57) (by decide +kernel) <|
  crc_step (a := 144) (n := 12) (m := 96) (d := 0x652ABB4E) (by decide +kernel) <|
  crc_step (a := 156) (n := 12) (m := 84) (d := 0xEB73CADB) (by decide +kernel) <|
  crc_step (a := 168) (n := 12) (m := 72) (d := 0xCB35C4BB) (by decide +kernel) <|
  crc_step (a := 180) (n := 12) (m := 60) (d := 0xA04476F1) (by decide +kernel) <|
  crc_step (a := 192) (n := 12) (m := 48) (d := 0xBA4A1FFD) (by decide +kernel) <|
  crc_step (a := 204) (n := 12) (m := 36) (d := 0xB3FE029D) (by decide +kernel) <|
  crc_step (a := 216) (n := 12) (m := 24) (d := 0xD5707A41) (by decide +kernel) <|
  crc_step (a := 228) (n := 12) (m := 12) (d := 0x1F927006) (by decide +kernel) <|
  by decide +kernel
def againFlit : BitVec 2048 := BitVec.ofNat 2048 (0x300000007000100092000 + 0x52004C2A * 2 ^ 2016)
theorem againFlit_crc : flitCrc againFlit 252 = 0x52004C2A :=
  crc_all <|
  crc_step (a := 0) (n := 12) (m := 240) (d := 0x0421FE68) (by decide +kernel) <|
  crc_step (a := 12) (n := 12) (m := 228) (d := 0x08986F7E) (by decide +kernel) <|
  crc_step (a := 24) (n := 12) (m := 216) (d := 0x67F35A11) (by decide +kernel) <|
  crc_step (a := 36) (n := 12) (m := 204) (d := 0xCED5FFC4) (by decide +kernel) <|
  crc_step (a := 48) (n := 12) (m := 192) (d := 0x80A4EC12) (by decide +kernel) <|
  crc_step (a := 60) (n := 12) (m := 180) (d := 0x0BEAE8E7) (by decide +kernel) <|
  crc_step (a := 72) (n := 12) (m := 168) (d := 0x036EABE0) (by decide +kernel) <|
  crc_step (a := 84) (n := 12) (m := 156) (d := 0x6C6A36E2) (by decide +kernel) <|
  crc_step (a := 96) (n := 12) (m := 144) (d := 0x18E3FA21) (by decide +kernel) <|
  crc_step (a := 108) (n := 12) (m := 132) (d := 0x2335FE64) (by decide +kernel) <|
  crc_step (a := 120) (n := 12) (m := 120) (d := 0xC547EC07) (by decide +kernel) <|
  crc_step (a := 132) (n := 12) (m := 108) (d := 0xD7818231) (by decide +kernel) <|
  crc_step (a := 144) (n := 12) (m := 96) (d := 0xD9A0B8FA) (by decide +kernel) <|
  crc_step (a := 156) (n := 12) (m := 84) (d := 0x5A0E6400) (by decide +kernel) <|
  crc_step (a := 168) (n := 12) (m := 72) (d := 0x19B81EE1) (by decide +kernel) <|
  crc_step (a := 180) (n := 12) (m := 60) (d := 0xB2F29FAD) (by decide +kernel) <|
  crc_step (a := 192) (n := 12) (m := 48) (d := 0xDE9D04DB) (by decide +kernel) <|
  crc_step (a := 204) (n := 12) (m := 36) (d := 0x75677B92) (by decide +kernel) <|
  crc_step (a := 216) (n := 12) (m := 24) (d := 0xD4E850A7) (by decide +kernel) <|
  crc_step (a := 228) (n := 12) (m := 12) (d := 0x190EDD03) (by decide +kernel) <|
  by decide +kernel

def answerFlit : BitVec 2048 := BitVec.ofNat 2048 (0x2000030D010007000100001000 + 0x51011A58 * 2 ^ 2016)
theorem answerFlit_crc : flitCrc answerFlit 252 = 0x51011A58 :=
  crc_all <|
  crc_step (a := 0) (n := 12) (m := 240) (d := 0x603A6A88) (by decide +kernel) <|
  crc_step (a := 12) (n := 12) (m := 228) (d := 0xEF339F0F) (by decide +kernel) <|
  crc_step (a := 24) (n := 12) (m := 216) (d := 0x5E30EDE2) (by decide +kernel) <|
  crc_step (a := 36) (n := 12) (m := 204) (d := 0x9A6C6B0B) (by decide +kernel) <|
  crc_step (a := 48) (n := 12) (m := 192) (d := 0x9607992C) (by decide +kernel) <|
  crc_step (a := 60) (n := 12) (m := 180) (d := 0xE4327965) (by decide +kernel) <|
  crc_step (a := 72) (n := 12) (m := 168) (d := 0x3E42F58C) (by decide +kernel) <|
  crc_step (a := 84) (n := 12) (m := 156) (d := 0xE1E52592) (by decide +kernel) <|
  crc_step (a := 96) (n := 12) (m := 144) (d := 0x8BA96C8B) (by decide +kernel) <|
  crc_step (a := 108) (n := 12) (m := 132) (d := 0xFAD67098) (by decide +kernel) <|
  crc_step (a := 120) (n := 12) (m := 120) (d := 0xC526101B) (by decide +kernel) <|
  crc_step (a := 132) (n := 12) (m := 108) (d := 0x636FB8A9) (by decide +kernel) <|
  crc_step (a := 144) (n := 12) (m := 96) (d := 0x4515F3D3) (by decide +kernel) <|
  crc_step (a := 156) (n := 12) (m := 84) (d := 0x6E81EA95) (by decide +kernel) <|
  crc_step (a := 168) (n := 12) (m := 72) (d := 0xAC803626) (by decide +kernel) <|
  crc_step (a := 180) (n := 12) (m := 60) (d := 0xD34687BE) (by decide +kernel) <|
  crc_step (a := 192) (n := 12) (m := 48) (d := 0x7D2BA0FD) (by decide +kernel) <|
  crc_step (a := 204) (n := 12) (m := 36) (d := 0x9D0E8917) (by decide +kernel) <|
  crc_step (a := 216) (n := 12) (m := 24) (d := 0x513F9AB3) (by decide +kernel) <|
  crc_step (a := 228) (n := 12) (m := 12) (d := 0xC419AE44) (by decide +kernel) <|
  by decide +kernel
def copyFlit : BitVec 2048 := BitVec.ofNat 2048 (0x10000000500C300000040000000010040000311000007000100001000 + 0x9F40D727 * 2 ^ 2016)
theorem copyFlit_crc : flitCrc copyFlit 252 = 0x9F40D727 :=
  crc_all <|
  crc_step (a := 0) (n := 12) (m := 240) (d := 0xCDBA57F9) (by decide +kernel) <|
  crc_step (a := 12) (n := 12) (m := 228) (d := 0x68D3B1E2) (by decide +kernel) <|
  crc_step (a := 24) (n := 12) (m := 216) (d := 0x3D3F5C4C) (by decide +kernel) <|
  crc_step (a := 36) (n := 12) (m := 204) (d := 0x014B4BA2) (by decide +kernel) <|
  crc_step (a := 48) (n := 12) (m := 192) (d := 0x10855C38) (by decide +kernel) <|
  crc_step (a := 60) (n := 12) (m := 180) (d := 0xCC6D8F2D) (by decide +kernel) <|
  crc_step (a := 72) (n := 12) (m := 168) (d := 0x186D64D3) (by decide +kernel) <|
  crc_step (a := 84) (n := 12) (m := 156) (d := 0xF82E6D0F) (by decide +kernel) <|
  crc_step (a := 96) (n := 12) (m := 144) (d := 0x956E16AF) (by decide +kernel) <|
  crc_step (a := 108) (n := 12) (m := 132) (d := 0x030D1653) (by decide +kernel) <|
  crc_step (a := 120) (n := 12) (m := 120) (d := 0xC1D53101) (by decide +kernel) <|
  crc_step (a := 132) (n := 12) (m := 108) (d := 0x64C58BB5) (by decide +kernel) <|
  crc_step (a := 144) (n := 12) (m := 96) (d := 0x27948962) (by decide +kernel) <|
  crc_step (a := 156) (n := 12) (m := 84) (d := 0xE6153E74) (by decide +kernel) <|
  crc_step (a := 168) (n := 12) (m := 72) (d := 0xD5FB685C) (by decide +kernel) <|
  crc_step (a := 180) (n := 12) (m := 60) (d := 0x655A13E8) (by decide +kernel) <|
  crc_step (a := 192) (n := 12) (m := 48) (d := 0xC14F05B6) (by decide +kernel) <|
  crc_step (a := 204) (n := 12) (m := 36) (d := 0x2A891B60) (by decide +kernel) <|
  crc_step (a := 216) (n := 12) (m := 24) (d := 0xA84A0571) (by decide +kernel) <|
  crc_step (a := 228) (n := 12) (m := 12) (d := 0x185CD644) (by decide +kernel) <|
  by decide +kernel

theorem is_error {α β : Type} {x : Except α β} (h : (match x with | .error _ => true | .ok _ => false) = true) : ∃ e, x = .error e := by
  cases x with
  | error e => exact ⟨e, rfl⟩
  | ok a => cases h
theorem witness_FabricMessages :
    let s : State := { post with out := linked upPort }
    Usable s 7 3 ∧ s.Plain posting ∧ posting.rg = false ∧ posting.region = none ∧ posting.chunk.held = [] ∧ Versions s ∧ s.ecc = [] ∧
    ((solo (inRegion [])).Plain (inRegion []) ∧ (inRegion []).rg = true ∧ ∀ f, (inRegion []).full f = true) ∧
    posting.Ready [1, 2] [3] ∧ posting.Ready [2] [3] ∧ LocalAt s posting (posting.src 2) true 128 ∧ LocalAt s posting (posting.src 2) false 128 ∧
    kindOf (BitVec.ofNat 512 (s.rd (spKey 0 128) 64)) = 32 ∧ s.outstanding 0 posting < 32 ∧ s.peerCopyOpen 0 7 = false ∧
    ReleaseDone { s with out := linked upPort } (over_ 3 128) 3 ∧ s.upPorts 7 = [3] ∧ s.upPorts 6 = [] ∧
    firstFabric posting (s.core 0).k.mailbox = none ∧
    firstFabric posting [{ prio := true, asid := 0, bytes := 5, pkg := some 7 }] = some { prio := true, asid := 0, bytes := 5, pkg := some 7 } ∧
    s.olderAccess 0 0 128 64 = none ∧ s.carries (s.port 3) = true ∧ s.coreMode 0 ≠ .retired ∧ (s.core 0).k.mailbox.length < 12 ∧
    away.fabric = some (7, 3) ∧ away.d = none ∧ s.out.tray = .serving ∧ s.out.pkgid.getLsbD 16 = true ∧
    (mapped s).xlate 0 4 65600 true = .ok tr ∧ tr.entry.getLsbD 3 = false ∧ names 0 globalA.toNat = some (.glob 4 65600) ∧
    (∃ e, s.xlate 0 4 65600 true = .error e) ∧
    (let t : State := { s with pool := [.mailboxDelivery away] }
     Instr.mailboxDelivery away ∈ t.pool ∧ olderPost t away = false) := by
  refine ⟨⟨by decide, ⟨0, by decide, by decide +kernel⟩, by decide, rfl, .inl (by decide)⟩, ⟨⟨rfl, .inr rfl, rfl⟩, rfl, rfl⟩, rfl, rfl, rfl,
    versions_linked _ (by decide) _ rfl, rfl, ⟨⟨⟨rfl, .inr rfl, rfl⟩, by decide, rfl⟩, by decide, by decide +kernel⟩, ⟨by decide, by decide⟩,
    ⟨by decide, by decide⟩, ⟨by decide, by decide, by decide +kernel, by decide +kernel⟩, ⟨by decide, by decide, by decide +kernel, by decide +kernel⟩,
    by decide +kernel, by decide +kernel, by decide +kernel, ⟨_, rfl, rfl, by decide +kernel⟩, by decide +kernel, by decide +kernel, by decide +kernel,
    by decide +kernel, by decide +kernel, by decide +kernel, by decide +kernel, by decide +kernel, rfl, rfl, rfl, by decide, by decide +kernel,
    by decide, by decide, is_error (by decide +kernel), .head _, by decide +kernel⟩
/-- Memory as in `post`, the page of `globalA` mapped; port 3 has passed a step upward. -/
noncomputable def upward (i : Instr) (failed : List (W16 × Nat)) (tray : TrayState) : State := { mapped post with
  out := { linked { upPort with inbox := [i], failed := failed } with tray := tray } }
/-- The one flit of a copy of package 7; the answer to a message of this package. -/
def onePart (ea : W64) (first : Bool) : Instr := .copyPeerArrival 7 0 ea [1] 3 ⟨3, 5, first, true⟩
noncomputable def answered_ : PostReq := { away with answer := some 0 }
theorem talks_linked (i : Instr) (l : List (W16 × Nat)) (t : TrayState) : Talks (upward i l t) 3 7 :=
  ⟨rfl, by show (0x10001#64).getLsbD 16 = true; decide, .inl rfl, rfl, by show 0 < 64; decide⟩
theorem witness_FabricArrivals :
    let m := Instr.fabricMessageArrival away
    (away.dst < 512 ∧ ((upward m [] .serving).port 3).next true = some m ∧ Talks (upward m [] .serving) 3 (7 : W16).toNat ∧
      (upward m [] .quiesced).out.tray ≠ .serving ∧ (upward m [] .serving).coreMode away.dst ≠ .retired ∧
      ((upward m [] .serving).core away.dst).k.mailbox.length < 12) ∧
    ((arriving .fabricMessageArrival 0 .retired).coreMode away.dst = .retired ∧
      12 ≤ ((arriving .fabricMessageArrival 16 .running).core away.dst).k.mailbox.length ∧
      away.wake = some 0 ∧ (arriving .fabricMessageArrival 0 .running).threads.find 0 = some { one with run := .parked .supervisor }) ∧
    (∀ ea first tray, ((upward (onePart ea first) [] tray).port 3).next false = some (onePart ea first) ∧
      (upward (onePart ea first) [] tray).isHeld (onePart ea first) = false ∧ ((7 : W16), 5) ∉ ((upward (onePart ea first) [] tray).port 3).failed) ∧
    ((7 : W16), 5) ∈ ((upward (onePart globalA false) [(7, 5)] .serving).port 3).failed ∧
    (globalA.toNat % 64 + [(1 : W8)].length ≤ 64 ∧ names 0 globalA.toNat = some (.glob 4 65600) ∧ (∀ k va, names 0 (0x40 : W64).toNat ≠ some (.glob k va)) ∧
      (upward (onePart globalA true) [] .serving).xlate 0 4 65600 true = .ok tr ∧
      ((upward (onePart globalA true) [] .serving).die (homeDie 4 65600)).tlbHit 0 4 65600 = some tr ∧
      ({ upward (onePart globalA true) [] .serving with dies := [(0, { failed := true })] } : State).die (homeDie 4 65600) = { failed := true } ∧
      (∃ e, ({ upward (onePart globalA true) [] .serving with dies := [] } : State).xlate 0 4 65600 true = .error e)) ∧
    (answered_.fabric.isSome = true ∧ answered_.answer = some 0 ∧
      olderPost { post with pool := [.mailboxDelivery answered_] } answered_ = false ∧
      -- the only one of its kind, its port not the one that leads nowhere
      ∀ q a, Instr.mailboxDelivery q ∈ [Instr.mailboxDelivery answered_] → q.fabric ≠ some (a, 31)) := by
  refine ⟨⟨by decide, rfl, talks_linked _ _ _, by decide, by decide +kernel, by decide +kernel⟩,
    ⟨by decide +kernel, by decide +kernel, rfl, rfl⟩, fun ea first tray => ⟨rfl, rfl, by simp [upward, linked, upPort, State.port, Tab.getD, Tab.find]⟩,
    .head _, ⟨by decide, by decide, fun k va h => ?_, by decide +kernel, by decide +kernel, rfl, is_error (by decide +kernel)⟩,
    ⟨rfl, rfl, by decide +kernel, fun q a h => ?_⟩⟩
  · rw [show names 0 (0x40 : W64).toNat = some (.sp 0 64) by decide] at h
    cases h
  · simp only [List.mem_cons, List.not_mem_nil, or_false, Instr.mailboxDelivery.injEq] at h
    subst h
    simp [answered_, away]
theorem witness_LinksAndFlits :
    let s : State := { out := linked upPort }
    Versions s ∧ (s.port 3).up = true ∧ s.carries (s.port 3) = true ∧ flitGood 3 dataFlit = true ∧ flitKind dataFlit = 1 ∧
    flitSeq dataFlit = (s.port 3).recvSeq.toNat ∧ flitGood 3 laterFlit = true ∧ flitSeq laterFlit ≠ (s.port 3).recvSeq.toNat ∧
    (1 : BitVec 8) ≠ 0 ∧ flitGood 3 ackFlit = true ∧ flitKind ackFlit = 3 ∧
    flitGood 3 idleFlit = true ∧ flitKind idleFlit = 0 ∧ flitGood 3 againFlit = true ∧ flitKind againFlit = 2 ∧
    ({ upPort with replay := [dataFlit] } : Port).replay[0]? = some dataFlit ∧ flitSeq dataFlit = flitAck ackFlit ∧
    16 ≤ ({ upPort with retries := [(2, 16)] } : Port).retries.getD 2 0 ∧ upPort.spare = none ∧ (s.port 4).up = false ∧ (s.port 4).down = false ∧
    (s.out.pkgid.getLsbD 16 = true ∧ 3 ≤ (s.port 3).version ∧ (s.port 3).inbox = [] ∧ (s.port 3).asked = false) ∧
    ¬ (({ out := { linked upPort with pkgid := 0 } } : State).out.pkgid.getLsbD 16 = true) ∧ 2 ≤ dataFlit.toNat / 2 ^ 64 % 2 ^ 8 ∧
    (flitGood 3 answerFlit = true ∧ flitKind answerFlit = 1 ∧ flitSeq answerFlit = 0 ∧ answerFlit.toNat / 2 ^ 64 % 2 ^ 8 = 1 ∧
      away.answer = none ∧ away.id % 2 ^ 32 = answerFlit.toNat / 2 ^ 96 / 2 ^ 64 % 2 ^ 32 ∧ answerFlit.toNat / 2 ^ 96 / 2 ^ 96 % 2 ^ 8 ≠ 1) ∧
    (flitGood 3 copyFlit = true ∧ flitKind copyFlit = 1 ∧ flitSeq copyFlit = 0 ∧ copyFlit.toNat / 2 ^ 64 % 2 ^ 8 = 0) ∧
    -- a copy of this package whose flits went over port 3
    ({ plainCopy_ 0 64 with kind := .peer, lines := [3] } : CopyReq).lines = [3] := by
  refine ⟨versions_linked _ (by decide) _ rfl, rfl, by decide +kernel, good_of dataFlit_crc (by decide +kernel), by decide +kernel, by decide +kernel,
    good_of laterFlit_crc (by decide +kernel), by decide +kernel, by decide, good_of ackFlit_crc (by decide +kernel), by decide +kernel,
    good_of idleFlit_crc (by decide +kernel), by decide +kernel, good_of againFlit_crc (by decide +kernel), by decide +kernel, rfl,
    by decide +kernel, by decide, rfl, rfl, rfl, ⟨rfl, by decide, rfl, rfl⟩, by decide, by decide +kernel,
    ⟨good_of answerFlit_crc (by decide +kernel), by decide +kernel, by decide +kernel, by decide +kernel, rfl, by decide +kernel, by decide +kernel⟩,
    ⟨good_of copyFlit_crc (by decide +kernel), by decide +kernel, by decide +kernel, by decide +kernel⟩, rfl⟩
/-- R439: what the flit of a copy asks for, as the model lays it out (log entry 87). -/
theorem test_copy_flit : arrivalOf 3 copyFlit = onePart globalA true := by decide +kernel

/-! ### The package, its host and its service -/

/-- An up package whose window 0 stands on the page of `globalA`. -/
def booted : State := { solo one with out := { boot := 0xD, wbase := [(0, 0x0040_0000_0001_0000)] } }
noncomputable def mappedB : State := mapped booted
theorem witness_HostAccesses :
    booted.ready = true ∧ mappedB.ready = true ∧ windowOf booted 0 0x40 = (0, globalA) ∧ windowOf booted 1 0x40 = (0, 0x40) ∧
    globalA.toNat % 64 + 8 ≤ 64 ∧ names 0 globalA.toNat = some (.glob 4 65600) ∧ (∀ k va, names 0 (0x40 : W64).toNat ≠ some (.glob k va)) ∧
    mappedB.xlate 0 4 65600 true = .ok tr ∧ tr.entry.getLsbD 3 = false ∧ mappedB.xlate 0 4 65600 false = .ok tr ∧
    (∃ e, booted.xlate 0 4 65600 true = .error e) ∧ (∃ e, booted.xlate 0 4 65600 false = .error e) ∧
    (booted.hostBefore 0 booted.nextId = false ∧
      (let i := Instr.hostWrite (.at_ 0 4 0 globalA) 0 [1] false
       i ∈ ({ booted with pool := [i] } : State).pool ∧ ({ booted with pool := [i], nextId := 5 } : State).hostBefore 0 4 = false ∧
       ({ booted with pool := [i], nextId := 5 } : State).hostBefore 0 5 = true)) ∧
    Comes booted ⟨0, none⟩ (.doorbellWrite ⟨⟨0, none⟩, 0⟩ []) ∧ booted.coreMode 0 ≠ .retired ∧ (booted.core 0).k.mailbox.length < 16 ∧
    booted.out.doorbell.find 0 = none ∧ ({ booted with out := { booted.out with doorbell := [(0, (2, 5))] } } : State).out.doorbell.find 0 = some (2, 5) ∧
    ({ booted with dies := [(0, { failed := true })] } : State).die (homeDie 4 65600) = { failed := true } := by
  refine ⟨by decide, by decide, by decide, by decide, by decide, by decide, fun k va h => ?_, by decide +kernel, by decide, by decide +kernel,
    is_error (by decide +kernel), is_error (by decide +kernel), ⟨by decide +kernel, .head _, by decide +kernel, by decide +kernel⟩,
    .inl ⟨rfl, by decide, by decide +kernel⟩, by decide, by decide, rfl, rfl, rfl⟩
  rw [show names 0 (0x40 : W64).toNat = some (.sp 0 64) by decide] at h
  cases h
theorem witness_PackageRegisters :
    booted.out.tray ≠ .off ∧ booted.served = true ∧ booted.ready = true ∧ pcapReg booted 0x100 < 65536 ∧ pcapReg booted 0x110 < 65536 ∧
    1200 ≤ pcapReg booted 0x100 ∧ booted.out.pkgid.getLsbD 16 = false ∧ (linked upPort).pkgid.getLsbD 16 = true ∧
    ({ booted with out := linked upPort } : State).served = true ∧ (2 : W64).toNat % 2 ^ 16 ≠ (linked upPort).pkgid.toNat % 2 ^ 16 ∧
    (∀ n, (booted.port n).hold = [] ∧ (booted.port n).owed = none) ∧ Comes booted ⟨0, none⟩ (.registerWrite (some ⟨0, none⟩) 0x200 1) ∧
    (∀ d, d < 4 → (booted.die d).logBase + 2 ^ 19 ≤ 2 ^ 38) :=
  ⟨by decide, by decide, by decide, by decide, by decide, by decide, by decide, by decide, by decide, by decide,
   fun n => ⟨rfl, rfl⟩, .inl ⟨rfl, by decide, by decide +kernel⟩, fun d _ => by show (({} : Die).logBase) + 2 ^ 19 ≤ 2 ^ 38; decide⟩

/-- A supervisor program of one word, `task.yield`, signed with a test key, laid out byte by byte after R95, R97 and R105. The
key and the signature were computed outside Lean. -/
def supervisorFile : List W8 :=
  leBytes 64 0xE4000000000000000000000000000000000000003000000002000000000000008000000000000001840000008000000002000000024D525A4F ++
  leBytes 64 0x1000100014B56 ++
  leBytes 64 0x200090000000100000000000000000000000000000000000000000000000000000000000000000000000000000000000000000000000000000000 ++
  leBytes 64 0xAB8C480100000000000000E400000000000000070001000147535A4F0410000000000000000000000000000000000004000000000000000400000000000000E0 ++
  leBytes 64 0x99016AB0FB8D8926AF103932AB160BF289A98FCFD9FEEFEDEB4ECF2D2207546B6895AA0D935B0F5B1FD12B1274281F255454580D86CCDBC0C7BA10A1807C82E1 ++
  leBytes 64 0x766D77695EF4A9B265734AE51B2B010C2BE88DDCB873DBC2C6A7F82E39B59DB8911F1E46314EC304580A3087606E047DA8B1706E82DE0661830BA371EF985790 ++
  leBytes 4 0x0
def testKey : W64 × Nat × Nat :=
  (7, 0x5F2348ED9C333AAA631CB0F191E12A9DCDEC540BAE343957B1CD4BBDA1D125F671EB43980F2F61417BF847C87D05103A105A525532CC0D246342E94A621B6AB4FA,
    0x1DF577468A8C8658E0D99E11D3E11B30B02AF1C0359E4E5DB3686073B5EF1EE8CA621D27EFF088CDE8E61FD1EB5C7E3E33636F4EEA60F10525EE105AB7F85F2B6BA)
def changed (l : List W8) (at_ : Nat) (v : W8) : List W8 := l.take at_ ++ v :: l.drop (at_ + 1)
set_option maxRecDepth 100000 in
/-- Of the file: its header is good, the signature is that of the key, its default entry is word 0 of image 9. -/
theorem test_supervisor_file :
    headerError supervisorFile = 0 ∧ signedFile supervisorFile = true ∧ signatureOk [testKey] supervisorFile = true ∧
    signatureOk [testKey] (changed supervisorFile 72 1) = false ∧
    defaultEntry supervisorFile = some (9, [0x0410_0000], 0) := by decide +kernel
/-- The file without its signature, and one that uses a record version its ASID may not. -/
def unsignedFile : List W8 := changed (changed ((supervisorFile.take 228).take 56 ++ List.replicate 8 0 ++ (supervisorFile.take 228).drop 64) 8 0) 16 228
  |>.set 17 0
def newerFile : List W8 := (unsignedFile.set 66 3).set 68 3
theorem witness_ManagementCommands :
    let busy := withRec booted [(1, recIn 2)]
    let idle := withRec booted [(1, recIn 0)]
    booted.ready = true ∧ booted.served = true ∧ ([] : List W8).length < 128 ∧ headerError unsignedFile = 0 ∧
    headerError (unsignedFile.set 76 1) = 3 ∧ ((booted.setupRing 0).planLoad 0 newerFile).isNone = true ∧ headerError newerFile = 0 ∧
    ((booted.setupRing 0).planLoad 0 unsignedFile).isSome = true ∧ signedFile unsignedFile = false ∧ (0 : W16) ∉ booted.pkg.signed ∧
    ((booted.setupRing 0).planLoad 0 supervisorFile).isSome = true ∧ signatureOk [] supervisorFile = false ∧
    record booted 1 = none ∧ record busy 1 = some (recIn 2) ∧ ¬ AtRest (recIn 2) ∧ record idle 1 = some (recIn 0) ∧ AtRest (recIn 0) ∧
    busy.ready = true ∧ booted.out.tray = .serving ∧ booted.pkg.pre = .none ∧ booted.drained = true ∧
    ({ booted with pool := [.mailboxDelivery away] } : State).drained = false ∧
    ({ booted with out := { booted.out with tray := .drained } } : State).served = true := by
  refine ⟨by decide, by decide, by decide, by decide +kernel, by decide +kernel, by decide +kernel, by decide +kernel, by decide +kernel,
    by decide +kernel, by decide, by decide +kernel, by decide +kernel, rfl, rfl, ?_, rfl, ?_, by decide, rfl, rfl, by decide +kernel,
    by decide +kernel, by decide⟩ <;>
  (unfold AtRest; decide +kernel)
/-- The block names a function and an ASID for doorbell 5; core 15 fails, a lane and a row; port 2's record does not verify. -/
def boot (ok : Bool) (file : List W8) (bad : List FailedPart) : BootResult := ⟨ok, ok,
  ⟨[1, 2], [testKey], some 1, file, none, [(5, 2, 9)]⟩, [(2, 3)], [], .core 15 :: bad, [], [(0, 64)],
  [⟨[1], true⟩, ⟨[2], true⟩, ⟨[3], false⟩, ⟨[4], true⟩], List.replicate 4 ⟨[5], true⟩⟩
def solo0 : State := solo one
set_option maxRecDepth 100000 in
theorem witness_BringUpAndAttestation :
    let b := boot true supervisorFile []
    b.config.supSpad.getD 65536 ≤ 655360 ∧ (boot false [] []).pllOk = false ∧ b.pllOk = true ∧ b.configOk = true ∧ b.badStacks = [] ∧
    ({ b with badStacks := [1] } : BootResult).badStacks ≠ [] ∧ (∀ d, ¬ bootFails solo0 b (.ordering d)) ∧
    ¬ (∀ d, ¬ bootFails solo0 (boot true [] [.ordering 2]) (.ordering d)) ∧
    (∀ d, d < 4 → firmwareOk b.active d = true ∨ firmwareOk b.standby d = true) ∧
    ¬ (∀ d, d < 4 → firmwareOk ([] : List Firmware) d = true ∨ firmwareOk ([] : List Firmware) d = true) ∧
    signatureOk b.config.keys b.config.supFile = true ∧ signatureOk [] supervisorFile = false ∧
    defaultEntry b.config.supFile = some (9, [0x0410_0000], 0) ∧ bootRetires solo0 b 15 ∧ ¬ bootRetires solo0 b 7 ∧
    bootRetires { solo0 with out := { repairs := [.part (.cluster 0)] } } b 7 ∧ (2, 3) ∈ b.badLanes ∧
    ((5, 2, 9) ∈ b.config.doorbells ∧ ∀ x ∈ b.config.doorbells, x.1 % 512 = 5 → x = (5, 2, 9)) ∧ booted.ready = true ∧ booted.out.tray ≠ .off := by
  have h (b : FailedPart) (hb : b ≠ .core 15) : ¬ bootFails solo0 (boot true supervisorFile []) b := by
    simp [bootFails, boot, solo0, solo, hb]
  refine ⟨by decide, rfl, rfl, rfl, rfl, by decide, fun d => h _ (by simp), fun k => k 2 (.inl (.tail _ (.head _))), by decide,
    fun k => by simpa [firmwareOk] using k 0 (by decide), test_supervisor_file.2.2.1, rfl, test_supervisor_file.2.2.2.2, .inl (.inl (.head _)),
    fun k => k.elim (h _ (by simp)) (h _ (by simp)), .inr (.inr ⟨0, rfl, by simp [boot]⟩), .head _, ⟨.head _, by simp [boot]⟩, by decide, by decide⟩

/-- Image 0 of ASID 0 has a safe point at word 0; a pre-emption was requested at cycle 0 and this is the state of the thread. -/
def preempting (p : PreState) (r : Run) (c : Nat) : State := { solo { one with run := r } with
  cycle := c, pkg := { pre := p, images := [⟨0, 0, [0xF000_0000], [(0, 0)]⟩] } }
/-- A busy launch whose save area stands at `globalA`, and a suspended one. -/
def areaRec (st : Nat) : BitVec 2048 := (recIn st &&& BitVec.ofNat 2048 (2 ^ 448 - 1)) ||| BitVec.ofNat 2048 (globalA.toNat * 2 ^ 704)
theorem pantry_ok (s : State) (h : s.dies = [(0, { pantry := [] })]) : PantryOk s := by
  intro d
  have : (s.die d).pantry = [] := by
    simp only [State.die, h, Tab.getD, Tab.find]
    by_cases e : 0 = d <;> simp [e]
  rw [this]; exact ⟨rfl, by simp⟩
noncomputable def areaState (st : Nat) (l : List (W16 × Bool × List (Tid × Nat))) (p : PreState) : State := {
  dies := [(0, { tlb := [tr], pantry := [(1, areaRec st)] })], pkg := { pre := p, saved := l } }
theorem witness_Preemption :
    (preempting .none (.parked (.reg 3)) 0).threads.sorted = true ∧ (preempting .none (.parked (.reg 3)) 0).pkg.pre = .none ∧
    (preempting .none (.parked (.reg 3)) 0).threads.find 0 = some { one with run := .parked (.reg 3) } ∧
    ({ one with run := .ready 0 } : Thread).isParked = false ∧
    (preempting (.requested 0) (.ready 0) 3000).pkg.pre = .requested 0 ∧ one.gm = false ∧ 0 + 3000 ≤ (preempting (.requested 0) (.ready 0) 3000).cycle ∧
    AtSafePoint (preempting (.requested 0) (.ready 0) 0) { one with run := .ready 0 } ∧
    saveReady { preempting (.requested 0) (.stopped false) 0 with dies := [(0, { pantry := [] })] } = true ∧
    PantryOk { preempting (.requested 0) (.stopped false) 0 with dies := [(0, { pantry := [] })] } ∧
    (let s := areaState 2 [] (.requested 0)
     saveReady s = true ∧ s.threads = [] ∧ record s 1 = some (areaRec 2) ∧ Busy (areaRec 2) ∧ (field (areaRec 2) 50 1).testBit 1 = false ∧
     s.activeWalkers = [] ∧ saveAt s (areaRec 2) 65600) ∧
    Instr.preemptionResume ∉ (preempting (.requested 0) (.ready 0) 0).pool ∧
    (preempting .saved (.stopped true) 0).pkg.saved = [] ∧ one.gang = none ∧
    (let s := areaState 7 [(1, false, [])] .saved
     s.pkg.saved = [(1, false, [])] ∧ record s (1 : W16).toNat = some (areaRec 7) ∧ field (areaRec 7) 2 1 = 7 ∧ (field (areaRec 7) 50 1).testBit 1 = false ∧
     saveAt s (areaRec 7) 65600 ∧ s.rd (65600 + 6) 2 = 0) := by
  refine ⟨rfl, rfl, rfl, rfl, rfl, rfl, by decide, ⟨_, 0, rfl, .head _⟩, by decide +kernel, pantry_ok _ rfl,
    ⟨by decide +kernel, rfl, rfl, ?_, by decide +kernel, by decide +kernel, ⟨4, 65600, by decide +kernel, by decide, by decide +kernel⟩⟩, (by intro h; cases h), rfl, rfl,
    ⟨rfl, rfl, by decide +kernel, by decide +kernel, ⟨4, 65600, by decide +kernel, by decide, by decide +kernel⟩, by decide +kernel⟩⟩
  unfold Busy; decide +kernel

/-- The page of `globalA`, in its space. -/
def thePage : Nat := 4 * 2 ^ 48 + 65536
/-- Die 0 holds one access to the page of `globalA`. -/
noncomputable def heldFor (i : Instr) : State := { solo one with dies := [(0, { held := [⟨thePage, 0, i, 0, false⟩] })] }
theorem one_held (i : Instr) : OneHeld (heldFor i) 0 thePage i := ⟨rfl, ⟨thePage, 0, i, 0, false⟩, rfl, rfl, rfl⟩
theorem witness_FaultAnswers :
    (heldFor (.loadCompletion (readOf_ globalA 8))).ctlAlive 0 = true ∧
    (∃ h ∈ ((heldFor (.loadCompletion (readOf_ globalA 8))).die 0).held, h.page = thePage ∧ h.waits = false) ∧
    OneHeld (heldFor (.loadCompletion (readOf_ globalA 8))) 0 thePage (.loadCompletion (readOf_ globalA 8)) ∧
    inPage 0 thePage globalA = true ∧
    OneHeld (heldFor (.atomicAtHome (amoOf globalA))) 0 thePage (.atomicAtHome (amoOf globalA)) ∧
    OneHeld (heldFor (.remoteUpdate (amoOf globalA))) 0 thePage (.remoteUpdate (amoOf globalA)) ∧
    OneHeld (heldFor (.hostRead (.at_ 0 0 0 globalA) 0 8)) 0 thePage (.hostRead (.at_ 0 0 0 globalA) 0 8) ∧
    OneHeld (heldFor (onePart globalA true)) 0 thePage (onePart globalA true) ∧ Talks (upward (onePart globalA true) [] .serving) 3 (7 : W16).toNat ∧
    (heldFor (.atomicAtHome (amoOf globalA))).threads.find (amoOf globalA).tid = some one :=
  ⟨rfl, ⟨_, .head _, rfl, rfl⟩, one_held _, by decide +kernel, one_held _, one_held _, one_held _, one_held _, talks_linked _ _ _, rfl⟩

/-- The supervisor of cluster 0, on core 7, names core 1; core 1 with a mode and a thread there. -/
def chief : Thread := { supervisor_ 1 0 0 with core := 7, cidx := 0 }
def servedBy (m : CoreMode) (u : Thread) (res : Option Tid) : State := {
  threads := [(64, u), (448, chief)]
  cur := 448
  cores := [(1, { openCore with k := { mode := m, reserver := res } })] }
def busyOne : Thread := { one.empty 3 with core := 1 }
theorem no_arrivals (m : CoreMode) (u : Thread) (res : Option Tid) : NoArrivals (servedBy m u res) := by
  intro c
  simp only [State.core, servedBy, Tab.getD, Tab.find]
  by_cases h : (1 : Nat) = c <;> simp [h]
theorem witness_CoresThatStop :
    (servedBy .running { one with core := 1 } none).Plain chief ∧ chief.sup = true ∧ chief.rg = false ∧ chief.Ready [1] [3] ∧ chief.core % 8 = 7 ∧
    chief.gang = none ∧ (servedBy .running { one with core := 1 } none).threads.sorted = true ∧ haltCoreOf chief (chief.src 1) = 1 ∧
    haltCoreOf chief 7 % 8 = 7 ∧ (servedBy .retired busyOne none).coreMode 1 = .retired ∧ (servedBy .halted busyOne none).coreMode 1 = .halted ∧
    (servedBy .running { one with core := 1 } none).coreMode 1 = .running ∧ (servedBy .running { one with core := 1 } none).coreQuiet 1 = true ∧
    (servedBy .halted { one with core := 1 } none).coreQuiet 1 = true ∧
    (∀ e ∈ (servedBy .running { one with core := 1 } none).threads, e.2.core = 1 → e.2.gm = false) ∧
    (busyOne.core = 1 ∧ busyOne.c.fe ≠ 0xFFFF ∧ busyOne.mo.waitId = 0) ∧ (servedBy .faulted busyOne (some 64)).coreMode 1 = .faulted ∧
    ((servedBy .faulted busyOne (some 64)).core 1).k.reserver = some 64 ∧ (64 : Tid) ≠ 448 ∧ NoArrivals (servedBy .halted busyOne none) ∧
    (servedBy .running busyOne none).coreMode 7 ≠ .retired ∧ ((servedBy .running busyOne none).core 7).k.mailbox.length < 16 ∧
    ¬ PostsBefore (servedBy .running busyOne none) 0xFFFFFFFF 7 ∧
    (let s : State := { mapped (solo one) with pool := [.loadCompletion (readOf_ globalA 8)] }
     s.threads.find 0 = some one ∧ names 0 globalA.toNat = some (.glob 4 65600) ∧ s.keyOf 0 4 65600 = some 65600 ∧
     65600 / 64 = physKey 0 65600 / 64) := by
  refine ⟨⟨⟨rfl, .inr rfl, rfl⟩, by decide, rfl⟩, by decide, by decide, ⟨by decide, by decide⟩, rfl, rfl, rfl, by decide, by decide, rfl, rfl, rfl,
    by decide +kernel, by decide +kernel, ?_, ⟨rfl, by decide, rfl⟩, rfl, rfl, by decide, no_arrivals _ _ _, by decide, by decide, ?_,
    ⟨rfl, by decide, by decide +kernel, by decide⟩⟩
  · intro e he _
    simp only [servedBy, List.mem_cons, List.not_mem_nil, or_false] at he
    rcases he with rfl | rfl <;> decide
  · rintro ⟨p, h | h, -⟩ <;> cases h

/-- Every thread waits; cluster 0 has a supervisor with a handler. -/
def idleAll (sweeps : Nat) (moved : Bool) : State := {
  cycle := 86
  pkg := { sweeps := sweeps, moved := moved }
  threads := [(448, { handled with core := 7, run := .parked (.reg 3), bslot := none })]
  clusters := [(0, { supTid := some 448 })] }
theorem witness_DeadlockSweeps :
    sweepDue (idleAll 2 false) = true ∧ (idleAll 2 false).allIdle = true ∧ (idleAll 2 false).pkg.sweeps = 2 ∧
    (idleAll 1 false).allIdle = true ∧ (idleAll 1 true).allIdle = true ∧ ({ solo one with cycle := 86 } : State).allIdle = false ∧
    ((idleAll 2 false).cluster 0).supTid = some 448 ∧
    (∃ th, (idleAll 2 false).threads.find 448 = some th ∧ th.region = none ∧ th.det = false ∧ th.mo.acquired = false ∧ th.ih = false ∧
      th.c.evec.getLsbD 63 = true) :=
  ⟨by decide +kernel, by decide +kernel, rfl, by decide +kernel, by decide +kernel, by decide +kernel, rfl, ⟨_, rfl, rfl, rfl, rfl, rfl, rfl⟩⟩

/-! ## More premises of the same statements

Each theorem meets the premises of further clauses of the statement it names. -/

/-- `CoreEvents`, `AtomicsIssue`, `SyncFencesAndGo`: the controller lives, the dirty log has room, the loads are back. -/
theorem witness_IssuePremises :
    (solo one).ctlAlive (0 / 128) = true ∧ (solo (over_ 2 globalA)).dirtyFull 0 0 globalA 8 = false ∧ (solo (over_ 3 128)).loadsDone 0 = true ∧
    (engined tiles_ []).dirtyFull 0 0 (tiles_.src 1) (63 * 256 + 256) = false := by decide +kernel

/-- `LoadsComplete`: a copy whose first word fails, one without an error, and a home die that has failed. -/
def failedDie : State := { solo one with dies := [(0, { failed := true })] }
theorem witness_LoadPremises :
    copyFails ⟨1025, 0, 7, false, false, 0, [(0, 2)]⟩ 0 8 = true ∧ copyFails ⟨1025, 0, 7, false, false, 0, []⟩ 0 8 = false ∧
    (failedDie.die (homeDie 4 65600)).failed = true ∧ ((mapped (solo one)).die (homeDie 4 65600)).failed = false ∧
    ((readOf_ globalA 8).level = .plain ∧ ({ readOf_ globalA 8 with level := .acquire 3 } : LoadReq).level = .acquire 3) ∧
    copyInL1 failedDie 0 0 4 65600 8 = none := by
  refine ⟨by decide +kernel, by decide +kernel, by decide +kernel, by decide +kernel, ⟨rfl, rfl⟩, by decide +kernel⟩

/-- `StoresPerform`: a global store on its way, its line in no entry of the buffer, and in one. -/
theorem witness_StorePremises :
    let s := flying (.storePerformAtHome (writeOf_ globalA)) one
    let t : State := { s with clusters := [(0, { csb := [entry] })] }
    Instr.storePerformAtHome (writeOf_ globalA) ∈ s.pool ∧ storeReady s (writeOf_ globalA) = true ∧ one.mo.failing = [] ∧
    names 0 globalA.toNat = some (.glob 4 65600) ∧ globalA.toNat % 64 + 8 ≤ 64 ∧ s.csbFind 0 0 (globalA.toNat / 64) = none ∧
    storeReady t (writeOf_ globalA) = true ∧ t.csbFind 0 0 (globalA.toNat / 64) = some entry ∧
    (({ draining with dies := [(0, { failed := true })] } : State).die (homeDie 4 65600)).failed = true ∧
    drainReady { draining with dies := [(0, { failed := true })] } 0 7 = true := by
  refine ⟨.head _, by decide +kernel, rfl, by decide, by decide, by decide +kernel, by decide +kernel, by decide +kernel, by decide +kernel,
    by decide +kernel⟩

/-- `Migration` and `TranslationLogsAndBanks`: nothing sent before is on its way, no ring operation is queued, the walk has room. -/
theorem witness_MigrationPremises :
    (mobile.mo.deferred = [] ∧ (flying (.migrationDeparture 0 1) { mobile with run := .departing 1 }).ringQueued 0 = false) ∧
    (flying (.migrationArrival migMsg) travelling).inOrder 0 migMsg.id [corePort migMsg.dest] = true ∧
    (probing.mo.probe = some (globalA, false) ∧ probing.mo.probeFail = false ∧ probing.moving = false) ∧
    (flying (.translationProbe 0) probing).xlateWaits 0 4 65600 = false ∧ (probing.setBit 14 true).migrates = true := by
  refine ⟨⟨rfl, by decide +kernel⟩, by decide +kernel, ⟨rfl, rfl, rfl⟩, by decide +kernel, by decide⟩

/-- `CacheWords`, `LaunchRecordWords`, `TaskLifetimes`: a word that has acted, a supervisor, a living controller and one that is gone, an
allocation whose clear is over. -/
theorem witness_LaunchPremises :
    (let th := { holding globalA 64 0 with mo := { acquired := true, acts := true } }
     (solo th).Plain th ∧ th.Ready [1, 2] [] ∧ th.rg = false ∧ th.mo.acts = true) ∧
    (let th := supervisor_ globalA 64 0
     (solo th).Plain th ∧ th.Ready [1, 2] [] ∧ th.rg = false ∧ th.sup = true ∧ th.mo.acts = false) ∧
    (arming 0).ctlAlive (1 / 4096 % 4) = true ∧
    ({ arming 0 with dies := [(0, { pantry := [(1, recIn 0)], ctl := { alive := false } })] } : State).ctlAlive (1 / 4096 % 4) = false ∧
    (completing [(1, doneRec)]).doneReady 1 = true ∧
    ((solo clearing).die (lidDie 0)).spad.find (0 % 4096) = none := by
  refine ⟨⟨⟨⟨rfl, .inr rfl, rfl⟩, rfl, rfl⟩, ⟨by decide, by decide⟩, rfl, rfl⟩,
    ⟨⟨⟨rfl, .inr rfl, rfl⟩, by decide, rfl⟩, ⟨by decide, by decide⟩, by decide, by decide, rfl⟩, by decide +kernel, by decide +kernel,
    by decide +kernel, by decide +kernel⟩

/-- `VectorLoadsComplete`: two elements of the own scratchpad, the last of which ends its window; one global element; a broadcast. -/
def vecLoad (dst : LoadDst) (l : List Part) : LoadReq := ⟨0, 0, 0, 0, dst, l, .plain, 0⟩
theorem vec_load (r : LoadReq) (f : State → State) (h : (f (flying (.loadCompletion r) one)).threads = [(0, one)])
    (hp : (f (flying (.loadCompletion r) one)).pool = [.loadCompletion r]) (he : (f (flying (.loadCompletion r) one)).ecc = [])
    (ht : r.tid = 0) (hr : loadReady (f (flying (.loadCompletion r) one)) r = true)
    (hw : ∀ p ∈ r.parts, p.lost = 0 ∧ 1 ≤ p.n ∧ 8 * p.n ≤ p.w ∧ p.lo + p.w ≤ 4096) (ha : r.parts.Pairwise fun p q => p.lo + p.w ≤ q.lo) :
    VecLoad (f (flying (.loadCompletion r) one)) one r :=
  ⟨by rw [h, ht]; rfl, ⟨rfl, rfl, rfl⟩, by rw [hp]; exact .head _, hr, he, hw, ha⟩
theorem witness_VectorLoadsComplete :
    (let r := vecLoad (.vec 4) [⟨655352, 4, 0, 32, 0⟩, ⟨655356, 4, 32, 32, 0⟩]
     VecLoad (flying (.loadCompletion r) one) one r ∧ (∀ p ∈ r.parts, ∃ c off, names r.core p.ea.toNat = some (.sp c off)) ∧
     (flying (.loadCompletion r) one).ownerCheck 0 0 0 655352 4 true = none) ∧
    (let r := vecLoad (.bcast 4 0xFF 32) [⟨128, 4, 0, 32, 0⟩]
     VecLoad (flying (.loadCompletion r) one) one r ∧ names 0 128 = some (.sp 0 128)) ∧
    (let r := vecLoad (.vec 4) [⟨globalA, 4, 64, 32, 0⟩]
     VecLoad (mapped (flying (.loadCompletion r) one)) one r ∧ VecLoad (flying (.loadCompletion r) one) one r ∧ 65600 % 64 + 4 ≤ 64 ∧
     copyInL1 (mapped (flying (.loadCompletion r) one)) 0 0 4 65600 4 = none ∧
     (mapped (flying (.loadCompletion r) one)).xlate 0 4 65600 false = .ok tr) := by
  refine ⟨⟨vec_load _ id rfl rfl rfl rfl (by decide +kernel) (by decide) (by decide), fun p hp => ?_, by decide +kernel⟩,
    ⟨vec_load _ id rfl rfl rfl rfl (by decide +kernel) (by decide) (by decide), by decide⟩,
    ⟨vec_load _ mapped rfl rfl rfl rfl (by decide +kernel) (by decide) (by decide),
     vec_load _ id rfl rfl rfl rfl (by decide +kernel) (by decide) (by decide), by decide, by decide +kernel, by decide +kernel⟩⟩
  simp only [vecLoad, List.mem_cons, List.not_mem_nil, or_false] at hp
  rcases hp with rfl | rfl
  · exact ⟨0, 655352, by decide⟩
  · exact ⟨0, 655356, by decide⟩

/-- `RingSteps`: a hold given up at a halt, a poisoned bobbin, a register whose value is at its core. -/
def dropOp : RingOp := ⟨1, 0, 1, .drop 0 2, 1020, 0⟩
def filling (req : Option Nat) : State := { solo one with
  cycle := 1040, cores := [(0, { openCore with r := { fills := [⟨4159, 0, 3, 5, none, req, 1⟩] } })] }
theorem witness_RingPremises :
    (let s := passing [dropOp] ((1#64 <<< 32) ||| (2#64 <<< 42))
     ringDue { s with ring := { s.ring with passed := [(1, 8190)] } } (.stationPassage 1 0) = some 8191) ∧ (8191 : Nat) % 2 = 1 ∧
    POISON (bobbin (passing [peekOp 0] 0x4000_0000_0000_0000) 1) = true ∧
    (ringDue (filling none) (.stationPassage 1 0) = some 8318 ∧ (8318 : Nat) % 2 = 0 ∧ 4159 = (8318 : Nat) / 2 ∧
      (filling (some 4)).threads.find 0 = some one) ∧
    (∃ o ∈ stationQueue (passing [dropOp] 0) 0, o.bobbin = 1 ∧ ∃ h, o.fn = .drop h 2) := by
  refine ⟨by decide +kernel, by decide, by decide +kernel, ⟨by decide +kernel, by decide, by decide, rfl⟩, ⟨dropOp, .head _, rfl, 0, rfl⟩⟩

/-- `FabricMessages`: an older message of the thread to core 0 of package 7 is not answered; a copy to package 7 is not over. -/
noncomputable def earlier : PostReq := { away with tid := 0, prio := false }
theorem witness_FabricPremises :
    (let s : State := { post with pool := [.mailboxDelivery earlier], nextId := 1 }
     Instr.mailboxDelivery earlier ∈ s.pool ∧ earlier.tid = s.cur ∧ earlier.dst = 0 ∧ earlier.prio = false ∧ earlier.id < s.nextId ∧
       earlier.fabric = some (7, 3)) ∧
    (copies .copyCompletion { plainCopy_ 0 64 with kind := .peer, lines := [3], pkg := 7 }).peerCopyOpen 0 7 = true :=
  ⟨⟨.head _, rfl, rfl, rfl, by decide, rfl⟩, by decide +kernel⟩

/-- `Preemption`: a thread ready to issue, one that holds a bobbin, and a launch that was being cancelled. -/
def holder : Thread := ringing [⟨.held, 2, 1, 1⟩]
theorem witness_PreemptionPremises :
    one.holds = [] ∧ holder.holds = [(0, ⟨.held, 2, 1, 1⟩)] ∧ holder.gm = false ∧
    (let s : State := { stationed { holder with run := .ready 0 } [] true with pkg := { pre := .requested 0 }, cycle := 3000 }
     s.threads.sorted = true ∧ s.threads.find 0 = some { holder with run := .ready 0 } ∧ 0 + 3000 ≤ s.cycle) ∧
    Busy (areaRec 5) ∧ (areaState 7 [(1, true, [])] .saved).pkg.saved = [(1, true, [])] := by
  refine ⟨rfl, rfl, by decide, ⟨rfl, rfl, by decide⟩, ?_, rfl⟩
  unfold Busy; decide +kernel

/-- `CoresThatStop`: parts that fail, and a bank without a spare row, whatever row the address stands in (log entry 90). -/
noncomputable def rowsOf (n : Nat) (f : Nat × Nat × Nat → Nat × Nat × Nat) : State := { solo one with
  dies := [(0, { rows := List.replicate n (f (rowOf 0 64)) })] }
theorem witness_PartPremises :
    (∃ c, c < 8 ∧ (solo one).coreMode (8 * 3 + c) ≠ .retired) ∧ ((solo one).die 2).failed = false ∧
    ((solo one).die 0).rows.countP (fun r => r.1 == (rowOf 0 64).1 && r.2.1 == (rowOf 0 64).2.1) < 32 ∧ rowOf 0 64 ∉ ((solo one).die 0).rows ∧
    (let s := rowsOf 32 fun k => (k.1, k.2.1, k.2.2 + 1)
     rowOf 0 64 ∉ (s.die 0).rows ∧ (rowOf 0 64).1 ∉ (s.die 0).chans ∧
     32 ≤ (s.die 0).rows.countP fun r => r.1 == (rowOf 0 64).1 && r.2.1 == (rowOf 0 64).2.1) ∧
    (let s := rowsOf 255 fun k => (k.1, k.2.1 + 1, k.2.2)
     rowOf 0 64 ∉ (s.die 0).rows ∧ 255 ≤ (s.die 0).rows.countP fun r => r.1 == (rowOf 0 64).1) := by
  have h (n : Nat) (f) : ((rowsOf n f).die 0).rows = List.replicate n (f (rowOf 0 64)) := rfl
  refine ⟨⟨0, by decide, by decide +kernel⟩, by decide +kernel, by decide, by simp [solo, State.die, Tab.getD, Tab.find], ?_, ?_⟩ <;>
    simp only [h, List.mem_replicate, List.countP_replicate, Prod.ext_iff]
  · refine ⟨?_, ?_, ?_⟩
    · simp
    · simp [rowsOf, State.die, Tab.getD, Tab.find]
    · simp
  · simp

theorem witness_MemoryStaysCanonical : State.reset.Canonical ∧ ∃ t, step State.reset = .next t :=
  ⟨State.canonical_reset, _, rfl⟩

/-! ## The spec's worked words and examples -/

/-- The examples of 02 (after R73), 03 (R86, after R92) and 04 (R112, R115, R124, R126, R131). -/
theorem test_scalar_words :
    decode 0x1003_A148 = .ok (.aluAdd ⟨3, 0b10100, 5, 2, 0, 0⟩) ∧ decode 0x1421_06A0 = .ok (.addi ⟨2, 2, 0x06A0⟩) ∧
    decode 0x1410_FFFF = .ok (.addi ⟨1, 1, 0x7FFF⟩) ∧ decode 0x3110_8000 = .ok (.ceqi ⟨1, 1, 0⟩) ∧
    decode 0x011F_FFFE = .ok (.bra ⟨1, 1, 0x7FFFE⟩) ∧ decode 0x1201_10C1 = .ok (.bitsExt ⟨1, 2, 3, 0, 0, 1⟩) ∧
    decode 0x1211_10C1 = .ok (.bitsExtu ⟨1, 2, 3, 0, 0, 1⟩) ∧ decode 0x1862_8003 = .ok (.shli ⟨6, 5, 3⟩) ∧
    decode 0x1007_3981 = .ok (.aluAdd ⟨7, 7, 6, 0, 0, 1⟩) ∧ decode 0x1B10_4DEF = .ok (.li ⟨1, 0x4DEF⟩) ∧
    decode 0x20A2_1900 = .ok (.fpuFma ⟨2, 3, 4, 0, 0, 0⟩) := by decide +kernel
theorem test_memory_words :
    decode 0x4054_B003 = .ok (.ld ⟨5, 9, 3, 0, 3⟩) ∧ decode 0x4072_3000 = .ok (.ld ⟨7, 4, 3, 0, 0⟩) ∧ decode 0x4153_B000 = .ok (.st ⟨5, 7, 3, 0, 0⟩) ∧
    decode 0x4335_2802 = .ok (.strel ⟨3, 10, 2, 2, 2⟩) ∧ decode 0x4423_A001 = .ok (.ldsy ⟨2, 7, 2, 1⟩) ∧
    decode 0x4704_24FB = .ok (.amoAdd ⟨8, 9, 3, 3, 2, 3⟩) ∧ decode 0x4794_24D6 = .ok (.amoCas ⟨8, 9, 3, 1, 1, 2⟩) ∧
    decode 0x4910_0002 = .ok (.fenceRel 2) ∧ decode 0x0903_1D41 = .ok (.mbxPost 6 7 5 1) := by decide +kernel
theorem test_control_words :
    decode 0x0400_0000 = .ok .taskExit ∧ decode 0x0410_0000 = .ok .taskYield ∧ decode 0x0420_0000 = .ok .taskPark ∧
    decode 0x0521_8005 = .ok (.trapAssert 3 5) ∧ decode 0x0600_0000 = .ok .eret ∧ decode 0x0700_0082 = .ok (.sysrGet 2 2) ∧
    decode 0xF001_1357 = .ok (.hintImmx 0x011357) ∧ decode 0xF100_000C = .ok (.hintScl 12) := by decide +kernel
theorem test_vector_words :
    decode 0x5032_14C5 = .ok (.vfFma ⟨4, 5, 6, 1, 1⟩) ∧ decode 0x5751_9E40 = .ok (.vcmpsIlt ⟨3, 7, 0b10010, 0, 0⟩) ∧
    decode 0x5904_8C84 = .ok (.vcvtNarrow ⟨9, 3, 4, 1, 0⟩) ∧ decode 0x5D31_2C00 = .ok (.vmvMtos 2 1 3) ∧
    decode 0x6022_1285 = .ok (.vld ⟨4, 8, 9, 2, 0, 1, 1⟩) := by decide +kernel
theorem test_matrix_and_engine_words :
    decode 0x7040_5000 = .ok (.mmaE4m3 ⟨2, 0, 0, 1, 8, 0, 0, 0⟩) ∧ decode 0x7032_4C20 = .ok (.mmaE4m3 ⟨1, 1, 4, 1, 6, 0, 0, 2⟩) ∧
    decode 0x7124_2542 = .ok (.accSt 8 9 5 0 2) ∧ decode 0x7201_0C01 = .ok (.skdSet 2 3 1) ∧ decode 0x8051_8005 = .ok (.cbWait 3 0 5) ∧
    decode 0x8051_8015 = .ok (.cbWait 3 1 5) ∧ decode 0x8203_24C1 = .ok (.copyLin 6 9 3 1) := by decide +kernel
theorem test_cluster_and_region_words :
    decode 0x6401_8080 = .ok (.gangForm 3 2) ∧ decode 0x6412_0040 = .ok (.gangJoin 4 1) ∧ decode 0x9002_9882 = .ok (.barReg 5 6 2 2) ∧
    decode 0x9030_0101 = .ok (.barArrw 4 1) ∧ decode 0x9102_8080 = .ok (.arBegin 5 2) ∧ decode 0x9130_01C0 = .ok (.arStatus 7) ∧
    decode 0x9203_0100 = .ok (.pcommit 6 4) ∧ decode 0x9304_2480 = .ok (.annealCfg 8 9 2) ∧ decode 0xA013_1C00 = .ok (.cacheInv 6 7) ∧
    decode 0xA041_0C01 = .ok (.cacheTlbi 2 3 1) := by decide +kernel
theorem test_launch_ring_and_fabric_words :
    decode 0xA111_8080 = .ok (.lrecArm 3 2) ∧ decode 0xA101_9094 = .ok (.lrecPatch 3 4 2 0x14) ∧ decode 0xA200_0180 = .ok (.walkNext 6) ∧
    decode 0xA210_01C1 = .ok (.walkInfo 7 1) ∧ decode 0xA304_00C0 = .ok (.umeCfg 8 3 0) ∧ decode 0xA314_8102 = .ok (.umeRound 9 4 2) ∧
    decode 0xA320_0152 = .ok (.umeStat 5 1 2) ∧ decode 0xA330_0182 = .ok (.umeDirty 6 2) ∧ decode 0xB002_80C2 = .ok (.ringPeek 5 3 2) ∧
    decode 0xB013_0081 = .ok (.ringBoard 6 2 1) ∧ decode 0xB020_010D = .ok (.ringHget 4 3 1) ∧ decode 0xB032_0001 = .ok (.ringHset 4 0 1) ∧
    decode 0xB040_0001 = .ok (.ringAlight 1) ∧ decode 0xB050_0000 = .ok (.ringRel 0) ∧ decode 0xB062_9C01 = .ok (.ringRadd 5 7 1) ∧
    decode 0xB072_9C09 = .ok (.ringRmax 5 7 1 1) ∧ decode 0xB103_1D41 = .ok (.msgSend 6 7 5 1) ∧ decode 0xB114_8080 = .ok (.msgRecv 9 2) ∧
    decode 0xB122_00C0 = .ok (.msgProbe 4 3) := by decide +kernel
/-- Words that the spec calls reserved: 02 (the third and fourth examples), R70, R71. -/
theorem test_reserved_words :
    decodeIssue 0x4054_C003 = .reservedEncoding 0x4054_C003 ∧ decodeIssue 0x7040_5200 = .reservedEncoding 0x7040_5200 ∧
    decode 0 = .ok .illegalWordZeros ∧ decode 0xFFFF_FFFF = .ok .illegalWordOnes ∧ decodeIssue 0x0000_0001 = .reservedEncoding 0x0000_0001 := by
  decide +kernel

/-! Each condition of `wellFormed` turns down a term that breaks it. -/
theorem test_ill_formed_memory :
    wellFormed (.ld ⟨4, 1, 5, 0, 0⟩) = false ∧ wellFormed (.st ⟨5, 1, 4, 0, 0⟩) = false ∧ wellFormed (.ldsy ⟨4, 1, 1, 0⟩) = false ∧
    wellFormed (.pf ⟨1, 5, 0, 0⟩) = false ∧ wellFormed (.amoFadd ⟨1, 2, 3, 0, 0, 1⟩) = false ∧ wellFormed (.redFadd ⟨1, 2, 0, 0⟩) = false := by
  decide +kernel
theorem test_ill_formed_vectors :
    wellFormed (.vfAdd ⟨1, 2, 3, 0, 3⟩) = false ∧ wellFormed (.vcvtNarrow ⟨1, 2, 3, 0, 1⟩) = false ∧ wellFormed (.vcvtI2f ⟨1, 2, 6, 0, 0⟩) = false ∧
    wellFormed (.vld ⟨1, 2, 0, 0, 0, 3, 0⟩) = false ∧ wellFormed (.vld ⟨1, 2, 0, 0, 0, 0, 3⟩) = false ∧ wellFormed (.vst ⟨1, 2, 0, 0, 0, 0, 2⟩) = false ∧
    wellFormed (.vgth ⟨1, 2, 0, 0, 0, 3⟩) = false ∧ decodeIssue 0x6220_0001 = .reservedEncoding 0x6220_0001 := by decide +kernel
theorem test_ill_formed_others :
    wellFormed (.mmaE4m3 ⟨0, 1, 1, 0, 0, 0, 0, 0⟩) = false ∧ wellFormed (.mmaE4m3 ⟨0, 0, 8, 0, 0, 0, 0, 0⟩) = false ∧
    wellFormed (.mmaE4m3 ⟨0, 0, 0, 0, 0, 0, 0, 5⟩) = false ∧ wellFormed (.mmaI8 ⟨0, 0, 0, 0, 0, 0, 0, 1⟩) = false ∧
    wellFormed (.mmaBf16 ⟨0, 0, 16, 0, 0, 0, 0, 0⟩) = false ∧ wellFormed (.copyLin 1 2 3 0) = false ∧ wellFormed (.copyTile2d 2 1 3 0) = false ∧
    wellFormed (.cacheTlbi 1 2 3) = false ∧ wellFormed (.walkNext 5) = false ∧ wellFormed (.walkNext 3) = false ∧ wellFormed (.ringPeek 1 2 9) = false ∧
    wellFormed (.hintUnnamed 0xF5 0) = false := by decide +kernel

/-- A register of the only thread after a step. -/
noncomputable def afterX (i : Instr) (s : State) (k : BitVec 4) : Option W64 :=
  match exec i s with
  | .next t => (t.threads.find 0).map fun u => u.x k
  | _ => none
/-- R124: `bits.ext` and `bits.extu` of 0xABCD at 4, length 8. R126: `li` and `lhi` after their hints. -/
theorem test_bit_fields :
    afterX (.bitsExt ⟨1, 2, 3, 0, 0, 1⟩) (solo (holding 0 0xABCD 0x0804)) 1 = some 0xFFFF_FFFF_FFFF_FFBC ∧
    afterX (.bitsExtu ⟨1, 2, 3, 0, 0, 1⟩) (solo (holding 0 0xABCD 0x0804)) 1 = some 0xBC := by decide +kernel
theorem test_long_immediates :
    afterX (.li ⟨1, 0x4DEF⟩) (solo ((holding 0 0 0).modC fun c => { c with hint := 0x0401_1357 <<< 32 ||| 0x0001_1357 })) 1 = some 0x89AB_CDEF ∧
    afterX (.lhi ⟨1, 1, 0x4567⟩) (solo ((holding 0x89AB_CDEF 0 0).modC fun c => { c with hint := 0x0400_0000_0000_0246 })) 1 =
      some 0x0123_4567_89AB_CDEF := by decide +kernel
/-- 04 (after R131): 1.5 × 2.0 + 0.25 = 3.25 in FP32. -/
theorem test_fused_multiply_add :
    afterX (.fpuFma ⟨2, 3, 4, 0, 0, 0⟩) (solo (((holding 0 0x3E80_0000 0x3FC0_0000).setX 4 0x4000_0000))) 2 = some 0x4050_0000 := by decide +kernel
/-- R332: seed 0, step 0. -/
theorem test_draw : drawFp32 (drawU 0 0) = 0x3F3F_A0C4 := by decide +kernel
/-- R243: the scaled conversion of 3.0, 500, 1,000 and 7.0 by 0.5, 0.5, 0.5 and an invalid 0 into E4M3. -/
def converting : State := { solo scaling_ with slots := [(0, {
  v := [(3, 0x40E0_0000_447A_0000_43FA_0000_4040_0000), (9, BitVec.allOnes 4096), (12, 0x3F00_0000_3F00_0000_3F00_0000)], m := [(1, 0xF)] })] }
  where scaling_ : Thread := one.modC fun c => { c with hint := 0x100C_0000_0000_0000 }
theorem test_scaled_narrow :
    (match exec (.vcvtNarrow ⟨9, 3, 4, 1, 0⟩) converting with
     | .next t => some ((t.vreg one 9).extractLsb' 0 64, (t.threads.find 0).map fun u => u.c.status.extractLsb' 3 6)
     | _ => none) = some (0xFFFF_FFFF_7F7E_783C, some 0b010101) := by decide +kernel
/-- 07 (after R219): the sum of 2^24, 1, 1 and 1 in the fixed tree. -/
theorem test_float_sum :
    (match exec (.vredFsum ⟨9, 3, 1, 0⟩) { solo one with slots := [(0, { v := [(3, 0x3F80_0000_3F80_0000_3F80_0000_4B80_0000)], m := [(1, 0xF)] })] } with
     | .next t => some ((t.vreg one 9).extractLsb' 4064 32, (t.threads.find 0).map fun u => u.c.status.extractLsb' 3 6)
     | _ => none) = some (0x4B80_0001, some 0b010000) := by decide +kernel
/-- R390, R304 and R9: the home of the address in the example of R397. -/
theorem test_addresses :
    homeDie 8 0x1234_5678_9ABC = 2 ∧ sliceOf 0x25_4321_9ABC = 47 ∧ coreBeside 2 47 = 350 := by decide +kernel
/-- The tables of ASID 5 on die 2 in the example of R397, and its walk of 0x1234_5678_9ABC. -/
def tabled : State := {
  dies := [(2, {})]
  mem := [(0x50 + 8, 0x10_0000), (0x10_0120, 0x10_1001), (0x10_1688, 0x10_2001), (0x10_2598, 0x10_3001), (0x10_30C0, 0x25_4321_0007)].foldl
    (fun m (e : Nat × Nat) => writeLE m (physKey 2 e.1) 8 e.2) [] }
theorem test_table_walk :
    (match tabled.xlate 5 8 0x1234_5678_9ABC true with
     | .ok x => some (x.key 2 0x1234_5678_9ABC)
     | .error _ => none) = some (physKey 2 0x25_4321_9ABC) := by decide +kernel
/-- R363: a 2 × 2 serpentine, a 3 × 3 Morton and a 5 × 3 grouped space. -/
def grid (n0 n1 order g : Nat) : BitVec 2048 := BitVec.ofNat 2048 (2 * 2 ^ 128 + order * 2 ^ 136 + g * 2 ^ 144 + n0 * 2 ^ 160 + n1 * 2 ^ 192 + 2 ^ 224 + 2 ^ 256 +
  0x0001_0001_0001_0001 * 2 ^ 288)
theorem test_traversal :
    Rec.coords (grid 2 2 3 0) 2 = [1, 1, 0, 0] ∧ Rec.coords (grid 3 3 2 0) 6 = [2, 0, 0, 0] ∧ Rec.coords (grid 5 3 4 2) 7 = [3, 0, 0, 0] ∧
    Rec.coords (grid 5 3 4 2) 13 = [4, 1, 0, 0] := by decide +kernel
/-- R453: a rack group's share of 400,000 W under a limit of 3,000. -/
theorem test_power_share :
    (match exec (.powerWindowBoundary 2000 ⟨.none, []⟩) { out := { pcap := [(0x100, 3000), (0x110, 1200), (0x120, BitVec.ofNat 64 (400000 * 2 ^ 32 + 1)), (0x128, 0x01C7)] } } with
     | .next t => some ((t.pcap 0x118).toNat / 2 ^ 16 % 2 ^ 16)
     | _ => none) = some 2777 := by decide +kernel
/-- FIPS 180-4's message "abc", one of two blocks, and ECDSA with a test key, their results computed outside Lean. -/
theorem test_digest : sha512Bytes [0x61, 0x62, 0x63] = leBytes 64 0x9FA44CA54FC99A2A0EE83C6423444D45BDEBFEA3233CBA36A8C14F272A9992219AD3554BE6EE9E0AA27EA9894EFAE612314120AE497341CCBA7A6193A135AFDD := by
  decide +kernel

/-! ## Every instruction word

For each row of the spec's opcode table a word made of its fixed bits and of operand fields that are not zero, laid where the table
places them, and the instruction that it stands for. -/

noncomputable def reads (l : List (W32 × Instr)) : Bool := l.all fun e => decide (decode e.1 = .ok e.2)
theorem test_decode_00_to_08 : reads [
    (0x0000_0000, .illegalWordZeros), (0x016F_953B, .bra ⟨6, 1, 0x7953b⟩), (0x023B_289A, .call ⟨3, 1, 0x3289a⟩),
    (0x0300_A807, .jrGo ⟨0x15, 1, 1, 1⟩), (0x0312_D827, .jrLink ⟨2, 0x1b, 9, 1, 1⟩), (0x0320_201B, .jrRet ⟨4, 6, 1, 1⟩),
    (0x0400_0000, .taskExit), (0x0410_0000, .taskYield), (0x0420_0000, .taskPark), (0x0439_8040, .taskHaltHalt 0x13 1),
    (0x043F_0241, .taskHaltResume 0x1e 9), (0x0433_8042, .taskHaltRetire 7 1), (0x0500_0006, .trapSys 6),
    (0x0510_001C, .trapBrk 0x1c), (0x0523_8005, .trapAssert 7 5), (0x0600_0000, .eret), (0x0700_0106, .sysrGet 4 6),
    (0x0719_001C, .sysrSet 0x12 0x1c), (0x0721_0035, .sysrSetb 2 0x35), (0x0739_8008, .sysrClrb 0x13 8), (0x0800_0002, .modeSetrm 2),
    (0x0810_0000, .modeMobile), (0x0820_0000, .modeAnchor), (0x0830_02C0, .modeGetfl 0xb), (0x0840_0029, .modeClrfl 0x29)] = true := by decide +kernel
theorem test_decode_09_to_10 : reads [
    (0x0909_FC41, .mbxPost 0x13 0x1f 1 1), (0x0919_8280, .mbxFetch 0x13 0xa), (0x0920_01C0, .mbxCount 7), (0x0A00_8000, .waitFull 1),
    (0x0A14_0040, .waitAny 8 1), (0x1009_E157, .aluAdd ⟨9, 0x1c, 5, 5, 1, 1⟩), (0x1017_2C8B, .aluSub ⟨7, 5, 0x12, 2, 1, 1⟩),
    (0x102A_54BB, .aluMul ⟨0xa, 0xa, 0x12, 0xe, 1, 1⟩), (0x103B_312B, .aluMulh ⟨0xb, 6, 4, 0xa, 1, 1⟩),
    (0x104A_A9DB, .aluMulhu ⟨0xa, 0x15, 7, 6, 1, 1⟩), (0x1052_95CB, .aluAnd ⟨2, 0x12, 0x17, 2, 1, 1⟩),
    (0x106A_1513, .aluOr ⟨0xa, 2, 0x14, 4, 1, 1⟩), (0x1078_B49F, .aluXor ⟨8, 0x16, 0x12, 7, 1, 1⟩),
    (0x108D_5BEB, .aluAndn ⟨0xd, 0xb, 0xf, 0xa, 1, 1⟩), (0x109F_7B17, .aluOrn ⟨0xf, 0xf, 0xc, 5, 1, 1⟩),
    (0x10A4_D1B3, .aluShl ⟨4, 0x1a, 6, 0xc, 1, 1⟩), (0x10BD_40EB, .aluShr ⟨0xd, 8, 3, 0xa, 1, 1⟩),
    (0x10C5_8C3F, .aluSra ⟨5, 0x11, 0x10, 0xf, 1, 1⟩), (0x10D6_C3D7, .aluRot ⟨6, 0x18, 0xf, 5, 1, 1⟩),
    (0x10EA_1927, .aluMin ⟨0xa, 3, 4, 9, 1, 1⟩), (0x10F7_365B, .aluMax ⟨7, 6, 0x19, 6, 1, 1⟩)] = true := by decide +kernel
theorem test_decode_11_to_12 : reads [
    (0x1103_F41F, .alxMinu ⟨3, 0x1e, 0x10, 7, 1, 1⟩), (0x1111_FD8B, .alxMaxu ⟨1, 0x1f, 0x16, 2, 1, 1⟩),
    (0x112D_94F7, .alxDiv ⟨0xd, 0x12, 0x13, 0xd, 1, 1⟩), (0x113F_DADB, .alxDivu ⟨0xf, 0x1b, 0xb, 6, 1, 1⟩),
    (0x114C_6523, .alxRem ⟨0xc, 0xc, 0x14, 8, 1, 1⟩), (0x115A_D3CB, .alxRemu ⟨0xa, 0x1a, 0xf, 2, 1, 1⟩),
    (0x116E_1817, .alxClz ⟨0xe, 3, 5, 1, 1⟩), (0x1178_B82F, .alxCtz ⟨8, 0x17, 0xb, 1, 1⟩), (0x1182_1033, .alxPopc ⟨2, 2, 0xc, 1, 1⟩),
    (0x119C_502F, .alxBrev ⟨0xc, 0xa, 0xb, 1, 1⟩), (0x11AA_B03B, .alxBswap ⟨0xa, 0x16, 0xe, 1, 1⟩),
    (0x11B8_55DF, .alxSel ⟨8, 0xa, 0x17, 7, 1, 1⟩), (0x11CF_B307, .alxLea1 ⟨0xf, 0x16, 0xc, 1, 1, 1⟩),
    (0x11D8_61AB, .alxLea2 ⟨8, 0xc, 6, 0xa, 1, 1⟩), (0x11E2_8093, .alxLea3 ⟨2, 0x10, 2, 4, 1, 1⟩),
    (0x11FD_5173, .alxLea4 ⟨0xd, 0xa, 5, 0xc, 1, 1⟩), (0x1204_6B7F, .bitsExt ⟨4, 0xd, 0xd, 0xf, 1, 1⟩),
    (0x121E_80CF, .bitsExtu ⟨0xe, 0x10, 3, 3, 1, 1⟩), (0x1228_6C97, .bitsIns ⟨8, 0xd, 0x12, 5, 1, 1⟩)] = true := by decide +kernel
theorem test_decode_13_to_1D : reads [
    (0x130F_283B, .movMov ⟨0xf, 5, 0xe, 1, 1⟩), (0x1317_003B, .movMovp ⟨7, 0xe, 1, 1⟩), (0x1320_9017, .movSetp ⟨0x12, 5, 1, 1⟩),
    (0x133C_701B, .movZx8 ⟨0xc, 0xe, 6, 1, 1⟩), (0x134B_E81F, .movZx16 ⟨0xb, 0x1d, 7, 1, 1⟩), (0x1354_280B, .movZx32 ⟨4, 5, 2, 1, 1⟩),
    (0x1363_2813, .movSx8 ⟨3, 5, 4, 1, 1⟩), (0x137B_4007, .movSx16 ⟨0xb, 8, 1, 1, 1⟩), (0x1388_D82B, .movSx32 ⟨8, 0x1b, 0xa, 1, 1⟩),
    (0x1434_A417, .addi ⟨3, 9, 0x2417⟩), (0x1512_B5A1, .andi ⟨1, 5, 0x35a1⟩), (0x1696_4E0F, .ori ⟨9, 0xc, 0x4e0f⟩),
    (0x17A5_FA00, .xori ⟨0xa, 0xb, 0x7a00⟩), (0x183B_EDFB, .shli ⟨3, 0x17, 0x6dfb⟩), (0x199F_CF0E, .shri ⟨9, 0x1f, 0x4f0e⟩),
    (0x1ABB_5EB2, .srai ⟨0xb, 0x16, 0x5eb2⟩), (0x1B10_3A74, .li ⟨1, 0x3a74⟩), (0x1CFE_63D7, .lhi ⟨0xf, 0x1c, 0x63d7⟩),
    (0x1DEB_6621, .muli ⟨0xe, 0x16, 0x6621⟩)] = true := by decide +kernel
theorem test_decode_20_to_21 : reads [
    (0x2009_6B5F, .fpuFadd ⟨9, 0xd, 0xd, 7, 1, 1⟩), (0x2017_242F, .fpuFsub ⟨7, 4, 0x10, 0xb, 1, 1⟩),
    (0x2027_11CB, .fpuFmul ⟨7, 2, 7, 2, 1, 1⟩), (0x2034_798B, .fpuFdiv ⟨4, 0xf, 6, 2, 1, 1⟩),
    (0x2046_A007, .fpuFsqrt ⟨6, 0x14, 1, 1, 1⟩), (0x2052_0CCF, .fpuFmin ⟨2, 1, 0x13, 3, 1, 1⟩),
    (0x2069_27DB, .fpuFmax ⟨9, 4, 0x1f, 6, 1, 1⟩), (0x207A_080B, .fpuFabs ⟨0xa, 1, 2, 1, 1⟩),
    (0x208E_382B, .fpuFneg ⟨0xe, 7, 0xa, 1, 1⟩), (0x2097_2D57, .fpuFsgnj ⟨7, 5, 0x15, 5, 1, 1⟩),
    (0x20A6_A323, .fpuFma ⟨6, 0x14, 0xc, 8, 1, 1⟩), (0x20B2_2723, .fpuFms ⟨2, 4, 0x1c, 8, 1, 1⟩),
    (0x20C8_8417, .fpuFnma ⟨8, 0x10, 0x10, 5, 1, 1⟩), (0x20D2_280B, .fpuFclass ⟨2, 5, 2, 1, 1⟩),
    (0x210C_5833, .fcvtI2f ⟨0xc, 0xb, 0xc, 1, 1⟩), (0x2115_803B, .fcvtU2f ⟨5, 0x10, 0xe, 1, 1⟩),
    (0x212C_3027, .fcvtF2i ⟨0xc, 6, 9, 1, 1⟩), (0x2131_3827, .fcvtF2u ⟨1, 7, 9, 1, 1⟩), (0x2146_2833, .fcvtF2f ⟨6, 5, 0xc, 1, 1⟩),
    (0x2159_F007, .fcvtTobf16 ⟨9, 0x1e, 1, 1, 1⟩), (0x216D_8817, .fcvtFrombf16 ⟨0xd, 0x11, 5, 1, 1⟩),
    (0x217B_E00B, .fcvtTofp16 ⟨0xb, 0x1c, 2, 1, 1⟩), (0x218C_E017, .fcvtFromfp16 ⟨0xc, 0x1c, 5, 1, 1⟩)] = true := by decide +kernel
theorem test_decode_22_to_41 : reads [
    (0x2209_678F, .fcmpFeq ⟨9, 0xc, 0x1e, 3, 1, 1⟩), (0x2216_CA27, .fcmpFlt ⟨6, 0x19, 8, 9, 1, 1⟩),
    (0x2229_CC5B, .fcmpFle ⟨9, 0x19, 0x11, 6, 1, 1⟩), (0x223B_4537, .fcmpFun ⟨0xb, 8, 0x14, 0xd, 1, 1⟩),
    (0x300D_CF13, .cmpEq ⟨0xd, 0x19, 0x1c, 4, 1, 1⟩), (0x301D_46DF, .cmpNe ⟨0xd, 8, 0x1b, 7, 1, 1⟩),
    (0x302C_D213, .cmpLt ⟨0xc, 0x1a, 8, 4, 1, 1⟩), (0x3039_8333, .cmpLtu ⟨9, 0x10, 0xc, 0xc, 1, 1⟩),
    (0x3041_0E97, .cmpLe ⟨1, 1, 0x1a, 5, 1, 1⟩), (0x3058_49F3, .cmpLeu ⟨8, 9, 7, 0xc, 1, 1⟩),
    (0x306A_FB23, .cmpGt ⟨0xa, 0x1f, 0xc, 8, 1, 1⟩), (0x307D_F61B, .cmpGtu ⟨0xd, 0x1e, 0x18, 6, 1, 1⟩),
    (0x3086_1A0B, .cmpGe ⟨6, 3, 8, 2, 1, 1⟩), (0x3094_81DB, .cmpGeu ⟨4, 0x10, 7, 6, 1, 1⟩),
    (0x30A4_853F, .cmpTst ⟨4, 0x10, 0x14, 0xf, 1, 1⟩), (0x31AD_803F, .ceqi ⟨0xa, 0x1b, 0x3f⟩), (0x328F_5395, .clti ⟨8, 0x1e, 0x5395⟩),
    (0x336D_5253, .cltui ⟨6, 0x1a, 0x5253⟩), (0x3402_72CB, .predAnd ⟨2, 0xe, 0xb, 2, 1, 1⟩),
    (0x341F_3B73, .predOr ⟨0xf, 7, 0xd, 0xc, 1, 1⟩), (0x342D_223F, .predXor ⟨0xd, 4, 8, 0xf, 1, 1⟩),
    (0x3433_3B6F, .predAndn ⟨3, 7, 0xd, 0xb, 1, 1⟩), (0x3446_1037, .predNot ⟨6, 2, 0xd, 1, 1⟩),
    (0x345C_3823, .predMov ⟨0xc, 7, 8, 1, 1⟩), (0x407C_3CA3, .ld ⟨7, 0x18, 3, 3, 0xa3⟩), (0x4132_B65D, .st ⟨3, 5, 3, 1, 0x25d⟩)] = true := by decide +kernel
theorem test_decode_42_to_4A : reads [
    (0x42F7_BC96, .ldacq ⟨0xf, 0xf, 3, 3, 0x96⟩), (0x43AD_BAA2, .strel ⟨0xa, 0x1b, 3, 2, 0x2a2⟩),
    (0x44F6_30A0, .ldsy ⟨0xf, 0xc, 3, 0xa0⟩), (0x4599_3087, .stsy ⟨9, 0x12, 3, 0x87⟩), (0x4600_BE9A, .pf ⟨1, 3, 3, 0x29a⟩),
    (0x4702_4719, .amoAdd ⟨4, 0x11, 0xc, 1, 2, 1⟩), (0x471D_F119, .amoAnd ⟨0x1b, 0x1c, 4, 1, 2, 1⟩),
    (0x4725_453A, .amoOr ⟨0xa, 0x11, 4, 3, 2, 2⟩), (0x4739_3B97, .amoXor ⟨0x12, 0xe, 0xe, 1, 1, 3⟩),
    (0x4746_763F, .amoMin ⟨0xc, 0x1d, 8, 3, 3, 3⟩), (0x4757_6FF7, .amoMax ⟨0xe, 0x1b, 0xf, 3, 1, 3⟩),
    (0x4762_C659, .amoMinu ⟨5, 0x11, 9, 1, 2, 1⟩), (0x477A_0755, .amoMaxu ⟨0x14, 1, 0xd, 1, 1, 1⟩),
    (0x4788_531D, .amoSwap ⟨0x10, 0x14, 0xc, 1, 3, 1⟩), (0x4795_DA7E, .amoCas ⟨0xb, 0x16, 9, 3, 3, 2⟩),
    (0x47AD_64B6, .amoFadd ⟨0x1a, 0x19, 2, 3, 1, 2⟩), (0x4804_1C09, .redAdd ⟨8, 7, 2, 1⟩), (0x481C_900E, .redFadd ⟨0x19, 4, 3, 2⟩),
    (0x4827_C805, .redMin ⟨0xf, 0x12, 1, 1⟩), (0x4837_AC0F, .redMax ⟨0xf, 0xb, 3, 3⟩), (0x484A_4407, .redOr ⟨0x14, 0x11, 1, 3⟩),
    (0x4854_BC0F, .redAnd ⟨9, 0xf, 3, 3⟩), (0x4900_0002, .fenceAcq 2), (0x4910_0003, .fenceRel 3), (0x4920_0001, .fenceFull 1),
    (0x4A0B_8000, .go 0x17)] = true := by decide +kernel
theorem test_decode_50_to_51 : reads [
    (0x5008_F7AD, .vfAdd ⟨0x11, 0x1d, 0x1d, 3, 1⟩), (0x501D_BCB2, .vfSub ⟨0x1b, 0xf, 5, 4, 2⟩),
    (0x5027_AC7A, .vfMul ⟨0xf, 0xb, 3, 6, 2⟩), (0x5031_9ECD, .vfFma ⟨3, 7, 0x16, 3, 1⟩),
    (0x504F_DEB9, .vfFms ⟨0x1f, 0x17, 0x15, 6, 1⟩), (0x5054_F4B1, .vfFnma ⟨9, 0x1d, 5, 4, 1⟩),
    (0x5066_F609, .vfMin ⟨0xd, 0x1d, 0x10, 2, 1⟩), (0x5073_5DD6, .vfMax ⟨6, 0x17, 0xe, 5, 2⟩), (0x5087_1C0D, .vfAbs ⟨0xe, 7, 3, 1⟩),
    (0x509C_3006, .vfNeg ⟨0x18, 0xc, 1, 2⟩), (0x50A7_DC32, .vfDiv ⟨0xf, 0x17, 1, 4, 2⟩), (0x50B8_FC05, .vfSqrt ⟨0x11, 0x1f, 1, 1⟩),
    (0x510E_906D, .vfsAdd ⟨0x1d, 4, 3, 3, 1⟩), (0x511E_E4CE, .vfsSub ⟨0x1d, 0x19, 6, 3, 2⟩),
    (0x512E_7ADE, .vfsMul ⟨0x1c, 0x1e, 0x16, 7, 2⟩), (0x5132_CBD6, .vfsFma ⟨5, 0x12, 0x1e, 5, 2⟩),
    (0x514B_AC6D, .vfsFms ⟨0x17, 0xb, 3, 3, 1⟩), (0x5157_746D, .vfsFnma ⟨0xe, 0x1d, 3, 3, 1⟩),
    (0x516D_2475, .vfsMin ⟨0x1a, 9, 3, 5, 1⟩), (0x5174_F092, .vfsMax ⟨9, 0x1c, 4, 4, 2⟩), (0x5189_380D, .vfsAbs ⟨0x12, 0xe, 3, 1⟩),
    (0x5191_4419, .vfsNeg ⟨2, 0x11, 6, 1⟩), (0x51A3_244A, .vfsDiv ⟨6, 9, 2, 2, 2⟩), (0x51BA_A816, .vfsSqrt ⟨0x15, 0xa, 5, 2⟩)] = true := by decide +kernel
theorem test_decode_52_to_53 : reads [
    (0x5207_C6CA, .viAdd ⟨0xf, 0x11, 0x16, 2, 2⟩), (0x521D_0525, .viSub ⟨0x1a, 1, 9, 1, 1⟩),
    (0x522C_464A, .viMul ⟨0x18, 0x11, 0x12, 2, 2⟩), (0x5234_79E6, .viMulh ⟨8, 0x1e, 0xf, 1, 2⟩),
    (0x524B_425E, .viMin ⟨0x16, 0x10, 0x12, 7, 2⟩), (0x525B_9D0D, .viMax ⟨0x17, 7, 8, 3, 1⟩),
    (0x5266_B05D, .viMinu ⟨0xd, 0xc, 2, 7, 1⟩), (0x5271_D70D, .viMaxu ⟨3, 0x15, 0x18, 3, 1⟩), (0x5281_0C1A, .viAbs ⟨2, 3, 6, 2⟩),
    (0x529A_2019, .viNeg ⟨0x14, 8, 6, 1⟩), (0x52A7_98CD, .viAdds ⟨0xf, 6, 6, 3, 1⟩), (0x52B4_B3EE, .viSubs ⟨9, 0xc, 0x1f, 3, 2⟩),
    (0x5304_0BEE, .visAdd ⟨8, 2, 0x1f, 3, 2⟩), (0x5313_0572, .visSub ⟨6, 1, 0xb, 4, 2⟩), (0x5324_C6A9, .visMul ⟨9, 0x11, 0x15, 2, 1⟩),
    (0x5331_A766, .visMulh ⟨3, 9, 0x1b, 1, 2⟩), (0x5349_89A6, .visMin ⟨0x13, 2, 0xd, 1, 2⟩),
    (0x535A_A075, .visMax ⟨0x15, 8, 3, 5, 1⟩), (0x536B_76FE, .visMinu ⟨0x16, 0x1d, 0x17, 7, 2⟩),
    (0x537C_AF12, .visMaxu ⟨0x19, 0xb, 0x18, 4, 2⟩), (0x538C_5019, .visAbs ⟨0x18, 0x14, 6, 1⟩),
    (0x539D_EC1A, .visNeg ⟨0x1b, 0x1b, 6, 2⟩), (0x53AC_5F55, .visAdds ⟨0x18, 0x17, 0x1a, 5, 1⟩),
    (0x53BD_DA7D, .visSubs ⟨0x1b, 0x16, 0x13, 7, 1⟩)] = true := by decide +kernel
theorem test_decode_54_to_56 : reads [
    (0x5401_844A, .vlAnd ⟨3, 1, 2, 2, 2⟩), (0x541F_91BD, .vlOr ⟨0x1f, 4, 0xd, 7, 1⟩), (0x542A_86B5, .vlXor ⟨0x15, 1, 0x15, 5, 1⟩),
    (0x5438_2431, .vlAndn ⟨0x10, 9, 1, 4, 1⟩), (0x544B_447A, .vlShl ⟨0x16, 0x11, 3, 6, 2⟩), (0x5454_E87D, .vlShr ⟨9, 0x1a, 3, 7, 1⟩),
    (0x546C_64EA, .vlSra ⟨0x18, 0x19, 7, 2, 2⟩), (0x5508_71A6, .vlsAnd ⟨0x10, 0x1c, 0xd, 1, 2⟩),
    (0x551C_8A99, .vlsOr ⟨0x19, 2, 0x14, 6, 1⟩), (0x5521_D0AE, .vlsXor ⟨3, 0x14, 5, 3, 2⟩),
    (0x553A_4CA5, .vlsAndn ⟨0x14, 0x13, 5, 1, 1⟩), (0x5548_26C5, .vlsShl ⟨0x10, 9, 0x16, 1, 1⟩),
    (0x555B_415A, .vlsShr ⟨0x16, 0x10, 0xa, 6, 2⟩), (0x5567_BDFD, .vlsSra ⟨0xf, 0xf, 0xf, 7, 1⟩),
    (0x5601_8FD2, .vcmpFeq ⟨3, 3, 0x1e, 4, 2⟩), (0x5612_0F76, .vcmpFlt ⟨4, 3, 0x1b, 5, 2⟩),
    (0x5622_1FC9, .vcmpFle ⟨4, 7, 0x1e, 2, 1⟩), (0x5631_622D, .vcmpFun ⟨2, 0x18, 0x11, 3, 1⟩),
    (0x5642_EEB5, .vcmpIeq ⟨5, 0x1b, 0x15, 5, 1⟩), (0x5653_3112, .vcmpIlt ⟨6, 0xc, 8, 4, 2⟩),
    (0x5660_9832, .vcmpIltu ⟨1, 6, 1, 4, 2⟩), (0x5672_2B0A, .vcmpIle ⟨4, 0xa, 0x18, 2, 2⟩)] = true := by decide +kernel
theorem test_decode_57_to_5A : reads [
    (0x5702_2C9D, .vcmpsFeq ⟨4, 0xb, 4, 7, 1⟩), (0x5711_E57D, .vcmpsFlt ⟨3, 0x19, 0xb, 7, 1⟩),
    (0x5721_5C3A, .vcmpsFle ⟨2, 0x17, 1, 6, 2⟩), (0x5731_8DB1, .vcmpsFun ⟨3, 3, 0xd, 4, 1⟩),
    (0x5741_F9DD, .vcmpsIeq ⟨3, 0x1e, 0xe, 7, 1⟩), (0x5751_905E, .vcmpsIlt ⟨3, 4, 2, 7, 2⟩),
    (0x5763_78AA, .vcmpsIltu ⟨6, 0x1e, 5, 2, 2⟩), (0x5772_ACFE, .vcmpsIle ⟨5, 0xb, 7, 7, 2⟩),
    (0x580E_875E, .vsel ⟨0x1d, 1, 0x1a, 7, 2⟩), (0x590F_74D5, .vcvtNarrow ⟨0x1e, 0x1d, 6, 5, 1⟩),
    (0x5911_88DA, .vcvtNarrows ⟨3, 2, 6, 6, 2⟩), (0x592C_949E, .vcvtWiden ⟨0x19, 5, 4, 7, 2⟩),
    (0x593F_790A, .vcvtI2f ⟨0x1e, 0x1e, 8, 2, 2⟩), (0x5945_A90E, .vcvtF2i ⟨0xb, 0xa, 8, 3, 2⟩),
    (0x5A0A_A00E, .vredFsum ⟨0x15, 8, 3, 2⟩), (0x5A12_1819, .vredFmax ⟨4, 6, 6, 1⟩), (0x5A23_C41D, .vredFmin ⟨7, 0x11, 7, 1⟩),
    (0x5A37_F80E, .vredIsum ⟨0xf, 0x1e, 3, 2⟩), (0x5A42_C809, .vredImax ⟨5, 0x12, 2, 1⟩), (0x5A53_2C16, .vredImin ⟨6, 0xb, 5, 2⟩),
    (0x5A64_300D, .vredAnd ⟨8, 0xc, 3, 1⟩), (0x5A7E_841A, .vredOr ⟨0x1d, 1, 6, 2⟩)] = true := by decide +kernel
theorem test_decode_5B_to_63 : reads [
    (0x5B07_622A, .vpermPerm ⟨0xe, 0x18, 0x11, 2, 2⟩), (0x5B15_E452, .vpermRot ⟨0xb, 0x19, 2, 4, 2⟩),
    (0x5B22_DA35, .vpermBcastl ⟨5, 0x16, 0x11, 5, 1⟩), (0x5B31_A7AA, .vpermZip ⟨3, 9, 0x1d, 2, 2⟩),
    (0x5B4A_BC11, .vpermUnzip ⟨0x15, 0xf, 4, 1⟩), (0x5B52_8812, .vpermCompress ⟨5, 2, 4, 2⟩),
    (0x5B6F_CC11, .vpermExpand ⟨0x1f, 0x13, 4, 1⟩), (0x5B76_801E, .vpermIota 0xd 7 2), (0x5C07_A01D, .vsfEx2 ⟨0xf, 8, 7, 1⟩),
    (0x5C12_9415, .vsfLg2 ⟨5, 5, 5, 1⟩), (0x5C2F_EC1A, .vsfRcp ⟨0x1f, 0x1b, 6, 2⟩), (0x5C31_C81D, .vsfRsqrt ⟨3, 0x12, 7, 1⟩),
    (0x5C4D_1409, .vsfSin ⟨0x1a, 5, 2, 1⟩), (0x5C5A_DC0E, .vsfCos ⟨0x15, 0x17, 3, 2⟩), (0x5C68_D411, .vsfTanh ⟨0x11, 0x15, 4, 1⟩),
    (0x5C72_0C0D, .vsfSigm ⟨4, 3, 3, 1⟩), (0x5D06_8129, .vmvSplat 0xd 9 2 1), (0x5D10_C942, .vmvExtract 1 0x12 0xa 2),
    (0x5D2F_AEA2, .vmvInsert 0x1f 0xb 0x15 2), (0x5D34_A800, .vmvMtos 9 1 2), (0x5D46_8100, .vmvStom 1 5 8),
    (0x600F_DDB9, .vld ⟨1, 0x1f, 0xe, 6, 3, 2, 1⟩), (0x6109_E1B9, .vst ⟨1, 7, 0x10, 6, 3, 2, 1⟩),
    (0x624A_2D28, .vgth ⟨9, 8, 0x16, 4, 2, 2⟩), (0x6380_AEF8, .vsct ⟨0x10, 2, 0x17, 3, 3, 2⟩)] = true := by decide +kernel
theorem test_decode_64_to_72 : reads [
    (0x6406_02C0, .gangForm 0xc 0xb), (0x6416_8100, .gangJoin 0xd 4), (0x6420_0000, .gangDisband), (0x6430_0040, .gangIdx 1),
    (0x70F5_21B0, .mmaE4m3 ⟨7, 1, 0xa, 0, 0x10, 1, 1, 3⟩), (0x70B1_21B1, .mmaE5m2 ⟨5, 1, 2, 0, 0x10, 1, 1, 3⟩),
    (0x7055_21B2, .mmaE4m3e5m2 ⟨2, 1, 0xa, 0, 0x10, 1, 1, 3⟩), (0x7054_2183, .mmaE2m1 ⟨2, 1, 8, 0, 0x10, 1, 1, 0⟩),
    (0x7054_0184, .mmaBf16 ⟨2, 1, 8, 0, 0, 1, 1, 0⟩), (0x7072_0185, .mmaFp16 ⟨3, 1, 4, 0, 0, 1, 1, 0⟩),
    (0x70B8_2186, .mmaI8 ⟨5, 1, 0x10, 0, 0x10, 1, 1, 0⟩), (0x705E_2187, .mmaU8i8 ⟨2, 1, 0x1c, 0, 0x10, 1, 1, 0⟩),
    (0x7100_0004, .accZero 4), (0x7117_7ACD, .accLd 0xe 0x1e 0xb 1 5), (0x7122_F9CA, .accSt 5 0x1e 7 1 2),
    (0x7130_D002, .accRowRead 1 0x14 2), (0x7137_080E, .accRowWrite 0xe 2 6), (0x7141_0002, .accScale 2 2),
    (0x7206_BC03, .skdSet 0xd 0xf 3), (0x7210_0002, .skdReset 2), (0x7220_0301, .skdPos 0xc 1)] = true := by decide +kernel
theorem test_decode_80_to_90 : reads [
    (0x8001_F8C6, .cbCfg 3 0x1e 3 6), (0x8013_80CB, .cbPut 7 3 0xb), (0x802F_024C, .cbGet 0x1e 9 0xc), (0x8030_0201, .cbRoom 8 1),
    (0x8040_014B, .cbCount 5 0xb), (0x805C_0017, .cbWait 0x18 1 7), (0x810D_8180, .engBind 0x1b 6), (0x8115_8000, .engArm 0xb),
    (0x8127_8000, .engOnce 0xf), (0x8133_0000, .engUnbind 6), (0x8142_0040, .engStat 4 1), (0x8202_2482, .copyLin 4 9 2 2),
    (0x8216_7083, .copyTile2d 0xc 0x1c 2 3), (0x822C_1DC2, .copyPeer 0x18 7 7 2), (0x823C_6D42, .copyBcast 0x18 0x1b 5 2),
    (0x8301_804C, .bankFmtset 3 1 0xc), (0x8310_0204, .bankFmtget 8 4), (0x8320_0006, .bankGate 6), (0x8330_0009, .bankWake 9),
    (0x840F_0201, .rlkQuery 0x1e 8 1), (0x8413_8000, .rlkDrop 7), (0x9005_B304, .barReg 0xb 0xc 0xc 4), (0x9010_0046, .barArrive 1 6),
    (0x9027_0002, .barWait 0xe 2), (0x9030_0346, .barArrw 0xd 6), (0x9040_0007, .barDrop 7)] = true := by decide +kernel
theorem test_decode_91_to_A3 : reads [
    (0x9106_8040, .arBegin 0xd 1), (0x9110_0000, .arAbort), (0x9120_01C0, .arDraw 7), (0x9130_0040, .arStatus 1),
    (0x9207_8080, .pcommit 0xf 2), (0x930D_7840, .annealCfg 0x1a 0x1e 1), (0x9310_0140, .annealOff 5), (0x9320_0100, .annealReset 4),
    (0xA00C_0C00, .cacheWb 0x18 3), (0xA01E_D000, .cacheInv 0x1d 0x14), (0xA020_0000, .cacheHarvest),
    (0xA035_B002, .cacheRetain 0xb 0xc 2), (0xA045_FC02, .cacheTlbi 0xb 0x1f 2), (0xA101_2717, .lrecPatch 2 9 0xc 0x17),
    (0xA11B_8180, .lrecArm 0x17 6), (0xA12F_014A, .lrecQuery 0x1e 5 0xa), (0xA130_8300, .lrecCancel 1 0xc),
    (0xA14C_8280, .lrecWait 0x19 0xa), (0xA200_0240, .walkNext 9), (0xA210_0369, .walkInfo 0xd 0x29), (0xA30F_8081, .umeCfg 0x1f 2 1),
    (0xA31D_8102, .umeRound 0x1b 4 2), (0xA320_0238, .umeStat 8 3 8), (0xA330_0347, .umeDirty 0xd 7)] = true := by decide +kernel
theorem test_decode_B0_to_FF : reads [
    (0xB00D_0147, .ringPeek 0x1a 5 7), (0xB017_0382, .ringBoard 0xe 0xe 2), (0xB020_00D1, .ringHget 3 4 1),
    (0xB030_801F, .ringHset 1 7 3), (0xB040_0002, .ringAlight 2), (0xB050_0003, .ringRel 3), (0xB06C_9405, .ringRadd 0x19 5 5),
    (0xB074_2C0F, .ringRmax 8 0xb 1 7), (0xB105_BD81, .msgSend 0xb 0xf 6 1), (0xB11D_0340, .msgRecv 0x1a 0xd),
    (0xB12A_0080, .msgProbe 0x14 2), (0xF083_0AE2, .hintImmx 0x830ae2), (0xF100_0007, .hintScl 7), (0xF200_0004, .hintLat 4),
    (0xF300_0001, .hintRh 1), (0xF43F_4F8C, .hintSrk 0x3f4f8c), (0xF500_0000, .hintNop), (0xFFFF_FFFF, .illegalWordOnes)] = true := by decide +kernel

/-- R414: a thread's `ring.peek` behind its own `ring.radd` of a bobbin that another station holds waits with it. -/
theorem test_ring_program_order :
    let q : List RingOp := [⟨1, 0, 1, .radd 1 0, 0, 0⟩, ⟨2, 0, 1, .peek 3 0, 0, 0⟩]
    let s := passing q ((1#64 <<< 32) ||| (5#64 <<< 33))
    stationQueue (ringOps 0 1 4095 q [] s) 0 = q := by decide +kernel

/-- R370: a pre-emption request stops both members of a gang that waits in its slots, and neither of one that goes on. -/
theorem test_waiting_gang_stops :
    let l : Thread := { leading.setBit 20 true with run := .slot 0 }
    let m : Thread := { l with core := 1 }
    let stopped := fun (w : Bool) =>
      (pairOf { l with gangWait := w } m 0).stopParked.threads.map fun e => e.2.run
    stopped true = [.stopped false, .stopped false] ∧ stopped false = [.slot 0, .slot 0] := by decide +kernel

end Sys2Proof.Tests
end

section
/-! The decoder (R46-R73): the round trip, what the decoder reads, and which words carry a guard. -/

namespace Sys2Proof.Laws.Encode

/-- What each constructor's own lemma says, for all of them. -/
theorem statement_holds : ∀ i, Statement i
  | .faultMessageDelivery a => faultMessageDelivery a | .loadCompletion a => loadCompletion a
  | .storePerformAtHome a => storePerformAtHome a | .atomicAtHome a => atomicAtHome a
  | .remoteUpdate a => remoteUpdate a | .migrationDeparture a b => migrationDeparture a b
  | .migrationArrival a => migrationArrival a | .codeAbsent a b => codeAbsent a b
  | .codeStartMessage a b c => codeStartMessage a b c | .codeRefusal a b => codeRefusal a b
  | .syncAccessServe a => syncAccessServe a | .syncRetryLimit a => syncRetryLimit a
  | .mailboxDelivery a => mailboxDelivery a | .resumeMessage a => resumeMessage a
  | .clusterControlWrite a => clusterControlWrite a | .clusterControlRead a => clusterControlRead a
  | .barrierRelease a => barrierRelease a | .heldFpTrapDelivery a => heldFpTrapDelivery a
  | .mmaEngineStart a => mmaEngineStart a | .mmaOperandsConsumed a => mmaOperandsConsumed a
  | .mmaCompletion a => mmaCompletion a | .accTransferCompletion a => accTransferCompletion a
  | .copyEngineStart a => copyEngineStart a | .copyCompletion a => copyCompletion a
  | .engineFiring a b => engineFiring a b | .firingOperandsConsumed a b => firingOperandsConsumed a b
  | .firingCompletion a b => firingCompletion a b | .bankGateEffect a b => bankGateEffect a b
  | .bankWakeEnd a b => bankWakeEnd a b | .allocationClearDone a => allocationClearDone a
  | .releaseClearDone a b => releaseClearDone a b | .storeBufferDrain a b => storeBufferDrain a b
  | .signaturePlacement a b => signaturePlacement a b | .releaseProbeEcho a b => releaseProbeEcho a b
  | .writeLogAppend a => writeLogAppend a | .dirtyLogMerge a => dirtyLogMerge a | .deadlockSweep => deadlockSweep
  | .chunkCommit a => chunkCommit a | .regionSquash a => regionSquash a | .taskStart a => taskStart a
  | .launchCompletion a => launchCompletion a | .walkerHandout a b => walkerHandout a b
  | .walkerSplit a b c => walkerSplit a b c | .preemptionRequest => preemptionRequest
  | .preemptSafePointStop a => preemptSafePointStop a | .preemptTimeoutStop a => preemptTimeoutStop a
  | .preemptionSave => preemptionSave | .preemptionResume => preemptionResume
  | .umeCfgBlockRead a => umeCfgBlockRead a | .umeRoundExecution a => umeRoundExecution a
  | .umeRoundCompletion a => umeRoundCompletion a | .stationPassage a b => stationPassage a b
  | .seamCrossing a => seamCrossing a | .holdBreak a => holdBreak a | .flitData a b c => flitData a b c
  | .flitReplayRequest a b => flitReplayRequest a b | .flitAcknowledge a b => flitAcknowledge a b
  | .flitIdle a b => flitIdle a b | .laneSparing a b => laneSparing a b | .portTraining a b => portTraining a b
  | .portSurpriseDown a => portSurpriseDown a | .copyPeerArrival a b c d e f => copyPeerArrival a b c d e f
  | .fabricMessageArrival a => fabricMessageArrival a | .hostWrite a b c d => hostWrite a b c d
  | .hostRead a b c => hostRead a b c | .doorbellWrite a b => doorbellWrite a b | .hwakeWrite a b => hwakeWrite a b
  | .mgmtReadRegister a => mgmtReadRegister a | .mgmtWriteRegister a b => mgmtWriteRegister a b
  | .mgmtLoadOzrum a b => mgmtLoadOzrum a b | .mgmtArmLaunch a => mgmtArmLaunch a | .trayQuiesce => trayQuiesce
  | .trayDrain => trayDrain | .trayPoweroff => trayPoweroff | .trayReinsertion a => trayReinsertion a
  | .pkgidWrite a => pkgidWrite a | .routeEntryWrite a b => routeEntryWrite a b
  | .pcapRegisterWrite a b => pcapRegisterWrite a b | .pcapStatusClear a => pcapStatusClear a
  | .wrlogWrite a b => wrlogWrite a b | .lrverWrite a b => lrverWrite a b
  | .registerWrite a b c => registerWrite a b c | .powerWindowBoundary a b => powerWindowBoundary a b
  | .powerOnReset a => powerOnReset a | .heartbeatMiss a b c => heartbeatMiss a b c
  | .firmwareUpdate a b c => firmwareUpdate a b c | .coreLastingFault a => coreLastingFault a
  | .hbmUncorrectableRead a b c d => hbmUncorrectableRead a b c d | .translationProbe a => translationProbe a
  | .faultAnswerRetry a b c d => faultAnswerRetry a b c d | .faultAnswerFail a b => faultAnswerFail a b
  | .spdmGetVersion => spdmGetVersion | .spdmGetCapabilities => spdmGetCapabilities
  | .spdmNegotiateAlgorithms a => spdmNegotiateAlgorithms a | .spdmGetDigests => spdmGetDigests
  | .spdmGetCertificate a b => spdmGetCertificate a b | .spdmChallenge a => spdmChallenge a
  | .spdmGetMeasurements a => spdmGetMeasurements a | .tidReleaseMessage a => tidReleaseMessage a
  | .measurementExtendRequest a b => measurementExtendRequest a b | .bra a => bra a | .call a => call a
  | .jrGo a => jrGo a | .jrLink a => jrLink a | .jrRet a => jrRet a | .taskExit => taskExit | .taskYield => taskYield
  | .taskPark => taskPark | .taskHaltHalt a b => taskHaltHalt a b | .taskHaltResume a b => taskHaltResume a b
  | .taskHaltRetire a b => taskHaltRetire a b | .trapSys a => trapSys a | .trapBrk a => trapBrk a
  | .trapAssert a b => trapAssert a b | .eret => eret | .sysrGet a b => sysrGet a b | .sysrSet a b => sysrSet a b
  | .sysrSetb a b => sysrSetb a b | .sysrClrb a b => sysrClrb a b | .modeSetrm a => modeSetrm a
  | .modeMobile => modeMobile | .modeAnchor => modeAnchor | .modeGetfl a => modeGetfl a | .modeClrfl a => modeClrfl a
  | .mbxPost a b c d => mbxPost a b c d | .mbxFetch a b => mbxFetch a b | .mbxCount a => mbxCount a
  | .waitFull a => waitFull a | .waitAny a b => waitAny a b | .aluAdd a => aluAdd a | .aluSub a => aluSub a
  | .aluMul a => aluMul a | .aluMulh a => aluMulh a | .aluMulhu a => aluMulhu a | .aluAnd a => aluAnd a
  | .aluOr a => aluOr a | .aluXor a => aluXor a | .aluAndn a => aluAndn a | .aluOrn a => aluOrn a
  | .aluShl a => aluShl a | .aluShr a => aluShr a | .aluSra a => aluSra a | .aluRot a => aluRot a
  | .aluMin a => aluMin a | .aluMax a => aluMax a | .alxMinu a => alxMinu a | .alxMaxu a => alxMaxu a
  | .alxDiv a => alxDiv a | .alxDivu a => alxDivu a | .alxRem a => alxRem a | .alxRemu a => alxRemu a
  | .alxClz a => alxClz a | .alxCtz a => alxCtz a | .alxPopc a => alxPopc a | .alxBrev a => alxBrev a
  | .alxBswap a => alxBswap a | .alxSel a => alxSel a | .alxLea1 a => alxLea1 a | .alxLea2 a => alxLea2 a
  | .alxLea3 a => alxLea3 a | .alxLea4 a => alxLea4 a | .bitsExt a => bitsExt a | .bitsExtu a => bitsExtu a
  | .bitsIns a => bitsIns a | .movMov a => movMov a | .movMovp a => movMovp a | .movSetp a => movSetp a
  | .movZx8 a => movZx8 a | .movZx16 a => movZx16 a | .movZx32 a => movZx32 a | .movSx8 a => movSx8 a
  | .movSx16 a => movSx16 a | .movSx32 a => movSx32 a | .addi a => addi a | .andi a => andi a | .ori a => ori a
  | .xori a => xori a | .shli a => shli a | .shri a => shri a | .srai a => srai a | .li a => li a | .lhi a => lhi a
  | .muli a => muli a | .fpuFadd a => fpuFadd a | .fpuFsub a => fpuFsub a | .fpuFmul a => fpuFmul a
  | .fpuFdiv a => fpuFdiv a | .fpuFsqrt a => fpuFsqrt a | .fpuFmin a => fpuFmin a | .fpuFmax a => fpuFmax a
  | .fpuFabs a => fpuFabs a | .fpuFneg a => fpuFneg a | .fpuFsgnj a => fpuFsgnj a | .fpuFma a => fpuFma a
  | .fpuFms a => fpuFms a | .fpuFnma a => fpuFnma a | .fpuFclass a => fpuFclass a | .fcvtI2f a => fcvtI2f a
  | .fcvtU2f a => fcvtU2f a | .fcvtF2i a => fcvtF2i a | .fcvtF2u a => fcvtF2u a | .fcvtF2f a => fcvtF2f a
  | .fcvtTobf16 a => fcvtTobf16 a | .fcvtFrombf16 a => fcvtFrombf16 a | .fcvtTofp16 a => fcvtTofp16 a
  | .fcvtFromfp16 a => fcvtFromfp16 a | .fcmpFeq a => fcmpFeq a | .fcmpFlt a => fcmpFlt a | .fcmpFle a => fcmpFle a
  | .fcmpFun a => fcmpFun a | .cmpEq a => cmpEq a | .cmpNe a => cmpNe a | .cmpLt a => cmpLt a | .cmpLtu a => cmpLtu a
  | .cmpLe a => cmpLe a | .cmpLeu a => cmpLeu a | .cmpGt a => cmpGt a | .cmpGtu a => cmpGtu a | .cmpGe a => cmpGe a
  | .cmpGeu a => cmpGeu a | .cmpTst a => cmpTst a | .ceqi a => ceqi a | .clti a => clti a | .cltui a => cltui a
  | .predAnd a => predAnd a | .predOr a => predOr a | .predXor a => predXor a | .predAndn a => predAndn a
  | .predNot a => predNot a | .predMov a => predMov a | .ld a => ld a | .st a => st a | .ldacq a => ldacq a
  | .strel a => strel a | .ldsy a => ldsy a | .stsy a => stsy a | .pf a => pf a | .amoAdd a => amoAdd a
  | .amoAnd a => amoAnd a | .amoOr a => amoOr a | .amoXor a => amoXor a | .amoMin a => amoMin a
  | .amoMax a => amoMax a | .amoMinu a => amoMinu a | .amoMaxu a => amoMaxu a | .amoSwap a => amoSwap a
  | .amoCas a => amoCas a | .amoFadd a => amoFadd a | .redAdd a => redAdd a | .redFadd a => redFadd a
  | .redMin a => redMin a | .redMax a => redMax a | .redOr a => redOr a | .redAnd a => redAnd a
  | .fenceAcq a => fenceAcq a | .fenceRel a => fenceRel a | .fenceFull a => fenceFull a | .go a => go a
  | .vfAdd a => vfAdd a | .vfSub a => vfSub a | .vfMul a => vfMul a | .vfFma a => vfFma a | .vfFms a => vfFms a
  | .vfFnma a => vfFnma a | .vfMin a => vfMin a | .vfMax a => vfMax a | .vfAbs a => vfAbs a | .vfNeg a => vfNeg a
  | .vfDiv a => vfDiv a | .vfSqrt a => vfSqrt a | .vfsAdd a => vfsAdd a | .vfsSub a => vfsSub a
  | .vfsMul a => vfsMul a | .vfsFma a => vfsFma a | .vfsFms a => vfsFms a | .vfsFnma a => vfsFnma a
  | .vfsMin a => vfsMin a | .vfsMax a => vfsMax a | .vfsAbs a => vfsAbs a | .vfsNeg a => vfsNeg a
  | .vfsDiv a => vfsDiv a | .vfsSqrt a => vfsSqrt a | .viAdd a => viAdd a | .viSub a => viSub a | .viMul a => viMul a
  | .viMulh a => viMulh a | .viMin a => viMin a | .viMax a => viMax a | .viMinu a => viMinu a | .viMaxu a => viMaxu a
  | .viAbs a => viAbs a | .viNeg a => viNeg a | .viAdds a => viAdds a | .viSubs a => viSubs a | .visAdd a => visAdd a
  | .visSub a => visSub a | .visMul a => visMul a | .visMulh a => visMulh a | .visMin a => visMin a
  | .visMax a => visMax a | .visMinu a => visMinu a | .visMaxu a => visMaxu a | .visAbs a => visAbs a
  | .visNeg a => visNeg a | .visAdds a => visAdds a | .visSubs a => visSubs a | .vlAnd a => vlAnd a
  | .vlOr a => vlOr a | .vlXor a => vlXor a | .vlAndn a => vlAndn a | .vlShl a => vlShl a | .vlShr a => vlShr a
  | .vlSra a => vlSra a | .vlsAnd a => vlsAnd a | .vlsOr a => vlsOr a | .vlsXor a => vlsXor a
  | .vlsAndn a => vlsAndn a | .vlsShl a => vlsShl a | .vlsShr a => vlsShr a | .vlsSra a => vlsSra a
  | .vcmpFeq a => vcmpFeq a | .vcmpFlt a => vcmpFlt a | .vcmpFle a => vcmpFle a | .vcmpFun a => vcmpFun a
  | .vcmpIeq a => vcmpIeq a | .vcmpIlt a => vcmpIlt a | .vcmpIltu a => vcmpIltu a | .vcmpIle a => vcmpIle a
  | .vcmpsFeq a => vcmpsFeq a | .vcmpsFlt a => vcmpsFlt a | .vcmpsFle a => vcmpsFle a | .vcmpsFun a => vcmpsFun a
  | .vcmpsIeq a => vcmpsIeq a | .vcmpsIlt a => vcmpsIlt a | .vcmpsIltu a => vcmpsIltu a | .vcmpsIle a => vcmpsIle a
  | .vsel a => vsel a | .vcvtNarrow a => vcvtNarrow a | .vcvtNarrows a => vcvtNarrows a | .vcvtWiden a => vcvtWiden a
  | .vcvtI2f a => vcvtI2f a | .vcvtF2i a => vcvtF2i a | .vredFsum a => vredFsum a | .vredFmax a => vredFmax a
  | .vredFmin a => vredFmin a | .vredIsum a => vredIsum a | .vredImax a => vredImax a | .vredImin a => vredImin a
  | .vredAnd a => vredAnd a | .vredOr a => vredOr a | .vpermPerm a => vpermPerm a | .vpermRot a => vpermRot a
  | .vpermBcastl a => vpermBcastl a | .vpermZip a => vpermZip a | .vpermUnzip a => vpermUnzip a
  | .vpermCompress a => vpermCompress a | .vpermExpand a => vpermExpand a | .vpermIota a b c => vpermIota a b c
  | .vsfEx2 a => vsfEx2 a | .vsfLg2 a => vsfLg2 a | .vsfRcp a => vsfRcp a | .vsfRsqrt a => vsfRsqrt a
  | .vsfSin a => vsfSin a | .vsfCos a => vsfCos a | .vsfTanh a => vsfTanh a | .vsfSigm a => vsfSigm a
  | .vmvSplat a b c d => vmvSplat a b c d | .vmvExtract a b c d => vmvExtract a b c d
  | .vmvInsert a b c d => vmvInsert a b c d | .vmvMtos a b c => vmvMtos a b c | .vmvStom a b c => vmvStom a b c
  | .vld a => vld a | .vst a => vst a | .vgth a => vgth a | .vsct a => vsct a | .gangForm a b => gangForm a b
  | .gangJoin a b => gangJoin a b | .gangDisband => gangDisband | .gangIdx a => gangIdx a | .mmaE4m3 a => mmaE4m3 a
  | .mmaE5m2 a => mmaE5m2 a | .mmaE4m3e5m2 a => mmaE4m3e5m2 a | .mmaE2m1 a => mmaE2m1 a | .mmaBf16 a => mmaBf16 a
  | .mmaFp16 a => mmaFp16 a | .mmaI8 a => mmaI8 a | .mmaU8i8 a => mmaU8i8 a | .accZero a => accZero a
  | .accLd a b c d e => accLd a b c d e | .accSt a b c d e => accSt a b c d e | .accRowRead a b c => accRowRead a b c
  | .accRowWrite a b c => accRowWrite a b c | .accScale a b => accScale a b | .skdSet a b c => skdSet a b c
  | .skdReset a => skdReset a | .skdPos a b => skdPos a b | .cbCfg a b c d => cbCfg a b c d
  | .cbPut a b c => cbPut a b c | .cbGet a b c => cbGet a b c | .cbRoom a b => cbRoom a b
  | .cbCount a b => cbCount a b | .cbWait a b c => cbWait a b c | .engBind a b => engBind a b | .engArm a => engArm a
  | .engOnce a => engOnce a | .engUnbind a => engUnbind a | .engStat a b => engStat a b
  | .copyLin a b c d => copyLin a b c d | .copyTile2d a b c d => copyTile2d a b c d
  | .copyPeer a b c d => copyPeer a b c d | .copyBcast a b c d => copyBcast a b c d
  | .bankFmtset a b c => bankFmtset a b c | .bankFmtget a b => bankFmtget a b | .bankGate a => bankGate a
  | .bankWake a => bankWake a | .rlkQuery a b c => rlkQuery a b c | .rlkDrop a => rlkDrop a
  | .barReg a b c d => barReg a b c d | .barArrive a b => barArrive a b | .barWait a b => barWait a b
  | .barArrw a b => barArrw a b | .barDrop a => barDrop a | .arBegin a b => arBegin a b | .arAbort => arAbort
  | .arDraw a => arDraw a | .arStatus a => arStatus a | .pcommit a b => pcommit a b
  | .annealCfg a b c => annealCfg a b c | .annealOff a => annealOff a | .annealReset a => annealReset a
  | .cacheWb a b => cacheWb a b | .cacheInv a b => cacheInv a b | .cacheHarvest => cacheHarvest
  | .cacheRetain a b c => cacheRetain a b c | .cacheTlbi a b c => cacheTlbi a b c
  | .lrecPatch a b c d => lrecPatch a b c d | .lrecArm a b => lrecArm a b | .lrecQuery a b c => lrecQuery a b c
  | .lrecCancel a b => lrecCancel a b | .lrecWait a b => lrecWait a b | .walkNext a => walkNext a
  | .walkInfo a b => walkInfo a b | .umeCfg a b c => umeCfg a b c | .umeRound a b c => umeRound a b c
  | .umeStat a b c => umeStat a b c | .umeDirty a b => umeDirty a b | .ringPeek a b c => ringPeek a b c
  | .ringBoard a b c => ringBoard a b c | .ringHget a b c => ringHget a b c | .ringHset a b c => ringHset a b c
  | .ringAlight a => ringAlight a | .ringRel a => ringRel a | .ringRadd a b c => ringRadd a b c
  | .ringRmax a b c d => ringRmax a b c d | .msgSend a b c d => msgSend a b c d | .msgRecv a b => msgRecv a b
  | .msgProbe a b => msgProbe a b | .hintImmx a => hintImmx a | .hintScl a => hintScl a | .hintLat a => hintLat a
  | .hintRh a => hintRh a | .hintSrk a => hintSrk a | .hintNop => hintNop | .hintUnnamed a b => hintUnnamed a b
  | .illegalWordZeros => illegalWordZeros | .illegalWordOnes => illegalWordOnes
  | .reservedEncoding a => reservedEncoding a

end Sys2Proof.Laws.Encode

namespace Sys2Proof

/-- Settles O2: every constructor's own law of decoding its word, which `Statement` collects. -/
theorem roundTrip : Obligations.RoundTrip := by
  unfold Obligations.RoundTrip
  intro i w hres
  have h := Laws.Encode.statement_holds i
  cases i
  case reservedEncoding v => exact absurd rfl (hres v)
  all_goals exact h w

/-- Settles O4: each written word, laid out by its format, is read by its opcode's decoder. -/
theorem wordsDecode : Obligations.WordsDecode := by
  unfold Obligations.WordsDecode Claims.writtenWords
  decide +kernel
/-! ## Which instructions the decoder reads -/

/-- The step that stands for a word which the decoder turns down (R72). -/
def isReserved : Instr → Bool
  | .reservedEncoding _ => true
  | _ => false

/-- The opcodes of formats RR and BR, whose words carry a guard (R50, R53, R69). -/
def guardedOps : List Nat := [0x01, 0x02, 0x03, 0x10, 0x11, 0x12, 0x13, 0x20, 0x21, 0x22, 0x30, 0x34]

/-- An instruction that has a word, is no reserved encoding, and carries a guard exactly where `g` says so. -/
structure IsWord (g : Bool) (i : Instr) : Prop where
  word : isWord i = true
  named : isReserved i = false
  guard : (Claims.guardOf i).isSome = g

/-- What a decoder answers, if it is an instruction, is a word of its own. -/
def ReadsWord (g : Bool) (d : Except Reject Instr) : Prop := ∀ i, d = .ok i → IsWord g i

theorem readsWord_error (g : Bool) (r : Reject) : ReadsWord g (.error r) := by
  rintro i ⟨⟩

theorem readsWord_ok {g : Bool} {i : Instr} (h : IsWord g i) : ReadsWord g (.ok i) := by
  rintro _ ⟨⟩
  exact h

theorem readsWord_zeros {g : Bool} {i : Instr} (mask w : W32) (h : IsWord g i) : ReadsWord g (zeros mask w i) := by
  unfold zeros
  split
  · exact readsWord_ok h
  · exact readsWord_error g _

/-- Every opcode's decoder answers an error, or a word, some with bits that must be zero (R67, R68, R71). -/
theorem readsWord_decodeOp (w : W32) : ReadsWord (decide ((opOf w).toNat ∈ guardedOps)) (decodeOp w) := by
  unfold decodeOp
  split
  on_goal -1 => exact readsWord_error _ _
  all_goals rename_i h
  all_goals rw [h]
  any_goals simp only [decode01, decode02, decode03, decode04, decode05, decode06, decode07, decode08, decode09, decode0A,
    decode10, decode11, decode12, decode13, decode14, decode15, decode16, decode17, decode18, decode19, decode1A, decode1B,
    decode1C, decode1D, decode20, decode21, decode22, decode30, decode31, decode32, decode33, decode34, decode40, decode41,
    decode42, decode43, decode44, decode45, decode46, decode47, decode48, decode49, decode4A, decode50, decode51, decode52,
    decode53, decode54, decode55, decode56, decode57, decode58, decode59, decode5A, decode5B, decode5C, decode5D, decode60,
    decode61, decode62, decode63, decode64, decode70, decode71, decode72, decode80, decode81, decode82, decode83, decode84,
    decode90, decode91, decode92, decode93, decodeA0, decodeA1, decodeA2, decodeA3, decodeB0, decodeB1, decodeF0, decodeF1,
    decodeF2, decodeF3, decodeF4, decodeF5]
  all_goals repeat' split
  any_goals exact readsWord_error _ _
  any_goals exact readsWord_zeros _ _ ⟨rfl, rfl, rfl⟩
  all_goals exact readsWord_ok ⟨rfl, rfl, rfl⟩

theorem gate_ok {i j : Instr} (h : gate i = .ok j) : j = i ∧ wellFormed i = true := by
  unfold gate at h
  split at h
  · cases h
    exact ⟨rfl, ‹_›⟩
  · cases h

/-- What the decoder reads: an illegal word, or what the opcode's decoder reads if its field conditions hold (R70, R71). -/
theorem decode_ok {w : W32} {i : Instr} (h : decode w = .ok i) :
    IsWord (decide ((opOf w).toNat ∈ guardedOps)) i ∧ wellFormed i = true := by
  unfold decode at h
  split at h
  · cases h
    subst w
    exact ⟨⟨rfl, rfl, by decide⟩, rfl⟩
  split at h
  · cases h
    subst w
    exact ⟨⟨rfl, rfl, by decide⟩, rfl⟩
  split at h
  · rename_i j hd
    obtain ⟨rfl, hwf⟩ := gate_ok h
    exact ⟨readsWord_decodeOp w _ hd, hwf⟩
  · cases h

/-- Settles O3: the decoder reads words alone, and the word of a well-formed instruction decodes to it (`roundTrip`). -/
theorem decodeSound : Obligations.DecodeSound := by
  unfold Obligations.DecodeSound
  intro w
  split
  · rename_i i h
    obtain ⟨hi, hwf⟩ := decode_ok h
    obtain ⟨v, hv⟩ := Option.isSome_iff_exists.mp hi.word
    have hres : ∀ u, i ≠ .reservedEncoding u := by
      rintro u rfl
      cases hi.named
    exact ⟨hwf, by simp [decodeIssue, h], v, hv, roundTrip i v hres hv hwf⟩
  · rename_i r h
    simp [decodeIssue, h]

theorem opOf_toNat (w : W32) : (opOf w).toNat = w.toNat / 2 ^ 24 := by
  unfold opOf
  rw [BitVec.extractLsb'_toNat, Nat.shiftRight_eq_div_pow]
  exact Nat.mod_eq_of_lt (by omega)

namespace Machine
open Claims

/-! ## Guards (R69) -/

/-- A word that carries a guard issues under it, and is barred to no mode (R26, R35). -/
theorem exec_eq_issue_of_guard {i : Instr} {g : BitVec 4 × BitVec 1} (s : State) (h : guardOf i = some g) :
    ∃ q body, exec i s = issue q s body ∧ q.sup = false ∧ q.anch = false ∧ q.guard = some g := by
  cases i
  all_goals cases h
  case fcvtF2f o =>
    -- the width picks one of two rounding forms, both under the same guard
    by_cases hw : o.w = 1
    · exact ⟨_, _, if_pos hw, rfl, rfl, rfl⟩
    · exact ⟨_, _, if_neg hw, rfl, rfl, rfl⟩
  all_goals exact ⟨_, _, rfl, rfl, rfl, rfl⟩

theorem precheck_off {th : Thread} {q : Issue} {w : W32} {pend : BitVec 5 → Bool} {g : BitVec 4} {n : BitVec 1}
    (hs : q.sup = false) (ha : q.anch = false) (hq : q.guard = some (g, n)) (hg : th.guardOk g n = false) :
    th.precheck q w pend = .off := by
  simp [Thread.precheck, hs, ha, hq, hg]

/-- A guard on `p0`, which reads true, holds exactly with PN = 0 (R16, R69). -/
theorem guardOk_p0 (th : Thread) : th.guardOk 0 0 = true ∧ th.guardOk 0 1 = false := by
  simp [Thread.guardOk, Thread.p]

end Machine

/-- Settles O9: a guarded word is `issue` under its guard, and `acts_off` says what that does when the guard is false; which
words carry one is `decode_ok`. -/
theorem guardedOff : Obligations.GuardedOff := by
  unfold Obligations.GuardedOff
  refine ⟨fun i pg pn s th hg halone hoff => ?_, Machine.guardOk_p0, fun i w h => ?_⟩
  · obtain ⟨q, body, hi, hs, ha, hq⟩ := Machine.exec_eq_issue_of_guard s hg
    exact Machine.acts_off halone hi (Machine.precheck_off hs ha hq hoff)
  · change (Claims.guardOf i).isSome = true ↔ w.toNat / 2 ^ 24 ∈ guardedOps
    rw [(decode_ok h).1.guard, opOf_toNat, decide_eq_true_iff]

end Sys2Proof
end

section
/-! Immediates, branches, calls and jumps (R52, R54, R114-R116, R126). -/

namespace Sys2Proof.Machine
open Claims

/-! ## Immediates (R52, R126) -/

/-- A number's signed view is what a word of that width holds. -/
theorem sgn_toNat {n : Nat} (x : BitVec n) : sgn n x.toNat = x.toInt := by
  unfold sgn
  rw [BitVec.toInt_eq_msb_cond, BitVec.msb_eq_getLsbD_last, BitVec.getLsbD]
  push_cast
  rfl

/-- A register holds a result modulo 2^64. -/
theorem written_64 (r : Int) : written 64 r = BitVec.ofInt 64 r := by
  have h : (r % 2 ^ 64).toNat = (BitVec.ofInt 64 r).toNat := by simp
  unfold written
  rw [h, sgn_toNat, BitVec.ofInt_toInt]

/-- The immediate of an RI word is R52's number. -/
theorem toInt_immRI (th : Thread) (imm : BitVec 15) : (th.immRI imm).toInt = immediate th.c.hint imm := by
  unfold Thread.immRI Thread.immx? immediate
  split
  · rename_i h
    rw [if_neg (by simpa using h), sgn_toNat, BitVec.toInt_signExtend_of_le (by decide)]
  · rename_i h
    obtain ⟨hv, rfl⟩ : th.c.hint.getLsbD 58 = true ∧ th.c.hint.extractLsb' 0 24 = _ := by simpa using h
    rw [if_pos hv, BitVec.toInt_signExtend_of_le (by decide), ← sgn_toNat]
    congr 1
    rw [BitVec.toNat_append, BitVec.extractLsb'_toNat, ← Nat.shiftLeft_add_eq_or_of_lt imm.isLt, Nat.shiftLeft_eq]
    rfl

theorem immRI_eq (th : Thread) (imm : BitVec 15) : th.immRI imm = BitVec.ofInt 64 (immediate th.c.hint imm) := by
  rw [← toInt_immRI, BitVec.ofInt_toInt]

/-- The 64 bits of a word's signed view. -/
theorem toNat_toInt_emod (m : W64) : (m.toInt % 2 ^ 64).toNat = m.toNat := by
  conv_rhs => rw [← BitVec.ofInt_toInt (x := m), BitVec.toNat_ofInt]
  rfl

/-- A shift takes a word's low six bits. -/
theorem toNat_toInt_emod_64 (m : W64) : (m.toInt % 64).toNat = m.toNat % 64 := by
  rw [← toNat_toInt_emod m]
  omega

theorem ofInt_toNat (a : W64) : BitVec.ofInt 64 (a.toNat : Int) = a := by
  rw [BitVec.ofInt_natCast, BitVec.ofNat_toNat, BitVec.setWidth_eq]

/-- An RI word that writes a function of its register and its immediate. -/
theorem acts_ri {i : Instr} {s : State} {th : Thread} {o : Ri} {f : Thread → W64} (h : s.Alone th) (hr : th.Ready [o.sa] [o.sd])
    (hi : exec i s = issue (qRi o) s (writesX o.sd f)) (hf : ∀ ch, f { th with chunk := ch } = f th) {v : Int}
    (hv : f th = BitVec.ofInt 64 v) : Acts i s th (th.retire.setX o.sd (written 64 v)) := by
  rw [written_64, ← hv]
  exact acts_writesX h hi (precheck_go_plain hr) rfl hf

theorem add_eq_ofInt (a m : W64) : a + m = BitVec.ofInt 64 (a.toNat + m.toInt) := by
  rw [BitVec.ofInt_add, ofInt_toNat, BitVec.ofInt_toInt]

theorem mul_eq_ofInt (a m : W64) : a * m = BitVec.ofInt 64 (a.toNat * m.toInt) := by
  rw [BitVec.ofInt_mul, ofInt_toNat, BitVec.ofInt_toInt]

theorem shiftLeft_eq_ofInt (a : W64) (k : Nat) : a <<< k = BitVec.ofInt 64 (a.toNat * 2 ^ k) := by
  apply BitVec.eq_of_toNat_eq
  rw [show ((a.toNat : Int) * 2 ^ k) = ((a.toNat * 2 ^ k : Nat) : Int) by push_cast; rfl, BitVec.ofInt_natCast,
    BitVec.toNat_shiftLeft, BitVec.toNat_ofNat, Nat.shiftLeft_eq]

theorem ushiftRight_eq_ofInt (a : W64) (k : Nat) : a >>> k = BitVec.ofInt 64 (a.toNat / 2 ^ k) := by
  rw [show ((a.toNat : Int) / 2 ^ k) = (((a >>> k).toNat : Nat) : Int) by
    rw [BitVec.toNat_ushiftRight, Nat.shiftRight_eq_div_pow]; push_cast; rfl, ofInt_toNat]

theorem sshiftRight_eq_ofInt (a : W64) (k : Nat) : a.sshiftRight k = BitVec.ofInt 64 (asr (sgn 64 a.toNat) k) := by
  rw [sgn_toNat, BitVec.sshiftRight_eq]
  simp only [asr, Int.shiftRight_eq_div_pow]
  norm_cast

theorem lhi_eq_ofInt (a m : W64) : m.extractLsb' 0 32 ++ a.extractLsb' 0 32 =
    BitVec.ofInt 64 (m.toInt % 2 ^ 32 * 2 ^ 32 + a.toNat % 2 ^ 32) := by
  have hm : m.toInt % 2 ^ 32 = ((m.toNat % 2 ^ 32 : Nat) : Int) := by
    have := toNat_toInt_emod m
    omega
  apply BitVec.eq_of_toNat_eq
  rw [hm, BitVec.toNat_append, BitVec.extractLsb'_toNat, BitVec.extractLsb'_toNat,
    ← Nat.shiftLeft_add_eq_or_of_lt (by omega), Nat.shiftLeft_eq, BitVec.toNat_ofInt]
  simp only [Nat.shiftRight_zero]
  omega

end Sys2Proof.Machine

namespace Sys2Proof
open Claims Machine

/-- Settles O7: each RI function is its number's image in 64 bits, whose immediate is that of R52 (`toInt_immRI`). -/
theorem immediateFunctions : Obligations.ImmediateFunctions := by
  unfold Obligations.ImmediateFunctions immediates
  refine ⟨?_, fun o s th h hr => ?_⟩
  · simp only [List.forall_mem_cons, List.not_mem_nil]
    refine ⟨?_, ?_, ?_, ?_, ?_, ?_, ?_, ?_, ?_, nofun⟩
    all_goals intro o s th h hr
    all_goals refine acts_ri h hr rfl (fun _ => rfl) ?_
    all_goals simp only [← toInt_immRI, toNat_toInt_emod, toNat_toInt_emod_64]
    all_goals generalize th.src o.sa = a
    all_goals generalize th.immRI o.imm = m
    · exact add_eq_ofInt a m
    · exact (ofInt_toNat (a &&& m)).symm
    · exact (ofInt_toNat (a ||| m)).symm
    · exact (ofInt_toNat (a ^^^ m)).symm
    · exact shiftLeft_eq_ofInt a _
    · exact ushiftRight_eq_ofInt a _
    · exact sshiftRight_eq_ofInt a _
    · exact lhi_eq_ofInt a m
    · exact mul_eq_ofInt a m
  · rw [written_64, ← immRI_eq]
    exact acts_writesX (f := fun u => u.immRI o.imm) h rfl (precheck_go_plain hr) rfl fun _ => rfl

end Sys2Proof

namespace Sys2Proof.Machine
open Claims

/-! ## Branches, calls and jumps (R54, R114-R116) -/

/-- `issue_acts` for a part that changes its own thread alone at this word, if not at every word. -/
theorem issue_acts_of_body {i : Instr} {s : State} {th : Thread} {q : Issue} {body : Body} {f : Thread → Thread} (h : s.Alone th)
    (hi : exec i s = issue q s body) (hp : th.precheck q s.word (s.vecPending s.cur) = .go) (hvx : q.vx = false)
    (hb : ∀ a ch, body a s.cur { th with chunk := ch } = onThread f a s.cur { th with chunk := ch })
    (hc : (f th).chunk = th.chunk) (hf : ∀ ch, f { th with chunk := ch } = { f th with chunk := ch }) : Acts i s th (f th) := by
  unfold Acts
  rw [hi]
  rcases issue_alone (body := body) h hp hvx with hq | ⟨hd, ch, hq⟩
  · rw [hq, hvx, show body s s.cur th = onThread f s s.cur th from hb s th.chunk]
    obtain ⟨ch, r, b, he, hu⟩ := countWord_cases s s.cur (f th)
    exact ⟨ch, r, b, congrArg _ he, fun _ ho => hu (by rw [hc]; exact ho)⟩
  · rw [hq, hvx, hb]
    obtain ⟨c2, r, b, he, _⟩ := countWord_cases (s.setThread s.cur { th with chunk := ch }) s.cur (f { th with chunk := ch })
    refine ⟨c2, r, b, congrArg _ (he.trans ?_), fun hn => by simp [hd] at hn⟩
    rw [setThread_setThread, hf]

/-- The target of a BR word is R54's number. -/
theorem target_eq (th : Thread) (off : BitVec 19) : th.target off = BitVec.ofInt 32 ((th.c.pc.toNat : Int) + sgn 19 off.toNat) := by
  rw [sgn_toNat, BitVec.ofInt_add, BitVec.ofInt_natCast, BitVec.ofNat_toNat, BitVec.setWidth_eq]
  rfl

/-- The link value is R115's number. -/
theorem link_eq (th : Thread) : th.link = linkValue th := by
  apply BitVec.eq_of_toNat_eq
  have hi := th.c.img.isLt
  rw [Thread.link, linkValue, BitVec.toNat_append, BitVec.toNat_append, ← Nat.shiftLeft_add_eq_or_of_lt (BitVec.isLt _),
    ← Nat.shiftLeft_add_eq_or_of_lt (BitVec.isLt _), BitVec.toNat_add, BitVec.toNat_ofNat]
  simp [Nat.shiftLeft_eq]
  omega

theorem follows_alone {s : State} {th : Thread} (h : s.Alone th) (t : Tid) : th.follows t = false := by
  rcases h.gang with hg | hg <;> simp [Thread.follows, hg]

/-- Where a jump goes: the image and the PC that a link value names (R115, R116). -/
def jumped (sa : BitVec 5) (d : Option (BitVec 4)) (th : Thread) : Thread :=
  let u := th.retire.modC fun c => { c with img := (th.src sa).extractLsb' 32 16, pc := (th.src sa).extractLsb' 0 32 }
  match d with
  | some d => u.setX d th.link
  | none => u

theorem jumpBody_done {s : State} {th : Thread} {sa : BitVec 5} (d : Option (BitVec 4)) (h : s.Alone th)
    (hv : (th.src sa).extractLsb' 32 16 ≠ 0xFFFF) (a : State) (ch : Chunk) :
    jumpBody sa d a s.cur { th with chunk := ch } = onThread (jumped sa d) a s.cur { th with chunk := ch } := by
  have hf : ({ th with chunk := ch } : Thread).follows s.cur = false := follows_alone h s.cur
  have hs : ({ th with chunk := ch } : Thread).src sa = th.src sa := rfl
  simp only [jumpBody, hf, hs, onThread, jumped]
  cases d <;> exact if_neg (by simpa using hv)

theorem jumpBody_trap {s : State} {th : Thread} {sa : BitVec 5} (d : Option (BitVec 4)) (h : s.Alone th)
    (hv : (th.src sa).extractLsb' 32 16 = 0xFFFF) :
    jumpBody sa d s s.cur th = .trap s .addressSpace 0 (th.src sa) := by
  simp [jumpBody, follows_alone h, hv]

/-- A jump of a lone thread to a valid image. -/
theorem acts_jump {i : Instr} {s : State} {th : Thread} {q : Issue} {sa : BitVec 5} {d : Option (BitVec 4)} (h : s.Alone th)
    (hi : exec i s = issue q s (jumpBody sa d)) (hp : th.precheck q s.word (s.vecPending s.cur) = .go) (hvx : q.vx = false)
    (hv : (th.src sa).extractLsb' 32 16 ≠ 0xFFFF) : Acts i s th (jumped sa d th) :=
  issue_acts_of_body h hi hp hvx (jumpBody_done d h hv) (by cases d <;> rfl) (fun ch => by cases d <;> rfl)

/-- What a lone thread's word answers when its own part traps, but for the windows of cause 0x0C (R228). -/
theorem traps_of_body {i : Instr} {s : State} {th : Thread} {q : Issue} {body : Body} {c : Cause} {v : W64} (h : s.Plain th)
    (hi : exec i s = issue q s body) (hp : th.precheck q s.word (s.vecPending s.cur) = .go) (hvx : q.vx = false)
    (hb : body s s.cur th = .trap s c 0 v) (hc : c ≠ .fp) : Traps i s th c v := by
  unfold Traps
  rw [hi, issue_plain h hp (.inr hvx), saved_none, hb]
  simp [State.settle, State.raiseTrap, hc]

/-- A jump to image 0xFFFF. -/
theorem traps_jump {i : Instr} {s : State} {th : Thread} {q : Issue} {sa : BitVec 5} {d : Option (BitVec 4)} (h : s.Plain th)
    (hi : exec i s = issue q s (jumpBody sa d)) (hp : th.precheck q s.word (s.vecPending s.cur) = .go) (hvx : q.vx = false)
    (hv : (th.src sa).extractLsb' 32 16 = 0xFFFF) : Traps i s th .addressSpace (th.src sa) :=
  traps_of_body h hi hp hvx (jumpBody_trap d h.toAlone hv) nofun

theorem ready_cons {th : Thread} {l : List (BitVec 5)} {d : BitVec 4} (h : th.Ready l []) (hd : th.full d = true) :
    th.Ready l [d] :=
  ⟨h.srcs, by simpa using hd⟩

end Sys2Proof.Machine

namespace Sys2Proof
open Claims Machine

/-- Settles O16: the words that act on their thread alone, and the jumps by what `jumpBody` answers on a valid image and on 0xFFFF. -/
theorem branches : Obligations.Branches := by
  unfold Obligations.Branches
  refine ⟨fun o s th h hg => ?_, fun sa sd pg pn w s th h hg hr => ?_⟩
  · simp only [← target_eq, ← link_eq]
    have hr : th.Ready [] [] := ⟨nofun, nofun⟩
    refine ⟨?_, fun hl => ?_⟩
    · exact issue_acts (f := fun u => u.retire.setPc (u.target o.off)) h rfl
        (precheck_go (by simp) (by simp) (by rintro _ _ ⟨⟩; exact hg) hr (by simp)) rfl rfl fun _ => rfl
    · exact issue_acts (f := fun u => (u.retire.setX 14 u.link).setPc (u.target o.off)) h rfl
        (precheck_go (by simp) (by simp) (by rintro _ _ ⟨⟩; exact hg) (ready_cons hr hl) (by simp)) rfl rfl fun _ => rfl
  · simp only [← link_eq]
    have hp : ∀ q : Issue, q.sup = false → q.anch = false → q.guard = some (pg, pn) → q.vecs = [] → th.Ready q.srcs q.dsts →
        th.precheck q s.word (s.vecPending s.cur) = .go := fun q h1 h2 h3 h4 h5 =>
      precheck_go (by simp [h1]) (by simp [h2]) (by rw [h3]; rintro _ _ ⟨⟩; exact hg) h5 (by simp [h4])
    refine ⟨fun hv => ⟨?_, ?_, fun hl => ?_⟩, fun hv hpl => ⟨?_, ?_, fun hl => ?_⟩⟩
    · exact acts_jump (d := none) h rfl (hp _ rfl rfl rfl rfl hr) rfl hv
    · exact acts_jump (d := none) h rfl (hp _ rfl rfl rfl rfl hr) rfl hv
    · exact acts_jump (d := some sd) h rfl (hp _ rfl rfl rfl rfl (ready_cons hr hl)) rfl hv
    · exact traps_jump hpl rfl (hp _ rfl rfl rfl rfl hr) rfl hv
    · exact traps_jump hpl rfl (hp _ rfl rfl rfl rfl hr) rfl hv
    · exact traps_jump hpl rfl (hp _ rfl rfl rfl rfl (ready_cons hr hl)) rfl hv

end Sys2Proof
end

section
/-! Traps and returns (R38, R167, R228). -/

namespace Sys2Proof.Machine
/-! ## `eret` at the end of a floating-point report (R228) -/

/-- A thread in its handler that reports, and one of the same core that is held behind it (R228). -/
def reportingState : State := {
  threads := [(0, { c := { status := 0x40000 }, run := .slot 0 }), (1, { run := .parked .fpHeld })]
  cores := [(0, { k := { fpHeld := [{ tid := 1, slot := 1, window := 0, addr := 0, detail := 0 }], fpRep := some 0 } })] }

/-- The state of a thread after a step. -/
def runAfter (o : Host.Outcome State Fault Refusal) (t : Tid) : Option Run :=
  match o with
  | .next s => (s.threads.find t).map Thread.run
  | _ => none

/-- The reporting thread's `eret` ends its report, and the held thread is let go: it becomes ready. -/
theorem runAfter_eret_reportingState : runAfter (exec .eret reportingState) 1 = some (.ready 0) := by
  decide +kernel

end Sys2Proof.Machine

namespace Sys2Proof
open Claims Machine

/-- Refutes O17: an `eret` that ends a floating-point report lets the next held thread of the core go (R228), so a thread other
than the returning one changes. -/
theorem not_trapsAndReturns : ¬ Obligations.TrapsAndReturns := by
  rintro ⟨-, hret⟩
  have hplain : reportingState.Plain { c := { status := 0x40000 }, run := .slot 0 } :=
    { here := rfl, gang := .inr rfl, reports := rfl, det := by decide, chunk := rfl }
  obtain ⟨t, he, -, -, hother⟩ := (hret _ _ hplain).1 (by decide)
  have hready := runAfter_eret_reportingState
  rw [he, runAfter, hother 1 (by decide)] at hready
  exact absurd hready (by decide)

end Sys2Proof
end

section
/-! Cores that stop (R121, R460): a `task.halt` that retires a core. -/

namespace Sys2Proof.Machine

/-- A supervisor on core 7 that issues alone; what it awaited has been served (R43). -/
def servedSupervisor : Thread :=
  { c := { status := 0x8000 }, core := 7, run := .slot 0, mo := { acquired := true, waitId := 1 } }

/-- Core 0 has halted with one thread, the leader of a formed gang that lists the supervisor. -/
def retiringState : State := {
  threads := [
    (1, { run := .slot 0, gang := some { leader := 1, size := 2, slot := 0, formed := true, members := [1, 448] } }),
    (448, servedSupervisor)]
  cores := [(0, { k := { mode := .halted } })]
  cur := 448 }

/-- The PC of a thread after a step. -/
def pcAfter (o : Host.Outcome State Fault Refusal) (t : Tid) : Option W32 :=
  match o with
  | .next s => (s.threads.find t).map fun u => u.c.pc
  | _ => none

/-- The broken gang's cancelled waits retire the supervisor's word once, and the end of `task.halt` once more. -/
theorem pcAfter_taskHaltRetire_retiringState : pcAfter (exec (.taskHaltRetire 0 0) retiringState) 448 = some 2 := by
  decide +kernel

end Sys2Proof.Machine

namespace Sys2Proof
open Claims Machine

/-- Refutes O58: retiring a core breaks the gangs of its threads and cancels the waits of all whom they list (R72, R43). Where such a
list names the supervisor that issues the `task.halt`, and its awaited access has been served, the cancelled wait moves its PC on, and
the end of the word moves it on again: it goes on two words later, not at the next. -/
theorem not_coresThatStop : ¬ Obligations.CoresThatStop := by
  rintro ⟨hhalt, -⟩
  have hplain : retiringState.Plain servedSupervisor :=
    { here := rfl, gang := .inr rfl, reports := rfl, det := by decide, chunk := rfl }
  have hready : servedSupervisor.Ready [0] [0] := ⟨by decide, by decide⟩
  have harrivals : NoArrivals retiringState := by
    intro c
    by_cases hc : 0 = c <;> simp [State.core, retiringState, Tab.getD, Tab.find, hc]
  obtain ⟨-, hstops⟩ := hhalt _ _ 0 0 hplain (by decide) (by decide) hready (by decide) rfl (by decide)
  obtain ⟨-, -, -, -, hretire⟩ := hstops (by decide)
  obtain ⟨t, he, -, -, -, u, hu, -, -, hpc⟩ := hretire (.inl (by decide)) harrivals
  have hafter := pcAfter_taskHaltRetire_retiringState
  rw [he, pcAfter, show t.threads.find 448 = some u from hu] at hafter
  exact absurd (hpc.symm.trans (Option.some.inj hafter)) (by decide)

end Sys2Proof
end

section
/-! What it is for an answer of the model to have canonical memory (log entry 1): a predicate for each result type, and how folds
keep it. Each state function then has one lemma that it keeps memory canonical. -/

namespace Sys2Proof.Machine

/-- What a word's own part answers has canonical memory, whatever it answers. -/
def Res.Keeps : Res → Prop
  | .done s => s.Canonical
  | .trap s _ _ _ => s.Canonical
  | .trapNext s _ _ => s.Canonical
  | .park s _ => s.Canonical
  | .refuse _ => True

/-- A step's answer, if it is a next state, has canonical memory. -/
def Keeps (o : Host.Outcome State Fault Refusal) : Prop :=
  match o with
  | .next s => s.Canonical
  | _ => True

theorem Res.Keeps.done {s : State} (h : s.Canonical) : (Res.done s).Keeps := h
theorem Res.Keeps.trap {s : State} {c : Cause} {d : W8} {v : W64} (h : s.Canonical) : (Res.trap s c d v).Keeps := h
theorem Res.Keeps.trapNext {s : State} {c : Cause} {v : W64} (h : s.Canonical) : (Res.trapNext s c v).Keeps := h
theorem Res.Keeps.park {s : State} {w : Wait} (h : s.Canonical) : (Res.park s w).Keeps := h
theorem Res.Keeps.of_eq {g r : Res} (h : g.Keeps) (e : g = r) : r.Keeps := e ▸ h
theorem Keeps.next {s : State} (h : s.Canonical) : Keeps (.next s) := h

/-- A read's answer leaves canonical memory. -/
def Got.Keeps : Got → Prop
  | .val _ s => s.Canonical
  | .err _ _ s => s.Canonical
  | _ => True

theorem Got.Keeps.val {s : State} {v} (h : s.Canonical) : (Got.val v s).Keeps := h
theorem Got.Keeps.err {s : State} {c ea} (h : s.Canonical) : (Got.err c ea s).Keeps := h
theorem Got.Keeps.of_eq {g r : Got} (h : g.Keeps) (e : g = r) : r.Keeps := e ▸ h

/-- The answer for a load's parts leaves canonical memory. -/
def Parts.Keeps : Parts → Prop
  | .val _ _ s => s.Canonical
  | _ => True

theorem Parts.Keeps.val {s : State} {v errs} (h : s.Canonical) : (Parts.val v errs s).Keeps := h
theorem Parts.Keeps.of_eq {g r : Parts} (h : g.Keeps) (e : g = r) : r.Keeps := e ▸ h

/-- An engine access's answer leaves canonical memory. -/
def EGot.Keeps : EGot → Prop
  | .ok _ s _ => s.Canonical
  | .err _ _ s => s.Canonical
  | _ => True

theorem EGot.Keeps.ok {s : State} {v l} (h : s.Canonical) : (EGot.ok v s l).Keeps := h
theorem EGot.Keeps.err {s : State} {c ea} (h : s.Canonical) : (EGot.err c ea s).Keeps := h
theorem EGot.Keeps.of_eq {g r : EGot} (h : g.Keeps) (e : g = r) : r.Keeps := e ▸ h

/-- The end of a run of pieces leaves canonical memory. -/
def Moved.Keeps : Moved → Prop
  | .ok s _ => s.Canonical
  | .fault s _ _ _ _ => s.Canonical
  | _ => True

theorem Moved.Keeps.ok {s : State} {l} (h : s.Canonical) : (Moved.ok s l).Keeps := h
theorem Moved.Keeps.fault {s : State} {l c ea src} (h : s.Canonical) : (Moved.fault s l c ea src).Keeps := h
theorem Moved.Keeps.of_eq {g r : Moved} (h : g.Keeps) (e : g = r) : r.Keeps := e ▸ h

/-- The end of a write from outside leaves canonical memory. -/
def Outside.Keeps : Outside → Prop
  | .ok s => s.Canonical
  | .bad s _ _ _ => s.Canonical
  | .hold s _ _ _ => s.Canonical

theorem Outside.Keeps.ok {s : State} (h : s.Canonical) : (Outside.ok s).Keeps := h
theorem Outside.Keeps.bad {s : State} {n ea c} (h : s.Canonical) : (Outside.bad s n ea c).Keeps := h
theorem Outside.Keeps.hold {s : State} {n ea e} (h : s.Canonical) : (Outside.hold s n ea e).Keeps := h

/-- What appending a record answers leaves canonical memory. -/
def Appended.Keeps : Appended → Prop
  | .ok s => s.Canonical
  | _ => True

theorem Appended.Keeps.ok {s : State} (h : s.Canonical) : (Appended.ok s).Keeps := h
theorem Appended.Keeps.of_eq {g r : Appended} (h : g.Keeps) (e : g = r) : r.Keeps := e ▸ h

/-- The answer of a part of an unmasking round leaves canonical memory. -/
def URun.Keeps {α : Type} : URun α → Prop
  | .ok _ s => s.Canonical
  | .err _ _ s => s.Canonical
  | .hold _ _ => True

theorem URun.Keeps.ok {α : Type} {s : State} {v : α} (h : s.Canonical) : (URun.ok v s).Keeps := h
theorem URun.Keeps.err {α : Type} {s : State} {c ea} (h : s.Canonical) : (URun.err c ea s : URun α).Keeps := h
theorem URun.Keeps.of_eq {α : Type} {g r : URun α} (h : g.Keeps) (e : g = r) : r.Keeps := e ▸ h

/-- What every element's step keeps, a whole list's keeps. -/
theorem State.Canonical.foldl {α : Type} {s : State} (h : s.Canonical) {f : State → α → State} {l : List α}
    (hf : ∀ a x, a.Canonical → (f a x).Canonical) : (l.foldl f s).Canonical := by
  induction l generalizing s with
  | nil => exact h
  | cons x r ih => exact ih (hf s x h)

theorem State.Canonical.getD {s : State} (h : s.Canonical) {o : Option State} (ho : ∀ a, o = some a → a.Canonical) :
    (o.getD s).Canonical := by
  cases o with
  | none => exact h
  | some a => exact ho a rfl

/-- A run that ends either way leaves canonical memory: `f` and `g` name the state of an error and of a result. -/
def EndsKeep {ε α : Type} (f : ε → State) (g : α → State) : Except ε α → Prop
  | .ok a => (g a).Canonical
  | .error x => (f x).Canonical

/-- Memory does not depend on the cores or on what is in flight. -/
theorem State.Canonical.withCores {s : State} (h : s.Canonical) (l : Tab Core) :
    { s with cores := l }.Canonical := h.of_eq rfl rfl

theorem State.Canonical.withPool {s : State} (h : s.Canonical) (l : List Instr) :
    { s with pool := l }.Canonical := h.of_eq rfl rfl

/-- An answer that may be missing has canonical memory. -/
def MaybeKeeps (r : Option State) : Prop := ∀ a, r = some a → a.Canonical

theorem MaybeKeeps.some {s : State} (h : s.Canonical) : MaybeKeeps (some s) := fun _ e => Option.some.inj e ▸ h
theorem MaybeKeeps.none : MaybeKeeps none := fun _ e => nomatch e

end Sys2Proof.Machine
end

section
/-! Memory stays canonical: state operations, memory, issue, accesses. -/

namespace Sys2Proof.Machine

variable {s : State}

/-! ### Functions of `Sys2Proof.Machine.Ops` -/

theorem State.Canonical.setCore (h : s.Canonical) (n c) : (s.setCore n c).Canonical := h.of_eq rfl rfl

theorem State.Canonical.modCore (h : s.Canonical) (n f) : (s.modCore n f).Canonical := h.setCore ..

theorem State.Canonical.modM (h : s.Canonical) (n f) : (s.modM n f).Canonical := h.modCore ..

theorem State.Canonical.modE (h : s.Canonical) (n f) : (s.modE n f).Canonical := h.modCore ..

theorem State.Canonical.modK (h : s.Canonical) (n f) : (s.modK n f).Canonical := h.modCore ..

theorem State.Canonical.modR (h : s.Canonical) (n f) : (s.modR n f).Canonical := h.modCore ..

theorem State.Canonical.modCluster (h : s.Canonical) (n f) : (s.modCluster n f).Canonical := h.of_eq rfl rfl

theorem State.Canonical.modDie (h : s.Canonical) (n f) : (s.modDie n f).Canonical := h.of_eq rfl rfl

theorem State.Canonical.modPkg (h : s.Canonical) (f) : (s.modPkg f).Canonical := h.of_eq rfl rfl

theorem State.Canonical.modOut (h : s.Canonical) (f) : (s.modOut f).Canonical := h.of_eq rfl rfl

theorem State.Canonical.send (h : s.Canonical) (m) : (s.send m).Canonical := h.modOut ..

theorem State.Canonical.record (h : s.Canonical) (r) : (s.record r).Canonical := h.modOut ..

theorem State.Canonical.push (h : s.Canonical) (i) : (s.push i).Canonical := h.of_eq rfl rfl

theorem State.Canonical.urge (h : s.Canonical) (i) : (s.urge i).Canonical := h.of_eq rfl rfl

theorem State.Canonical.takeId (h : s.Canonical) {a b} (e : s.takeId = (a, b)) : b.Canonical := by
  rw [← show Prod.snd _ = b from congrArg Prod.snd e]
  unfold State.takeId
  exact h.of_eq rfl rfl

theorem State.Canonical.freeWord (h : s.Canonical) {a b} (e : s.freeWord = (a, b)) : b.Canonical := by
  rw [← show Prod.snd _ = b from congrArg Prod.snd e]
  unfold State.freeWord
  exact h.of_eq rfl rfl

theorem State.Canonical.setVreg (h : s.Canonical) (t v x) : (s.setVreg t v x).Canonical := h.of_eq rfl rfl

theorem State.Canonical.setMask (h : s.Canonical) (t n x) : (s.setMask t n x).Canonical := by
  unfold State.setMask
  split
  · exact h
  · exact h.of_eq rfl rfl

theorem State.Canonical.makeReady (h : s.Canonical) (t) : (s.makeReady t).Canonical := h.modThread ..

theorem State.Canonical.eccRead (h : s.Canonical) {core k n} {a b} (e : s.eccRead core k n = (a, b)) : b.Canonical := by
  rw [← show Prod.snd _ = b from congrArg Prod.snd e]
  unfold State.eccRead
  split
  · exact h
  · extract_lets _ _ s1
    have hs1 : s1.Canonical := by
      refine .modM ?_ ..
      exact h.of_eq rfl rfl
    split
    · exact hs1.urge ..
    · exact hs1

theorem State.Canonical.mailPut (h : s.Canonical) (core m) : (s.mailPut core m).Canonical := h.modK ..

theorem State.Canonical.postFault (h : s.Canonical) (core tid asid m) : (s.postFault core tid asid m).Canonical := by
  unfold State.postFault
  extract_lets
  split
  · exact h.mailPut ..
  · split
    · rename_i s1 e
      have hs1 : s1.Canonical := h.takeId e
      exact hs1.push ..

theorem State.Canonical.freeHold (h : s.Canonical) (core) : (s.freeHold core).Canonical := by
  unfold State.freeHold
  split
  · exact h
  · split
    · exact h
    · split
      · exact (h.modK ..).makeReady ..
      · exact h

theorem State.Canonical.endFpReport (h : s.Canonical) (core t) : (s.endFpReport core t).Canonical := by
  unfold State.endFpReport
  split
  · extract_lets s1
    have hs1 : s1.Canonical := h.modK ..
    split
    · exact hs1
    · exact (hs1.push ..).freeHold ..
  · exact h

theorem State.Canonical.trapEntry (h : s.Canonical) (t cause detail v tpc supOnly word) :
    (s.trapEntry t cause detail v tpc supOnly word).Canonical := by
  unfold State.trapEntry
  split
  · exact h
  · split
    · extract_lets
      exact h.setThread ..
    · extract_lets _ s1 s2
      have hs1 : s1.Canonical := h.setThread ..
      have hs2 : s2.Canonical := hs1.postFault ..
      exact hs2.endFpReport ..

/-! ### Functions of `Sys2Proof.Machine.Mem` -/

theorem State.Canonical.keepXlat (h : s.Canonical) (core x) : (s.keepXlat core x).Canonical := by
  unfold State.keepXlat
  extract_lets _ s1
  have hs1 : s1.Canonical := h.modDie ..
  exact hs1.modM ..

theorem State.Canonical.touchBank (h : s.Canonical) (core b') : (s.touchBank core b').Canonical := by
  unfold State.touchBank
  extract_lets
  split
  · exact (h.modM ..).push ..
  · exact h

theorem State.Canonical.l1Fill (h : s.Canonical) (core asid line va d code) :
    (s.l1Fill core asid line va d code).Canonical := by
  unfold State.l1Fill
  extract_lets
  exact h.modM ..

theorem State.Canonical.l1Renew (h : s.Canonical) (core asid line d) : (s.l1Renew core asid line d).Canonical :=
  h.modM ..

theorem State.Canonical.l1Drop (h : s.Canonical) (core p) : (s.l1Drop core p).Canonical := h.modM ..

theorem State.Canonical.l1DropLine (h : s.Canonical) (core line) : (s.l1DropLine core line).Canonical := h.l1Drop ..

theorem State.Canonical.applySig (h : s.Canonical) (p g) : (s.applySig p g).Canonical := h.of_eq rfl rfl

theorem State.Canonical.l1Acked (h : s.Canonical) (core asid line va) : (s.l1Acked core asid line va).Canonical := by
  unfold State.l1Acked
  split
  · exact h
  · exact h.modM ..

theorem State.Canonical.gateWays (h : s.Canonical) (core n) : (s.gateWays core n).Canonical := by
  unfold State.gateWays
  split
  · exact h.modM ..
  · exact h

theorem State.Canonical.l2Touch (h : s.Canonical) (line code write) : (s.l2Touch line code write).Canonical := by
  unfold State.l2Touch
  split
  · exact h
  · extract_lets
    exact h.modDie ..

theorem State.Canonical.csbStore (h : s.Canonical) (t core asid acc p rh) :
    (s.csbStore t core asid acc p rh).Canonical := by
  unfold State.csbStore
  extract_lets
  split
  · exact h.modCluster ..
  · split
    · rename_i s1 e1
      have hs1 : s1.Canonical := h.takeId e1
      exact (hs1.modCluster ..).push ..

theorem State.Canonical.noteDirty (h : s.Canonical) {core asid space va t} (e : s.noteDirty core asid space va = some t) :
    t.Canonical := by
  unfold State.noteDirty at e
  split at e
  · exact Option.some.inj e ▸ h
  · split at e
    · exact Option.some.inj e ▸ h
    · split at e
      · cases e
      · refine Option.some.inj e ▸ ?_
        split
        · exact (h.modM ..).push ..
        · exact h.modM ..

theorem State.Canonical.soft (h : s.Canonical) {hit} {f : State → State} (hf : ∀ a, a.Canonical → (f a).Canonical) :
    (s.soft hit f).Canonical := by
  refine State.Canonical.foldl (hf s h) fun a e ha => ?_
  split
  · split
    · exact ⟨wf_writeByte ha.mem _ _, ha.fe⟩
    · exact ha
  · exact ha

theorem State.Canonical.softHome (h : s.Canonical) (key n v) : (s.softHome key n v).Canonical :=
  h.soft fun _ ha => ha.writeHome ..

theorem State.Canonical.softHomeLine (h : s.Canonical) (line mask d code) :
    (s.softHomeLine line mask d code).Canonical :=
  h.soft fun _ ha => ha.writeHomeLine ..

theorem State.Canonical.appendLog (h : s.Canonical) (die writer r) : (s.appendLog die writer r).Keeps := by
  unfold State.appendLog
  split
  · exact .ok h
  · exact trivial
  · extract_lets
    split
    · exact .ok h
    · split
      · exact .ok (h.writeHome ..)
      · split
        · split
          · extract_lets _ s2
            have hs2 : s2.Canonical := (h.writeHome ..).writeHome ..
            exact .ok (hs2.writeHome ..)
          · exact trivial
        · exact .ok h

theorem State.Canonical.flushWlog (h : s.Canonical) (core n) : (s.flushWlog core n).Canonical := by
  induction n generalizing s with
  | zero => exact h
  | succ n ih =>
    unfold State.flushWlog
    split
    · exact h
    · next rest _ =>
      split
      · next s1 e =>
        have h2 := State.Canonical.modM ((h.appendLog ..).of_eq e : s1.Canonical) core fun m => { m with wlog := rest }
        refine ih ?_
        split
        · exact h2.of_eq rfl rfl
        · exact h2
      · exact h

theorem State.Canonical.mergeDirty (h : s.Canonical) (r) : (s.mergeDirty r).Canonical := by
  unfold State.mergeDirty
  extract_lets
  split
  · exact h
  · split
    · exact h
    · exact h.writeHome ..

theorem State.Canonical.mergeLog (h : s.Canonical) (core) : (s.mergeLog core).Canonical := by
  unfold State.mergeLog
  extract_lets
  exact (h.modM ..).foldl fun _ _ ha => ha.mergeDirty ..

theorem State.Canonical.ackWrite (h : s.Canonical) {core x va t} (e : s.ackWrite core x va = some t) : t.Canonical := by
  refine State.Canonical.noteDirty ?_ e
  split
  · split
    · exact ((h.keepXlat ..).modM ..).push ..
    · exact (h.keepXlat ..).modM ..
  · exact h.keepXlat ..

theorem State.Canonical.wlogSpace (h : s.Canonical) (core) : (s.wlogSpace core).Canonical := by
  unfold State.wlogSpace
  split
  · exact (h.flushWlog ..).modM ..
  · exact h

theorem State.Canonical.ackNow (h : s.Canonical) (core x va) : (s.ackNow core x va).Canonical := by
  unfold State.ackNow
  have h0 := h.wlogSpace core
  dsimp only
  split
  · next e => exact h0.ackWrite e
  · exact h0.getD fun _ e => (h0.mergeLog core).ackWrite e

theorem State.Canonical.l1Read (h : s.Canonical) (core l o n) : (s.l1Read core l o n).Canonical := by
  unfold State.l1Read
  extract_lets _ _ s1
  have hs1 : s1.Canonical := h.modM ..
  split
  · exact h
  · split
    · exact hs1.urge ..
    · exact hs1

theorem State.Canonical.readGlobal (h : s.Canonical) (t core asid space va n level rh special) :
    (s.readGlobal t core asid space va n level rh special).Keeps := by
  unfold State.readGlobal
  extract_lets _ _ _ _ _ s1
  have hs1 : s1.Canonical := by
    unfold s1
    split
    · exact h.l1Read ..
    · exact h
  split
  · split
    · exact .err hs1
    · exact .val ((hs1.modCluster ..).modThread ..)
  · split
    · exact .err hs1
    · split
      · exact trivial
      · extract_lets _ s11 _ _ s2 s3 s4
        have hs11 : s11.Canonical := (hs1.keepXlat ..).l2Touch ..
        have hs2 : s2.Canonical := (hs11.modCluster ..).modThread ..
        have hs3 : s3.Canonical := by
          unfold s3
          split
          · exact hs2.l1Renew ..
          · exact hs2.l1Fill ..
        have hs4 : s4.Canonical := by
          unfold s4
          split
          · exact hs3.modDie ..
          · exact hs3
        exact .val hs4

theorem State.Canonical.readPlace (h : s.Canonical) (t core asid ea n level rh) :
    (s.readPlace t core asid ea n level rh).Keeps := by
  unfold State.readPlace
  extract_lets
  split
  · exact .val h
  · split
    · exact .err h
    · split
      · exact .err h
      · split
        · rename_i s1 e2
          have hs1 : s1.Canonical := h.eccRead e2
          split
          · exact .err hs1
          · refine .val ?_
            split
            · exact hs1.modThread ..
            · exact hs1
    · split
      · rename_i s1 e1
        have hs1 : s1.Canonical := (h.readGlobal ..).of_eq e1
        extract_lets s2
        have hs2 : s2.Canonical := by
          unfold s2
          split
          · split
            · exact hs1.modThread ..
            · exact hs1
          · exact hs1
        exact .val hs2
      · exact h.readGlobal ..

theorem State.Canonical.defer (h : s.Canonical) (t c ea) : (s.defer t c ea).Canonical := h.modThread ..

theorem State.Canonical.holdStep (h : s.Canonical) (die asid space va entryAt i) :
    (s.holdStep die asid space va entryAt i).Canonical :=
  h.modDie ..

/-! ### Functions of `Sys2Proof.Machine.Region` -/

theorem State.Canonical.restoreThread (h : s.Canonical) (t th cp vs) : (s.restoreThread t th cp vs).Canonical := by
  unfold State.restoreThread
  extract_lets
  exact h.of_eq rfl rfl

theorem State.Canonical.takePlace (h : s.Canonical) (set region by_) : (s.takePlace set region by_).Canonical := by
  unfold State.takePlace
  extract_lets
  exact h.of_eq rfl rfl

theorem State.Canonical.dropHold (h : s.Canonical) (t core) : (s.dropHold t core).Canonical := by
  unfold State.dropHold
  extract_lets _ _ s1
  have hs1 : s1.Canonical := h.modK ..
  split
  · exact h
  · split
    · exact hs1.of_eq rfl rfl
    · exact hs1.freeHold ..

theorem State.Canonical.unreserve (h : s.Canonical) (t core) : (s.unreserve t core).Canonical := h.modK ..

theorem State.Canonical.squashRegion (h : s.Canonical) (t) : (s.squashRegion t).Canonical := by
  unfold State.squashRegion
  split
  · exact h
  · split
    · exact h
    · extract_lets s1 s2 s21
      have hs1 : s1.Canonical := (h.dropHold ..).restoreThread ..
      have hs2 : s2.Canonical := hs1.modThread ..
      have hs21 : s21.Canonical := hs2.unreserve ..
      split
      · exact hs21.modDie ..
      · exact hs21

theorem State.Canonical.endPriority (h : s.Canonical) (t core) : (s.endPriority t core).Canonical := h.modDie ..

theorem State.Canonical.overRegion (h : s.Canonical) (t th r code) : (s.overRegion t th r code).Canonical :=
  (h.restoreThread ..).modThread ..

theorem State.Canonical.endRegion (h : s.Canonical) (t code) : (s.endRegion t code).Canonical := by
  unfold State.endRegion
  split
  · exact h
  · split
    · exact h
    · split
      · exact h.modThread ..
      · exact (h.overRegion ..).endPriority ..

theorem State.Canonical.dropRelease (h : s.Canonical) (t) : (s.dropRelease t).Canonical := by
  unfold State.dropRelease
  refine .modThread ?_ ..
  exact h.of_eq rfl rfl

theorem State.Canonical.takeTrap (h : s.Canonical) (t cause detail v tpc supOnly held) :
    (s.takeTrap t cause detail v tpc supOnly held).Canonical := by
  unfold State.takeTrap
  split
  · exact h
  · extract_lets
    split
    · split
      · exact h.modThread ..
      · split
        · exact h.squashRegion ..
        · extract_lets s1 s2
          have hs1 : s1.Canonical := h.restoreThread ..
          have hs2 : s2.Canonical := hs1.modThread ..
          exact (hs2.endPriority ..).trapEntry ..
    · split
      · exact h.modThread ..
      · exact h.trapEntry ..

/-! ### Functions of `Sys2Proof.Machine.Issue` -/

theorem State.Canonical.keepSlot (h : s.Canonical) (t th) : (s.keepSlot t th).Canonical := by
  unfold State.keepSlot
  split
  · exact h
  · extract_lets
    exact h.setThread ..

theorem State.Canonical.openChunk (h : s.Canonical) (t th) : (s.openChunk t th).Canonical := by
  unfold State.openChunk
  split
  · extract_lets
    exact h.setThread ..
  · exact h

theorem State.Canonical.countWord (h : s.Canonical) (t) : (s.countWord t).Canonical := by
  unfold State.countWord
  split
  · exact h
  · split
    · extract_lets
      split
      · exact h.setThread ..
      · exact h.setThread ..
    · exact h

theorem State.Canonical.endChunk (h : s.Canonical) (t e') : (s.endChunk t e').Canonical := h.modThread ..

theorem State.Canonical.takeDeferred (h : s.Canonical) {t th a} (e : s.takeDeferred t th = some a) : a.Canonical := by
  unfold State.takeDeferred at e
  split at e
  · cases e
  · split at e
    · cases e
    · exact Option.some.inj e ▸ ((h.setThread ..).dropRelease ..).takeTrap ..

theorem State.Canonical.saveVec (h : s.Canonical) {s0 : State} {t vd a} (e : s0.saveVec s t vd = some a) :
    a.Canonical := by
  unfold State.saveVec at e
  split at e
  · split at e
    · split at e
      · exact Option.some.inj e ▸ h
      · split at e
        · exact Option.some.inj e ▸ h.setThread ..
        · cases e
    · exact Option.some.inj e ▸ h
  · exact Option.some.inj e ▸ h

theorem State.Canonical.holdFp (h : s.Canonical) (t th detail v word) : (s.holdFp t th detail v word).Canonical := by
  unfold State.holdFp
  extract_lets _ _ _ s1 s2
  have hs1 : s1.Canonical := by
    unfold s1
    split
    · exact h
    · exact h.modThread ..
  have hs2 : s2.Canonical := hs1.modK ..
  split
  · exact hs2.push ..
  · exact hs2

theorem State.Canonical.raiseTrap (h : s.Canonical) (t th c d v tpc) : (s.raiseTrap t th c d v tpc).Canonical := by
  unfold State.raiseTrap
  split
  · exact h.holdFp ..
  · exact h.takeTrap ..

theorem Res.Keeps.settle {r : Res} (hr : r.Keeps) (s : State) (t th vx) : Machine.Keeps (s.settle t th vx r) := by
  unfold State.settle
  split
  · next s1 =>
    have h1 : s1.Canonical := hr
    refine .next (State.Canonical.countWord ?_ _)
    split
    · exact h1.modThread ..
    · exact h1
  · next s1 _ _ _ =>
    have h1 : s1.Canonical := hr
    exact .next (h1.raiseTrap ..)
  · next s1 _ _ =>
    have h1 : s1.Canonical := hr
    split
    · exact .next (h1.takeTrap ..)
    · exact .next h1
  · next s1 _ =>
    have h1 : s1.Canonical := hr
    split
    · exact .next (h1.endChunk ..)
    · exact .next (h1.modThread ..)
  · exact trivial

theorem State.Canonical.saved (h : s.Canonical) {r : Res} (hr : r.Keeps) (t vd) : (s.saved t vd r).Keeps := by
  unfold State.saved
  split
  · next s1 =>
    have h1 : s1.Canonical := hr
    split
    · next e => exact .done (h1.saveVec e)
    · exact .done (h.endRegion ..)
  · exact hr

theorem State.Canonical.issueLone (h : s.Canonical) {t th q vd} {body : Body}
    (hb : ∀ a m u, a.Canonical → (body a m u).Keeps) : Keeps (s.issueLone t th q vd body) := by
  unfold State.issueLone
  split
  · exact .next (h.takeTrap ..)
  · exact .next (h.setThread ..)
  · exact .next ((h.setThread ..).countWord ..)
  · have h1 : (if q.vx then s.keepSlot t th else s).Canonical := by
      split
      · exact h.keepSlot ..
      · exact h
    dsimp only
    split
    · exact trivial
    · exact Res.Keeps.settle (h1.saved (hb _ _ _ h1) ..) ..

theorem State.Canonical.disband (h : s.Canonical) (ms) : (s.disband ms).Canonical :=
  h.foldl fun _ _ ha => ha.modThread ..

theorem State.Canonical.gangTrap (h : s.Canonical) (m idx next) : (s.gangTrap m idx next).Canonical := by
  unfold State.gangTrap
  split
  · exact h
  · split
    · exact h
    · split
      · exact h.takeTrap ..
      · extract_lets s1
        have hs1 : s1.Canonical := h.setThread ..
        exact hs1.takeTrap ..

theorem State.Canonical.memberRes (h : s.Canonical) {w : GangWord} (hb : ∀ a m u, a.Canonical → (w.body a m u).Keeps) (m) :
    (s.memberRes w m).Keeps := by
  unfold State.memberRes
  split
  · exact trivial
  · split
    · exact .trap ((h.setThread ..).dropRelease ..)
    · split
      · exact .done (h.setThread ..)
      · dsimp only
        split
        · exact .park h
        · exact .trap h
        · exact .park h
        · exact .done (h.setThread ..)
        · split
          · exact trivial
          · refine hb _ _ _ ?_
            split
            · exact h.keepSlot ..
            · exact h

theorem Res.Keeps.stops {r : Res} (h : r.Keeps) {m a x} (e : r.stops m = some (a, x)) : a.Canonical := by
  unfold Res.stops at e
  split at e
  · cases e
    exact h
  · split at e
    · cases e
      exact h
    · cases e
  · cases e

theorem State.Canonical.gangStops (h : s.Canonical) {w : GangWord} (hb : ∀ a m u, a.Canonical → (w.body a m u).Keeps)
    {ms x all a y} (e : State.gangStops w ms s x all = some (a, y)) : a.Canonical := by
  induction ms generalizing s x all with
  | nil =>
    obtain ⟨_, _, he⟩ := Option.map_eq_some_iff.1 e
    cases he
    exact h
  | cons m ms ih =>
    unfold State.gangStops at e
    split at e
    · next s1 _ hm =>
      refine ih ?_ e
      split
      · exact h
      · exact (h.memberRes hb m).stops hm
    · exact ih h e

theorem State.Canonical.foldGang (h : s.Canonical) {w : GangWord} (hb : ∀ a m u, a.Canonical → (w.body a m u).Keeps)
    {ms tr a y} (e : State.foldGang w ms s tr = some (a, y)) : a.Canonical := by
  induction ms generalizing s tr with
  | nil =>
    cases e
    exact h
  | cons m ms ih =>
    have hm := h.memberRes hb m
    unfold State.foldGang at e
    split at e
    · next s1 hs =>
      have h1 : s1.Canonical := hm.of_eq hs
      refine ih ?_ e
      split
      · exact h1.modThread ..
      · exact h1
    · next hs => exact ih (hm.of_eq hs) e
    · next hs => exact ih (hm.of_eq hs) e
    · cases e
    · exact ih h e

theorem State.Canonical.endGangChunks (h : s.Canonical) (ms e') : (s.endGangChunks ms e').Canonical :=
  h.foldl fun _ _ ha => ha.modThread ..

theorem State.Canonical.alignGang (h : s.Canonical) (g l) : (s.alignGang g l).Canonical := by
  unfold State.alignGang
  refine h.foldl fun _ _ ha => ?_
  split
  · exact ha
  · exact ha.modThread ..

theorem State.Canonical.gangGoes (h : s.Canonical) (g l) : (s.gangGoes g l).Canonical := by
  unfold State.gangGoes
  extract_lets s2
  have hs2 : s2.Canonical := (h.alignGang ..).foldl fun _ _ ha => ha.countWord ..
  split
  · exact hs2.endGangChunks ..
  · exact hs2

theorem State.Canonical.gangBreaks (h : s.Canonical) (g pc next tr) : (s.gangBreaks g pc next tr).Canonical := by
  unfold State.gangBreaks
  extract_lets _ _ s1 s2 s3
  have hs1 : s1.Canonical := h.foldl fun _ _ ha => ha.modThread ..
  have hs2 : s2.Canonical := by
    refine hs1.foldl fun _ _ ha => ?_
    split
    · exact ha
    · exact ha.gangTrap ..
  have hs3 : s3.Canonical := by
    refine hs2.foldl fun _ _ ha => ?_
    split
    · exact ha
    · exact ha.raiseTrap ..
  exact hs3.disband ..

theorem State.Canonical.issueGang (h : s.Canonical) {th g q} {body : Body} (hb : ∀ a m u, a.Canonical → (body a m u).Keeps) :
    Keeps (s.issueGang th g q body) := by
  unfold State.issueGang
  dsimp only
  split
  · next s1 _ _ e =>
    have h1 : s1.Canonical := h.gangStops hb e
    split
    · refine .next (State.Canonical.modThread ?_ ..)
      split
      · exact h1.endGangChunks ..
      · exact h1
    · exact .next (h1.modThread ..)
  · split
    · exact .next (h.modThread ..)
    · next s1 _ e =>
      have h1 : s1.Canonical := ((h.modThread ..).modPkg ..).foldGang hb e
      split
      · exact .next h1
      · refine .next ?_
        split
        · exact h1.gangGoes ..
        · exact h1.gangBreaks ..

theorem State.Canonical.issue (h : s.Canonical) {q} {body : Body} {vd} (hb : ∀ a m u, a.Canonical → (body a m u).Keeps) :
    Keeps (issue q s body vd) := by
  unfold Machine.issue
  split
  · exact trivial
  · split
    · dsimp only
      split
      · exact trivial
      · refine State.Canonical.issueGang ?_ hb
        refine State.Canonical.foldl (h.alignGang ..) fun a m ha => ?_
        split
        · exact ha.openChunk ..
        · exact ha
    · split
      · next e => exact .next (h.takeDeferred e)
      · dsimp only
        split
        · exact trivial
        · exact (h.openChunk ..).issueLone hb

theorem State.Canonical.onThread (h : s.Canonical) (f x x1) : (onThread f s x x1).Keeps := .done (h.setThread ..)

theorem State.Canonical.writesX (h : s.Canonical) (d f x x1) : (writesX d f s x x1).Keeps := h.onThread ..

theorem State.Canonical.raise (h : s.Canonical) (t th f) : (s.raise t th f).Canonical := by
  unfold State.raise
  split
  · exact h.setThread ..
  · exact (h.setThread ..).modCluster ..

/-! ### Functions of `Sys2Proof.Machine.Release` -/

theorem State.Canonical.finishRelease (h : s.Canonical) (t th sc) : (s.finishRelease t th sc).Canonical := by
  unfold State.finishRelease
  extract_lets s1
  have hs1 : s1.Canonical := by
    unfold s1
    split
    · exact h.applySig ..
    · exact h
  exact hs1.modThread ..

theorem State.Canonical.startRelease (h : s.Canonical) (t th sc) : (s.startRelease t th sc).Canonical := by
  unfold State.startRelease
  extract_lets _ _ s1
  have hs1 : s1.Canonical := h.setThread ..
  exact hs1.of_eq rfl rfl

theorem State.Canonical.release (h : s.Canonical) {sc t th k} (hk : ∀ a x1, a.Canonical → (k a x1).Keeps) :
    (release sc s t th k).Keeps := by
  unfold Machine.release
  split
  · exact hk _ _ h
  · split
    · extract_lets s1
      have hs1 : s1.Canonical := h.startRelease ..
      split
      · exact trivial
      · split
        · extract_lets s2
          have hs2 : s2.Canonical := hs1.finishRelease ..
          split
          · exact trivial
          · exact hk _ _ hs2
        · exact .park hs1
    · split
      · extract_lets s2
        have hs2 : s2.Canonical := h.finishRelease ..
        split
        · exact trivial
        · exact hk _ _ hs2
      · exact .park h

theorem State.Canonical.acquireAt (h : s.Canonical) (t core sc) : (s.acquireAt t core sc).Canonical :=
  (h.l1Drop ..).modThread ..

theorem State.Canonical.acquireFence (h : s.Canonical) {sc t th k} (hk : ∀ a x1, a.Canonical → (k a x1).Keeps) :
    (acquireFence sc s t th k).Keeps := by
  unfold Machine.acquireFence
  split
  · exact hk _ _ h
  · split
    · exact .park h
    · extract_lets s1
      have hs1 : s1.Canonical := h.acquireAt ..
      split
      · exact trivial
      · exact hk _ _ hs1

/-! ### Functions of `Sys2Proof.Machine.Access` -/

theorem State.Canonical.depart (h : s.Canonical) (t th dest) : (s.depart t th dest).Canonical :=
  (h.setThread ..).push ..

theorem State.Canonical.probeFor (h : s.Canonical) (t th ea write) : (s.probeFor t th ea write).Canonical :=
  (h.setThread ..).push ..

theorem State.Canonical.homeChecks (h : s.Canonical) {th ea n isLoad k} (hk : (k).Keeps) :
    (homeChecks s th ea n isLoad k).Keeps := by
  unfold Machine.homeChecks
  split
  · exact hk
  · split
    · split
      · exact .trap (h.eccRead rfl)
      · exact hk
    · exact hk

theorem State.Canonical.atHome (h : s.Canonical) {t th ea write k} (hk : (k).Keeps) :
    (atHome s t th ea write k).Keeps := by
  unfold Machine.atHome
  split
  · split
    · exact .trap h
    · split
      · exact hk
      · exact .done (h.depart ..)
    · split
      · exact .park (h.probeFor ..)
      · extract_lets
        split
        · exact .park (h.probeFor ..)
        · split
          · exact hk
          · exact .done (h.depart ..)
  · exact hk

theorem State.Canonical.checked (h : s.Canonical) {th ea n isLoad k} (hk : (k).Keeps) :
    (checked s th ea n isLoad k).Keeps := by
  unfold Machine.checked
  split
  · exact .trap h
  · split
    · exact .trap h
    · exact hk

theorem State.Canonical.wakeFor (h : s.Canonical) (core ea n) : (s.wakeFor core ea n).Canonical := by
  unfold State.wakeFor
  split
  · exact (h.touchBank ..).touchBank ..
  · exact h

theorem State.Canonical.sendLoad (h : s.Canonical) (t th dst parts level rh ds) :
    (s.sendLoad t th dst parts level rh ds).Canonical := by
  unfold State.sendLoad
  split
  · rename_i s1 e
    have hs1 : s1.Canonical := h.takeId e
    extract_lets s2
    have hs2 : s2.Canonical := hs1.foldl fun _ _ ha => ha.wakeFor ..
    exact (hs2.setThread ..).push ..

theorem State.Canonical.loadBody (h : s.Canonical) (d sz ea level rh x x1) :
    (loadBody d sz ea level rh s x x1).Keeps := by
  unfold Machine.loadBody
  extract_lets
  refine h.atHome (h.checked (h.homeChecks ?_))
  split
  · exact .park h
  · exact .done (h.sendLoad ..)

theorem State.Canonical.execLd (h : s.Canonical) (o) : Keeps (execLd o s) := h.issue fun _ _ _ ha => ha.loadBody ..

theorem State.Canonical.execLdacq (h : s.Canonical) (o) : Keeps (execLdacq o s) := by
  unfold Machine.execLdacq
  refine h.issue fun _ _ _ ha => ?_
  extract_lets
  split
  · exact ha.loadBody ..
  · split
    · split
      · exact .done (ha.setThread ..)
      · split
        · rename_i s1 e1
          have hs1 : s1.Canonical := (ha.loadBody ..).of_eq e1
          exact .park (hs1.modThread ..)
        · exact ha.loadBody ..
    · split
      · rename_i s1 e
        have hs1 : s1.Canonical := (ha.loadBody ..).of_eq e
        split
        · exact .park hs1
        · exact .done hs1
      · exact ha.loadBody ..

theorem State.Canonical.parkStore (h : s.Canonical) (th parts w) : (parkStore s th parts w).Keeps := by
  unfold Machine.parkStore
  split
  · refine .park (h.foldl (fun _ _ ha => ?_))
    split
    · exact ha
    · exact ha.wakeFor ..
  · exact .park h

theorem State.Canonical.storeGlobal (h : s.Canonical) (t th space va) : (s.storeGlobal t th space va).Canonical := by
  have h1 : (match s.keyOf th.c.asid space va with
      | none => s
      | some k => s.modThread t fun u => u.touch (homeDie space va) k).Canonical := by
    split
    · exact h
    · exact h.modThread ..
  exact h1.getD fun _ e => h1.noteDirty e

theorem State.Canonical.enterBuffer (h : s.Canonical) (r p space va) : (s.enterBuffer r p space va).Canonical := by
  unfold State.enterBuffer
  extract_lets s1
  have hs1 : s1.Canonical := h.csbStore ..
  split
  · exact hs1
  · split
    · exact hs1
    · rename_i l _
      exact hs1.l1Fill ..

theorem State.Canonical.storePart (h : s.Canonical) (t th p) : (s.storePart t th p).Canonical := by
  unfold State.storePart
  split
  · exact h
  · split
    · exact h.wr ..
    · exact h.wakeFor ..
  · exact h.storeGlobal ..

theorem State.Canonical.sendStore (h : s.Canonical) (t th parts rh) : (s.sendStore t th parts rh).Canonical := by
  unfold State.sendStore
  split
  · rename_i s1 e
    have hs1 : s1.Canonical := h.takeId e
    extract_lets s2 s3
    have hs2 : s2.Canonical := hs1.foldl fun _ _ ha => ha.storePart ..
    have hs3 : s3.Canonical := by
      unfold s3
      split
      · exact hs2
      · exact hs2.push ..
    split
    · exact hs3
    · exact (hs3.modThread ..).push ..

theorem State.Canonical.storeAll (h : s.Canonical) (t th parts rh after) : (s.storeAll t th parts rh after).Keeps := by
  unfold State.storeAll
  split
  · split
    · exact .park (h.probeFor ..)
    · extract_lets
      split
      · exact .park h
      · split
        · split
          · exact .done (h.setThread ..)
          · exact .done (h.endRegion ..)
        · split
          · split
            · exact .done ((h.setThread ..).endChunk ..)
          · exact .done (h.setThread ..)
  · split
    · exact h.parkStore ..
    · exact .done ((h.sendStore ..).modThread ..)

theorem State.Canonical.storeBody (h : s.Canonical) (o rh x x1) : (storeBody o rh s x x1).Keeps := by
  unfold Machine.storeBody
  extract_lets
  exact h.atHome (h.checked (h.storeAll ..))

theorem State.Canonical.execSt (h : s.Canonical) (o) : Keeps (execSt o s) := h.issue fun _ _ _ ha => ha.storeBody ..

theorem State.Canonical.execStrel (h : s.Canonical) (o) : Keeps (execStrel o s) := by
  unfold Machine.execStrel
  refine h.issue fun _ _ _ ha => ?_
  extract_lets
  refine ha.atHome (ha.checked ?_)
  split
  · exact ha.storeBody ..
  · split
    · exact ha.parkStore ..
    · exact ha.release fun _ _ ha1 => ha1.storeBody ..

theorem State.Canonical.viaRequest (h : s.Canonical) {t th ea start} (hstart : ∀ x0, (start x0).Keeps) :
    (viaRequest s t th ea start).Keeps := by
  unfold Machine.viaRequest
  split
  · exact hstart _
  · split
    · exact .trap (h.setThread ..)
    · split
      · exact .done (h.setThread ..)
      · exact .park h

theorem State.Canonical.syncChunk (h : s.Canonical) (o store a' n c off t th) :
    (syncChunk o store a' n c off s t th).Keeps := by
  unfold Machine.syncChunk
  split
  · exact .trap h
  · exact .park (h.wakeFor ..)
  · extract_lets
    split
    · exact .park h
    · split
      · exact .done (h.endChunk ..)
      · exact .done (h.setThread ..)

theorem State.Canonical.syncBody (h : s.Canonical) (o store t th) : (syncBody o store s t th).Keeps := by
  unfold Machine.syncBody
  extract_lets +onlyGivenNames ea n
  split
  · exact .trap h
  · refine h.viaRequest fun _ => ?_
    split
    · exact .trap h
    · refine h.atHome (h.checked (h.homeChecks ?_))
      split
      · exact h.syncChunk ..
      · split
        · exact .park h
        · extract_lets go
          have hgo (a : State) (u : Thread) (ha : a.Canonical) : (go a u).Keeps := by
            unfold go
            split
            next s1 e =>
            extract_lets +onlyGivenNames id _ _ s2 lim q s3
            have h3 : s3.Canonical := (((ha.takeId e).wakeFor ..).setThread ..).push _
            refine .park ?_
            split
            · exact h3
            · exact h3.push _
          split
          · exact h.release hgo
          · exact hgo _ _ h
    · exact .trap h

theorem State.Canonical.execLdsy (h : s.Canonical) (o) : Keeps (execLdsy o s) := h.issue fun _ _ _ ha => ha.syncBody ..

theorem State.Canonical.execStsy (h : s.Canonical) (o) : Keeps (execStsy o s) := h.issue fun _ _ _ ha => ha.syncBody ..

theorem State.Canonical.execPf (h : s.Canonical) (o) : Keeps (execPf o s) := by
  unfold Machine.execPf
  refine h.issue fun _ _ _ ha => ?_
  extract_lets _ _ s1
  have hs1 : s1.Canonical := by
    unfold s1
    split
    · split
      · exact ha
      · split
        · rename_i s11 e1
          have hs11 : s11.Canonical := (ha.readGlobal ..).of_eq e1
          exact hs11
        · exact ha
    · exact ha
  exact .done (hs1.modThread ..)

theorem State.Canonical.amoHeld (h : s.Canonical) (fn n a' b' c d t th) : (amoHeld fn n a' b' c d s t th).Keeps := by
  unfold Machine.amoHeld
  split
  · exact .park (h.probeFor ..)
  · split
    · exact .park h
    · split
      · exact .park (h.wakeFor ..)
      · split
        · rename_i s1 e1
          have hs1 : s1.Canonical := (h.readPlace ..).of_eq e1
          exact .trap hs1
        · exact .park (h.probeFor ..)
        · rename_i s1 e1
          have hs1 : s1.Canonical := (h.readPlace ..).of_eq e1
          split
          · exact trivial
          · extract_lets
            exact hs1.storeAll ..

theorem State.Canonical.sendAtomic (h : s.Canonical) (t th fn a' n b' c d red sys) :
    (s.sendAtomic t th fn a' n b' c d red sys).Canonical := by
  unfold State.sendAtomic
  split
  · rename_i s1 e
    have hs1 : s1.Canonical := h.takeId e
    extract_lets s2
    have hs2 : s2.Canonical := hs1.wakeFor ..
    exact (hs2.setThread ..).push ..

theorem State.Canonical.amoBody (h : s.Canonical) (fn o t th) : (amoBody fn o s t th).Keeps := by
  unfold Machine.amoBody
  extract_lets +onlyGivenNames ea n b c acq rel
  split
  · exact .done (h.setThread ..)
  · refine h.atHome (h.checked (h.homeChecks ?_))
    split
    · exact h.amoHeld ..
    · split
      · exact .park h
      · split
        · exact .park h
        · extract_lets +onlyGivenNames go
          have hgo (a : State) (u : Thread) (ha : a.Canonical) : (go a u).Keeps := by
            unfold go
            extract_lets s1
            have h1 : s1.Canonical := ha.sendAtomic ..
            split
            · split
              · exact .park (h1.modThread ..)
              · exact .park h1
            · exact .done h1
          split
          · exact h.release hgo
          · exact hgo _ _ h

theorem State.Canonical.redBody (h : s.Canonical) (fn o x x1) : (redBody fn o s x x1).Keeps := by
  unfold Machine.redBody
  extract_lets
  refine h.checked ?_
  split
  · exact h.amoHeld ..
  · split
    · exact .park h
    · split
      · exact .park h
      · exact .done (h.sendAtomic ..)

theorem State.Canonical.execAmoAdd (h : s.Canonical) (o) : Keeps (execAmoAdd o s) :=
  h.issue fun _ _ _ ha => ha.amoBody ..

theorem State.Canonical.execAmoAnd (h : s.Canonical) (o) : Keeps (execAmoAnd o s) :=
  h.issue fun _ _ _ ha => ha.amoBody ..

theorem State.Canonical.execAmoOr (h : s.Canonical) (o) : Keeps (execAmoOr o s) := h.issue fun _ _ _ ha => ha.amoBody ..

theorem State.Canonical.execAmoXor (h : s.Canonical) (o) : Keeps (execAmoXor o s) :=
  h.issue fun _ _ _ ha => ha.amoBody ..

theorem State.Canonical.execAmoMin (h : s.Canonical) (o) : Keeps (execAmoMin o s) :=
  h.issue fun _ _ _ ha => ha.amoBody ..

theorem State.Canonical.execAmoMax (h : s.Canonical) (o) : Keeps (execAmoMax o s) :=
  h.issue fun _ _ _ ha => ha.amoBody ..

theorem State.Canonical.execAmoMinu (h : s.Canonical) (o) : Keeps (execAmoMinu o s) :=
  h.issue fun _ _ _ ha => ha.amoBody ..

theorem State.Canonical.execAmoMaxu (h : s.Canonical) (o) : Keeps (execAmoMaxu o s) :=
  h.issue fun _ _ _ ha => ha.amoBody ..

theorem State.Canonical.execAmoSwap (h : s.Canonical) (o) : Keeps (execAmoSwap o s) :=
  h.issue fun _ _ _ ha => ha.amoBody ..

theorem State.Canonical.execAmoCas (h : s.Canonical) (o) : Keeps (execAmoCas o s) :=
  h.issue fun _ _ _ ha => ha.amoBody ..

theorem State.Canonical.execAmoFadd (h : s.Canonical) (o) : Keeps (execAmoFadd o s) :=
  h.issue fun _ _ _ ha => ha.amoBody ..

theorem State.Canonical.execRedAdd (h : s.Canonical) (o) : Keeps (execRedAdd o s) :=
  h.issue fun _ _ _ ha => ha.redBody ..

theorem State.Canonical.execRedFadd (h : s.Canonical) (o) : Keeps (execRedFadd o s) :=
  h.issue fun _ _ _ ha => ha.redBody ..

theorem State.Canonical.execRedMin (h : s.Canonical) (o) : Keeps (execRedMin o s) :=
  h.issue fun _ _ _ ha => ha.redBody ..

theorem State.Canonical.execRedMax (h : s.Canonical) (o) : Keeps (execRedMax o s) :=
  h.issue fun _ _ _ ha => ha.redBody ..

theorem State.Canonical.execRedOr (h : s.Canonical) (o) : Keeps (execRedOr o s) := h.issue fun _ _ _ ha => ha.redBody ..

theorem State.Canonical.execRedAnd (h : s.Canonical) (o) : Keeps (execRedAnd o s) :=
  h.issue fun _ _ _ ha => ha.redBody ..

theorem State.Canonical.execFenceAcq (h : s.Canonical) (sc) : Keeps (execFenceAcq sc s) := by
  unfold Machine.execFenceAcq
  refine h.issue fun _ _ _ ha => ?_
  split
  · exact .trap ha
  · exact ha.acquireFence fun _ _ ha1 => .done (ha1.setThread ..)

theorem State.Canonical.execFenceRel (h : s.Canonical) (sc) : Keeps (execFenceRel sc s) := by
  unfold Machine.execFenceRel
  refine h.issue fun _ _ _ ha => ?_
  split
  · exact .trap ha
  · exact ha.release fun _ _ ha1 => .done (ha1.setThread ..)

theorem State.Canonical.execFenceFull (h : s.Canonical) (sc) : Keeps (execFenceFull sc s) := by
  unfold Machine.execFenceFull
  refine h.issue fun _ _ _ ha => ?_
  split
  · exact .trap ha
  · split
    · exact .park ha
    · split
      · exact .park ha
      · exact ha.release fun _ _ ha1 => ha1.acquireFence (fun _ _ ha2 => .done (ha2.setThread ..))

theorem State.Canonical.execGo (h : s.Canonical) (sa) : Keeps (execGo sa s) := by
  unfold Machine.execGo
  refine h.issue fun _ _ _ ha => ?_
  extract_lets
  split
  · exact .trap ha
  · split
    · exact .trap ha
    · split
      · exact .done (ha.setThread ..)
      · split
        · split
          · exact .done (ha.setThread ..)
          · exact .done (ha.depart ..)
        · split
          · exact .park (ha.probeFor ..)
          · extract_lets
            split
            · exact .done (ha.setThread ..)
            · exact .done (ha.depart ..)

/-! ### Functions of `Sys2Proof.Machine.Perform` -/

theorem State.Canonical.perform (h : s.Canonical) {name i ok} {k : State → State} (hk : ∀ a, a.Canonical → (k a).Canonical) :
    Keeps (Machine.perform name i ok s k) := by
  unfold Machine.perform
  split
  · exact Keeps.next (hk { s with pool := s.pool.erase i } (h.of_eq rfl rfl))
  · exact trivial

theorem State.Canonical.loadParts (h : s.Canonical) (r ps acc errs) : (loadParts r ps s acc errs).Keeps := by
  induction ps generalizing s acc errs with
  | nil => exact .val h
  | cons p ps ih =>
    unfold Machine.loadParts
    split
    · exact ih h ..
    · split
      · next e => exact ih ((h.readPlace ..).of_eq e) ..
      · next e => exact ih ((h.readPlace ..).of_eq e) ..
      · exact trivial

theorem State.Canonical.fillDst (h : s.Canonical) (t r v) : (s.fillDst t r v).Canonical := by
  unfold State.fillDst
  split
  · exact h
  · extract_lets
    split
    · exact h.setThread ..
    · exact h.setThread ..
    · exact h.setVreg ..
    · split
      · exact h.setVreg ..

theorem State.Canonical.holdAt (h : s.Canonical) (core asid ea entryAt i) :
    (s.holdAt core asid ea entryAt i).Canonical := by
  unfold State.holdAt
  split
  · exact h.holdStep ..

theorem State.Canonical.deferFirst (h : s.Canonical) (t errs) : (s.deferFirst t errs).Canonical := by
  unfold State.deferFirst
  split
  · exact h
  · exact h.defer ..

theorem State.Canonical.execLoadCompletion (h : s.Canonical) (r) : Keeps (execLoadCompletion r s) := by
  unfold Machine.execLoadCompletion
  refine h.perform fun _ ha => ?_
  extract_lets s1
  have hs1 : s1.Canonical := by
    unfold s1
    split
    · exact ha.l1Drop ..
    · exact ha
  split
  · rename_i s11 e
    have hs11 : s11.Canonical := (hs1.loadParts ..).of_eq e
    exact (hs11.fillDst ..).deferFirst ..
  · exact hs1.holdAt ..

theorem State.Canonical.noteFail (h : s.Canonical) (t acc el ea c) : (s.noteFail t acc el ea c).Canonical :=
  h.modThread ..

theorem State.Canonical.endAccess (h : s.Canonical) (t acc) : (s.endAccess t acc).Canonical := by
  unfold State.endAccess
  split
  · exact h
  · split
    · exact h
    · exact (h.modThread ..).defer ..

theorem State.Canonical.execStorePerformAtHome (h : s.Canonical) (r) : Keeps (execStorePerformAtHome r s) := by
  unfold Machine.execStorePerformAtHome
  refine h.perform fun _ ha => ?_
  extract_lets s1
  have hs1 : s1.Canonical := by
    unfold s1
    split
    · exact ha
    · exact ha.modThread ..
  refine (hs1.foldl (fun _ _ ha1 => ?_)).endAccess ..
  split
  · split
    · exact ha1.noteFail ..
    · exact ha1.wr ..
  · exact ha1.enterBuffer ..
  · exact ha1

theorem State.Canonical.atomic (h : s.Canonical) {a' i k fail} (hk : ∀ a x1, a.Canonical → (k a x1).Canonical)
    (hfail : ∀ a x1, a.Canonical → (fail a x1).Canonical) :
    (s.atomic a' i k fail).Canonical := by
  unfold State.atomic
  split
  · exact hfail _ _ h
  · split
    · exact hfail _ _ h
    · split
      · rename_i s1 e2
        have hs1 : s1.Canonical := h.eccRead e2
        split
        · exact hfail _ _ hs1
        · extract_lets
          exact hk _ _ (hs1.wr ..)
  · split
    · exact hfail _ _ h
    · split
      · exact h.holdAt ..
      · extract_lets _ _ _ s1 s2
        have hs1 : s1.Canonical := h.softHome ..
        have hs2 : s2.Canonical := (hs1.l1DropLine ..).modThread ..
        exact hk _ _ (hs2.ackNow ..)

theorem State.Canonical.execAtomicAtHome (h : s.Canonical) (a') : Keeps (execAtomicAtHome a' s) := by
  unfold Machine.execAtomicAtHome
  refine h.perform fun _ ha => .atomic ?_ (fun _ _ ha1 => ha1.modThread ..) (fun _ _ ha1 => (ha1.modThread ..).defer ..)
  split
  · exact ha.l1Drop ..
  · exact ha

theorem State.Canonical.execRemoteUpdate (h : s.Canonical) (a') : Keeps (execRemoteUpdate a' s) :=
  h.perform fun _ ha => ha.atomic (fun _ _ ha1 => ha1) (fun _ _ ha1 => ha1.defer ..)

theorem State.Canonical.beginDrain (h : s.Canonical) (cl id) : (s.beginDrain cl id).Canonical := h.modCluster ..

theorem State.Canonical.endEntry (h : s.Canonical) (cl e' line) : (s.endEntry cl e' line).Canonical := by
  unfold State.endEntry
  extract_lets s1 s2
  have hs1 : s1.Canonical := h.modCluster ..
  have hs2 : s2.Canonical := by
    unfold s2
    split
    · exact hs1.foldl fun _ _ ha => ha.l1Acked ..
    · exact hs1
  exact hs2.foldl fun _ _ ha => ha.endAccess ..

theorem State.Canonical.failEntry (h : s.Canonical) (cl e' c) : (s.failEntry cl e' c).Canonical := by
  unfold State.failEntry
  extract_lets s1
  have hs1 : s1.Canonical := by
    refine h.foldl fun _ _ ha => ?_
    split
    · exact ha.noteFail ..
    · exact ha
  exact (hs1.foldl (fun _ _ ha => ha.modM ..)).endEntry ..

theorem State.Canonical.execStoreBufferDrain (h : s.Canonical) (cl id) : Keeps (execStoreBufferDrain cl id s) := by
  unfold Machine.execStoreBufferDrain
  refine h.perform fun _ ha => ?_
  split
  · exact ha
  · extract_lets
    split
    · split
      · exact ha.failEntry ..
      · split
        · exact (ha.beginDrain ..).holdAt ..
        · extract_lets _ _ s1 s2 s3
          have hs1 : s1.Canonical := (ha.softHomeLine ..).modCluster ..
          have hs2 : s2.Canonical := hs1.endEntry ..
          have hs3 : s3.Canonical := hs2.foldl fun _ _ ha1 => ha1.ackNow ..
          exact hs3.foldl fun _ _ ha1 => ha1.modThread ..
    · exact ha

theorem State.Canonical.execReleaseProbeEcho (h : s.Canonical) (t p) : Keeps (execReleaseProbeEcho t p s) :=
  h.perform fun _ ha => ha.modThread ..

theorem State.Canonical.execSignaturePlacement (h : s.Canonical) (t sc) : Keeps (execSignaturePlacement t sc s) := by
  unfold Machine.execSignaturePlacement
  refine h.perform fun _ ha => ?_
  split
  · exact ha
  · extract_lets s1 s2
    have hs1 : s1.Canonical := ha.applySig ..
    have hs2 : s2.Canonical := hs1.modThread ..
    exact hs2.takePlace ..

theorem State.Canonical.syncFails (h : s.Canonical) (r th c) : (s.syncFails r th c).Canonical := by
  unfold State.syncFails
  extract_lets
  split
  · exact h.setThread ..
  · exact (h.setThread ..).takeTrap ..

theorem State.Canonical.dropLimit (h : s.Canonical) (r) : (dropLimit r s).Canonical := h.of_eq rfl rfl

theorem State.Canonical.execSyncAccessServe (h : s.Canonical) (r) : Keeps (execSyncAccessServe r s) := by
  refine h.perform fun a ha => ?_
  extract_lets +onlyGivenNames b
  have hb : b.Canonical := ha.dropLimit r
  split
  · exact hb
  · split
    · exact hb.syncFails ..
    · split
      next bad c e =>
      have hc : c.Canonical := by
        split at e
        · cases e
          exact hb
        · exact hb.eccRead e
      extract_lets +onlyGivenNames th
      split
      · exact (hc.setThread ..).defer ..
      · extract_lets +onlyGivenNames v s1 s2 u _ s3
        have h1 : s1.Canonical := by
          unfold s1
          split
          · exact hc.wr ..
          · exact hc
        have h3 : s3.Canonical := ((h1.setFe ..).setFe ..).setThread ..
        split
        · exact h3
        · exact h3.l1Drop ..

theorem State.Canonical.execSyncRetryLimit (h : s.Canonical) (r) : Keeps (execSyncRetryLimit r s) := by
  unfold Machine.execSyncRetryLimit
  refine h.perform fun _ ha => ?_
  extract_lets s1
  have hs1 : s1.Canonical := ha.of_eq rfl rfl
  split
  · exact hs1
  · exact hs1.syncFails ..

theorem State.Canonical.unpack (h : s.Canonical) (m i) : (s.unpack m i).Canonical := by
  unfold State.unpack
  extract_lets s1
  have hs1 : s1.Canonical := h.l1Drop ..
  exact hs1.modThread ..

theorem State.Canonical.seatArrival (h : s.Canonical) (core) : (s.seatArrival core).Canonical := by
  unfold State.seatArrival
  split
  · exact (h.modK ..).unpack ..
  · exact h

theorem State.Canonical.dropProbe (h : s.Canonical) (t) : (s.dropProbe t).Canonical := by
  unfold State.dropProbe
  refine .modThread ?_ ..
  exact h.of_eq rfl rfl

theorem State.Canonical.execMigrationDeparture (h : s.Canonical) (t dest) :
    Keeps (execMigrationDeparture t dest s) := by
  unfold Machine.execMigrationDeparture
  refine h.perform fun _ ha => ?_
  split
  · exact ha
  · split
    · exact (ha.dropProbe ..).modThread ..
    · extract_lets _ s1
      have hs1 : s1.Canonical := ha.setThread ..
      exact (hs1.seatArrival ..).push ..

theorem State.Canonical.execMigrationArrival (h : s.Canonical) (m) : Keeps (execMigrationArrival m s) := by
  unfold Machine.execMigrationArrival
  refine h.perform fun _ ha => ?_
  split
  · exact ha.unpack ..
  · exact ha.modK ..

theorem State.Canonical.probeFails (h : s.Canonical) (t th) : (s.probeFails t th).Canonical :=
  (h.setThread ..).takeTrap ..

theorem State.Canonical.execTranslationProbe (h : s.Canonical) (t) : Keeps (execTranslationProbe t s) := by
  unfold Machine.execTranslationProbe
  refine h.perform fun _ ha => ?_
  split
  · exact ha
  · split
    · exact ha
    · split
      · exact ha.probeFails ..
      · split
        · split
          · exact (ha.keepXlat ..).modThread ..
          · extract_lets _ _ s1
            have hs1 : s1.Canonical := ha.holdAt ..
            split
            · exact hs1.depart ..
            · exact hs1
        · exact ha.modThread ..

theorem State.Canonical.execWriteLogAppend (h : s.Canonical) (core) : Keeps (execWriteLogAppend core s) := by
  unfold Machine.execWriteLogAppend
  refine h.perform fun _ ha => ?_
  split
  · exact ha
  · split
    · exact ha.holdAt ..
    · rename_i s1 e1
      have hs1 : s1.Canonical := (ha.appendLog ..).of_eq e1
      extract_lets s2
      have hs2 : s2.Canonical := hs1.modM ..
      split
      · exact hs2
      · exact hs2.push ..

theorem State.Canonical.execDirtyLogMerge (h : s.Canonical) (core) : Keeps (execDirtyLogMerge core s) :=
  h.perform fun _ ha => ha.mergeLog ..

theorem State.Canonical.execBankWakeEnd (h : s.Canonical) (core bank) : Keeps (execBankWakeEnd core bank s) := by
  unfold Machine.execBankWakeEnd
  refine h.perform fun _ ha => ?_
  extract_lets s1 s2
  have hs1 : s1.Canonical := (ha.zero ..).fillFe ..
  have hs2 : s2.Canonical := hs1.modM ..
  exact hs2

end Sys2Proof.Machine
end

section
/-! Memory stays canonical: caches, engines, links, the words of the chapters, copies and bindings. -/

namespace Sys2Proof.Machine

variable {s : State}

/-! ### Functions of `Sys2Proof.Machine.Cache` -/

theorem State.Canonical.cacheChecks (h : s.Canonical) {th a' k} (hk : (k).Keeps) : (cacheChecks s th a' k).Keeps := by
  unfold Machine.cacheChecks
  split
  · exact .trap h
  · split
    · exact .trap h
    · exact hk

theorem State.Canonical.mapL2 (h : s.Canonical) (rs f) : (s.mapL2 rs f).Canonical := h.of_eq rfl rfl

theorem State.Canonical.cacheEchoes (h : s.Canonical) {t th act} (hact : ∀ a, a.Canonical → (act a).Canonical) :
    (cacheEchoes s t th act).Keeps := by
  unfold Machine.cacheEchoes
  split
  · exact .done (h.setThread ..)
  · exact .park ((hact _ h).modThread ..)

theorem State.Canonical.atHomes (h : s.Canonical) (th sa sb f) : (s.atHomes th sa sb f).Canonical := by
  unfold State.atHomes
  split
  · exact h
  · exact h.mapL2 ..

theorem State.Canonical.execCacheWb (h : s.Canonical) (sa sb) : Keeps (execCacheWb sa sb s) :=
  h.issue fun _ _ _ ha => ha.cacheChecks (ha.cacheEchoes (fun _ ha1 => ha1.atHomes ..))

theorem State.Canonical.execCacheInv (h : s.Canonical) (sa sb) : Keeps (execCacheInv sa sb s) := by
  unfold Machine.execCacheInv
  refine h.issue fun _ _ _ ha => ha.cacheChecks ?_
  split
  · exact .done (ha.setThread ..)
  · extract_lets _ _ s1
    have hs1 : s1.Canonical := by
      unfold s1
      split
      · exact ha
      · exact ha.l1Drop ..
    split
    · exact .park (hs1.setThread ..)
    · exact .done (hs1.setThread ..)

theorem State.Canonical.execCacheHarvest (h : s.Canonical) : Keeps (execCacheHarvest s) := by
  refine h.issue fun a t th ha => ?_
  split
  · exact .trap ha
  · refine ha.cacheEchoes fun b hb => ?_
    have hc : ((List.range 8).foldl (fun a i => a.mergeLog (clusterOf th.core * 8 + i)) b).Canonical :=
      hb.foldl fun _ _ hc => hc.mergeLog _
    exact hc.withPool _

theorem State.Canonical.execCacheRetain (h : s.Canonical) (sa sb code) : Keeps (execCacheRetain sa sb code s) :=
  h.issue fun _ _ _ ha => ha.cacheChecks (.done ((ha.atHomes ..).setThread ..))

theorem State.Canonical.execCacheTlbi (h : s.Canonical) (sa sb kind) : Keeps (execCacheTlbi sa sb kind s) := by
  unfold Machine.execCacheTlbi
  refine h.issue fun _ _ _ ha => ha.cacheChecks (ha.cacheEchoes (fun _ ha1 => ?_))
  extract_lets
  exact ha1.of_eq rfl rfl

/-! ### Functions of `Sys2Proof.Machine.Engine` -/

theorem State.Canonical.setCb (h : s.Canonical) (core n c) : (s.setCb core n c).Canonical := h.modE ..

theorem State.Canonical.setBinding (h : s.Canonical) (core i b') : (s.setBinding core i b').Canonical := h.modE ..

theorem State.Canonical.cbDo (h : s.Canonical) (core o) : (s.cbDo core o).Canonical := by
  unfold State.cbDo
  split
  · exact (h.setCb ..).modE ..
  · exact (h.setCb ..).modE ..

theorem State.Canonical.notePut (h : s.Canonical) (core t id o) : (s.notePut core t id o).Canonical := by
  unfold State.notePut
  split
  · exact h.modE ..
  · exact h

theorem State.Canonical.cbWord (h : s.Canonical) (t th o) : (s.cbWord t th o).Canonical := by
  unfold State.cbWord
  split
  · exact h.modThread ..
  · exact (h.cbDo ..).notePut ..

theorem State.Canonical.armBinding (h : s.Canonical) (core t x) : (s.armBinding core t x).Canonical := by
  unfold State.armBinding
  split
  · exact h.setBinding ..
  · exact h

theorem State.Canonical.keepBinding (h : s.Canonical) (t i old) : (s.keepBinding t i old).Canonical := h.modThread ..

theorem State.Canonical.refreshBnd (h : s.Canonical) (core) : (s.refreshBnd core).Canonical := by
  unfold State.refreshBnd
  refine h.foldl fun _ _ ha => ?_
  split
  · exact ha
  · exact ha.setCb ..

theorem State.Canonical.restoreBinding (h : s.Canonical) (core x) : (s.restoreBinding core x).Canonical := by
  unfold State.restoreBinding
  split
  · exact h.setBinding ..
  · exact h.setBinding ..
  · exact h.modE ..

theorem State.Canonical.lockAt (h : s.Canonical) (core l) : (s.lockAt core l).Canonical := h.modM ..

theorem State.Canonical.lockAll (h : s.Canonical) (ls) : (s.lockAll ls).Canonical := h.foldl fun _ _ ha => ha.lockAt ..

theorem State.Canonical.unlock (h : s.Canonical) (id p) : (s.unlock id p).Canonical := h.of_eq rfl rfl

theorem State.Canonical.takeSeq (h : s.Canonical) {core v t} (e : s.takeSeq core = (v, t)) : t.Canonical := by
  cases e
  exact State.Canonical.modE h ..

theorem State.Canonical.engineRelease (h : s.Canonical) (t core sc) : (s.engineRelease t core sc).Canonical := by
  unfold State.engineRelease
  split
  · exact h
  · split
    · exact h
    · extract_lets s1 s2
      have hs1 : s1.Canonical := h.applySig ..
      have hs2 : s2.Canonical := by
        unfold s2
        split
        · exact hs1
        · exact hs1.takePlace ..
      split
      · exact hs2.finishRelease ..
      · exact hs2

theorem State.Canonical.touchLines (h : s.Canonical) (t ls) : (s.touchLines t ls).Canonical := h.modThread ..

theorem State.Canonical.enginePublish (h : s.Canonical) (t core sc lines) :
    (s.enginePublish t core sc lines).Canonical := by
  unfold State.enginePublish
  split
  · exact h
  · extract_lets _ s1
    have hs1 : s1.Canonical := h.applySig ..
    split
    · exact hs1
    · exact hs1.takePlace ..

theorem State.Canonical.engSp (h : s.Canonical) {r : EGot} (hr : r.Keeps) (a c off n ea) :
    ((s.engSp a c off n ea).getD r).Keeps := by
  unfold State.engSp
  split
  · split
    · exact .err h
    · exact hr
  · split
    · exact .err h
    · exact hr

theorem State.Canonical.engRead (h : s.Canonical) (a ea n) : (s.engRead a ea n).Keeps := by
  unfold State.engRead
  dsimp only
  split
  · exact .err h
  · refine h.engSp ?_ ..
    split
    · exact .err (h.eccRead rfl)
    · exact .ok (h.eccRead rfl)
  · split
    · exact .err h
    · split
      · next e => exact .ok ((h.readGlobal ..).of_eq e)
      · next e => exact .err ((h.readGlobal ..).of_eq e)
      · split
        · exact .err h
        · exact trivial

theorem State.Canonical.engHold (h : s.Canonical) (a' ea n v) : (s.engHold a' ea n v).Canonical := h.modThread ..

theorem State.Canonical.engWrite (h : s.Canonical) (a ea n v) : (s.engWrite a ea n v).Keeps := by
  unfold State.engWrite
  split
  · exact .err h
  · refine h.engSp ?_ ..
    split
    · exact .ok (h.engHold ..)
    · exact .ok (h.wr ..)
  · split
    · exact .err h
    · split
      · split
        · exact .err h
        · exact trivial
      · split
        · exact .err h
        · split
          · exact .ok (h.engHold ..)
          · split
            · exact trivial
            · exact .ok ((((h.softHome ..).l1DropLine ..).modThread ..).ackNow ..)

theorem State.Canonical.wakeBanks (h : s.Canonical) (bs) : (s.wakeBanks bs).Canonical := by
  unfold State.wakeBanks
  split
  · exact h.touchBank ..
  · exact h

theorem State.Canonical.nextPort (h : s.Canonical) {pkg n t} (e : s.nextPort pkg = some (n, t)) : t.Canonical := by
  obtain ⟨_, _, he⟩ := Option.map_eq_some_iff.1 e
  cases he
  exact h.modOut ..

theorem State.Canonical.putElem (h : s.Canonical) (a' dn e' v) : (s.putElem a' dn e' v).Keeps := by
  unfold State.putElem
  extract_lets
  split
  · split
    · rename_i s1 _ e1
      have hs1 : s1.Canonical := (h.engRead ..).of_eq e1
      exact hs1.engWrite ..
    · exact h.engRead ..
  · exact h.engWrite ..

theorem State.Canonical.movePieces (h : s.Canonical) (a l ls) : (movePieces a l s ls).Keeps := by
  induction l generalizing s ls with
  | nil => exact .ok h
  | cons p l ih =>
    unfold Machine.movePieces
    split
    · split
      · next e => exact .fault ((h.engRead ..).of_eq e)
      · exact trivial
      · next s1 _ e =>
        have hs : s1.Canonical := (h.engRead ..).of_eq e
        split
        · next e => exact .fault ((hs.engWrite ..).of_eq e)
        · exact trivial
        · next e => exact ih ((hs.engWrite ..).of_eq e) _
    · split
      · next e => exact .fault ((h.engRead ..).of_eq e)
      · exact trivial
      · next s1 _ e =>
        have hs : s1.Canonical := (h.engRead ..).of_eq e
        dsimp only
        split
        · next e => exact .fault ((hs.putElem ..).of_eq e)
        · exact trivial
        · next e => exact ih ((hs.putElem ..).of_eq e) _

theorem State.Canonical.Walked.move (h : s.Canonical) (w a' ls) : (Walked.move w a' s ls).Keeps := by
  unfold Machine.Walked.move
  split
  · rename_i s1 _ e
    have hs1 : s1.Canonical := (h.movePieces ..).of_eq e
    split
    · exact .fault hs1
    · exact .ok hs1
  · exact h.movePieces ..

/-! ### Functions of `Sys2Proof.Machine.Links` -/

theorem State.Canonical.setPort (h : s.Canonical) (n p) : (s.setPort n p).Canonical := h.modOut ..

theorem State.Canonical.control (h : s.Canonical) (n kind seq) : (s.control n kind seq).Canonical := by
  unfold State.control
  extract_lets
  exact h.send ..

theorem State.Canonical.pumpN (h : s.Canonical) (n k) : (State.pumpN n k s).Canonical := by
  induction k generalizing s with
  | zero => exact h
  | succ k ih =>
    unfold State.pumpN
    dsimp only
    split
    · exact h
    · split
      · exact h
      · exact ih ((h.setPort ..).send ..)

theorem State.Canonical.pump (h : s.Canonical) (n) : (s.pump n).Canonical := by
  unfold State.pump
  split
  · exact h.pumpN ..
  · exact h

theorem State.Canonical.emit (h : s.Canonical) (n cls dst payload) : (s.emit n cls dst payload).Canonical :=
  (h.setPort ..).pump ..

theorem State.Canonical.resend (h : s.Canonical) (n seq) : (s.resend n seq).Canonical := by
  unfold State.resend
  split
  · exact h.foldl fun _ _ ha => ha.send ..
  · exact h.setPort ..

theorem State.Canonical.resume (h : s.Canonical) (n) : (s.resume n).Canonical := by
  unfold State.resume
  split
  · exact h
  · extract_lets _ s1
    have hs1 : s1.Canonical := by
      unfold s1
      split
      · exact (h.setPort ..).resend ..
      · exact h
    exact hs1.pump ..

theorem State.Canonical.reply (h : s.Canonical) (n pkg v id copy) : (s.reply n pkg v id copy).Canonical := h.emit ..

theorem State.Canonical.nextArrival (h : s.Canonical) (n i) : (s.nextArrival n i).Canonical := by
  unfold State.nextArrival
  extract_lets _ s1
  have hs1 : s1.Canonical := h.setPort ..
  split
  · exact hs1.urge ..
  · exact hs1

theorem State.Canonical.passUp (h : s.Canonical) (n f) : (s.passUp n f).Canonical := by
  unfold State.passUp
  extract_lets _ _ s1
  have hs1 : s1.Canonical := h.setPort ..
  split
  · exact hs1
  · exact hs1.urge ..

theorem State.Canonical.failCopy (h : s.Canonical) (i src tag code ea) : (s.failCopy i src tag code ea).Canonical := by
  unfold State.failCopy
  extract_lets s1 _ s2
  have hs1 : s1.Canonical := h.nextArrival ..
  have hs2 : s2.Canonical := by
    unfold s2
    split
    · exact hs1
    · exact hs1.setPort ..
  exact hs2.reply ..

theorem State.Canonical.answered (h : s.Canonical) (f) : (s.answered f).Canonical := h.of_eq rfl rfl

/-! ### Functions of `Sys2Proof.Machine.Flags` -/

theorem State.Canonical.fpEnd (h : s.Canonical) (t th r wr) : (fpEnd s t th r wr).Keeps := by
  unfold Machine.fpEnd
  split
  · exact .trap (h.raise ..)
  · exact .done (h.raise ..)

theorem State.Canonical.cvtEnd (h : s.Canonical) (t th r wr) : (cvtEnd s t th r wr).Keeps := h.fpEnd ..

/-! ### Functions of `Sys2Proof.Machine.Scalar` -/

theorem State.Canonical.rr3 (h : s.Canonical) (o f) : Keeps (rr3 o f s) := h.issue fun _ _ _ ha => ha.writesX ..

theorem State.Canonical.rr2 (h : s.Canonical) (o f) : Keeps (rr2 o f s) := h.issue fun _ _ _ ha => ha.writesX ..

theorem State.Canonical.execAluAdd (h : s.Canonical) (o) : Keeps (execAluAdd o s) := h.rr3 ..

theorem State.Canonical.execAluSub (h : s.Canonical) (o) : Keeps (execAluSub o s) := h.rr3 ..

theorem State.Canonical.execAluMul (h : s.Canonical) (o) : Keeps (execAluMul o s) := h.rr3 ..

theorem State.Canonical.execAluMulh (h : s.Canonical) (o) : Keeps (execAluMulh o s) := h.rr3 ..

theorem State.Canonical.execAluMulhu (h : s.Canonical) (o) : Keeps (execAluMulhu o s) := h.rr3 ..

theorem State.Canonical.execAluAnd (h : s.Canonical) (o) : Keeps (execAluAnd o s) := h.rr3 ..

theorem State.Canonical.execAluOr (h : s.Canonical) (o) : Keeps (execAluOr o s) := h.rr3 ..

theorem State.Canonical.execAluXor (h : s.Canonical) (o) : Keeps (execAluXor o s) := h.rr3 ..

theorem State.Canonical.execAluAndn (h : s.Canonical) (o) : Keeps (execAluAndn o s) := h.rr3 ..

theorem State.Canonical.execAluOrn (h : s.Canonical) (o) : Keeps (execAluOrn o s) := h.rr3 ..

theorem State.Canonical.execAluShl (h : s.Canonical) (o) : Keeps (execAluShl o s) := h.rr3 ..

theorem State.Canonical.execAluShr (h : s.Canonical) (o) : Keeps (execAluShr o s) := h.rr3 ..

theorem State.Canonical.execAluSra (h : s.Canonical) (o) : Keeps (execAluSra o s) := h.rr3 ..

theorem State.Canonical.execAluRot (h : s.Canonical) (o) : Keeps (execAluRot o s) := h.rr3 ..

theorem State.Canonical.execAluMin (h : s.Canonical) (o) : Keeps (execAluMin o s) := h.rr3 ..

theorem State.Canonical.execAluMax (h : s.Canonical) (o) : Keeps (execAluMax o s) := h.rr3 ..

theorem State.Canonical.execAlxMinu (h : s.Canonical) (o) : Keeps (execAlxMinu o s) := h.rr3 ..

theorem State.Canonical.execAlxMaxu (h : s.Canonical) (o) : Keeps (execAlxMaxu o s) := h.rr3 ..

theorem State.Canonical.execAlxDiv (h : s.Canonical) (o) : Keeps (execAlxDiv o s) := h.rr3 ..

theorem State.Canonical.execAlxDivu (h : s.Canonical) (o) : Keeps (execAlxDivu o s) := h.rr3 ..

theorem State.Canonical.execAlxRem (h : s.Canonical) (o) : Keeps (execAlxRem o s) := h.rr3 ..

theorem State.Canonical.execAlxRemu (h : s.Canonical) (o) : Keeps (execAlxRemu o s) := h.rr3 ..

theorem State.Canonical.execAlxClz (h : s.Canonical) (o) : Keeps (execAlxClz o s) := h.rr2 ..

theorem State.Canonical.execAlxCtz (h : s.Canonical) (o) : Keeps (execAlxCtz o s) := h.rr2 ..

theorem State.Canonical.execAlxPopc (h : s.Canonical) (o) : Keeps (execAlxPopc o s) := h.rr2 ..

theorem State.Canonical.execAlxBrev (h : s.Canonical) (o) : Keeps (execAlxBrev o s) := h.rr2 ..

theorem State.Canonical.execAlxBswap (h : s.Canonical) (o) : Keeps (execAlxBswap o s) := h.rr2 ..

theorem State.Canonical.execAlxSel (h : s.Canonical) (o) : Keeps (execAlxSel o s) :=
  h.issue fun _ _ _ ha => ha.writesX ..

theorem State.Canonical.execAlxLea1 (h : s.Canonical) (o) : Keeps (execAlxLea1 o s) := h.rr3 ..

theorem State.Canonical.execAlxLea2 (h : s.Canonical) (o) : Keeps (execAlxLea2 o s) := h.rr3 ..

theorem State.Canonical.execAlxLea3 (h : s.Canonical) (o) : Keeps (execAlxLea3 o s) := h.rr3 ..

theorem State.Canonical.execAlxLea4 (h : s.Canonical) (o) : Keeps (execAlxLea4 o s) := h.rr3 ..

theorem State.Canonical.execBitsExt (h : s.Canonical) (o) : Keeps (execBitsExt o s) :=
  h.issue fun _ _ _ ha => ha.writesX ..

theorem State.Canonical.execBitsExtu (h : s.Canonical) (o) : Keeps (execBitsExtu o s) :=
  h.issue fun _ _ _ ha => ha.writesX ..

theorem State.Canonical.execBitsIns (h : s.Canonical) (o) : Keeps (execBitsIns o s) :=
  h.issue fun _ _ _ ha => ha.writesX ..

theorem State.Canonical.execMovMov (h : s.Canonical) (o) : Keeps (execMovMov o s) :=
  h.issue fun _ _ _ ha => ha.writesX ..

theorem State.Canonical.execMovMovp (h : s.Canonical) (o) : Keeps (execMovMovp o s) :=
  h.issue fun _ _ _ ha => ha.writesX ..

theorem State.Canonical.execMovSetp (h : s.Canonical) (o) : Keeps (execMovSetp o s) :=
  h.issue fun _ _ _ ha => ha.onThread ..

theorem State.Canonical.execMovZx8 (h : s.Canonical) (o) : Keeps (execMovZx8 o s) :=
  h.issue fun _ _ _ ha => ha.writesX ..

theorem State.Canonical.execMovZx16 (h : s.Canonical) (o) : Keeps (execMovZx16 o s) :=
  h.issue fun _ _ _ ha => ha.writesX ..

theorem State.Canonical.execMovZx32 (h : s.Canonical) (o) : Keeps (execMovZx32 o s) :=
  h.issue fun _ _ _ ha => ha.writesX ..

theorem State.Canonical.execMovSx8 (h : s.Canonical) (o) : Keeps (execMovSx8 o s) :=
  h.issue fun _ _ _ ha => ha.writesX ..

theorem State.Canonical.execMovSx16 (h : s.Canonical) (o) : Keeps (execMovSx16 o s) :=
  h.issue fun _ _ _ ha => ha.writesX ..

theorem State.Canonical.execMovSx32 (h : s.Canonical) (o) : Keeps (execMovSx32 o s) :=
  h.issue fun _ _ _ ha => ha.writesX ..

theorem State.Canonical.execAddi (h : s.Canonical) (o) : Keeps (execAddi o s) := h.issue fun _ _ _ ha => ha.writesX ..

theorem State.Canonical.execAndi (h : s.Canonical) (o) : Keeps (execAndi o s) := h.issue fun _ _ _ ha => ha.writesX ..

theorem State.Canonical.execOri (h : s.Canonical) (o) : Keeps (execOri o s) := h.issue fun _ _ _ ha => ha.writesX ..

theorem State.Canonical.execXori (h : s.Canonical) (o) : Keeps (execXori o s) := h.issue fun _ _ _ ha => ha.writesX ..

theorem State.Canonical.execShli (h : s.Canonical) (o) : Keeps (execShli o s) := h.issue fun _ _ _ ha => ha.writesX ..

theorem State.Canonical.execShri (h : s.Canonical) (o) : Keeps (execShri o s) := h.issue fun _ _ _ ha => ha.writesX ..

theorem State.Canonical.execSrai (h : s.Canonical) (o) : Keeps (execSrai o s) := h.issue fun _ _ _ ha => ha.writesX ..

theorem State.Canonical.execLi (h : s.Canonical) (o) : Keeps (execLi o s) := h.issue fun _ _ _ ha => ha.writesX ..

theorem State.Canonical.execLhi (h : s.Canonical) (o) : Keeps (execLhi o s) := h.issue fun _ _ _ ha => ha.writesX ..

theorem State.Canonical.execMuli (h : s.Canonical) (o) : Keeps (execMuli o s) := h.issue fun _ _ _ ha => ha.writesX ..

theorem State.Canonical.writesP (h : s.Canonical) (d f x x1) : (writesP d f s x x1).Keeps := h.onThread ..

theorem State.Canonical.cmpBody (h : s.Canonical) (o f) : Keeps (cmpBody o f s) := h.issue fun _ _ _ ha => ha.writesP ..

theorem State.Canonical.execCmpEq (h : s.Canonical) (o) : Keeps (execCmpEq o s) := h.cmpBody ..

theorem State.Canonical.execCmpNe (h : s.Canonical) (o) : Keeps (execCmpNe o s) := h.cmpBody ..

theorem State.Canonical.execCmpLt (h : s.Canonical) (o) : Keeps (execCmpLt o s) := h.cmpBody ..

theorem State.Canonical.execCmpLtu (h : s.Canonical) (o) : Keeps (execCmpLtu o s) := h.cmpBody ..

theorem State.Canonical.execCmpLe (h : s.Canonical) (o) : Keeps (execCmpLe o s) := h.cmpBody ..

theorem State.Canonical.execCmpLeu (h : s.Canonical) (o) : Keeps (execCmpLeu o s) := h.cmpBody ..

theorem State.Canonical.execCmpGt (h : s.Canonical) (o) : Keeps (execCmpGt o s) := h.cmpBody ..

theorem State.Canonical.execCmpGtu (h : s.Canonical) (o) : Keeps (execCmpGtu o s) := h.cmpBody ..

theorem State.Canonical.execCmpGe (h : s.Canonical) (o) : Keeps (execCmpGe o s) := h.cmpBody ..

theorem State.Canonical.execCmpGeu (h : s.Canonical) (o) : Keeps (execCmpGeu o s) := h.cmpBody ..

theorem State.Canonical.execCmpTst (h : s.Canonical) (o) : Keeps (execCmpTst o s) := h.cmpBody ..

theorem State.Canonical.execCeqi (h : s.Canonical) (o) : Keeps (execCeqi o s) := h.issue fun _ _ _ ha => ha.writesP ..

theorem State.Canonical.execClti (h : s.Canonical) (o) : Keeps (execClti o s) := h.issue fun _ _ _ ha => ha.writesP ..

theorem State.Canonical.execCltui (h : s.Canonical) (o) : Keeps (execCltui o s) := h.issue fun _ _ _ ha => ha.writesP ..

theorem State.Canonical.execPredAnd (h : s.Canonical) (o) : Keeps (execPredAnd o s) :=
  h.issue fun _ _ _ ha => ha.writesP ..

theorem State.Canonical.execPredOr (h : s.Canonical) (o) : Keeps (execPredOr o s) :=
  h.issue fun _ _ _ ha => ha.writesP ..

theorem State.Canonical.execPredXor (h : s.Canonical) (o) : Keeps (execPredXor o s) :=
  h.issue fun _ _ _ ha => ha.writesP ..

theorem State.Canonical.execPredAndn (h : s.Canonical) (o) : Keeps (execPredAndn o s) :=
  h.issue fun _ _ _ ha => ha.writesP ..

theorem State.Canonical.execPredNot (h : s.Canonical) (o) : Keeps (execPredNot o s) :=
  h.issue fun _ _ _ ha => ha.writesP ..

theorem State.Canonical.execPredMov (h : s.Canonical) (o) : Keeps (execPredMov o s) :=
  h.issue fun _ _ _ ha => ha.writesP ..

/-! ### Functions of `Sys2Proof.Machine.Fpu` -/

theorem State.Canonical.fpu3 (h : s.Canonical) (o f) : Keeps (fpu3 o f s) := h.issue fun _ _ _ ha => ha.fpEnd ..

theorem State.Canonical.fpu2 (h : s.Canonical) (o f) : Keeps (fpu2 o f s) := h.issue fun _ _ _ ha => ha.fpEnd ..

theorem State.Canonical.execFpuFadd (h : s.Canonical) (o) : Keeps (execFpuFadd o s) := h.fpu3 ..

theorem State.Canonical.execFpuFsub (h : s.Canonical) (o) : Keeps (execFpuFsub o s) := h.fpu3 ..

theorem State.Canonical.execFpuFmul (h : s.Canonical) (o) : Keeps (execFpuFmul o s) := h.fpu3 ..

theorem State.Canonical.execFpuFdiv (h : s.Canonical) (o) : Keeps (execFpuFdiv o s) := h.fpu3 ..

theorem State.Canonical.execFpuFsqrt (h : s.Canonical) (o) : Keeps (execFpuFsqrt o s) := h.fpu2 ..

theorem State.Canonical.execFpuFmin (h : s.Canonical) (o) : Keeps (execFpuFmin o s) :=
  h.issue fun _ _ _ ha => ha.fpEnd ..

theorem State.Canonical.execFpuFmax (h : s.Canonical) (o) : Keeps (execFpuFmax o s) :=
  h.issue fun _ _ _ ha => ha.fpEnd ..

theorem State.Canonical.execFpuFabs (h : s.Canonical) (o) : Keeps (execFpuFabs o s) :=
  h.issue fun _ _ _ ha => ha.writesX ..

theorem State.Canonical.execFpuFneg (h : s.Canonical) (o) : Keeps (execFpuFneg o s) :=
  h.issue fun _ _ _ ha => ha.writesX ..

theorem State.Canonical.execFpuFsgnj (h : s.Canonical) (o) : Keeps (execFpuFsgnj o s) :=
  h.issue fun _ _ _ ha => ha.writesX ..

theorem State.Canonical.execFpuFma (h : s.Canonical) (o) : Keeps (execFpuFma o s) := h.fpu3 ..

theorem State.Canonical.execFpuFms (h : s.Canonical) (o) : Keeps (execFpuFms o s) := h.fpu3 ..

theorem State.Canonical.execFpuFnma (h : s.Canonical) (o) : Keeps (execFpuFnma o s) := h.fpu3 ..

theorem State.Canonical.execFpuFclass (h : s.Canonical) (o) : Keeps (execFpuFclass o s) :=
  h.issue fun _ _ _ ha => ha.writesX ..

theorem State.Canonical.cvtRound (h : s.Canonical) (o f) : Keeps (cvtRound o f s) :=
  h.issue fun _ _ _ ha => ha.cvtEnd ..

theorem State.Canonical.cvtExact (h : s.Canonical) (o f) : Keeps (cvtExact o f s) := h.issue fun _ _ _ ha => ha.fpEnd ..

theorem State.Canonical.execFcvtI2f (h : s.Canonical) (o) : Keeps (execFcvtI2f o s) := h.cvtRound ..

theorem State.Canonical.execFcvtU2f (h : s.Canonical) (o) : Keeps (execFcvtU2f o s) := h.cvtRound ..

theorem State.Canonical.execFcvtF2i (h : s.Canonical) (o) : Keeps (execFcvtF2i o s) := h.cvtRound ..

theorem State.Canonical.execFcvtF2u (h : s.Canonical) (o) : Keeps (execFcvtF2u o s) := h.cvtRound ..

theorem State.Canonical.execFcvtF2f (h : s.Canonical) (o) : Keeps (execFcvtF2f o s) := by
  unfold Machine.execFcvtF2f
  split
  · exact h.cvtExact ..
  · exact h.cvtRound ..

theorem State.Canonical.execFcvtTobf16 (h : s.Canonical) (o) : Keeps (execFcvtTobf16 o s) := h.cvtRound ..

theorem State.Canonical.execFcvtFrombf16 (h : s.Canonical) (o) : Keeps (execFcvtFrombf16 o s) := h.cvtExact ..

theorem State.Canonical.execFcvtTofp16 (h : s.Canonical) (o) : Keeps (execFcvtTofp16 o s) := h.cvtRound ..

theorem State.Canonical.execFcvtFromfp16 (h : s.Canonical) (o) : Keeps (execFcvtFromfp16 o s) := h.cvtExact ..

theorem State.Canonical.fcmpBody (h : s.Canonical) (o c un quietNv) : Keeps (fcmpBody o c un quietNv s) := by
  unfold Machine.fcmpBody
  refine h.issue fun _ _ _ ha => ?_
  extract_lets
  exact ha.fpEnd ..

theorem State.Canonical.execFcmpFeq (h : s.Canonical) (o) : Keeps (execFcmpFeq o s) := h.fcmpBody ..

theorem State.Canonical.execFcmpFlt (h : s.Canonical) (o) : Keeps (execFcmpFlt o s) := h.fcmpBody ..

theorem State.Canonical.execFcmpFle (h : s.Canonical) (o) : Keeps (execFcmpFle o s) := h.fcmpBody ..

theorem State.Canonical.execFcmpFun (h : s.Canonical) (o) : Keeps (execFcmpFun o s) := h.fcmpBody ..

/-! ### Functions of `Sys2Proof.Machine.Vector` -/

theorem State.Canonical.vissue (h : s.Canonical) {q vd body} (hbody : ∀ a x1 x2, a.Canonical → (body a x1 x2).Keeps) :
    Keeps (vissue q vd s body) := by
  unfold Machine.vissue
  refine h.issue fun _ _ _ ha => ?_
  split
  · split
    · exact .park ha
    · exact hbody _ _ _ ha
  · exact hbody _ _ _ ha

theorem State.Canonical.vEnd (h : s.Canonical) (t th vd x fl after quiet) :
    (vEnd s t th vd x fl after quiet).Keeps := by
  unfold Machine.vEnd
  extract_lets
  split
  · exact .trap (h.raise ..)
  · exact .done ((h.raise ..).setVreg ..)

theorem State.Canonical.vv (h : s.Canonical) (o w f) : Keeps (vv o w f s) := by
  unfold Machine.vv
  refine h.vissue fun _ _ _ ha => ?_
  split
  · exact ha.vEnd ..

theorem State.Canonical.v2 (h : s.Canonical) (o w f) : Keeps (v2 o w f s) := by
  unfold Machine.v2
  refine h.vissue fun _ _ _ ha => ?_
  extract_lets
  split
  · exact ha.vEnd ..

theorem State.Canonical.vs (h : s.Canonical) (o w f) : Keeps (vs o w f s) := by
  unfold Machine.vs
  refine h.vissue fun _ _ _ ha => ?_
  extract_lets
  split
  · exact ha.vEnd ..

theorem State.Canonical.execVfAdd (h : s.Canonical) (o) : Keeps (execVfAdd o s) := h.vv ..

theorem State.Canonical.execVfSub (h : s.Canonical) (o) : Keeps (execVfSub o s) := h.vv ..

theorem State.Canonical.execVfMul (h : s.Canonical) (o) : Keeps (execVfMul o s) := h.vv ..

theorem State.Canonical.execVfFma (h : s.Canonical) (o) : Keeps (execVfFma o s) := h.vv ..

theorem State.Canonical.execVfFms (h : s.Canonical) (o) : Keeps (execVfFms o s) := h.vv ..

theorem State.Canonical.execVfFnma (h : s.Canonical) (o) : Keeps (execVfFnma o s) := h.vv ..

theorem State.Canonical.execVfMin (h : s.Canonical) (o) : Keeps (execVfMin o s) := h.vv ..

theorem State.Canonical.execVfMax (h : s.Canonical) (o) : Keeps (execVfMax o s) := h.vv ..

theorem State.Canonical.execVfAbs (h : s.Canonical) (o) : Keeps (execVfAbs o s) := h.v2 ..

theorem State.Canonical.execVfNeg (h : s.Canonical) (o) : Keeps (execVfNeg o s) := h.v2 ..

theorem State.Canonical.execVfDiv (h : s.Canonical) (o) : Keeps (execVfDiv o s) := h.vv ..

theorem State.Canonical.execVfSqrt (h : s.Canonical) (o) : Keeps (execVfSqrt o s) := h.v2 ..

theorem State.Canonical.execVfsAdd (h : s.Canonical) (o) : Keeps (execVfsAdd o s) := h.vs ..

theorem State.Canonical.execVfsSub (h : s.Canonical) (o) : Keeps (execVfsSub o s) := h.vs ..

theorem State.Canonical.execVfsMul (h : s.Canonical) (o) : Keeps (execVfsMul o s) := h.vs ..

theorem State.Canonical.execVfsFma (h : s.Canonical) (o) : Keeps (execVfsFma o s) := h.vs ..

theorem State.Canonical.execVfsFms (h : s.Canonical) (o) : Keeps (execVfsFms o s) := h.vs ..

theorem State.Canonical.execVfsFnma (h : s.Canonical) (o) : Keeps (execVfsFnma o s) := h.vs ..

theorem State.Canonical.execVfsMin (h : s.Canonical) (o) : Keeps (execVfsMin o s) := h.vs ..

theorem State.Canonical.execVfsMax (h : s.Canonical) (o) : Keeps (execVfsMax o s) := h.vs ..

theorem State.Canonical.execVfsAbs (h : s.Canonical) (o) : Keeps (execVfsAbs o s) := h.v2 ..

theorem State.Canonical.execVfsNeg (h : s.Canonical) (o) : Keeps (execVfsNeg o s) := h.v2 ..

theorem State.Canonical.execVfsDiv (h : s.Canonical) (o) : Keeps (execVfsDiv o s) := h.vs ..

theorem State.Canonical.execVfsSqrt (h : s.Canonical) (o) : Keeps (execVfsSqrt o s) := h.v2 ..

theorem State.Canonical.execViAdd (h : s.Canonical) (o) : Keeps (execViAdd o s) := h.vv ..

theorem State.Canonical.execViSub (h : s.Canonical) (o) : Keeps (execViSub o s) := h.vv ..

theorem State.Canonical.execViMul (h : s.Canonical) (o) : Keeps (execViMul o s) := h.vv ..

theorem State.Canonical.execViMulh (h : s.Canonical) (o) : Keeps (execViMulh o s) := h.vv ..

theorem State.Canonical.execViMin (h : s.Canonical) (o) : Keeps (execViMin o s) := h.vv ..

theorem State.Canonical.execViMax (h : s.Canonical) (o) : Keeps (execViMax o s) := h.vv ..

theorem State.Canonical.execViMinu (h : s.Canonical) (o) : Keeps (execViMinu o s) := h.vv ..

theorem State.Canonical.execViMaxu (h : s.Canonical) (o) : Keeps (execViMaxu o s) := h.vv ..

theorem State.Canonical.execViAbs (h : s.Canonical) (o) : Keeps (execViAbs o s) := h.v2 ..

theorem State.Canonical.execViNeg (h : s.Canonical) (o) : Keeps (execViNeg o s) := h.v2 ..

theorem State.Canonical.execViAdds (h : s.Canonical) (o) : Keeps (execViAdds o s) := h.vv ..

theorem State.Canonical.execViSubs (h : s.Canonical) (o) : Keeps (execViSubs o s) := h.vv ..

theorem State.Canonical.execVisAdd (h : s.Canonical) (o) : Keeps (execVisAdd o s) := h.vs ..

theorem State.Canonical.execVisSub (h : s.Canonical) (o) : Keeps (execVisSub o s) := h.vs ..

theorem State.Canonical.execVisMul (h : s.Canonical) (o) : Keeps (execVisMul o s) := h.vs ..

theorem State.Canonical.execVisMulh (h : s.Canonical) (o) : Keeps (execVisMulh o s) := h.vs ..

theorem State.Canonical.execVisMin (h : s.Canonical) (o) : Keeps (execVisMin o s) := h.vs ..

theorem State.Canonical.execVisMax (h : s.Canonical) (o) : Keeps (execVisMax o s) := h.vs ..

theorem State.Canonical.execVisMinu (h : s.Canonical) (o) : Keeps (execVisMinu o s) := h.vs ..

theorem State.Canonical.execVisMaxu (h : s.Canonical) (o) : Keeps (execVisMaxu o s) := h.vs ..

theorem State.Canonical.execVisAbs (h : s.Canonical) (o) : Keeps (execVisAbs o s) := h.v2 ..

theorem State.Canonical.execVisNeg (h : s.Canonical) (o) : Keeps (execVisNeg o s) := h.v2 ..

theorem State.Canonical.execVisAdds (h : s.Canonical) (o) : Keeps (execVisAdds o s) := h.vs ..

theorem State.Canonical.execVisSubs (h : s.Canonical) (o) : Keeps (execVisSubs o s) := h.vs ..

theorem State.Canonical.execVlAnd (h : s.Canonical) (o) : Keeps (execVlAnd o s) := h.vv ..

theorem State.Canonical.execVlOr (h : s.Canonical) (o) : Keeps (execVlOr o s) := h.vv ..

theorem State.Canonical.execVlXor (h : s.Canonical) (o) : Keeps (execVlXor o s) := h.vv ..

theorem State.Canonical.execVlAndn (h : s.Canonical) (o) : Keeps (execVlAndn o s) := h.vv ..

theorem State.Canonical.execVlShl (h : s.Canonical) (o) : Keeps (execVlShl o s) := h.vv ..

theorem State.Canonical.execVlShr (h : s.Canonical) (o) : Keeps (execVlShr o s) := h.vv ..

theorem State.Canonical.execVlSra (h : s.Canonical) (o) : Keeps (execVlSra o s) := h.vv ..

theorem State.Canonical.execVlsAnd (h : s.Canonical) (o) : Keeps (execVlsAnd o s) := h.vs ..

theorem State.Canonical.execVlsOr (h : s.Canonical) (o) : Keeps (execVlsOr o s) := h.vs ..

theorem State.Canonical.execVlsXor (h : s.Canonical) (o) : Keeps (execVlsXor o s) := h.vs ..

theorem State.Canonical.execVlsAndn (h : s.Canonical) (o) : Keeps (execVlsAndn o s) := h.vs ..

theorem State.Canonical.execVlsShl (h : s.Canonical) (o) : Keeps (execVlsShl o s) := h.vs ..

theorem State.Canonical.execVlsShr (h : s.Canonical) (o) : Keeps (execVlsShr o s) := h.vs ..

theorem State.Canonical.execVlsSra (h : s.Canonical) (o) : Keeps (execVlsSra o s) := h.vs ..

theorem State.Canonical.cmpEnd (h : s.Canonical) (t th md r) : (cmpEnd s t th md r).Keeps := by
  unfold Machine.cmpEnd
  split
  · exact .trap (h.raise ..)
  · exact .done ((h.raise ..).setMask ..)

theorem State.Canonical.vc (h : s.Canonical) (o w c) : Keeps (vc o w c s) := h.vissue fun _ _ _ ha => ha.cmpEnd ..

theorem State.Canonical.vcs (h : s.Canonical) (o w c) : Keeps (vcs o w c s) := h.vissue fun _ _ _ ha => ha.cmpEnd ..

theorem State.Canonical.execVcmpFeq (h : s.Canonical) (o) : Keeps (execVcmpFeq o s) := h.vc ..

theorem State.Canonical.execVcmpFlt (h : s.Canonical) (o) : Keeps (execVcmpFlt o s) := h.vc ..

theorem State.Canonical.execVcmpFle (h : s.Canonical) (o) : Keeps (execVcmpFle o s) := h.vc ..

theorem State.Canonical.execVcmpFun (h : s.Canonical) (o) : Keeps (execVcmpFun o s) := h.vc ..

theorem State.Canonical.execVcmpIeq (h : s.Canonical) (o) : Keeps (execVcmpIeq o s) := h.vc ..

theorem State.Canonical.execVcmpIlt (h : s.Canonical) (o) : Keeps (execVcmpIlt o s) := h.vc ..

theorem State.Canonical.execVcmpIltu (h : s.Canonical) (o) : Keeps (execVcmpIltu o s) := h.vc ..

theorem State.Canonical.execVcmpIle (h : s.Canonical) (o) : Keeps (execVcmpIle o s) := h.vc ..

theorem State.Canonical.execVcmpsFeq (h : s.Canonical) (o) : Keeps (execVcmpsFeq o s) := h.vcs ..

theorem State.Canonical.execVcmpsFlt (h : s.Canonical) (o) : Keeps (execVcmpsFlt o s) := h.vcs ..

theorem State.Canonical.execVcmpsFle (h : s.Canonical) (o) : Keeps (execVcmpsFle o s) := h.vcs ..

theorem State.Canonical.execVcmpsFun (h : s.Canonical) (o) : Keeps (execVcmpsFun o s) := h.vcs ..

theorem State.Canonical.execVcmpsIeq (h : s.Canonical) (o) : Keeps (execVcmpsIeq o s) := h.vcs ..

theorem State.Canonical.execVcmpsIlt (h : s.Canonical) (o) : Keeps (execVcmpsIlt o s) := h.vcs ..

theorem State.Canonical.execVcmpsIltu (h : s.Canonical) (o) : Keeps (execVcmpsIltu o s) := h.vcs ..

theorem State.Canonical.execVcmpsIle (h : s.Canonical) (o) : Keeps (execVcmpsIle o s) := h.vcs ..

theorem State.Canonical.execVsel (h : s.Canonical) (o) : Keeps (execVsel o s) := by
  unfold Machine.execVsel
  refine h.vissue fun _ _ _ ha => ?_
  split
  · exact ha.vEnd ..

theorem State.Canonical.cvtWord (h : s.Canonical) (o scl ws wd force draws conv dec bad) :
    Keeps (cvtWord o scl ws wd force draws conv dec bad s) := by
  unfold Machine.cvtWord
  extract_lets
  refine h.vissue fun _ _ _ ha => ?_
  extract_lets
  split
  · extract_lets
    exact ha.vEnd ..

theorem State.Canonical.execVcvtNarrow (h : s.Canonical) (o) : Keeps (execVcvtNarrow o s) := h.cvtWord ..

theorem State.Canonical.execVcvtNarrows (h : s.Canonical) (o) : Keeps (execVcvtNarrows o s) := h.cvtWord ..

theorem State.Canonical.execVcvtWiden (h : s.Canonical) (o) : Keeps (execVcvtWiden o s) := h.cvtWord ..

theorem State.Canonical.execVcvtI2f (h : s.Canonical) (o) : Keeps (execVcvtI2f o s) := by
  unfold Machine.execVcvtI2f
  split
  · exact h.cvtWord ..

theorem State.Canonical.execVcvtF2i (h : s.Canonical) (o) : Keeps (execVcvtF2i o s) := by
  unfold Machine.execVcvtF2i
  split
  · exact h.cvtWord ..

theorem State.Canonical.vredF (h : s.Canonical) (o w idn g) : Keeps (vredF o w idn g s) := by
  unfold Machine.vredF
  refine h.vissue fun _ _ _ ha => ?_
  split
  · exact ha.vEnd ..

theorem State.Canonical.vredI (h : s.Canonical) (o w idn f) : Keeps (vredI o w idn f s) := by
  unfold Machine.vredI
  refine h.vissue fun _ _ _ ha => ?_
  extract_lets
  exact ha.vEnd ..

theorem State.Canonical.execVredFsum (h : s.Canonical) (o) : Keeps (execVredFsum o s) := h.vredF ..

theorem State.Canonical.execVredFmax (h : s.Canonical) (o) : Keeps (execVredFmax o s) := by
  unfold Machine.execVredFmax
  extract_lets
  exact h.vredF ..

theorem State.Canonical.execVredFmin (h : s.Canonical) (o) : Keeps (execVredFmin o s) := by
  unfold Machine.execVredFmin
  extract_lets
  exact h.vredF ..

theorem State.Canonical.execVredIsum (h : s.Canonical) (o) : Keeps (execVredIsum o s) := h.vredI ..

theorem State.Canonical.execVredImax (h : s.Canonical) (o) : Keeps (execVredImax o s) := by
  unfold Machine.execVredImax
  extract_lets
  exact h.vredI ..

theorem State.Canonical.execVredImin (h : s.Canonical) (o) : Keeps (execVredImin o s) := by
  unfold Machine.execVredImin
  extract_lets
  exact h.vredI ..

theorem State.Canonical.execVredAnd (h : s.Canonical) (o) : Keeps (execVredAnd o s) := h.vredI ..

theorem State.Canonical.execVredOr (h : s.Canonical) (o) : Keeps (execVredOr o s) := h.vredI ..

theorem State.Canonical.vperm (h : s.Canonical) (vd va vb vm ty names all f) :
    Keeps (vperm vd va vb vm ty names all f s) := by
  unfold Machine.vperm
  refine h.vissue fun _ _ _ ha => ?_
  extract_lets
  exact ha.vEnd ..

theorem State.Canonical.execVpermPerm (h : s.Canonical) (o) : Keeps (execVpermPerm o s) := h.vperm ..

theorem State.Canonical.execVpermRot (h : s.Canonical) (o) : Keeps (execVpermRot o s) := h.vperm ..

theorem State.Canonical.execVpermBcastl (h : s.Canonical) (o) : Keeps (execVpermBcastl o s) := h.vperm ..

theorem State.Canonical.execVpermZip (h : s.Canonical) (o) : Keeps (execVpermZip o s) := h.vperm ..

theorem State.Canonical.execVpermUnzip (h : s.Canonical) (o) : Keeps (execVpermUnzip o s) := h.vperm ..

theorem State.Canonical.execVpermCompress (h : s.Canonical) (o) : Keeps (execVpermCompress o s) := h.vperm ..

theorem State.Canonical.execVpermExpand (h : s.Canonical) (o) : Keeps (execVpermExpand o s) := h.vperm ..

theorem State.Canonical.execVpermIota (h : s.Canonical) (vd vm ty) : Keeps (execVpermIota vd vm ty s) := h.vperm ..

theorem State.Canonical.vsf (h : s.Canonical) (o fn) : Keeps (vsf o fn s) := h.v2 ..

theorem State.Canonical.execVsfEx2 (h : s.Canonical) (o) : Keeps (execVsfEx2 o s) := h.vsf ..

theorem State.Canonical.execVsfLg2 (h : s.Canonical) (o) : Keeps (execVsfLg2 o s) := h.vsf ..

theorem State.Canonical.execVsfRcp (h : s.Canonical) (o) : Keeps (execVsfRcp o s) := h.vsf ..

theorem State.Canonical.execVsfRsqrt (h : s.Canonical) (o) : Keeps (execVsfRsqrt o s) := h.vsf ..

theorem State.Canonical.execVsfSin (h : s.Canonical) (o) : Keeps (execVsfSin o s) := h.vsf ..

theorem State.Canonical.execVsfCos (h : s.Canonical) (o) : Keeps (execVsfCos o s) := h.vsf ..

theorem State.Canonical.execVsfTanh (h : s.Canonical) (o) : Keeps (execVsfTanh o s) := h.vsf ..

theorem State.Canonical.execVsfSigm (h : s.Canonical) (o) : Keeps (execVsfSigm o s) := h.vsf ..

theorem State.Canonical.execVmvSplat (h : s.Canonical) (vd sb vm ty) : Keeps (execVmvSplat vd sb vm ty s) := by
  unfold Machine.execVmvSplat
  refine h.vissue fun _ _ _ ha => ?_
  extract_lets
  split
  · exact ha.vEnd ..

theorem State.Canonical.execVmvExtract (h : s.Canonical) (sd va sb ty) : Keeps (execVmvExtract sd va sb ty s) := by
  unfold Machine.execVmvExtract
  refine h.vissue fun _ _ _ ha => ?_
  extract_lets
  exact .done (ha.setThread ..)

theorem State.Canonical.execVmvInsert (h : s.Canonical) (vd sa sb ty) : Keeps (execVmvInsert vd sa sb ty s) := by
  unfold Machine.execVmvInsert
  refine h.vissue fun _ _ _ ha => ?_
  extract_lets
  exact ha.vEnd ..

theorem State.Canonical.execVmvMtos (h : s.Canonical) (sd half ma) : Keeps (execVmvMtos sd half ma s) :=
  h.vissue fun _ _ _ ha => .done (ha.setThread ..)

theorem State.Canonical.execVmvStom (h : s.Canonical) (half md sb) : Keeps (execVmvStom half md sb s) := by
  unfold Machine.execVmvStom
  refine h.vissue fun _ _ _ ha => ?_
  extract_lets
  exact .done ((ha.setThread ..).setMask ..)

theorem State.Canonical.sendVec (h : s.Canonical) (t th dst parts rh) : (sendVec s t th dst parts rh).Keeps := by
  unfold Machine.sendVec
  split
  · exact .park h
  · exact .done (h.sendLoad ..)

theorem State.Canonical.execVld (h : s.Canonical) (o) : Keeps (execVld o s) := by
  unfold Machine.execVld
  refine h.vissue fun _ _ _ ha => ?_
  extract_lets
  split
  · exact .trap ha
  · exact ha.sendVec ..

theorem State.Canonical.execVst (h : s.Canonical) (o) : Keeps (execVst o s) := by
  unfold Machine.execVst
  refine h.vissue fun _ _ _ ha => ?_
  extract_lets
  split
  · exact .trap ha
  · exact ha.storeAll ..

theorem State.Canonical.execVgth (h : s.Canonical) (o) : Keeps (execVgth o s) := by
  unfold Machine.execVgth
  refine h.vissue fun _ _ _ ha => ?_
  extract_lets
  split
  · exact .trap ha
  · exact ha.sendVec ..

theorem State.Canonical.execVsct (h : s.Canonical) (o) : Keeps (execVsct o s) := by
  unfold Machine.execVsct
  refine h.vissue fun _ _ _ ha => ?_
  extract_lets
  split
  · exact .trap ha
  · exact ha.storeAll ..

/-! ### Functions of `Sys2Proof.Machine.Matrix` -/

theorem State.Canonical.tileErrors (h : s.Canonical) {core bs r v t} (e : s.tileErrors core bs r = (v, t)) :
    t.Canonical := by
  induction bs generalizing s r with
  | nil =>
    cases e
    exact h
  | cons b bs ih => exact ih (h.eccRead rfl) e

theorem State.Canonical.setSk (h : s.Canonical) (t core i v) : (s.setSk t core i v).Canonical := by
  unfold State.setSk
  extract_lets _ s1
  have hs1 : s1.Canonical := h.modThread ..
  exact hs1.modE ..

theorem State.Canonical.takeSlices (h : s.Canonical) {t own core i held} {a b}
    (e : s.takeSlices t own core i held = (a, b)) :
    b.Canonical := by
  rw [← show Prod.snd _ = b from congrArg Prod.snd e]
  unfold State.takeSlices
  extract_lets
  split
  · exact h
  · split
    · rename_i s1 e1
      have hs1 : s1.Canonical := h.eccRead e1
      refine .setSk ?_ ..
      split
      · exact hs1.defer ..
      · exact hs1

theorem State.Canonical.enqueue (h : s.Canonical) (core op) : (s.enqueue core op).Canonical := h.modE ..

theorem State.Canonical.mmaBody (h : s.Canonical) (form o t th) : (mmaBody form o s t th).Keeps := by
  unfold Machine.mmaBody
  split
  · exact .trap h
  · split
    · exact .trap h
    · extract_lets +onlyGivenNames ga gb sr
      split
      · exact .trap h
      · split
        · exact .park h
        · extract_lets +onlyGivenNames ds
          split
          · exact .trap (h.setThread ..)
          · split
            · exact .park (h.touchBank ..)
            · split
              next keep s1 e =>
              have h1 : s1.Canonical := by
                split at e
                · cases e
                  exact h
                · split at e
                  · cases e
                    exact h
                  · exact h.takeSlices e
              extract_lets +onlyGivenNames wait
              have hwait (w : Wait) : (wait w).Keeps := by
                refine .park ?_
                split
                · exact h1
                · exact h1.modThread ..
              split
              · exact hwait _
              · split
                · exact hwait _
                · split
                  next e2 =>
                  split
                  next e3 => exact .done (((((h1.takeId e2).takeSeq e3).lockAll _).enqueue ..).modThread ..)

theorem State.Canonical.execMmaE4m3 (h : s.Canonical) (o) : Keeps (execMmaE4m3 o s) :=
  h.issue fun _ _ _ ha => ha.mmaBody ..

theorem State.Canonical.execMmaE5m2 (h : s.Canonical) (o) : Keeps (execMmaE5m2 o s) :=
  h.issue fun _ _ _ ha => ha.mmaBody ..

theorem State.Canonical.execMmaE4m3e5m2 (h : s.Canonical) (o) : Keeps (execMmaE4m3e5m2 o s) :=
  h.issue fun _ _ _ ha => ha.mmaBody ..

theorem State.Canonical.execMmaE2m1 (h : s.Canonical) (o) : Keeps (execMmaE2m1 o s) :=
  h.issue fun _ _ _ ha => ha.mmaBody ..

theorem State.Canonical.execMmaBf16 (h : s.Canonical) (o) : Keeps (execMmaBf16 o s) :=
  h.issue fun _ _ _ ha => ha.mmaBody ..

theorem State.Canonical.execMmaFp16 (h : s.Canonical) (o) : Keeps (execMmaFp16 o s) :=
  h.issue fun _ _ _ ha => ha.mmaBody ..

theorem State.Canonical.execMmaI8 (h : s.Canonical) (o) : Keeps (execMmaI8 o s) := h.issue fun _ _ _ ha => ha.mmaBody ..

theorem State.Canonical.execMmaU8i8 (h : s.Canonical) (o) : Keeps (execMmaU8i8 o s) :=
  h.issue fun _ _ _ ha => ha.mmaBody ..

theorem State.Canonical.withAcc (h : s.Canonical) {an k x x1} (hk : ∀ a x1 x2 x3, a.Canonical → (k a x1 x2 x3).Keeps) :
    (withAcc an k s x x1).Keeps := by
  unfold Machine.withAcc
  split
  · exact .trap h
  · split
    · exact .trap h
    · exact hk _ _ _ _ h

theorem State.Canonical.execAccZero (h : s.Canonical) (an) : Keeps (execAccZero an s) := by
  unfold Machine.execAccZero
  refine h.issue fun _ _ _ ha => ha.withAcc (fun _ _ _ _ ha1 => ?_)
  split
  · exact .park ha1
  · split
    · rename_i s1 e
      have hs1 : s1.Canonical := ha1.takeId e
      split
      · rename_i s3 e1
        have hs3 : s3.Canonical := hs1.takeSeq e1
        exact .done ((hs3.enqueue ..).modThread ..)

theorem State.Canonical.execAccScale (h : s.Canonical) (sa an) : Keeps (execAccScale sa an s) := by
  unfold Machine.execAccScale
  refine h.issue fun _ _ _ ha => ha.withAcc (fun _ _ _ _ ha1 => ?_)
  split
  · exact .park ha1
  · split
    · rename_i s1 e
      have hs1 : s1.Canonical := ha1.takeId e
      split
      · rename_i s3 e1
        have hs3 : s3.Canonical := hs1.takeSeq e1
        exact .done ((hs3.enqueue ..).modThread ..)

theorem State.Canonical.accMove (h : s.Canonical) (st sa sb sd sc an) : Keeps (accMove st sa sb sd sc an s) := by
  unfold Machine.accMove
  refine h.issue fun _ _ _ ha => ha.withAcc (fun _ _ _ _ ha1 => ?_)
  split
  · exact .park ha1
  · split
    · exact .park ha1
    · split
      · exact .done (ha1.endChunk ..)
      · split
        · exact .park ha1
        · split
          · rename_i s1 e
            have hs1 : s1.Canonical := ha1.takeId e
            split
            · rename_i s3 e1
              have hs3 : s3.Canonical := hs1.takeSeq e1
              extract_lets _ s31
              have hs31 : s31.Canonical := hs3.lockAt ..
              exact .done ((hs31.enqueue ..).setThread ..)

theorem State.Canonical.execAccLd (h : s.Canonical) (sa sb sd sc an) : Keeps (execAccLd sa sb sd sc an s) :=
  h.accMove ..

theorem State.Canonical.execAccSt (h : s.Canonical) (sa sb sd sc an) : Keeps (execAccSt sa sb sd sc an s) :=
  h.accMove ..

theorem State.Canonical.setAcc (h : s.Canonical) (t core id a' v) : (s.setAcc t core id a' v).Canonical := by
  unfold State.setAcc
  extract_lets _ s1
  have hs1 : s1.Canonical := h.modThread ..
  exact hs1.modE ..

theorem State.Canonical.execAccRowRead (h : s.Canonical) (va sb an) : Keeps (execAccRowRead va sb an s) := by
  unfold Machine.execAccRowRead
  refine h.vissue fun _ _ _ ha => ha.withAcc (fun _ _ _ _ ha1 => ?_)
  split
  · exact .park ha1
  · extract_lets
    exact .done ((ha1.setVreg ..).modThread ..)

theorem State.Canonical.execAccRowWrite (h : s.Canonical) (va sb an) : Keeps (execAccRowWrite va sb an s) := by
  unfold Machine.execAccRowWrite
  refine h.issue fun _ _ _ ha => ha.withAcc (fun _ _ _ _ ha1 => ?_)
  split
  · exact .park ha1
  · extract_lets
    exact .done ((ha1.setAcc ..).modThread ..)

theorem State.Canonical.execSkdSet (h : s.Canonical) (sa sb sk) : Keeps (execSkdSet sa sb sk s) := by
  unfold Machine.execSkdSet
  refine h.issue fun _ _ _ ha => ?_
  extract_lets
  split
  · exact .trap ha
  · split
    · exact .trap ha
    · split
      · exact .trap ha
      · exact .done ((ha.setSk ..).modThread ..)

theorem State.Canonical.execSkdReset (h : s.Canonical) (sk) : Keeps (execSkdReset sk s) := by
  unfold Machine.execSkdReset
  refine h.issue fun _ _ _ ha => ?_
  split
  · exact .trap ha
  · extract_lets
    exact .done ((ha.setSk ..).modThread ..)

theorem State.Canonical.execSkdPos (h : s.Canonical) (sd sk) : Keeps (execSkdPos sd sk s) := by
  unfold Machine.execSkdPos
  refine h.issue fun _ _ _ ha => ?_
  split
  · exact .trap ha
  · exact .done (ha.setThread ..)

theorem State.Canonical.modOp (h : s.Canonical) (core id f) : (s.modOp core id f).Canonical := h.modE ..

theorem State.Canonical.execMmaEngineStart (h : s.Canonical) (core) : Keeps (execMmaEngineStart core s) := by
  unfold Machine.execMmaEngineStart
  split
  · exact trivial
  · split
    · exact trivial
    · split
      · exact .next (h.wakeBanks ..)
      · extract_lets s1
        have hs1 : s1.Canonical := by
          unfold s1
          split
          · exact h
          · exact h.engineRelease ..
        exact .next (hs1.modOp ..)

theorem State.Canonical.execMmaOperandsConsumed (h : s.Canonical) (core) : Keeps (execMmaOperandsConsumed core s) := by
  unfold Machine.execMmaOperandsConsumed
  split
  · exact trivial
  · extract_lets
    split
    · rename_i s1 e1
      have hs1 : s1.Canonical := h.tileErrors e1
      exact .next ((hs1.modOp ..).unlock ..)

theorem State.Canonical.execMmaCompletion (h : s.Canonical) (core) : Keeps (execMmaCompletion core s) := by
  unfold Machine.execMmaCompletion
  split
  · exact trivial
  · split
    · extract_lets s1 s2
      have hs1 : s1.Canonical := h.setAcc ..
      have hs2 : s2.Canonical := hs1.modE ..
      refine .next ?_
      split
      · exact hs2.defer ..
      · exact hs2.raise ..
      · exact hs2

theorem State.Canonical.storePieces (h : s.Canonical) (a acc l ls) : (storePieces a acc l s ls).Keeps := by
  induction l generalizing s ls with
  | nil => exact .ok h
  | cons p l ih =>
    unfold Machine.storePieces
    split
    · next e => exact ih ((h.engWrite ..).of_eq e) _
    · next e => exact .fault ((h.engWrite ..).of_eq e)
    · exact trivial

/-- Reading the pieces of a row leaves canonical memory, whether it ends with the row or with an error. -/
theorem State.Canonical.loadRow (h : s.Canonical) (a l v) :
    EndsKeep (fun x => x.2.2) (fun x => x.2) (loadRow a l s v).1 := by
  induction l generalizing s v with
  | nil => exact h
  | cons p l ih =>
    unfold Machine.loadRow
    split
    · next e => exact ih ((h.engRead ..).of_eq e) _
    · next e => exact (h.engRead ..).of_eq e
    · exact h

theorem State.Canonical.loadRows (h : s.Canonical) (a id acc l) : (loadRows a id acc l s).Keeps := by
  induction l generalizing s with
  | nil => exact .ok h
  | cons p l ih =>
    unfold Machine.loadRows
    have hr := h.loadRow a (rowPieces p.2) 0
    split
    · next e =>
      rw [e] at hr
      exact ih (State.Canonical.setAcc hr ..)
    · exact trivial
    · next e =>
      rw [e] at hr
      exact .fault hr

theorem State.Canonical.moveAcc (h : s.Canonical) (core o) : (s.moveAcc core o).Keeps := by
  unfold State.moveAcc
  extract_lets
  split
  · exact .fault h
  · split
    · exact h.storePieces ..
    · exact h.loadRows ..

theorem State.Canonical.execAccTransferCompletion (h : s.Canonical) (core) :
    Keeps (execAccTransferCompletion core s) := by
  unfold Machine.execAccTransferCompletion
  split
  · exact trivial
  · next o _ =>
    extract_lets finish
    have hfinish {a : State} (ha : a.Canonical) (ls v) : (finish a ls v).Canonical := by
      unfold finish
      refine State.Canonical.modThread (State.Canonical.modE (State.Canonical.unlock ?_ ..) ..) ..
      split
      · exact ha.enginePublish ..
      · exact ha
    split
    · next e => exact .next (hfinish ((h.moveAcc ..).of_eq e) ..)
    · next e => exact .next (hfinish ((h.moveAcc ..).of_eq e) ..)
    · exact .next ((h.modOp ..).holdAt ..)

/-! ### Functions of `Sys2Proof.Machine.Control` -/

theorem State.Canonical.execBra (h : s.Canonical) (o) : Keeps (execBra o s) := h.issue fun _ _ _ ha => ha.onThread ..

theorem State.Canonical.execCall (h : s.Canonical) (o) : Keeps (execCall o s) := h.issue fun _ _ _ ha => ha.onThread ..

theorem State.Canonical.jumpBody (h : s.Canonical) (sa d x x1) : (jumpBody sa d s x x1).Keeps := by
  unfold Machine.jumpBody
  extract_lets
  split
  · exact .trap h
  · exact .done (h.setThread ..)

theorem State.Canonical.execJrGo (h : s.Canonical) (o) : Keeps (execJrGo o s) := h.issue fun _ _ _ ha => ha.jumpBody ..

theorem State.Canonical.execJrLink (h : s.Canonical) (o) : Keeps (execJrLink o s) :=
  h.issue fun _ _ _ ha => ha.jumpBody ..

theorem State.Canonical.execJrRet (h : s.Canonical) (o) : Keeps (execJrRet o s) :=
  h.issue fun _ _ _ ha => ha.jumpBody ..

theorem State.Canonical.execTaskYield (h : s.Canonical) : Keeps (execTaskYield s) := by
  unfold Machine.execTaskYield
  refine h.issue fun _ _ _ ha => ?_
  split
  · exact .done (ha.setThread ..)
  · exact .done (ha.setThread ..)

theorem State.Canonical.execTaskPark (h : s.Canonical) : Keeps (execTaskPark s) := by
  unfold Machine.execTaskPark
  refine h.issue fun _ _ _ ha => ?_
  split
  · exact .trap ha
  · split
    · exact .trap ha
    · split
      · exact .done (ha.setThread ..)
      · exact .park ha

theorem State.Canonical.execTrapSys (h : s.Canonical) (code) : Keeps (execTrapSys code s) := by
  unfold Machine.execTrapSys
  refine h.issue fun _ _ _ ha => ?_
  split
  · exact .trap ha
  · exact .trapNext (ha.setThread ..)

theorem State.Canonical.execTrapBrk (h : s.Canonical) (code) : Keeps (execTrapBrk code s) :=
  h.issue fun _ _ _ ha => .trapNext (ha.setThread ..)

theorem State.Canonical.execTrapAssert (h : s.Canonical) (pa code) : Keeps (execTrapAssert pa code s) := by
  unfold Machine.execTrapAssert
  refine h.issue fun _ _ _ ha => ?_
  split
  · exact .done (ha.setThread ..)
  · exact .trapNext (ha.setThread ..)

theorem State.Canonical.execEret (h : s.Canonical) : Keeps (execEret s) := by
  unfold Machine.execEret
  refine h.issue fun _ _ _ ha => ?_
  split
  · exact .trap ha
  · exact .done ((ha.setThread ..).endFpReport ..)

theorem State.Canonical.execSysrGet (h : s.Canonical) (sd sel) : Keeps (execSysrGet sd sel s) :=
  h.issue fun _ _ _ ha => .done (ha.setThread ..)

theorem State.Canonical.sysrSetBody (h : s.Canonical) (sa sel f ones x x1) :
    (sysrSetBody sa sel f ones s x x1).Keeps := by
  unfold Machine.sysrSetBody
  split
  · extract_lets
    exact .done (h.raise ..)
  · exact .trap h

theorem State.Canonical.execSysrSet (h : s.Canonical) (sa sel) : Keeps (execSysrSet sa sel s) :=
  h.issue fun _ _ _ ha => ha.sysrSetBody ..

theorem State.Canonical.execSysrSetb (h : s.Canonical) (sa sel) : Keeps (execSysrSetb sa sel s) :=
  h.issue fun _ _ _ ha => ha.sysrSetBody ..

theorem State.Canonical.execSysrClrb (h : s.Canonical) (sa sel) : Keeps (execSysrClrb sa sel s) :=
  h.issue fun _ _ _ ha => ha.sysrSetBody ..

theorem State.Canonical.execModeSetrm (h : s.Canonical) (rm) : Keeps (execModeSetrm rm s) :=
  h.issue fun _ _ _ ha => ha.onThread ..

theorem State.Canonical.execModeMobile (h : s.Canonical) : Keeps (execModeMobile s) := by
  unfold Machine.execModeMobile
  refine h.issue fun _ _ _ ha => ?_
  split
  · exact .trap ha
  · split
    · exact .trap ha
    · exact .done (ha.setThread ..)

theorem State.Canonical.execModeAnchor (h : s.Canonical) : Keeps (execModeAnchor s) := by
  unfold Machine.execModeAnchor
  refine h.issue fun _ _ _ ha => ?_
  extract_lets
  exact .done (ha.setThread ..)

theorem State.Canonical.execModeGetfl (h : s.Canonical) (sd) : Keeps (execModeGetfl sd s) :=
  h.issue fun _ _ _ ha => ha.writesX ..

theorem State.Canonical.execModeClrfl (h : s.Canonical) (mask) : Keeps (execModeClrfl mask s) :=
  h.issue fun _ _ _ ha => ha.onThread ..

theorem State.Canonical.execWaitFull (h : s.Canonical) (r) : Keeps (execWaitFull r s) := by
  unfold Machine.execWaitFull
  refine h.issue fun _ _ _ ha => ?_
  split
  · exact .done (ha.setThread ..)
  · exact .park ha

theorem State.Canonical.execWaitAny (h : s.Canonical) (sa sd) : Keeps (execWaitAny sa sd s) := by
  unfold Machine.execWaitAny
  refine h.issue fun _ _ _ ha => ?_
  extract_lets
  split
  · exact .trap ha
  · split
    · exact .trap ha
    · split
      · exact .done (ha.setThread ..)
      · split
        · exact .done (ha.setThread ..)
        · exact .park ha

theorem State.Canonical.hintWord (h : s.Canonical) (f) : Keeps (hintWord f s) := h.issue fun _ _ _ ha => ha.onThread ..

theorem State.Canonical.execHintImmx (h : s.Canonical) (p) : Keeps (execHintImmx p s) := h.hintWord ..

theorem State.Canonical.execHintScl (h : s.Canonical) (v) : Keeps (execHintScl v s) := h.hintWord ..

theorem State.Canonical.execHintLat (h : s.Canonical) (lat) : Keeps (execHintLat lat s) := h.hintWord ..

theorem State.Canonical.execHintRh (h : s.Canonical) (code) : Keeps (execHintRh code s) := h.hintWord ..

theorem State.Canonical.execHintSrk (h : s.Canonical) (k) : Keeps (execHintSrk k s) := h.hintWord ..

theorem State.Canonical.execHintNop (h : s.Canonical) : Keeps (execHintNop s) := h.hintWord ..

theorem State.Canonical.execHintUnnamed (h : s.Canonical) (x x1) : Keeps (execHintUnnamed x x1 s) := h.hintWord ..

theorem State.Canonical.execIllegalWordZeros (h : s.Canonical) : Keeps (execIllegalWordZeros s) :=
  h.issue fun _ _ _ ha => .trap ha

theorem State.Canonical.execIllegalWordOnes (h : s.Canonical) : Keeps (execIllegalWordOnes s) :=
  h.issue fun _ _ _ ha => .trap ha

/-! ### Functions of `Sys2Proof.Machine.System` -/

theorem State.Canonical.localMsg (h : s.Canonical) {th a' isLoad k} (hk : ∀ x0, (k x0).Keeps) :
    (localMsg s th a' isLoad k).Keeps := by
  unfold Machine.localMsg
  split
  · split
    · exact .trap h
    · split
      · exact .trap h
      · exact hk _
  · exact .trap h

theorem State.Canonical.bankAwake (h : s.Canonical) {th a' n k} (hk : ∀ x0, (k x0).Keeps) :
    (bankAwake s th a' n k).Keeps := by
  unfold Machine.bankAwake
  split
  · exact .park (h.wakeFor ..)
  · exact hk _

theorem State.Canonical.msgAt (h : s.Canonical) {t th a' off} {a b} (e : s.msgAt t th a' off = (a, b)) :
    b.Canonical := by
  rw [← show Prod.snd _ = b from congrArg Prod.snd e]
  unfold State.msgAt
  split
  · rename_i s1 e1
    have hs1 : s1.Canonical := h.eccRead e1
    split
    · exact hs1.defer ..
    · exact hs1

theorem State.Canonical.postOut (h : s.Canonical) (t th m a' sd prio) : (s.postOut t th m a' sd prio).Canonical := by
  unfold State.postOut
  split
  · rename_i s1 e
    have hs1 : s1.Canonical := h.takeId e
    extract_lets
    exact (hs1.setThread ..).push ..

theorem State.Canonical.execMbxPost (h : s.Canonical) (sa sb sd prio) : Keeps (execMbxPost sa sb sd prio s) := by
  unfold Machine.execMbxPost
  refine h.issue fun _ _ _ ha => ?_
  split
  · exact .trap ha
  · refine ha.localMsg fun _ => ha.bankAwake (fun _ => ?_)
    extract_lets
    split
    · exact .trap ha
    · split
      · exact .park ha
      · refine ha.release fun _ _ ha1 => ?_
        extract_lets s1
        have hs1 : s1.Canonical := ha1.msgAt rfl
        exact .done (hs1.postOut ..)

theorem State.Canonical.execMbxFetch (h : s.Canonical) (sa sd) : Keeps (execMbxFetch sa sd s) := by
  unfold Machine.execMbxFetch
  refine h.issue fun _ _ _ ha => ?_
  split
  · exact .trap ha
  · split
    · exact .trap ha
    · refine ha.localMsg fun _ => ?_
      split
      · exact .done ((ha.acquireAt ..).modThread ..)
      · refine ha.bankAwake fun _ => ?_
        split
        · exact .park ha
        · extract_lets s1
          have hs1 : s1.Canonical := ha.modK ..
          exact .done (((hs1.wr ..).acquireAt ..).modThread ..)

theorem State.Canonical.execMbxCount (h : s.Canonical) (sd) : Keeps (execMbxCount sd s) := by
  unfold Machine.execMbxCount
  refine h.issue fun _ _ _ ha => ?_
  split
  · exact .trap ha
  · extract_lets
    exact .done (ha.setThread ..)

theorem State.Canonical.postStatus (h : s.Canonical) (p v) : (s.postStatus p v).Canonical := by
  unfold State.postStatus
  split
  · exact h.modThread ..
  · exact h

theorem State.Canonical.queueMsg (h : s.Canonical) {p} {a b} (e : s.queueMsg p = (a, b)) : a.Canonical := by
  rw [← show Prod.fst _ = a from congrArg Prod.fst e]
  unfold State.queueMsg
  split
  · exact h
  · split
    · exact h
    · extract_lets s1 s2
      have hs1 : s1.Canonical := h.mailPut ..
      have hs2 : s2.Canonical := by
        unfold s2
        split
        · split
          · split
            · exact hs1.setThread ..
            · exact hs1
          · exact hs1
        · exact hs1
      exact hs2

theorem State.Canonical.execFaultMessageDelivery (h : s.Canonical) (p) : Keeps (execFaultMessageDelivery p s) :=
  h.perform fun _ ha => ha.mailPut ..

theorem State.Canonical.execResumeMessage (h : s.Canonical) (p) : Keeps (execResumeMessage p s) := by
  unfold Machine.execResumeMessage
  refine h.perform fun _ ha => ?_
  extract_lets
  split
  · exact ha.postStatus ..
  · split
    · exact ha.postStatus ..
    · split
      · exact ha.postStatus ..
      · extract_lets
        exact (ha.setThread ..).postStatus ..

theorem State.Canonical.execClusterControlWrite (h : s.Canonical) (p) : Keeps (execClusterControlWrite p s) := by
  unfold Machine.execClusterControlWrite
  refine h.perform fun _ ha => ?_
  extract_lets _ _ s1
  have hs1 : s1.Canonical := by
    unfold s1
    split
    · exact ha.modCluster ..
    · exact ha.modCluster ..
    · exact ha
  exact hs1.postStatus ..

theorem State.Canonical.execClusterControlRead (h : s.Canonical) (p) : Keeps (execClusterControlRead p s) := by
  unfold Machine.execClusterControlRead
  refine h.perform fun _ ha => ?_
  extract_lets _ _ s1
  have hs1 : s1.Canonical := by
    unfold s1
    split
    · exact ha.mailPut ..
    · split
      · rename_i s11 e
        have hs11 : s11.Canonical := ha.takeId e
        exact hs11.push ..
  exact hs1.postStatus ..

theorem State.Canonical.execReservedEncoding (h : s.Canonical) (w) : Keeps (execReservedEncoding w s) := by
  unfold Machine.execReservedEncoding
  refine h.issue fun _ _ _ ha => ?_
  extract_lets s1
  have hs1 : s1.Canonical := ha.modK ..
  split
  · exact .done hs1
  · exact .done ((hs1.postFault ..).send ..)

theorem State.Canonical.storeWords (h : s.Canonical) (core base ws) : (s.storeWords core base ws).Canonical := by
  induction ws generalizing s base with
  | nil => exact h
  | cons w ws ih => exact ih (h.wr ..) _

theorem State.Canonical.execCodeAbsent (h : s.Canonical) (core t) : Keeps (execCodeAbsent core t s) := by
  unfold Machine.execCodeAbsent
  refine h.perform fun _ ha => ?_
  split
  · exact ha
  · split
    · exact ha.push ..
    · exact ha.push ..
    · split
      · exact ha
      · extract_lets s1
        have hs1 : s1.Canonical := ha.modK ..
        exact (hs1.storeWords ..).push ..

theorem State.Canonical.execCodeStartMessage (h : s.Canonical) (core img asid) :
    Keeps (execCodeStartMessage core img asid s) :=
  h.perform fun _ ha => ha.of_eq rfl rfl

theorem State.Canonical.execCodeRefusal (h : s.Canonical) (t link) : Keeps (execCodeRefusal t link s) := by
  unfold Machine.execCodeRefusal
  refine h.perform fun _ ha => ?_
  split
  · exact ha
  · exact ha.takeTrap ..

theorem State.Canonical.execHeldFpTrapDelivery (h : s.Canonical) (core) : Keeps (execHeldFpTrapDelivery core s) := by
  unfold Machine.execHeldFpTrapDelivery
  refine h.perform fun _ ha => ?_
  split
  · exact ha
  · extract_lets _ _ s1
    have hs1 : s1.Canonical := ha.modK ..
    split
    · exact hs1.endFpReport ..
    · extract_lets s2
      have hs2 : s2.Canonical := hs1.takeTrap ..
      split
      · exact hs2.endFpReport ..
      · exact hs2

theorem State.Canonical.postCoreFault (h : s.Canonical) (core v) : (s.postCoreFault core v).Canonical :=
  (h.postFault ..).send ..

/-! ### Functions of `Sys2Proof.Machine.Copy` -/

theorem State.Canonical.copyBody (h : s.Canonical) (kind sa sb sd sc x x1) :
    (copyBody kind sa sb sd sc s x x1).Keeps := by
  unfold Machine.copyBody
  split
  · exact .trap h
  · split
    · rename_i s1 e
      have hs1 : s1.Canonical := h.takeId e
      split
      · rename_i s3 e1
        have hs3 : s3.Canonical := hs1.takeSeq e1
        extract_lets
        split
        · exact .park h
        · split
          · exact .done (h.endChunk ..)
          · split
            · exact .park h
            · exact .done (((hs3.lockAll ..).setThread ..).push ..)

theorem State.Canonical.execCopyLin (h : s.Canonical) (sa sb sd c) : Keeps (execCopyLin sa sb sd c s) :=
  h.issue fun _ _ _ ha => ha.copyBody ..

theorem State.Canonical.execCopyTile2d (h : s.Canonical) (sa sb sd c) : Keeps (execCopyTile2d sa sb sd c s) :=
  h.issue fun _ _ _ ha => ha.copyBody ..

theorem State.Canonical.execCopyPeer (h : s.Canonical) (sa sb sd c) : Keeps (execCopyPeer sa sb sd c s) :=
  h.issue fun _ _ _ ha => ha.copyBody ..

theorem State.Canonical.execCopyBcast (h : s.Canonical) (sa sb sd c) : Keeps (execCopyBcast sa sb sd c s) :=
  h.issue fun _ _ _ ha => ha.copyBody ..

theorem State.Canonical.readBytes (h : s.Canonical) (a n ad left acc) :
    EndsKeep (fun x => x.2.2.2) id (readBytes a n ad left s acc).1 := by
  induction n generalizing s ad left acc with
  | zero => exact h
  | succ n ih =>
    unfold Machine.readBytes
    split
    · exact h
    · dsimp only
      split
      · next e => exact ih ((h.engRead ..).of_eq e) ..
      · next e => exact (h.engRead ..).of_eq e
      · exact h

theorem State.Canonical.sendBytes (h : s.Canonical) (port r bytes) : (s.sendBytes port r bytes).Canonical :=
  h.foldl fun _ _ ha => ha.emit ..

theorem State.Canonical.copyOut (h : s.Canonical) (r) : (s.copyOut r).Keeps := by
  unfold State.copyOut
  split
  · exact .fault h
  · next port s1 e =>
    have hr := (h.nextPort e).readBytes (copyActor r s) (r.len / 64 + 2) r.src.toNat r.len []
    split
    · next e =>
      rw [e] at hr
      exact .ok (State.Canonical.sendBytes hr ..)
    · exact trivial
    · next s2 bytes e =>
      rw [e] at hr
      have hs : s2.Canonical := hr
      refine .fault ?_
      split
      · exact hs
      · exact hs.sendBytes ..

theorem State.Canonical.copyRun (h : s.Canonical) (r) : (s.copyRun r).Keeps := by
  unfold State.copyRun
  split
  · exact .ok h
  · split
    · exact h.copyOut ..
    · split
      · exact .fault h
      · exact State.Canonical.Walked.move h ..

theorem State.Canonical.copyPart (h : s.Canonical) (r) : (s.copyPart r).1.Keeps := h.movePieces ..

theorem State.Canonical.execCopyEngineStart (h : s.Canonical) (r) : Keeps (execCopyEngineStart r s) := by
  refine h.perform fun a ha => ?_
  extract_lets +onlyGivenNames s1 fault
  have h1 : s1.Canonical := by
    unfold s1
    split
    · exact ha
    · exact ha.engineRelease ..
  have hfault {b : State} (hb : b.Canonical) (ls c ea) : (fault b ls c ea).Canonical := (hb.unlock ..).push ..
  split
  · split
    · next e => exact (((h1.copyRun r).of_eq e).unlock ..).push ..
    · next e => exact hfault ((h1.copyRun r).of_eq e) ..
    · exact ha.holdAt ..
  · split
    · exact (h1.wakeBanks _).push _
    · have hp := h1.copyPart r
      split
      · next e =>
        rw [e] at hp
        exact (State.Canonical.wakeBanks hp _).push _
      · next e =>
        rw [e] at hp
        exact hfault hp ..
      · exact ha.holdAt ..

theorem State.Canonical.execCopyCompletion (h : s.Canonical) (r) : Keeps (execCopyCompletion r s) := by
  unfold Machine.execCopyCompletion
  refine h.perform fun _ ha => ?_
  extract_lets s1
  have hs1 : s1.Canonical := by
    unfold s1
    split
    · exact ha
    · exact (ha.enginePublish ..).touchLines ..
  exact (hs1.unlock ..).modThread ..

/-! ### Functions of `Sys2Proof.Machine.Bound` -/

theorem State.Canonical.outsideRegion (h : s.Canonical) {k x x1} (hk : ∀ a x1 x2, a.Canonical → (k a x1 x2).Keeps) :
    (outsideRegion k s x x1).Keeps := by
  unfold Machine.outsideRegion
  split
  · exact .trap h
  · exact hk _ _ _ h

theorem State.Canonical.noDet (h : s.Canonical) {k x x1} (hk : ∀ a x1 x2, a.Canonical → (k a x1 x2).Keeps) :
    (noDet k s x x1).Keeps := by
  unfold Machine.noDet
  split
  · exact .trap h
  · exact hk _ _ _ h

theorem State.Canonical.execCbCfg (h : s.Canonical) (sa sb sd n) : Keeps (execCbCfg sa sb sd n s) := by
  unfold Machine.execCbCfg
  refine h.issue fun _ _ _ ha => ha.outsideRegion (fun _ _ _ ha1 => ?_)
  extract_lets
  split
  · exact .done (ha1.setThread ..)
  · split
    · exact .done (ha1.setThread ..)
    · exact .done ((ha1.cbWord ..).modThread ..)

theorem State.Canonical.cbMove (h : s.Canonical) (put sa sd n x x1) : (cbMove put sa sd n s x x1).Keeps := by
  unfold Machine.cbMove
  extract_lets
  split
  · exact .done (h.setThread ..)
  · refine h.release fun _ _ ha => ?_
    split
    · exact .done (ha.setThread ..)
    · exact .done ((ha.cbWord ..).modThread ..)

theorem State.Canonical.execCbPut (h : s.Canonical) (sa sd n) : Keeps (execCbPut sa sd n s) :=
  h.issue fun _ _ _ ha => ha.outsideRegion (fun _ _ _ ha1 => ha1.cbMove ..)

theorem State.Canonical.execCbGet (h : s.Canonical) (sa sd n) : Keeps (execCbGet sa sd n s) :=
  h.issue fun _ _ _ ha => ha.outsideRegion (fun _ _ _ ha1 => ha1.cbMove ..)

theorem State.Canonical.execCbRoom (h : s.Canonical) (sd n) : Keeps (execCbRoom sd n s) :=
  h.issue fun _ _ _ ha => ha.noDet (fun _ _ _ ha1 => .done (ha1.setThread ..))

theorem State.Canonical.execCbCount (h : s.Canonical) (sd n) : Keeps (execCbCount sd n s) := by
  unfold Machine.execCbCount
  refine h.issue fun _ _ _ ha => ha.noDet (fun _ _ _ ha1 => ?_)
  extract_lets
  exact .done (ha1.setThread ..)

theorem State.Canonical.execCbWait (h : s.Canonical) (sa room n) : Keeps (execCbWait sa room n s) := by
  unfold Machine.execCbWait
  refine h.issue fun _ _ _ ha => ha.outsideRegion (fun _ _ _ ha1 => ?_)
  extract_lets
  split
  · split
    · exact .park ha1
    · exact .done ((ha1.acquireAt ..).modThread ..)
  · split
    · exact .park ha1
    · exact .done ((ha1.acquireAt ..).modThread ..)

theorem State.Canonical.markBound (h : s.Canonical) (core b') : (s.markBound core b').Canonical :=
  h.foldl fun _ _ ha => ha.setCb ..

theorem State.Canonical.freeBinding (h : s.Canonical) (core i) : (s.freeBinding core i).Canonical := by
  unfold State.freeBinding
  split
  · exact h
  · extract_lets s1
    have hs1 : s1.Canonical := h.modE ..
    refine hs1.foldl fun _ _ ha => ?_
    split
    · exact ha
    · exact ha.setCb ..

theorem State.Canonical.execEngBind (h : s.Canonical) (sa sd) : Keeps (execEngBind sa sd s) := by
  unfold Machine.execEngBind
  refine h.issue fun _ _ _ ha => ha.outsideRegion (fun _ _ _ ha1 => ?_)
  extract_lets
  split
  · split
    · exact .trap ha1
    · split
      · exact .trap ha1
      · split
        · exact .park (ha1.touchBank ..)
        · split
          · rename_i s1 e3
            have hs1 : s1.Canonical := ha1.eccRead e3
            extract_lets s2
            have hs2 : s2.Canonical := by
              unfold s2
              split
              · exact hs1.defer ..
              · exact hs1
            split
            · exact .park hs2
            · split
              · exact .done (hs2.setThread ..)
              · split
                · exact .done (hs2.setThread ..)
                · split
                  · exact .done (hs2.setThread ..)
                  · split
                    · exact .done (hs2.setThread ..)
                    · exact .done ((((hs2.keepBinding ..).setBinding ..).markBound ..).modThread ..)
  · exact .trap ha1

theorem State.Canonical.armWord (h : s.Canonical) (t th x) : (s.armWord t th x).Canonical := by
  unfold State.armWord
  split
  · exact h.modThread ..
  · exact h.armBinding ..

theorem State.Canonical.armBody (h : s.Canonical) (sa once x x1) : (armBody sa once s x x1).Keeps := by
  unfold Machine.armBody
  refine h.outsideRegion fun _ _ _ ha => ?_
  split
  · exact .done (ha.setThread ..)
  · split
    · rename_i s1 e1
      have hs1 : s1.Canonical := ha.takeId e1
      exact .done ((hs1.armWord ..).modThread ..)

theorem State.Canonical.execEngArm (h : s.Canonical) (sa) : Keeps (execEngArm sa s) :=
  h.issue fun _ _ _ ha => ha.armBody ..

theorem State.Canonical.execEngOnce (h : s.Canonical) (sa) : Keeps (execEngOnce sa s) :=
  h.issue fun _ _ _ ha => ha.armBody ..

theorem State.Canonical.execEngUnbind (h : s.Canonical) (sa) : Keeps (execEngUnbind sa s) := by
  unfold Machine.execEngUnbind
  refine h.issue fun _ _ _ ha => ha.outsideRegion (fun _ _ _ ha1 => ?_)
  split
  · exact .done (ha1.setThread ..)
  · extract_lets s0
    have hs0 : s0.Canonical := (ha1.keepBinding ..).modThread ..
    split
    · exact .park (hs0.setBinding ..)
    · exact .done ((hs0.freeBinding ..).modThread ..)

theorem State.Canonical.execEngStat (h : s.Canonical) (sa sd) : Keeps (execEngStat sa sd s) := by
  unfold Machine.execEngStat
  refine h.issue fun _ _ _ ha => ha.noDet (fun _ _ _ ha1 => ?_)
  extract_lets
  exact .done (ha1.setThread ..)

theorem State.Canonical.execEngineFiring (h : s.Canonical) (core i) : Keeps (execEngineFiring core i s) := by
  unfold Machine.execEngineFiring
  split
  · exact trivial
  · split
    · exact trivial
    · split
      · exact .next (h.wakeBanks ..)
      · split
        next id s1 e1 =>
        split
        next seq s2 e2 =>
        have h2 : s2.Canonical := (h.takeId e1).takeSeq e2
        extract_lets +onlyGivenNames b1
        split
        · exact .next ((h2.lockAll _).setBinding ..)
        · split
          · exact .next (h2.setBinding ..)
          · extract_lets +onlyGivenNames form
            split
            next base ctl e3 =>
            extract_lets +onlyGivenNames sk
            split
            next keep s3 e4 =>
            have h3 : s3.Canonical := by
              split at e4
              · cases e4
                exact h2
              · exact h2.takeSlices e4
            exact .next (((h3.lockAll _).enqueue ..).setBinding ..)

theorem State.Canonical.moveElems {c : State} (h : s.Canonical) (core b a co n k ls) :
    (c.moveElems core b a co n k s ls).Keeps := by
  induction n generalizing s k ls with
  | zero => exact .ok h
  | succ n ih =>
    unfold State.moveElems
    extract_lets ci src dst run one
    have hone : one.Keeps := by
      unfold one
      split
      · exact State.Canonical.Walked.move h ..
      · split
        · next e => exact .fault ((h.engRead ..).of_eq e)
        · exact trivial
        · next s1 _ e =>
          have h1 : s1.Canonical := (h.engRead ..).of_eq e
          exact State.Canonical.Walked.move h1 ..
    clear_value one
    cases one with
    | ok s1 l1 => exact ih hone ..
    | _ => exact hone

theorem State.Canonical.execFiringOperandsConsumed (h : s.Canonical) (core i) :
    Keeps (execFiringOperandsConsumed core i s) := by
  unfold Machine.execFiringOperandsConsumed
  split
  · exact trivial
  · next b _ =>
    split
    · exact trivial
    · split
      · exact .next (h.wakeBanks ..)
      · extract_lets +onlyGivenNames advance
        have hadvance {a : State} (ha : a.Canonical) : (advance a).Canonical := (ha.setCb ..).unlock ..
        split
        · extract_lets +onlyGivenNames s1
          have h1 : s1.Canonical := h.setBinding ..
          refine .next ?_
          split
          · exact hadvance h1
          · exact h1
        · split
          · next e => exact .next (hadvance (((h.moveElems ..).of_eq e).setBinding ..))
          · next e => exact .next ((((h.moveElems ..).of_eq e).setBinding ..).unlock ..)
          · exact .next ((h.setBinding ..).holdAt ..)

theorem State.Canonical.execFiringCompletion (h : s.Canonical) (core i) : Keeps (execFiringCompletion core i s) := by
  unfold Machine.execFiringCompletion
  split
  · exact trivial
  · split
    · exact trivial
    · extract_lets s1 s2 _ s21
      have hs1 : s1.Canonical := (h.enginePublish ..).unlock ..
      have hs2 : s2.Canonical := by
        unfold s2
        split
        · exact hs1.cbDo ..
        · exact hs1
      have hs21 : s21.Canonical := hs1.setCb ..
      split
      · exact .next (hs2.setBinding ..)
      · exact .next (hs21.freeBinding ..)

theorem State.Canonical.ownBank (h : s.Canonical) {n k x x1} (hk : ∀ a x1 x2, a.Canonical → (k a x1 x2).Keeps) :
    (ownBank n k s x x1).Keeps := by
  unfold Machine.ownBank
  refine h.outsideRegion fun _ _ _ ha => ?_
  split
  · exact .trap ha
  · exact hk _ _ _ ha

theorem State.Canonical.keepFmt (h : s.Canonical) (t core n) : (s.keepFmt t core n).Canonical := h.modThread ..

theorem State.Canonical.execBankFmtset (h : s.Canonical) (sa sd n) : Keeps (execBankFmtset sa sd n s) := by
  unfold Machine.execBankFmtset
  refine h.issue fun _ _ _ ha => ha.ownBank (fun _ _ _ ha1 => ?_)
  extract_lets _ s1
  have hs1 : s1.Canonical := (ha1.keepFmt ..).modM ..
  split
  · exact .done (ha1.setThread ..)
  · split
    · exact .done (ha1.setThread ..)
    · exact .done (hs1.modThread ..)

theorem State.Canonical.execBankFmtget (h : s.Canonical) (sd n) : Keeps (execBankFmtget sd n s) :=
  h.issue fun _ _ _ ha => .done (ha.setThread ..)

theorem State.Canonical.execBankGate (h : s.Canonical) (n) : Keeps (execBankGate n s) := by
  unfold Machine.execBankGate
  refine h.issue fun _ _ _ ha => ha.ownBank (fun _ _ _ ha1 => ?_)
  extract_lets _ _ _ s1
  have hs1 : s1.Canonical := by
    unfold s1
    split
    · exact ha1
    · exact (ha1.modM ..).push ..
  exact .done (hs1.setThread ..)

theorem State.Canonical.execBankWake (h : s.Canonical) (n) : Keeps (execBankWake n s) :=
  h.issue fun _ _ _ ha => ha.ownBank (fun _ _ _ ha1 => .done ((ha1.touchBank ..).setThread ..))

theorem State.Canonical.execBankGateEffect (h : s.Canonical) (core b') : Keeps (execBankGateEffect core b' s) :=
  h.perform fun _ ha => ha.modM ..

theorem State.Canonical.execRlkQuery (h : s.Canonical) (sa sd h') : Keeps (execRlkQuery sa sd h' s) := by
  unfold Machine.execRlkQuery
  refine h.issue fun _ _ _ ha => ha.noDet (fun _ _ _ ha1 => ?_)
  extract_lets
  exact .done (ha1.setThread ..)

theorem State.Canonical.execRlkDrop (h : s.Canonical) (sa) : Keeps (execRlkDrop sa s) :=
  h.issue fun _ _ _ ha => ha.outsideRegion (fun _ _ _ ha1 => .done ((ha1.modM ..).setThread ..))

end Sys2Proof.Machine
end

section
/-! Memory stays canonical: records, files, clusters, regions, launches, the ring, tasks and unmasking. -/

namespace Sys2Proof.Machine

variable {s : State}

/-! ### Functions of `Sys2Proof.Machine.Record` -/

theorem State.Canonical.answerWaits (h : s.Canonical) (lid r) : (s.answerWaits lid r).Canonical := by
  unfold State.answerWaits
  split
  · exact h.of_eq rfl rfl
  · exact h

theorem State.Canonical.setRec (h : s.Canonical) (lid r) : (s.setRec lid r).Canonical := (h.modDie ..).answerWaits ..

theorem State.Canonical.modRec (h : s.Canonical) (lid f) : (s.modRec lid f).Canonical := by
  unfold State.modRec
  split
  · exact h.setRec ..
  · exact h

theorem State.Canonical.journal (h : s.Canonical) (die f) : (s.journal die f).Canonical := h.modDie ..

theorem State.Canonical.kick (h : s.Canonical) (lid b') : (s.kick lid b').Canonical := h.modDie ..

/-! ### Functions of `Sys2Proof.Machine.Cluster` -/

theorem State.Canonical.noRegion (h : s.Canonical) {th k} (hk : (k).Keeps) : (noRegion th s k).Keeps := by
  unfold Machine.noRegion
  split
  · exact .trap h
  · exact hk

theorem State.Canonical.gangChecks (h : s.Canonical) {th k} (hk : (k).Keeps) : (gangChecks th s k).Keeps := by
  unfold Machine.gangChecks
  refine h.noRegion ?_
  split
  · exact .trap h
  · exact hk

theorem State.Canonical.formGang (h : s.Canonical) (g u) : (s.formGang g u).Canonical :=
  h.foldl fun _ _ ha => ha.modThread ..

theorem State.Canonical.execGangForm (h : s.Canonical) (sa sd) : Keeps (execGangForm sa sd s) := by
  unfold Machine.execGangForm
  refine h.issue fun _ _ _ ha => ha.gangChecks ?_
  split
  · split
    · extract_lets
      exact .done ((ha.setThread ..).formGang ..)
    · exact .park ha
  · extract_lets
    split
    · exact .done (ha.setThread ..)
    · split
      · exact .done (ha.setThread ..)
      · exact .park (ha.setThread ..)

theorem State.Canonical.recordJoin (h : s.Canonical) (t th lead g) : (s.recordJoin t th lead g).Canonical := by
  unfold State.recordJoin
  extract_lets _ s1
  have hs1 : s1.Canonical := h.setThread ..
  exact hs1.modThread ..

theorem State.Canonical.execGangJoin (h : s.Canonical) (sa sd) : Keeps (execGangJoin sa sd s) := by
  unfold Machine.execGangJoin
  refine h.issue fun _ _ _ ha => ha.gangChecks ?_
  extract_lets
  split
  · exact .park ha
  · extract_lets
    split
    · exact .done (ha.setThread ..)
    · exact .park (ha.recordJoin ..)

theorem State.Canonical.execGangDisband (h : s.Canonical) : Keeps (execGangDisband s) := by
  unfold Machine.execGangDisband
  refine h.issue fun _ _ _ ha => ?_
  split
  · exact .done (ha.setThread ..)
  · extract_lets
    exact .done (ha.setThread ..)

theorem State.Canonical.execGangIdx (h : s.Canonical) (sd) : Keeps (execGangIdx sd s) :=
  h.issue fun _ _ _ ha => ha.writesX ..

theorem State.Canonical.setTag (h : s.Canonical) (n g) : (s.setTag n g).Canonical := h.modPkg ..

theorem State.Canonical.checkRoot (h : s.Canonical) (n) : (s.checkRoot n).Canonical := by
  unfold State.checkRoot
  extract_lets
  split
  · exact (h.setTag ..).push ..
  · exact h

theorem State.Canonical.checkCore (h : s.Canonical) (n core) : (s.checkCore n core).Canonical := by
  unfold State.checkCore
  extract_lets
  split
  · exact h
  · split
    · exact (h.setTag ..).checkRoot ..
    · exact h

theorem State.Canonical.arrive (h : s.Canonical) (t th n r) : (s.arrive t th n r).Canonical := by
  unfold State.arrive
  extract_lets s1
  have hs1 : s1.Canonical := h.setThread ..
  exact (hs1.setTag ..).checkCore ..

theorem State.Canonical.freeTag (h : s.Canonical) (n) : (s.freeTag n).Canonical := by
  unfold State.freeTag
  extract_lets s1
  have hs1 : s1.Canonical := h.setTag ..
  exact hs1.of_eq rfl rfl

theorem State.Canonical.leaveTag (h : s.Canonical) (t th n) : (s.leaveTag t th n).Canonical := by
  unfold State.leaveTag
  extract_lets s1
  have hs1 : s1.Canonical := h.setThread ..
  split
  · exact hs1
  · split
    · split
      · exact hs1.freeTag ..
      · exact (hs1.setTag ..).checkRoot ..
    · exact (hs1.setTag ..).checkCore ..

theorem State.Canonical.barDo (h : s.Canonical) (t o) : (s.barDo t o).Canonical := by
  unfold State.barDo
  split
  · exact h
  · split
    · extract_lets
      exact (h.setTag ..).setThread ..
    · split
      · exact h.arrive ..
      · exact h
    · split
      · exact h.setThread ..
      · exact h
    · split
      · exact h.leaveTag ..
      · exact h

theorem State.Canonical.barView (h : s.Canonical) (t th) : (s.barView t th).Canonical := by
  unfold State.barView
  split
  · exact h.foldl fun _ _ ha => ha.barDo ..
  · exact h

theorem State.Canonical.barWord (h : s.Canonical) (t th o) : (s.barWord t th o).Canonical := by
  unfold State.barWord
  split
  · exact h.modThread ..
  · exact h.barDo ..

theorem State.Canonical.barEnd (h : s.Canonical) (t sd v) : (barEnd s t sd v).Keeps := .done (h.modThread ..)

theorem State.Canonical.execBarReg (h : s.Canonical) (sa sb sd bn) : Keeps (execBarReg sa sb sd bn s) := by
  unfold Machine.execBarReg
  refine h.issue fun _ _ _ ha => ha.noRegion ?_
  extract_lets _ _ _ _ _ _ _ _ _ s1
  have hs1 : s1.Canonical := by
    unfold s1
    split
    · exact ha.setThread ..
    · exact ha
  refine State.Canonical.barEnd ?_ ..
  split
  · exact hs1.barWord ..
  · exact hs1

theorem State.Canonical.registeredOn (h : s.Canonical) {t th n k} (hk : ∀ a x1, a.Canonical → (k a x1).Keeps) :
    (registeredOn s t th n k).Keeps := by
  unfold Machine.registeredOn
  refine h.noRegion ?_
  extract_lets v
  have hv : v.Canonical := h.barView ..
  split
  · exact .trap h
  · exact hk _ _ hv

theorem State.Canonical.execBarArrive (h : s.Canonical) (sd bn) : Keeps (execBarArrive sd bn s) := by
  unfold Machine.execBarArrive
  refine h.issue fun _ _ _ ha => ha.registeredOn (fun _ _ _ => ?_)
  extract_lets
  split
  · exact .park ha
  · exact (ha.barWord ..).barEnd ..

theorem State.Canonical.execBarWait (h : s.Canonical) (sa bn) : Keeps (execBarWait sa bn s) := by
  unfold Machine.execBarWait
  refine h.issue fun _ _ _ ha => ha.registeredOn (fun _ _ _ => ?_)
  extract_lets
  split
  · exact .done (ha.setThread ..)
  · exact .park ha

theorem State.Canonical.execBarArrw (h : s.Canonical) (sd bn) : Keeps (execBarArrw sd bn s) := by
  unfold Machine.execBarArrw
  refine h.issue fun _ _ _ ha => ha.registeredOn (fun _ _ _ => ?_)
  extract_lets
  split
  · split
    · exact (ha.barWord ..).barEnd ..
    · exact .park ha
  · split
    · exact .park ha
    · exact .park (ha.barWord ..)

theorem State.Canonical.leaveTags (h : s.Canonical) (t) : (s.leaveTags t).Canonical := by
  unfold State.leaveTags
  split
  · exact h
  · refine h.foldl fun _ _ ha => ?_
    split
    · exact ha.leaveTag ..
    · exact ha

theorem State.Canonical.execBarDrop (h : s.Canonical) (bn) : Keeps (execBarDrop bn s) :=
  h.issue fun _ _ _ ha => ha.noRegion ((ha.barWord ..).barEnd ..)

theorem State.Canonical.execBarrierRelease (h : s.Canonical) (n) : Keeps (execBarrierRelease n s) := by
  unfold Machine.execBarrierRelease
  refine h.perform fun _ ha => ?_
  extract_lets _ s1
  have hs1 : s1.Canonical := ha.setTag ..
  exact hs1.foldl fun _ _ ha1 => ha1.checkCore ..

/-! ### Functions of `Sys2Proof.Machine.Regions` -/

theorem State.Canonical.execArBegin (h : s.Canonical) (sa sd) : Keeps (execArBegin sa sd s) := by
  unfold Machine.execArBegin
  refine h.issue fun _ _ _ ha => ?_
  split
  · exact .trap ha
  · split
    · exact .trap ha
    · split
      · exact .trap ha
      · split
        · exact .done (ha.endChunk ..)
        · split
          · exact .park ha
          · split
            · exact .park ha
            · refine ha.release fun _ _ ha1 => ?_
              extract_lets
              exact .done (ha1.setThread ..)

theorem State.Canonical.execArAbort (h : s.Canonical) : Keeps (execArAbort s) := by
  unfold Machine.execArAbort
  refine h.issue fun _ _ _ ha => ?_
  split
  · exact .done (ha.endRegion ..)
  · exact .trap ha

theorem State.Canonical.execArDraw (h : s.Canonical) (sd) : Keeps (execArDraw sd s) := by
  unfold Machine.execArDraw
  refine h.issue fun _ _ _ ha => ?_
  split
  · exact .trap ha
  · exact .done (ha.setThread ..)

theorem State.Canonical.execArStatus (h : s.Canonical) (sd) : Keeps (execArStatus sd s) :=
  h.issue fun _ _ _ ha => ha.writesX ..

theorem State.Canonical.setAnneal (h : s.Canonical) (lid a') : (s.setAnneal lid a').Canonical := h.modDie ..

theorem State.Canonical.annealForm (h : s.Canonical) (t fn a' b' sd) : (s.annealForm t fn a' b' sd).Canonical := by
  unfold State.annealForm
  split
  · exact h
  · extract_lets
    exact ((h.setAnneal ..).takePlace ..).setThread ..

theorem State.Canonical.annealBody (h : s.Canonical) (fn a' b' sd x x1) : (annealBody fn a' b' sd s x x1).Keeps := by
  unfold Machine.annealBody
  split
  · exact .trap h
  · split
    · exact .done (h.endChunk ..)
    · exact .done (h.annealForm ..)

theorem State.Canonical.execAnnealCfg (h : s.Canonical) (sa sb sd) : Keeps (execAnnealCfg sa sb sd s) :=
  h.issue fun _ _ _ ha => ha.annealBody ..

theorem State.Canonical.execAnnealOff (h : s.Canonical) (sd) : Keeps (execAnnealOff sd s) :=
  h.issue fun _ _ _ ha => ha.annealBody ..

theorem State.Canonical.execAnnealReset (h : s.Canonical) (sd) : Keeps (execAnnealReset sd s) :=
  h.issue fun _ _ _ ha => ha.annealBody ..

theorem State.Canonical.publishSpad (h : s.Canonical) (c off l bad) : (s.publishSpad c off l bad).Canonical := by
  unfold State.publishSpad
  extract_lets refused mask
  have hw : { s with mem := writeMasked s.mem (spKey c off) mask 64 l.data.toNat : State }.Canonical :=
    ⟨wf_writeMasked h.mem .., h.fe⟩
  refine hw.foldl fun a i ha => ?_
  extract_lets b
  have hb : b.Canonical := by
    unfold b
    split
    · exact ha.setFe ..
    · exact ha
  split
  · exact hb.of_eq rfl rfl
  · exact hb

theorem State.Canonical.noteHeld (h : s.Canonical) (t base count h' bad) :
    (s.noteHeld t base count h' bad).Canonical := by
  unfold State.noteHeld
  extract_lets
  refine h.foldl fun _ _ ha => ?_
  extract_lets
  split
  · exact ha.noteFail ..
  · exact ha.foldl fun _ _ ha1 => ha1.noteFail ..

theorem State.Canonical.bufferHeld (h : s.Canonical) (t core asid base count h') :
    (s.bufferHeld t core asid base count h').Canonical := by
  unfold State.bufferHeld
  extract_lets _ s1
  have hs1 : s1.Canonical := h.foldl fun _ _ ha => ha.csbStore ..
  exact hs1.foldl fun _ _ ha => ha.csbStore ..

theorem State.Canonical.publishLine (h : s.Canonical) (t core asid base count h') :
    (s.publishLine t core asid base count h').Canonical := by
  unfold State.publishLine
  split
  · exact h
  · extract_lets
    exact (h.publishSpad ..).noteHeld ..
  · split
    · exact h.bufferHeld ..
    · split
      · exact h.bufferHeld ..
      · extract_lets
        exact ((h.softHomeLine ..).applySig ..).ackNow ..

theorem State.Canonical.publish (h : s.Canonical) (t core asid hs) : (s.publish t core asid hs).Canonical := by
  unfold State.publish
  split
  · extract_lets _ s1
    have hs1 : s1.Canonical := by
      refine .foldl ?_ fun _ _ ha => ha.publishLine ..
      exact h.of_eq rfl rfl
    exact (hs1.foldl (fun _ _ ha => ha.endAccess ..)).flushWlog ..
  · exact (h.foldl (fun _ _ ha => ha.publishLine ..)).flushWlog ..

theorem State.Canonical.commitRegion (h : s.Canonical) (t th r ratio sd) :
    (s.commitRegion t th r ratio sd).Canonical := by
  unfold State.commitRegion
  extract_lets _ _ _ s1 s2 s3
  have hs1 : s1.Canonical := h.raise ..
  have hs2 : s2.Canonical := by
    unfold s2
    split
    · exact hs1.publish ..
    · exact hs1
  have hs3 : s3.Canonical := hs2.takePlace ..
  exact (hs3.setAnneal ..).endPriority ..

theorem State.Canonical.execPcommit (h : s.Canonical) (sa sd) : Keeps (execPcommit sa sd s) := by
  unfold Machine.execPcommit
  refine h.issue fun _ _ _ ha => ?_
  split
  · exact .trap ha
  · extract_lets
    split
    · exact .park ha
    · split
      · exact .done (ha.endChunk ..)
      · split
        · exact .park ha
        · split
          · exact .done (ha.squashRegion ..)
          · split
            · exact .park ha
            · split
              · exact .park (ha.touchBank ..)
              · exact .done (ha.commitRegion ..)

theorem State.Canonical.modDet (h : s.Canonical) (lid f) : (s.modDet lid f).Canonical := h.modPkg ..

theorem State.Canonical.squashEngines (h : s.Canonical) (t th) : (s.squashEngines t th).Canonical := by
  unfold State.squashEngines
  extract_lets _ _ _ s1 s2
  have hs1 : s1.Canonical := h.of_eq rfl rfl
  have hs2 : s2.Canonical := by
    unfold s2
    split
    · exact hs1
    · exact (hs1.foldl (fun _ _ ha => ha.restoreBinding ..)).refreshBnd ..
  exact hs2.modE ..

theorem State.Canonical.squashChunk (h : s.Canonical) (t) : (s.squashChunk t).Canonical := by
  unfold State.squashChunk
  split
  · exact h
  · extract_lets s0 _ s1 s2
    have hs0 : s0.Canonical := h.squashEngines ..
    have hs1 : s1.Canonical := hs0.restoreThread ..
    have hs2 : s2.Canonical := by
      unfold s2
      split
      · exact hs1.of_eq rfl rfl
      · exact hs1
    exact (hs2.modThread ..).unreserve ..

theorem State.Canonical.execRegionSquash (h : s.Canonical) (t) : Keeps (execRegionSquash t s) := by
  unfold Machine.execRegionSquash
  refine h.perform fun _ ha => ?_
  split
  · exact ha
  · split
    · split
      · exact ha
      · split
        · exact ha.squashChunk ..
        · exact ha.squashRegion ..
    · exact ha

theorem State.Canonical.recordCommit (h : s.Canonical) (lid set region) : (s.recordCommit lid set region).Canonical :=
  h.modDet ..

theorem State.Canonical.setUme (h : s.Canonical) (die i c) : (s.setUme die i c).Canonical := h.modDie ..

theorem State.Canonical.loadUmes (h : s.Canonical) (die l) : (s.loadUmes die l).Canonical :=
  h.foldl fun _ _ ha => ha.setUme ..

theorem State.Canonical.startRounds (h : s.Canonical) (l) : (s.startRounds l).Canonical :=
  h.foldl fun _ _ ha => ha.push ..

theorem State.Canonical.publishChunk (h : s.Canonical) {t} {a b} (e : s.publishChunk t = (a, b)) : a.Canonical := by
  rw [← show Prod.fst _ = a from congrArg Prod.fst e]
  unfold State.publishChunk
  split
  · exact h
  · extract_lets _ s1 s2 s3 s4 s5
    have hs1 : s1.Canonical := h.publish ..
    have hs2 : s2.Canonical := by
      unfold s2
      split
      · exact hs1
      · exact hs1.takePlace ..
    have hs3 : s3.Canonical := by
      refine hs2.foldl fun _ _ ha => ?_
      split
      · rename_i s11 e2
        have hs11 : s11.Canonical := ha.takeId e2
        exact hs11.modR ..
    have hs4 : s4.Canonical := hs3.foldl fun _ _ ha => (ha.cbDo ..).notePut ..
    have hs5 : s5.Canonical := hs4.foldl fun _ _ ha => ha.armBinding ..
    exact (hs5.loadUmes ..).startRounds ..

theorem State.Canonical.publishBars (h : s.Canonical) (t) : (s.publishBars t).Canonical := by
  unfold State.publishBars
  split
  · exact h
  · exact (h.foldl (fun _ _ ha => ha.barDo ..)).modThread ..

theorem State.Canonical.passTurn (h : s.Canonical) (ts lid lane) : (s.passTurn ts lid lane).Canonical := by
  refine State.Canonical.foldl (h.modDet ..) fun a t ha => ?_
  split
  · exact ha
  · next th e =>
    extract_lets was u
    cases was with
    | running => exact ha
    | exit => exact ha.setThread ..
    | trap c d v sup word =>
      change State.Canonical (if c = .fp then _ else _)
      split
      · exact (ha.setThread ..).holdFp ..
      · exact (ha.setThread ..).trapEntry ..
    | _ => exact ha.setThread ..

theorem State.Canonical.overTurn (h : s.Canonical) (t th r code) : (s.overTurn t th r code).Canonical :=
  (h.overRegion ..).modThread ..

theorem State.Canonical.trapRegion (h : s.Canonical) (t th r c d v sup word pc) :
    (s.trapRegion t th r c d v sup word pc).Canonical :=
  (h.restoreThread ..).modThread ..

theorem State.Canonical.annealTurn (h : s.Canonical) (t) : (s.annealTurn t).Canonical := by
  unfold State.annealTurn
  split
  · exact h
  · split
    · exact h.annealForm ..
    · exact h

theorem State.Canonical.roundStart (h : s.Canonical) (lid lane) : (s.roundStart lid lane).Canonical := by
  unfold State.roundStart
  extract_lets
  split
  · exact h
  · exact h.modDet ..

theorem State.Canonical.execChunkCommit (h : s.Canonical) (t) : Keeps (execChunkCommit t s) := by
  unfold Machine.execChunkCommit
  split
  · exact trivial
  · next th _ =>
    split
    · exact trivial
    · extract_lets +onlyGivenNames lid lane ts asleep
      split
      · exact .next (h.wakeBanks ..)
      · extract_lets +onlyGivenNames s0 commitAll
        have h0 : s0.Canonical := h.roundStart ..
        have hall {a : State} (ha : a.Canonical) : (commitAll a).Canonical := by
          unfold commitAll
          split
          next b set e =>
          have hb : b.Canonical := by
            rw [← show Prod.fst _ = b from congrArg Prod.fst e]
            exact List.foldlRecOn ts _ (motive := fun x : State × LineSet => x.1.Canonical) ha fun _ hx _ _ =>
              State.Canonical.publishChunk hx Prod.mk.eta.symm
          extract_lets +onlyGivenNames c
          have hc : c.Canonical := hb.recordCommit ..
          split
          · exact hc.foldl fun _ _ hx => hx.modThread ..
          · exact (hc.foldl fun _ _ hx => hx.publishBars _).passTurn ..
        split
        · exact .next ((h0.recordCommit ..).passTurn ..)
        · exact .next ((State.Canonical.foldl (h0.recordCommit ..) fun _ _ hx => hx.publishBars _).passTurn ..)
        · extract_lets +onlyGivenNames next
          split
          · exact .next ((h0.recordCommit ..).modDet ..)
          · split
            · exact .next (((h0.trapRegion ..).recordCommit ..).passTurn ..)
            · split
              · exact .next (h0.squashChunk _)
              · split
                · exact .next ((((h0.commitRegion ..).modDet ..).recordCommit ..).passTurn ..)
                · exact .next (hall (h0.trapRegion ..))
                · exact .next (hall (h0.overTurn ..))
                · exact .next (hall h0)
        · exact .next (hall (h0.foldl fun _ _ hx => hx.annealTurn _))
        · split
          · exact .next (hall h0)
          · exact .next (h0.foldl fun _ _ hx => hx.squashChunk _)

/-! ### Functions of `Sys2Proof.Machine.Launch` -/

theorem State.Canonical.setWalker (h : s.Canonical) (w x) : (s.setWalker w x).Canonical := h.modDie ..

theorem State.Canonical.loadWalkers (h : s.Canonical) (lid r) : (s.loadWalkers lid r).Canonical := by
  unfold State.loadWalkers
  extract_lets
  split
  · exact h.modPkg ..
  · refine h.foldl fun _ _ ha => ?_
    extract_lets
    split
    · exact ha
    · exact ha.setWalker ..

theorem State.Canonical.serveWaiting (h : s.Canonical) : s.serveWaiting.Canonical := by
  unfold State.serveWaiting
  refine h.foldl fun _ _ ha => ?_
  extract_lets b
  have hb : b.Canonical := ha.modPkg ..
  split
  · exact hb
  · split
    · exact hb.loadWalkers ..
    · exact ha

theorem State.Canonical.freeIfDone (h : s.Canonical) (w) : (s.freeIfDone w).Canonical := by
  unfold State.freeIfDone
  extract_lets
  split
  · exact (h.setWalker ..).serveWaiting
  · exact h

theorem State.Canonical.writeArgs (h : s.Canonical) (r) : (s.writeArgs r).Canonical := by
  unfold State.writeArgs
  split
  · split
    · exact h.writeHome ..
    · exact h
  · exact h

theorem State.Canonical.armRecord (h : s.Canonical) {lid r} {a b} (e : s.armRecord lid r = (a, b)) : a.Canonical := by
  rw [← show Prod.fst _ = a from congrArg Prod.fst e]
  unfold State.armRecord
  extract_lets s0
  have hs0 : s0.Canonical := (h.journal ..).kick ..
  split
  · exact hs0.setRec ..
  · split
    · exact hs0
    · split
      · rename_i s1 e1
        have hs1 : s1.Canonical := hs0.takeId e1
        extract_lets s01 s11 _ s2
        have hs01 : s01.Canonical := hs1.modPkg ..
        have hs11 : s11.Canonical := ((hs01.setRec ..).modDie ..).writeArgs ..
        have hs2 : s2.Canonical := hs11.modPkg ..
        split
        · refine hs2.foldl fun _ _ ha => ?_
          split
          · exact (ha.push ..).modPkg ..
          · exact ha
        · exact hs11.loadWalkers ..

theorem State.Canonical.lrecEnd (h : s.Canonical) (t th lid sd v) : (lrecEnd s t th lid sd v).Keeps :=
  .done (h.modThread ..)

theorem State.Canonical.execLrecPatch (h : s.Canonical) (sa sb sd n) : Keeps (execLrecPatch sa sb sd n s) := by
  unfold Machine.execLrecPatch
  refine h.issue fun _ _ _ ha => ?_
  extract_lets
  split
  · exact ha.lrecEnd ..
  · split
    · exact ha.lrecEnd ..
    · extract_lets
      exact (ha.setRec ..).lrecEnd ..

theorem State.Canonical.execLrecQuery (h : s.Canonical) (sa sd n) : Keeps (execLrecQuery sa sd n s) := by
  unfold Machine.execLrecQuery
  refine h.issue fun _ _ _ ha => ?_
  extract_lets
  exact ha.lrecEnd ..

theorem State.Canonical.execLrecArm (h : s.Canonical) (sa sd) : Keeps (execLrecArm sa sd s) := by
  unfold Machine.execLrecArm
  refine h.issue fun _ _ _ ha => ?_
  extract_lets
  split
  · exact ha.lrecEnd ..
  · split
    · exact ha.lrecEnd ..
    · split
      · exact .park (ha.kick ..)
      · refine ha.release fun _ _ ha1 => ?_
        split
        · rename_i s1 _ e1
          have hs1 : s1.Canonical := ha1.armRecord e1
          exact hs1.lrecEnd ..

theorem State.Canonical.dropWalkers (h : s.Canonical) (lid) : (s.dropWalkers lid).Canonical :=
  (h.foldl (fun _ _ ha => ha.setWalker ..)).serveWaiting

theorem State.Canonical.execLrecWait (h : s.Canonical) (sa sd) : Keeps (execLrecWait sa sd s) := by
  unfold Machine.execLrecWait
  refine h.issue fun _ _ _ ha => ?_
  extract_lets
  split
  · exact ((ha.acquireAt ..).modThread ..).lrecEnd ..
  · exact ha.lrecEnd ..
  · split
    · exact ((ha.acquireAt ..).modThread ..).lrecEnd ..
    · exact .park ha

theorem State.Canonical.execWalkerHandout (h : s.Canonical) (w core) : Keeps (execWalkerHandout w core s) := by
  unfold Machine.execWalkerHandout
  split
  · exact trivial
  · split
    · exact trivial
    · extract_lets
      exact .next (((h.setWalker ..).modPkg ..).push ..)

theorem State.Canonical.execWalkerSplit (h : s.Canonical) (victim thief free) :
    Keeps (execWalkerSplit victim thief free s) := by
  unfold Machine.execWalkerSplit
  extract_lets
  split
  · exact trivial
  · exact .next ((h.setWalker ..).setWalker ..)

theorem State.Canonical.queueDone (h : s.Canonical) (lid) : (s.queueDone lid).Canonical := by
  unfold State.queueDone
  split
  · exact h
  · exact h.modDie ..

theorem State.Canonical.checkComplete (h : s.Canonical) (lid) : (s.checkComplete lid).Canonical := by
  unfold State.checkComplete
  split
  · exact h
  · split
    · exact h
    · split
      · exact h.setRec ..
      · split
        · exact ((h.kick ..).queueDone ..).push ..
        · exact h

theorem State.Canonical.decSuccessor (h : s.Canonical) (lid asid succ) : (s.decSuccessor lid asid succ).Canonical := by
  unfold State.decSuccessor
  extract_lets _ s0
  have hs0 : s0.Canonical := h.journal ..
  split
  · exact h
  · split
    · exact h.modRec ..
    · extract_lets _ s1
      have hs1 : s1.Canonical := hs0.setRec ..
      split
      · exact hs1.armRecord rfl
      · exact hs1

theorem State.Canonical.execLaunchCompletion (h : s.Canonical) (lid) : Keeps (execLaunchCompletion lid s) := by
  unfold Machine.execLaunchCompletion
  refine h.perform fun _ ha => ?_
  split
  · exact ha
  · split
    · exact ha
    · extract_lets s1 s2
      have hs1 : s1.Canonical := ((ha.journal ..).kick ..).dropWalkers ..
      have hs2 : s2.Canonical := hs1.setRec ..
      exact hs2.foldl fun _ _ ha1 => ha1.decSuccessor ..

/-! ### Functions of `Sys2Proof.Machine.Ring` -/

theorem State.Canonical.setBob (h : s.Canonical) (b' x) : (s.setBob b' x).Canonical := h.of_eq rfl rfl

theorem State.Canonical.setHoldBuf (h : s.Canonical) (core i x) : (s.setHoldBuf core i x).Canonical := h.modR ..

theorem State.Canonical.ringWord (h : s.Canonical) {detOk bob vx k x x1}
    (hk : ∀ a x1 x2, a.Canonical → (k a x1 x2).Keeps) :
    (ringWord detOk bob vx k s x x1).Keeps := by
  unfold Machine.ringWord
  split
  · exact .trap h
  · split
    · exact .trap h
    · split
      · extract_lets
        exact .trap (h.setThread ..)
      · split
        · split
          · exact .trap h
          · extract_lets
            split
            · exact .park (h.setThread ..)
            · exact hk _ _ _ (h.setThread ..)
        · split
          · exact .trap h
          · extract_lets
            split
            · exact .park (h.setThread ..)
            · exact hk _ _ _ (h.setThread ..)

theorem State.Canonical.ringQueue (h : s.Canonical) (t core b' fn) : (s.ringQueue t core b' fn).Canonical := by
  unfold State.ringQueue
  split
  · rename_i s1 e
    have hs1 : s1.Canonical := h.takeId e
    exact hs1.modR ..

theorem State.Canonical.execRingPeek (h : s.Canonical) (sa sd w) : Keeps (execRingPeek sa sd w s) := by
  unfold Machine.execRingPeek
  refine h.issue fun _ _ _ ha => ha.ringWord (fun _ _ _ ha1 => ?_)
  extract_lets
  exact .done ((ha1.setThread ..).ringQueue ..)

theorem State.Canonical.execRingBoard (h : s.Canonical) (sa sd hn) : Keeps (execRingBoard sa sd hn s) := by
  unfold Machine.execRingBoard
  refine h.issue fun _ _ _ ha => ha.viaRequest (fun _ => ha.ringWord (fun _ _ _ ha1 => ?_))
  split
  · exact .done (ha1.setThread ..)
  · split
    · exact .done (ha1.setThread ..)
    · extract_lets _ _ _ _ _ s1
      have hs1 : s1.Canonical := (ha1.setThread ..).setHoldBuf ..
      exact .park (hs1.ringQueue ..)

theorem State.Canonical.heldName (h : s.Canonical) {hn k th} (hk : ∀ x0, (k x0).Keeps) :
    (heldName hn k s th).Keeps := by
  unfold Machine.heldName
  extract_lets
  split
  · exact hk _
  · exact .park h
  · exact .trap h

theorem State.Canonical.execRingHget (h : s.Canonical) (sd w hn) : Keeps (execRingHget sd w hn s) :=
  h.issue fun _ _ _ ha => ha.ringWord (fun _ _ _ ha1 => ha1.heldName (fun _ => .done (ha1.setThread ..)))

theorem State.Canonical.execRingHset (h : s.Canonical) (sa w hn) : Keeps (execRingHset sa w hn s) := by
  unfold Machine.execRingHset
  refine h.issue fun _ _ _ ha => ha.ringWord (fun _ _ _ ha1 => ha1.heldName (fun _ => ?_))
  extract_lets
  exact .done ((ha1.setHoldBuf ..).setThread ..)

theorem State.Canonical.leaveHold (h : s.Canonical) (hn fn x x1) : (leaveHold hn fn s x x1).Keeps :=
  h.ringWord fun _ _ _ ha => ha.heldName (fun _ => .done ((ha.setThread ..).ringQueue ..))

theorem State.Canonical.execRingAlight (h : s.Canonical) (hn) : Keeps (execRingAlight hn s) :=
  h.issue fun _ _ _ ha => ha.leaveHold ..

theorem State.Canonical.execRingRel (h : s.Canonical) (hn) : Keeps (execRingRel hn s) :=
  h.issue fun _ _ _ ha => ha.leaveHold ..

theorem State.Canonical.combine (h : s.Canonical) (sa fn x x1) : (combine sa fn s x x1).Keeps := by
  unfold Machine.combine
  refine h.ringWord fun _ _ _ ha => ?_
  extract_lets
  split
  · split
    · exact .done (ha.endChunk ..)
    · exact .done (ha.setThread ..)
  · exact .done ((ha.setThread ..).ringQueue ..)

theorem State.Canonical.execRingRadd (h : s.Canonical) (sa sb w) : Keeps (execRingRadd sa sb w s) :=
  h.issue fun _ _ _ ha => ha.combine ..

theorem State.Canonical.execRingRmax (h : s.Canonical) (sa sb sgn w) : Keeps (execRingRmax sa sb sgn w s) :=
  h.issue fun _ _ _ ha => ha.combine ..

theorem State.Canonical.markPassed (h : s.Canonical) (b' k) : (s.markPassed b' k).Canonical := h.of_eq rfl rfl

theorem State.Canonical.endHold (h : s.Canonical) (t h' buf lost) : (s.endHold t h' buf lost).Canonical :=
  h.modThread ..

theorem State.Canonical.maybe_ringPerform (h : s.Canonical) (st t o) : MaybeKeeps (s.ringPerform st t o) := by
  unfold State.ringPerform
  extract_lets +onlyGivenNames x mine foreign endBuf fill past
  have hend {b : State} (hb : b.Canonical) (n k) : (endBuf b n k).Canonical := (hb.endHold ..).setHoldBuf ..
  have hfill {b : State} (hb : b.Canonical) (f) : (fill b f).Canonical := hb.modR ..
  have hpast {b : State} (hb : b.Canonical) : (past b).Canonical := hb.modR ..
  have hdrop {p : Prop} [Decidable p] {y} : (if p then s.setBob o.bobbin y else s).Canonical := by
    split
    · exact h.setBob ..
    · exact h
  split
  · exact .some (hfill h _)
  · split
    · split
      · exact .some (hfill ((h.setHoldBuf ..).modThread ..) _)
      · exact .some (hfill (((h.setBob ..).setHoldBuf ..).modThread ..) _)
    · exact .none
  · refine .some (hend ?_ ..)
    split
    · exact hpast (h.setBob ..)
    · exact h
  · exact .some (hend hdrop ..)
  · exact .some hdrop
  · split
    · exact .none
    · split
      · exact .some h
      · exact .some (hpast (h.setBob ..))
  · split
    · exact .none
    · split
      · exact .some h
      · exact .some (hpast (h.setBob ..))

theorem State.Canonical.ringPerform (h : s.Canonical) {st t o a} (e : s.ringPerform st t o = some a) : a.Canonical :=
  h.maybe_ringPerform st t o a e

theorem State.Canonical.refuseBoard (h : s.Canonical) (st o) : (s.refuseBoard st o).Canonical := by
  unfold State.refuseBoard
  extract_lets
  split
  · split
    · exact h
    · exact h.setBob ..
  · exact h

theorem State.Canonical.ringOps (h : s.Canonical) (st b t l late) : (ringOps st b t l late s).Canonical := by
  induction l generalizing s late with
  | nil => exact h
  | cons o l ih =>
    unfold Machine.ringOps
    split
    · split
      · next e => exact ih ((h.ringPerform e).modR ..) _
      · exact ih (h.refuseBoard ..) _
    · exact ih h _

theorem State.Canonical.lostNotices (h : s.Canonical) (st b') : (s.lostNotices st b').Canonical := by
  unfold State.lostNotices
  refine h.foldl fun _ _ ha => ?_
  extract_lets
  split
  · split
    · exact ((ha.setHoldBuf ..).modR ..).modThread ..
    · exact (ha.setHoldBuf ..).modR ..
  · exact ha

theorem State.Canonical.ringFill (h : s.Canonical) (f) : (s.ringFill f).Canonical := by
  unfold State.ringFill
  split
  · exact h.modThread ..
  · extract_lets s1
    have hs1 : s1.Canonical := h.modThread ..
    split
    · exact hs1.defer ..
    · exact hs1

theorem State.Canonical.execStationPassage (h : s.Canonical) (b' st) : Keeps (execStationPassage b' st s) := by
  unfold Machine.execStationPassage
  split
  · exact trivial
  · split
    · split
      · exact .next ((h.modR ..).foldl (fun _ _ ha => ha.ringFill ..))
    · extract_lets s1 _ s2
      have hs1 : s1.Canonical := (h.markPassed ..).ringOps ..
      have hs2 : s2.Canonical := by
        unfold s2
        split
        · exact hs1.setBob ..
        · exact hs1
      exact .next (hs2.lostNotices ..)

theorem State.Canonical.execSeamCrossing (h : s.Canonical) (b') : Keeps (execSeamCrossing b' s) := by
  unfold Machine.execSeamCrossing
  split
  · exact trivial
  · extract_lets s1 _ _ _ _ s2 s3
    have hs1 : s1.Canonical := h.markPassed ..
    have hs2 : s2.Canonical := hs1.setBob ..
    have hs3 : s3.Canonical := hs2.of_eq rfl rfl
    refine .next ?_
    split
    · exact hs3.urge ..
    · exact hs3

theorem State.Canonical.execHoldBreak (h : s.Canonical) (b') : Keeps (execHoldBreak b' s) := by
  unfold Machine.execHoldBreak
  extract_lets _ _ s1
  have hs1 : s1.Canonical := h.setBob ..
  split
  · refine .next ?_
    split
    · exact hs1
    · exact hs1.setHoldBuf ..
  · exact trivial

/-! ### Functions of `Sys2Proof.Machine.Tasks` -/

theorem State.Canonical.setLpu (h : s.Canonical) (core asid) : (s.setLpu core asid).Canonical := h.modM ..

theorem State.Canonical.takeWindow (h : s.Canonical) (core asid) : (s.takeWindow core asid).Canonical := by
  unfold State.takeWindow
  extract_lets
  exact h.modR ..

theorem State.Canonical.dropWindow (h : s.Canonical) (core asid) : (s.dropWindow core asid).Canonical := by
  unfold State.dropWindow
  split
  · exact h
  · exact h.modR ..

theorem State.Canonical.clearFmt (h : s.Canonical) (core base len) : (s.clearFmt core base len).Canonical := h.modM ..

theorem State.Canonical.allocate (h : s.Canonical) (core base len asid t) :
    (s.allocate core base len asid t).Canonical := by
  unfold State.allocate
  extract_lets s1
  have hs1 : s1.Canonical := (h.clearFmt ..).modM ..
  exact ((hs1.zero ..).fillFe ..).setLpu ..

theorem State.Canonical.execTaskStart (h : s.Canonical) (r) : Keeps (execTaskStart r s) := by
  unfold Machine.execTaskStart
  refine h.perform fun _ ha => ?_
  split
  · extract_lets _ _ _ _ _ s1 s2 s3 s4
    have hs1 : s1.Canonical := (ha.setThread ..).modK ..
    have hs2 : s2.Canonical := hs1.modE ..
    have hs3 : s3.Canonical := (hs2.takeWindow ..).acquireAt ..
    have hs4 : s4.Canonical := by
      unfold s4
      split
      · exact hs3.setRec ..
      · exact hs3
    split
    · exact hs4
    · exact (hs4.allocate ..).push ..
  · exact ha

theorem State.Canonical.initSpad (h : s.Canonical) (core base len i) : (s.initSpad core base len i).Canonical := by
  unfold State.initSpad
  extract_lets s1
  have hs1 : s1.Canonical := h.modM ..
  exact hs1.foldl fun _ _ ha => ha.wr ..

theorem State.Canonical.execAllocationClearDone (h : s.Canonical) (t) : Keeps (execAllocationClearDone t s) := by
  unfold Machine.execAllocationClearDone
  refine h.perform fun _ ha => ?_
  split
  · exact ha
  · split
    · extract_lets s1
      have hs1 : s1.Canonical := ha.touchBank ..
      exact (hs1.modM ..).push ..
    · extract_lets s1
      have hs1 : s1.Canonical := by
        unfold s1
        split
        · exact ha.initSpad ..
        · exact ha
      exact hs1.modThread ..

theorem State.Canonical.execReleaseClearDone (h : s.Canonical) (core base) :
    Keeps (execReleaseClearDone core base s) := by
  unfold Machine.execReleaseClearDone
  refine h.perform fun _ ha => ?_
  split
  · exact ha
  · exact (ha.modM ..).clearFmt ..

theorem State.Canonical.releaseSpad (h : s.Canonical) (t core asid) : (s.releaseSpad t core asid).Canonical := by
  unfold State.releaseSpad
  split
  · exact h
  · extract_lets s1
    have hs1 : s1.Canonical := h.modM ..
    exact (((hs1.zero ..).fillFe ..).setLpu ..).push ..

theorem State.Canonical.releaseHolds (h : s.Canonical) (th t) : (s.releaseHolds th t).Canonical := by
  unfold State.releaseHolds
  refine h.foldl fun _ _ ha => ?_
  split
  · split
    · rename_i s1 e1
      have hs1 : s1.Canonical := ha.takeId e1
      exact hs1.modR ..
  · exact ha

theorem State.Canonical.retireTile (h : s.Canonical) (th) : (s.retireTile th).Canonical := by
  unfold State.retireTile
  split
  · exact h
  · extract_lets _ s1
    have hs1 : s1.Canonical := by
      unfold s1
      split
      · extract_lets
        split
        · exact h.setWalker ..
        · exact h
      · exact h
    exact hs1.modRec ..

theorem State.Canonical.freeWalkerOf (h : s.Canonical) (th) : (s.freeWalkerOf th).Canonical := by
  unfold State.freeWalkerOf
  split
  · exact h.freeIfDone ..
  · exact h

theorem State.Canonical.nextOrdinal (h : s.Canonical) (th) : (s.nextOrdinal th).Canonical := by
  unfold State.nextOrdinal
  split
  · extract_lets
    split
    · exact (h.push ..).modPkg ..
    · exact h
  · exact h

theorem State.Canonical.freeTid (h : s.Canonical) (t core) : (s.freeTid t core).Canonical := by
  unfold State.freeTid
  split
  · exact h.modK ..
  · exact h.push ..

theorem State.Canonical.dismiss (h : s.Canonical) (t th) : (s.dismiss t th).Canonical := by
  unfold State.dismiss
  extract_lets s1 s2 s21 s3 s4
  have hs1 : s1.Canonical := ((h.leaveTags ..).endFpReport ..).releaseHolds ..
  have hs2 : s2.Canonical := hs1.modE ..
  have hs21 : s21.Canonical := hs2.modE ..
  have hs3 : s3.Canonical := hs21.releaseSpad ..
  have hs4 : s4.Canonical := hs3.of_eq rfl rfl
  exact ((hs4.freeTid ..).dropWindow ..).seatArrival ..

theorem State.Canonical.endThread (h : s.Canonical) (t th) : (s.endThread t th).Canonical := by
  unfold State.endThread
  extract_lets s1 s2 s3 s4
  have hs1 : s1.Canonical := (h.dismiss ..).retireTile ..
  have hs2 : s2.Canonical := by
    unfold s2
    split
    · exact hs1.modRec ..
    · exact hs1
  have hs3 : s3.Canonical := hs2.modPkg ..
  have hs4 : s4.Canonical := (hs3.nextOrdinal ..).freeWalkerOf ..
  split
  · exact hs4
  · exact hs4.checkComplete ..

theorem State.Canonical.cancelRecord (h : s.Canonical) (lid r) : (s.cancelRecord lid r).Canonical := by
  unfold State.cancelRecord
  extract_lets s0 _ s1 s2 s3
  have hs0 : s0.Canonical := h.journal ..
  have hs1 : s1.Canonical := hs0.of_eq rfl rfl
  have hs2 : s2.Canonical := hs1.dropWalkers ..
  have hs3 : s3.Canonical := hs2.foldl fun _ _ ha => ha.dismiss ..
  split
  · exact (hs3.modPkg ..).setRec ..
  · exact hs2.setRec ..

theorem State.Canonical.execLrecCancel (h : s.Canonical) (sa sd) : Keeps (execLrecCancel sa sd s) := by
  unfold Machine.execLrecCancel
  refine h.issue fun _ _ _ ha => ?_
  extract_lets
  split
  · exact ha.lrecEnd ..
  · split
    · exact ha.lrecEnd ..
    · exact (ha.cancelRecord ..).lrecEnd ..

theorem State.Canonical.execTaskExit (h : s.Canonical) : Keeps (execTaskExit s) := by
  unfold Machine.execTaskExit
  refine h.issue fun _ _ _ ha => ?_
  split
  · exact .trap ha
  · split
    · exact .done (ha.endChunk ..)
    · split
      · exact .park ha
      · split
        · exact .park ha
        · refine ha.release fun _ _ ha1 => ?_
          split
          · exact .park ha1
          · split
            · exact .park ha1
            · exact .done (ha1.endThread ..)

theorem State.Canonical.execTidReleaseMessage (h : s.Canonical) (t) : Keeps (execTidReleaseMessage t s) :=
  h.perform fun _ ha => ha.modK ..

theorem State.Canonical.nextTile (h : s.Canonical) (t th sd) : (s.nextTile t th sd).Canonical := by
  unfold State.nextTile
  extract_lets s1
  have hs1 : s1.Canonical := h.retireTile ..
  split
  · split
    · extract_lets
      exact ((hs1.setWalker ..).modPkg ..).setThread ..
    · exact (hs1.setThread ..).freeIfDone ..
  · exact hs1.setThread ..

theorem State.Canonical.execWalkNext (h : s.Canonical) (sd) : Keeps (execWalkNext sd s) := by
  unfold Machine.execWalkNext
  refine h.issue fun _ _ _ ha => ?_
  split
  · exact .trap ha
  · refine ha.release fun _ _ ha1 => ?_
    split
    · exact .done (ha1.setThread ..)
    · split
      · exact .park ha1
      · exact .done (ha1.nextTile ..)

theorem State.Canonical.execWalkInfo (h : s.Canonical) (sd sel) : Keeps (execWalkInfo sd sel s) := by
  unfold Machine.execWalkInfo
  refine h.issue fun _ _ _ ha => ?_
  extract_lets
  exact .done (ha.setThread ..)

/-! ### Functions of `Sys2Proof.Machine.Ume` -/

theorem State.Canonical.umeWord (h : s.Canonical) {k x x1} (hk : ∀ a x1 x2, a.Canonical → (k a x1 x2).Keeps) :
    (umeWord k s x x1).Keeps := by
  unfold Machine.umeWord
  split
  · exact .trap h
  · exact hk _ _ _ h

theorem State.Canonical.execUmeCfg (h : s.Canonical) (sa sd ctx) : Keeps (execUmeCfg sa sd ctx s) := by
  unfold Machine.execUmeCfg
  refine h.issue fun _ _ _ ha => ha.umeWord (fun _ _ _ ha1 => ?_)
  extract_lets
  split
  · split
    · exact .done (ha1.setThread ..)
    · split
      · exact .done (ha1.setThread ..)
      · split
        · exact .done (ha1.setThread ..)
        · exact .done ((ha1.setUme ..).setThread ..)
  · split
    · split
      · exact .trap ha1
      · split
        · rename_i s1 e1
          have hs1 : s1.Canonical := ha1.takeId e1
          exact .done ((hs1.setThread ..).push ..)
    · exact .trap ha1

theorem State.Canonical.execUmeRound (h : s.Canonical) (sa sd ctx) : Keeps (execUmeRound sa sd ctx s) := by
  unfold Machine.execUmeRound
  refine h.issue fun _ _ _ ha => ha.umeWord (fun _ _ _ ha1 => ?_)
  extract_lets
  split
  · rename_i s1 e
    have hs1 : s1.Canonical := ha1.takeId e
    extract_lets _ s2
    have hs2 : s2.Canonical := hs1.setThread ..
    split
    · exact .done ((hs2.modThread ..).endChunk ..)
    · exact .done (hs2.push ..)

theorem State.Canonical.execUmeStat (h : s.Canonical) (sd sel ctx) : Keeps (execUmeStat sd sel ctx s) := by
  unfold Machine.execUmeStat
  refine h.issue fun _ _ _ ha => ha.umeWord (fun _ _ _ ha1 => ?_)
  extract_lets
  exact .done (ha1.setThread ..)

theorem State.Canonical.execUmeDirty (h : s.Canonical) (sd ctx) : Keeps (execUmeDirty sd ctx s) := by
  unfold Machine.execUmeDirty
  refine h.issue fun _ _ _ ha => ha.umeWord (fun _ _ _ ha1 => ?_)
  extract_lets
  exact .done (ha1.setThread ..)

theorem State.Canonical.homeRead (h : s.Canonical) (a' ea n) : (s.homeRead a' ea n).Keeps := by
  unfold State.homeRead
  split
  · split
    · exact .err h
    · split
      · rename_i s1 e1
        have hs1 : s1.Canonical := (h.readGlobal ..).of_eq e1
        exact .ok hs1
      · rename_i s1 e1
        have hs1 : s1.Canonical := (h.readGlobal ..).of_eq e1
        exact .err hs1
      · split
        · exact .err h
        · exact trivial
  · exact .err h

theorem State.Canonical.umeLoad (h : s.Canonical) {r b'} {a b} (e : s.umeLoad r b' = (a, b)) : b.Canonical := by
  rw [← show Prod.snd _ = b from congrArg Prod.snd e]
  unfold State.umeLoad
  extract_lets
  split
  · exact h
  · split
    · exact h
    · split
      · exact h
      · split
        · exact h.modThread ..
        · exact h.setUme ..

theorem State.Canonical.execUmeCfgBlockRead (h : s.Canonical) (r) : Keeps (execUmeCfgBlockRead r s) := by
  unfold Machine.execUmeCfgBlockRead
  refine h.perform fun _ ha => ?_
  extract_lets
  split
  · rename_i s2 e
    have hs2 : s2.Canonical := (ha.homeRead ..).of_eq e
    exact hs2.modThread ..
  · exact ha.holdAt ..
  · rename_i s2 _ e
    have hs2 : s2.Canonical := (ha.homeRead ..).of_eq e
    split
    · rename_i s21 e1
      have hs21 : s21.Canonical := (hs2.homeRead ..).of_eq e1
      exact hs21.modThread ..
    · exact ha.holdAt ..
    · rename_i s21 _ e1
      have hs21 : s21.Canonical := (hs2.homeRead ..).of_eq e1
      split
      · rename_i s3 e2
        have hs3 : s3.Canonical := hs21.umeLoad e2
        exact hs3.modThread ..

theorem State.Canonical.readList (h : s.Canonical) (a n l acc) : (readList a n l s acc).Keeps := by
  induction l generalizing s acc with
  | nil => exact .ok h
  | cons x l ih =>
    unfold Machine.readList
    split
    · next e => exact ih ((h.homeRead ..).of_eq e) _
    · next e => exact .err ((h.homeRead ..).of_eq e)
    · exact trivial

theorem State.Canonical.checkList (h : s.Canonical) (a l) : (checkList a l s).Keeps := by
  induction l with
  | nil => exact .ok h
  | cons x l ih =>
    unfold Machine.checkList
    split
    · split
      · exact ih
      · split
        · exact .err h
        · exact trivial
    · exact .err h

theorem State.Canonical.writeList (h : s.Canonical) (a n l ls) : (writeList a n l s ls).Keeps := by
  induction l generalizing s ls with
  | nil => exact .ok h
  | cons x l ih =>
    unfold Machine.writeList
    split
    · split
      · next e => exact ih ((h.engWrite ..).of_eq e) _
      · next e => exact .err ((h.engWrite ..).of_eq e)
      · exact trivial
    · exact .err h

theorem URun.Keeps.bind {α β : Type} {r : URun α} (h : r.Keeps) {f : α → State → URun β}
    (hf : ∀ v a, a.Canonical → (f v a).Keeps) : (r.bind f).Keeps := by
  cases r with
  | ok v a => exact hf v a h
  | err c ea a => exact h
  | hold ea e => exact trivial

theorem State.Canonical.umeRunRound (h : s.Canonical) (a reg n) : (umeRunRound a reg n s).Keeps := by
  refine (h.readList ..).bind fun _ s h => (h.readList ..).bind fun _ s h => (h.readList ..).bind fun _ s h => ?_
  refine (h.checkList ..).bind fun _ s h => (h.writeList ..).bind fun _ s h => (h.writeList ..).bind fun _ s h => ?_
  exact (h.writeList ..).bind fun _ s h => (h.writeList ..).bind fun _ s h => .ok h

theorem State.Canonical.execUmeRoundExecution (h : s.Canonical) (r) : Keeps (execUmeRoundExecution r s) := by
  unfold Machine.execUmeRoundExecution
  refine h.perform fun _ ha => ?_
  extract_lets s1
  have hs1 : s1.Canonical := ha.engineRelease ..
  split
  · exact hs1.push ..
  · split
    · exact hs1.push ..
    · split
      · exact hs1.push ..
      · split
        · rename_i s11 e
          have hs11 : s11.Canonical := (hs1.umeRunRound ..).of_eq e
          exact (hs11.setUme ..).push ..
        · rename_i s11 e
          have hs11 : s11.Canonical := (hs1.umeRunRound ..).of_eq e
          exact hs11.push ..
        · exact hs1.holdAt ..

theorem State.Canonical.execUmeRoundCompletion (h : s.Canonical) (r) : Keeps (execUmeRoundCompletion r s) := by
  unfold Machine.execUmeRoundCompletion
  refine h.perform fun _ ha => ?_
  extract_lets _ _ s1 s11 s2
  have hs1 : s1.Canonical := ha.setUme ..
  have hs11 : s11.Canonical := by
    unfold s11
    split
    · exact (hs1.enginePublish ..).touchLines ..
    · split
      · exact ha.setUme ..
      · exact ha
  have hs2 : s2.Canonical := by
    unfold s2
    split
    · split
      · exact hs11.recordCommit ..
      · exact hs11
    · exact hs11
  exact hs2.modThread ..

end Sys2Proof.Machine
end

section
/-! Memory stays canonical: service, fabric, management, boot and scheduling. -/

namespace Sys2Proof.Machine

variable {s : State}

/-! ### Functions of `Sys2Proof.Machine.Service` -/

theorem State.Canonical.cancelBoards (h : s.Canonical) (t core) : (s.cancelBoards t core).Canonical := by
  unfold State.cancelBoards
  refine h.foldl fun _ _ ha => ?_
  split
  · split
    · exact ((ha.modR ..).setHoldBuf ..).modThread ..
    · exact ha
  · exact ha

theorem State.Canonical.cancelWait (h : s.Canonical) (t) : (s.cancelWait t).Canonical := by
  unfold State.cancelWait
  split
  · exact h
  · split
    · exact h.setThread ..
    · extract_lets _ s1 s2
      have hs1 : s1.Canonical := h.of_eq rfl rfl
      have hs2 : s2.Canonical := (hs1.dropRelease ..).cancelBoards ..
      exact hs2.modThread ..

theorem State.Canonical.cancelForStop (h : s.Canonical) (t) : (s.cancelForStop t).Canonical := by
  unfold State.cancelForStop
  split
  · exact h
  · exact h.cancelWait ..

theorem State.Canonical.dropAccesses (h : s.Canonical) (t) : (s.dropAccesses t).Canonical := by
  unfold State.dropAccesses
  extract_lets
  exact h.of_eq rfl rfl

theorem State.Canonical.disarm (h : s.Canonical) (ms) : (s.disarm ms).Canonical := h.foldl fun _ _ ha => ha.modThread ..

theorem State.Canonical.breakGang (h : s.Canonical) (t th) : (s.breakGang t th).Canonical := by
  unfold State.breakGang
  split
  · exact h
  · split
    · exact h.foldl fun _ _ ha => ha.modThread ..
    · extract_lets _ s0 s1 s2
      have hs0 : s0.Canonical := by
        refine h.foldl fun _ _ ha => ?_
        split
        · exact ha.modK ..
        · exact ha
      have hs1 : s1.Canonical := (hs0.foldl (fun _ _ ha => ha.cancelWait ..)).disarm ..
      have hs2 : s2.Canonical := by
        refine hs1.foldl fun _ _ ha => ?_
        split
        · exact ha
        · split
          · exact ha.gangTrap ..
          · exact ha
      exact hs2.disband ..

theorem State.Canonical.requeue (h : s.Canonical) (lid ord from_) : (s.requeue lid ord from_).Canonical := by
  have h1 : (match from_ with
      | some w =>
        let x := s.walker w
        if x.active && x.lid == lid then s.setWalker w { x with inflight := x.inflight.erase ord } else s
      | none => s).Canonical := by
    split
    · dsimp only
      split
      · exact h.setWalker ..
      · exact h
    · exact h
  unfold State.requeue
  extract_lets s1 ok ws own pick
  cases pick with
  | some e => exact State.Canonical.setWalker h1 ..
  | none => exact h1

theorem State.Canonical.freeWalkers (h : s.Canonical) (lid) : (s.freeWalkers lid).Canonical :=
  h.foldl fun _ _ ha => ha.freeIfDone ..

theorem State.Canonical.cancelDet (h : s.Canonical) (lid) : (s.cancelDet lid).Canonical := by
  unfold State.cancelDet
  split
  · split
    · exact h
    · exact (h.cancelRecord ..).send ..
  · exact h

theorem State.Canonical.evict (h : s.Canonical) (t) : (s.evict t).Canonical := by
  unfold State.evict
  split
  · exact h
  · extract_lets _ s1
    have hs1 : s1.Canonical := ((h.breakGang ..).cancelWait ..).dropAccesses ..
    split
    · exact hs1
    · extract_lets s2 s3 s4
      have hs2 : s2.Canonical := (hs1.endPriority ..).dismiss ..
      have hs3 : s3.Canonical := (hs2.modRec ..).modPkg ..
      have hs4 : s4.Canonical := by
        unfold s4
        split
        · exact hs3.cancelDet ..
        · split
          · exact (hs3.requeue ..).freeWalkers ..
          · exact hs3
      split
      · exact hs2.modCluster ..
      · exact hs4.checkComplete ..

theorem State.Canonical.divert (h : s.Canonical) (r) : (s.divert r).Canonical := by
  unfold State.divert
  extract_lets s1
  have hs1 : s1.Canonical := by
    refine .modPkg ?_ ..
    exact h.of_eq rfl rfl
  split
  · exact hs1.cancelDet ..
  · exact (hs1.requeue ..).freeWalkers ..

theorem State.Canonical.evictAll (h : s.Canonical) (core n) : (s.evictAll core n).Canonical := by
  induction n generalizing s with
  | zero => exact h
  | succ n ih => exact ih (h.foldl fun a t ha => ha.evict t)

theorem State.Canonical.retireCore (h : s.Canonical) (core) : (s.retireCore core).Canonical := by
  unfold State.retireCore
  extract_lets s0 s1
  have hs0 : s0.Canonical := h.modK ..
  have hs1 : s1.Canonical := hs0.of_eq rfl rfl
  exact (((hs1.foldl (fun _ _ ha => ha.divert ..)).evictAll ..).record ..).send ..

theorem State.Canonical.handOver (h : s.Canonical) (w) : (s.handOver w).Canonical := by
  unfold State.handOver
  extract_lets
  split
  · exact h
  · split
    · exact h.setWalker ..
    · extract_lets
      split
      · exact (h.setWalker ..).setWalker ..
      · split
        · exact (h.setWalker ..).setWalker ..
        · exact h

theorem State.Canonical.retireCluster (h : s.Canonical) (k) : (s.retireCluster k).Canonical := by
  unfold State.retireCluster
  extract_lets s1
  have hs1 : s1.Canonical := by
    refine h.foldl fun _ _ ha => ?_
    split
    · exact ha
    · exact ha.retireCore ..
  exact (((hs1.handOver ..).handOver ..).record ..).send ..

theorem State.Canonical.failPart (h : s.Canonical) (p) : (s.failPart p).Canonical := by
  unfold State.failPart
  split
  · exact ((h.modK ..).postCoreFault ..).retireCore ..
  · exact h.retireCluster ..
  · exact ((h.modDie ..).record ..).send ..
  · exact ((h.modDie ..).record ..).send ..
  · refine .send (.record ?_ ..) ..
    exact h.of_eq rfl rfl
  · exact h.setBob ..
  · exact h.postCoreFault ..

theorem State.Canonical.execCoreLastingFault (h : s.Canonical) (p) : Keeps (execCoreLastingFault p s) := by
  unfold Machine.execCoreLastingFault
  split
  · exact .next (h.failPart ..)
  · exact trivial

theorem State.Canonical.haltCore (h : s.Canonical) (core) : (s.haltCore core).Canonical := by
  unfold State.haltCore
  split
  · exact h
  · extract_lets s1
    have hs1 : s1.Canonical := h.modK ..
    exact hs1.foldl fun _ _ ha => ha.cancelForStop ..

theorem State.Canonical.haltForm (h : s.Canonical) {sa sd k}
    (hk : ∀ c m a th b v, a.Canonical → k c m a th = .ok (b, v) → b.Canonical) : Keeps (haltForm sa sd k s) := by
  refine h.issue fun a t th ha => ?_
  dsimp only
  split
  · exact .done (ha.modThread ..)
  · split
    · exact .done (ha.modThread ..)
    · split
      · exact .park (State.Canonical.modThread (ha.foldl fun b m hb => hb.haltCore m) ..)
      · next e => exact .done ((hk _ _ _ _ _ _ ha e).modThread ..)

theorem State.Canonical.execTaskHaltHalt (h : s.Canonical) (sa sd) : Keeps (execTaskHaltHalt sa sd s) := by
  refine h.haltForm fun c m a th b v ha e => ?_
  split at e
  · cases e
    exact ha
  · dsimp only at e
    split at e
    · cases e
      exact ha.foldl fun _ _ hx => hx.haltCore _
    · cases e

theorem State.Canonical.execTaskHaltResume (h : s.Canonical) (sa sd) : Keeps (execTaskHaltResume sa sd s) := by
  refine h.haltForm fun c m a th b v ha e => ?_
  split at e
  · cases e
    exact ha
  · cases e
    refine State.Canonical.modK ?_ ..
    split
    · exact ha.modThread ..
    · exact ha

theorem State.Canonical.execTaskHaltRetire (h : s.Canonical) (sa sd) : Keeps (execTaskHaltRetire sa sd s) := by
  refine h.haltForm fun c m a th b v ha e => ?_
  split at e
  · cases e
    exact ha
  · rw [← (Prod.mk.inj (Except.ok.inj e)).1]
    exact ha.retireCore _

theorem State.Canonical.loseHolds (h : s.Canonical) (t) : (s.loseHolds t).Canonical := by
  unfold State.loseHolds
  split
  · exact h
  · refine h.foldl fun _ _ ha => ?_
    split
    · extract_lets
      exact ((ha.ringQueue ..).setHoldBuf ..).modThread ..
    · exact ha

theorem State.Canonical.stopThread (h : s.Canonical) (t) : (s.stopThread t).Canonical := by
  unfold State.stopThread
  split
  · exact h
  · extract_lets _ s0 s1
    have hs0 : s0.Canonical := h.dropHold ..
    have hs1 : s1.Canonical := by
      unfold s1
      split
      · exact hs0.setThread ..
      · exact hs0
    exact ((hs1.cancelForStop ..).loseHolds ..).modThread ..

theorem State.Canonical.stopParked (h : s.Canonical) : s.stopParked.Canonical := h.foldl fun _ _ ha => ha.stopThread ..

theorem State.Canonical.execPreemptionRequest (h : s.Canonical) : Keeps (execPreemptionRequest s) := by
  unfold Machine.execPreemptionRequest
  split
  · exact trivial
  · exact .next ((h.modPkg ..).stopParked)

theorem State.Canonical.stopAll (h : s.Canonical) (ts) : (s.stopAll ts).Canonical := by
  unfold State.stopAll
  refine h.foldl fun _ _ ha => ?_
  split
  · exact ((ha.dropHold ..).loseHolds ..).modThread ..
  · exact ha

theorem State.Canonical.execPreemptSafePointStop (h : s.Canonical) (t) : Keeps (execPreemptSafePointStop t s) := by
  unfold Machine.execPreemptSafePointStop
  split
  · split
    · exact .next (h.stopAll ..)
    · exact trivial
  · exact trivial

theorem State.Canonical.execPreemptTimeoutStop (h : s.Canonical) (t) : Keeps (execPreemptTimeoutStop t s) := by
  unfold Machine.execPreemptTimeoutStop
  split
  · split
    · exact .next (h.stopAll ..)
    · exact trivial
  · exact trivial

theorem State.Canonical.writeArea (h : s.Canonical) (asid n ea l) : (s.writeArea asid n ea l).Canonical := by
  induction n generalizing s ea l with
  | zero => exact h
  | succ n ih =>
    unfold State.writeArea
    split
    · exact h
    · refine ih ?_ ..
      split
      · split
        · exact h.writeHome ..
        · exact h
      · exact h

theorem State.Canonical.setPart (h : s.Canonical) (th kind i v) : (s.setPart th kind i v).Canonical := by
  unfold State.setPart
  split
  · split
    · exact h.setVreg ..
    · exact h
  · split
    · exact h.setMask ..
    · exact h
  · split
    · exact h.modE ..
    · exact h

theorem State.Canonical.gangReports (h : s.Canonical) (t) : (s.gangReports t).Canonical := by
  unfold State.gangReports
  split
  · exact h
  · split
    · exact h
    · extract_lets +onlyGivenNames owes ms
      split
      · exact h
      · extract_lets +onlyGivenNames low s1 next s2 s3
        have h1 : s1.Canonical := (h.foldl fun _ _ ha => ha.cancelWait _).disarm _
        have h2 : s2.Canonical := h1.foldl fun _ _ ha => ha.gangTrap ..
        refine State.Canonical.disband (h2.foldl fun a m ha => ?_) _
        split
        · exact ha.getD fun _ e => ha.takeDeferred e
        · exact ha

theorem State.Canonical.bringToSave (h : s.Canonical) (t) : (s.bringToSave t).1.Canonical := by
  unfold State.bringToSave
  extract_lets +onlyGivenNames s1
  have h1 : s1.Canonical := h.stopThread _
  split
  · exact h1
  · next th _ =>
    extract_lets +onlyGivenNames s2
    have h2 : s2.Canonical := h1.getD fun _ e => h1.takeDeferred e
    split
    · exact h2
    · extract_lets +onlyGivenNames chunk s3 sup s4 mask
      have h3 : s3.Canonical := by
        unfold s3
        split
        · exact h2.squashChunk _
        · split
          · exact h2.restoreThread ..
          · exact h2
      exact h3.modThread ..

theorem State.Canonical.saveLaunch (h : s.Canonical) (all lid r) : (s.saveLaunch all lid r).Canonical := by
  unfold State.saveLaunch
  extract_lets _ _ s1
  have hs1 : s1.Canonical := h.writeArea ..
  exact ((hs1.journal ..).setRec ..).modPkg ..

theorem State.Canonical.execPreemptionSave (h : s.Canonical) : Keeps (execPreemptionSave s) := by
  unfold Machine.execPreemptionSave
  split
  · exact trivial
  · split
    next s1 all e =>
    have h0 : ((s.threads.map fun e => e.1).foldl State.gangReports s).Canonical := h.foldl fun _ _ ha => ha.gangReports _
    have h1 : s1.Canonical := by
      rw [← show Prod.fst _ = s1 from congrArg Prod.fst e]
      refine List.foldlRecOn _ _ (motive := fun x : State × _ => x.1.Canonical) h0 fun x hx t _ => ?_
      split
      · exact hx
      · exact hx.bringToSave t
    exact .next (State.Canonical.modPkg (h1.foldl fun _ _ ha => ha.saveLaunch ..) _)

theorem State.Canonical.restoreTask (h : s.Canonical) (asid ea off t) : (s.restoreTask asid ea off t).Canonical := by
  unfold State.restoreTask
  split
  · exact h
  · next th _ =>
    extract_lets +onlyGivenNames g live parts dataAt spAt words feAt fe sp home s1 s2 s2' c0 _ c gang s3 s4
    have h2 : s2.Canonical := by
      refine State.Canonical.foldl (((h.zero ..).wr ..).fillFe ..) fun a i ha => ?_
      split
      · exact ha
      · exact ha.setFe ..
    have h3 : s3.Canonical := (h2.modE ..).setThread ..
    have h4 : s4.Canonical := h3.foldl fun _ p ha => ha.setPart th p.1 p.2.1 0
    clear_value s4
    exact List.foldlRecOn parts _ (motive := fun x : State × Nat => x.1.Canonical) h4 fun x hx p _ =>
      hx.setPart th p.1 p.2.1 (s.areaNat asid ea x.2 p.2.2)

theorem State.Canonical.reloadWalkers (h : s.Canonical) (asid ea n off) :
    (s.reloadWalkers asid ea n off).Canonical := by
  induction n generalizing s off with
  | zero => exact h
  | succ n ih => exact ih (h.setWalker ..) _

theorem State.Canonical.restoreLaunch (h : s.Canonical) (lid cancelling ts) :
    (s.restoreLaunch lid cancelling ts).Canonical := by
  unfold State.restoreLaunch
  split
  · exact h
  · extract_lets _ s0 s1 s2
    have hs0 : s0.Canonical := by
      unfold s0
      split
      · exact h.modPkg ..
      · exact h
    have hs1 : s1.Canonical := hs0.reloadWalkers ..
    have hs2 : s2.Canonical := hs1.foldl fun _ _ ha => ha.restoreTask ..
    exact (hs2.journal ..).modRec ..

theorem State.Canonical.rejoinGangs (h : s.Canonical) : s.rejoinGangs.Canonical := by
  unfold State.rejoinGangs
  refine h.foldl fun _ _ ha => ?_
  split
  · split
    · exact ha.modThread ..
    · exact ha
  · exact ha

theorem State.Canonical.resumeAll (h : s.Canonical) : s.resumeAll.Canonical := by
  unfold State.resumeAll
  extract_lets s1 s2
  have hs1 : s1.Canonical := by
    refine h.foldl fun _ _ ha => ?_
    split
    · exact ha.restoreLaunch ..
    · exact ha
  have hs2 : s2.Canonical := hs1.rejoinGangs
  exact hs2.of_eq rfl rfl

theorem State.Canonical.execPreemptionResume (h : s.Canonical) : Keeps (execPreemptionResume s) := by
  unfold Machine.execPreemptionResume
  split
  · refine .next (.resumeAll ?_)
    exact h.of_eq rfl rfl
  · split
    · exact trivial
    · exact .next (h.push ..)
  · exact trivial

theorem State.Canonical.replay (h : s.Canonical) (h' fail) : (s.replay h' fail).Canonical := by
  unfold State.replay
  extract_lets
  split
  · exact h.modE ..
  · exact h.modE ..
  · exact h.push ..
  · exact h.push ..
  · exact h.push ..
  · exact h.push ..
  · split
    · exact (h.modThread ..).defer ..
    · exact h.push ..
  · split
    · exact h.defer ..
    · exact h.push ..
  · split
    · split
      · exact h
      · exact h.failEntry ..
    · exact h.push ..
  · extract_lets s1
    have hs1 : s1.Canonical := by
      unfold s1
      split
      · exact h.modM ..
      · exact h
    split
    · exact hs1
    · exact hs1.push ..
  · split
    · split
      · exact h
      · split
        · exact (h.setThread ..).push ..
        · exact h.probeFails ..
    · exact h.push ..
  · split
    · exact h.failCopy ..
    · exact h.push ..
  · split
    · exact h
    · exact h.push ..
  · split
    · exact h.send ..
    · exact h.push ..
  · exact h.push ..

theorem State.Canonical.answer (h : s.Canonical) (die page fail) : (s.answer die page fail).Canonical := by
  unfold State.answer
  extract_lets _ s1
  have hs1 : s1.Canonical := (h.modDie ..).journal ..
  exact hs1.foldl fun _ _ ha => ha.replay ..

theorem State.Canonical.execFaultAnswerRetry (h : s.Canonical) (die page entryAt entry) :
    Keeps (execFaultAnswerRetry die page entryAt entry s) := by
  unfold Machine.execFaultAnswerRetry
  split
  · exact trivial
  · extract_lets s1
    have hs1 : s1.Canonical := by
      unfold s1
      split
      · exact h.writeHome ..
      · exact h
    exact .next (hs1.answer ..)

theorem State.Canonical.execFaultAnswerFail (h : s.Canonical) (die page) : Keeps (execFaultAnswerFail die page s) := by
  unfold Machine.execFaultAnswerFail
  split
  · exact trivial
  · exact .next (h.answer ..)

theorem State.Canonical.loseReads (h : s.Canonical) (line) : (s.loseReads line).Canonical := by
  unfold State.loseReads
  refine .foldl ?_ fun _ _ ha => ?_
  · exact h.of_eq rfl rfl
  · split
    · split
      · refine .defer (.modThread ?_ ..) ..
        exact ha.of_eq rfl rfl
      · exact ha
    · split
      · refine .defer ?_ ..
        exact ha.of_eq rfl rfl
      · exact ha
    · exact ha

theorem State.Canonical.loseLine (h : s.Canonical) (line) : (s.loseLine line).Canonical := by
  unfold State.loseLine
  refine h.foldl fun _ _ ha => ?_
  split
  · rename_i s3 e
    have hs3 : s3.Canonical := ha.freeWord e
    exact hs3.writeHome ..

theorem State.Canonical.takeFrames (h : s.Canonical) {die n v t} (e : s.takeFrames die n = (v, t)) : t.Canonical := by
  cases e
  exact State.Canonical.modDie h ..

theorem State.Canonical.movePage (h : s.Canonical) (die leaf) : (s.movePage die leaf).Canonical := by
  unfold State.movePage
  extract_lets
  split
  · rename_i s1 e
    have hs1 : s1.Canonical := h.takeFrames e
    extract_lets _ s11 _ s2 s3
    have hs11 : s11.Canonical := hs1.foldl fun _ _ ha => ha.writeHome ..
    have hs2 : s2.Canonical := hs11.writeHome ..
    have hs3 : s3.Canonical := hs2.modDie ..
    exact hs3.foldl fun _ _ ha => (ha.modM ..).l1Drop ..

theorem State.Canonical.retireChannel (h : s.Canonical) (die chan) : (s.retireChannel die chan).Canonical := by
  unfold State.retireChannel
  extract_lets s1
  have hs1 : s1.Canonical := h.modDie ..
  exact (hs1.foldl (fun _ _ ha => ha.movePage ..)).record ..

theorem State.Canonical.retireRow (h : s.Canonical) (die pa) : (s.retireRow die pa).Canonical := by
  unfold State.retireRow
  extract_lets _ _ s1
  have hs1 : s1.Canonical := ((h.modDie ..).record ..).send ..
  split
  · exact h
  · split
    · exact (hs1.retireChannel ..).send ..
    · exact hs1

theorem State.Canonical.execHbmUncorrectableRead (h : s.Canonical) (die pa again rewritten) :
    Keeps (execHbmUncorrectableRead die pa again rewritten s) := by
  unfold Machine.execHbmUncorrectableRead
  split
  · exact trivial
  · split
    · extract_lets
      exact .next (((h.loseReads ..).loseLine ..).retireRow ..)
    · split
      · exact .next (h.retireRow ..)
      · exact .next (h.modDie ..)

/-! ### Functions of `Sys2Proof.Machine.Fabric` -/

theorem State.Canonical.freeFlits (h : s.Canonical) (n ack) : (s.freeFlits n ack).Canonical := by
  unfold State.freeFlits
  extract_lets
  split
  · exact h
  · exact (h.setPort ..).pump ..

theorem State.Canonical.chargeLanes (h : s.Canonical) (n bad retry) : (s.chargeLanes n bad retry).Canonical := by
  unfold State.chargeLanes
  extract_lets
  exact (h.setPort ..).foldl fun _ _ ha => ha.urge ..

theorem State.Canonical.askReplay (h : s.Canonical) (n bad) : (s.askReplay n bad).Canonical := by
  unfold State.askReplay
  extract_lets
  split
  · exact h.chargeLanes ..
  · exact ((h.setPort ..).control ..).chargeLanes ..

theorem State.Canonical.flitEvent (h : s.Canonical) {name n k} (hk : ∀ a, a.Canonical → (k a).Canonical) :
    Keeps (flitEvent name n s k) := by
  unfold Machine.flitEvent
  split
  · exact .next (hk _ h)
  · exact trivial

theorem State.Canonical.deliver (h : s.Canonical) (n f) : (s.deliver n f).Canonical := by
  unfold State.deliver
  split
  · exact h.answered ..
  · exact h.passUp ..

theorem State.Canonical.execFlitData (h : s.Canonical) (n bits bad) : Keeps (execFlitData n bits bad s) := by
  unfold Machine.execFlitData
  refine h.flitEvent fun _ ha => ?_
  split
  · extract_lets s2
    have hs2 : s2.Canonical := (ha.chargeLanes ..).freeFlits ..
    split
    · exact hs2
    · split
      · exact ((hs2.setPort ..).control ..).deliver ..
      · exact hs2.askReplay ..
  · exact ha.askReplay ..

theorem State.Canonical.controlFlit (h : s.Canonical) {n kind f k} (hk : ∀ a, a.Canonical → (k a).Canonical) :
    (controlFlit n kind f k s).Canonical := by
  unfold Machine.controlFlit
  split
  · exact hk _ ((h.chargeLanes ..).freeFlits ..)
  · exact h.askReplay ..

theorem State.Canonical.execFlitReplayRequest (h : s.Canonical) (n f) : Keeps (execFlitReplayRequest n f s) :=
  h.flitEvent fun _ ha => ha.controlFlit (fun _ ha1 => ha1.resend ..)

theorem State.Canonical.execFlitAcknowledge (h : s.Canonical) (n f) : Keeps (execFlitAcknowledge n f s) :=
  h.flitEvent fun _ ha => ha.controlFlit fun _ hb => hb

theorem State.Canonical.execFlitIdle (h : s.Canonical) (n f) : Keeps (execFlitIdle n f s) :=
  h.flitEvent fun _ ha => ha.controlFlit fun _ hb => hb

theorem State.Canonical.launchMessage (h : s.Canonical) (p pkg) : (s.launchMessage p pkg).Canonical := by
  unfold State.launchMessage
  split
  · exact h.postStatus ..
  · next e => exact ((h.nextPort e).emit ..).push ..

theorem State.Canonical.dispatchPosts (h : s.Canonical) : s.dispatchPosts.Canonical := by
  unfold State.dispatchPosts
  refine h.foldl fun _ _ ha => ?_
  split
  · split
    · exact ha
    · refine .launchMessage ?_ ..
      exact ha.of_eq rfl rfl
  · exact ha

theorem State.Canonical.execMailboxDelivery (h : s.Canonical) (p) : Keeps (execMailboxDelivery p s) := by
  unfold Machine.execMailboxDelivery
  refine h.perform fun _ ha => ?_
  split
  · split
    · rename_i s1 _ e1
      have hs1 : s1.Canonical := ha.queueMsg e1
      exact hs1.postStatus ..
  · exact (ha.postStatus ..).dispatchPosts

theorem State.Canonical.cutOff (h : s.Canonical) (n i) : (cutOff s n i).Canonical := by
  unfold Machine.cutOff
  split
  · split
    · split
      · refine .postStatus ?_ ..
        exact h.of_eq rfl rfl
      · exact h
    · exact h
  · split
    · exact h.of_eq rfl rfl
    · exact h
  · exact h

theorem State.Canonical.dropArrivals (h : s.Canonical) (n) : (s.dropArrivals n).Canonical := h.of_eq rfl rfl

theorem State.Canonical.dropPort (h : s.Canonical) (n lasting) : (s.dropPort n lasting).Canonical := by
  unfold State.dropPort
  extract_lets _ s1
  have hs1 : s1.Canonical := (h.dropArrivals ..).setPort ..
  exact ((hs1.foldl (fun _ _ ha => ha.cutOff ..)).dispatchPosts).send ..

theorem State.Canonical.execPortSurpriseDown (h : s.Canonical) (n) : Keeps (execPortSurpriseDown n s) := by
  unfold Machine.execPortSurpriseDown
  split
  · exact .next (h.dropPort ..)
  · exact trivial

theorem State.Canonical.execLaneSparing (h : s.Canonical) (n lane) : Keeps (execLaneSparing n lane s) := by
  unfold Machine.execLaneSparing
  extract_lets _ _ s1 s2
  have hs1 : s1.Canonical := (h.setPort ..).record ..
  have hs2 : s2.Canonical := by
    unfold s2
    split
    · exact hs1.resend ..
    · exact hs1
  split
  · split
    · exact .next (h.dropPort ..)
    · exact .next (hs2.send ..)
  · exact trivial

theorem State.Canonical.trainPort (h : s.Canonical) (n offered) : (s.trainPort n offered).Canonical := by
  unfold State.trainPort
  split
  · exact h.setPort ..
  · exact h

theorem State.Canonical.execPortTraining (h : s.Canonical) (n offered) : Keeps (execPortTraining n offered s) := by
  unfold Machine.execPortTraining
  split
  · exact .next (h.trainPort ..)
  · exact trivial

theorem State.Canonical.sendMessage (h : s.Canonical) (t th m a' sd prio) :
    (s.sendMessage t th m a' sd prio).Canonical := by
  unfold State.sendMessage
  extract_lets
  split
  · rename_i s1 e
    have hs1 : s1.Canonical := h.takeId e
    extract_lets _ s2
    have hs2 : s2.Canonical := hs1.setThread ..
    split
    · exact hs2.postStatus ..
    · split
      · exact hs2.push ..
      · exact hs2.launchMessage ..

theorem State.Canonical.execMsgSend (h : s.Canonical) (sa sb sd prio) : Keeps (execMsgSend sa sb sd prio s) := by
  refine h.issue fun a t th ha => ?_
  split
  · exact .trap ha
  · refine ha.localMsg fun off => ha.bankAwake fun _ => ?_
    extract_lets m ea own copied
    have hcopied {b : State} {u : Thread} {k} (hb : b.Canonical) (hk : ∀ c v, c.Canonical → (k c v).Canonical) :
        (copied b u k).Keeps := .done (hk _ _ (hb.msgAt rfl))
    split
    · exact .trap ha
    · split
      · exact .park ha
      · split
        · exact ha.release fun _ _ hb => hcopied hb fun _ _ hc => hc.postOut ..
        · split
          · exact .park ha
          · exact ha.release fun _ _ hb => hcopied hb fun _ _ hc => hc.sendMessage ..

theorem State.Canonical.execMsgRecv (h : s.Canonical) (sa sd) : Keeps (execMsgRecv sa sd s) := by
  unfold Machine.execMsgRecv
  refine h.issue fun _ _ _ ha => ?_
  split
  · exact .trap ha
  · split
    · exact .trap ha
    · refine ha.localMsg fun _ => ?_
      split
      · exact .done (ha.setThread ..)
      · refine ha.bankAwake fun _ => ?_
        split
        · exact .park ha
        · extract_lets s1 s2
          have hs1 : s1.Canonical := ha.modK ..
          have hs2 : s2.Canonical := (hs1.wr ..).acquireAt ..
          exact .done (hs2.modThread ..)

theorem State.Canonical.execMsgProbe (h : s.Canonical) (sa sd) : Keeps (execMsgProbe sa sd s) := by
  unfold Machine.execMsgProbe
  refine h.issue fun _ _ _ ha => ?_
  split
  · exact .trap ha
  · split
    · exact .trap ha
    · exact .done (ha.setThread ..)

theorem State.Canonical.execFabricMessageArrival (h : s.Canonical) (p) : Keeps (execFabricMessageArrival p s) := by
  unfold Machine.execFabricMessageArrival
  extract_lets
  split
  · exact trivial
  · split
    · exact trivial
    · split
      · exact .next ((h.nextArrival ..).reply ..)
      · split
        · rename_i s1 _ e1
          have hs1 : s1.Canonical := h.queueMsg e1
          exact .next ((hs1.nextArrival ..).reply ..)

theorem State.Canonical.outsideWrite (h : s.Canonical) (asid logs n ea l k) :
    (outsideWrite asid logs n ea l k s).1.Keeps := by
  induction n generalizing s logs ea l k with
  | zero => exact .ok h
  | succ n ih =>
    unfold Machine.outsideWrite
    split
    · exact .ok h
    · dsimp only
      split
      · split
        · exact .bad h
        · split
          · exact .hold h
          · split
            · exact .hold h
            · exact ih (h.softHome ..) ..
      · exact .bad h

theorem State.Canonical.logOutside (h : s.Canonical) (writer logs) : (s.logOutside writer logs).Canonical := by
  unfold State.logOutside
  refine h.foldl fun _ _ ha => ?_
  split
  · rename_i s1 e
    have hs1 : s1.Canonical := (ha.appendLog ..).of_eq e
    exact hs1
  · exact ha

theorem State.Canonical.dropRange (h : s.Canonical) (asid dst n) : (s.dropRange asid dst n).Canonical := by
  unfold State.dropRange
  refine h.foldl fun _ _ ha => ?_
  extract_lets
  split
  · split
    · exact ha.foldl fun _ _ ha1 => ha1.l1DropLine ..
    · exact ha
  · exact ha

theorem State.Canonical.execCopyPeerArrival (h : s.Canonical) (src asid dst bytes sc tag) :
    Keeps (execCopyPeerArrival src asid dst bytes sc tag s) := by
  have carry {a : State} (ha : a.Canonical) (n : Nat) :
      (if sc = 3 ∧ n ≠ 0 then a.dropRange asid dst n else a).Canonical := by
    split
    · exact ha.dropRange ..
    · exact ha
  unfold Machine.execCopyPeerArrival
  dsimp only
  split
  · exact trivial
  · split
    · refine .next (State.Canonical.nextArrival ?_ ..)
      split
      · exact h.setPort ..
      · exact h
    · split
      · exact .next (h.failCopy ..)
      · have h0 : { s with pool := s.pool.erase (Instr.copyPeerArrival src asid dst bytes sc tag) : State }.Canonical :=
          h.of_eq rfl rfl
        have hw := h0.outsideWrite asid [] (bytes.length / 64 + 2) dst bytes 0
        split
        · next logs e =>
          rw [e] at hw
          have h2 := (carry (State.Canonical.logOutside hw 0x1FE logs) bytes.length).nextArrival tag.port
            (.copyPeerArrival src asid dst bytes sc tag)
          refine .next ?_
          split
          · exact h2.reply ..
          · exact h2
        · next e =>
          rw [e] at hw
          exact .next ((carry (State.Canonical.logOutside hw ..) _).failCopy ..)
        · next e =>
          rw [e] at hw
          exact .next (((carry (State.Canonical.logOutside hw ..) _).setPort ..).holdAt ..)

/-! ### Functions of `Sys2Proof.Machine.Manage` -/

theorem State.Canonical.outside (h : s.Canonical) {name ok k} (hk : ∀ a, a.Canonical → (k a).Canonical) :
    Keeps (outside name ok s k) := by
  unfold Machine.outside
  split
  · exact .next (hk _ h)
  · exact trivial

theorem State.Canonical.hostPosted (h : s.Canonical) {name ok f mk k} (hk : ∀ a, a.Canonical → (k a).Canonical) :
    Keeps (hostPosted name ok f mk s k) := by
  unfold Machine.hostPosted
  split
  · refine h.outside fun _ ha => ?_
    split
    · split
      · rename_i s1 e2
        have hs1 : s1.Canonical := ha.takeId e2
        exact hs1.push ..
    · exact hk _ ha
  · exact h.perform fun _ ha => hk _ ha

theorem State.Canonical.hostPerform (h : s.Canonical) (fn seq asid ea bytes relaxed) :
    (s.hostPerform fn seq asid ea bytes relaxed).Canonical := by
  unfold State.hostPerform
  have hw := h.outsideWrite asid [] (bytes.length / 64 + 2) ea bytes 0
  split
  · next e =>
    rw [e] at hw
    exact State.Canonical.logOutside hw ..
  · next e =>
    rw [e] at hw
    exact State.Canonical.logOutside hw ..
  · next e =>
    rw [e] at hw
    exact (State.Canonical.logOutside hw ..).holdAt ..

theorem State.Canonical.execHostWrite (h : s.Canonical) (at_ off bytes relaxed) :
    Keeps (execHostWrite at_ off bytes relaxed s) := by
  unfold Machine.execHostWrite
  split
  · refine h.outside fun _ ha => ?_
    split
    · split
      · rename_i s1 e1
        have hs1 : s1.Canonical := ha.takeId e1
        split
        · exact hs1.push ..
        · exact hs1.hostPerform ..
  · extract_lets
    exact h.perform fun _ ha => ha.hostPerform ..
  · exact trivial

theorem State.Canonical.setPcap (h : s.Canonical) (off v) : (s.setPcap off v).Canonical := h.modOut ..

theorem State.Canonical.noteClamp (h : s.Canonical) (on) : (s.noteClamp on).Canonical := by
  unfold State.noteClamp
  split
  · exact h.setPcap ..
  · exact h

theorem State.Canonical.putClamped (h : s.Canonical) (off lo hi v) : (s.putClamped off lo hi v).Canonical := by
  unfold State.putClamped
  extract_lets
  exact (h.setPcap ..).noteClamp ..

theorem State.Canonical.writePcap (h : s.Canonical) (off v) : (s.writePcap off v).Canonical := by
  unfold State.writePcap
  split
  · extract_lets s1
    have hs1 : s1.Canonical := h.putClamped ..
    exact hs1.setPcap ..
  · exact h.putClamped ..
  · exact h.putClamped ..
  · exact h.setPcap ..
  · exact h.setPcap ..
  · exact h.setPcap ..
  · exact h

theorem State.Canonical.execPowerWindowBoundary (h : s.Canonical) (avg done) :
    Keeps (execPowerWindowBoundary avg done s) := by
  unfold Machine.execPowerWindowBoundary
  refine h.outside fun _ ha => ?_
  extract_lets
  refine (ha.foldl (fun _ _ ha1 => ?_)).setPcap ..
  split
  · exact ha1.gateWays ..
  · exact ha1

theorem State.Canonical.writeWrlog (h : s.Canonical) (a' v) : (s.writeWrlog a' v).Canonical := by
  unfold State.writeWrlog
  extract_lets _ s1
  have hs1 : s1.Canonical := h.modOut ..
  exact hs1.foldl fun _ _ ha => ha.writeHome ..

theorem State.Canonical.writeReg (h : s.Canonical) {host r v t ok} (e : s.writeReg host r v = (t, ok)) :
    t.Canonical := by
  unfold State.writeReg at e
  split at e
  · cases e
    exact h
  · split at e
    · cases e
      exact h
    · have hm := h.modOut fun o => { o with pkgid := v &&& 0x1FFFF }
      rw [← (Prod.mk.inj e).1]
      exact hm.foldl fun a n ha => ha.resume n
  · split at e
    · cases e
      exact h
    · cases e
      exact h.writePcap ..
  · cases e
    exact h.modOut ..
  · cases e
    exact h.modOut ..
  · split at e
    · cases e
      exact h.modOut ..
    · cases e
      exact h
  · split at e
    · cases e
      exact h
    · cases e
      exact h.modOut ..
  · cases e
    exact h.modOut ..
  · cases e
    exact h.writeWrlog ..
  · split at e
    · cases e
      exact h
    · cases e
      exact h.modOut ..

theorem State.Canonical.manageWrite (h : s.Canonical) (r v) : (s.manageWrite r v).Canonical := by
  unfold State.manageWrite
  split
  · exact h.send ..
  · split
    · rename_i s1 _ e
      have hs1 : s1.Canonical := h.writeReg e
      exact (hs1.journal ..).send ..

theorem State.Canonical.manageReg (h : s.Canonical) (name r v) : Keeps (manageReg name r v s) :=
  h.outside fun _ ha => ha.manageWrite ..

theorem State.Canonical.execMgmtReadRegister (h : s.Canonical) (off) : Keeps (execMgmtReadRegister off s) :=
  h.outside fun _ ha => ha.send ..

theorem State.Canonical.execMgmtWriteRegister (h : s.Canonical) (off v) : Keeps (execMgmtWriteRegister off v s) :=
  h.outside fun _ ha => ha.manageWrite ..

theorem State.Canonical.execPkgidWrite (h : s.Canonical) (v) : Keeps (execPkgidWrite v s) := h.manageReg ..

theorem State.Canonical.execRouteEntryWrite (h : s.Canonical) (p v) : Keeps (execRouteEntryWrite p v s) :=
  h.outside fun _ ha => ha.manageWrite ..

theorem State.Canonical.execPcapRegisterWrite (h : s.Canonical) (off v) : Keeps (execPcapRegisterWrite off v s) :=
  h.outside fun _ ha => ha.manageWrite ..

theorem State.Canonical.execPcapStatusClear (h : s.Canonical) (v) : Keeps (execPcapStatusClear v s) := h.manageReg ..

theorem State.Canonical.execWrlogWrite (h : s.Canonical) (a' v) : Keeps (execWrlogWrite a' v s) := h.manageReg ..

theorem State.Canonical.execLrverWrite (h : s.Canonical) (a' v) : Keeps (execLrverWrite a' v s) := h.manageReg ..

theorem State.Canonical.execHostRead (h : s.Canonical) (at_ off n) : Keeps (execHostRead at_ off n s) := by
  unfold Machine.execHostRead
  extract_lets +onlyGivenNames go
  have hgo {a : State} (asid ea) (ha : a.Canonical) : (go asid ea a).Canonical := by
    unfold go
    split
    · exact ha.send ..
    · exact ha.holdAt ..
  split
  · exact h.outside fun _ ha => hgo _ _ ha
  · exact h.perform fun _ ha => hgo _ _ ha
  · exact h.outside fun _ ha => ha.send ..

theorem State.Canonical.clearWake (h : s.Canonical) (asid) : (s.clearWake asid).Canonical := by
  unfold State.clearWake
  extract_lets
  exact h.modOut ..

theorem State.Canonical.ring_ (h : s.Canonical) (db asid bytes) : (s.ring_ db asid bytes).Canonical := by
  unfold State.ring_
  extract_lets _ _ s1
  have hs1 : s1.Canonical := h.clearWake ..
  split
  · exact hs1
  · exact hs1.mailPut ..

theorem State.Canonical.execDoorbellWrite (h : s.Canonical) (db bytes) : Keeps (execDoorbellWrite db bytes s) := by
  unfold Machine.execDoorbellWrite
  refine h.hostPosted fun _ ha => ?_
  split
  · exact ha
  · split
    · exact ha
    · exact ha.ring_ ..

theorem State.Canonical.execHwakeWrite (h : s.Canonical) (j v) : Keeps (execHwakeWrite j v s) :=
  h.hostPosted fun _ ha => ha.writeReg Prod.mk.eta.symm

theorem State.Canonical.execRegisterWrite (h : s.Canonical) (host off v) : Keeps (execRegisterWrite host off v s) := by
  unfold Machine.execRegisterWrite
  split
  · exact h.outside fun a ha => ha.manageWrite ..
  · refine h.hostPosted fun a ha => ?_
    split
    · refine ha.getD fun b e => ?_
      obtain ⟨r, _, rfl⟩ := Option.map_eq_some_iff.1 e
      exact ha.writeReg Prod.mk.eta.symm
    · exact ha

theorem State.Canonical.execMgmtArmLaunch (h : s.Canonical) (lid) : Keeps (execMgmtArmLaunch lid s) := by
  unfold Machine.execMgmtArmLaunch
  refine h.outside fun _ ha => ?_
  split
  · exact ha.send ..
  · split
    · exact ha.send ..
    · split
      · rename_i s1 _ e1
        have hs1 : s1.Canonical := ha.armRecord e1
        exact hs1.send ..

theorem State.Canonical.setTray (h : s.Canonical) (t) : (s.setTray t).Canonical := (h.modOut ..).send ..

theorem State.Canonical.sameTray (h : s.Canonical) : s.sameTray.Canonical := h.send ..

theorem State.Canonical.execTrayQuiesce (h : s.Canonical) : Keeps (execTrayQuiesce s) := by
  unfold Machine.execTrayQuiesce
  refine h.outside fun _ ha => ?_
  split
  · exact ha.sameTray
  · extract_lets s1
    have hs1 : s1.Canonical := ha.setTray ..
    split
    · exact hs1.urge ..
    · exact hs1

theorem State.Canonical.execTrayDrain (h : s.Canonical) : Keeps (execTrayDrain s) := by
  unfold Machine.execTrayDrain
  refine h.outside fun _ ha => ?_
  split
  · refine .sameTray ?_
    exact ha.of_eq rfl rfl
  · split
    · refine .setTray ?_ ..
      exact ha.of_eq rfl rfl
    · exact ha.push ..

theorem State.Canonical.execTrayPoweroff (h : s.Canonical) : Keeps (execTrayPoweroff s) := by
  refine h.outside fun a ha => ?_
  split
  · exact ha.sameTray
  · refine State.Canonical.send ?_ _
    exact State.canonical_reset.of_eq rfl rfl

theorem State.Canonical.execTrayReinsertion (h : s.Canonical) (offered) : Keeps (execTrayReinsertion offered s) :=
  h.outside fun _ ha => (ha.foldl (fun _ _ ha1 => ha1.trainPort ..)).setTray ..

/-! ### Functions of `Sys2Proof.Machine.Boot` -/

theorem State.Canonical.extend (h : s.Canonical) (i d) : (s.extend i d).Canonical := h.modOut ..

theorem State.Canonical.execMeasurementExtendRequest (h : s.Canonical) (i d) :
    Keeps (execMeasurementExtendRequest i d s) :=
  h.outside fun _ ha => (ha.journal ..).extend ..

theorem State.Canonical.startSupervisor (h : s.Canonical) (b' img words entry cl) :
    (s.startSupervisor b' img words entry cl).Canonical := by
  unfold State.startSupervisor
  extract_lets _ _ _ _ s1 s2
  have hs1 : s1.Canonical := ((h.modK ..).storeWords ..).setThread ..
  have hs2 : s2.Canonical := (hs1.modM ..).setLpu ..
  split
  · exact h
  · exact hs2.modCluster ..

theorem State.Canonical.powerUp (_h : s.Canonical) : s.powerUp.Canonical := State.canonical_reset.of_eq rfl rfl

theorem State.Canonical.spareLane (h : s.Canonical) (x) : (s.spareLane x).Canonical := by
  unfold State.spareLane
  extract_lets
  split
  · exact h
  · exact h.setPort ..

theorem State.Canonical.outOfService (h : s.Canonical) (c) : (s.outOfService c).Canonical := h.modK ..

theorem State.Canonical.takeOut (h : s.Canonical) (p) : (s.takeOut p).Canonical := by
  unfold State.takeOut
  split
  · exact h.outOfService ..
  · exact h.foldl fun _ _ ha => ha.outOfService ..
  · exact h.modDie ..
  · exact h.of_eq rfl rfl
  · exact h
  · exact h
  · exact h

theorem State.Canonical.rowOut (h : s.Canonical) (x) : (s.rowOut x).Canonical := h.modDie ..

theorem State.Canonical.applyRecord (h : s.Canonical) (r) : (s.applyRecord r).Canonical := by
  unfold State.applyRecord
  split
  · exact h.takeOut ..
  · exact h.spareLane ..
  · exact h.rowOut ..
  · exact h.modDie ..

theorem State.Canonical.measureBoot (h : s.Canonical) (b') : (s.measureBoot b').Canonical := by
  unfold State.measureBoot
  extract_lets s1 s2
  have hs1 : s1.Canonical := (h.extend ..).extend ..
  have hs2 : s2.Canonical := hs1.foldl fun _ _ ha => ha.extend ..
  exact hs2.foldl fun _ _ ha => ha.extend ..

theorem State.Canonical.startControllers (h : s.Canonical) (b') : (s.startControllers b').Canonical := by
  unfold State.startControllers
  refine h.foldl fun _ _ ha => ?_
  split
  · exact ha
  · exact ha.modDie ..

theorem State.Canonical.assignDoorbells (h : s.Canonical) (l) : (s.assignDoorbells l).Canonical :=
  h.foldl fun _ _ ha => ha.modOut ..

theorem State.Canonical.execPowerOnReset (h : s.Canonical) (b') : Keeps (execPowerOnReset b' s) := by
  unfold Machine.execPowerOnReset
  extract_lets s0 _ s1 s2 s3 s4 _ s5
  have hs0 : s0.Canonical := h.powerUp
  have hs1 : s1.Canonical := hs0.foldl fun _ _ ha => ha.applyRecord ..
  have hs2 : s2.Canonical := hs1.foldl fun _ _ ha => ha.spareLane ..
  have hs3 : s3.Canonical := (hs2.foldl (fun _ _ ha => ha.takeOut ..)).foldl fun _ _ ha => ha.rowOut ..
  have hs4 : s4.Canonical := (hs3.measureBoot ..).modOut ..
  have hs5 : s5.Canonical := by
    unfold s5
    split
    · exact (hs4.startControllers ..).extend ..
    · exact hs4
  split
  · exact trivial
  · split
    · exact .next (hs0.modOut ..)
    · split
      · exact .next (hs0.modOut ..)
      · split
        · exact .next (hs2.modOut ..)
        · split
          · exact .next (hs2.modOut ..)
          · split
            · exact .next (hs5.modOut ..)
            · extract_lets s6 s7
              have hs6 : s6.Canonical := hs5.foldl fun _ _ ha => ha.startSupervisor ..
              have hs7 : s7.Canonical := (hs6.modPkg ..).assignDoorbells ..
              exact .next (hs7.modOut ..)

theorem State.Canonical.takeOver (h : s.Canonical) (name dead die fw ok) : Keeps (takeOver name dead die fw ok s) := by
  unfold Machine.takeOver
  refine h.outside fun _ ha => ?_
  extract_lets s1
  have hs1 : s1.Canonical := ha.extend ..
  split
  · split
    · exact hs1.modDie ..
    · exact hs1
  · refine .modDie ?_ ..
    split
    · exact hs1.journal ..
    · exact hs1

theorem State.Canonical.execHeartbeatMiss (h : s.Canonical) (die fw ok) : Keeps (execHeartbeatMiss die fw ok s) :=
  h.takeOver ..

theorem State.Canonical.execFirmwareUpdate (h : s.Canonical) (die fw ok) : Keeps (execFirmwareUpdate die fw ok s) :=
  h.takeOver ..

theorem State.Canonical.attest (h : s.Canonical) {name a' payload} : Keeps (attest name a' payload s) :=
  h.outside fun _ ha => ha.send ..

theorem State.Canonical.execSpdmGetVersion (h : s.Canonical) : Keeps (execSpdmGetVersion s) := h.attest

theorem State.Canonical.execSpdmGetCapabilities (h : s.Canonical) : Keeps (execSpdmGetCapabilities s) := h.attest

theorem State.Canonical.execSpdmNegotiateAlgorithms (h : s.Canonical) (x) : Keeps (execSpdmNegotiateAlgorithms x s) :=
  h.attest

theorem State.Canonical.execSpdmGetDigests (h : s.Canonical) : Keeps (execSpdmGetDigests s) := h.attest

theorem State.Canonical.execSpdmGetCertificate (h : s.Canonical) (off n) : Keeps (execSpdmGetCertificate off n s) :=
  h.attest

theorem State.Canonical.execSpdmChallenge (h : s.Canonical) (nonce) : Keeps (execSpdmChallenge nonce s) := h.attest

theorem State.Canonical.execSpdmGetMeasurements (h : s.Canonical) (nonce) : Keeps (execSpdmGetMeasurements nonce s) :=
  h.attest

/-! ### Functions of `Sys2Proof.Machine.Ozrum` -/

theorem State.Canonical.setupRing (h : s.Canonical) (asid) : (s.setupRing asid).Canonical := by
  unfold State.setupRing
  split
  · exact h
  · extract_lets
    split
    · exact h
    · exact h.of_eq rfl rfl

theorem State.Canonical.setupDoorbell (h : s.Canonical) (asid) : (s.setupDoorbell asid).Canonical := by
  unfold State.setupDoorbell
  split
  · exact h
  · split
    · exact h.modOut ..
    · exact h

theorem State.Canonical.nextTable (h : s.Canonical) {die at_ root} {a b} (e : s.nextTable die at_ root = (a, b)) :
    b.Canonical := by
  rw [← show Prod.snd _ = b from congrArg Prod.snd e]
  unfold State.nextTable
  extract_lets
  split
  · split
    · exact h
    · split
      · rename_i s1 e3
        have hs1 : s1.Canonical := h.takeFrames e3
        exact hs1.writeHome ..
  · split
    · exact h
    · split
      · rename_i s1 e2
        have hs1 : s1.Canonical := h.takeFrames e2
        exact hs1.writeHome ..

theorem State.Canonical.allowWrite (h : s.Canonical) (asid space va) : (s.allowWrite asid space va).Canonical := by
  unfold State.allowWrite
  extract_lets die root
  split
  · exact h
  · next e size _ =>
    exact State.Canonical.withCores ((h.writeHome ..).modDie ..) _

theorem State.Canonical.mapPage (h : s.Canonical) (asid space va big writable) :
    (s.mapPage asid space va big writable).Canonical := by
  unfold State.mapPage
  split
  · split
    · exact h.allowWrite ..
    · exact h
  · extract_lets
    split
    · rename_i s1 e
      have hs1 : s1.Canonical := h.nextTable e
      split
      · rename_i s11 e1
        have hs11 : s11.Canonical := hs1.nextTable e1
        split
        · rename_i s12 e2
          have hs12 : s12.Canonical := hs11.nextTable e2
          split
          · split
            · rename_i s13 e4
              have hs13 : s13.Canonical := hs12.takeFrames e4
              exact hs13.writeHome ..
          · split
            · rename_i s13 e3
              have hs13 : s13.Canonical := hs12.nextTable e3
              split
              · rename_i s14 e4
                have hs14 : s14.Canonical := hs13.takeFrames e4
                exact hs14.writeHome ..

theorem State.Canonical.mapRange (h : s.Canonical) (asid a' n big writable) :
    (s.mapRange asid a' n big writable).Canonical := by
  unfold State.mapRange
  extract_lets
  refine h.foldl fun _ _ ha => ?_
  split
  · exact ha.mapPage ..
  · exact ha

theorem State.Canonical.putRecord (h : s.Canonical) (asid lid t) : (s.putRecord asid lid t).Canonical := by
  unfold State.putRecord
  extract_lets _ _ _ _ _ _ _ _ s1
  have hs1 : s1.Canonical := h.mapRange ..
  exact (hs1.modPkg ..).setRec ..

theorem State.Canonical.performLoad (h : s.Canonical) (asid l) : (s.performLoad asid l).Canonical := by
  unfold State.performLoad
  extract_lets s1 s2 s3 s4
  have hs1 : s1.Canonical := by
    refine h.foldl fun _ _ ha => ?_
    extract_lets _ b
    have hb : b.Canonical := (ha.mapRange ..).writeArea ..
    exact hb.modPkg ..
  have hs2 : s2.Canonical := hs1.modPkg ..
  have hs3 : s3.Canonical := by
    refine hs2.foldl fun _ _ ha => ?_
    split
    · exact ha.foldl fun _ _ ha1 => ha1.setBob ..
    · exact ha
  have hs4 : s4.Canonical := hs3.foldl fun _ _ ha => ha.putRecord ..
  exact hs4.foldl fun _ _ ha => ha.modDie ..

theorem State.Canonical.execMgmtLoadOzrum (h : s.Canonical) (asid file) : Keeps (execMgmtLoadOzrum asid file s) := by
  unfold Machine.execMgmtLoadOzrum
  refine h.outside fun _ ha => ?_
  extract_lets s0
  have hs0 : s0.Canonical := (ha.setupRing ..).setupDoorbell ..
  split
  · exact hs0.send ..
  · split
    · exact hs0.send ..
    · split
      · exact hs0.send ..
      · split
        · exact hs0.send ..
        · exact (((hs0.performLoad ..).extend ..).journal ..).send ..

/-! ### Functions of `Sys2Proof.Machine.Sched` -/

theorem State.Canonical.noteWoken (h : s.Canonical) : s.noteWoken.Canonical := by
  unfold State.noteWoken
  extract_lets _ _ s1
  have hs1 : s1.Canonical := h.of_eq rfl rfl
  split
  · exact h
  · exact hs1.foldl fun _ _ ha => ha.modM ..

theorem State.Canonical.wakeAll (h : s.Canonical) : s.wakeAll.Canonical := by
  unfold State.wakeAll
  extract_lets s0 s1
  have hs0 : s0.Canonical := by
    unfold s0
    split
    · exact h.stopParked
    · exact h
  have hs1 : s1.Canonical := hs0.noteWoken
  exact hs1.of_eq rfl rfl

theorem State.Canonical.displace (h : s.Canonical) (e') : (s.displace e').Canonical := by
  unfold State.displace
  split
  · exact h
  · split
    · split
      · split
        · exact h.setThread ..
        · exact h
      · exact h
    · exact h

theorem State.Canonical.seat (h : s.Canonical) (e') : (s.seat e').Canonical := by
  unfold State.seat
  extract_lets
  split
  · exact h
  · exact h.setThread ..

theorem State.Canonical.admitWaiting (h : s.Canonical) : s.admitWaiting.Canonical := by
  unfold State.admitWaiting
  split
  · exact h
  · refine h.foldl fun _ _ ha => ?_
    extract_lets _ _ _ x1
    have hx1 : x1.Canonical := ha.modDie ..
    exact hx1.of_eq rfl rfl

theorem State.Canonical.refresh (h : s.Canonical) : s.refresh.Canonical := by
  unfold State.refresh
  extract_lets s1 s2
  have hs1 : s1.Canonical := h.admitWaiting.wakeAll
  have hs2 : s2.Canonical := hs1.foldl fun _ _ ha => ha.displace ..
  exact hs2.foldl fun _ _ ha => ha.seat ..

theorem State.Canonical.alarm (h : s.Canonical) (t) : (s.alarm t).Canonical := by
  unfold State.alarm
  split
  · exact h
  · extract_lets s0 s1
    have hs0 : s0.Canonical := by
      unfold s0
      split
      · exact h.breakGang ..
      · exact h
    have hs1 : s1.Canonical := (hs0.dropHold ..).cancelWait ..
    split
    · exact hs1
    · exact hs1.takeTrap ..

theorem State.Canonical.execDeadlockSweep (h : s.Canonical) : Keeps (execDeadlockSweep s) := by
  unfold Machine.execDeadlockSweep
  split
  · exact trivial
  · extract_lets _ _ s1
    have hs1 : s1.Canonical := h.modPkg ..
    split
    · exact .next hs1
    · exact .next (((hs1.modPkg ..).foldl (fun _ _ ha => ha.alarm ..)).send ..)

theorem State.Canonical.advance (h : s.Canonical) (cycle moved) : (s.advance cycle moved).Canonical := h.of_eq rfl rfl

theorem State.Canonical.issued (h : s.Canonical) (cycle t th word) : (s.issued cycle t th word).Canonical := by
  unfold State.issued
  extract_lets x
  have hx : x.Canonical := (h.advance ..).setThread ..
  exact hx.of_eq rfl rfl

theorem State.Canonical.execOutside (h : s.Canonical) : Keeps (execOutside s) := by
  unfold Machine.execOutside
  refine h.issue fun _ _ _ ha => ?_
  split
  · exact .done ha
  · exact .trap ha

theorem State.Canonical.missImage (h : s.Canonical) (t th) : (s.missImage t th).Canonical := by
  unfold State.missImage
  split
  · exact h
  · exact (h.modThread ..).push ..

theorem State.Canonical.fetched (h : s.Canonical) {th} {a b} (e : s.fetched th = (a, b)) : b.Canonical := by
  rw [← show Prod.snd _ = b from congrArg Prod.snd e]
  unfold State.fetched
  split
  · exact h.eccRead rfl
  · exact h

theorem State.Canonical.dropImage (h : s.Canonical) (th) : (s.dropImage th).Canonical := h.modK ..

end Sys2Proof.Machine
end

section
/-! Memory stays canonical: every instruction, every event, every step (O60). -/

namespace Sys2Proof.Machine

variable {s : State}

/-! ### Functions of `Sys2Proof.Machine.Dispatch` -/

/-- What every instruction and event does keeps memory canonical. -/
theorem State.Canonical.exec (hs : s.Canonical) (i : Instr) : Keeps (exec i s) := match i with
  | .faultMessageDelivery p => hs.execFaultMessageDelivery p
  | .loadCompletion r => hs.execLoadCompletion r
  | .storePerformAtHome r => hs.execStorePerformAtHome r
  | .atomicAtHome r => hs.execAtomicAtHome r
  | .remoteUpdate r => hs.execRemoteUpdate r
  | .migrationDeparture tid dest => hs.execMigrationDeparture tid dest
  | .migrationArrival m => hs.execMigrationArrival m
  | .codeAbsent core tid => hs.execCodeAbsent core tid
  | .codeStartMessage core img asid => hs.execCodeStartMessage core img asid
  | .codeRefusal tid link => hs.execCodeRefusal tid link
  | .syncAccessServe r => hs.execSyncAccessServe r
  | .syncRetryLimit r => hs.execSyncRetryLimit r
  | .mailboxDelivery p => hs.execMailboxDelivery p
  | .resumeMessage p => hs.execResumeMessage p
  | .clusterControlWrite p => hs.execClusterControlWrite p
  | .clusterControlRead p => hs.execClusterControlRead p
  | .barrierRelease tag => hs.execBarrierRelease tag
  | .heldFpTrapDelivery core => hs.execHeldFpTrapDelivery core
  | .mmaEngineStart core => hs.execMmaEngineStart core
  | .mmaOperandsConsumed core => hs.execMmaOperandsConsumed core
  | .mmaCompletion core => hs.execMmaCompletion core
  | .accTransferCompletion core => hs.execAccTransferCompletion core
  | .copyEngineStart r => hs.execCopyEngineStart r
  | .copyCompletion r => hs.execCopyCompletion r
  | .engineFiring core b => hs.execEngineFiring core b
  | .firingOperandsConsumed core b => hs.execFiringOperandsConsumed core b
  | .firingCompletion core b => hs.execFiringCompletion core b
  | .bankGateEffect core bank => hs.execBankGateEffect core bank
  | .bankWakeEnd core bank => hs.execBankWakeEnd core bank
  | .allocationClearDone tid => hs.execAllocationClearDone tid
  | .releaseClearDone core base => hs.execReleaseClearDone core base
  | .storeBufferDrain cluster entry => hs.execStoreBufferDrain cluster entry
  | .signaturePlacement tid sc => hs.execSignaturePlacement tid sc
  | .releaseProbeEcho tid tgt => hs.execReleaseProbeEcho tid tgt
  | .writeLogAppend core => hs.execWriteLogAppend core
  | .dirtyLogMerge core => hs.execDirtyLogMerge core
  | .deadlockSweep => hs.execDeadlockSweep
  | .chunkCommit tid => hs.execChunkCommit tid
  | .regionSquash tid => hs.execRegionSquash tid
  | .taskStart r => hs.execTaskStart r
  | .launchCompletion lid => hs.execLaunchCompletion lid
  | .walkerHandout w core => hs.execWalkerHandout w core
  | .walkerSplit victim thief free => hs.execWalkerSplit victim thief free
  | .preemptionRequest => hs.execPreemptionRequest
  | .preemptSafePointStop tid => hs.execPreemptSafePointStop tid
  | .preemptTimeoutStop tid => hs.execPreemptTimeoutStop tid
  | .preemptionSave => hs.execPreemptionSave
  | .preemptionResume => hs.execPreemptionResume
  | .umeCfgBlockRead r => hs.execUmeCfgBlockRead r
  | .umeRoundExecution r => hs.execUmeRoundExecution r
  | .umeRoundCompletion r => hs.execUmeRoundCompletion r
  | .stationPassage b st => hs.execStationPassage b st
  | .seamCrossing b => hs.execSeamCrossing b
  | .holdBreak b => hs.execHoldBreak b
  | .flitData port bits badLanes => hs.execFlitData port bits badLanes
  | .flitReplayRequest port bits => hs.execFlitReplayRequest port bits
  | .flitAcknowledge port bits => hs.execFlitAcknowledge port bits
  | .flitIdle port bits => hs.execFlitIdle port bits
  | .laneSparing port lane => hs.execLaneSparing port lane
  | .portTraining port offered => hs.execPortTraining port offered
  | .portSurpriseDown port => hs.execPortSurpriseDown port
  | .copyPeerArrival src asid dst bytes sc tag => hs.execCopyPeerArrival src asid dst bytes sc tag
  | .fabricMessageArrival p => hs.execFabricMessageArrival p
  | .hostWrite win off bytes relaxed => hs.execHostWrite win off bytes relaxed
  | .hostRead win off n => hs.execHostRead win off n
  | .doorbellWrite db bytes => hs.execDoorbellWrite db bytes
  | .hwakeWrite j v => hs.execHwakeWrite j v
  | .mgmtReadRegister off => hs.execMgmtReadRegister off
  | .mgmtWriteRegister off v => hs.execMgmtWriteRegister off v
  | .mgmtLoadOzrum asid file => hs.execMgmtLoadOzrum asid file
  | .mgmtArmLaunch lid => hs.execMgmtArmLaunch lid
  | .trayQuiesce => hs.execTrayQuiesce
  | .trayDrain => hs.execTrayDrain
  | .trayPoweroff => hs.execTrayPoweroff
  | .trayReinsertion offered => hs.execTrayReinsertion offered
  | .pkgidWrite v => hs.execPkgidWrite v
  | .routeEntryWrite pkg v => hs.execRouteEntryWrite pkg v
  | .pcapRegisterWrite off v => hs.execPcapRegisterWrite off v
  | .pcapStatusClear v => hs.execPcapStatusClear v
  | .wrlogWrite a v => hs.execWrlogWrite a v
  | .lrverWrite a v => hs.execLrverWrite a v
  | .registerWrite host off v => hs.execRegisterWrite host off v
  | .powerWindowBoundary avg done => hs.execPowerWindowBoundary avg done
  | .powerOnReset b => hs.execPowerOnReset b
  | .heartbeatMiss die fw ok => hs.execHeartbeatMiss die fw ok
  | .firmwareUpdate die fw ok => hs.execFirmwareUpdate die fw ok
  | .coreLastingFault core => hs.execCoreLastingFault core
  | .hbmUncorrectableRead die pa lasting retireChannel => hs.execHbmUncorrectableRead die pa lasting retireChannel
  | .translationProbe tid => hs.execTranslationProbe tid
  | .faultAnswerRetry die page entryAt entry => hs.execFaultAnswerRetry die page entryAt entry
  | .faultAnswerFail die page => hs.execFaultAnswerFail die page
  | .spdmGetVersion => hs.execSpdmGetVersion
  | .spdmGetCapabilities => hs.execSpdmGetCapabilities
  | .spdmNegotiateAlgorithms req => hs.execSpdmNegotiateAlgorithms req
  | .spdmGetDigests => hs.execSpdmGetDigests
  | .spdmGetCertificate off n => hs.execSpdmGetCertificate off n
  | .spdmChallenge nonce => hs.execSpdmChallenge nonce
  | .spdmGetMeasurements nonce => hs.execSpdmGetMeasurements nonce
  | .tidReleaseMessage tid => hs.execTidReleaseMessage tid
  | .measurementExtendRequest idx d => hs.execMeasurementExtendRequest idx d
  | .bra o => hs.execBra o
  | .call o => hs.execCall o
  | .jrGo o => hs.execJrGo o
  | .jrLink o => hs.execJrLink o
  | .jrRet o => hs.execJrRet o
  | .taskExit => hs.execTaskExit
  | .taskYield => hs.execTaskYield
  | .taskPark => hs.execTaskPark
  | .taskHaltHalt sa sd => hs.execTaskHaltHalt sa sd
  | .taskHaltResume sa sd => hs.execTaskHaltResume sa sd
  | .taskHaltRetire sa sd => hs.execTaskHaltRetire sa sd
  | .trapSys code => hs.execTrapSys code
  | .trapBrk code => hs.execTrapBrk code
  | .trapAssert pa code => hs.execTrapAssert pa code
  | .eret => hs.execEret
  | .sysrGet sd sel => hs.execSysrGet sd sel
  | .sysrSet sa sel => hs.execSysrSet sa sel
  | .sysrSetb sa sel => hs.execSysrSetb sa sel
  | .sysrClrb sa sel => hs.execSysrClrb sa sel
  | .modeSetrm rm => hs.execModeSetrm rm
  | .modeMobile => hs.execModeMobile
  | .modeAnchor => hs.execModeAnchor
  | .modeGetfl sd => hs.execModeGetfl sd
  | .modeClrfl mask => hs.execModeClrfl mask
  | .mbxPost sa sb sd prio => hs.execMbxPost sa sb sd prio
  | .mbxFetch sa sd => hs.execMbxFetch sa sd
  | .mbxCount sd => hs.execMbxCount sd
  | .waitFull r => hs.execWaitFull r
  | .waitAny sa sd => hs.execWaitAny sa sd
  | .aluAdd o => hs.execAluAdd o
  | .aluSub o => hs.execAluSub o
  | .aluMul o => hs.execAluMul o
  | .aluMulh o => hs.execAluMulh o
  | .aluMulhu o => hs.execAluMulhu o
  | .aluAnd o => hs.execAluAnd o
  | .aluOr o => hs.execAluOr o
  | .aluXor o => hs.execAluXor o
  | .aluAndn o => hs.execAluAndn o
  | .aluOrn o => hs.execAluOrn o
  | .aluShl o => hs.execAluShl o
  | .aluShr o => hs.execAluShr o
  | .aluSra o => hs.execAluSra o
  | .aluRot o => hs.execAluRot o
  | .aluMin o => hs.execAluMin o
  | .aluMax o => hs.execAluMax o
  | .alxMinu o => hs.execAlxMinu o
  | .alxMaxu o => hs.execAlxMaxu o
  | .alxDiv o => hs.execAlxDiv o
  | .alxDivu o => hs.execAlxDivu o
  | .alxRem o => hs.execAlxRem o
  | .alxRemu o => hs.execAlxRemu o
  | .alxClz o => hs.execAlxClz o
  | .alxCtz o => hs.execAlxCtz o
  | .alxPopc o => hs.execAlxPopc o
  | .alxBrev o => hs.execAlxBrev o
  | .alxBswap o => hs.execAlxBswap o
  | .alxSel o => hs.execAlxSel o
  | .alxLea1 o => hs.execAlxLea1 o
  | .alxLea2 o => hs.execAlxLea2 o
  | .alxLea3 o => hs.execAlxLea3 o
  | .alxLea4 o => hs.execAlxLea4 o
  | .bitsExt o => hs.execBitsExt o
  | .bitsExtu o => hs.execBitsExtu o
  | .bitsIns o => hs.execBitsIns o
  | .movMov o => hs.execMovMov o
  | .movMovp o => hs.execMovMovp o
  | .movSetp o => hs.execMovSetp o
  | .movZx8 o => hs.execMovZx8 o
  | .movZx16 o => hs.execMovZx16 o
  | .movZx32 o => hs.execMovZx32 o
  | .movSx8 o => hs.execMovSx8 o
  | .movSx16 o => hs.execMovSx16 o
  | .movSx32 o => hs.execMovSx32 o
  | .addi o => hs.execAddi o
  | .andi o => hs.execAndi o
  | .ori o => hs.execOri o
  | .xori o => hs.execXori o
  | .shli o => hs.execShli o
  | .shri o => hs.execShri o
  | .srai o => hs.execSrai o
  | .li o => hs.execLi o
  | .lhi o => hs.execLhi o
  | .muli o => hs.execMuli o
  | .fpuFadd o => hs.execFpuFadd o
  | .fpuFsub o => hs.execFpuFsub o
  | .fpuFmul o => hs.execFpuFmul o
  | .fpuFdiv o => hs.execFpuFdiv o
  | .fpuFsqrt o => hs.execFpuFsqrt o
  | .fpuFmin o => hs.execFpuFmin o
  | .fpuFmax o => hs.execFpuFmax o
  | .fpuFabs o => hs.execFpuFabs o
  | .fpuFneg o => hs.execFpuFneg o
  | .fpuFsgnj o => hs.execFpuFsgnj o
  | .fpuFma o => hs.execFpuFma o
  | .fpuFms o => hs.execFpuFms o
  | .fpuFnma o => hs.execFpuFnma o
  | .fpuFclass o => hs.execFpuFclass o
  | .fcvtI2f o => hs.execFcvtI2f o
  | .fcvtU2f o => hs.execFcvtU2f o
  | .fcvtF2i o => hs.execFcvtF2i o
  | .fcvtF2u o => hs.execFcvtF2u o
  | .fcvtF2f o => hs.execFcvtF2f o
  | .fcvtTobf16 o => hs.execFcvtTobf16 o
  | .fcvtFrombf16 o => hs.execFcvtFrombf16 o
  | .fcvtTofp16 o => hs.execFcvtTofp16 o
  | .fcvtFromfp16 o => hs.execFcvtFromfp16 o
  | .fcmpFeq o => hs.execFcmpFeq o
  | .fcmpFlt o => hs.execFcmpFlt o
  | .fcmpFle o => hs.execFcmpFle o
  | .fcmpFun o => hs.execFcmpFun o
  | .cmpEq o => hs.execCmpEq o
  | .cmpNe o => hs.execCmpNe o
  | .cmpLt o => hs.execCmpLt o
  | .cmpLtu o => hs.execCmpLtu o
  | .cmpLe o => hs.execCmpLe o
  | .cmpLeu o => hs.execCmpLeu o
  | .cmpGt o => hs.execCmpGt o
  | .cmpGtu o => hs.execCmpGtu o
  | .cmpGe o => hs.execCmpGe o
  | .cmpGeu o => hs.execCmpGeu o
  | .cmpTst o => hs.execCmpTst o
  | .ceqi o => hs.execCeqi o
  | .clti o => hs.execClti o
  | .cltui o => hs.execCltui o
  | .predAnd o => hs.execPredAnd o
  | .predOr o => hs.execPredOr o
  | .predXor o => hs.execPredXor o
  | .predAndn o => hs.execPredAndn o
  | .predNot o => hs.execPredNot o
  | .predMov o => hs.execPredMov o
  | .ld o => hs.execLd o
  | .st o => hs.execSt o
  | .ldacq o => hs.execLdacq o
  | .strel o => hs.execStrel o
  | .ldsy o => hs.execLdsy o
  | .stsy o => hs.execStsy o
  | .pf o => hs.execPf o
  | .amoAdd o => hs.execAmoAdd o
  | .amoAnd o => hs.execAmoAnd o
  | .amoOr o => hs.execAmoOr o
  | .amoXor o => hs.execAmoXor o
  | .amoMin o => hs.execAmoMin o
  | .amoMax o => hs.execAmoMax o
  | .amoMinu o => hs.execAmoMinu o
  | .amoMaxu o => hs.execAmoMaxu o
  | .amoSwap o => hs.execAmoSwap o
  | .amoCas o => hs.execAmoCas o
  | .amoFadd o => hs.execAmoFadd o
  | .redAdd o => hs.execRedAdd o
  | .redFadd o => hs.execRedFadd o
  | .redMin o => hs.execRedMin o
  | .redMax o => hs.execRedMax o
  | .redOr o => hs.execRedOr o
  | .redAnd o => hs.execRedAnd o
  | .fenceAcq sc => hs.execFenceAcq sc
  | .fenceRel sc => hs.execFenceRel sc
  | .fenceFull sc => hs.execFenceFull sc
  | .go sa => hs.execGo sa
  | .vfAdd o => hs.execVfAdd o
  | .vfSub o => hs.execVfSub o
  | .vfMul o => hs.execVfMul o
  | .vfFma o => hs.execVfFma o
  | .vfFms o => hs.execVfFms o
  | .vfFnma o => hs.execVfFnma o
  | .vfMin o => hs.execVfMin o
  | .vfMax o => hs.execVfMax o
  | .vfAbs o => hs.execVfAbs o
  | .vfNeg o => hs.execVfNeg o
  | .vfDiv o => hs.execVfDiv o
  | .vfSqrt o => hs.execVfSqrt o
  | .vfsAdd o => hs.execVfsAdd o
  | .vfsSub o => hs.execVfsSub o
  | .vfsMul o => hs.execVfsMul o
  | .vfsFma o => hs.execVfsFma o
  | .vfsFms o => hs.execVfsFms o
  | .vfsFnma o => hs.execVfsFnma o
  | .vfsMin o => hs.execVfsMin o
  | .vfsMax o => hs.execVfsMax o
  | .vfsAbs o => hs.execVfsAbs o
  | .vfsNeg o => hs.execVfsNeg o
  | .vfsDiv o => hs.execVfsDiv o
  | .vfsSqrt o => hs.execVfsSqrt o
  | .viAdd o => hs.execViAdd o
  | .viSub o => hs.execViSub o
  | .viMul o => hs.execViMul o
  | .viMulh o => hs.execViMulh o
  | .viMin o => hs.execViMin o
  | .viMax o => hs.execViMax o
  | .viMinu o => hs.execViMinu o
  | .viMaxu o => hs.execViMaxu o
  | .viAbs o => hs.execViAbs o
  | .viNeg o => hs.execViNeg o
  | .viAdds o => hs.execViAdds o
  | .viSubs o => hs.execViSubs o
  | .visAdd o => hs.execVisAdd o
  | .visSub o => hs.execVisSub o
  | .visMul o => hs.execVisMul o
  | .visMulh o => hs.execVisMulh o
  | .visMin o => hs.execVisMin o
  | .visMax o => hs.execVisMax o
  | .visMinu o => hs.execVisMinu o
  | .visMaxu o => hs.execVisMaxu o
  | .visAbs o => hs.execVisAbs o
  | .visNeg o => hs.execVisNeg o
  | .visAdds o => hs.execVisAdds o
  | .visSubs o => hs.execVisSubs o
  | .vlAnd o => hs.execVlAnd o
  | .vlOr o => hs.execVlOr o
  | .vlXor o => hs.execVlXor o
  | .vlAndn o => hs.execVlAndn o
  | .vlShl o => hs.execVlShl o
  | .vlShr o => hs.execVlShr o
  | .vlSra o => hs.execVlSra o
  | .vlsAnd o => hs.execVlsAnd o
  | .vlsOr o => hs.execVlsOr o
  | .vlsXor o => hs.execVlsXor o
  | .vlsAndn o => hs.execVlsAndn o
  | .vlsShl o => hs.execVlsShl o
  | .vlsShr o => hs.execVlsShr o
  | .vlsSra o => hs.execVlsSra o
  | .vcmpFeq o => hs.execVcmpFeq o
  | .vcmpFlt o => hs.execVcmpFlt o
  | .vcmpFle o => hs.execVcmpFle o
  | .vcmpFun o => hs.execVcmpFun o
  | .vcmpIeq o => hs.execVcmpIeq o
  | .vcmpIlt o => hs.execVcmpIlt o
  | .vcmpIltu o => hs.execVcmpIltu o
  | .vcmpIle o => hs.execVcmpIle o
  | .vcmpsFeq o => hs.execVcmpsFeq o
  | .vcmpsFlt o => hs.execVcmpsFlt o
  | .vcmpsFle o => hs.execVcmpsFle o
  | .vcmpsFun o => hs.execVcmpsFun o
  | .vcmpsIeq o => hs.execVcmpsIeq o
  | .vcmpsIlt o => hs.execVcmpsIlt o
  | .vcmpsIltu o => hs.execVcmpsIltu o
  | .vcmpsIle o => hs.execVcmpsIle o
  | .vsel o => hs.execVsel o
  | .vcvtNarrow o => hs.execVcvtNarrow o
  | .vcvtNarrows o => hs.execVcvtNarrows o
  | .vcvtWiden o => hs.execVcvtWiden o
  | .vcvtI2f o => hs.execVcvtI2f o
  | .vcvtF2i o => hs.execVcvtF2i o
  | .vredFsum o => hs.execVredFsum o
  | .vredFmax o => hs.execVredFmax o
  | .vredFmin o => hs.execVredFmin o
  | .vredIsum o => hs.execVredIsum o
  | .vredImax o => hs.execVredImax o
  | .vredImin o => hs.execVredImin o
  | .vredAnd o => hs.execVredAnd o
  | .vredOr o => hs.execVredOr o
  | .vpermPerm o => hs.execVpermPerm o
  | .vpermRot o => hs.execVpermRot o
  | .vpermBcastl o => hs.execVpermBcastl o
  | .vpermZip o => hs.execVpermZip o
  | .vpermUnzip o => hs.execVpermUnzip o
  | .vpermCompress o => hs.execVpermCompress o
  | .vpermExpand o => hs.execVpermExpand o
  | .vpermIota vd vm ty => hs.execVpermIota vd vm ty
  | .vsfEx2 o => hs.execVsfEx2 o
  | .vsfLg2 o => hs.execVsfLg2 o
  | .vsfRcp o => hs.execVsfRcp o
  | .vsfRsqrt o => hs.execVsfRsqrt o
  | .vsfSin o => hs.execVsfSin o
  | .vsfCos o => hs.execVsfCos o
  | .vsfTanh o => hs.execVsfTanh o
  | .vsfSigm o => hs.execVsfSigm o
  | .vmvSplat vd sb vm ty => hs.execVmvSplat vd sb vm ty
  | .vmvExtract sd va sb ty => hs.execVmvExtract sd va sb ty
  | .vmvInsert vd sa sb ty => hs.execVmvInsert vd sa sb ty
  | .vmvMtos sd half ma => hs.execVmvMtos sd half ma
  | .vmvStom half md sb => hs.execVmvStom half md sb
  | .vld o => hs.execVld o
  | .vst o => hs.execVst o
  | .vgth o => hs.execVgth o
  | .vsct o => hs.execVsct o
  | .gangForm sa sd => hs.execGangForm sa sd
  | .gangJoin sa sd => hs.execGangJoin sa sd
  | .gangDisband => hs.execGangDisband
  | .gangIdx sd => hs.execGangIdx sd
  | .mmaE4m3 o => hs.execMmaE4m3 o
  | .mmaE5m2 o => hs.execMmaE5m2 o
  | .mmaE4m3e5m2 o => hs.execMmaE4m3e5m2 o
  | .mmaE2m1 o => hs.execMmaE2m1 o
  | .mmaBf16 o => hs.execMmaBf16 o
  | .mmaFp16 o => hs.execMmaFp16 o
  | .mmaI8 o => hs.execMmaI8 o
  | .mmaU8i8 o => hs.execMmaU8i8 o
  | .accZero an => hs.execAccZero an
  | .accLd sa sb sd sc an => hs.execAccLd sa sb sd sc an
  | .accSt sa sb sd sc an => hs.execAccSt sa sb sd sc an
  | .accRowRead va sb an => hs.execAccRowRead va sb an
  | .accRowWrite va sb an => hs.execAccRowWrite va sb an
  | .accScale sa an => hs.execAccScale sa an
  | .skdSet sa sb sk => hs.execSkdSet sa sb sk
  | .skdReset sk => hs.execSkdReset sk
  | .skdPos sd sk => hs.execSkdPos sd sk
  | .cbCfg sa sb sd n => hs.execCbCfg sa sb sd n
  | .cbPut sa sd n => hs.execCbPut sa sd n
  | .cbGet sa sd n => hs.execCbGet sa sd n
  | .cbRoom sd n => hs.execCbRoom sd n
  | .cbCount sd n => hs.execCbCount sd n
  | .cbWait sa room n => hs.execCbWait sa room n
  | .engBind sa sd => hs.execEngBind sa sd
  | .engArm sa => hs.execEngArm sa
  | .engOnce sa => hs.execEngOnce sa
  | .engUnbind sa => hs.execEngUnbind sa
  | .engStat sa sd => hs.execEngStat sa sd
  | .copyLin sa sb sd c => hs.execCopyLin sa sb sd c
  | .copyTile2d sa sb sd c => hs.execCopyTile2d sa sb sd c
  | .copyPeer sa sb sd c => hs.execCopyPeer sa sb sd c
  | .copyBcast sa sb sd c => hs.execCopyBcast sa sb sd c
  | .bankFmtset sa sd n => hs.execBankFmtset sa sd n
  | .bankFmtget sd n => hs.execBankFmtget sd n
  | .bankGate n => hs.execBankGate n
  | .bankWake n => hs.execBankWake n
  | .rlkQuery sa sd h => hs.execRlkQuery sa sd h
  | .rlkDrop sa => hs.execRlkDrop sa
  | .barReg sa sb sd bn => hs.execBarReg sa sb sd bn
  | .barArrive sd bn => hs.execBarArrive sd bn
  | .barWait sa bn => hs.execBarWait sa bn
  | .barArrw sd bn => hs.execBarArrw sd bn
  | .barDrop bn => hs.execBarDrop bn
  | .arBegin sa sd => hs.execArBegin sa sd
  | .arAbort => hs.execArAbort
  | .arDraw sd => hs.execArDraw sd
  | .arStatus sd => hs.execArStatus sd
  | .pcommit sa sd => hs.execPcommit sa sd
  | .annealCfg sa sb sd => hs.execAnnealCfg sa sb sd
  | .annealOff sd => hs.execAnnealOff sd
  | .annealReset sd => hs.execAnnealReset sd
  | .cacheWb sa sb => hs.execCacheWb sa sb
  | .cacheInv sa sb => hs.execCacheInv sa sb
  | .cacheHarvest => hs.execCacheHarvest
  | .cacheRetain sa sb code => hs.execCacheRetain sa sb code
  | .cacheTlbi sa sb kind => hs.execCacheTlbi sa sb kind
  | .lrecPatch sa sb sd n => hs.execLrecPatch sa sb sd n
  | .lrecArm sa sd => hs.execLrecArm sa sd
  | .lrecQuery sa sd n => hs.execLrecQuery sa sd n
  | .lrecCancel sa sd => hs.execLrecCancel sa sd
  | .lrecWait sa sd => hs.execLrecWait sa sd
  | .walkNext sd => hs.execWalkNext sd
  | .walkInfo sd sel => hs.execWalkInfo sd sel
  | .umeCfg sa sd ctx => hs.execUmeCfg sa sd ctx
  | .umeRound sa sd ctx => hs.execUmeRound sa sd ctx
  | .umeStat sd sel ctx => hs.execUmeStat sd sel ctx
  | .umeDirty sd ctx => hs.execUmeDirty sd ctx
  | .ringPeek sa sd w => hs.execRingPeek sa sd w
  | .ringBoard sa sd hn => hs.execRingBoard sa sd hn
  | .ringHget sd w hn => hs.execRingHget sd w hn
  | .ringHset sa w hn => hs.execRingHset sa w hn
  | .ringAlight hn => hs.execRingAlight hn
  | .ringRel hn => hs.execRingRel hn
  | .ringRadd sa sb w => hs.execRingRadd sa sb w
  | .ringRmax sa sb sgn w => hs.execRingRmax sa sb sgn w
  | .msgSend sa sb sd prio => hs.execMsgSend sa sb sd prio
  | .msgRecv sa sd => hs.execMsgRecv sa sd
  | .msgProbe sa sd => hs.execMsgProbe sa sd
  | .hintImmx p => hs.execHintImmx p
  | .hintScl v => hs.execHintScl v
  | .hintLat lat => hs.execHintLat lat
  | .hintRh code => hs.execHintRh code
  | .hintSrk k => hs.execHintSrk k
  | .hintNop => hs.execHintNop
  | .hintUnnamed op p => hs.execHintUnnamed op p
  | .illegalWordZeros => hs.execIllegalWordZeros
  | .illegalWordOnes => hs.execIllegalWordOnes
  | .reservedEncoding w => hs.execReservedEncoding w

/-! ### Functions of `Sys2Proof.Machine.Run` -/

theorem State.Canonical.takeTurn (h : s.Canonical) (cycle t) : Keeps (s.takeTurn cycle t) := by
  unfold State.takeTurn
  split
  · exact trivial
  · next th _ =>
    have hf : (s.fetched th).2.Canonical := h.fetched Prod.mk.eta.symm
    split
    · exact (h.issued ..).exec _
    · exact (hf.issued ..).exec _
    · exact (h.issued ..).execOutside
    · exact .next ((h.issued ..).missImage ..)
    · exact .next (((hf.dropImage _).issued ..).missImage ..)

theorem State.Canonical.performChoice (h : s.Canonical) (c) : Keeps (s.perform c) := by
  unfold State.perform
  split
  · exact trivial
  · exact (h.advance ..).exec _
  · exact h.takeTurn ..

theorem State.Canonical.due (h : s.Canonical) (i r) : Keeps (s.due i r) := by
  unfold State.due
  refine State.Canonical.exec ?_ ..
  exact h.of_eq rfl rfl

theorem State.Canonical.step (h : s.Canonical) : Keeps (step s) := by
  unfold Machine.step
  split
  · exact h.due ..
  · exact h.refresh.performChoice _

end Sys2Proof.Machine

namespace Sys2Proof
open Machine

/-- Settles O60: each state function keeps memory canonical, hence each instruction and event does, hence each step. -/
theorem memoryStaysCanonical : Obligations.MemoryStaysCanonical := by
  intro s t h e
  have hk : Keeps (step s) := h.step
  rwa [e] at hk

end Sys2Proof
end

section
/-! Management commands: loads, arms and trays (R94, R105, R109, R356, R450, R454, R464). -/

namespace Sys2Proof.Machine

open Claims (field record AtRest KeepsBut SameThreads bytesOf)

variable {s a : State}

/-! ## The fields of a record (R351) -/

theorem Rec.f_eq_field (r : Rec) (off len : Nat) : r.f off len = field r off len := by
  simp [Rec.f, field, BitVec.extractLsb'_toNat, Nat.shiftRight_eq_div_pow]

theorem testBit_field (r : Rec) (off len i : Nat) :
    (field r off len).testBit i = (decide (i < 8 * len) && r.getLsbD (8 * off + i)) := by
  rw [field, Nat.testBit_mod_two_pow, Nat.testBit_div_two_pow, BitVec.getLsbD, Nat.add_comm]

theorem Rec.getLsbD_put (r : Rec) {off len : Nat} (v k : Nat) (h : off + len ≤ 256) :
    (r.put off len v).getLsbD k = if 8 * off ≤ k ∧ k < 8 * off + 8 * len then v.testBit (k - 8 * off) else r.getLsbD k := by
  by_cases hk : k < 2048
  · simp only [Rec.put, BitVec.getLsbD_or, BitVec.getLsbD_and, BitVec.getLsbD_not, BitVec.getLsbD_ofNat, Nat.testBit_shiftLeft,
      Nat.testBit_two_pow_sub_one, Nat.testBit_mod_two_pow, hk, decide_true, Bool.true_and]
    by_cases hlo : 8 * off ≤ k
    · by_cases hhi : k - 8 * off < 8 * len
      · simp [hlo, hhi, show k < 8 * off + 8 * len by omega]
      · simp [hlo, hhi, show ¬ k < 8 * off + 8 * len by omega]
    · simp [hlo]
  · have hout : ¬ (8 * off ≤ k ∧ k < 8 * off + 8 * len) := by omega
    rw [if_neg hout, BitVec.getLsbD_of_ge _ _ (by omega), BitVec.getLsbD_of_ge _ _ (by omega)]

theorem Rec.field_put_same (r : Rec) {off len v : Nat} (hv : v < 2 ^ (8 * len)) (h : off + len ≤ 256) :
    field (r.put off len v) off len = v := by
  refine Nat.eq_of_testBit_eq fun i => ?_
  rw [testBit_field, Rec.getLsbD_put r _ _ h]
  by_cases hi : i < 8 * len
  · rw [if_pos (by omega), Nat.add_sub_cancel_left, decide_eq_true hi, Bool.true_and]
  · have hbit : v < 2 ^ i := hv.trans_le (Nat.pow_le_pow_right (by decide) (by omega))
    simp [hi, Nat.testBit_lt_two_pow hbit]

theorem Rec.field_put_other (r : Rec) {off len o n : Nat} (v : Nat) (h : off + len ≤ 256) (ho : o + n ≤ off ∨ off + len ≤ o) :
    field (r.put off len v) o n = field r o n := by
  refine Nat.eq_of_testBit_eq fun i => ?_
  rw [testBit_field, testBit_field, Rec.getLsbD_put r v _ h]
  by_cases hi : i < 8 * n
  · rw [if_neg (by omega)]
  · simp [hi]

theorem Rec.keepsBut_put {r q : Rec} {l : List (Nat × Nat)} (hq : KeepsBut r q l) {off len : Nat} (v : Nat) (h : off + len ≤ 256)
    (hl : ∃ e ∈ l, e.1 ≤ off ∧ off + len ≤ e.1 + e.2) : KeepsBut r (q.put off len v) l := by
  intro k hk
  obtain ⟨e, he, hlo, hhi⟩ := hl
  have hout := hk e he
  rw [Rec.getLsbD_put q v k h, if_neg (by omega)]
  exact hq k hk

theorem restState_iff_atRest (r : Rec) : restState r.state = true ↔ AtRest r := by
  simp [restState, Rec.state, Rec.f_eq_field, AtRest, or_assoc]

theorem rec?_eq_record (s : State) (lid : W16) : s.rec? lid = record s lid.toNat := by
  unfold State.rec? record lidDie
  split
  · rw [Nat.mod_eq_of_lt (by omega : lid.toNat / 4096 < 4)]
  · rfl

/-! ## What keeps threads, `out`, loaded images and records -/

theorem State.die_modDie_same (s : State) (n : Nat) (f : Die → Die) : (s.modDie n f).die n = f (s.die n) := by
  simp [State.die, Tab.getD, Tab.find_set_same]

theorem State.die_modDie_other (s : State) {n d : Nat} (f : Die → Die) (h : d ≠ n) : (s.modDie n f).die d = s.die d := by
  simp [State.die, Tab.getD, Tab.find_set_other _ _ _ _ h]

theorem Tab.find_map {α β : Type} (t : Tab α) (f : Nat × α → Nat × β) (hf : ∀ e, (f e).1 = e.1) (k : Nat) :
    Tab.find (t.map f) k = (t.find k).map fun v => (f (k, v)).2 := by
  induction t with
  | nil => rfl
  | cons e r ih =>
    obtain ⟨j, v⟩ := e
    have hj := hf (j, v)
    simp only [List.map_cons, Tab.find, hj]
    split
    · next e => subst e; rfl
    · exact ih

/-- A step of memory, of the walkers or of the controllers' notes: threads, `out`, loaded images and records stay. -/
structure State.SameRecords (s a : State) : Prop where
  threads : a.threads = s.threads
  out : a.out = s.out
  images : a.pkg.images = s.pkg.images
  pantry : ∀ d, (a.die d).pantry = (s.die d).pantry

namespace State.SameRecords

theorem refl (s : State) : s.SameRecords s := ⟨rfl, rfl, rfl, fun _ => rfl⟩

theorem of_eq {b : State} (h : s.SameRecords a) (ht : b.threads = a.threads) (ho : b.out = a.out)
    (hp : b.pkg.images = a.pkg.images) (hd : b.dies = a.dies) : s.SameRecords b :=
  ⟨ht.trans h.threads, ho.trans h.out, hp.trans h.images, fun d => by rw [State.die, hd]; exact h.pantry d⟩

theorem record (h : s.SameRecords a) (lid : Nat) : Claims.record a lid = Claims.record s lid := by
  simp only [Claims.record, h.pantry]

theorem foldl {α : Type} (h : s.SameRecords a) {f : State → α → State} {l : List α}
    (hf : ∀ b x, s.SameRecords b → s.SameRecords (f b x)) : s.SameRecords (l.foldl f a) :=
  List.foldlRecOn l f h fun b hb x _ => hf b x hb

theorem modDie (h : s.SameRecords a) (n : Nat) {f : Die → Die} (hf : ∀ d, (f d).pantry = d.pantry) :
    s.SameRecords (a.modDie n f) where
  threads := h.threads
  out := h.out
  images := h.images
  pantry d := by
    by_cases hd : d = n
    · rw [hd, die_modDie_same, hf, h.pantry]
    · rw [die_modDie_other _ _ hd, h.pantry]

theorem modPkg (h : s.SameRecords a) {f : Pkg → Pkg} (hf : ∀ p, (f p).images = p.images) : s.SameRecords (a.modPkg f) :=
  h.of_eq rfl rfl (hf _) rfl

theorem journal (h : s.SameRecords a) (die f) : s.SameRecords (a.journal die f) := h.modDie _ fun _ => rfl
theorem kick (h : s.SameRecords a) (lid b) : s.SameRecords (a.kick lid b) := h.modDie _ fun _ => rfl
theorem withCores (h : s.SameRecords a) (l) : s.SameRecords { a with cores := l } := h.of_eq rfl rfl rfl rfl
theorem push (h : s.SameRecords a) (i) : s.SameRecords (a.push i) := h.of_eq rfl rfl rfl rfl
theorem setBob (h : s.SameRecords a) (b x) : s.SameRecords (a.setBob b x) := h.of_eq rfl rfl rfl rfl
theorem setWalker (h : s.SameRecords a) (w x) : s.SameRecords (a.setWalker w x) := h.modDie _ fun _ => rfl

theorem takeId (h : s.SameRecords a) {n b} (e : a.takeId = (n, b)) : s.SameRecords b := by
  cases e
  exact h.of_eq rfl rfl rfl rfl

theorem takeFrames (h : s.SameRecords a) {die n f b} (e : a.takeFrames die n = (f, b)) : s.SameRecords b := by
  cases e
  exact h.modDie _ fun _ => rfl

/-! ### Memory and its tables -/

theorem l2Touch (h : s.SameRecords a) (line code write) : s.SameRecords (a.l2Touch line code write) := by
  unfold State.l2Touch
  split
  · exact h
  · exact h.modDie _ fun _ => rfl

theorem writeHome (h : s.SameRecords a) (key n v) : s.SameRecords (a.writeHome key n v) := by
  have hwr : s.SameRecords (a.wr key n v) := h.of_eq rfl rfl rfl rfl
  have hl2 := hwr.l2Touch (lineOf key) 0 true
  refine ⟨hl2.threads, hl2.out, hl2.images, fun d => ?_⟩
  rw [← hl2.pantry d]
  simp only [State.writeHome, State.die, Tab.getD]
  rw [Tab.find_map]
  · cases Tab.find _ d <;> rfl
  · exact fun _ => rfl

theorem writeArea (h : s.SameRecords a) (asid n ea l) : s.SameRecords (a.writeArea asid n ea l) := by
  induction n generalizing a ea l with
  | zero => exact h
  | succ n ih =>
    unfold State.writeArea
    split
    · exact h
    · refine ih ?_ ..
      split
      · split
        · exact h.writeHome ..
        · exact h
      · exact h

theorem nextTable (h : s.SameRecords a) {die at_ root n b} (e : a.nextTable die at_ root = (n, b)) : s.SameRecords b := by
  rw [← show (a.nextTable die at_ root).2 = b from congrArg Prod.snd e]
  unfold State.nextTable
  extract_lets e
  split
  · split
    · exact h
    · split
      next f b1 e1 => exact (h.takeFrames e1).writeHome ..
  · split
    · exact h
    · split
      next f b1 e1 => exact (h.takeFrames e1).writeHome ..

theorem allowWrite (h : s.SameRecords a) (asid space va) : s.SameRecords (a.allowWrite asid space va) := by
  unfold State.allowWrite
  extract_lets die root
  split
  · exact h
  · extract_lets gone b
    have hb : s.SameRecords b := (h.writeHome ..).modDie _ fun _ => rfl
    exact hb.withCores _

theorem mapPage (h : s.SameRecords a) (asid space va big writable) : s.SameRecords (a.mapPage asid space va big writable) := by
  unfold State.mapPage
  split
  · split
    · exact h.allowWrite ..
    · exact h
  · extract_lets die flags
    split
    next t1 s1 e1 =>
    split
    next t2 s2 e2 =>
    split
    next t3 s3 e3 =>
    have h3 : s.SameRecords s3 := ((h.nextTable e1).nextTable e2).nextTable e3
    split
    · split
      next f s4 e4 => exact (h3.takeFrames e4).writeHome ..
    · split
      next t4 s4 e4 =>
      split
      next f s5 e5 => exact ((h3.nextTable e4).takeFrames e5).writeHome ..

theorem mapRange (h : s.SameRecords a) (asid at_ n big writable) : s.SameRecords (a.mapRange asid at_ n big writable) := by
  unfold State.mapRange
  extract_lets k
  refine h.foldl fun b i hb => ?_
  split
  · exact hb.mapPage ..
  · exact hb

theorem writeArgs (h : s.SameRecords a) (r) : s.SameRecords (a.writeArgs r) := by
  unfold State.writeArgs
  split
  · split
    · exact h.writeHome ..
    · exact h
  · exact h

theorem loadWalkers (h : s.SameRecords a) (lid r) : s.SameRecords (a.loadWalkers lid r) := by
  unfold State.loadWalkers
  extract_lets cores cls taken n t
  split
  · exact h.modPkg fun _ => rfl
  · refine h.foldl fun b e hb => ?_
    extract_lets i lo hi served
    split
    · exact hb
    · exact hb.setWalker ..

end State.SameRecords

/-! ## A record is written (R344, R361) -/

/-- `out` and the loaded images stay, and threads but for the replies of records. -/
structure State.SameButReplies (s a : State) : Prop where
  threads : SameThreads s a
  out : a.out = s.out
  images : a.pkg.images = s.pkg.images

namespace State.SameButReplies

theorem refl (s : State) : s.SameButReplies s := ⟨fun _ th e => ⟨th.mo.reply, e⟩, rfl, rfl⟩

theorem andThen {b : State} (h : s.SameButReplies a) (k : a.SameRecords b) : s.SameButReplies b where
  threads n th e := by rw [k.threads]; exact h.threads n th e
  out := k.out.trans h.out
  images := k.images.trans h.images

theorem foldl {α : Type} (h : s.SameButReplies a) {f : State → α → State} {l : List α}
    (hf : ∀ b x, s.SameButReplies b → s.SameButReplies (f b x)) : s.SameButReplies (l.foldl f a) :=
  List.foldlRecOn l f h fun b hb x _ => hf b x hb

theorem answerWaits (h : s.SameButReplies a) (lid r) : s.SameButReplies (a.answerWaits lid r) := by
  unfold State.answerWaits
  split
  · refine ⟨fun k th e => ?_, h.out, h.images⟩
    obtain ⟨w, hw⟩ := h.threads k th e
    rw [Tab.find_map _ _ fun x => by split <;> rfl, hw]
    simp only [Option.map_some]
    split
    · exact ⟨some r.waitWord, rfl⟩
    · exact ⟨w, rfl⟩
  · exact h

theorem setRec (h : s.SameButReplies a) (lid r) : s.SameButReplies (a.setRec lid r) :=
  have hdie : s.SameButReplies (a.modDie (lidDie lid) fun d => { d with pantry := d.pantry.set (lid.toNat % 4096) r }) :=
    ⟨h.threads, h.out, h.images⟩
  hdie.answerWaits lid r

end State.SameButReplies

theorem State.record_setRec (s : State) {lid : W16} (h : lid.toNat < 0x4000) (r : Rec) :
    Claims.record (s.setRec lid r) lid.toNat = some r := by
  have hdies : (s.setRec lid r).dies = (s.modDie (lidDie lid) fun d => { d with pantry := d.pantry.set (lid.toNat % 4096) r }).dies := by
    unfold State.setRec State.answerWaits
    split <;> rfl
  have hdie : lid.toNat / 4096 = lidDie lid := by unfold lidDie; omega
  rw [Claims.record, if_pos h, hdie, State.die, hdies]
  exact (congrArg (fun d : Die => d.pantry.find (lid.toNat % 4096)) (s.die_modDie_same ..)).trans (Tab.find_set_same ..)

/-! ## Arming (R356, R357) -/

/-- The record after an arm whose check answers `c`: armed with its counts cleared, or failed with the cause. -/
def Rec.afterArm (r : Rec) (c : Nat) : Rec :=
  if c = 0 then ((r.setState 1).put 3 1 0).put 96 8 0 else (r.setState 4).put 3 1 c

theorem Rec.keepsBut_afterArm (r : Rec) (c : Nat) : KeepsBut r (r.afterArm c) [(2, 2), (96, 8)] := by
  have hstate (v : Nat) : KeepsBut r (r.setState v) [(2, 2), (96, 8)] := keepsBut_put (fun _ _ => rfl) v (by decide) (by decide)
  unfold Rec.afterArm
  split
  · exact keepsBut_put (keepsBut_put (hstate 1) 0 (by decide) (by decide)) 0 (by decide) (by decide)
  · exact keepsBut_put (hstate 4) c (by decide) (by decide)

theorem Rec.fields_afterArm (r : Rec) {c : Nat} (hc : c < 256) :
    if c = 0 then field (r.afterArm c) 2 1 = 1 ∧ field (r.afterArm c) 3 1 = 0 ∧ field (r.afterArm c) 96 8 = 0
    else field (r.afterArm c) 2 1 = 4 ∧ field (r.afterArm c) 3 1 = c := by
  unfold Rec.afterArm Rec.setState
  split
  · refine ⟨?_, ?_, ?_⟩
    · rw [field_put_other _ _ (by decide) (by decide), field_put_other _ _ (by decide) (by decide), field_put_same _ (by decide) (by decide)]
    · rw [field_put_other _ _ (by decide) (by decide), field_put_same _ (by decide) (by decide)]
    · rw [field_put_same _ (by decide) (by decide)]
  · constructor
    · rw [field_put_other _ _ (by decide) (by decide), field_put_same _ (by decide) (by decide)]
    · exact field_put_same _ hc (by decide)

theorem State.armCheck_le (s : State) (r : Rec) : s.armCheck r ≤ 0x18 := by
  unfold State.armCheck
  extract_lets dims
  split_ifs <;> decide

/-- The record of a LID is `q`, and besides only replies have changed. -/
structure State.Recorded (s : State) (lid : W16) (q : Rec) (a : State) : Prop where
  same : s.SameButReplies a
  record : Claims.record a lid.toNat = some q

theorem State.Recorded.andThen {lid q} {b : State} (h : s.Recorded lid q a) (k : a.SameRecords b) : s.Recorded lid q b :=
  ⟨h.same.andThen k, (k.record _).trans h.record⟩

theorem State.SameRecords.recorded_setRec (h : s.SameRecords a) {lid : W16} (hlid : lid.toNat < 0x4000) (q : Rec) :
    s.Recorded lid q (a.setRec lid q) :=
  ⟨((SameButReplies.refl s).andThen h).setRec .., a.record_setRec hlid q⟩

/-- An arm answers the check's cause, and leaves the record as it says (R356). -/
theorem State.armRecord_recorded (s : State) {lid : W16} (hlid : lid.toNat < 0x4000) (r : Rec) (ht : s.out.tray = .serving) :
    ∃ t, s.armRecord lid r = (t, s.armCheck r) ∧ s.Recorded lid (r.afterArm (s.armCheck r)) t := by
  have h0 : s.SameRecords ((s.journal (lidDie lid) (.arm lid)).kick lid false) := ((SameRecords.refl s).journal ..).kick ..
  unfold State.armRecord Rec.afterArm
  extract_lets s0 c r1
  by_cases hc : c = 0
  · have hc' : s.armCheck r = 0 := hc
    rw [if_neg (by simpa using hc), if_neg (by simpa using ht), hc', if_pos rfl]
    split
    next n s1 e1 =>
    extract_lets s2 s3 ls s4
    have h2 : s.SameRecords s2 := (h0.takeId e1).modPkg fun _ => rfl
    have h3 : s.Recorded lid r1 s3 := by
      refine (h2.recorded_setRec hlid r1).andThen (.writeArgs ?_ _)
      exact (SameRecords.refl _).modDie _ fun _ => rfl
    split
    · have h4 : s3.SameRecords s4 := (SameRecords.refl s3).modPkg fun _ => rfl
      refine ⟨_, rfl, h3.andThen (h4.foldl fun b e hb => ?_)⟩
      split
      · exact (hb.push _).modPkg fun _ => rfl
      · exact hb
    · exact ⟨_, rfl, h3.andThen ((SameRecords.refl _).loadWalkers ..)⟩
  · rw [if_pos hc, if_neg hc]
    exact ⟨_, rfl, h0.recorded_setRec hlid _⟩

/-! ## Loads (R109, R464) -/

theorem bytesOf_eq_leBytes (n v : Nat) : bytesOf n v = leBytes n v := by
  induction n generalizing v with
  | zero => rfl
  | succ n ih =>
    rw [leBytes, ← ih, bytesOf, List.range_succ_eq_map, List.map_cons, List.map_map]
    simp [bytesOf, Function.comp_def, Nat.pow_succ', Nat.div_div_eq_div_mul]

/-- What setting up an ASID leaves: it writes the ring's windows and the doorbells (R410, R449). -/
structure State.SetUp (s a : State) : Prop where
  threads : a.threads = s.threads
  mem : a.mem = s.mem
  pkg : a.pkg = s.pkg
  dies : a.dies = s.dies
  sent : a.out.sent = s.out.sent
  meas : a.out.meas = s.out.meas
  keys : a.out.keys = s.out.keys

/-- The state in which a file's plan is made. -/
def State.setupAsid (s : State) (asid : W16) : State := (s.setupRing asid).setupDoorbell asid

theorem State.setUp_setupAsid (s : State) (asid : W16) : s.SetUp (s.setupAsid asid) := by
  have hring : s.SetUp (s.setupRing asid) := by
    unfold State.setupRing
    split
    · exact ⟨rfl, rfl, rfl, rfl, rfl, rfl, rfl⟩
    · extract_lets n w
      split <;> exact ⟨rfl, rfl, rfl, rfl, rfl, rfl, rfl⟩
  obtain ⟨hthreads, hmem, hpkg, hdies, hsent, hmeas, hkeys⟩ := hring
  unfold State.setupAsid State.setupDoorbell
  split
  · exact ⟨hthreads, hmem, hpkg, hdies, hsent, hmeas, hkeys⟩
  · split <;> exact ⟨hthreads, hmem, hpkg, hdies, hsent, hmeas, hkeys⟩

/-- No check of a load looks at the doorbells. -/
theorem State.planLoad_setupAsid (s : State) (asid : W16) (file : List W8) :
    (s.setupAsid asid).planLoad asid file = (s.setupRing asid).planLoad asid file := by
  unfold State.setupAsid State.setupDoorbell
  split
  · rfl
  · split <;> rfl

theorem State.extend_same (s : State) (i : Nat) (d : BitVec 512) :
    (s.extend i d).out.meas.getD i 0 = sha512 (bytesOf 64 (s.out.meas.getD i 0).toNat ++ bytesOf 64 d.toNat) := by
  rw [bytesOf_eq_leBytes, bytesOf_eq_leBytes]
  exact congrArg (Option.getD · 0) (Tab.find_set_same ..)

theorem State.extend_other (s : State) {i k : Nat} (d : BitVec 512) (h : k ≠ i) :
    (s.extend i d).out.meas.getD k 0 = s.out.meas.getD k 0 :=
  congrArg (Option.getD · 0) (Tab.find_set_other _ _ _ _ h)

theorem headerError_of_magic {file : List W8} (h : file.length < 128 ∨ ofBytes (file.take 4) ≠ 0x4D525A4F) : headerError file = 1 := by
  unfold headerError
  extract_lets fsize secs spans
  exact if_pos (h.imp id .inl)

theorem State.SameButReplies.putRecord (h : s.SameButReplies a) (asid lid t) : s.SameButReplies (a.putRecord asid lid t) := by
  unfold State.putRecord
  extract_lets r0 r1 r2 r3 n at_ space save b
  have hb : a.SameRecords b := (SameRecords.refl a).mapRange ..
  refine (h.andThen ?_).setRec ..
  exact hb.modPkg fun _ => rfl

/-- A load keeps `out` and the threads but for replies, and its images are those of the controllers' copy (R101). -/
theorem State.performLoad_effect (s : State) (asid : W16) (l : Load) :
    SameThreads s (s.performLoad asid l) ∧ (s.performLoad asid l).out = s.out ∧
      ∀ im ∈ l.images, im ∈ (s.performLoad asid l).pkg.images := by
  unfold State.performLoad
  extract_lets s1 s2 s3 s4
  have h1 : s.SameRecords s1 := (SameRecords.refl s).foldl fun b e hb => by
    extract_lets bytes c
    have hc : s.SameRecords c := (hb.mapRange ..).writeArea ..
    exact hc.modPkg fun _ => rfl
  have h3 : s2.SameRecords s3 := (SameRecords.refl s2).foldl fun b e hb => by
    split
    · exact hb.foldl fun _ _ hc => hc.setBob ..
    · exact hb
  have h4 : s2.SameButReplies s4 := ((SameButReplies.refl s2).andThen h3).foldl fun b e hb => hb.putRecord ..
  have h5 := h4.andThen ((SameRecords.refl s4).foldl (l := l.spads) fun b e hb => hb.modDie (e.1 / 4096)
    (f := fun d => { d with spad := d.spad.set (e.1 % 4096) e.2 }) fun _ => rfl)
  refine ⟨fun k th e => h5.threads k th ?_, h5.out.trans h1.out, fun im him => ?_⟩
  · rw [← h1.threads] at e
    exact e
  · rw [h5.images]
    exact List.mem_append_right _ him

/-! ## Trays (R436, R454) -/

theorem State.trainPort_other (s : State) {n m : Nat} (offered : List Nat) (h : m ≠ n) :
    (s.trainPort n offered).port m = s.port m := by
  unfold State.trainPort
  split
  · exact s.port_setPort_other _ h
  · rfl

/-- A port is up under the highest version that both sides offer (R436). -/
def PortUp (offered : List Nat) (p : Port) : Prop := p.up = true ∧ p.version = if 3 ∈ offered then 3 else 2

theorem State.trainPort_up (s : State) (n : Nat) {offered : List Nat} (h : 3 ∈ offered ∨ 2 ∈ offered) :
    PortUp offered ((s.trainPort n offered).port n) := by
  unfold State.trainPort negotiated
  by_cases h3 : 3 ∈ offered
  · simp [h3, PortUp]
  · have h2 : 2 ∈ offered := h.resolve_left h3
    simp [h3, h2, PortUp]

theorem State.trainPorts_up {offered : List Nat} (h : 3 ∈ offered ∨ 2 ∈ offered) (s : State) {k n : Nat} (hn : n < k) :
    PortUp offered (((List.range k).foldl (fun a n => a.trainPort n offered) s).port n) := by
  induction k with
  | zero => omega
  | succ k ih =>
    rw [List.range_succ, List.foldl_append, List.foldl_cons, List.foldl_nil]
    by_cases hk : n = k
    · exact hk ▸ trainPort_up _ _ h
    · rw [trainPort_other _ _ hk]
      exact ih (by omega)

theorem State.trainPorts_same (offered l : List Nat) (s : State) :
    (l.foldl (fun a n => a.trainPort n offered) s).mem = s.mem ∧
      (l.foldl (fun a n => a.trainPort n offered) s).out.sent = s.out.sent := by
  refine List.foldlRecOn l _ (motive := fun a : State => a.mem = s.mem ∧ a.out.sent = s.out.sent) ⟨rfl, rfl⟩ fun a ha n _ => ?_
  unfold State.trainPort
  split <;> exact ha

end Sys2Proof.Machine

namespace Sys2Proof

open Claims Machine

variable {s : State}

/-! ## What the commands answer -/

theorem outside_of_true {name : String} {ok : Bool} (h : ok = true) (s : State) (k : State → State) :
    outside name ok s k = .next (k s) := if_pos h

/-- A load is answered by the first check that fails, else by the images' load and the file's measurement (R109, R450, R464). -/
theorem exec_mgmtLoadOzrum (hready : s.ready = true) (hserved : s.served = true) (asid : W16) (file : List W8) :
    exec (.mgmtLoadOzrum asid file) s = .next
      (let a := s.setupAsid asid
       if headerError file ≠ 0 then a.send (.reply [BitVec.ofNat 8 (headerError file)])
       else match (s.setupRing asid).planLoad asid file with
        | none => a.send (.reply [4])
        | some l =>
          if signedFile file ∧ !signatureOk s.out.keys file then a.send (.reply [5])
          else if !signedFile file ∧ s.pkg.signed.contains asid then a.send (.reply [6])
          else (((a.performLoad asid l).extend 4 (sha512 file)).journal 0 .command).send (.reply [0])) := by
  have hset := s.setUp_setupAsid asid
  change execMgmtLoadOzrum asid file s = _
  rw [← s.planLoad_setupAsid, ← hset.keys, ← hset.pkg]
  exact outside_of_true (by simp [hready, hserved]) s _

/-- What a rejected file leaves (R109). -/
def LoadRejected (s : State) (v : W8) (t : State) : Prop :=
  t.threads = s.threads ∧ t.mem = s.mem ∧ t.pkg = s.pkg ∧ t.dies = s.dies ∧
    t.out.sent = s.out.sent ++ [.reply [v]] ∧ t.out.meas = s.out.meas

theorem loadRejected_send (s : State) (asid : W16) (v : W8) : LoadRejected s v ((s.setupAsid asid).send (.reply [v])) := by
  obtain ⟨hthreads, hmem, hpkg, hdies, hsent, hmeas, -⟩ := s.setUp_setupAsid asid
  exact ⟨hthreads, hmem, hpkg, hdies, congrArg (· ++ _) hsent, hmeas⟩

/-- What an accepted file leaves (R109, R464). -/
def LoadAccepted (s : State) (file : List W8) (l : Load) (t : State) : Prop :=
  SameThreads s t ∧ t.out.sent = s.out.sent ++ [.reply [0]] ∧ (∀ im ∈ l.images, im ∈ t.pkg.images) ∧
    t.out.meas.getD 4 0 = sha512 (bytesOf 64 (s.out.meas.getD 4 0).toNat ++ bytesOf 64 (sha512 file).toNat) ∧
    ∀ k, k ≠ 4 → t.out.meas.getD k 0 = s.out.meas.getD k 0

theorem loadAccepted_performLoad (s : State) (asid : W16) (file : List W8) (l : Load) :
    LoadAccepted s file l
      (((((s.setupAsid asid).performLoad asid l).extend 4 (sha512 file)).journal 0 .command).send (.reply [0])) := by
  have hset := s.setUp_setupAsid asid
  obtain ⟨hthreads, hout, himages⟩ := (s.setupAsid asid).performLoad_effect asid l
  have hsent : ((s.setupAsid asid).performLoad asid l).out.sent = s.out.sent := hout ▸ hset.sent
  have hmeas : ((s.setupAsid asid).performLoad asid l).out.meas = s.out.meas := hout ▸ hset.meas
  refine ⟨fun k th e => ?_, congrArg (· ++ _) hsent, himages, ?_, fun k hk => ?_⟩
  · rw [← hset.threads] at e
    exact hthreads k th e
  · rw [← hmeas]
    exact State.extend_same ..
  · rw [← hmeas]
    exact State.extend_other _ _ hk

section Loads
variable {asid : W16} {file : List W8} {l : Load}

theorem load_of_headerError (hready : s.ready = true) (hserved : s.served = true) (h : headerError file ≠ 0) :
    Next (.mgmtLoadOzrum asid file) s (LoadRejected s (BitVec.ofNat 8 (headerError file))) :=
  ⟨_, (exec_mgmtLoadOzrum hready hserved asid file).trans (congrArg _ (if_pos h)), loadRejected_send ..⟩

theorem load_of_no_plan (hready : s.ready = true) (hserved : s.served = true) (h : headerError file = 0)
    (hplan : (s.setupRing asid).planLoad asid file = none) : Next (.mgmtLoadOzrum asid file) s (LoadRejected s 4) := by
  refine ⟨_, ?_, loadRejected_send s asid 4⟩
  rw [exec_mgmtLoadOzrum hready hserved, if_neg (not_not.2 h), hplan]

/-- A file with a plan is answered by the checks of its signature (R105, R109). -/
theorem exec_load_of_plan (hready : s.ready = true) (hserved : s.served = true) (h : headerError file = 0)
    (hplan : (s.setupRing asid).planLoad asid file = some l) :
    exec (.mgmtLoadOzrum asid file) s = .next
      (let a := s.setupAsid asid
       if signedFile file ∧ !signatureOk s.out.keys file then a.send (.reply [5])
       else if !signedFile file ∧ s.pkg.signed.contains asid then a.send (.reply [6])
       else (((a.performLoad asid l).extend 4 (sha512 file)).journal 0 .command).send (.reply [0])) := by
  rw [exec_mgmtLoadOzrum hready hserved, if_neg (not_not.2 h), hplan]

end Loads

/-- An arm of management is answered as `lrec.arm` is (R356, R450). -/
theorem exec_mgmtArmLaunch (hready : s.ready = true) (hserved : s.served = true) (lid : W16) :
    exec (.mgmtArmLaunch lid) s = .next
      (match s.rec? lid with
       | none => s.send (.reply [1])
       | some r =>
         if !restState r.state then s.send (.reply [2])
         else (s.armRecord lid r).1.send (.reply [BitVec.ofNat 8 (s.armRecord lid r).2])) :=
  show execMgmtArmLaunch lid s = _ from outside_of_true (by simp [hready, hserved]) s _

/-- An arm's answer and what it leaves: its cause, and the record armed or failed. -/
theorem mgmtArmLaunch_recorded (hready : s.ready = true) (hserved : s.served = true) (ht : s.out.tray = .serving) {lid : W16} {r : Rec}
    (hr : record s lid.toNat = some r) (hrest : AtRest r) :
    Next (.mgmtArmLaunch lid) s fun t => SameThreads s t ∧ t.out.sent = s.out.sent ++ [.reply [BitVec.ofNat 8 (s.armCheck r)]] ∧
      record t lid.toNat = some (r.afterArm (s.armCheck r)) := by
  have hlid : lid.toNat < 0x4000 := by
    by_contra hlid
    rw [record, if_neg hlid] at hr
    cases hr
  obtain ⟨t, harm, hrecorded⟩ := s.armRecord_recorded hlid r ht
  refine ⟨t.send (.reply [BitVec.ofNat 8 (s.armCheck r)]), ?_, hrecorded.same.threads, ?_, hrecorded.record⟩
  · rw [exec_mgmtArmLaunch hready hserved, rec?_eq_record, hr]
    simp [(restState_iff_atRest r).2 hrest, harm]
  · exact congrArg (fun o : Outer => o.sent ++ _) hrecorded.same.out

/-! ### Trays -/

/-- A command out of order replies with the tray's state, and changes nothing that is seen (R454). -/
def TrayStays (s t : State) : Prop :=
  t.out = { s.out with sent := s.out.sent ++ [.reply [s.out.tray.code]] } ∧ t.threads = s.threads ∧ t.mem = s.mem

theorem exec_trayQuiesce (h : s.served = true) :
    exec .trayQuiesce s = .next
      (if s.out.tray ≠ .serving then s.sameTray
       else if s.pkg.pre = .none then (s.setTray .quiesced).urge .preemptionRequest else s.setTray .quiesced) :=
  show execTrayQuiesce s = _ from outside_of_true h s _

theorem exec_trayDrain (h : s.served = true) (hoffer : s.out.tray ≠ .quiesced ∨ s.drained = true ∨ Instr.trayDrain ∉ s.pool) :
    exec .trayDrain s = .next
      (if s.out.tray ≠ .quiesced then { s with pool := s.pool.erase .trayDrain }.sameTray
       else if s.drained then { s with pool := s.pool.erase .trayDrain }.setTray .drained
       else s.push .trayDrain) :=
  show execTrayDrain s = _ from outside_of_true (by simpa [h, or_assoc] using hoffer) s _

theorem exec_trayPoweroff (h : s.served = true) :
    exec .trayPoweroff s = .next
      (if s.out.tray ≠ .drained then s.sameTray
       else
        { State.reset with
          cycle := s.cycle, agenda := s.agenda, plan := s.plan, nextId := s.nextId, fresh := s.fresh
          out := { sent := s.out.sent, tray := .off } }.send (.reply [TrayState.off.code])) :=
  show execTrayPoweroff s = _ from outside_of_true h s _

theorem exec_trayReinsertion (ht : s.out.tray = .off) (offered : List Nat) :
    exec (.trayReinsertion offered) s = .next (((List.range 18).foldl (fun a n => a.trainPort n offered) s).setTray .serving) :=
  show execTrayReinsertion offered s = _ from outside_of_true (by simp [ht]) s _

theorem code_of_served (h : s.served = true) :
    s.out.tray.code = if s.out.tray = .serving then 0 else if s.out.tray = .quiesced then 1 else 2 := by
  cases ht : s.out.tray with
  | serving => rfl
  | quiesced => rfl
  | drained => rfl
  | off => simp [State.served, ht] at h

/-- A command that is out of order is answered with the state's code. -/
theorem stays_of_exec {i : Instr} {t : State} (hserved : s.served = true) (he : exec i s = .next t) (ht : TrayStays s t) :
    Next i s fun t => t.out = { s.out with sent := s.out.sent ++
        [.reply [if s.out.tray = .serving then 0 else if s.out.tray = .quiesced then 1 else 2]] } ∧
      t.threads = s.threads ∧ t.mem = s.mem := by
  obtain ⟨hout, hthreads, hmem⟩ := ht
  rw [code_of_served hserved] at hout
  exact ⟨t, he, hout, hthreads, hmem⟩

/-- A reinserted tray serves, its ports trained (R436, R454). -/
theorem trayReinsertion_trains (hoff : s.out.tray = .off) (offered : List Nat) :
    Next (.trayReinsertion offered) s fun t => t.out.tray = .serving ∧ t.out.sent = s.out.sent ++ [.reply [0]] ∧ t.mem = s.mem ∧
      ∀ n, n < 18 → 3 ∈ offered ∨ 2 ∈ offered → PortUp offered (t.port n) := by
  obtain ⟨hmem, hsent⟩ := State.trainPorts_same offered (List.range 18) s
  have hup := fun n (hn : n < 18) hboth => State.trainPorts_up (offered := offered) hboth s hn
  have he := exec_trayReinsertion hoff offered
  generalize (List.range 18).foldl (fun a n => a.trainPort n offered) s = a at hmem hsent hup he
  exact ⟨_, he, rfl, congrArg (· ++ _) hsent, hmem, hup⟩

/-- Settles O55: a load is answered by its first failing check (`exec_mgmtLoadOzrum`), an arm by `armRecord`, a tray by its state. -/
theorem managementCommands : Obligations.ManagementCommands := by
  intro s
  refine ⟨fun hready hserved asid file => ?loads, fun hready hserved lid => ?arms, fun hserved => ?trays,
    fun hoff offered => trayReinsertion_trains hoff offered⟩
  case loads =>
    intro i rejects s0
    refine ⟨fun hmagic => ?_, load_of_headerError hready hserved, load_of_no_plan hready hserved, fun l hgood hplan => ?_⟩
    · have hone := headerError_of_magic hmagic
      have hrejected := load_of_headerError hready hserved (asid := asid) (hone ▸ Nat.one_ne_zero)
      rwa [hone] at hrejected
    · have hexec := exec_load_of_plan hready hserved hgood hplan
      refine ⟨fun hsigned hbad => ⟨_, ?_, loadRejected_send s asid 5⟩, fun hunsigned hneed => ⟨_, ?_, loadRejected_send s asid 6⟩,
        fun hok => ⟨_, ?_, loadAccepted_performLoad s asid file l⟩⟩
      · rw [hexec, if_pos (by simp [hsigned, hbad])]
      · rw [hexec, if_neg (by simp [hunsigned]), if_pos (by simp [hunsigned, hneed])]
      · obtain ⟨hsigned, hverified⟩ | ⟨hunsigned, hfree⟩ := hok
        · rw [hexec, if_neg (by simp [hverified]), if_neg (by simp [hsigned])]
        · rw [hexec, if_neg (by simp [hunsigned]), if_neg (by simp [hfree])]
  case arms =>
    refine ⟨fun hnone => ?_, fun r hr => ⟨fun hbusy => ?_, fun hrest ht => ?_⟩⟩
    · rw [exec_mgmtArmLaunch hready hserved, rec?_eq_record, hnone]
    · rw [exec_mgmtArmLaunch hready hserved, rec?_eq_record, hr]
      simp [mt (restState_iff_atRest r).1 hbusy]
    · obtain ⟨t, he, hthreads, hsent, hrec⟩ := mgmtArmLaunch_recorded hready hserved ht hr hrest
      have hcause : s.armCheck r < 256 := (s.armCheck_le r).trans_lt (by decide)
      exact ⟨t, he, hthreads, hsent, _, hrec, Rec.keepsBut_afterArm r _, Rec.fields_afterArm r hcause⟩
  case trays =>
    have hquiesce := exec_trayQuiesce hserved
    have hoff := exec_trayPoweroff hserved
    refine ⟨fun ht => ⟨?_, fun hpre => ?_⟩, fun ht => ?_, fun ht hd => ?_, fun ht hd hp => ?_, fun ht => ?_, fun ht => ?_, fun ht => ?_⟩
    · refine ⟨_, hquiesce.trans (congrArg _ (if_neg (not_not.2 ht))), ?_⟩
      split <;> exact ⟨rfl, rfl⟩
    · exact ⟨_, hquiesce.trans (congrArg _ ((if_neg (not_not.2 ht)).trans (if_pos hpre))), rfl⟩
    · exact stays_of_exec hserved (hquiesce.trans (congrArg _ (if_pos ht))) ⟨rfl, rfl, rfl⟩
    · have hdrain := exec_trayDrain hserved (.inr (.inl hd))
      exact ⟨_, hdrain.trans (congrArg _ ((if_neg (not_not.2 ht)).trans (if_pos hd))), rfl, rfl⟩
    · rw [exec_trayDrain hserved (.inr (.inr hp)), if_neg (not_not.2 ht), if_neg (Bool.not_eq_true _ ▸ hd)]
    · exact stays_of_exec hserved ((exec_trayDrain hserved (.inl ht)).trans (congrArg _ (if_pos ht))) ⟨rfl, rfl, rfl⟩
    · have he := hoff.trans (congrArg _ (if_neg (not_not.2 ht)))
      exact ⟨⟨_, he, rfl, rfl⟩, _, he, rfl, rfl, rfl⟩
    · exact stays_of_exec hserved (hoff.trans (congrArg _ (if_pos ht))) ⟨rfl, rfl, rfl⟩

end Sys2Proof
end

section
/-! Floating-point encodings as real numbers (R206). -/

namespace Sys2Proof.Machine
open Claims

/-! ## Magnitudes -/

/-- The factor of a sign. -/
def sg (neg : Bool) : ℝ := if neg then -1 else 1

/-- The value of a magnitude's encoding in units of the subnormals' last place: a step from one encoding to the next is one
unit at first and doubles with each exponent. -/
def magUnits (mb m : Nat) : Nat := (m - (m / 2 ^ mb - 1) * 2 ^ mb) * 2 ^ (m / 2 ^ mb - 1)

/-- `n` units of the place `a` above the lowest are encoded by their sum, a carry into the exponent included. -/
theorem magUnits_mk {mb a n : Nat} (hn : n ≤ 2 ^ (mb + 1)) (ha : 0 < a → 2 ^ mb ≤ n) : magUnits mb (a * 2 ^ mb + n) = n * 2 ^ a := by
  have hp : 0 < 2 ^ mb := by positivity
  rw [pow_succ] at hn
  have hdiv : (a * 2 ^ mb + n) / 2 ^ mb = a + n / 2 ^ mb := by rw [add_comm, Nat.add_mul_div_right _ _ hp, add_comm]
  unfold magUnits
  rw [hdiv]
  rcases Nat.lt_or_ge n (2 ^ mb) with h | h
  · obtain rfl : a = 0 := by by_contra h0; have := ha (by omega); omega
    simp [Nat.div_eq_of_lt h]
  rcases Nat.lt_or_ge n (2 ^ mb * 2) with h2 | h2
  · have : n / 2 ^ mb = 1 := Nat.div_eq_of_lt_le (by omega) (by omega)
    rw [this, Nat.add_sub_cancel, Nat.add_sub_cancel_left]
  · obtain rfl : n = 2 ^ mb * 2 := by omega
    rw [Nat.mul_div_cancel_left _ hp, show a + 2 - 1 = a + 1 by omega, Nat.succ_mul, pow_succ, Nat.add_sub_add_left]
    rw [show 2 ^ mb * 2 - 2 ^ mb = 2 ^ mb by omega]
    ring

theorem magUnits_succ (mb m : Nat) : magUnits mb (m + 1) = magUnits mb m + 2 ^ (m / 2 ^ mb - 1) := by
  obtain ⟨hle, hlt⟩ : m / 2 ^ mb * 2 ^ mb ≤ m ∧ m < (m / 2 ^ mb + 1) * 2 ^ mb :=
    ⟨Nat.div_mul_le_self _ _, by rw [mul_comm]; exact Nat.lt_mul_div_succ m (by positivity)⟩
  generalize m / 2 ^ mb = t at hle hlt
  obtain ⟨n, rfl⟩ := Nat.exists_eq_add_of_le ((Nat.mul_le_mul_right (2 ^ mb) (Nat.sub_le t 1)).trans hle)
  have hn : n < 2 ^ (mb + 1) := by
    have := Nat.mul_le_mul_right (2 ^ mb) (show t + 1 ≤ t - 1 + 2 by omega)
    rw [pow_succ]
    linarith
  have hn1 : 0 < t - 1 → 2 ^ mb ≤ n := by
    intro h
    have := Nat.mul_le_mul_right (2 ^ mb) (show t - 1 + 1 ≤ t by omega)
    linarith
  rw [add_assoc, magUnits_mk (by omega) fun h => (hn1 h).trans (by omega), magUnits_mk (by omega) hn1]
  ring

theorem magUnits_strictMono (mb : Nat) : StrictMono (magUnits mb) :=
  strictMono_nat_of_lt_succ fun m => by rw [magUnits_succ]; exact Nat.lt_add_of_pos_right (by positivity)

@[simp] theorem magUnits_zero (mb : Nat) : magUnits mb 0 = 0 := by simp [magUnits]

/-- The exponent of a format's subnormals' last place. -/
def qminOf (eb mb : Nat) : Int := 1 - biasOf eb - mb

theorem mod_pow_add_div (eb mb b : Nat) : b % 2 ^ (eb + mb) / 2 ^ mb = b / 2 ^ mb % 2 ^ eb := by
  rw [add_comm, pow_add, Nat.mod_mul_right_div_self]

theorem mod_pow_add_mod (eb mb b : Nat) : b % 2 ^ (eb + mb) % 2 ^ mb = b % 2 ^ mb :=
  Nat.mod_mod_of_dvd _ (pow_dvd_pow 2 (by omega))

/-- A value is its magnitude's units with its sign. -/
theorem value_eq_units (eb mb b : Nat) :
    value eb mb b = sg (signAt eb mb b) * magUnits mb (b % 2 ^ (eb + mb)) * (2 : ℝ) ^ qminOf eb mb := by
  have hm : b % 2 ^ (eb + mb) = (b / 2 ^ mb % 2 ^ eb) * 2 ^ mb + b % 2 ^ mb := by
    rw [← mod_pow_add_div, ← mod_pow_add_mod eb mb b, mul_comm]; exact (Nat.div_add_mod _ _).symm
  have hf : b % 2 ^ mb < 2 ^ mb := Nat.mod_lt _ (by positivity)
  unfold value
  rw [mul_assoc]
  congr 1
  rw [hm]
  split
  · rename_i h
    rw [h, magUnits_mk (by rw [pow_succ]; omega) (by omega)]
    simp [qminOf]
  · rename_i h
    obtain ⟨a, ha⟩ : ∃ a, b / 2 ^ mb % 2 ^ eb = a + 1 := ⟨_, (Nat.succ_pred_eq_of_ne_zero h).symm⟩
    rw [ha, show (a + 1) * 2 ^ mb + b % 2 ^ mb = a * 2 ^ mb + (2 ^ mb + b % 2 ^ mb) by ring,
      magUnits_mk (by rw [pow_succ]; omega) (by omega)]
    push_cast
    rw [mul_assoc, ← zpow_natCast (2 : ℝ) a, ← zpow_add₀ (by norm_num)]
    congr 2
    simp only [qminOf]
    ring

theorem signAt_eq (eb mb b : Nat) : signAt eb mb b = (b / 2 ^ (eb + mb) % 2 == 1) := by
  rw [signAt, Nat.testBit_eq_decide_div_mod_eq]
  rfl

theorem withSign_lt {eb mb m : Nat} (neg : Bool) (h : m < 2 ^ (eb + mb)) : withSign eb mb neg m < 2 ^ (1 + eb + mb) := by
  rw [add_assoc, pow_add, withSign]
  split <;> omega

theorem withSign_mod {eb mb m : Nat} (neg : Bool) (h : m < 2 ^ (eb + mb)) : withSign eb mb neg m % 2 ^ (eb + mb) = m := by
  cases neg <;> simp [withSign, Nat.mod_eq_of_lt h]

theorem signAt_withSign {eb mb m : Nat} (neg : Bool) (h : m < 2 ^ (eb + mb)) : signAt eb mb (withSign eb mb neg m) = neg := by
  rw [signAt_eq]
  cases neg
  · simp [withSign, Nat.div_eq_of_lt h]
  · simp [withSign, Nat.div_eq_of_lt h]

theorem value_withSign {eb mb m : Nat} (neg : Bool) (h : m < 2 ^ (eb + mb)) :
    value eb mb (withSign eb mb neg m) = sg neg * magUnits mb m * (2 : ℝ) ^ qminOf eb mb := by
  rw [value_eq_units, signAt_withSign neg h, withSign_mod neg h]

end Sys2Proof.Machine
end

section
/-! What `unpack` reads in the formats with infinities (R206, R207). -/

namespace Sys2Proof.Machine
open Claims

/-! ## Formats with infinities (R206, R207) -/

/-- A format that holds infinities and NaNs, with the middle bias (R206). -/
structure Fmt.Ieee (f : Fmt) : Prop where
  ieee : f.ieee = true
  oneNan : f.oneNan = false
  bias : (f.bias : Int) = biasOf f.ebits
  ebits : 2 ≤ f.ebits
  mbits : 2 < f.mbits

theorem ieee_fp64 : fp64.Ieee := ⟨rfl, rfl, rfl, by decide, by decide⟩
theorem ieee_fp32 : fp32.Ieee := ⟨rfl, rfl, rfl, by decide, by decide⟩
theorem ieee_bf16 : bf16.Ieee := ⟨rfl, rfl, rfl, by decide, by decide⟩
theorem ieee_fp16 : fp16.Ieee := ⟨rfl, rfl, rfl, by decide, by decide⟩

theorem ieee_wFmt (w : BitVec 1) : (wFmt w).Ieee := by
  unfold wFmt
  split
  · exact ieee_fp64
  · exact ieee_fp32

theorem ebOf_eq (w : BitVec 1) : ebOf w = (wFmt w).ebits := by
  unfold ebOf wFmt
  split <;> rfl

theorem mbOf_eq (w : BitVec 1) : mbOf w = (wFmt w).mbits := by
  unfold mbOf wFmt
  split <;> rfl

theorem operand_eq (w : BitVec 1) (x : W64) : Claims.operand w x = x.toNat % 2 ^ (wFmt w).width := by
  rw [Claims.operand, ebOf_eq, mbOf_eq]
  rfl

variable {f : Fmt}

theorem Fmt.Ieee.qmin (h : f.Ieee) : f.qmin = qminOf f.ebits f.mbits := by
  rw [Fmt.qmin, h.bias]
  rfl

theorem Fmt.Ieee.infBits (_ : f.Ieee) : f.infBits = infinity f.ebits f.mbits := rfl
theorem Fmt.Ieee.maxBits (h : f.Ieee) : f.maxBits = largest f.ebits f.mbits := by simp [Fmt.maxBits, h.ieee, largest, emax]
theorem Fmt.Ieee.nanBits (h : f.Ieee) : f.nanBits = canonicalNaN f.ebits f.mbits := by
  simp [Fmt.nanBits, h.ieee, canonicalNaN, h.infBits, infinity]
theorem Fmt.signed_eq (f : Fmt) (neg : Bool) (m : Nat) : f.signed neg m = withSign f.ebits f.mbits neg m := rfl

/-! ## What `unpack` reads -/

theorem signBit_eq (f : Fmt) : f.signBit = 2 ^ (f.ebits + f.mbits) := rfl

/-- `unpack` by the fields of the encoding. -/
theorem Fmt.Ieee.unpack (h : f.Ieee) (b : Nat) : f.unpack b =
    if b / 2 ^ f.mbits % 2 ^ f.ebits = emax f.ebits then
      (if b % 2 ^ f.mbits = 0 then .inf (signAt f.ebits f.mbits b) else .nan (!b.testBit (f.mbits - 1)))
    else if b / 2 ^ f.mbits % 2 ^ f.ebits = 0 then .fin (signAt f.ebits f.mbits b) (b % 2 ^ f.mbits) f.qmin
    else .fin (signAt f.ebits f.mbits b) (b % 2 ^ f.mbits + 2 ^ f.mbits) (f.qmin + (b / 2 ^ f.mbits % 2 ^ f.ebits : Nat) - 1) := by
  have hq : (decide (f.mbits > 2) && b % 2 ^ f.mbits / 2 ^ (f.mbits - 1) % 2 == 0) = !b.testBit (f.mbits - 1) := by
    obtain ⟨k, hk⟩ : ∃ k, f.mbits = k + 1 := ⟨f.mbits - 1, by have := h.mbits; omega⟩
    have hd : b % 2 ^ (k + 1) / 2 ^ k = b / 2 ^ k % 2 := by rw [pow_succ, Nat.mod_mul_right_div_self]
    rw [hk, Nat.add_sub_cancel, hd, Nat.testBit_eq_decide_div_mod_eq, ← hk, Nat.mod_mod]
    have := h.mbits
    rcases Nat.mod_two_eq_zero_or_one (b / 2 ^ k) with h2 | h2 <;> simp [h2, this]
  unfold Fmt.unpack
  simp only [signBit_eq, mod_pow_add_div, mod_pow_add_mod, h.ieee, h.oneNan, Bool.true_and, Bool.false_and, beq_iff_eq,
    Bool.false_eq_true, if_false, ← signAt_eq, hq]
  rfl

theorem Fmt.Ieee.unpack_nan (h : f.Ieee) {b : Nat} (hb : isNaN f.ebits f.mbits b) :
    f.unpack b = .nan (!b.testBit (f.mbits - 1)) := by
  rw [h.unpack, if_pos hb.1, if_neg hb.2]

theorem Fmt.Ieee.unpack_inf (h : f.Ieee) {b : Nat} (hb : isInf f.ebits f.mbits b) :
    f.unpack b = .inf (signAt f.ebits f.mbits b) := by
  rw [h.unpack, if_pos hb.1, if_pos hb.2]

/-- A number's sign, integer and exponent. -/
structure Reads (f : Fmt) (b : Nat) (m : Nat) (e : Int) : Prop where
  unpack : f.unpack b = .fin (signAt f.ebits f.mbits b) m e
  value : value f.ebits f.mbits b = sg (signAt f.ebits f.mbits b) * (m * (2 : ℝ) ^ e)
  lt : m < 2 ^ (f.mbits + 1)
  low : f.qmin ≤ e
  high : e ≤ f.qmin + (2 ^ f.ebits - 3 : Nat)
  zero : m = 0 ↔ isZero f.ebits f.mbits b

theorem isZero_iff (eb mb b : Nat) : isZero eb mb b ↔ b / 2 ^ mb % 2 ^ eb = 0 ∧ b % 2 ^ mb = 0 := by
  rw [isZero, ← mod_pow_add_div, ← mod_pow_add_mod eb mb b]
  have := Nat.div_add_mod (b % 2 ^ (eb + mb)) (2 ^ mb)
  constructor
  · intro h; simp [h]
  · rintro ⟨h1, h2⟩; rw [← this, h1, h2]; rfl

theorem Fmt.Ieee.reads (h : f.Ieee) {b : Nat} (hb : isFinite f.ebits f.mbits b) : ∃ m e, Reads f b m e := by
  have hf : b % 2 ^ f.mbits < 2 ^ f.mbits := Nat.mod_lt _ (by positivity)
  have hx : b / 2 ^ f.mbits % 2 ^ f.ebits < 2 ^ f.ebits := Nat.mod_lt _ (by positivity)
  have hu := h.unpack b
  have hz := isZero_iff f.ebits f.mbits b
  rw [if_neg hb] at hu
  unfold isFinite emax at hb
  by_cases h0 : b / 2 ^ f.mbits % 2 ^ f.ebits = 0
  · rw [if_pos h0] at hu
    refine ⟨_, _, hu, ?_, by rw [pow_succ]; omega, le_rfl, by omega, by rw [hz]; simp [h0]⟩
    rw [value, if_pos h0, h.qmin]
    rfl
  · rw [if_neg h0] at hu
    refine ⟨_, _, hu, ?_, by rw [pow_succ]; omega, by omega, by omega, ?_⟩
    · rw [value, if_neg h0, add_comm (b % _), show f.qmin + (b / 2 ^ f.mbits % 2 ^ f.ebits : Nat) - 1 =
        ((b / 2 ^ f.mbits % 2 ^ f.ebits : Nat) : Int) - biasOf f.ebits - f.mbits by rw [h.qmin, qminOf]; ring]
      rfl
    · rw [hz]
      simp [h0]

end Sys2Proof.Machine
end

section
/-! A value's last place, and the modes that round it to an integer there (R212, R225). -/

namespace Sys2Proof.Machine
open Claims

/-! ## The place of a value and its quotient there -/

/-- `ilog2` is the exponent of the leading bit of a quotient. -/
theorem ilog2_spec {num den : Nat} (hn : 0 < num) (hd : 0 < den) :
    (2 : ℝ) ^ ilog2 num den ≤ (num : ℝ) / den ∧ (num : ℝ) / den < (2 : ℝ) ^ (ilog2 num den + 1) := by
  have hd' : (0 : ℝ) < den := by exact_mod_cast hd
  -- 2^g as a quotient of naturals, by the sign of g
  have key : ∀ g : Int, (2 : ℝ) ^ g = (2 : ℝ) ^ g.toNat / (2 : ℝ) ^ (-g).toNat := by
    intro g
    rw [← zpow_natCast, ← zpow_natCast, ← zpow_sub₀ (by norm_num)]
    congr 1
    omega
  have hle : ∀ g : Int, (2 : ℝ) ^ g ≤ (num : ℝ) / den ↔ den * 2 ^ g.toNat ≤ num * 2 ^ (-g).toNat := by
    intro g
    rw [key, div_le_div_iff₀ (by positivity) hd', mul_comm]
    exact_mod_cast Iff.rfl
  have hlow : (2 : ℝ) ^ ((Nat.log2 num : Int) - Nat.log2 den - 1) ≤ (num : ℝ) / den := by
    have h1 : 2 ^ Nat.log2 num ≤ num := Nat.log2_self_le hn.ne'
    have h2 : den < 2 ^ (Nat.log2 den + 1) := Nat.lt_log2_self
    rw [sub_sub, zpow_sub₀ (by norm_num), div_le_div_iff₀ (by positivity) hd']
    calc (2 : ℝ) ^ (Nat.log2 num : Int) * den ≤ num * den := by gcongr; exact_mod_cast h1
      _ ≤ num * 2 ^ ((Nat.log2 den : Int) + 1) := by gcongr; exact_mod_cast h2.le
  have hhigh : (num : ℝ) / den < (2 : ℝ) ^ ((Nat.log2 num : Int) - Nat.log2 den + 1) := by
    have h1 : num < 2 ^ (Nat.log2 num + 1) := Nat.lt_log2_self
    have h2 : 2 ^ Nat.log2 den ≤ den := Nat.log2_self_le hd.ne'
    rw [sub_add_eq_add_sub, zpow_sub₀ (by norm_num), div_lt_div_iff₀ hd' (by positivity)]
    calc (num : ℝ) * 2 ^ (Nat.log2 den : Int) ≤ num * den := by gcongr; exact_mod_cast h2
      _ < 2 ^ ((Nat.log2 num : Int) + 1) * den := by gcongr; exact_mod_cast h1
  unfold ilog2
  generalize (Nat.log2 num : Int) - Nat.log2 den = g at hlow hhigh
  have hg : (if g ≥ 0 then (if num ≥ den * 2 ^ g.toNat then g else g - 1)
      else (if num * 2 ^ (-g).toNat ≥ den then g else g - 1)) = if (2 : ℝ) ^ g ≤ (num : ℝ) / den then g else g - 1 := by
    simp only [hle]
    split
    · rw [show (-g).toNat = 0 by omega, pow_zero, mul_one]
    · rw [show g.toNat = 0 by omega, pow_zero, mul_one]
  dsimp only
  rw [hg]
  split
  · exact ⟨‹_›, hhigh⟩
  · exact ⟨hlow, by rw [sub_add_cancel]; exact not_le.mp ‹_›⟩

/-- `n` whole units and the part `r / d` of one. -/
structure UnitParts (y : ℝ) (p : Nat × Nat × Nat) : Prop where
  pos : 0 < p.2.2
  lt : p.2.1 < p.2.2
  eq : y = p.1 + (p.2.1 : ℝ) / p.2.2

/-- `quant` gives a value's parts in units of 2^q. -/
theorem unitParts_quant {num den : Nat} (e q : Int) (hd : 0 < den) :
    UnitParts ((num : ℝ) / den * (2 : ℝ) ^ (e - q)) (quant num den e q) := by
  unfold quant
  have hkey : ∀ {n d : Nat}, 0 < d → (num : ℝ) / den * (2 : ℝ) ^ (e - q) = (n : ℝ) / d →
      UnitParts ((num : ℝ) / den * (2 : ℝ) ^ (e - q)) (n / d, n % d, d) := by
    intro n d h0 h
    refine ⟨h0, Nat.mod_lt _ h0, ?_⟩
    have h0' : (d : ℝ) ≠ 0 := by exact_mod_cast h0.ne'
    rw [h]
    field_simp
    exact_mod_cast (Nat.div_add_mod n d).symm
  split
  · refine hkey hd ?_
    rw [show (2 : ℝ) ^ (e - q) = (2 : ℝ) ^ ((e - q).toNat : Int) by rw [Int.toNat_of_nonneg (by omega)]]
    push_cast
    rw [zpow_natCast]
    ring
  · refine hkey (by positivity) ?_
    rw [show (2 : ℝ) ^ (e - q) = ((2 : ℝ) ^ ((q - e).toNat : Int))⁻¹ by
      rw [Int.toNat_of_nonneg (by omega), ← zpow_neg, neg_sub]]
    push_cast
    rw [zpow_natCast]
    field_simp

/-! ## Rounding modes (R212, R225) -/

/-- The integer to which a mode takes `n + r / d`. -/
def Mode.pick (md : Mode) (neg : Bool) (p : Nat × Nat × Nat) : Nat := if md.up neg p.1 p.2.1 p.2.2 then p.1 + 1 else p.1

/-- A magnitude with a sign. -/
def sgInt (neg : Bool) (n : Nat) : Int := if neg then -(n : Int) else n

theorem sgInt_cast (neg : Bool) (n : Nat) : (sgInt neg n : ℝ) = sg neg * n := by cases neg <;> simp [sgInt, sg]

theorem abs_sg_mul (neg : Bool) (x : ℝ) : |sg neg * x| = |x| := by cases neg <;> simp [sg]

theorem sgInt_mod_two (neg : Bool) (n : Nat) : sgInt neg n % 2 = 0 ↔ n % 2 = 0 := by
  cases neg <;> simp only [sgInt, if_true, if_false, Bool.false_eq_true] <;> omega

/-- A mode rounds a signed quotient as `R` says. -/
def Mode.Meets (md : Mode) (R : ℝ → Int → Prop) : Prop :=
  ∀ (neg : Bool) (y : ℝ) (p : Nat × Nat × Nat), UnitParts y p → R (sg neg * y) (sgInt neg (md.pick neg p))

theorem Mode.pick_eq_or (md : Mode) (neg : Bool) (p : Nat × Nat × Nat) : md.pick neg p = p.1 ∨ md.pick neg p = p.1 + 1 := by
  unfold Mode.pick
  split <;> simp

/-- No mode moves a whole number of units. -/
theorem Mode.pick_of_exact (md : Mode) (neg : Bool) {p : Nat × Nat × Nat} (h : p.2.1 = 0) (hd : 0 < p.2.2) : md.pick neg p = p.1 := by
  unfold Mode.pick
  cases md <;> simp [Mode.up, h, hd.ne, hd.ne']

/-- The modes of an instruction that is no conversion, by their number. -/
theorem modeOf_eq (rm : BitVec 3) : modeOf rm =
    if rm.toNat = 1 then .rtz else if rm.toNat = 2 then .rup else if rm.toNat = 3 then .rdn else if rm.toNat = 4 then .rna
    else .rne := by
  revert rm; decide

section
variable {y : ℝ} {p : Nat × Nat × Nat}

theorem UnitParts.part_nonneg (_ : UnitParts y p) : (0 : ℝ) ≤ (p.2.1 : ℝ) / p.2.2 := by positivity

theorem UnitParts.part_lt (h : UnitParts y p) : (p.2.1 : ℝ) / p.2.2 < 1 := by
  rw [div_lt_one (by exact_mod_cast h.pos)]
  exact_mod_cast h.lt

theorem UnitParts.part_eq_zero (h : UnitParts y p) : (p.2.1 : ℝ) / p.2.2 = 0 ↔ p.2.1 = 0 := by
  have : (p.2.2 : ℝ) ≠ 0 := by exact_mod_cast h.pos.ne'
  simp [this]

theorem UnitParts.half_lt (h : UnitParts y p) : 1 / 2 < (p.2.1 : ℝ) / p.2.2 ↔ p.2.2 < 2 * p.2.1 := by
  rw [div_lt_div_iff₀ (by norm_num) (by exact_mod_cast h.pos)]
  norm_cast
  omega

theorem UnitParts.eq_half (h : UnitParts y p) : (p.2.1 : ℝ) / p.2.2 = 1 / 2 ↔ 2 * p.2.1 = p.2.2 := by
  rw [div_eq_div_iff (by exact_mod_cast h.pos.ne') (by norm_num)]
  norm_cast
  omega

/-- Where `n + t` may be taken down, to `n`. -/
theorem roundedInt_down {rm n : Nat} {t : ℝ} {neg : Bool} (h0 : 0 ≤ t) (h1 : t < 1) (hup : rm = 2 → neg = false → t = 0)
    (hdn : rm = 3 → neg = true → t = 0) (hn : rm ≠ 1 → rm ≠ 2 → rm ≠ 3 → t ≤ 1 / 2)
    (ht : rm ≠ 1 → rm ≠ 2 → rm ≠ 3 → t = 1 / 2 → rm ≠ 4 ∧ n % 2 = 0) : RoundedInt rm (sg neg * (n + t)) (sgInt neg n) := by
  have hd : |(sgInt neg n : ℝ) - sg neg * (n + t)| = t := by
    rw [sgInt_cast, ← mul_sub, abs_sg_mul, abs_sub_comm, abs_of_nonneg (by linarith)]
    ring
  have hm : |(sgInt neg n : ℝ)| = n := by rw [sgInt_cast, abs_sg_mul, Nat.abs_cast]
  have hx : |sg neg * ((n : ℝ) + t)| = n + t := by rw [abs_sg_mul, abs_of_nonneg (by positivity)]
  refine ⟨by rw [hd]; exact h1, fun _ => by rw [hm, hx]; linarith, fun h => ?_, fun h => ?_, fun a b c => by rw [hd]; exact hn a b c,
    fun a b c h => ?_⟩
  · rw [sgInt_cast]
    cases neg
    · simp [hup h rfl]
    · simp only [sg, if_true]; linarith
  · rw [sgInt_cast]
    cases neg
    · simp only [sg, Bool.false_eq_true, if_false]; linarith
    · simp [hdn h rfl]
  · obtain ⟨h4, he⟩ := ht a b c (hd ▸ h)
    rw [if_neg h4, sgInt_mod_two]
    exact he

/-- Where `n + t` may be taken up, to `n + 1`. -/
theorem roundedInt_up {rm n : Nat} {t : ℝ} {neg : Bool} (h0 : 0 < t) (h1 : t < 1) (hz : rm ≠ 1) (hup : rm = 2 → neg = false)
    (hdn : rm = 3 → neg = true) (hn : rm ≠ 1 → rm ≠ 2 → rm ≠ 3 → 1 / 2 ≤ t)
    (ht : rm ≠ 1 → rm ≠ 2 → rm ≠ 3 → t = 1 / 2 → rm = 4 ∨ n % 2 = 1) : RoundedInt rm (sg neg * (n + t)) (sgInt neg (n + 1)) := by
  have hd : |(sgInt neg (n + 1) : ℝ) - sg neg * (n + t)| = 1 - t := by
    rw [sgInt_cast, ← mul_sub, abs_sg_mul, abs_of_nonneg (by push_cast; linarith)]
    push_cast
    ring
  have hm : |(sgInt neg (n + 1) : ℝ)| = n + 1 := by rw [sgInt_cast, abs_sg_mul, Nat.abs_cast]; push_cast; rfl
  have hx : |sg neg * ((n : ℝ) + t)| = n + t := by rw [abs_sg_mul, abs_of_nonneg (by positivity)]
  refine ⟨by rw [hd]; linarith, fun h => absurd h hz, fun h => ?_, fun h => ?_,
    fun a b c => by rw [hd]; linarith [hn a b c], fun a b c h => ?_⟩
  · rw [sgInt_cast, hup h]
    simp only [sg, Bool.false_eq_true, if_false]; push_cast; linarith
  · rw [sgInt_cast, hdn h]
    simp only [sg, if_true]; push_cast; linarith
  · rw [hm, hx, sgInt_mod_two]
    split
    · linarith
    · have := (ht a b c (by linarith [hd ▸ h])).resolve_left ‹_›
      omega

/-- A rule that leaves whole numbers alone and is met both where it takes a quotient up and where it does not. -/
theorem Mode.meets_of {md : Mode} {R : ℝ → Int → Prop}
    (hdown : ∀ neg y p, UnitParts y p → md.up neg p.1 p.2.1 p.2.2 = false → R (sg neg * (p.1 + (p.2.1 : ℝ) / p.2.2)) (sgInt neg p.1))
    (hup : ∀ neg y p, UnitParts y p → md.up neg p.1 p.2.1 p.2.2 = true → 0 < (p.2.1 : ℝ) / p.2.2 →
      R (sg neg * (p.1 + (p.2.1 : ℝ) / p.2.2)) (sgInt neg (p.1 + 1))) : md.Meets R := by
  intro neg y p h
  rw [h.eq]
  cases hu : md.up neg p.1 p.2.1 p.2.2
  · have hk : md.pick neg p = p.1 := by simp [Mode.pick, hu]
    rw [hk]
    exact hdown neg y p h hu
  · have hk : md.pick neg p = p.1 + 1 := by simp [Mode.pick, hu]
    rw [hk]
    refine hup neg y p h hu (lt_of_le_of_ne h.part_nonneg fun h0 => ?_)
    have := md.pick_of_exact neg (h.part_eq_zero.mp h0.symm) h.pos
    omega

/-- `modeOf` rounds as R212 says for its number. -/
theorem meets_modeOf (rm : BitVec 3) : (modeOf rm).Meets (RoundedInt rm.toNat) := by
  rw [modeOf_eq]
  generalize rm.toNat = k
  refine Mode.meets_of (fun neg y p h hu => roundedInt_down h.part_nonneg h.part_lt ?_ ?_ ?_ ?_)
    (fun neg y p h hu ht => roundedInt_up ht h.part_lt ?_ ?_ ?_ ?_ ?_)
  · rintro rfl rfl
    simpa [Mode.up, h.part_eq_zero] using hu
  · rintro rfl rfl
    simpa [Mode.up, h.part_eq_zero] using hu
  · intro h1 h2 h3
    rw [← not_lt, h.half_lt]
    rw [if_neg h1, if_neg h2, if_neg h3] at hu
    split at hu <;> simp [Mode.up] at hu <;> omega
  · intro h1 h2 h3 he
    rw [h.eq_half] at he
    rw [if_neg h1, if_neg h2, if_neg h3] at hu
    split at hu <;> simp [Mode.up] at hu <;> omega
  · rintro rfl
    simp [Mode.up] at hu
  · rintro rfl
    simp [Mode.up] at hu
    exact hu.1
  · rintro rfl
    simp [Mode.up] at hu
    exact hu.1
  · intro h1 h2 h3
    rw [← not_lt, div_lt_div_iff₀ (by exact_mod_cast h.pos) (by norm_num)]
    rw [if_neg h1, if_neg h2, if_neg h3] at hu
    norm_cast
    split at hu <;> simp [Mode.up] at hu <;> omega
  · intro h1 h2 h3 he
    rw [h.eq_half] at he
    rw [if_neg h1, if_neg h2, if_neg h3] at hu
    split at hu <;> simp [Mode.up] at hu <;> omega

/-- What a draw `d` takes `n + t` to. -/
theorem drawnInt_of {n k : Nat} {d t : ℝ} {neg : Bool} (hd : 0 ≤ d) (h0 : 0 ≤ t) (h1 : t < 1) (hk : k = n + (if d < t then 1 else 0)) :
    DrawnInt d (sg neg * (n + t)) (sgInt neg k) := by
  have hx : |sg neg * ((n : ℝ) + t)| = n + t := by rw [abs_sg_mul, abs_of_nonneg (by positivity)]
  have hfl : ⌊(n : ℝ) + t⌋ = n := by
    rw [Int.floor_eq_iff]
    constructor <;> push_cast <;> linarith
  refine ⟨?_, fun h => ?_⟩
  · rw [hx, hfl, show (sgInt neg k).natAbs = k by cases neg <;> simp [sgInt], hk]
    push_cast
    rw [add_sub_cancel_left]
  · have hk0 : 0 < k := Nat.pos_of_ne_zero fun h0 => h (by simp [h0, sgInt])
    have hp : (0 : ℝ) < n + t := by
      rcases Nat.eq_zero_or_pos n with rfl | hn
      · have : d < t := by by_contra hc; rw [if_neg hc] at hk; omega
        push_cast
        linarith
      · have : (0 : ℝ) < n := by exact_mod_cast hn
        linarith
    cases neg
    · simp only [sgInt, sg, Bool.false_eq_true, if_false, one_mul]
      exact ⟨fun _ => by omega, fun _ => by linarith⟩
    · simp only [sgInt, sg, if_true, neg_one_mul]
      exact ⟨fun _ => by linarith, fun _ => by omega⟩

/-- The stochastic mode decides by its draw (R225). -/
theorem meets_sr (u : Nat) : (Mode.sr u).Meets (DrawnInt ((u : ℝ) / 2 ^ 24)) := by
  have hd : (0 : ℝ) ≤ (u : ℝ) / 2 ^ 24 := by positivity
  have hiff : ∀ {y : ℝ} {p : Nat × Nat × Nat}, UnitParts y p → ∀ neg, (Mode.sr u).up neg p.1 p.2.1 p.2.2 = true ↔
      (u : ℝ) / 2 ^ 24 < (p.2.1 : ℝ) / p.2.2 := fun h neg => by
    rw [div_lt_div_iff₀ (by norm_num) (by exact_mod_cast h.pos)]
    simp only [Mode.up, decide_eq_true_eq]
    exact_mod_cast Iff.rfl
  refine Mode.meets_of (fun neg y p h hu => drawnInt_of hd h.part_nonneg h.part_lt ?_)
    (fun neg y p h hu _ => drawnInt_of hd h.part_nonneg h.part_lt ?_)
  · rw [if_neg fun hc => by rw [(hiff h neg).mpr hc] at hu; cases hu]
    rfl
  · rw [if_pos ((hiff h neg).mp hu)]
end

end Sys2Proof.Machine
end

section
/-! One rounding of an exact value to a format (R131, R212, R213, R225). -/

namespace Sys2Proof.Machine
open Claims

/-! ## One rounding of num x 2^e / den (R131, R212, R213) -/

/-- The exponent of a value's leading bit. -/
def topExp (num den : Nat) (e : Int) : Int := ilog2 num den + e

/-- The last place that a format keeps of a value, no finer than the subnormals'. -/
def Fmt.lastPlace (f : Fmt) (num den : Nat) (e : Int) : Int := max (topExp num den e - f.mbits) f.qmin

/-- The magnitude that a mode picks, an exponent carried where it rounds up to the next power of two. -/
def Fmt.pickMag (f : Fmt) (md : Mode) (neg : Bool) (num den : Nat) (e : Int) : Nat :=
  (f.lastPlace num den e - f.qmin).toNat * 2 ^ f.mbits + md.pick neg (quant num den e (f.lastPlace num den e))

/-- The integer that a mode picks in the last place with an unbounded exponent. -/
def Fmt.pickFree (f : Fmt) (md : Mode) (neg : Bool) (num den : Nat) (e : Int) : Nat :=
  md.pick neg (quant num den e (topExp num den e - f.mbits))

/-- The result is tiny after rounding. -/
def Fmt.tiny (f : Fmt) (md : Mode) (neg : Bool) (num den : Nat) (e : Int) : Bool :=
  decide (topExp num den e < 1 - (f.bias : Int)) &&
    !(decide (topExp num den e + 1 = 1 - (f.bias : Int)) && f.pickFree md neg num den e == 2 ^ (f.mbits + 1))

/-- The value has digits below the last place. -/
def Fmt.inexact (f : Fmt) (num den : Nat) (e : Int) : Bool := (quant num den e (f.lastPlace num den e)).2.1 != 0

/-- The rounded result where it is in range. -/
def Fmt.inRange (f : Fmt) (md : Mode) (neg : Bool) (num den : Nat) (e : Int) : FRes :=
  ⟨f.signed neg (f.pickMag md neg num den e),
    (if f.inexact num den e then fNX else 0) ||| (if f.inexact num den e && f.tiny md neg num den e then fUF else 0),
    f.inexact num den e⟩

/-- The mode neither draws nor stands for a draw (R227). -/
def Mode.plain : Mode → Bool
  | .sr _ | .det => false
  | _ => true

theorem plain_modeOf (rm : BitVec 3) : (modeOf rm).plain = true := by
  revert rm; decide

/-- `round` by a mode that draws nothing. -/
theorem Fmt.round_plain (f : Fmt) {md : Mode} (hm : md.plain = true) (neg : Bool) (num den : Nat) (e : Int) :
    f.round md neg num den e =
      if f.pickMag md neg num den e > f.maxBits then f.overflow md neg else f.inRange md neg num den e := by
  have key : ∀ r : FRes, (if (decide (f.pickMag md neg num den e > f.maxBits) || false) = true then f.overflow md neg else r) =
      if f.pickMag md neg num den e > f.maxBits then f.overflow md neg else r := fun r => by
    simp only [Bool.or_false, decide_eq_true_eq]
  cases md
  case sr | det => cases hm
  all_goals exact key (f.inRange _ neg num den e)


/-- `round` by a draw: above the largest finite value it rounds to nearest even (log entry 28). -/
theorem Fmt.round_sr (f : Fmt) (u : Nat) (neg : Bool) (num den : Nat) (e : Int) :
    f.round (.sr u) neg num den e =
      if (decide (f.pickMag (.sr u) neg num den e > f.maxBits) ||
          (decide (f.pickMag .rtz neg num den e ≥ f.maxBits) && f.inexact num den e ||
            decide (f.pickMag .rtz neg num den e > f.maxBits))) = true then
        (if f.pickMag .rne neg num den e > f.maxBits then f.overflow .rne neg
          else { f.overflow .rne neg with v := f.signed neg f.maxBits })
      else f.inRange (.sr u) neg num den e := rfl

/-! ## Bounds -/

theorem UnitParts.le_whole {y : ℝ} {p : Nat × Nat × Nat} (h : UnitParts y p) {a : Nat} (ha : (a : ℝ) ≤ y) : a ≤ p.1 := by
  have := h.part_lt
  have h1 : (a : ℝ) < (p.1 + 1 : Nat) := by push_cast; linarith [h.eq]
  exact Nat.lt_succ_iff.mp (by exact_mod_cast h1)

theorem UnitParts.whole_lt {y : ℝ} {p : Nat × Nat × Nat} (h : UnitParts y p) {b : Nat} (hb : y < b) : p.1 < b := by
  have := h.part_nonneg
  have h1 : (p.1 : ℝ) < b := by linarith [h.eq]
  exact_mod_cast h1

theorem Mode.whole_le_pick (md : Mode) (neg : Bool) (p : Nat × Nat × Nat) : p.1 ≤ md.pick neg p := by
  rcases md.pick_eq_or neg p with h | h <;> omega

theorem Mode.pick_le_succ (md : Mode) (neg : Bool) (p : Nat × Nat × Nat) : md.pick neg p ≤ p.1 + 1 := by
  rcases md.pick_eq_or neg p with h | h <;> omega

/-- The magnitude num / den x 2^e. -/
noncomputable def exactMag (num den : Nat) (e : Int) : ℝ := (num : ℝ) / den * (2 : ℝ) ^ e

section
variable {f : Fmt} {num den : Nat} {e : Int} {md : Mode} {neg : Bool}

theorem exactMag_pos (hn : 0 < num) (hd : 0 < den) : 0 < exactMag num den e := by
  unfold exactMag
  positivity

theorem exactMag_bounds (hn : 0 < num) (hd : 0 < den) :
    (2 : ℝ) ^ topExp num den e ≤ exactMag num den e ∧ exactMag num den e < (2 : ℝ) ^ (topExp num den e + 1) := by
  obtain ⟨h1, h2⟩ := ilog2_spec hn hd
  have he : (0 : ℝ) < (2 : ℝ) ^ e := by positivity
  unfold exactMag topExp
  rw [add_right_comm, zpow_add₀ (by norm_num) _ e, zpow_add₀ (by norm_num) _ e]
  exact ⟨mul_le_mul_of_nonneg_right h1 he.le, mul_lt_mul_of_pos_right h2 he⟩

/-- A value's parts in units of 2^q. -/
theorem unitParts_exactMag (q : Int) (hd : 0 < den) : UnitParts (exactMag num den e / (2 : ℝ) ^ q) (quant num den e q) := by
  rw [exactMag, mul_div_assoc, ← zpow_sub₀ (by norm_num)]
  exact unitParts_quant e q hd

theorem exactMag_div_bounds (hn : 0 < num) (hd : 0 < den) (q : Int) :
    (2 : ℝ) ^ (topExp num den e - q) ≤ exactMag num den e / (2 : ℝ) ^ q ∧
      exactMag num den e / (2 : ℝ) ^ q < (2 : ℝ) ^ (topExp num den e + 1 - q) := by
  obtain ⟨h1, h2⟩ := exactMag_bounds (e := e) hn hd
  rw [zpow_sub₀ (by norm_num), zpow_sub₀ (by norm_num)]
  exact ⟨by gcongr, by gcongr⟩

/-- The whole units of a normal value in its last place fill the significand. -/
theorem whole_bounds (hn : 0 < num) (hd : 0 < den) (mb : Nat) : 2 ^ mb ≤ (quant num den e (topExp num den e - mb)).1 ∧
    (quant num den e (topExp num den e - mb)).1 < 2 ^ (mb + 1) := by
  obtain ⟨h1, h2⟩ := exactMag_div_bounds (e := e) hn hd (topExp num den e - mb)
  have hp := unitParts_exactMag (num := num) (e := e) (topExp num den e - mb) hd
  rw [show topExp num den e - (topExp num den e - mb) = (mb : Nat) by ring, zpow_natCast] at h1
  rw [show topExp num den e + 1 - (topExp num den e - mb) = (mb + 1 : Nat) by push_cast; ring, zpow_natCast] at h2
  exact ⟨hp.le_whole (by exact_mod_cast h1), hp.whole_lt (by exact_mod_cast h2)⟩

theorem pickFree_bounds (hn : 0 < num) (hd : 0 < den) :
    2 ^ f.mbits ≤ f.pickFree md neg num den e ∧ f.pickFree md neg num den e ≤ 2 ^ (f.mbits + 1) := by
  obtain ⟨h1, h2⟩ := whole_bounds (e := e) hn hd f.mbits
  exact ⟨h1.trans (md.whole_le_pick neg _), (md.pick_le_succ neg _).trans h2⟩

/-- Where the last place is the subnormals', less than a whole significand is left. -/
theorem whole_subnormal (hn : 0 < num) (hd : 0 < den) (hq : topExp num den e - f.mbits < f.qmin) :
    f.lastPlace num den e = f.qmin ∧ (quant num den e f.qmin).1 < 2 ^ f.mbits := by
  refine ⟨max_eq_right hq.le, (unitParts_exactMag f.qmin hd).whole_lt ((exactMag_div_bounds hn hd _).2.trans_le ?_)⟩
  push_cast
  rw [← zpow_natCast]
  exact zpow_le_zpow_right₀ (by norm_num) (by omega)

theorem lastPlace_normal (hq : f.qmin ≤ topExp num den e - f.mbits) : f.lastPlace num den e = topExp num den e - f.mbits :=
  max_eq_left hq

/-- The magnitude that encodes `j` units of the last place, where `j` is next to the value: its value. -/
theorem magUnits_place (hn : 0 < num) (hd : 0 < den) {j : Nat} (hlo : (quant num den e (f.lastPlace num den e)).1 ≤ j)
    (hhi : j ≤ (quant num den e (f.lastPlace num den e)).1 + 1) :
    (magUnits f.mbits ((f.lastPlace num den e - f.qmin).toNat * 2 ^ f.mbits + j) : ℝ) * (2 : ℝ) ^ f.qmin =
      j * (2 : ℝ) ^ f.lastPlace num den e := by
  have hle : f.qmin ≤ f.lastPlace num den e := le_max_right _ _
  have hb : j ≤ 2 ^ (f.mbits + 1) ∧ (0 < (f.lastPlace num den e - f.qmin).toNat → 2 ^ f.mbits ≤ j) := by
    rcases lt_or_ge (topExp num den e - f.mbits) f.qmin with hq | hq
    · obtain ⟨h1, h2⟩ := whole_subnormal hn hd hq
      rw [h1] at hhi ⊢
      exact ⟨by rw [pow_succ]; omega, fun h => by omega⟩
    · have := whole_bounds (e := e) hn hd f.mbits
      rw [← lastPlace_normal hq] at this
      exact ⟨by omega, fun _ => by omega⟩
  rw [magUnits_mk hb.1 hb.2]
  push_cast
  rw [mul_assoc, ← zpow_natCast, ← zpow_add₀ (by norm_num), Int.toNat_of_nonneg (by omega), sub_add_cancel]

/-- The integer that a mode picks in the last place. -/
def Fmt.pickLast (f : Fmt) (md : Mode) (neg : Bool) (num den : Nat) (e : Int) : Nat :=
  md.pick neg (quant num den e (f.lastPlace num den e))

theorem magUnits_pickMag (hn : 0 < num) (hd : 0 < den) : (magUnits f.mbits (f.pickMag md neg num den e) : ℝ) * (2 : ℝ) ^ f.qmin =
    f.pickLast md neg num den e * (2 : ℝ) ^ f.lastPlace num den e :=
  magUnits_place hn hd (md.whole_le_pick neg _) (md.pick_le_succ neg _)

theorem largest_lt (f : Fmt) : largest f.ebits f.mbits < 2 ^ (f.ebits + f.mbits) := by
  unfold largest emax
  rw [pow_add]
  have : 0 < 2 ^ f.ebits * 2 ^ f.mbits := by positivity
  have := Nat.mul_le_mul_right (2 ^ f.mbits) (Nat.sub_le (2 ^ f.ebits) 1)
  omega

theorem normal_le_largest (h : f.Ieee) : 2 ^ f.mbits ≤ largest f.ebits f.mbits := by
  unfold largest emax
  have h1 : 2 ^ 2 ≤ 2 ^ f.ebits := Nat.pow_le_pow_right (by norm_num) h.ebits
  have h2 : 0 < 2 ^ f.mbits := by positivity
  have := Nat.mul_le_mul_right (2 ^ f.mbits) (show 2 ≤ 2 ^ f.ebits - 1 by omega)
  omega

theorem value_largest (h : f.Ieee) :
    value f.ebits f.mbits (largest f.ebits f.mbits) = magUnits f.mbits f.maxBits * (2 : ℝ) ^ f.qmin := by
  rw [h.maxBits, h.qmin]
  simpa [withSign, sg] using value_withSign false (largest_lt f)

/-- A picked magnitude is out of range just when the value rounded with an unbounded exponent is above the largest (R213). -/
theorem maxBits_lt_pickMag_iff (h : f.Ieee) (hn : 0 < num) (hd : 0 < den) : f.maxBits < f.pickMag md neg num den e ↔
    value f.ebits f.mbits (largest f.ebits f.mbits) < f.pickFree md neg num den e * (2 : ℝ) ^ (topExp num den e - f.mbits) := by
  have hmono := (magUnits_strictMono f.mbits).lt_iff_lt (a := f.maxBits) (b := f.pickMag md neg num den e)
  have hpos : (0 : ℝ) < (2 : ℝ) ^ f.qmin := by positivity
  rw [value_largest h]
  rcases lt_or_ge (topExp num den e - f.mbits) f.qmin with hq | hq
  · -- below the normal numbers neither is
    obtain ⟨h1, h2⟩ := whole_subnormal hn hd hq
    have hm : f.pickMag md neg num den e ≤ 2 ^ f.mbits := by
      simpa [Fmt.pickMag, h1] using (md.pick_le_succ neg _).trans h2
    have hbig : 2 ^ f.mbits ≤ f.maxBits := h.maxBits ▸ normal_le_largest h
    refine ⟨fun hc => by omega, fun hc => absurd hc (not_lt.mpr ?_)⟩
    have hunits : 2 ^ f.mbits ≤ magUnits f.mbits f.maxBits := by
      have := (magUnits_strictMono f.mbits).monotone hbig
      rwa [show magUnits f.mbits (2 ^ f.mbits) = 2 ^ f.mbits by
        simpa using magUnits_mk (mb := f.mbits) (a := 0) (n := 2 ^ f.mbits) (by rw [pow_succ]; omega) (by simp)] at this
    calc (f.pickFree md neg num den e : ℝ) * 2 ^ (topExp num den e - f.mbits)
        ≤ (2 ^ (f.mbits + 1) : Nat) * 2 ^ (f.qmin - 1) := by
          refine mul_le_mul ?_ (zpow_le_zpow_right₀ (by norm_num) (by omega)) (by positivity) (by positivity)
          exact_mod_cast (pickFree_bounds hn hd).2
      _ = (2 ^ f.mbits : Nat) * 2 ^ f.qmin := by
          rw [zpow_sub_one₀ (by norm_num)]; push_cast; rw [pow_succ]; ring
      _ ≤ magUnits f.mbits f.maxBits * 2 ^ f.qmin := by gcongr
  · rw [← hmono, ← Nat.cast_lt (α := ℝ), ← mul_lt_mul_iff_left₀ hpos, magUnits_pickMag hn hd, Fmt.pickLast,
      lastPlace_normal hq]
    rfl

/-- Tininess after rounding (R131). -/
theorem tiny_iff (h : f.Ieee) (hn : 0 < num) (hd : 0 < den) : f.tiny md neg num den e = true ↔
    (f.pickFree md neg num den e : ℝ) * (2 : ℝ) ^ (topExp num den e - f.mbits) < (2 : ℝ) ^ (1 - biasOf f.ebits) := by
  obtain ⟨hlo, hhi⟩ := pickFree_bounds (f := f) (md := md) (neg := neg) (e := e) hn hd
  have hlo' : ((2 : ℝ) ^ f.mbits) ≤ f.pickFree md neg num den e := by exact_mod_cast hlo
  have hp : (0 : ℝ) < (2 : ℝ) ^ (topExp num den e - f.mbits) := by positivity
  have hsplit : ∀ j : Nat, (2 : ℝ) ^ j * (2 : ℝ) ^ (topExp num den e - f.mbits) = (2 : ℝ) ^ (topExp num den e - f.mbits + j) := by
    intro j
    rw [← zpow_natCast, ← zpow_add₀ (by norm_num), add_comm]
  simp only [Fmt.tiny, h.bias, Bool.and_eq_true, decide_eq_true_eq, Bool.not_eq_true', Bool.and_eq_false_iff,
    decide_eq_false_iff_not, beq_eq_false_iff_ne]
  constructor
  · rintro ⟨h1, h2⟩
    by_cases hk : f.pickFree md neg num den e = 2 ^ (f.mbits + 1)
    · rw [hk]
      push_cast
      rw [hsplit]
      exact zpow_lt_zpow_right₀ (by norm_num) (by push_cast; have := h2.resolve_right (by simp [hk]); omega)
    · have hlt : (f.pickFree md neg num den e : ℝ) < 2 ^ (f.mbits + 1) := by exact_mod_cast lt_of_le_of_ne hhi hk
      calc _ < (2 : ℝ) ^ (f.mbits + 1) * (2 : ℝ) ^ (topExp num den e - f.mbits) := mul_lt_mul_of_pos_right hlt hp
        _ ≤ _ := by rw [hsplit]; exact zpow_le_zpow_right₀ (by norm_num) (by push_cast; omega)
  · intro hlt
    have hge := (mul_le_mul_of_nonneg_right hlo' hp.le).trans_lt hlt
    rw [hsplit, zpow_lt_zpow_iff_right₀ (by norm_num)] at hge
    refine ⟨by omega, ?_⟩
    by_contra hc
    push Not at hc
    rw [hc.2] at hlt
    push_cast at hlt
    rw [hsplit, zpow_lt_zpow_iff_right₀ (by norm_num)] at hlt
    push_cast at hlt
    omega

/-- A mode changes a value just when it is inexact. -/
theorem pick_eq_iff (hd : 0 < den) (q : Int) :
    (md.pick neg (quant num den e q) : ℝ) * (2 : ℝ) ^ q = exactMag num den e ↔ (quant num den e q).2.1 = 0 := by
  have hp := unitParts_exactMag (num := num) (e := e) q hd
  rw [← eq_div_iff (by positivity), hp.eq]
  constructor
  · intro he
    have h0 := hp.part_nonneg
    have h1 := hp.part_lt
    rw [← hp.part_eq_zero]
    rcases md.pick_eq_or neg (quant num den e q) with h | h <;> rw [h] at he
    · linarith
    · push_cast at he
      linarith
  · intro h
    rw [md.pick_of_exact neg h hp.pos, hp.part_eq_zero.mpr h, add_zero]

/-- What the sign and the magnitude of a result encode. -/
theorem encodes_signed {x : ℝ} {q : Int} {m n : Nat} (h : f.Ieee) (hx : x < 0 ↔ neg = true) (hm : m ≤ f.maxBits)
    (hv : (magUnits f.mbits m : ℝ) * (2 : ℝ) ^ f.qmin = n * (2 : ℝ) ^ q) :
    Encodes f.ebits f.mbits (largest f.ebits f.mbits) x (sgInt neg n) q (f.signed neg m) := by
  have hlt : m < 2 ^ (f.ebits + f.mbits) := hm.trans_lt (h.maxBits ▸ largest_lt f)
  rw [f.signed_eq]
  refine ⟨withSign_lt neg hlt, by rw [withSign_mod neg hlt, ← h.maxBits]; exact hm, by rw [signAt_withSign neg hlt, hx], ?_⟩
  rw [value_withSign neg hlt, sgInt_cast, mul_assoc, mul_assoc, ← h.qmin, hv]


/-! ## The rounded result -/

theorem sg_mul_neg_iff {y : ℝ} (hy : 0 < y) : sg neg * y < 0 ↔ neg = true := by
  cases neg
  · simp [sg, hy.le]
  · simp [sg, hy]

theorem abs_sgInt_mul_zpow (n : Nat) (q : Int) : |(sgInt neg n : ℝ) * (2 : ℝ) ^ q| = n * (2 : ℝ) ^ q := by
  rw [sgInt_cast, mul_assoc, abs_sg_mul, abs_of_nonneg (by positivity)]

theorem inRange_fl (f : Fmt) (md : Mode) (neg : Bool) (num den : Nat) (e : Int) : (f.inRange md neg num den e).fl =
    if f.inexact num den e then (if f.tiny md neg num den e then 24 else 16) else 0 := by
  unfold Fmt.inRange
  cases f.inexact num den e <;> cases f.tiny md neg num den e <;> rfl

theorem meets_place {R : ℝ → Int → Prop} (hR : md.Meets R) (hd : 0 < den) (q : Int) :
    R (sg neg * exactMag num den e / (2 : ℝ) ^ q) (sgInt neg (md.pick neg (quant num den e q))) := by
  rw [mul_div_assoc]
  exact hR neg _ _ (unitParts_exactMag q hd)

theorem lastPlace_eq (h : f.Ieee) :
    f.lastPlace num den e = max (topExp num den e - f.mbits) (1 - biasOf f.ebits - f.mbits) := by
  rw [Fmt.lastPlace, h.qmin]
  rfl

/-- A result in range is the picked integer in the last place, and its flags say whether it is exact and whether it is tiny. -/
theorem inRange_result (h : f.Ieee) (hn : 0 < num) (hd : 0 < den) (hr : f.pickMag md neg num den e ≤ f.maxBits) :
    Encodes f.ebits f.mbits (largest f.ebits f.mbits) (sg neg * exactMag num den e) (sgInt neg (f.pickLast md neg num den e))
      (f.lastPlace num den e) (f.inRange md neg num den e).v ∧
    (value f.ebits f.mbits (f.inRange md neg num den e).v = sg neg * exactMag num den e → (f.inRange md neg num den e).fl = 0) ∧
    (value f.ebits f.mbits (f.inRange md neg num den e).v ≠ sg neg * exactMag num den e → (f.inRange md neg num den e).fl =
      if |(sgInt neg (f.pickFree md neg num den e) : ℝ) * (2 : ℝ) ^ (topExp num den e - f.mbits)| < (2 : ℝ) ^ (1 - biasOf f.ebits)
        then 24 else 16) := by
  have henc : Encodes f.ebits f.mbits (largest f.ebits f.mbits) (sg neg * exactMag num den e)
      (sgInt neg (f.pickLast md neg num den e)) (f.lastPlace num den e) (f.inRange md neg num den e).v :=
    encodes_signed h (sg_mul_neg_iff (exactMag_pos hn hd)) hr (magUnits_pickMag hn hd)
  have hx : value f.ebits f.mbits (f.inRange md neg num den e).v = sg neg * exactMag num den e ↔ f.inexact num den e = false := by
    have hsg : sg neg ≠ 0 := by cases neg <;> simp [sg]
    rw [henc.2.2.2, sgInt_cast, mul_assoc, mul_right_inj' hsg, Fmt.pickLast, pick_eq_iff hd, Fmt.inexact, bne_eq_false_iff_eq]
  refine ⟨henc, fun hv => ?_, fun hv => ?_⟩
  · rw [inRange_fl, hx.mp hv]
    rfl
  · rw [inRange_fl, Bool.eq_true_of_not_eq_false fun hc => hv (hx.mpr hc), abs_sgInt_mul_zpow]
    simp only [if_true, tiny_iff h hn hd]

/-- The overflowed result is R213's. -/
theorem overflow_eq (h : f.Ieee) (rm : BitVec 3) (neg : Bool) : f.overflow (modeOf rm) neg =
    ⟨overflowed f.ebits f.mbits (largest f.ebits f.mbits) (some (infinity f.ebits f.mbits)) rm.toNat neg, 20, false⟩ := by
  rw [modeOf_eq]
  unfold Fmt.overflow overflowed
  simp only [h.ieee, h.maxBits, h.infBits, f.signed_eq, Option.getD_some, Bool.not_true, Bool.false_eq_true, if_false]
  split_ifs <;> simp_all [fOF, fNX]

/-- `round` rounds once (R131, R212, R213). -/
theorem rounded_round (h : f.Ieee) (rm : BitVec 3) (zs : Bool) (hn : 0 < num) (hd : 0 < den) :
    Rounded f.ebits f.mbits rm.toNat zs (sg neg * exactMag num den e) (f.round (modeOf rm) neg num den e).v
      (f.round (modeOf rm) neg num den e).fl := by
  have hpos := exactMag_pos (e := e) hn hd
  have hsg : sg neg * exactMag num den e ≠ 0 := by cases neg <;> simp [sg, hpos.ne']
  have hover := maxBits_lt_pickMag_iff (md := modeOf rm) (neg := neg) (e := e) h hn hd
  rw [f.round_plain (plain_modeOf rm)]
  refine ⟨fun h0 => absurd h0 hsg, fun _ => ⟨topExp num den e, sgInt neg (f.pickFree (modeOf rm) neg num den e),
    sgInt neg (f.pickLast (modeOf rm) neg num den e), ?_, ?_, meets_place (meets_modeOf rm) hd _, ?_, fun hb => ?_, fun hb => ?_⟩⟩
  · rw [abs_sg_mul, abs_of_pos hpos]
    exact (exactMag_bounds hn hd).1
  · rw [abs_sg_mul, abs_of_pos hpos]
    exact (exactMag_bounds hn hd).2
  · rw [← lastPlace_eq h]
    exact meets_place (meets_modeOf rm) hd _
  · rw [abs_sgInt_mul_zpow] at hb
    rw [if_pos (hover.mpr hb), overflow_eq h, show decide (sg neg * exactMag num den e < 0) = neg by
      rw [Bool.eq_iff_iff, decide_eq_true_iff, sg_mul_neg_iff hpos]]
    exact ⟨rfl, rfl⟩
  · rw [abs_sgInt_mul_zpow] at hb
    have hle : f.pickMag (modeOf rm) neg num den e ≤ f.maxBits := not_lt.mp fun hc => absurd (hover.mp hc) (not_lt.mpr hb)
    rw [if_neg (not_lt.mpr hle), ← lastPlace_eq h]
    exact inRange_result h hn hd hle

/-! ## Stochastic rounding (R225) -/

/-- A value's whole units, rounded towards zero. -/
theorem exactMag_eq (hd : 0 < den) : exactMag num den e = (f.pickLast .rtz neg num den e +
    ((quant num den e (f.lastPlace num den e)).2.1 : ℝ) / (quant num den e (f.lastPlace num den e)).2.2) *
      (2 : ℝ) ^ f.lastPlace num den e := by
  have := (unitParts_exactMag (num := num) (e := e) (f.lastPlace num den e) hd).eq
  rwa [div_eq_iff (by positivity)] at this

/-- A value above the largest has the largest, or more, below it. -/
theorem above_iff (h : f.Ieee) (hn : 0 < num) (hd : 0 < den) :
    value f.ebits f.mbits (largest f.ebits f.mbits) < exactMag num den e ↔
      f.maxBits < f.pickMag .rtz neg num den e ∨ (f.pickMag .rtz neg num den e = f.maxBits ∧ f.inexact num den e = true) := by
  have hpos : (0 : ℝ) < (2 : ℝ) ^ f.qmin := by positivity
  have hmono := magUnits_strictMono f.mbits
  have hp := unitParts_exactMag (num := num) (e := e) (f.lastPlace num den e) hd
  have hx := exactMag_eq (f := f) (neg := neg) (num := num) (e := e) hd
  have ht := magUnits_pickMag (f := f) (md := .rtz) (neg := neg) (e := e) hn hd
  have hlast : (0 : ℝ) < (2 : ℝ) ^ f.lastPlace num den e := by positivity
  have h0 := hp.part_nonneg
  have hin : f.inexact num den e = true ↔ 0 < ((quant num den e (f.lastPlace num den e)).2.1 : ℝ) /
      (quant num den e (f.lastPlace num den e)).2.2 := by
    rw [Fmt.inexact, bne_iff_ne, ne_eq, ← hp.part_eq_zero]
    exact ⟨fun hc => lt_of_le_of_ne h0 (Ne.symm hc), ne_of_gt⟩
  rw [value_largest h]
  rcases lt_trichotomy f.maxBits (f.pickMag .rtz neg num den e) with hc | hc | hc
  · refine ⟨fun _ => .inl hc, fun _ => ?_⟩
    calc _ < (magUnits f.mbits (f.pickMag .rtz neg num den e) : ℝ) * 2 ^ f.qmin := by
          have := hmono hc
          gcongr
      _ ≤ exactMag num den e := by rw [ht, hx]; gcongr; linarith
  · rw [hin, hc, ht, hx]
    simp [hlast]
  · refine ⟨fun hlt => absurd hlt (not_lt.mpr ?_), fun hor => by omega⟩
    have hs := magUnits_place (f := f) (e := e) hn hd (j := f.pickLast .rtz neg num den e + 1) (Nat.le_succ _) le_rfl
    calc exactMag num den e ≤ (f.pickLast .rtz neg num den e + 1 : Nat) * 2 ^ f.lastPlace num den e := by
          rw [hx]; push_cast; gcongr; exact hp.part_lt.le
      _ ≤ magUnits f.mbits f.maxBits * 2 ^ f.qmin := by
          rw [← hs]
          gcongr
          exact hmono.monotone hc

theorem pickMag_rtz_le : f.pickMag .rtz neg num den e ≤ f.pickMag md neg num den e :=
  Nat.add_le_add_left (md.whole_le_pick neg _) _

theorem pickMag_le_succ : f.pickMag md neg num den e ≤ f.pickMag .rtz neg num den e + 1 :=
  Nat.add_le_add_left (md.pick_le_succ neg _) _

theorem pickMag_of_exact (hd : 0 < den) (hi : f.inexact num den e = false) :
    f.pickMag md neg num den e = f.pickMag .rtz neg num den e := by
  have h0 : (quant num den e (f.lastPlace num den e)).2.1 = 0 := by simpa [Fmt.inexact] using hi
  exact congrArg _ (md.pick_of_exact neg h0 (unitParts_exactMag (num := num) (e := e) _ hd).pos)

/-- `round` by a draw: which values count as above the largest. -/
theorem round_sr_cases (h : f.Ieee) (u : Nat) (hn : 0 < num) (hd : 0 < den) :
    (value f.ebits f.mbits (largest f.ebits f.mbits) < exactMag num den e →
      (f.round (.sr u) neg num den e).fl = 20 ∧ (f.round (.sr u) neg num den e).v = (f.round .rne neg num den e).v) ∧
    (exactMag num den e ≤ value f.ebits f.mbits (largest f.ebits f.mbits) →
      f.pickMag (.sr u) neg num den e ≤ f.maxBits ∧ f.round (.sr u) neg num den e = f.inRange (.sr u) neg num den e) := by
  have habove := above_iff (neg := neg) (e := e) h hn hd
  have hsucc := pickMag_le_succ (f := f) (md := .sr u) (neg := neg) (num := num) (den := den) (e := e)
  have hne := pickMag_rtz_le (f := f) (md := .rne) (neg := neg) (num := num) (den := den) (e := e)
  rw [f.round_sr, f.round_plain (md := .rne) rfl]
  constructor
  · intro hb
    rw [habove] at hb
    have hge : f.maxBits ≤ f.pickMag .rtz neg num den e := hb.elim le_of_lt fun hc => hc.1.ge
    rw [if_pos (by
      simp only [Bool.or_eq_true, Bool.and_eq_true, decide_eq_true_eq]
      exact hb.elim (.inr ∘ .inr) fun hc => .inr (.inl ⟨hc.1.ge, hc.2⟩))]
    split
    · exact ⟨rfl, rfl⟩
    · refine ⟨rfl, ?_⟩
      rw [show f.maxBits = f.pickMag .rne neg num den e by omega]
      rfl
  · intro hb
    have hc := mt habove.mpr (not_lt.mpr hb)
    push Not at hc
    have hle : f.pickMag (.sr u) neg num den e ≤ f.maxBits := by
      rcases lt_or_eq_of_le hc.1 with hlt | heq
      · omega
      · rw [pickMag_of_exact hd (Bool.eq_false_of_not_eq_true (hc.2 heq))]
        exact hc.1
    refine ⟨hle, if_neg ?_⟩
    simp only [Bool.or_eq_true, Bool.and_eq_true, decide_eq_true_eq]
    rintro (h1 | ⟨h1, h2⟩ | h1)
    · omega
    · exact hc.2 (by omega) h2
    · omega

/-- `round` by a draw rounds once (R225). -/
theorem drawnRound_round (h : f.Ieee) (u : Nat) (zs : Bool) (hn : 0 < num) (hd : 0 < den) :
    DrawnRound f.ebits f.mbits (largest f.ebits f.mbits) (some (infinity f.ebits f.mbits)) ((u : ℝ) / 2 ^ 24) zs
      (sg neg * exactMag num den e) (f.round (.sr u) neg num den e).v (f.round (.sr u) neg num den e).fl := by
  have hpos := exactMag_pos (e := e) hn hd
  have hsg : sg neg * exactMag num den e ≠ 0 := by cases neg <;> simp [sg, hpos.ne']
  have habs : |sg neg * exactMag num den e| = exactMag num den e := by rw [abs_sg_mul, abs_of_pos hpos]
  obtain ⟨habove, hwithin⟩ := round_sr_cases (neg := neg) (e := e) h u hn hd
  refine ⟨fun h0 => absurd h0 hsg, fun hb => ?_, fun _ hb => ⟨topExp num den e, sgInt neg (f.pickFree (.sr u) neg num den e),
    sgInt neg (f.pickLast (.sr u) neg num den e), ?_, ?_, meets_place (meets_sr u) hd _, ?_, ?_⟩⟩
  · obtain ⟨hfl, hv⟩ := habove (habs ▸ hb)
    exact ⟨hfl, _, hv ▸ rounded_round h 0 zs hn hd⟩
  · rw [habs]
    exact (exactMag_bounds hn hd).1
  · rw [habs]
    exact (exactMag_bounds hn hd).2
  · rw [← lastPlace_eq h]
    exact meets_place (meets_sr u) hd _
  · obtain ⟨hle, hr⟩ := hwithin (habs ▸ hb)
    rw [hr, ← lastPlace_eq h]
    exact inRange_result h hn hd hle

end

end Sys2Proof.Machine
end

section
/-! How a floating-point word ends (R18, R131, R228, R286). -/

namespace Sys2Proof.Machine
open Claims

theorem find_raise (s : State) (t : Tid) (th : Thread) (f : BitVec 6) :
    (s.raise t th f).threads.find t = some (if f = 0 then th else th.orFlags f) := by
  unfold State.raise
  split
  · exact find_setThread ..
  · exact find_setThread ..

theorem find_raise_other (s : State) {t k : Tid} (th : Thread) (f : BitVec 6) (h : k ≠ t) :
    (s.raise t th f).threads.find k = s.threads.find k := by
  unfold State.raise
  split
  · exact find_setThread_other _ _ _ _ h
  · exact find_setThread_other _ _ _ _ h

theorem raise_mem (s : State) (t : Tid) (th : Thread) (f : BitVec 6) : (s.raise t th f).mem = s.mem := by
  unfold State.raise
  split <;> rfl

theorem raise_cycle (s : State) (t : Tid) (th : Thread) (f : BitVec 6) : (s.raise t th f).cycle = s.cycle := by
  unfold State.raise
  split <;> rfl

theorem core_modK (s : State) (n : Nat) (f : CoreCtl → CoreCtl) : ((s.modK n f).core n).k = f (s.core n).k := by
  simp [State.modK, State.modCore, State.setCore, State.core, Tab.getD, Tab.find_set_same]

/-- A thread that is held for its report: its context stays, and the report waits at its core (R228). -/
structure Held (s r : State) (t : Tid) (th : Thread) (detail : W8) : Prop where
  thread : ∃ u v, s.threads.find t = some u ∧ r.threads.find t = some v ∧ v.c = u.c
  report : ∃ h ∈ (r.core th.core).k.fpHeld, h.tid = t ∧ h.window = s.cycle / 16 ∧ h.detail = detail
  mem : r.mem = s.mem
  others : ∀ k, k ≠ t → r.threads.find k = s.threads.find k

theorem modThread_eq {s : State} {t : Tid} {u : Thread} (hf : s.threads.find t = some u) (f : Thread → Thread) :
    s.modThread t f = s.setThread t (f u) := by
  simp [State.modThread, hf]

/-- What a thread enters in `fpHeld` of its core. -/
def State.fpHold (s : State) (t : Tid) (th : Thread) (detail : W8) (v : W64) : FpHold :=
  { tid := t, slot := th.bslot.getD 0, window := s.cycle / 16, addr := v, detail := detail }

/-- Whether or not it keeps its slot, a thread that enters `fpHeld` of its core is held. -/
theorem held_of_append {s a r : State} {t : Tid} {u u' th : Thread} {detail : W8} {v : W64} (hf : s.threads.find t = some u)
    (ha : a = s ∨ a = s.setThread t u') (hu : u'.c = u.c) (hthreads : r.threads = a.threads) (hmem : r.mem = a.mem)
    (hcores : r.cores = (a.modK th.core fun k => { k with fpHeld := k.fpHeld ++ [s.fpHold t th detail v] }).cores) :
    Held s r t th detail := by
  have hrep : ∃ h ∈ (r.core th.core).k.fpHeld, h.tid = t ∧ h.window = s.cycle / 16 ∧ h.detail = detail := by
    refine ⟨s.fpHold t th detail v, ?_, rfl, rfl, rfl⟩
    rw [State.core, hcores]
    change s.fpHold t th detail v ∈ ((a.modK th.core _).core th.core).k.fpHeld
    rw [core_modK]
    simp
  rcases ha with rfl | rfl
  · exact ⟨⟨u, u, hf, by rw [hthreads, hf], rfl⟩, hrep, hmem, fun k _ => by rw [hthreads]⟩
  · exact ⟨⟨u, u', hf, by rw [hthreads]; exact find_setThread .., hu⟩, hrep, hmem,
      fun k hk => by rw [hthreads]; exact find_setThread_other _ _ _ _ hk⟩

theorem held_holdFp {s : State} {t : Tid} {u : Thread} (th : Thread) (detail : W8) (v : W64) (hf : s.threads.find t = some u) :
    Held s (s.holdFp t th detail v) t th detail := by
  unfold State.holdFp
  rw [modThread_eq hf]
  dsimp only
  split
  all_goals split
  · exact held_of_append hf (.inl rfl) (u' := u) rfl rfl rfl rfl
  · exact held_of_append hf (.inr rfl) (u' := { u with run := .parked .fpHeld, bslot := none }) rfl rfl rfl rfl
  · exact held_of_append hf (.inl rfl) (u' := u) rfl rfl rfl rfl
  · exact held_of_append hf (.inr rfl) (u' := { u with run := .parked .fpHeld, bslot := none }) rfl rfl rfl rfl

/-- A floating-point word outside deterministic launches: its result and its flags end it, or it is held for its report. -/
theorem floats_of_fpEnd {i : Instr} {s : State} {th : Thread} {q : Issue} {body : Body} {r : FRes} {wr : Thread → Nat → Thread}
    (h : s.Plain th) (hi : exec i s = issue q s body) (hp : th.precheck q s.word (s.vecPending s.cur) = .go) (hvx : q.vx = false)
    (hb : body s s.cur th = fpEnd s s.cur th r wr) (hc : (wr th.retire r.v).chunk = th.chunk) (hfl : r.fl &&& exceptions = r.fl) :
    Floats i s th r.v r.fl wr := by
  have hexec : exec i s = s.settle s.cur th false (fpEnd s s.cur th r wr) := by
    rw [hi, issue_plain h hp (.inr hvx), saved_none, hvx, hb]
  unfold fpEnd Thread.trapped at hexec
  refine ⟨fun hz => ?_, fun hz => ?_⟩
  · rw [if_neg (by simp [hz])] at hexec
    rw [hexec, settle_done]
    intro u hu
    rw [find_raise] at hu
    cases hu
    have : (wr th.retire r.v).chunk.open_ = false := by rw [hc]; exact h.chunk
    split
    · exact this
    · exact this
  · rw [if_pos (by simpa using hz), hfl] at hexec
    have hne : r.fl ≠ 0 := by
      intro h0
      simp [h0] at hz
    obtain ⟨⟨u, v, hu, hv, huv⟩, ⟨g, hg, hgt, hgw, hgd⟩, hmem, hoth⟩ :=
      held_holdFp th ((r.fl.extractLsb' 0 5).zeroExtend 8) 0 (find_raise s s.cur th r.fl)
    rw [find_raise, if_neg hne] at hu
    cases hu
    refine ⟨_, v, g, hexec.trans ?_, hv, huv, hg, hgt, by rw [hgw, raise_cycle], hgd, by rw [hmem, raise_mem],
      fun k hk => by rw [hoth k hk, find_raise_other _ _ _ hk]⟩
    simp [State.settle, State.raiseTrap, h.det]

end Sys2Proof.Machine
end

section
/-! The functions of `fpu` on numbers: one rounding of the exact result (R131, R132). -/

namespace Sys2Proof.Machine
open Claims

variable {f : Fmt} {rm : BitVec 3}

/-! ## Exact results -/

/-- An exact zero keeps the sign it is given and raises nothing. -/
theorem rounds_zero (eb mb big : Nat) (inf : Option Nat) (rm : Nat) (zs : Bool) :
    Rounds eb mb big inf rm zs 0 (withSign eb mb zs 0) 0 := ⟨fun _ => ⟨rfl, rfl⟩, fun h => absurd rfl h⟩

theorem rounded_roundZ (h : f.Ieee) (neg : Bool) (num : Nat) {den : Nat} (e : Int) (hd : 0 < den) :
    Rounded f.ebits f.mbits rm.toNat neg (sg neg * exactMag num den e) (f.roundZ (modeOf rm) neg num den e).v
      (f.roundZ (modeOf rm) neg num den e).fl := by
  unfold Fmt.roundZ
  split
  · rename_i h0
    rw [h0, show sg neg * exactMag 0 den e = 0 by simp [exactMag]]
    exact rounds_zero ..
  · exact rounded_round h rm neg (Nat.pos_of_ne_zero ‹_›) hd

theorem sgInt_natAbs (v : Int) : sgInt (decide (v < 0)) v.natAbs = v := by
  unfold sgInt
  by_cases h : v < 0
  · rw [if_pos (decide_eq_true h)]; omega
  · rw [if_neg (by simpa using h)]; omega

/-- A signed integer times a power of two, its zero with a sign of its own. -/
theorem rounded_signed (h : f.Ieee) (zs : Bool) (v e : Int) : ∃ r : FRes,
    (if v = 0 then f.zero zs else f.round (modeOf rm) (decide (v < 0)) v.natAbs 1 e) = r ∧
      Rounded f.ebits f.mbits rm.toNat zs (v * (2 : ℝ) ^ e) r.v r.fl := by
  refine ⟨_, rfl, ?_⟩
  split
  · rename_i h0
    rw [h0, Int.cast_zero, zero_mul]
    exact rounds_zero ..
  · have hx : (v : ℝ) * (2 : ℝ) ^ e = sg (decide (v < 0)) * exactMag v.natAbs 1 e := by
      rw [exactMag, Nat.cast_one, div_one, ← mul_assoc, ← sgInt_cast, sgInt_natAbs]
    rw [hx]
    exact rounded_round h rm zs (Int.natAbs_pos.mpr ‹_›) one_pos

/-- `dyAdd` is exact. -/
theorem dyAdd_exact (n1 : Bool) (m1 : Nat) (e1 : Int) (n2 : Bool) (m2 : Nat) (e2 : Int) :
    ((dyAdd n1 m1 e1 n2 m2 e2).1 : ℝ) * (2 : ℝ) ^ (dyAdd n1 m1 e1 n2 m2 e2).2 =
      sg n1 * (m1 * (2 : ℝ) ^ e1) + sg n2 * (m2 * (2 : ℝ) ^ e2) := by
  have hscale : ∀ {m : Nat} {a : Int}, min e1 e2 ≤ a →
      ((m * 2 ^ (a - min e1 e2).toNat : Nat) : ℝ) * (2 : ℝ) ^ min e1 e2 = m * (2 : ℝ) ^ a := by
    intro m a ha
    push_cast
    rw [mul_assoc, ← zpow_natCast, ← zpow_add₀ (by norm_num), Int.toNat_of_nonneg (by omega), sub_add_cancel]
  change ((sgInt n1 (m1 * 2 ^ (e1 - min e1 e2).toNat) + sgInt n2 (m2 * 2 ^ (e2 - min e1 e2).toNat) : Int) : ℝ) * _ = _
  rw [Int.cast_add, sgInt_cast, sgInt_cast, add_mul, mul_assoc, mul_assoc]
  exact congrArg₂ _ (congrArg _ (hscale (min_le_left _ _))) (congrArg _ (hscale (min_le_right _ _)))

theorem rdn_iff (rm : BitVec 3) : (modeOf rm == .rdn) = (rm == 3) := by
  revert rm; decide

theorem add_fin (h : f.Ieee) (n1 : Bool) (m1 : Nat) (e1 : Int) (n2 : Bool) (m2 : Nat) (e2 : Int) : ∃ r : FRes,
    f.add (modeOf rm) (.fin n1 m1 e1) (.fin n2 m2 e2) = r ∧
      Rounded f.ebits f.mbits rm.toNat (if n1 = n2 then n1 else rm == 3)
        (sg n1 * (m1 * (2 : ℝ) ^ e1) + sg n2 * (m2 * (2 : ℝ) ^ e2)) r.v r.fl := by
  rw [← dyAdd_exact, ← rdn_iff]
  exact rounded_signed h _ _ _

theorem sg_xor (a b : Bool) : sg (a ^^ b) = sg a * sg b := by cases a <;> cases b <;> simp [sg]

theorem sg_not (a : Bool) : sg (!a) = -sg a := by cases a <;> simp [sg]

theorem sg_mul_sg (a : Bool) : sg a * sg a = 1 := by cases a <;> simp [sg]

theorem mul_fin (h : f.Ieee) (n1 : Bool) (m1 : Nat) (e1 : Int) (n2 : Bool) (m2 : Nat) (e2 : Int) : ∃ r : FRes,
    f.mul (modeOf rm) (.fin n1 m1 e1) (.fin n2 m2 e2) = r ∧
      Rounded f.ebits f.mbits rm.toNat (n1 ^^ n2) ((sg n1 * (m1 * (2 : ℝ) ^ e1)) * (sg n2 * (m2 * (2 : ℝ) ^ e2))) r.v r.fl := by
  have hx : (sg n1 * (m1 * (2 : ℝ) ^ e1)) * (sg n2 * (m2 * (2 : ℝ) ^ e2)) =
      sg (n1 ^^ n2) * exactMag (m1 * m2) 1 (e1 + e2) := by
    rw [exactMag, sg_xor, zpow_add₀ (by norm_num)]
    push_cast
    ring
  rw [hx]
  exact ⟨_, rfl, rounded_roundZ h _ _ _ one_pos⟩

theorem div_fin (h : f.Ieee) (n1 : Bool) (m1 : Nat) (e1 : Int) (n2 : Bool) {m2 : Nat} (e2 : Int) (h2 : m2 ≠ 0) : ∃ r : FRes,
    f.div (modeOf rm) (.fin n1 m1 e1) (.fin n2 m2 e2) = r ∧
      Rounded f.ebits f.mbits rm.toNat (n1 ^^ n2) ((sg n1 * (m1 * (2 : ℝ) ^ e1)) / (sg n2 * (m2 * (2 : ℝ) ^ e2))) r.v r.fl := by
  have hx : (sg n1 * (m1 * (2 : ℝ) ^ e1)) / (sg n2 * (m2 * (2 : ℝ) ^ e2)) = sg (n1 ^^ n2) * exactMag m1 m2 (e1 - e2) := by
    have hs : sg n2 ≠ 0 := fun h0 => by simpa [h0] using sg_mul_sg n2
    have hm : (m2 : ℝ) ≠ 0 := by exact_mod_cast h2
    rw [exactMag, sg_xor, zpow_sub₀ (by norm_num), div_eq_iff (by positivity)]
    field_simp
    linear_combination -(sg n1 * m1) * sg_mul_sg n2
  rw [hx]
  exact ⟨_, if_neg h2, rounded_roundZ h _ _ _ (Nat.pos_of_ne_zero h2)⟩

theorem fma_fin (h : f.Ieee) (n1 : Bool) (m1 : Nat) (e1 : Int) (n2 : Bool) (m2 : Nat) (e2 : Int) (n3 : Bool) (m3 : Nat) (e3 : Int) :
    ∃ r : FRes, f.fma (modeOf rm) (.fin n1 m1 e1) (.fin n2 m2 e2) (.fin n3 m3 e3) = r ∧
      Rounded f.ebits f.mbits rm.toNat (if (n1 ^^ n2) = n3 then n3 else rm == 3)
        ((sg n1 * (m1 * (2 : ℝ) ^ e1)) * (sg n2 * (m2 * (2 : ℝ) ^ e2)) + sg n3 * (m3 * (2 : ℝ) ^ e3)) r.v r.fl := by
  have hx : (sg n1 * (m1 * (2 : ℝ) ^ e1)) * (sg n2 * (m2 * (2 : ℝ) ^ e2)) =
      sg (n1 ^^ n2) * ((m1 * m2 : Nat) * (2 : ℝ) ^ (e1 + e2)) := by
    rw [sg_xor, zpow_add₀ (by norm_num)]
    push_cast
    ring
  rw [hx, ← dyAdd_exact, ← rdn_iff]
  have hfma : f.fma (modeOf rm) (.fin n1 m1 e1) (.fin n2 m2 e2) (.fin n3 m3 e3) =
      if (dyAdd (n1 ^^ n2) (m1 * m2) (e1 + e2) n3 m3 e3).1 = 0 then
        f.zero (if (n1 ^^ n2) = n3 then n3 else modeOf rm == .rdn)
      else f.round (modeOf rm) (decide ((dyAdd (n1 ^^ n2) (m1 * m2) (e1 + e2) n3 m3 e3).1 < 0))
        (dyAdd (n1 ^^ n2) (m1 * m2) (e1 + e2) n3 m3 e3).1.natAbs 1 (dyAdd (n1 ^^ n2) (m1 * m2) (e1 + e2) n3 m3 e3).2 := by
    have hbad : ((FVal.fin n1 m1 e1).isInf && (FVal.fin n2 m2 e2).isZero ||
      (FVal.fin n1 m1 e1).isZero && (FVal.fin n2 m2 e2).isInf) = false := by simp [FVal.isInf]
    unfold Fmt.fma
    rw [hbad]
    rfl
  rw [hfma]
  exact rounded_signed h _ _ _

/-! ## Square roots -/

/-- Bit by bit, `isqrtGo` finds the root below which `n` lies. -/
theorem isqrtGo_spec {n : Nat} : ∀ {k r : Nat}, r * r ≤ n → n < (r + 2 ^ k) * (r + 2 ^ k) →
    isqrtGo n k r * isqrtGo n k r ≤ n ∧ n < (isqrtGo n k r + 1) * (isqrtGo n k r + 1)
  | 0, r, h1, h2 => ⟨h1, by simpa [isqrtGo] using h2⟩
  | k + 1, r, h1, h2 => by
    unfold isqrtGo
    refine isqrtGo_spec ?_ ?_
    · split
      · assumption
      · exact h1
    · rw [pow_succ] at h2
      split
      · rwa [add_assoc, ← two_mul, mul_comm 2]
      · exact not_le.mp ‹_›

theorem isqrt_spec (n : Nat) : isqrt n * isqrt n ≤ n ∧ n < (isqrt n + 1) * (isqrt n + 1) := by
  refine isqrtGo_spec (Nat.zero_le _) ?_
  rw [zero_add, ← pow_add]
  exact Nat.lt_log2_self.trans_le (Nat.pow_le_pow_right (by norm_num) (by omega))

/-- Two positive numbers lie inside one cell of the multiples of 2^c. -/
def SameCell (c : Int) (a y : ℝ) : Prop :=
  ∃ r : Nat, (r * (2 : ℝ) ^ c < a ∧ a < (r + 1) * (2 : ℝ) ^ c) ∧ (r * (2 : ℝ) ^ c < y ∧ y < (r + 1) * (2 : ℝ) ^ c)

theorem SameCell.symm {c : Int} {a y : ℝ} (h : SameCell c a y) : SameCell c y a := by
  obtain ⟨r, ha, hy⟩ := h
  exact ⟨r, hy, ha⟩

theorem SameCell.pos {c : Int} {a y : ℝ} (h : SameCell c a y) : 0 < a := by
  obtain ⟨r, ⟨ha, -⟩, -⟩ := h
  exact lt_of_le_of_lt (by positivity) ha

/-- A cell lies inside one of every coarser grid. -/
theorem SameCell.coarsen {c q : Int} {a y : ℝ} (h : SameCell c a y) (hq : c ≤ q) : SameCell q a y := by
  obtain ⟨r, ⟨ha1, ha2⟩, hy1, hy2⟩ := h
  obtain ⟨j, rfl⟩ : ∃ j : Nat, q = c + j := ⟨(q - c).toNat, by omega⟩
  have hc : (0 : ℝ) < (2 : ℝ) ^ c := by positivity
  have hlo : ((r / 2 ^ j : Nat) : ℝ) * (2 : ℝ) ^ (c + j) ≤ r * (2 : ℝ) ^ c := by
    rw [zpow_add₀ (by norm_num), zpow_natCast, mul_comm ((2 : ℝ) ^ c), ← mul_assoc]
    gcongr
    exact_mod_cast Nat.div_mul_le_self r (2 ^ j)
  have hhi : ((r : ℝ) + 1) * (2 : ℝ) ^ c ≤ ((r / 2 ^ j : Nat) + 1) * (2 : ℝ) ^ (c + j) := by
    rw [zpow_add₀ (by norm_num), zpow_natCast, mul_comm ((2 : ℝ) ^ c), ← mul_assoc]
    gcongr
    have : r + 1 ≤ (r / 2 ^ j + 1) * 2 ^ j := by
      rw [mul_comm]
      exact Nat.lt_mul_div_succ r (by positivity)
    exact_mod_cast this
  exact ⟨r / 2 ^ j, ⟨hlo.trans_lt ha1, ha2.trans_le hhi⟩, hlo.trans_lt hy1, hy2.trans_le hhi⟩

/-- A multiple of 2^q is on the same side of both. -/
theorem SameCell.le_iff {c q : Int} {a y : ℝ} (h : SameCell c a y) (hq : c ≤ q) (i : Int) :
    i * (2 : ℝ) ^ q ≤ a ↔ i * (2 : ℝ) ^ q < y := by
  obtain ⟨r, ⟨ha1, ha2⟩, hy1, hy2⟩ := h.coarsen hq
  have hp : (0 : ℝ) < (2 : ℝ) ^ q := by positivity
  rcases lt_or_ge (r : Int) i with hi | hi
  · have hge : ((r : ℝ) + 1) * (2 : ℝ) ^ q ≤ i * (2 : ℝ) ^ q := by
      gcongr
      exact_mod_cast hi
    exact ⟨fun hc => absurd (ha2.trans_le hge) (not_lt.mpr hc), fun hc => absurd (hy2.trans_le hge) (not_lt.mpr hc.le)⟩
  · have hle : (i : ℝ) * (2 : ℝ) ^ q ≤ r * (2 : ℝ) ^ q := by
      gcongr
      exact_mod_cast hi
    exact ⟨fun _ => hle.trans_lt hy1, fun _ => (hle.trans_lt ha1).le⟩

/-- A number between neighbouring half integers rounds as any other one there. -/
theorem roundedInt_of_halves {rm j : Nat} {z z' : ℝ} {k : Int} (hz : j < 2 * z ∧ 2 * z < j + 1) (hz' : j < 2 * z' ∧ 2 * z' < j + 1)
    (h : RoundedInt rm z k) : RoundedInt rm z' k := by
  have hj : (0 : ℝ) ≤ j := by positivity
  -- an integer at most 2z is at most j, one at least 2z is above j
  have hle : ∀ {i : Int}, (i : ℝ) ≤ 2 * z → (i : ℝ) ≤ j := fun {i} hi => by
    have : (i : ℝ) < (j + 1 : Int) := by push_cast; linarith
    have : i < j + 1 := by exact_mod_cast this
    exact_mod_cast Int.lt_add_one_iff.mp this
  have hge : ∀ {i : Int}, 2 * z ≤ i → (j : ℝ) + 1 ≤ i := fun {i} hi => by
    have : ((j : Int) : ℝ) < i := by push_cast; linarith
    have : (j : Int) < i := by exact_mod_cast this
    exact_mod_cast this
  have habs : |z| = z := abs_of_pos (by linarith)
  have habs' : |z'| = z' := abs_of_pos (by linarith)
  -- a bound on the distance that is a half integer carries over
  have hdist : ∀ {b : Int}, |(k : ℝ) - z| ≤ b / 2 → |(k : ℝ) - z'| < b / 2 := fun {b} hb => by
    rw [abs_le] at hb
    have h1 := hle (i := 2 * k - b) (by push_cast; linarith)
    have h2 := hge (i := 2 * k + b) (by push_cast; linarith)
    push_cast at h1 h2
    rw [abs_lt]
    constructor <;> linarith
  refine ⟨?_, fun hr => ?_, fun hr => ?_, fun hr => ?_, fun h1 h2 h3 => ?_, fun h1 h2 h3 ht => ?_⟩
  · have := hdist (b := 2) (by norm_num; exact h.near.le)
    linarith
  · have := h.towardZero hr
    rw [habs] at this
    have h2 := hle (i := 2 * |k|) (by push_cast; linarith)
    push_cast at h2
    rw [habs']
    linarith
  · have := hge (i := 2 * k) (by push_cast; linarith [h.up hr])
    push_cast at this
    linarith
  · have := hle (i := 2 * k) (by push_cast; linarith [h.down hr])
    push_cast at this
    linarith
  · exact (by simpa using hdist (b := 1) (by simpa using h.nearest h1 h2 h3) : |(k : ℝ) - z'| < 1 / 2).le
  · have : |(k : ℝ) - z'| < 1 / 2 := by simpa using hdist (b := 1) (by simpa using h.nearest h1 h2 h3)
    linarith

theorem SameCell.roundedInt {c q : Int} {a y : ℝ} {rm : Nat} {k : Int} (h : SameCell c a y) (hq : c < q)
    (hk : RoundedInt rm (a / (2 : ℝ) ^ q) k) : RoundedInt rm (y / (2 : ℝ) ^ q) k := by
  obtain ⟨j, ⟨ha1, ha2⟩, hy1, hy2⟩ := h.coarsen (Int.le_sub_one_of_lt hq)
  have hp : (0 : ℝ) < (2 : ℝ) ^ (q - 1) := by positivity
  have hhalf : ∀ x : ℝ, 2 * (x / (2 : ℝ) ^ q) = x / (2 : ℝ) ^ (q - 1) := fun x => by
    rw [zpow_sub_one₀ (by norm_num)]
    field_simp
  refine roundedInt_of_halves (j := j) ?_ ?_ hk
  all_goals rw [hhalf, lt_div_iff₀ hp, div_lt_iff₀ hp]
  · exact ⟨ha1, ha2⟩
  · exact ⟨hy1, hy2⟩

/-- Numbers in one cell of a grid well below the last place are rounded alike (R131, R212). -/
theorem SameCell.rounds {eb mb big rm : Nat} {inf : Option Nat} {zs : Bool} {c : Int} {a y : ℝ} {v : Nat} {fl : BitVec 6}
    (h : SameCell c a y) (hc : (2 : ℝ) ^ (c + mb + 1) ≤ a) (hr : Rounds eb mb big inf rm zs a v fl) :
    Rounds eb mb big inf rm zs y v fl := by
  have ha := h.pos
  have hy := h.symm.pos
  have hcoarse : ∀ {E : Int}, a < (2 : ℝ) ^ (E + 1) → c + mb + 1 ≤ E := fun {E} hE => by
    have := (zpow_lt_zpow_iff_right₀ (by norm_num : (1 : ℝ) < 2)).mp (hc.trans_lt hE)
    omega
  have hne : ∀ {n q : Int} {x : ℝ}, c ≤ q → x = a ∨ x = y → (n : ℝ) * (2 : ℝ) ^ q ≠ x := fun {n q x} hq hx he => by
    have h1 := h.le_iff hq n
    have h2 := h.symm.le_iff hq n
    rcases hx with rfl | rfl
    · exact absurd (h2.mp (h1.mp he.le).le) (by rw [he]; exact lt_irrefl _)
    · exact absurd (h1.mp (h2.mp he.le).le) (by rw [he]; exact lt_irrefl _)
  refine ⟨fun h0 => absurd h0 hy.ne', fun _ => ?_⟩
  obtain ⟨E, k, n, hlo, hhi, hk, hn, hover, hin⟩ := hr.nonzero ha.ne'
  rw [abs_of_pos ha] at hlo hhi
  have hE := hcoarse hhi
  have hsign : decide (y < 0) = decide (a < 0) := by rw [decide_eq_false (not_lt.mpr ha.le), decide_eq_false (not_lt.mpr hy.le)]
  refine ⟨E, k, n, ?_, ?_, h.roundedInt (by omega) hk, h.roundedInt (by omega) hn, fun hb => ?_, fun hb => ?_⟩
  · rw [abs_of_pos hy]
    simpa using ((h.le_iff (q := E) (by omega) 1).mp (by simpa using hlo)).le
  · rw [abs_of_pos hy]
    by_contra hcon
    have := (h.symm.le_iff (q := E + 1) (by omega) 1).mp (by simpa using hcon)
    exact absurd (by simpa using this) (not_lt.mpr hhi.le)
  · rw [hsign]
    exact hover hb
  · obtain ⟨⟨h1, h2, h3, h4⟩, h5, h6⟩ := hin hb
    have hval := h4 ▸ hne (n := n) (q := max (E - mb) (1 - biasOf eb - mb)) (by omega) (.inl rfl)
    refine ⟨⟨h1, h2, by rw [h3]; exact iff_of_false (not_lt.mpr ha.le) (not_lt.mpr hy.le), h4⟩, fun hv => ?_, fun _ => h6 hval⟩
    exact absurd (h4 ▸ hv) (hne (by omega) (.inr rfl))

/-- The root of an integer in units of 2^c: exact, or in the cell above its whole part. -/
theorem sqrt_cell {big : Nat} (c : Int) :
    (isqrt big * isqrt big = big → Real.sqrt (big * (2 : ℝ) ^ (2 * c)) = exactMag (2 * isqrt big) 1 (c - 1)) ∧
    (isqrt big * isqrt big ≠ big →
      SameCell c (exactMag (2 * isqrt big + 1) 1 (c - 1)) (Real.sqrt (big * (2 : ℝ) ^ (2 * c)))) := by
  obtain ⟨hlo, hhi⟩ := isqrt_spec big
  generalize isqrt big = r at hlo hhi
  have hc : (0 : ℝ) < (2 : ℝ) ^ c := by positivity
  have hsq : (2 : ℝ) ^ (2 * c) = (2 : ℝ) ^ c * (2 : ℝ) ^ c := by rw [two_mul, zpow_add₀ (by norm_num)]
  have hmag : ∀ n : Nat, exactMag n 1 (c - 1) = (n : ℝ) / 2 * (2 : ℝ) ^ c := fun n => by
    rw [exactMag, zpow_sub_one₀ (by norm_num), Nat.cast_one]
    ring
  rw [hmag, hmag, hsq]
  refine ⟨fun he => ?_, fun hne => ⟨r, ⟨?_, ?_⟩, ?_, ?_⟩⟩
  · rw [← he]
    push_cast
    rw [mul_mul_mul_comm, Real.sqrt_mul_self (by positivity)]
    ring
  · push_cast
    gcongr
    linarith
  · push_cast
    gcongr
    linarith
  · rw [Real.lt_sqrt (by positivity), mul_pow, sq, sq, mul_lt_mul_iff_left₀ (by positivity)]
    exact_mod_cast lt_of_le_of_ne hlo hne
  · rw [Real.sqrt_lt' (by positivity), mul_pow, sq, sq, mul_lt_mul_iff_left₀ (by positivity)]
    exact_mod_cast hhi

theorem le_isqrt {n big : Nat} (h : n * n ≤ big) : n ≤ isqrt big := by
  by_contra hc
  have := (isqrt_spec big).2
  have := Nat.mul_le_mul (show isqrt big + 1 ≤ n by omega) (show isqrt big + 1 ≤ n by omega)
  omega

/-- A number with an even exponent, `k` further digits in its integer. -/
theorem scaled_for_sqrt (m k : Nat) (e : Int) : (m : ℝ) * (2 : ℝ) ^ e =
    (m * 2 ^ (e % 2).toNat * 2 ^ (2 * k) : Nat) * (2 : ℝ) ^ (2 * ((e - (e % 2).toNat) / 2 - (k : Int))) := by
  have hodd : ((e % 2).toNat : Int) = e % 2 := Int.toNat_of_nonneg (by omega)
  push_cast
  rw [← zpow_natCast (2 : ℝ) (e % 2).toNat, ← zpow_natCast (2 : ℝ) (2 * k), mul_assoc, mul_assoc, ← zpow_add₀ (by norm_num),
    ← zpow_add₀ (by norm_num)]
  congr 2
  push_cast
  omega

/-- The root of a number that is not negative (R132): the digits that are cut off decide exactness alone. -/
theorem sqrt_fin (h : f.Ieee) {n : Bool} {m : Nat} (e : Int) (hn : n = false ∨ m = 0) : ∃ r : FRes,
    f.sqrt (modeOf rm) (.fin n m e) = r ∧
      Rounded f.ebits f.mbits rm.toNat n (Real.sqrt (sg n * (m * (2 : ℝ) ^ e))) r.v r.fl := by
  refine ⟨_, rfl, ?_⟩
  unfold Fmt.sqrt
  dsimp only
  by_cases hm : m = 0
  · rw [if_pos hm, hm, show sg n * (((0 : Nat) : ℝ) * (2 : ℝ) ^ e) = 0 by simp, Real.sqrt_zero]
    exact rounds_zero ..
  · obtain rfl := hn.resolve_right hm
    rw [if_neg hm, if_neg (by simp), show sg false = 1 from rfl, one_mul, scaled_for_sqrt m (2 * f.mbits + 8) e]
    generalize hk : 2 * f.mbits + 8 = k
    have hr : 2 ^ k ≤ isqrt (m * 2 ^ (e % 2).toNat * 2 ^ (2 * k)) := le_isqrt (by
      rw [← pow_add, ← two_mul]
      exact Nat.le_mul_of_pos_left _ (by positivity))
    generalize m * 2 ^ (e % 2).toNat * 2 ^ (2 * k) = big at hr ⊢
    generalize (e - (e % 2).toNat) / 2 = d
    have hround : ∀ num, 0 < num → Rounds f.ebits f.mbits (largest f.ebits f.mbits) (some (infinity f.ebits f.mbits)) rm.toNat
        false (exactMag num 1 (d - k - 1)) (f.round (modeOf rm) false num 1 (d - k - 1)).v
        (f.round (modeOf rm) false num 1 (d - k - 1)).fl := fun num h0 => by
      have := rounded_round (neg := false) (e := d - k - 1) h rm false h0 one_pos
      rwa [show sg false = 1 from rfl, one_mul] at this
    obtain ⟨hexact, hcell⟩ := sqrt_cell (big := big) (d - k)
    by_cases he : isqrt big * isqrt big = big
    · rw [hexact he, if_pos he]
      exact hround _ (by have := Nat.two_pow_pos k; omega)
    · rw [if_neg he]
      refine (hcell he).rounds ?_ (hround _ (Nat.succ_pos _))
      calc (2 : ℝ) ^ (d - k + f.mbits + 1) ≤ (2 : ℝ) ^ ((k : Int) + (d - k)) := zpow_le_zpow_right₀ (by norm_num) (by omega)
        _ = (2 ^ k : Nat) * (2 : ℝ) ^ (d - (k : Int)) := by rw [zpow_add₀ (by norm_num), zpow_natCast]; push_cast; rfl
        _ ≤ (2 * isqrt big + 1 : Nat) / 2 * (2 : ℝ) ^ (d - (k : Int)) := by
          gcongr
          rw [le_div_iff₀ (by norm_num)]
          norm_cast
          omega
        _ = exactMag (2 * isqrt big + 1) 1 (d - k - 1) := by
          rw [exactMag, zpow_sub_one₀ (by norm_num), Nat.cast_one, div_one]
          ring

end Sys2Proof.Machine
end

section
/-! `fpu` on finite operands (O11). -/

namespace Sys2Proof.Machine
open Claims

theorem precheck_rr3 {th : Thread} {o : Rr3} {w : W32} {pend : BitVec 5 → Bool} (hg : th.guardOk o.pg o.pn = true)
    (hr : th.Ready [o.sa, o.sb] [o.sd]) : th.precheck (qRr3 o) w pend = .go := precheck_go_guard hg hr

theorem precheck_rr2 {th : Thread} {o : Rr2} {w : W32} {pend : BitVec 5 → Bool} (hg : th.guardOk o.pg o.pn = true)
    (hr : th.Ready [o.sa] [o.sd]) : th.precheck (qRr2 o) w pend = .go := precheck_go_guard hg hr

/-- A rounded result raises none but exceptions. -/
theorem exceptions_of_rounds {eb mb big rm : Nat} {inf : Option Nat} {zs : Bool} {x : ℝ} {v : Nat} {fl : BitVec 6}
    (h : Rounds eb mb big inf rm zs x v fl) : fl &&& exceptions = fl := by
  by_cases hx : x = 0
  · rw [(h.zero hx).2]
    rfl
  · obtain ⟨E, k, n, -, -, -, -, hover, hin⟩ := h.nonzero hx
    rcases lt_or_ge (value eb mb big) |(k : ℝ) * (2 : ℝ) ^ (E - mb)| with hb | hb
    · rw [(hover hb).2]
      rfl
    · obtain ⟨-, h0, h1⟩ := hin hb
      by_cases hv : value eb mb v = x
      · rw [h0 hv]
        rfl
      · rw [h1 hv]
        split <;> rfl

/-- The register write that ends an `fpu` word. -/
def putX (d : BitVec 4) (u : Thread) (r : Nat) : Thread := u.setX d (BitVec.ofNat 64 r)

/-- A word of `fpu` with two sources ends with what its function gives. -/
theorem floats_fpu3 {i : Instr} {o : Rr3} {g : Fmt → Mode → Thread → FVal → FVal → FRes} {s : State} {th : Thread} (h : s.Plain th)
    (hg : th.guardOk o.pg o.pn = true) (hr : th.Ready [o.sa, o.sb] [o.sd]) (hi : exec i s = fpu3 o g s) {r : FRes}
    (he : g (wFmt o.w) (modeOf th.rm) th ((wFmt o.w).unpack (Claims.operand o.w (th.src o.sa)))
      ((wFmt o.w).unpack (Claims.operand o.w (th.src o.sb))) = r) (hfl : r.fl &&& exceptions = r.fl) :
    Floats i s th r.v r.fl (putX o.sd) := by
  simp only [operand_eq] at he
  subst he
  exact floats_of_fpEnd h hi (precheck_rr3 hg hr) rfl rfl rfl hfl

/-- A word of `fpu` with one source. -/
theorem floats_fpu2 {i : Instr} {o : Rr2} {g : Fmt → Mode → FVal → FRes} {s : State} {th : Thread} (h : s.Plain th)
    (hg : th.guardOk o.pg o.pn = true) (hr : th.Ready [o.sa] [o.sd]) (hi : exec i s = fpu2 o g s) {r : FRes}
    (he : g (wFmt o.w) (modeOf th.rm) ((wFmt o.w).unpack (Claims.operand o.w (th.src o.sa))) = r) (hfl : r.fl &&& exceptions = r.fl) :
    Floats i s th r.v r.fl (putX o.sd) := by
  simp only [operand_eq] at he
  subst he
  exact floats_of_fpEnd h hi (precheck_rr2 hg hr) rfl rfl rfl hfl

/-- The addend of a fused word is the old destination's operand. -/
theorem addend_eq (o : Rr3) (th : Thread) : addend o th = (wFmt o.w).unpack (Claims.operand o.w (th.x o.sd)) := by
  rw [operand_eq]
  rfl

/-- A function of three numbers whose exact result `F` is rounded once, its zero signed by `Z`. -/
def RoundsOnce (G : Fmt → Mode → FVal → FVal → FVal → FRes) (F : ℝ → ℝ → ℝ → ℝ) (Z : Bool → Bool → Bool → Bool → Bool) : Prop :=
  ∀ (f : Fmt) (rm : BitVec 3) (n1 n2 n3 : Bool) (m1 m2 m3 : Nat) (e1 e2 e3 : Int), f.Ieee →
    ∃ r : FRes, G f (modeOf rm) (.fin n1 m1 e1) (.fin n2 m2 e2) (.fin n3 m3 e3) = r ∧
      Rounded f.ebits f.mbits rm.toNat (Z (rm == 3) n1 n2 n3)
        (F (sg n1 * (m1 * (2 : ℝ) ^ e1)) (sg n2 * (m2 * (2 : ℝ) ^ e2)) (sg n3 * (m3 * (2 : ℝ) ^ e3))) r.v r.fl

/-- A word of such a function on finite operands. -/
theorem floats_of_roundsOnce {i : Instr} {G : Fmt → Mode → FVal → FVal → FVal → FRes} {F : ℝ → ℝ → ℝ → ℝ}
    {Z : Bool → Bool → Bool → Bool → Bool} {o : Rr3} {s : State} {th : Thread} (hG : RoundsOnce G F Z) (h : s.Plain th)
    (hg : th.guardOk o.pg o.pn = true) (hr : th.Ready [o.sa, o.sb] [o.sd])
    (hi : exec i s = fpu3 o (fun f m th x y => G f m x y (addend o th)) s) {eb mb x y z : Nat} (heb : eb = (wFmt o.w).ebits)
    (hmb : mb = (wFmt o.w).mbits) (hx : x = Claims.operand o.w (th.src o.sa)) (hy : y = Claims.operand o.w (th.src o.sb))
    (hz : z = Claims.operand o.w (th.x o.sd)) (hfx : isFinite eb mb x) (hfy : isFinite eb mb y) (hfz : isFinite eb mb z) :
    ∃ v fl, Floats i s th v fl (putX o.sd) ∧
      Rounded eb mb th.rm.toNat (Z (th.rm == 3) (signAt eb mb x) (signAt eb mb y) (signAt eb mb z))
        (F (value eb mb x) (value eb mb y) (value eb mb z)) v fl := by
  subst heb hmb
  obtain ⟨m1, e1, rx⟩ := (ieee_wFmt o.w).reads hfx
  obtain ⟨m2, e2, ry⟩ := (ieee_wFmt o.w).reads hfy
  obtain ⟨m3, e3, rz⟩ := (ieee_wFmt o.w).reads hfz
  rw [rx.value, ry.value, rz.value]
  obtain ⟨r, hres, hround⟩ := hG (wFmt o.w) th.rm _ _ _ m1 m2 m3 e1 e2 e3 (ieee_wFmt o.w)
  refine ⟨r.v, r.fl, floats_fpu3 h hg hr hi ?_ (exceptions_of_rounds hround), hround⟩
  rw [addend_eq, ← hx, ← hy, ← hz, rx.unpack, ry.unpack, rz.unpack]
  exact hres

/-! ## The six functions of `arithmetic` -/

theorem roundsOnce_add : RoundsOnce (fun f m x y _ => f.add m x y) (fun x y _ => x + y)
    (fun d sx sy _ => if sx = sy then sx else d) :=
  fun _ _ n1 n2 _ m1 m2 _ e1 e2 _ h => add_fin h n1 m1 e1 n2 m2 e2

theorem roundsOnce_sub : RoundsOnce (fun f m x y _ => f.add m x y.negate) (fun x y _ => x - y)
    (fun d sx sy _ => if sx = !sy then sx else d) := by
  intro f rm n1 n2 n3 m1 m2 m3 e1 e2 e3 h
  have := add_fin (rm := rm) h n1 m1 e1 (!n2) m2 e2
  rwa [sg_not, neg_mul, ← sub_eq_add_neg] at this

theorem roundsOnce_mul : RoundsOnce (fun f m x y _ => f.mul m x y) (fun x y _ => x * y) (fun _ sx sy _ => sx ^^ sy) :=
  fun _ _ n1 n2 _ m1 m2 _ e1 e2 _ h => mul_fin h n1 m1 e1 n2 m2 e2

theorem roundsOnce_fma : RoundsOnce (fun f m x y z => f.fma m x y z) (fun x y z => x * y + z)
    (fun d sx sy sz => if (sx ^^ sy) = sz then sz else d) :=
  fun _ _ n1 n2 n3 m1 m2 m3 e1 e2 e3 h => fma_fin h n1 m1 e1 n2 m2 e2 n3 m3 e3

theorem roundsOnce_fms : RoundsOnce (fun f m x y z => f.fma m x y z.negate) (fun x y z => x * y - z)
    (fun d sx sy sz => if (sx ^^ sy) = !sz then !sz else d) := by
  intro f rm n1 n2 n3 m1 m2 m3 e1 e2 e3 h
  have := fma_fin (rm := rm) h n1 m1 e1 n2 m2 e2 (!n3) m3 e3
  rwa [sg_not n3, neg_mul, ← sub_eq_add_neg] at this

theorem roundsOnce_fnma : RoundsOnce (fun f m x y z => f.fma m x.negate y z) (fun x y z => z - x * y)
    (fun d sx sy sz => if !(sx ^^ sy) = sz then sz else d) := by
  intro f rm n1 n2 n3 m1 m2 m3 e1 e2 e3 h
  have := fma_fin (rm := rm) h (!n1) m1 e1 n2 m2 e2 n3 m3 e3
  rw [sg_not n1, neg_mul, neg_mul, neg_add_eq_sub] at this
  have hz : (if (!(decide ((n1 ^^ n2) = n3))) = true then n3 else rm == 3) = if (!n1 ^^ n2) = n3 then n3 else rm == 3 := by
    cases n1 <;> cases n2 <;> cases n3 <;> rfl
  rw [← hz] at this
  exact this

end Sys2Proof.Machine

namespace Sys2Proof
open Claims Machine

/-- Settles O11: an operand that is a number is read as sign, integer and exponent (`Fmt.Ieee.reads`), each function's exact result
is one rounding (`add_fin`, `mul_fin`, `fma_fin`, `div_fin`, `sqrt_fin`), and the word ends with it (`floats_of_fpEnd`). -/
theorem floatsRoundOnce : Obligations.FloatsRoundOnce := by
  unfold Obligations.FloatsRoundOnce arithmetic
  simp only [ebOf_eq, mbOf_eq]
  refine ⟨?_, ?_, ?_⟩
  · simp only [List.forall_mem_cons, List.not_mem_nil]
    refine ⟨?_, ?_, ?_, ?_, ?_, ?_, nofun⟩
    all_goals intro o s th h hg hr
    · exact floats_of_roundsOnce roundsOnce_add h hg hr rfl rfl rfl rfl rfl rfl
    · exact floats_of_roundsOnce roundsOnce_sub h hg hr rfl rfl rfl rfl rfl rfl
    · exact floats_of_roundsOnce roundsOnce_mul h hg hr rfl rfl rfl rfl rfl rfl
    · exact floats_of_roundsOnce roundsOnce_fma h hg hr rfl rfl rfl rfl rfl rfl
    · exact floats_of_roundsOnce roundsOnce_fms h hg hr rfl rfl rfl rfl rfl rfl
    · exact floats_of_roundsOnce roundsOnce_fnma h hg hr rfl rfl rfl rfl rfl rfl
  · intro o s th h hg hr hx hy hy0
    obtain ⟨m1, e1, hx⟩ := (ieee_wFmt o.w).reads hx
    obtain ⟨m2, e2, hy⟩ := (ieee_wFmt o.w).reads hy
    rw [hx.value, hy.value]
    obtain ⟨r, hdiv, hround⟩ := div_fin (rm := th.rm) (ieee_wFmt o.w) _ m1 e1 _ e2 (mt hy.zero.mp hy0)
    exact ⟨r.v, r.fl, floats_fpu3 (g := fun f m _ x y => f.div m x y) h hg hr rfl (by rw [hx.unpack, hy.unpack]; exact hdiv)
      (exceptions_of_rounds hround), hround⟩
  · intro o s th h hg hr hx hneg
    obtain ⟨m, e, hx⟩ := (ieee_wFmt o.w).reads hx
    rw [hx.value]
    obtain ⟨r, hsqrt, hround⟩ := sqrt_fin (rm := th.rm) (ieee_wFmt o.w) e (hneg.imp_right hx.zero.mpr)
    exact ⟨r.v, r.fl, floats_fpu2 (g := fun f m x => f.sqrt m x) h hg hr rfl (by rw [hx.unpack]; exact hsqrt)
      (exceptions_of_rounds hround), hround⟩

end Sys2Proof
end

section
/-! Integer functions, bit fields (R110, R122-R124). -/

namespace Sys2Proof.Machine
open Claims

/-! ## Results of width n (R110) -/

/-- A result as a register holds it: its word of width n, sign-extended. -/
theorem written_eq {n : Nat} (r : Int) : written n r = (BitVec.ofInt n r).signExtend 64 := by
  have h : (r % 2 ^ n).toNat = (BitVec.ofInt n r).toNat := by simp
  rw [written, h, sgn_toNat]
  rfl

/-- The low n bits of a register. -/
theorem uns_eq (n : Nat) (x : W64) : uns n x = (x.setWidth n).toNat := by
  rw [uns, BitVec.toNat_setWidth]

theorem width_cases {P : BitVec 1 → Prop} (h0 : P 0) (h1 : P 1) (w : BitVec 1) : P w := by
  obtain rfl | rfl : w = 0 ∨ w = 1 := by revert w; decide
  · exact h0
  · exact h1

/-- A function at the width that `W` selects is that of the low words, sign-extended. -/
theorem atW2_eq (w : BitVec 1) (f : (n : Nat) → BitVec n → BitVec n → BitVec n) (a b : W64) :
    atW2 w f a b = (f (width w) (a.setWidth _) (b.setWidth _)).signExtend 64 := by
  revert w
  refine width_cases rfl ?_
  change f 64 a b = (f 64 (a.setWidth 64) (b.setWidth 64)).signExtend 64
  simp

theorem atW1_eq (w : BitVec 1) (f : (n : Nat) → BitVec n → BitVec n) (a : W64) :
    atW1 w f a = (f (width w) (a.setWidth _)).signExtend 64 := by
  revert w
  refine width_cases rfl ?_
  change f 64 a = (f 64 (a.setWidth 64)).signExtend 64
  simp

theorem condW_eq (w : BitVec 1) (f : (n : Nat) → BitVec n → BitVec n → Bool) (a b : W64) :
    condW w f a b = f (width w) (a.setWidth _) (b.setWidth _) := by
  revert w
  refine width_cases rfl ?_
  change f 64 a b = f 64 (a.setWidth 64) (b.setWidth 64)
  simp

theorem sextW_eq (w : BitVec 1) (v : W64) : sextW w v = (v.setWidth (width w)).signExtend 64 := by
  revert w
  refine width_cases rfl ?_
  change v = (v.setWidth 64).signExtend 64
  simp

theorem opWidth_eq (w : BitVec 1) : opWidth w = width w := rfl

/-- `f` is the function `F` of numbers, reduced modulo 2^n. -/
def Computes2 (f : (n : Nat) → BitVec n → BitVec n → BitVec n) (F : Nat → Nat → Nat → Int → Int → Int) : Prop :=
  ∀ (n : Nat) (a b : BitVec n), f n a b = BitVec.ofInt n (F n a.toNat b.toNat a.toInt b.toInt)

theorem Computes2.atW2 {f : (n : Nat) → BitVec n → BitVec n → BitVec n} {F : Nat → Nat → Nat → Int → Int → Int} (h : Computes2 f F)
    (w : BitVec 1) (a b : W64) : Machine.atW2 w f a b = written (width w) (F (width w) (uns (width w) a) (uns (width w) b)
      (sgn (width w) (uns (width w) a)) (sgn (width w) (uns (width w) b))) := by
  simp only [uns_eq, sgn_toNat, written_eq]
  rw [atW2_eq, h]

/-! ## The functions of two sources (R122, R123) -/

section
variable {n : Nat} (a b : BitVec n)

theorem ofInt_toNat_cast : BitVec.ofInt n (a.toNat : Int) = a := by simp

theorem computes_add : Computes2 (fun _ a b => a + b) (fun _ a b _ _ => a + b) := fun n a b => by
  rw [BitVec.ofInt_add, ofInt_toNat_cast, ofInt_toNat_cast]

theorem computes_sub : Computes2 (fun _ a b => a - b) (fun _ a b _ _ => (a : Int) - b) := fun n a b => by
  dsimp only
  rw [Int.sub_eq_add_neg, BitVec.ofInt_add, BitVec.ofInt_neg, ofInt_toNat_cast, ofInt_toNat_cast, BitVec.sub_eq_add_neg]

theorem computes_mul : Computes2 (fun _ a b => a * b) (fun _ a b _ _ => a * b) := fun n a b => by
  rw [BitVec.ofInt_mul, ofInt_toNat_cast, ofInt_toNat_cast]

theorem computes_mulh : Computes2 fnMulh (fun n _ _ sa sb => asr (sa * sb) n) := fun _ _ _ => rfl

theorem computes_mulhu : Computes2 fnMulhu (fun n a b _ _ => a * b / 2 ^ n) := fun n a b => by
  rw [fnMulhu, ← BitVec.ofInt_natCast]
  push_cast
  rfl

theorem computes_and : Computes2 (fun _ a b => a &&& b) (fun _ a b _ _ => (a &&& b : Nat)) := fun n a b => by
  dsimp only
  rw [← BitVec.toNat_and, ofInt_toNat_cast]

theorem computes_or : Computes2 (fun _ a b => a ||| b) (fun _ a b _ _ => (a ||| b : Nat)) := fun n a b => by
  dsimp only
  rw [← BitVec.toNat_or, ofInt_toNat_cast]

theorem computes_xor : Computes2 (fun _ a b => a ^^^ b) (fun _ a b _ _ => (a ^^^ b : Nat)) := fun n a b => by
  dsimp only
  rw [← BitVec.toNat_xor, ofInt_toNat_cast]

theorem computes_andn : Computes2 (fun _ a b => a &&& ~~~b) (fun n a b _ _ => (a &&& (2 ^ n - 1 - b) : Nat)) := fun n a b => by
  dsimp only
  rw [← BitVec.toNat_not, ← BitVec.toNat_and, ofInt_toNat_cast]

theorem computes_orn : Computes2 (fun _ a b => a ||| ~~~b) (fun n a b _ _ => (a ||| (2 ^ n - 1 - b) : Nat)) := fun n a b => by
  dsimp only
  rw [← BitVec.toNat_not, ← BitVec.toNat_or, ofInt_toNat_cast]

theorem shl_eq_ofNat (k : Nat) : a <<< k = BitVec.ofNat n (a.toNat * 2 ^ k) := by
  apply BitVec.eq_of_toNat_eq
  rw [BitVec.toNat_shiftLeft, BitVec.toNat_ofNat, Nat.shiftLeft_eq]

theorem shr_eq_ofNat (k : Nat) : a >>> k = BitVec.ofNat n (a.toNat / 2 ^ k) := by
  apply BitVec.eq_of_toNat_eq
  rw [BitVec.toNat_ushiftRight, BitVec.toNat_ofNat, Nat.shiftRight_eq_div_pow,
    Nat.mod_eq_of_lt ((Nat.div_le_self _ _).trans_lt a.isLt)]

theorem computes_shl : Computes2 fnShl (fun n a b _ _ => a * 2 ^ (b % n)) := fun n a b => by
  rw [fnShl, shl_eq_ofNat, ← BitVec.ofInt_natCast]
  push_cast
  rfl

theorem computes_shr : Computes2 fnShr (fun n a b _ _ => a / 2 ^ (b % n)) := fun n a b => by
  rw [fnShr, shr_eq_ofNat, ← BitVec.ofInt_natCast]
  push_cast
  rfl

theorem computes_sra : Computes2 fnSra (fun n _ b sa _ => asr sa (b % n)) := fun n a b => by
  rw [fnSra, BitVec.sshiftRight_eq, Int.shiftRight_eq_div_pow]
  push_cast
  rfl

theorem computes_rot : Computes2 fnRot (fun n a b _ _ => (a * 2 ^ (b % n) ||| a / 2 ^ (n - b % n) : Nat)) := fun n a b => by
  rw [fnRot, shl_eq_ofNat, shr_eq_ofNat, BitVec.ofInt_natCast, BitVec.ofNat_or]

theorem computes_min : Computes2 fnMin (fun _ a b sa sb => if sa ≤ sb then a else b) := fun n a b => by
  simp only [fnMin, BitVec.sle, decide_eq_true_eq, apply_ite (BitVec.ofInt n), ofInt_toNat_cast]

theorem computes_max : Computes2 fnMax (fun _ a b sa sb => if sa ≥ sb then a else b) := fun n a b => by
  simp only [fnMax, BitVec.sle, decide_eq_true_eq, apply_ite (BitVec.ofInt n), ofInt_toNat_cast, ge_iff_le]

theorem computes_minu : Computes2 fnMinu (fun _ a b _ _ => if a ≤ b then a else b) := fun n a b => by
  simp only [fnMinu, BitVec.ule, decide_eq_true_eq, apply_ite (BitVec.ofInt n), ofInt_toNat_cast]

theorem computes_maxu : Computes2 fnMaxu (fun _ a b _ _ => if a ≥ b then a else b) := fun n a b => by
  simp only [fnMaxu, BitVec.ule, decide_eq_true_eq, apply_ite (BitVec.ofInt n), ofInt_toNat_cast, ge_iff_le]

theorem toNat_eq_zero_iff : b.toNat = 0 ↔ b = 0 := by
  rw [← BitVec.toNat_inj]
  simp

theorem allOnes_eq_ofInt : BitVec.allOnes n = BitVec.ofInt n (2 ^ n - 1) := by
  apply BitVec.eq_of_toNat_eq
  rw [BitVec.toNat_allOnes, show ((2 : Int) ^ n - 1) = ((2 ^ n - 1 : Nat) : Int) by
    rw [Nat.cast_sub Nat.one_le_two_pow]; push_cast; rfl, BitVec.ofInt_natCast, BitVec.toNat_ofNat,
    Nat.mod_eq_of_lt (Nat.sub_lt (Nat.two_pow_pos n) one_pos)]

theorem computes_div : Computes2 fnDiv (fun n _ b sa sb => if b = 0 then 2 ^ n - 1 else sa.tdiv sb) := fun n a b => by
  simp only [fnDiv, toNat_eq_zero_iff, apply_ite (BitVec.ofInt n), allOnes_eq_ofInt]

theorem computes_divu : Computes2 fnDivu (fun n a b _ _ => if b = 0 then 2 ^ n - 1 else (a / b : Nat)) := fun n a b => by
  simp only [fnDivu, toNat_eq_zero_iff, apply_ite (BitVec.ofInt n), allOnes_eq_ofInt, BitVec.ofInt_natCast]

theorem computes_rem : Computes2 fnRem (fun _ a b sa sb => if b = 0 then a else sa - sb * sa.tdiv sb) := fun n a b => by
  simp only [fnRem, toNat_eq_zero_iff, apply_ite (BitVec.ofInt n), ofInt_toNat_cast, Int.tmod_def]

theorem computes_remu : Computes2 fnRemu (fun _ a b _ _ => if b = 0 then a else (a : Int) - b * (a / b : Nat)) := fun n a b => by
  have hm : (a.toNat : Int) - b.toNat * (a.toNat / b.toNat : Nat) = (a.toNat % b.toNat : Nat) := by
    push_cast
    rw [Int.emod_def]
  simp only [fnRemu, toNat_eq_zero_iff, apply_ite (BitVec.ofInt n), ofInt_toNat_cast, hm]
  rw [BitVec.ofInt_natCast]

theorem computes_lea (k : Nat) : Computes2 (fnLea k) (fun _ a b _ _ => a + b * 2 ^ k) := fun n a b => by
  rw [fnLea, shl_eq_ofNat, ← BitVec.ofInt_natCast, BitVec.ofInt_add, ofInt_toNat_cast]
  push_cast
  rfl
end

/-! ## The functions of one source (R122) -/

/-- `f` is the function `F` of numbers, at the widths of whole bytes. -/
def Computes1 (f : (n : Nat) → BitVec n → BitVec n) (F : Nat → Nat → Nat) : Prop :=
  ∀ (n : Nat) (a : BitVec n), 8 ∣ n → f n a = BitVec.ofNat n (F n a.toNat)

theorem Computes1.atW1 {f : (n : Nat) → BitVec n → BitVec n} {F : Nat → Nat → Nat} (h : Computes1 f F) (w : BitVec 1) (a : W64) :
    Machine.atW1 w f a = written (width w) (F (width w) (uns (width w) a) : Nat) := by
  rw [uns_eq, written_eq, atW1_eq, h _ _ (by revert w; decide), BitVec.ofInt_natCast]

/-- The first index that meets `p` is the number of those before it, and the end where none does. -/
theorem find?_range'_getD (p : Nat → Bool) : ∀ (m s : Nat),
    ((List.range' s m).find? p).getD (s + m) = s + ((List.range' s m).takeWhile fun i => !p i).length
  | 0, s => by simp
  | m + 1, s => by
    rw [List.range'_succ, List.find?_cons, List.takeWhile_cons]
    cases hp : p s
    · have := find?_range'_getD p m (s + 1)
      rw [Nat.succ_add_eq_add_succ] at this
      simp [this]
      omega
    · simp

theorem find?_range_getD (p : Nat → Bool) (n : Nat) :
    ((List.range n).find? p).getD n = ((List.range n).takeWhile fun i => !p i).length := by
  simpa [List.range_eq_range'] using find?_range'_getD p n 0

theorem computes_clz : Computes1 fnClz (fun n a => ((List.range n).takeWhile fun i => !a.testBit (n - 1 - i)).length) :=
  fun n a _ => congrArg _ (find?_range_getD (fun i => a.getLsbD (n - 1 - i)) n)

theorem computes_ctz : Computes1 fnCtz (fun n a => ((List.range n).takeWhile fun i => !a.testBit i).length) :=
  fun n a _ => congrArg _ (find?_range_getD (fun i => a.getLsbD i) n)

theorem computes_popc : Computes1 fnPopc (fun n a => ((List.range n).filter fun i => a.testBit i).length) :=
  fun _ _ _ => congrArg _ List.countP_eq_length_filter

/-- The number whose bits below `k` are given by `p`. -/
def bitSum (p : Nat → Bool) (k : Nat) : Nat := ((List.range k).map fun i => if p i then 2 ^ i else 0).sum

theorem bitSum_succ (p : Nat → Bool) (k : Nat) : bitSum p (k + 1) = bitSum p k + if p k then 2 ^ k else 0 := by
  simp [bitSum, List.range_succ]

theorem bitSum_lt (p : Nat → Bool) : ∀ k, bitSum p k < 2 ^ k
  | 0 => by simp [bitSum]
  | k + 1 => by
    have := bitSum_lt p k
    rw [bitSum_succ, pow_succ]
    split <;> omega

theorem toNat_bitsOf {n : Nat} (p : Nat → Bool) : ∀ {k : Nat}, k ≤ n → (bitsOf n p k).toNat = bitSum p k
  | 0, _ => by simp [bitsOf, bitSum]
  | k + 1, hk => by
    have hlt := bitSum_lt p k
    rw [bitsOf, BitVec.toNat_or, toNat_bitsOf p (Nat.le_of_succ_le hk), bitSum_succ]
    split
    · rw [BitVec.toNat_shiftLeft, BitVec.toNat_one (by omega), Nat.shiftLeft_eq, one_mul,
        Nat.mod_eq_of_lt (Nat.pow_lt_pow_right (by norm_num) hk), Nat.or_comm, add_comm]
      simpa using (Nat.two_pow_add_eq_or_of_lt hlt 1).symm
    · simp

theorem bitsOf_eq {n : Nat} (p : Nat → Bool) : bitsOf n p n = BitVec.ofNat n (bitSum p n) := by
  apply BitVec.eq_of_toNat_eq
  rw [toNat_bitsOf p le_rfl, BitVec.toNat_ofNat, Nat.mod_eq_of_lt (bitSum_lt p n)]

theorem computes_brev : Computes1 fnBrev (fun n a => ((List.range n).map fun i => if a.testBit (n - 1 - i) then 2 ^ i else 0).sum) :=
  fun _ _ _ => bitsOf_eq _

/-- A number's own bits below `k`. -/
theorem bitSum_testBit (x : Nat) : ∀ k, bitSum x.testBit k = x % 2 ^ k
  | 0 => by simp [bitSum, Nat.mod_one]
  | k + 1 => by
    rw [bitSum_succ, bitSum_testBit x k, Nat.mod_pow_succ, Nat.testBit_eq_decide_div_mod_eq]
    rcases Nat.mod_two_eq_zero_or_one (x / 2 ^ k) with h | h <;> simp [h]

/-- The bits from `k` up, `m` of them. -/
theorem bitSum_add (p : Nat → Bool) (k m : Nat) : bitSum p (k + m) = bitSum p k + bitSum (fun i => p (k + i)) m * 2 ^ k := by
  induction m with
  | zero => simp [bitSum]
  | succ m ih =>
    rw [← add_assoc, bitSum_succ, ih, bitSum_succ, add_mul, add_assoc]
    congr 2
    split <;> simp [pow_add, mul_comm]

/-- The bytes of a number in the reverse order, the lowest `j` of the result. -/
theorem bitSum_bytes (x m : Nat) : ∀ j, bitSum (fun i => x.testBit (8 * (m - 1 - i / 8) + i % 8)) (8 * j) =
    ((List.range j).map fun i => x / 256 ^ (m - 1 - i) % 256 * 256 ^ i).sum
  | 0 => by simp [bitSum]
  | j + 1 => by
    have hbyte : (fun i => x.testBit (8 * (m - 1 - (8 * j + i) / 8) + (8 * j + i) % 8)) = fun i =>
        (if i < 8 then (x / 256 ^ (m - 1 - j)).testBit i else x.testBit (8 * (m - 1 - (8 * j + i) / 8) + (8 * j + i) % 8)) := by
      funext i
      split
      · rw [show 256 = 2 ^ 8 by rfl, ← pow_mul, Nat.testBit_div_two_pow, show (8 * j + i) / 8 = j by omega,
          show (8 * j + i) % 8 = i by omega, add_comm]
      · rfl
    have h8 : bitSum (fun i => x.testBit (8 * (m - 1 - (8 * j + i) / 8) + (8 * j + i) % 8)) 8 = x / 256 ^ (m - 1 - j) % 256 := by
      rw [hbyte, show 256 = 2 ^ 8 by rfl, ← bitSum_testBit]
      rfl
    rw [Nat.mul_succ, bitSum_add, bitSum_bytes x m j, h8, List.range_succ, List.map_append, List.sum_append]
    simp [pow_mul]

theorem computes_bswap : Computes1 fnBswap
    (fun n a => ((List.range (n / 8)).map fun i => a / 256 ^ (n / 8 - 1 - i) % 256 * 256 ^ i).sum) := fun n a hn => by
  rw [fnBswap, bitsOf_eq]
  have := bitSum_bytes a.toNat (n / 8) (n / 8)
  rw [Nat.mul_div_cancel' hn] at this
  exact congrArg _ this

end Sys2Proof.Machine
end

section
/-! `alu`, `alx` and `bits` (O6). -/

namespace Sys2Proof.Machine
open Claims

/-! ## Bit fields (R124) -/

theorem width_le (w : BitVec 1) : width w ≤ 64 := by revert w; decide

theorem setWidth_ofInt {n : Nat} (hn : n ≤ 64) (r : Int) : (BitVec.ofInt 64 r).setWidth n = BitVec.ofInt n r := by
  apply BitVec.eq_of_toNat_eq
  have hd : (2 : Int) ^ n ∣ 2 ^ 64 := pow_dvd_pow 2 hn
  have h64 : 0 ≤ r % 2 ^ 64 := Int.emod_nonneg _ (by norm_num)
  rw [BitVec.toNat_setWidth, BitVec.toNat_ofInt, BitVec.toNat_ofInt]
  zify
  rw [Int.toNat_of_nonneg h64, Int.toNat_of_nonneg (Int.emod_nonneg _ (by positivity))]
  exact Int.emod_emod_of_dvd r hd

theorem sextW_ofInt (w : BitVec 1) (r : Int) : sextW w (BitVec.ofInt 64 r) = written (width w) r := by
  rw [sextW_eq, written_eq, setWidth_ofInt (width_le w)]

theorem sextW_ofNat (w : BitVec 1) (r : Nat) : sextW w (BitVec.ofNat 64 r) = written (width w) r := by
  rw [← BitVec.ofInt_natCast, sextW_ofInt]

/-- The position and the length that a field's descriptor holds. -/
theorem desc_pos (x : W64) : (x.extractLsb' 0 6).toNat = x.toNat % 64 := by
  rw [BitVec.extractLsb'_toNat, Nat.shiftRight_zero]

theorem desc_len (x : W64) : (x.extractLsb' 8 7).toNat = x.toNat / 256 % 128 := by
  rw [BitVec.extractLsb'_toNat, Nat.shiftRight_eq_div_pow]

theorem fieldLen_eq (w : BitVec 1) (x : W64) : fieldLen w x = fieldCut (width w) (x.toNat % 64) (x.toNat / 256 % 128) := by
  simp only [fieldLen, desc_pos, desc_len, opWidth_eq]
  rfl

theorem fieldVal_eq (w : BitVec 1) (v x : W64) : fieldVal w v x =
    uns (width w) v / 2 ^ (x.toNat % 64) % 2 ^ fieldCut (width w) (x.toNat % 64) (x.toNat / 256 % 128) := by
  rw [fieldVal, desc_pos, fieldLen_eq, opWidth_eq]
  rfl

/-- A field's signed view, an empty field's 0 included. -/
theorem fieldExt_eq (w : BitVec 1) (v x : W64) : fieldExt w v x =
    BitVec.ofInt 64 (if fieldLen w x = 0 then 0 else sgn (fieldLen w x) (fieldVal w v x)) := by
  unfold fieldExt sgn
  dsimp only
  rw [Nat.testBit_eq_decide_div_mod_eq]
  by_cases hl : fieldLen w x = 0
  · rw [if_pos hl, if_neg (by simp [hl]), fieldVal, hl, pow_zero, Nat.mod_one]
    rfl
  · rw [if_neg hl]
    by_cases ht : fieldVal w v x / 2 ^ (fieldLen w x - 1) % 2 = 1
    · rw [if_pos ⟨hl, ht⟩, if_pos (by simpa using ht)]
    · rw [if_neg (by simp [ht]), if_neg (by simpa using ht), BitVec.ofInt_natCast]

theorem fieldMask_lt {n l pos : Nat} (h : pos + l ≤ n) : (2 ^ l - 1) * 2 ^ pos < 2 ^ n := by
  calc (2 ^ l - 1) * 2 ^ pos < 2 ^ l * 2 ^ pos := Nat.mul_lt_mul_of_pos_right (Nat.sub_lt (Nat.two_pow_pos l) one_pos) (Nat.two_pow_pos pos)
    _ = 2 ^ (pos + l) := by rw [← pow_add, add_comm]
    _ ≤ 2 ^ n := Nat.pow_le_pow_right (by norm_num) h

/-- The low bits of an insertion, bit by bit. -/
theorem insert_setWidth {n l pos : Nat} (hn : n ≤ 64) (h : pos + l ≤ n) (d v : W64) :
    ((d &&& ~~~(BitVec.ofNat 64 ((2 ^ l - 1) <<< pos))) ||| ((v <<< pos) &&& BitVec.ofNat 64 ((2 ^ l - 1) <<< pos))).setWidth n =
      BitVec.ofNat n ((uns n d &&& (2 ^ n - 1 - (2 ^ l - 1) * 2 ^ pos)) ||| v.toNat % 2 ^ l * 2 ^ pos) := by
  apply BitVec.eq_of_getLsbD_eq
  intro i hi
  have hi64 : i < 64 := by omega
  have hsub : 2 ^ n - 1 - (2 ^ l - 1) * 2 ^ pos = 2 ^ n - ((2 ^ l - 1) * 2 ^ pos + 1) := by omega
  simp only [BitVec.getLsbD_setWidth, BitVec.getLsbD_or, BitVec.getLsbD_and, BitVec.getLsbD_not, BitVec.getLsbD_shiftLeft,
    BitVec.getLsbD_ofNat, Nat.shiftLeft_eq, Nat.testBit_or, Nat.testBit_and, hsub,
    Nat.testBit_two_pow_sub_succ (fieldMask_lt h), Nat.testBit_mul_two_pow, Nat.testBit_mod_two_pow, uns, hi, hi64, decide_true,
    Bool.true_and]
  rw [BitVec.getLsbD, BitVec.getLsbD]
  by_cases h1 : pos ≤ i <;> by_cases h2 : i - pos < l <;> simp [h1, h2]

theorem fieldIns_setWidth (w : BitVec 1) (d v x : W64) : (fieldIns w d v x).setWidth (width w) =
    BitVec.ofInt (width w) (if fieldLen w x = 0 then (uns (width w) d : Int)
      else ((uns (width w) d &&& (2 ^ width w - 1 - (2 ^ fieldLen w x - 1) * 2 ^ (x.toNat % 64))) |||
        v.toNat % 2 ^ fieldLen w x * 2 ^ (x.toNat % 64) : Nat)) := by
  unfold fieldIns
  rw [desc_pos]
  dsimp only
  by_cases hl : fieldLen w x = 0
  · have h0 : ∀ pos, BitVec.ofNat 64 ((2 ^ 0 - 1) <<< pos) = 0#64 := fun pos => by simp
    rw [if_pos hl, hl, h0, BitVec.ofInt_natCast, uns_eq, BitVec.ofNat_toNat, BitVec.setWidth_eq]
    congr 1
    rw [BitVec.and_zero, BitVec.or_zero, BitVec.not_zero, BitVec.and_allOnes]
  · rw [if_neg hl, BitVec.ofInt_natCast]
    refine insert_setWidth (width_le w) ?_ d v
    rw [fieldLen_eq] at hl ⊢
    unfold fieldCut at hl ⊢
    split
    · omega
    · rw [if_neg ‹_›] at hl
      exact absurd rfl hl

end Sys2Proof.Machine

namespace Sys2Proof.Machine
open Claims

/-! ## The words -/

/-- A word with two sources that writes a register. -/
theorem acts_rr3 {i : Instr} {o : Rr3} {s : State} {th : Thread} {f : Thread → W64} (h : s.Alone th)
    (hg : th.guardOk o.pg o.pn = true) (hr : th.Ready [o.sa, o.sb] [o.sd]) (hi : exec i s = issue (qRr3 o) s (writesX o.sd f))
    (hf : ∀ ch, f { th with chunk := ch } = f th) {v : W64} (hv : f th = v) : Acts i s th (th.retire.setX o.sd v) :=
  hv ▸ acts_writesX h hi (precheck_rr3 hg hr) rfl hf

/-- A word with one source that writes a register. -/
theorem acts_rr2 {i : Instr} {o : Rr2} {s : State} {th : Thread} {f : Thread → W64} (h : s.Alone th)
    (hg : th.guardOk o.pg o.pn = true) (hr : th.Ready [o.sa] [o.sd]) (hi : exec i s = issue (qRr2 o) s (writesX o.sd f))
    (hf : ∀ ch, f { th with chunk := ch } = f th) {v : W64} (hv : f th = v) : Acts i s th (th.retire.setX o.sd v) :=
  hv ▸ acts_writesX h hi (precheck_rr2 hg hr) rfl hf

/-- The bitwise choice of `sel` (R122). -/
theorem sextW_sel (w : BitVec 1) (a b d : W64) : sextW w ((a &&& d) ||| (b &&& ~~~d)) = written (width w)
    ((uns (width w) a &&& uns (width w) d) ||| (uns (width w) b &&& (2 ^ width w - 1 - uns (width w) d)) : Nat) := by
  rw [sextW_eq, written_eq, BitVec.ofInt_natCast]
  congr 1
  simp only [uns_eq, ← BitVec.toNat_not, ← BitVec.toNat_and, ← BitVec.toNat_or, BitVec.ofNat_toNat, BitVec.setWidth_eq]
  apply BitVec.eq_of_getLsbD_eq
  intro i hi
  have : i < 64 := hi.trans_le (width_le w)
  simp [hi, this]

end Sys2Proof.Machine

namespace Sys2Proof
open Claims Machine

theorem integerFunctions : IntegerFunctions := by
  unfold IntegerFunctions binary unary
  refine ⟨?_, ?_, fun o s th h hg hr => acts_rr3 h hg hr rfl (fun _ => rfl) (sextW_sel ..)⟩
  · simp only [List.forall_mem_cons, List.not_mem_nil]
    refine ⟨?_, ?_, ?_, ?_, ?_, ?_, ?_, ?_, ?_, ?_, ?_, ?_, ?_, ?_, ?_, ?_, ?_, ?_, ?_, ?_, ?_, ?_, ?_, ?_, ?_, ?_, nofun⟩
    all_goals intro o s th h hg hr
    · exact acts_rr3 h hg hr rfl (fun _ => rfl) (computes_add.atW2 ..)
    · exact acts_rr3 h hg hr rfl (fun _ => rfl) (computes_sub.atW2 ..)
    · exact acts_rr3 h hg hr rfl (fun _ => rfl) (computes_mul.atW2 ..)
    · exact acts_rr3 h hg hr rfl (fun _ => rfl) (computes_mulh.atW2 ..)
    · exact acts_rr3 h hg hr rfl (fun _ => rfl) (computes_mulhu.atW2 ..)
    · exact acts_rr3 h hg hr rfl (fun _ => rfl) (computes_and.atW2 ..)
    · exact acts_rr3 h hg hr rfl (fun _ => rfl) (computes_or.atW2 ..)
    · exact acts_rr3 h hg hr rfl (fun _ => rfl) (computes_xor.atW2 ..)
    · exact acts_rr3 h hg hr rfl (fun _ => rfl) (computes_andn.atW2 ..)
    · exact acts_rr3 h hg hr rfl (fun _ => rfl) (computes_orn.atW2 ..)
    · exact acts_rr3 h hg hr rfl (fun _ => rfl) (computes_shl.atW2 ..)
    · exact acts_rr3 h hg hr rfl (fun _ => rfl) (computes_shr.atW2 ..)
    · exact acts_rr3 h hg hr rfl (fun _ => rfl) (computes_sra.atW2 ..)
    · exact acts_rr3 h hg hr rfl (fun _ => rfl) (computes_rot.atW2 ..)
    · exact acts_rr3 h hg hr rfl (fun _ => rfl) (computes_min.atW2 ..)
    · exact acts_rr3 h hg hr rfl (fun _ => rfl) (computes_max.atW2 ..)
    · exact acts_rr3 h hg hr rfl (fun _ => rfl) (computes_minu.atW2 ..)
    · exact acts_rr3 h hg hr rfl (fun _ => rfl) (computes_maxu.atW2 ..)
    · exact acts_rr3 h hg hr rfl (fun _ => rfl) (computes_div.atW2 ..)
    · exact acts_rr3 h hg hr rfl (fun _ => rfl) (computes_divu.atW2 ..)
    · exact acts_rr3 h hg hr rfl (fun _ => rfl) (computes_rem.atW2 ..)
    · exact acts_rr3 h hg hr rfl (fun _ => rfl) (computes_remu.atW2 ..)
    · exact acts_rr3 h hg hr rfl (fun _ => rfl) ((computes_lea 1).atW2 ..)
    · exact acts_rr3 h hg hr rfl (fun _ => rfl) ((computes_lea 2).atW2 ..)
    · exact acts_rr3 h hg hr rfl (fun _ => rfl) ((computes_lea 3).atW2 ..)
    · exact acts_rr3 h hg hr rfl (fun _ => rfl) ((computes_lea 4).atW2 ..)
  · simp only [List.forall_mem_cons, List.not_mem_nil]
    refine ⟨?_, ?_, ?_, ?_, ?_, nofun⟩
    all_goals intro o s th h hg hr
    · exact acts_rr2 h hg hr rfl (fun _ => rfl) (computes_clz.atW1 ..)
    · exact acts_rr2 h hg hr rfl (fun _ => rfl) (computes_ctz.atW1 ..)
    · exact acts_rr2 h hg hr rfl (fun _ => rfl) (computes_popc.atW1 ..)
    · exact acts_rr2 h hg hr rfl (fun _ => rfl) (computes_brev.atW1 ..)
    · exact acts_rr2 h hg hr rfl (fun _ => rfl) (computes_bswap.atW1 ..)

theorem bitFieldFunctions : BitFields := by
  unfold BitFields bitFields
  simp only [List.forall_mem_cons, List.not_mem_nil]
  refine ⟨?_, ?_, ?_, nofun⟩
  all_goals intro o s th h hg hr
  · refine acts_rr3 h hg hr rfl (fun _ => rfl) ?_
    rw [fieldExt_eq, sextW_ofInt, fieldVal_eq, fieldLen_eq]
  · refine acts_rr3 h hg hr rfl (fun _ => rfl) ?_
    rw [sextW_ofNat, fieldVal_eq]
    split
    · rename_i h0
      rw [h0, pow_zero, Nat.mod_one]
      rfl
    · rfl
  · refine acts_rr3 h hg hr rfl (fun _ => rfl) ?_
    rw [sextW_eq, fieldIns_setWidth, ← written_eq, fieldLen_eq]

/-- Settles O6: each function's word is its number's image at the width (`Computes2`, `Computes1`), each field's by its bits. -/
theorem integerAndBitFieldFunctions : Obligations.IntegerAndBitFieldFunctions := ⟨integerFunctions, bitFieldFunctions⟩

end Sys2Proof
end

section
/-! `mov`, the compares and the predicate functions (O8). -/

namespace Sys2Proof.Machine
open Claims

/-! ## Moves (R125) -/

/-- The low `k` bits of a register. -/
theorem toNat_low (x : W64) (k : Nat) : (x.extractLsb' 0 k).toNat = x.toNat % 2 ^ k := by
  rw [BitVec.extractLsb'_toNat, Nat.shiftRight_zero]

theorem zeroExtend_low (x : W64) {k : Nat} (hk : k ≤ 64) :
    (x.extractLsb' 0 k).zeroExtend 64 = BitVec.ofInt 64 (x.toNat % 2 ^ k : Nat) := by
  apply BitVec.eq_of_toNat_eq
  rw [BitVec.ofInt_natCast, BitVec.toNat_ofNat, BitVec.toNat_setWidth_of_le hk, toNat_low,
    Nat.mod_eq_of_lt ((Nat.mod_lt _ (Nat.two_pow_pos k)).trans_le (Nat.pow_le_pow_right (by norm_num) hk))]

theorem signExtend_low (x : W64) (k : Nat) : (x.extractLsb' 0 k).signExtend 64 = BitVec.ofInt 64 (sgn k (x.toNat % 2 ^ k)) := by
  rw [← toNat_low, sgn_toNat]
  rfl

/-- The predicate word as `movp` reads it: 16 bits, `p0` set (R16). -/
theorem movp_bits (th : Thread) : ((th.c.pred ||| 1).zeroExtend 64).toNat < 2 ^ 16 ∧
    ∀ k : BitVec 4, ((th.c.pred ||| 1).zeroExtend 64).getLsbD k.toNat = th.p k := by
  refine ⟨?_, fun k => ?_⟩
  · rw [BitVec.toNat_setWidth_of_le (by decide)]
    exact BitVec.isLt _
  · have hk : k.toNat < 64 := k.isLt.trans (by decide)
    by_cases hz : k = 0
    · simp [Thread.p, hz]
    · have hz' : ¬ k.toNat = 0 := fun h => hz (BitVec.eq_of_toNat_eq h)
      have hb : (k == 0) = false := beq_false_of_ne hz
      simp only [Thread.p, hb, Bool.false_or]
      simp [hz', hk]

/-- The predicate word that `setp` writes: bit 0 is ignored. -/
theorem setp_bits (x : W64) (k : BitVec 4) (hk : k ≠ 0) : (x.extractLsb' 0 16 ||| 1).getLsbD k.toNat = x.getLsbD k.toNat := by
  have hk16 : k.toNat < 16 := k.isLt
  have hk0 : k.toNat ≠ 0 := fun h => hk (BitVec.eq_of_toNat_eq h)
  simp [hk0, hk16]

/-! ## Conditions (R128, R129) -/

/-- `f` is the condition `C` of numbers. -/
def Decides (f : (n : Nat) → BitVec n → BitVec n → Bool) (C : Nat → Nat → Int → Int → Bool) : Prop :=
  ∀ (n : Nat) (a b : BitVec n), f n a b = C a.toNat b.toNat a.toInt b.toInt

theorem Decides.condW {f : (n : Nat) → BitVec n → BitVec n → Bool} {C : Nat → Nat → Int → Int → Bool} (h : Decides f C)
    (w : BitVec 1) (a b : W64) : Machine.condW w f a b = C (uns (width w) a) (uns (width w) b)
      (sgn (width w) (uns (width w) a)) (sgn (width w) (uns (width w) b)) := by
  simp only [uns_eq, sgn_toNat, condW_eq, h (width w)]

theorem decides_eq : Decides (fun _ a b => a == b) (fun a b _ _ => decide (a = b)) := fun n a b => by
  simp [BitVec.toNat_inj, Bool.beq_eq_decide_eq]

theorem decides_ne : Decides (fun _ a b => a != b) (fun a b _ _ => decide (a ≠ b)) := fun n a b => by
  simp [BitVec.toNat_inj, bne, Bool.beq_eq_decide_eq]

theorem decides_lt : Decides (fun _ a b => a.slt b) (fun _ _ sa sb => decide (sa < sb)) := fun _ _ _ => rfl
theorem decides_ltu : Decides (fun _ a b => a.ult b) (fun a b _ _ => decide (a < b)) := fun _ _ _ => rfl
theorem decides_le : Decides (fun _ a b => a.sle b) (fun _ _ sa sb => decide (sa ≤ sb)) := fun _ _ _ => rfl
theorem decides_leu : Decides (fun _ a b => a.ule b) (fun a b _ _ => decide (a ≤ b)) := fun _ _ _ => rfl
theorem decides_gt : Decides (fun _ a b => b.slt a) (fun _ _ sa sb => decide (sa > sb)) := fun _ _ _ => rfl
theorem decides_gtu : Decides (fun _ a b => b.ult a) (fun a b _ _ => decide (a > b)) := fun _ _ _ => rfl
theorem decides_ge : Decides (fun _ a b => b.sle a) (fun _ _ sa sb => decide (sa ≥ sb)) := fun _ _ _ => rfl
theorem decides_geu : Decides (fun _ a b => b.ule a) (fun a b _ _ => decide (a ≥ b)) := fun _ _ _ => rfl

theorem decides_tst : Decides (fun _ a b => a &&& b != 0) (fun a b _ _ => decide (a &&& b ≠ 0)) := fun n a b => by
  dsimp only
  rw [← BitVec.toNat_and, Bool.eq_iff_iff, bne_iff_ne, decide_eq_true_iff, ne_eq, ne_eq, toNat_eq_zero_iff]

/-- The unsigned view of an RI word's immediate. -/
theorem immediate_emod (th : Thread) (imm : BitVec 15) : immediate th.c.hint imm % 2 ^ 64 = ((th.immRI imm).toNat : Int) := by
  rw [← toInt_immRI, ← toNat_toInt_emod, Int.toNat_of_nonneg (Int.emod_nonneg _ (by norm_num))]

/-! ## The words -/

theorem precheck_rr3P {th : Thread} {o : Rr3} {w : W32} {pend : BitVec 5 → Bool} (hg : th.guardOk o.pg o.pn = true)
    (hr : th.Ready [o.sa, o.sb] []) : th.precheck (qRr3P o) w pend = .go := precheck_go_guard hg hr

/-- A compare that writes the condition `c`. -/
theorem acts_cmp {i : Instr} {o : Rr3} {s : State} {th : Thread} {f : (n : Nat) → BitVec n → BitVec n → Bool} (h : s.Alone th)
    (hg : th.guardOk o.pg o.pn = true) (hr : th.Ready [o.sa, o.sb] []) (hi : exec i s = cmpBody o f s) {c : Bool}
    (hc : condW o.w f (th.src o.sa) (th.src o.sb) = c) : Acts i s th (th.retire.setP o.sd c) :=
  hc ▸ acts_writesP (f := fun u => condW o.w f (u.src o.sa) (u.src o.sb)) h hi (precheck_rr3P hg hr) rfl fun _ => rfl

/-- A compare with an immediate. -/
theorem acts_cmpi {i : Instr} {o : Ri} {s : State} {th : Thread} {f : Thread → Bool} (h : s.Alone th)
    (hr : th.Ready [o.sa] []) (hi : exec i s = issue (qRiP o) s (writesP o.sd f)) (hf : ∀ ch, f { th with chunk := ch } = f th)
    {c : Bool} (hc : f th = c) : Acts i s th (th.retire.setP o.sd c) :=
  hc ▸ acts_writesP h hi (precheck_go_plain hr) rfl hf

/-- A function of predicates, which names no register. -/
theorem acts_pred {i : Instr} {pg : BitVec 4} {pn : BitVec 1} {d : BitVec 4} {s : State} {th : Thread} {f : Thread → Bool}
    (h : s.Alone th) (hg : th.guardOk pg pn = true) (hi : exec i s = issue { guard := some (pg, pn) } s (writesP d f))
    (hf : ∀ ch, f { th with chunk := ch } = f th) {c : Bool} (hc : f th = c) : Acts i s th (th.retire.setP d c) :=
  hc ▸ acts_writesP h hi (precheck_go_guard hg ⟨nofun, nofun⟩) rfl hf

end Sys2Proof.Machine

namespace Sys2Proof
open Claims Machine

theorem moves : Moves := by
  unfold Moves plainMoves
  refine ⟨?_, fun o s th h hg hr => ?_, fun o s th h hg hr => ?_⟩
  · simp only [List.forall_mem_cons, List.not_mem_nil]
    refine ⟨?_, ?_, ?_, ?_, ?_, ?_, ?_, nofun⟩
    all_goals intro o s th h hg hr
    · exact acts_rr2 h hg hr rfl (fun _ => rfl) (ofInt_toNat _).symm
    · exact acts_rr2 h hg hr rfl (fun _ => rfl) (zeroExtend_low _ (by decide))
    · exact acts_rr2 h hg hr rfl (fun _ => rfl) (zeroExtend_low _ (by decide))
    · exact acts_rr2 h hg hr rfl (fun _ => rfl) (zeroExtend_low _ (by decide))
    · exact acts_rr2 h hg hr rfl (fun _ => rfl) (signExtend_low _ _)
    · exact acts_rr2 h hg hr rfl (fun _ => rfl) (signExtend_low _ _)
    · exact acts_rr2 h hg hr rfl (fun _ => rfl) (signExtend_low _ _)
  · obtain ⟨hlt, hbits⟩ := movp_bits th
    exact ⟨_, acts_writesX h rfl (precheck_go_guard hg hr) rfl fun _ => rfl, hlt, hbits⟩
  · exact ⟨_, issue_acts (f := fun u => u.retire.modC fun c => { c with pred := (u.src o.sa).extractLsb' 0 16 ||| 1 }) h rfl
      (precheck_go_guard hg hr) rfl rfl fun _ => rfl, setp_bits _⟩

theorem predicateFunctions : Predicates := by
  unfold Predicates compares immediateCompares predicates2 predicates1
  simp only [List.forall_mem_cons, List.not_mem_nil]
  refine ⟨⟨?_, ?_, ?_, ?_, ?_, ?_, ?_, ?_, ?_, ?_, ?_, nofun⟩, ⟨?_, ?_, ?_, nofun⟩, ⟨?_, ?_, ?_, ?_, nofun⟩, ?_, ?_, nofun⟩
  · exact fun o s th h hg hr => acts_cmp h hg hr rfl (decides_eq.condW ..)
  · exact fun o s th h hg hr => acts_cmp h hg hr rfl (decides_ne.condW ..)
  · exact fun o s th h hg hr => acts_cmp h hg hr rfl (decides_lt.condW ..)
  · exact fun o s th h hg hr => acts_cmp h hg hr rfl (decides_ltu.condW ..)
  · exact fun o s th h hg hr => acts_cmp h hg hr rfl (decides_le.condW ..)
  · exact fun o s th h hg hr => acts_cmp h hg hr rfl (decides_leu.condW ..)
  · exact fun o s th h hg hr => acts_cmp h hg hr rfl (decides_gt.condW ..)
  · exact fun o s th h hg hr => acts_cmp h hg hr rfl (decides_gtu.condW ..)
  · exact fun o s th h hg hr => acts_cmp h hg hr rfl (decides_ge.condW ..)
  · exact fun o s th h hg hr => acts_cmp h hg hr rfl (decides_geu.condW ..)
  · exact fun o s th h hg hr => acts_cmp h hg hr rfl (decides_tst.condW ..)
  · intro o s th h hr
    refine acts_cmpi h hr rfl (fun _ => rfl) ?_
    rw [immediate_emod, Bool.beq_eq_decide_eq]
    norm_cast
    simp only [BitVec.toNat_inj]
  · intro o s th h hr
    refine acts_cmpi h hr rfl (fun _ => rfl) ?_
    rw [← toInt_immRI, sgn_toNat]
    rfl
  · intro o s th h hr
    refine acts_cmpi h hr rfl (fun _ => rfl) ?_
    rw [immediate_emod]
    norm_cast
  · exact fun o s th h hg => acts_pred h hg rfl (fun _ => rfl) rfl
  · exact fun o s th h hg => acts_pred h hg rfl (fun _ => rfl) rfl
  · exact fun o s th h hg => acts_pred h hg rfl (fun _ => rfl) rfl
  · exact fun o s th h hg => acts_pred h hg rfl (fun _ => rfl) rfl
  · exact fun o s th h hg => acts_pred h hg rfl (fun _ => rfl) rfl
  · exact fun o s th h hg => acts_pred h hg rfl (fun _ => rfl) rfl

/-- Settles O8: moves by the bits that they keep, conditions by numbers (`Decides`), immediates by R52 (`toInt_immRI`). -/
theorem movesAndPredicates : Obligations.MovesAndPredicates := ⟨moves, predicateFunctions⟩

end Sys2Proof
end

section
/-! Signs, classes and the order of encodings (R132-R134, R137). -/

namespace Sys2Proof.Machine
open Claims

/-! ## Bit operations on the sign (R132) -/

theorem testBit_withSign {eb mb m : Nat} (neg : Bool) (h : m < 2 ^ (eb + mb)) (i : Nat) :
    (withSign eb mb neg m).testBit i = if i = eb + mb then neg else m.testBit i := by
  have hm : m.testBit (eb + mb) = false := Nat.testBit_lt_two_pow h
  cases neg
  · rw [withSign, if_neg (by simp)]
    split
    · rw [‹i = eb + mb›, hm]
    · rfl
  · rw [withSign, if_pos rfl, add_comm, ← mul_one (2 ^ (eb + mb)), Nat.two_pow_add_eq_or_of_lt h 1, mul_one, Nat.testBit_or,
      Nat.testBit_two_pow]
    split
    · simp [‹i = eb + mb›]
    · simp [Ne.symm ‹i ≠ eb + mb›]

theorem width_wFmt_le (w : BitVec 1) : (wFmt w).ebits + (wFmt w).mbits < 64 := by revert w; decide

theorem operand_lt (w : BitVec 1) (x : W64) : Claims.operand w x < 2 ^ (1 + ((wFmt w).ebits + (wFmt w).mbits)) := by
  rw [operand_eq, Fmt.width, ← add_assoc]
  exact Nat.mod_lt _ (by positivity)

theorem cutW_eq (w : BitVec 1) (x : W64) : cutW w x = BitVec.ofNat 64 (Claims.operand w x) := by
  rw [operand_eq]
  revert w
  refine width_cases ?_ ?_
  · apply BitVec.eq_of_toNat_eq
    change ((x.extractLsb' 0 32).zeroExtend 64).toNat = x.toNat % 2 ^ 32 % 2 ^ 64
    rw [BitVec.toNat_setWidth, toNat_low]
  · apply BitVec.eq_of_toNat_eq
    change x.toNat = x.toNat % 2 ^ 64 % 2 ^ 64
    omega

theorem signOf_getLsbD (w : BitVec 1) {i : Nat} (hi : i < 64) :
    (signOf w).getLsbD i = decide ((wFmt w).ebits + (wFmt w).mbits = i) := by
  rw [signOf, BitVec.getLsbD_ofNat, signBit_eq, Nat.testBit_two_pow, decide_eq_true hi, Bool.true_and]

theorem cutW_getLsbD (w : BitVec 1) (x : W64) {i : Nat} (hi : i < 64) : (cutW w x).getLsbD i = (Claims.operand w x).testBit i := by
  rw [cutW_eq, BitVec.getLsbD_ofNat, decide_eq_true hi, Bool.true_and]

/-- Above the sign an operand has no bits. -/
theorem operand_testBit_high (w : BitVec 1) (x : W64) {i : Nat} (hi : (wFmt w).ebits + (wFmt w).mbits < i) :
    (Claims.operand w x).testBit i = false :=
  Nat.testBit_lt_two_pow ((operand_lt w x).trans_le (Nat.pow_le_pow_right (by norm_num) (by omega)))

theorem operand_mag_lt (w : BitVec 1) (b : Nat) : b % 2 ^ ((wFmt w).ebits + (wFmt w).mbits) < 2 ^ ((wFmt w).ebits + (wFmt w).mbits) :=
  Nat.mod_lt _ (by positivity)

/-- The sign of one operand on the magnitude of another: `fsgnj`. -/
theorem fsgnj_bits (w : BitVec 1) (x y : W64) : (cutW w x &&& ~~~(signOf w)) ||| (cutW w y &&& signOf w) =
    BitVec.ofNat 64 (withSign (wFmt w).ebits (wFmt w).mbits (signAt (wFmt w).ebits (wFmt w).mbits (Claims.operand w y))
      (Claims.operand w x % 2 ^ ((wFmt w).ebits + (wFmt w).mbits))) := by
  apply BitVec.eq_of_getLsbD_eq
  intro i hi
  rw [BitVec.getLsbD_ofNat, testBit_withSign _ (operand_mag_lt w _), Nat.testBit_mod_two_pow]
  simp only [BitVec.getLsbD_or, BitVec.getLsbD_and, BitVec.getLsbD_not, signOf_getLsbD w hi, cutW_getLsbD w _ hi, hi, decide_true,
    Bool.true_and, signAt]
  rcases lt_trichotomy i ((wFmt w).ebits + (wFmt w).mbits) with h | h | h
  · simp [h, h.ne, h.ne']
  · simp [h]
  · simp [h.ne, h.ne', h.not_gt, operand_testBit_high w _ h]

theorem fabs_bits (w : BitVec 1) (x : W64) : cutW w x &&& ~~~(signOf w) =
    BitVec.ofNat 64 (Claims.operand w x % 2 ^ ((wFmt w).ebits + (wFmt w).mbits)) := by
  apply BitVec.eq_of_getLsbD_eq
  intro i hi
  rw [BitVec.getLsbD_ofNat, Nat.testBit_mod_two_pow]
  simp only [BitVec.getLsbD_and, BitVec.getLsbD_not, signOf_getLsbD w hi, cutW_getLsbD w _ hi, hi, decide_true, Bool.true_and]
  rcases lt_trichotomy i ((wFmt w).ebits + (wFmt w).mbits) with h | h | h
  · simp [h, h.ne']
  · simp [h]
  · simp [h.ne, h.not_gt, operand_testBit_high w _ h]

theorem fneg_bits (w : BitVec 1) (x : W64) : cutW w x ^^^ signOf w =
    BitVec.ofNat 64 (withSign (wFmt w).ebits (wFmt w).mbits (!signAt (wFmt w).ebits (wFmt w).mbits (Claims.operand w x))
      (Claims.operand w x % 2 ^ ((wFmt w).ebits + (wFmt w).mbits))) := by
  apply BitVec.eq_of_getLsbD_eq
  intro i hi
  rw [BitVec.getLsbD_ofNat, testBit_withSign _ (operand_mag_lt w _), Nat.testBit_mod_two_pow]
  simp only [BitVec.getLsbD_xor, signOf_getLsbD w hi, cutW_getLsbD w _ hi, hi, decide_true, Bool.true_and, signAt]
  rcases lt_trichotomy i ((wFmt w).ebits + (wFmt w).mbits) with h | h | h
  · simp [h, h.ne, h.ne']
  · simp [h]
  · simp [h.ne, h.ne', h.not_gt, operand_testBit_high w _ h]

/-! ## Classes (R134) -/

variable {f : Fmt}

/-- Every encoding is a number, an infinity or a NaN. -/
theorem class_cases (eb mb b : Nat) : isFinite eb mb b ∨ isInf eb mb b ∨ isNaN eb mb b := by
  unfold isFinite isInf isNaN
  by_cases h1 : b / 2 ^ mb % 2 ^ eb = emax eb <;> by_cases h2 : b % 2 ^ mb = 0 <;> simp [h1, h2]

theorem not_isNaN_iff (eb mb b : Nat) : ¬ isNaN eb mb b ↔ isFinite eb mb b ∨ isInf eb mb b := by
  unfold isFinite isInf isNaN
  by_cases h1 : b / 2 ^ mb % 2 ^ eb = emax eb <;> simp [h1]

theorem not_isInf_of_isFinite {eb mb b : Nat} (h : isFinite eb mb b) : ¬ isInf eb mb b := fun hi => h hi.1

theorem not_isNaN_of_isFinite {eb mb b : Nat} (h : isFinite eb mb b) : ¬ isNaN eb mb b := fun hi => h hi.1

theorem not_isNaN_of_isInf {eb mb b : Nat} (h : isInf eb mb b) : ¬ isNaN eb mb b := fun hn => hn.2 h.2

theorem isSignalling_iff {eb mb b : Nat} (h : isNaN eb mb b) : isSignalling eb mb b ↔ (!b.testBit (mb - 1)) = true := by
  simp [isSignalling, h]

/-- The class of an encoding: the exponent of its mask. -/
def classOf (eb mb b : Nat) : Nat :=
  if b / 2 ^ mb % 2 ^ eb = emax eb then
    (if b % 2 ^ mb = 0 then (if signAt eb mb b then 0 else 7) else if b.testBit (mb - 1) then 9 else 8)
  else if b % 2 ^ (eb + mb) = 0 then (if signAt eb mb b then 3 else 4)
  else if b % 2 ^ (eb + mb) < 2 ^ mb then (if signAt eb mb b then 2 else 5) else (if signAt eb mb b then 1 else 6)

theorem mag_lt_iff (eb mb b : Nat) : b % 2 ^ (eb + mb) < 2 ^ mb ↔ b / 2 ^ mb % 2 ^ eb = 0 := by
  rw [← mod_pow_add_div, Nat.div_eq_zero_iff_lt (by positivity)]

theorem Fmt.Ieee.classMask (h : f.Ieee) (b : Nat) : f.classMask b = 2 ^ classOf f.ebits f.mbits b := by
  have hlt : b % 2 ^ f.mbits < 2 ^ f.mbits := Nat.mod_lt _ (by positivity)
  have hz := isZero_iff f.ebits f.mbits b
  unfold isZero at hz
  unfold Fmt.classMask classOf
  rw [h.unpack]
  by_cases hx : b / 2 ^ f.mbits % 2 ^ f.ebits = emax f.ebits
  · rw [if_pos hx, if_pos hx]
    by_cases hm : b % 2 ^ f.mbits = 0
    · rw [if_pos hm, if_pos hm]
      cases signAt f.ebits f.mbits b <;> rfl
    · rw [if_neg hm, if_neg hm]
      cases b.testBit (f.mbits - 1) <;> rfl
  · rw [if_neg hx, if_neg hx]
    by_cases h0 : b / 2 ^ f.mbits % 2 ^ f.ebits = 0
    · simp only [h0, if_true, hz, true_and, (mag_lt_iff _ _ _).mpr h0, hlt, decide_true]
      split <;> cases signAt f.ebits f.mbits b <;> rfl
    · simp only [h0, if_false, hz, false_and, mag_lt_iff, decide_false, show ¬ (b % 2 ^ f.mbits + 2 ^ f.mbits = 0) by omega,
        show ¬ (b % 2 ^ f.mbits + 2 ^ f.mbits < 2 ^ f.mbits) by omega]
      cases signAt f.ebits f.mbits b <;> rfl

/-! ## The order of encodings (R133, R137) -/

/-- An encoding's value in units of the subnormals' last place, infinity one step above the numbers. -/
def signedUnits (eb mb b : Nat) : Int := sgInt (signAt eb mb b) (magUnits mb (b % 2 ^ (eb + mb)))

theorem value_eq_signedUnits (eb mb b : Nat) : value eb mb b = signedUnits eb mb b * (2 : ℝ) ^ qminOf eb mb := by
  rw [value_eq_units, signedUnits, sgInt_cast]

theorem mag_eq (eb mb b : Nat) : b % 2 ^ (eb + mb) = b / 2 ^ mb % 2 ^ eb * 2 ^ mb + b % 2 ^ mb := by
  rw [← mod_pow_add_div, ← mod_pow_add_mod eb mb b, mul_comm]
  exact (Nat.div_add_mod _ _).symm

theorem mag_of_isInf {eb mb b : Nat} (h : isInf eb mb b) : b % 2 ^ (eb + mb) = infinity eb mb := by
  rw [mag_eq, h.1, h.2, add_zero, infinity]

theorem mag_of_isFinite {eb mb b : Nat} (h : isFinite eb mb b) : b % 2 ^ (eb + mb) < infinity eb mb := by
  have h1 : b / 2 ^ mb % 2 ^ eb < 2 ^ eb := Nat.mod_lt _ (by positivity)
  have h2 : b % 2 ^ mb < 2 ^ mb := Nat.mod_lt _ (by positivity)
  unfold isFinite emax at h
  rw [mag_eq, infinity, emax]
  calc _ < b / 2 ^ mb % 2 ^ eb * 2 ^ mb + 2 ^ mb := by omega
    _ = (b / 2 ^ mb % 2 ^ eb + 1) * 2 ^ mb := by ring
    _ ≤ (2 ^ eb - 1) * 2 ^ mb := Nat.mul_le_mul_right _ (by omega)

/-- A comparison's result has the sign of a difference. -/
structure Compares (k a b : Int) : Prop where
  lt : k < 0 ↔ a < b
  eq : k = 0 ↔ a = b

theorem Compares.le {k a b : Int} (h : Compares k a b) : k ≤ 0 ↔ a ≤ b := by
  rw [le_iff_lt_or_eq, le_iff_lt_or_eq, h.lt, h.eq]

theorem infinity_pos (h : f.Ieee) : 0 < infinity f.ebits f.mbits := by
  unfold infinity emax
  have : 2 ^ 2 ≤ 2 ^ f.ebits := Nat.pow_le_pow_right (by norm_num) h.ebits
  exact Nat.mul_pos (by omega) (by positivity)

/-- The units of a number lie strictly between those of the infinities. -/
theorem abs_signedUnits_lt {b : Nat} (hb : isFinite f.ebits f.mbits b) :
    -(magUnits f.mbits (infinity f.ebits f.mbits) : Int) < signedUnits f.ebits f.mbits b ∧
      signedUnits f.ebits f.mbits b < magUnits f.mbits (infinity f.ebits f.mbits) := by
  have := magUnits_strictMono f.mbits (mag_of_isFinite hb)
  unfold signedUnits sgInt
  split <;> omega

theorem signedUnits_of_isInf {b : Nat} (hb : isInf f.ebits f.mbits b) :
    signedUnits f.ebits f.mbits b = sgInt (signAt f.ebits f.mbits b) (magUnits f.mbits (infinity f.ebits f.mbits)) := by
  rw [signedUnits, mag_of_isInf hb]

/-- `cmp` compares encodings by their units. -/
theorem Fmt.Ieee.cmp (h : f.Ieee) {a b : Nat} (ha : ¬ isNaN f.ebits f.mbits a) (hb : ¬ isNaN f.ebits f.mbits b) :
    Compares ((f.unpack a).cmp (f.unpack b)) (signedUnits f.ebits f.mbits a) (signedUnits f.ebits f.mbits b) := by
  have hU : 0 < magUnits f.mbits (infinity f.ebits f.mbits) := by
    simpa using magUnits_strictMono f.mbits (infinity_pos h)
  rcases (not_isNaN_iff _ _ _).mp ha with ha | ha <;> rcases (not_isNaN_iff _ _ _).mp hb with hb | hb
  · obtain ⟨m1, e1, ra⟩ := h.reads ha
    obtain ⟨m2, e2, rb⟩ := h.reads hb
    have hd := dyAdd_exact (signAt f.ebits f.mbits a) m1 e1 (!signAt f.ebits f.mbits b) m2 e2
    rw [sg_not, neg_mul, ← sub_eq_add_neg, ← ra.value, ← rb.value, value_eq_signedUnits, value_eq_signedUnits] at hd
    have hp : (0 : ℝ) < (2 : ℝ) ^ (dyAdd (signAt f.ebits f.mbits a) m1 e1 (!signAt f.ebits f.mbits b) m2 e2).2 := by positivity
    have hq : (0 : ℝ) < (2 : ℝ) ^ qminOf f.ebits f.mbits := by positivity
    rw [ra.unpack, rb.unpack, FVal.cmp]
    rw [← sub_mul] at hd
    constructor
    · rw [← Int.cast_lt_zero (R := ℝ), ← mul_lt_mul_iff_left₀ hp, hd, zero_mul, ← zero_mul ((2 : ℝ) ^ qminOf f.ebits f.mbits),
        mul_lt_mul_iff_left₀ hq, sub_neg, Int.cast_lt]
    · rw [← Int.cast_eq_zero (α := ℝ), ← mul_left_inj' hp.ne', hd, zero_mul, ← zero_mul ((2 : ℝ) ^ qminOf f.ebits f.mbits),
        mul_left_inj' hq.ne', sub_eq_zero, Int.cast_inj]
  · obtain ⟨m1, e1, ra⟩ := h.reads ha
    have := abs_signedUnits_lt ha
    rw [ra.unpack, h.unpack_inf hb, signedUnits_of_isInf hb]
    change Compares (if signAt f.ebits f.mbits b then 1 else -1) _ _
    cases signAt f.ebits f.mbits b <;> simp only [sgInt] <;> constructor <;> simp <;> omega
  · obtain ⟨m2, e2, rb⟩ := h.reads hb
    have := abs_signedUnits_lt hb
    rw [rb.unpack, h.unpack_inf ha, signedUnits_of_isInf ha]
    change Compares (if signAt f.ebits f.mbits a then -1 else 1) _ _
    cases signAt f.ebits f.mbits a <;> simp only [sgInt] <;> constructor <;> simp <;> omega
  · rw [h.unpack_inf ha, h.unpack_inf hb, signedUnits_of_isInf ha, signedUnits_of_isInf hb, FVal.cmp]
    cases signAt f.ebits f.mbits a <;> cases signAt f.ebits f.mbits b <;> simp only [sgInt] <;> constructor <;> simp <;> omega

end Sys2Proof.Machine
end

section
/-! `fabs`, `fneg`, `fsgnj`, `fmin`, `fmax`, `fclass` (O12). -/

namespace Sys2Proof.Machine
open Claims

variable {f : Fmt} {a b : Nat}

/-! ## Minimum and maximum (R133) -/

/-- The order of fmin and fmax: negative encodings below, the larger magnitude the lower. -/
def orderKey (eb mb b : Nat) : Int :=
  if signAt eb mb b then -((b % 2 ^ (eb + mb) : Nat) : Int) - 1 else ((b % 2 ^ (eb + mb) : Nat) : Int)

theorem Fmt.Ieee.neg?_unpack (h : f.Ieee) (hb : ¬ isNaN f.ebits f.mbits b) : (f.unpack b).neg? = signAt f.ebits f.mbits b := by
  rcases (not_isNaN_iff _ _ _).mp hb with hb | hb
  · obtain ⟨m, e, r⟩ := h.reads hb
    rw [r.unpack, FVal.neg?]
  · rw [h.unpack_inf hb, FVal.neg?]

theorem Fmt.Ieee.isZero_unpack (h : f.Ieee) (b : Nat) : (f.unpack b).isZero = true ↔ isZero f.ebits f.mbits b := by
  rcases class_cases f.ebits f.mbits b with hb | hb | hb
  · obtain ⟨m, e, r⟩ := h.reads hb
    rw [r.unpack, ← r.zero, FVal.isZero, beq_iff_eq]
  · rw [h.unpack_inf hb, isZero, mag_of_isInf hb]
    exact iff_of_false nofun (infinity_pos h).ne'
  · rw [h.unpack_nan hb, isZero_iff]
    exact iff_of_false nofun fun hz => hb.2 hz.2

theorem Fmt.Ieee.isNan_unpack (h : f.Ieee) (b : Nat) : (f.unpack b).isNan = true ↔ isNaN f.ebits f.mbits b := by
  rcases class_cases f.ebits f.mbits b with hb | hb | hb
  · obtain ⟨m, e, r⟩ := h.reads hb
    rw [r.unpack]
    exact iff_of_false nofun (not_isNaN_of_isFinite hb)
  · rw [h.unpack_inf hb]
    exact iff_of_false nofun (not_isNaN_of_isInf hb)
  · rw [h.unpack_nan hb]
    exact iff_of_true rfl hb

theorem Fmt.Ieee.isSnan_unpack (h : f.Ieee) (b : Nat) : (f.unpack b).isSnan = true ↔ isSignalling f.ebits f.mbits b := by
  rcases class_cases f.ebits f.mbits b with hb | hb | hb
  · obtain ⟨m, e, r⟩ := h.reads hb
    rw [r.unpack]
    exact iff_of_false nofun fun hs => not_isNaN_of_isFinite hb hs.1
  · rw [h.unpack_inf hb]
    exact iff_of_false nofun fun hs => not_isNaN_of_isInf hb hs.1
  · rw [h.unpack_nan hb, isSignalling_iff hb, FVal.isSnan]

theorem signedUnits_lt_iff (eb mb a b : Nat) : signedUnits eb mb a < signedUnits eb mb b ∨
    (a % 2 ^ (eb + mb) = 0 ∧ b % 2 ^ (eb + mb) = 0 ∧ signAt eb mb a = true ∧ signAt eb mb b = false) ↔
      orderKey eb mb a < orderKey eb mb b := by
  have hmono := magUnits_strictMono mb
  have h1 := hmono.lt_iff_lt (a := a % 2 ^ (eb + mb)) (b := b % 2 ^ (eb + mb))
  have h2 := hmono.lt_iff_lt (a := b % 2 ^ (eb + mb)) (b := a % 2 ^ (eb + mb))
  have h3 := hmono.lt_iff_lt (a := 0) (b := a % 2 ^ (eb + mb))
  have h4 := hmono.lt_iff_lt (a := 0) (b := b % 2 ^ (eb + mb))
  rw [magUnits_zero] at h3 h4
  unfold signedUnits orderKey sgInt
  cases signAt eb mb a <;> cases signAt eb mb b
  all_goals simp only [if_true, if_false, Bool.false_eq_true, reduceCtorEq, and_false, or_false, and_true]
  all_goals omega

theorem Fmt.Ieee.below_iff (h : f.Ieee) (ha : ¬ isNaN f.ebits f.mbits a) (hb : ¬ isNaN f.ebits f.mbits b) :
    (f.unpack a).below (f.unpack b) = true ↔ orderKey f.ebits f.mbits a < orderKey f.ebits f.mbits b := by
  rw [← signedUnits_lt_iff, ← (h.cmp ha hb).lt]
  simp only [FVal.below, Bool.or_eq_true, Bool.and_eq_true, decide_eq_true_eq, Bool.not_eq_true', h.isZero_unpack, h.neg?_unpack ha,
    h.neg?_unpack hb, and_assoc]
  rfl

theorem encoding_eq {eb mb a : Nat} (h : a < 2 ^ (1 + (eb + mb))) : a = withSign eb mb (signAt eb mb a) (a % 2 ^ (eb + mb)) := by
  rw [pow_add, pow_one] at h
  have hd := Nat.div_add_mod a (2 ^ (eb + mb))
  have h2 : a / 2 ^ (eb + mb) < 2 := Nat.div_lt_of_lt_mul (by rwa [mul_comm])
  rw [signAt_eq, withSign]
  interval_cases hq : a / 2 ^ (eb + mb) <;> simp <;> omega

/-- Encodings with one key are one. -/
theorem orderKey_inj {eb mb a b : Nat} (ha : a < 2 ^ (1 + (eb + mb))) (hb : b < 2 ^ (1 + (eb + mb)))
    (h : orderKey eb mb a = orderKey eb mb b) : a = b := by
  rw [encoding_eq ha, encoding_eq hb]
  unfold orderKey at h
  cases ha : signAt eb mb a <;> cases hb : signAt eb mb b
  all_goals simp only [ha, hb, if_true, if_false, Bool.false_eq_true] at h
  · rw [show a % 2 ^ (eb + mb) = b % 2 ^ (eb + mb) by omega]
  · omega
  · omega
  · rw [show a % 2 ^ (eb + mb) = b % 2 ^ (eb + mb) by omega]

/-- The flags of fmin and fmax: NV for a signalling NaN. -/
theorem Fmt.minmax_fl (f : Fmt) (m : Bool) (a b : Nat) :
    (f.minmax m a b).fl = if (f.unpack a).isSnan || (f.unpack b).isSnan then fNV else 0 := by
  unfold Fmt.minmax
  dsimp only
  split_ifs <;> rfl

theorem Fmt.Ieee.isNan_false (h : f.Ieee) (hb : ¬ isNaN f.ebits f.mbits b) : (f.unpack b).isNan = false :=
  Bool.eq_false_of_not_eq_true (mt (h.isNan_unpack b).mp hb)

/-- What fmin and fmax give of NaNs: a NaN only of two, else the number. -/
theorem Fmt.Ieee.minmax_nan (h : f.Ieee) (m : Bool) (a b : Nat) :
    (isNaN f.ebits f.mbits a → isNaN f.ebits f.mbits b → (f.minmax m a b).v = canonicalNaN f.ebits f.mbits) ∧
    (isNaN f.ebits f.mbits a → ¬ isNaN f.ebits f.mbits b → (f.minmax m a b).v = b) ∧
    (¬ isNaN f.ebits f.mbits a → isNaN f.ebits f.mbits b → (f.minmax m a b).v = a) := by
  unfold Fmt.minmax
  dsimp only
  refine ⟨fun ha hb => ?_, fun ha hb => ?_, fun ha hb => ?_⟩
  · simp [(h.isNan_unpack a).mpr ha, (h.isNan_unpack b).mpr hb, h.nanBits]
  · simp [(h.isNan_unpack a).mpr ha, h.isNan_false hb]
  · simp [h.isNan_false ha, (h.isNan_unpack b).mpr hb]

theorem Fmt.Ieee.minmax_numbers (h : f.Ieee) (ha : ¬ isNaN f.ebits f.mbits a) (hb : ¬ isNaN f.ebits f.mbits b) :
    (f.minmax false a b).v = (if orderKey f.ebits f.mbits a < orderKey f.ebits f.mbits b then a else b) ∧
    (f.minmax true a b).v = (if orderKey f.ebits f.mbits b < orderKey f.ebits f.mbits a then a else b) := by
  simp [Fmt.minmax, h.isNan_false ha, h.isNan_false hb, h.below_iff ha hb, h.below_iff hb ha]

/-- Of two numbers fmin gives the lower encoding and fmax the higher. -/
theorem Fmt.Ieee.minmax_ordered (h : f.Ieee) (hal : a < 2 ^ (1 + (f.ebits + f.mbits))) (hbl : b < 2 ^ (1 + (f.ebits + f.mbits)))
    (ha : ¬ isNaN f.ebits f.mbits a) (hb : ¬ isNaN f.ebits f.mbits b) :
    if orderKey f.ebits f.mbits a ≤ orderKey f.ebits f.mbits b then (f.minmax false a b).v = a ∧ (f.minmax true a b).v = b
      else (f.minmax false a b).v = b ∧ (f.minmax true a b).v = a := by
  obtain ⟨hlo, hhi⟩ := h.minmax_numbers ha hb
  rw [hlo, hhi]
  rcases lt_trichotomy (orderKey f.ebits f.mbits a) (orderKey f.ebits f.mbits b) with hk | hk | hk
  · rw [if_pos hk.le, if_pos hk, if_neg hk.not_gt]
    exact ⟨rfl, rfl⟩
  · rw [if_pos hk.le, if_neg hk.not_lt, if_neg hk.not_gt]
    exact ⟨(orderKey_inj hal hbl hk).symm, rfl⟩
  · rw [if_neg hk.not_ge, if_neg hk.not_gt, if_pos hk]
    exact ⟨rfl, rfl⟩

theorem signalling_or (h : f.Ieee) (a b : Nat) : ((f.unpack a).isSnan || (f.unpack b).isSnan) = true ↔
    isSignalling f.ebits f.mbits a ∨ isSignalling f.ebits f.mbits b := by
  rw [Bool.or_eq_true, h.isSnan_unpack, h.isSnan_unpack]

theorem exceptions_minmax (f : Fmt) (m : Bool) (a b : Nat) : (f.minmax m a b).fl &&& exceptions = (f.minmax m a b).fl := by
  rw [f.minmax_fl]
  split <;> rfl

/-- fmin (`m` false) and fmax end with what `minmax` gives. -/
theorem floats_minmax {i : Instr} {o : Rr3} {m : Bool} {s : State} {th : Thread} (h : s.Plain th)
    (hg : th.guardOk o.pg o.pn = true) (hr : th.Ready [o.sa, o.sb] [o.sd]) (hi : exec i s = issue (qRr3 o) s fun s t th =>
      fpEnd s t th ((wFmt o.w).minmax m (th.fsrc o.w o.sa) (th.fsrc o.w o.sb)) fun u v => u.setX o.sd (BitVec.ofNat 64 v)) :
    Floats i s th ((wFmt o.w).minmax m (Claims.operand o.w (th.src o.sa)) (Claims.operand o.w (th.src o.sb))).v
      ((wFmt o.w).minmax m (Claims.operand o.w (th.src o.sa)) (Claims.operand o.w (th.src o.sb))).fl (putX o.sd) := by
  rw [operand_eq, operand_eq]
  exact floats_of_fpEnd h hi (precheck_rr3 hg hr) rfl rfl rfl (exceptions_minmax ..)

/-- The class of an encoding, by what it is (R134). -/
theorem classOf_spec (eb mb b : Nat) :
    (isInf eb mb b → classOf eb mb b = if signAt eb mb b then 0 else 7) ∧
    (isNaN eb mb b → (isSignalling eb mb b → classOf eb mb b = 8) ∧ (¬ isSignalling eb mb b → classOf eb mb b = 9)) ∧
    (isFinite eb mb b → classOf eb mb b =
      if b % 2 ^ (eb + mb) = 0 then (if signAt eb mb b then 3 else 4)
      else if b % 2 ^ (eb + mb) < 2 ^ mb then (if signAt eb mb b then 2 else 5) else (if signAt eb mb b then 1 else 6)) := by
  unfold classOf
  refine ⟨fun h => by rw [if_pos h.1, if_pos h.2], fun h => ⟨fun hs => ?_, fun hs => ?_⟩, fun h => if_neg h⟩
  · rw [if_pos h.1, if_neg h.2, if_neg (by simp [hs.2])]
  · rw [if_pos h.1, if_neg h.2, if_pos (by simpa using mt (isSignalling_iff h).mpr hs)]

end Sys2Proof.Machine

namespace Sys2Proof
open Claims Machine

/-- Settles O12: signs by their bits, classes by the fields of the encoding (`classOf`), fmin and fmax by the order of encodings
(`orderKey`), which `cmp` and the signs of zeros decide. -/
theorem floatSigns : Obligations.FloatSigns := by
  unfold Obligations.FloatSigns
  simp only [ebOf_eq, mbOf_eq]
  refine fun s th => ⟨fun h o hg hr => ⟨?_, ?_, ?_⟩, fun h o hg hr => ?_, fun h o hg hr => ?_⟩
  · exact acts_rr2 h hg hr rfl (fun _ => rfl) (fabs_bits ..)
  · exact acts_rr2 h hg hr rfl (fun _ => rfl) (fneg_bits ..)
  · refine ⟨classOf _ _ _, acts_rr2 h hg hr rfl (fun _ => rfl) ?_, classOf_spec ..⟩
    rw [← (ieee_wFmt o.w).classMask, operand_eq]
    rfl
  · exact acts_rr3 h hg hr rfl (fun _ => rfl) (fsgnj_bits ..)
  · have hlo := floats_minmax (i := .fpuFmin o) (m := false) h hg hr rfl
    have hhi := floats_minmax (i := .fpuFmax o) (m := true) h hg hr rfl
    have hsig := signalling_or (ieee_wFmt o.w) (Claims.operand o.w (th.src o.sa)) (Claims.operand o.w (th.src o.sb))
    rw [Fmt.minmax_fl] at hlo hhi
    obtain ⟨lo1, lo2, lo3⟩ := (ieee_wFmt o.w).minmax_nan false (Claims.operand o.w (th.src o.sa)) (Claims.operand o.w (th.src o.sb))
    obtain ⟨hi1, hi2, hi3⟩ := (ieee_wFmt o.w).minmax_nan true (Claims.operand o.w (th.src o.sa)) (Claims.operand o.w (th.src o.sb))
    exact ⟨_, _, _, hlo, hhi, fun hs => if_pos (hsig.mpr hs), fun hs => if_neg (mt hsig.mp hs), fun ha hb => ⟨lo1 ha hb, hi1 ha hb⟩,
      fun ha hb => ⟨lo2 ha hb, hi2 ha hb⟩, fun ha hb => ⟨lo3 ha hb, hi3 ha hb⟩,
      (ieee_wFmt o.w).minmax_ordered (operand_lt ..) (operand_lt ..)⟩

end Sys2Proof
end

section
/-! `fpu` on NaNs, infinities and zeros; `fcmp` (O13). -/

namespace Sys2Proof.Machine
open Claims

variable {f : Fmt} {a b c : Nat}

/-! ## Special operands of the model's functions (R131, R132) -/

@[simp] theorem FVal.isNan_negate (x : FVal) : x.negate.isNan = x.isNan := by cases x <;> rfl
@[simp] theorem FVal.isSnan_negate (x : FVal) : x.negate.isSnan = x.isSnan := by cases x <;> rfl
@[simp] theorem FVal.isInf_negate (x : FVal) : x.negate.isInf = x.isInf := by cases x <;> rfl
@[simp] theorem FVal.isZero_negate (x : FVal) : x.negate.isZero = x.isZero := by cases x <;> rfl

/-- A function of two operands that answers a NaN on either side. -/
theorem nan_of_two {f : Fmt} {g : FVal → FVal → FRes} (hl : ∀ a y, g (.nan a) y = f.nan (a || y.isSnan))
    (hr : ∀ x b, g x (.nan b) = f.nan (x.isSnan || b)) {x y : FVal} (h : x.isNan = true ∨ y.isNan = true) :
    g x y = f.nan (x.isSnan || y.isSnan) := by
  have hnan : ∀ z : FVal, z.isNan = true → z = .nan z.isSnan := fun z hz => by
    cases z with
    | nan => rfl
    | _ => cases hz
  rcases h with h | h
  · rw [hnan x h]
    exact hl _ _
  · rw [hnan y h]
    exact hr _ _

theorem add_of_nan (f : Fmt) (md : Mode) {x y : FVal} (h : x.isNan = true ∨ y.isNan = true) :
    f.add md x y = f.nan (x.isSnan || y.isSnan) := nan_of_two (fun _ _ => rfl) (fun x _ => by cases x <;> rfl) h

theorem mul_of_nan (f : Fmt) (md : Mode) {x y : FVal} (h : x.isNan = true ∨ y.isNan = true) :
    f.mul md x y = f.nan (x.isSnan || y.isSnan) := nan_of_two (fun _ _ => rfl) (fun x _ => by cases x <;> rfl) h

theorem div_of_nan (f : Fmt) (md : Mode) {x y : FVal} (h : x.isNan = true ∨ y.isNan = true) :
    f.div md x y = f.nan (x.isSnan || y.isSnan) := nan_of_two (fun _ _ => rfl) (fun x _ => by cases x <;> rfl) h

/-- A product of zero and infinity. -/
def badProduct (x y : FVal) : Bool := (x.isInf && y.isZero) || (x.isZero && y.isInf)

theorem fma_of_nan (f : Fmt) (md : Mode) {x y z : FVal} (h : (x.isNan || y.isNan || z.isNan) = true) :
    f.fma md x y z = f.nan (badProduct x y || x.isSnan || y.isSnan || z.isSnan) := if_pos h

theorem fma_of_bad (f : Fmt) (md : Mode) {x y z : FVal} (h : badProduct x y = true) : f.fma md x y z = f.nan true := by
  unfold Fmt.fma
  unfold badProduct at h
  dsimp only
  rw [h]
  split <;> rfl

theorem mul_of_bad (f : Fmt) (md : Mode) {x y : FVal} (h : badProduct x y = true) : f.mul md x y = f.nan true := by
  cases x <;> cases y <;> simp_all [badProduct, Fmt.mul, FVal.isInf, FVal.isZero]

theorem mul_of_inf (f : Fmt) (md : Mode) {x y : FVal} (hx : x.isNan = false) (hy : y.isNan = false)
    (hi : (x.isInf || y.isInf) = true) (hb : badProduct x y = false) : f.mul md x y = f.inf (x.neg? ^^ y.neg?) := by
  cases x with
  | nan => cases hx
  | inf a => cases y with
    | nan => cases hy
    | inf => rfl
    | fin n m e => exact if_neg (by simpa [badProduct, FVal.isInf] using hb)
  | fin n m e => cases y with
    | nan => cases hy
    | inf => exact if_neg (by simpa [badProduct, FVal.isInf] using hb)
    | fin => cases hi

/-- An infinite product and a finite addend. -/
theorem fma_of_inf_product (f : Fmt) (md : Mode) {x y : FVal} (n : Bool) (m : Nat) (e : Int) (hx : x.isNan = false)
    (hy : y.isNan = false) (hi : (x.isInf || y.isInf) = true) (hb : badProduct x y = false) :
    f.fma md x y (.fin n m e) = f.inf (x.neg? ^^ y.neg?) := by
  unfold badProduct at hb
  unfold Fmt.fma
  dsimp only
  rw [hx, hy, hb]
  cases x with
  | nan => cases hx
  | inf => cases y with
    | nan => cases hy
    | _ => rfl
  | fin => cases y with
    | nan => cases hy
    | inf => rfl
    | fin => cases hi

/-- An infinite addend. -/
theorem fma_of_inf_addend (f : Fmt) (md : Mode) {x y : FVal} (n : Bool) (hx : x.isNan = false) (hy : y.isNan = false)
    (hb : badProduct x y = false) : f.fma md x y (.inf n) =
      if ((x.isInf || y.isInf) && (x.neg? ^^ y.neg?) != n) = true then f.nan true else f.inf n := by
  unfold badProduct at hb
  unfold Fmt.fma
  dsimp only
  rw [hx, hy, hb]
  cases x <;> cases y <;> rfl

/-! ## What they give, as results of a word -/

/-- The word ends with this result. -/
def Ends (i : Instr) (s : State) (th : Thread) (wr : Thread → Nat → Thread) (r : FRes) : Prop := Floats i s th r.v r.fl wr

/-- The words of `fpu` end with what the functions give of three operands. -/
structure FpuWords (f : Fmt) (o : Rr3) (s : State) (th : Thread) (a b c : Nat) : Prop where
  add {r} : f.add (modeOf th.rm) (f.unpack a) (f.unpack b) = r → r.fl &&& exceptions = r.fl → Ends (.fpuFadd o) s th (putX o.sd) r
  sub {r} : f.add (modeOf th.rm) (f.unpack a) (f.unpack b).negate = r → r.fl &&& exceptions = r.fl → Ends (.fpuFsub o) s th (putX o.sd) r
  mul {r} : f.mul (modeOf th.rm) (f.unpack a) (f.unpack b) = r → r.fl &&& exceptions = r.fl → Ends (.fpuFmul o) s th (putX o.sd) r
  div {r} : f.div (modeOf th.rm) (f.unpack a) (f.unpack b) = r → r.fl &&& exceptions = r.fl → Ends (.fpuFdiv o) s th (putX o.sd) r
  fma {r} : f.fma (modeOf th.rm) (f.unpack a) (f.unpack b) (f.unpack c) = r → r.fl &&& exceptions = r.fl →
    Ends (.fpuFma o) s th (putX o.sd) r
  fms {r} : f.fma (modeOf th.rm) (f.unpack a) (f.unpack b) (f.unpack c).negate = r → r.fl &&& exceptions = r.fl →
    Ends (.fpuFms o) s th (putX o.sd) r
  fnma {r} : f.fma (modeOf th.rm) (f.unpack a).negate (f.unpack b) (f.unpack c) = r → r.fl &&& exceptions = r.fl →
    Ends (.fpuFnma o) s th (putX o.sd) r

theorem fpuWords {o : Rr3} {s : State} {th : Thread} (h : s.Plain th) (hg : th.guardOk o.pg o.pn = true)
    (hr : th.Ready [o.sa, o.sb] [o.sd]) : FpuWords (wFmt o.w) o s th (Claims.operand o.w (th.src o.sa))
      (Claims.operand o.w (th.src o.sb)) (Claims.operand o.w (th.x o.sd)) where
  add he hfl := floats_fpu3 (g := fun f m _ x y => f.add m x y) h hg hr rfl he hfl
  sub he hfl := floats_fpu3 (g := fun f m _ x y => f.add m x y.negate) h hg hr rfl he hfl
  mul he hfl := floats_fpu3 (g := fun f m _ x y => f.mul m x y) h hg hr rfl he hfl
  div he hfl := floats_fpu3 (g := fun f m _ x y => f.div m x y) h hg hr rfl he hfl
  fma he hfl := floats_fpu3 (g := fun f m th x y => f.fma m x y (addend o th)) h hg hr rfl (addend_eq o th ▸ he) hfl
  fms he hfl := floats_fpu3 (g := fun f m th x y => f.fma m x y (addend o th).negate) h hg hr rfl (addend_eq o th ▸ he) hfl
  fnma he hfl := floats_fpu3 (g := fun f m th x y => f.fma m x.negate y (addend o th)) h hg hr rfl (addend_eq o th ▸ he) hfl

theorem exceptions_nan (f : Fmt) (nv : Bool) : (f.nan nv).fl &&& exceptions = (f.nan nv).fl := by
  change (if nv then fNV else 0) &&& exceptions = if nv then fNV else 0
  cases nv <;> rfl

theorem exceptions_inf (f : Fmt) (neg : Bool) : (f.inf neg).fl &&& exceptions = (f.inf neg).fl := by
  change (0 : BitVec 6) &&& exceptions = 0
  rfl

theorem exceptions_zero (f : Fmt) (neg : Bool) : (f.zero neg).fl &&& exceptions = (f.zero neg).fl := by
  change (0 : BitVec 6) &&& exceptions = 0
  rfl

section
variable {i : Instr} {s : State} {th : Thread} {wr : Thread → Nat → Thread}

/-- A NaN result is the canonical one, with NV where `S` says so. -/
theorem Fmt.Ieee.ends_nan_of (h : f.Ieee) {nv : Bool} {S : Prop} (hn : Ends i s th wr (f.nan nv)) (hS : nv = true ↔ S) :
    (S → Floats i s th (canonicalNaN f.ebits f.mbits) 1 wr) ∧
    (¬ S → Floats i s th (canonicalNaN f.ebits f.mbits) 0 wr) := by
  rw [← h.nanBits]
  unfold Ends at hn
  cases nv
  · exact ⟨fun hs => absurd (hS.mpr hs) nofun, fun _ => hn⟩
  · exact ⟨fun _ => hn, fun hs => absurd (hS.mp rfl) hs⟩

theorem Fmt.Ieee.ends_invalid (h : f.Ieee) (hn : Ends i s th wr (f.nan true)) :
    Floats i s th (canonicalNaN f.ebits f.mbits) 1 wr := by
  rw [← h.nanBits]
  exact hn

/-- An infinity with an operand's sign, where the operand is infinite, is the operand. -/
theorem ends_self (ha : isInf f.ebits f.mbits a) (hl : a < 2 ^ (1 + (f.ebits + f.mbits)))
    (he : Ends i s th wr (f.inf (signAt f.ebits f.mbits a))) : Floats i s th a 0 wr := by
  have hinf : f.signed (signAt f.ebits f.mbits a) f.infBits = a := by
    have := encoding_eq hl
    rw [mag_of_isInf ha] at this
    exact this.symm
  change Floats i s th (f.signed (signAt f.ebits f.mbits a) f.infBits) 0 wr at he
  rwa [hinf] at he
end

end Sys2Proof.Machine
end

section
/-! The claims about special operands (O13), one by one from what the functions of `fpu` give. -/

namespace Sys2Proof.Machine
open Claims

variable {f : Fmt} {a b c : Nat} {o : Rr3} {s : State} {th : Thread}

theorem Fmt.Ieee.isInf_unpack (h : f.Ieee) (b : Nat) : (f.unpack b).isInf = true ↔ isInf f.ebits f.mbits b := by
  rcases class_cases f.ebits f.mbits b with hb | hb | hb
  · obtain ⟨m, e, r⟩ := h.reads hb
    rw [r.unpack]
    exact iff_of_false nofun (not_isInf_of_isFinite hb)
  · rw [h.unpack_inf hb]
    exact iff_of_true rfl hb
  · rw [h.unpack_nan hb]
    exact iff_of_false nofun fun hi => not_isNaN_of_isInf hi hb

theorem Fmt.Ieee.badProduct_iff (h : f.Ieee) (a b : Nat) : badProduct (f.unpack a) (f.unpack b) = true ↔
    (isInf f.ebits f.mbits a ∧ isZero f.ebits f.mbits b) ∨ (isZero f.ebits f.mbits a ∧ isInf f.ebits f.mbits b) := by
  simp only [badProduct, Bool.or_eq_true, Bool.and_eq_true, h.isInf_unpack, h.isZero_unpack]

/-! ## NaN operands -/

theorem FpuWords.nan2 (W : FpuWords f o s th a b c) (h : f.Ieee) (hn : isNaN f.ebits f.mbits a ∨ isNaN f.ebits f.mbits b) :
    ∀ i ∈ [Instr.fpuFadd o, .fpuFsub o, .fpuFmul o, .fpuFdiv o],
      (isSignalling f.ebits f.mbits a ∨ isSignalling f.ebits f.mbits b →
        Floats i s th (canonicalNaN f.ebits f.mbits) 1 (putX o.sd)) ∧
      (¬ (isSignalling f.ebits f.mbits a ∨ isSignalling f.ebits f.mbits b) →
        Floats i s th (canonicalNaN f.ebits f.mbits) 0 (putX o.sd)) := by
  have hn' : (f.unpack a).isNan = true ∨ (f.unpack b).isNan = true :=
    hn.imp (h.isNan_unpack a).mpr (h.isNan_unpack b).mpr
  have hsub := add_of_nan f (modeOf th.rm) (x := f.unpack a) (y := (f.unpack b).negate) (by simpa using hn')
  rw [FVal.isSnan_negate] at hsub
  have key : ∀ i, Ends i s th (putX o.sd) (f.nan ((f.unpack a).isSnan || (f.unpack b).isSnan)) → _ :=
    fun i hi => h.ends_nan_of hi (signalling_or h a b)
  simp only [List.forall_mem_cons, List.not_mem_nil]
  exact ⟨key _ (W.add (add_of_nan f _ hn') (exceptions_nan ..)), key _ (W.sub hsub (exceptions_nan ..)),
    key _ (W.mul (mul_of_nan f _ hn') (exceptions_nan ..)), key _ (W.div (div_of_nan f _ hn') (exceptions_nan ..)), fun _ hi => hi.elim⟩

theorem FpuWords.nan3 (W : FpuWords f o s th a b c) (h : f.Ieee)
    (hn : isNaN f.ebits f.mbits a ∨ isNaN f.ebits f.mbits b ∨ isNaN f.ebits f.mbits c) :
    ∀ i ∈ [Instr.fpuFma o, .fpuFms o, .fpuFnma o],
      (((isInf f.ebits f.mbits a ∧ isZero f.ebits f.mbits b) ∨ (isZero f.ebits f.mbits a ∧ isInf f.ebits f.mbits b)) ∨
        (isSignalling f.ebits f.mbits a ∨ isSignalling f.ebits f.mbits b ∨ isSignalling f.ebits f.mbits c) →
        Floats i s th (canonicalNaN f.ebits f.mbits) 1 (putX o.sd)) ∧
      (¬ (((isInf f.ebits f.mbits a ∧ isZero f.ebits f.mbits b) ∨ (isZero f.ebits f.mbits a ∧ isInf f.ebits f.mbits b)) ∨
        (isSignalling f.ebits f.mbits a ∨ isSignalling f.ebits f.mbits b ∨ isSignalling f.ebits f.mbits c)) →
        Floats i s th (canonicalNaN f.ebits f.mbits) 0 (putX o.sd)) := by
  have hn' : ((f.unpack a).isNan || (f.unpack b).isNan || (f.unpack c).isNan) = true := by
    simpa only [Bool.or_eq_true, h.isNan_unpack, or_assoc] using hn
  have hfms := fma_of_nan f (modeOf th.rm) (x := f.unpack a) (y := f.unpack b) (z := (f.unpack c).negate) (by simpa using hn')
  have hfnma := fma_of_nan f (modeOf th.rm) (x := (f.unpack a).negate) (y := f.unpack b) (z := f.unpack c) (by simpa using hn')
  rw [FVal.isSnan_negate] at hfms
  rw [badProduct, FVal.isSnan_negate, FVal.isInf_negate, FVal.isZero_negate] at hfnma
  have key : ∀ i, Ends i s th (putX o.sd) (f.nan (badProduct (f.unpack a) (f.unpack b) || (f.unpack a).isSnan || (f.unpack b).isSnan ||
      (f.unpack c).isSnan)) → _ := fun i hi => h.ends_nan_of hi (by
    rw [Bool.or_eq_true, Bool.or_eq_true, Bool.or_eq_true, h.badProduct_iff, h.isSnan_unpack, h.isSnan_unpack, h.isSnan_unpack,
      or_assoc, or_assoc])
  simp only [List.forall_mem_cons, List.not_mem_nil]
  exact ⟨key _ (W.fma (fma_of_nan f _ hn') (exceptions_nan ..)), key _ (W.fms hfms (exceptions_nan ..)),
    key _ (W.fnma hfnma (exceptions_nan ..)), fun _ hi => hi.elim⟩

/-! ## Infinities -/

theorem FpuWords.inf_inf (W : FpuWords f o s th a b c) (h : f.Ieee) (hl : a < 2 ^ (1 + (f.ebits + f.mbits)))
    (ha : isInf f.ebits f.mbits a) (hb : isInf f.ebits f.mbits b) :
    (if signAt f.ebits f.mbits a = signAt f.ebits f.mbits b then Floats (.fpuFadd o) s th a 0 (putX o.sd)
      else Floats (.fpuFadd o) s th (canonicalNaN f.ebits f.mbits) 1 (putX o.sd)) ∧
    (if signAt f.ebits f.mbits a = signAt f.ebits f.mbits b then
      Floats (.fpuFsub o) s th (canonicalNaN f.ebits f.mbits) 1 (putX o.sd) else Floats (.fpuFsub o) s th a 0 (putX o.sd)) ∧
    Floats (.fpuFdiv o) s th (canonicalNaN f.ebits f.mbits) 1 (putX o.sd) := by
  have hx := h.unpack_inf ha
  have hy := h.unpack_inf hb
  refine ⟨?_, ?_, h.ends_invalid (W.div (by rw [hx, hy]; rfl) (exceptions_nan f true))⟩
  · split
    · exact ends_self ha hl (W.add (by rw [hx, hy]; exact if_pos ‹_›) (exceptions_inf ..))
    · exact h.ends_invalid (W.add (by rw [hx, hy]; exact if_neg ‹_›) (exceptions_nan f true))
  · split
    · exact h.ends_invalid (W.sub (by rw [hx, hy]; exact if_neg (by simp [*])) (exceptions_nan f true))
    · exact ends_self ha hl (W.sub (by rw [hx, hy]; exact if_pos (Bool.eq_not.mpr ‹_›)) (exceptions_inf ..))

theorem FpuWords.inf_fin (W : FpuWords f o s th a b c) (h : f.Ieee) (hl : a < 2 ^ (1 + (f.ebits + f.mbits)))
    (ha : isInf f.ebits f.mbits a) (hb : isFinite f.ebits f.mbits b) :
    Floats (.fpuFadd o) s th a 0 (putX o.sd) ∧ Floats (.fpuFsub o) s th a 0 (putX o.sd) ∧
    Floats (.fpuFdiv o) s th (withSign f.ebits f.mbits (signAt f.ebits f.mbits a ^^ signAt f.ebits f.mbits b)
      (infinity f.ebits f.mbits)) 0 (putX o.sd) := by
  obtain ⟨m, e, rb⟩ := h.reads hb
  have hx := h.unpack_inf ha
  have hy := rb.unpack
  refine ⟨ends_self ha hl (W.add (by rw [hx, hy]; rfl) (exceptions_inf ..)), ends_self ha hl (W.sub (by rw [hx, hy]; rfl) (exceptions_inf ..)),
    W.div (by rw [hx, hy]; rfl) (exceptions_inf ..)⟩

theorem FpuWords.fin_inf (W : FpuWords f o s th a b c) (h : f.Ieee) (hl : b < 2 ^ (1 + (f.ebits + f.mbits)))
    (ha : isFinite f.ebits f.mbits a) (hb : isInf f.ebits f.mbits b) :
    Floats (.fpuFadd o) s th b 0 (putX o.sd) ∧
    Floats (.fpuFsub o) s th (withSign f.ebits f.mbits (!signAt f.ebits f.mbits b) (infinity f.ebits f.mbits)) 0 (putX o.sd) ∧
    Floats (.fpuFdiv o) s th (withSign f.ebits f.mbits (signAt f.ebits f.mbits a ^^ signAt f.ebits f.mbits b) 0) 0 (putX o.sd) := by
  obtain ⟨m, e, ra⟩ := h.reads ha
  have hx := ra.unpack
  have hy := h.unpack_inf hb
  exact ⟨ends_self hb hl (W.add (by rw [hx, hy]; rfl) (exceptions_inf ..)), W.sub (by rw [hx, hy]; rfl) (exceptions_inf ..),
    W.div (by rw [hx, hy]; rfl) (exceptions_zero ..)⟩

/-- Zero times infinity is invalid, whatever the addend. -/
theorem FpuWords.bad (W : FpuWords f o s th a b c) (h : f.Ieee)
    (hbad : (isInf f.ebits f.mbits a ∧ isZero f.ebits f.mbits b) ∨ (isZero f.ebits f.mbits a ∧ isInf f.ebits f.mbits b)) :
    ∀ i ∈ [Instr.fpuFmul o, .fpuFma o, .fpuFms o, .fpuFnma o], Floats i s th (canonicalNaN f.ebits f.mbits) 1 (putX o.sd) := by
  have hb := (h.badProduct_iff a b).mpr hbad
  have hb' : badProduct (f.unpack a).negate (f.unpack b) = true := by
    rw [badProduct, FVal.isInf_negate, FVal.isZero_negate]
    exact hb
  simp only [List.forall_mem_cons, List.not_mem_nil]
  exact ⟨h.ends_invalid (W.mul (mul_of_bad f _ hb) (exceptions_nan ..)), h.ends_invalid (W.fma (fma_of_bad f _ hb) (exceptions_nan ..)),
    h.ends_invalid (W.fms (fma_of_bad f _ hb) (exceptions_nan ..)),
    h.ends_invalid (W.fnma (fma_of_bad f _ hb') (exceptions_nan ..)), fun _ hi => hi.elim⟩

/-- A product with an infinite factor that is not invalid. -/
structure InfProduct (f : Fmt) (a b : Nat) : Prop where
  left : ¬ isNaN f.ebits f.mbits a
  right : ¬ isNaN f.ebits f.mbits b
  inf : ((f.unpack a).isInf || (f.unpack b).isInf) = true
  good : badProduct (f.unpack a) (f.unpack b) = false

theorem Fmt.Ieee.not_isZero_of_isInf (h : f.Ieee) (ha : isInf f.ebits f.mbits a) : ¬ isZero f.ebits f.mbits a := by
  rw [isZero, mag_of_isInf ha]
  exact (infinity_pos h).ne'

theorem Fmt.Ieee.infProduct (h : f.Ieee) (hi : (isInf f.ebits f.mbits a ∧ ¬ isNaN f.ebits f.mbits b ∧ ¬ isZero f.ebits f.mbits b) ∨
    (¬ isNaN f.ebits f.mbits a ∧ ¬ isZero f.ebits f.mbits a ∧ isInf f.ebits f.mbits b)) : InfProduct f a b := by
  have hgood := h.badProduct_iff a b
  rcases hi with ⟨ha, hb, hz⟩ | ⟨ha, hz, hb⟩
  · refine ⟨not_isNaN_of_isInf ha, hb, by rw [(h.isInf_unpack a).mpr ha, Bool.true_or],
      Bool.eq_false_of_not_eq_true (mt hgood.mp ?_)⟩
    rintro (⟨-, hc⟩ | ⟨hc, -⟩)
    · exact hz hc
    · exact h.not_isZero_of_isInf ha hc
  · refine ⟨ha, not_isNaN_of_isInf hb, by rw [(h.isInf_unpack b).mpr hb, Bool.or_true],
      Bool.eq_false_of_not_eq_true (mt hgood.mp ?_)⟩
    rintro (⟨-, hc⟩ | ⟨hc, -⟩)
    · exact h.not_isZero_of_isInf hb hc
    · exact hz hc

theorem Fmt.Ieee.neg?_negate (h : f.Ieee) (ha : ¬ isNaN f.ebits f.mbits a) :
    (f.unpack a).negate.neg? = !signAt f.ebits f.mbits a := by
  rw [← h.neg?_unpack ha]
  have hn := h.isNan_false ha
  cases hx : f.unpack a with
  | nan => rw [hx] at hn; cases hn
  | _ => rfl

theorem badProduct_negate (x y : FVal) : badProduct x.negate y = badProduct x y := by
  rw [badProduct, FVal.isInf_negate, FVal.isZero_negate, badProduct]

/-- An infinite product and an infinite addend. -/
theorem fma_of_inf_inf (f : Fmt) (md : Mode) {x y : FVal} (n : Bool) (hx : x.isNan = false) (hy : y.isNan = false)
    (hi : (x.isInf || y.isInf) = true) (hb : badProduct x y = false) :
    f.fma md x y (.inf n) = if (x.neg? ^^ y.neg?) = n then f.inf n else f.nan true := by
  rw [fma_of_inf_addend f md n hx hy hb, hi]
  by_cases h : (x.neg? ^^ y.neg?) = n
  · rw [if_pos h, if_neg (by rw [h, bne_self_eq_false]; decide)]
  · rw [if_neg h, if_pos (by rw [Bool.true_and]; exact bne_iff_ne.mpr h)]

theorem FpuWords.mul_inf (W : FpuWords f o s th a b c) (h : f.Ieee) (hp : InfProduct f a b) :
    Floats (.fpuFmul o) s th (withSign f.ebits f.mbits (signAt f.ebits f.mbits a ^^ signAt f.ebits f.mbits b)
      (infinity f.ebits f.mbits)) 0 (putX o.sd) := by
  refine W.mul (r := f.inf _) ?_ (exceptions_inf ..)
  rw [mul_of_inf f _ (h.isNan_false hp.left) (h.isNan_false hp.right) hp.inf hp.good, h.neg?_unpack hp.left, h.neg?_unpack hp.right]

theorem FpuWords.fused_inf_fin (W : FpuWords f o s th a b c) (h : f.Ieee) (hp : InfProduct f a b)
    (hc : isFinite f.ebits f.mbits c) :
    Floats (.fpuFma o) s th (withSign f.ebits f.mbits (signAt f.ebits f.mbits a ^^ signAt f.ebits f.mbits b)
      (infinity f.ebits f.mbits)) 0 (putX o.sd) ∧
    Floats (.fpuFms o) s th (withSign f.ebits f.mbits (signAt f.ebits f.mbits a ^^ signAt f.ebits f.mbits b)
      (infinity f.ebits f.mbits)) 0 (putX o.sd) ∧
    Floats (.fpuFnma o) s th (withSign f.ebits f.mbits (!(signAt f.ebits f.mbits a ^^ signAt f.ebits f.mbits b))
      (infinity f.ebits f.mbits)) 0 (putX o.sd) := by
  obtain ⟨m, e, rc⟩ := h.reads hc
  have ha := h.isNan_false hp.left
  have hb := h.isNan_false hp.right
  refine ⟨W.fma (r := f.inf _) ?_ (exceptions_inf ..), W.fms (r := f.inf _) ?_ (exceptions_inf ..),
    W.fnma (r := f.inf _) ?_ (exceptions_inf ..)⟩
  · rw [rc.unpack, fma_of_inf_product f _ _ m e ha hb hp.inf hp.good, h.neg?_unpack hp.left, h.neg?_unpack hp.right]
  · rw [rc.unpack, FVal.negate, fma_of_inf_product f _ _ m e ha hb hp.inf hp.good, h.neg?_unpack hp.left, h.neg?_unpack hp.right]
  · rw [rc.unpack, fma_of_inf_product f _ _ m e (by rwa [FVal.isNan_negate]) hb (by rw [FVal.isInf_negate]; exact hp.inf)
      (by rw [badProduct_negate]; exact hp.good), h.neg?_negate hp.left, h.neg?_unpack hp.right, Bool.not_xor]

theorem FpuWords.fused_inf_inf (W : FpuWords f o s th a b c) (h : f.Ieee) (hl : c < 2 ^ (1 + (f.ebits + f.mbits)))
    (hp : InfProduct f a b) (hc : isInf f.ebits f.mbits c) :
    (if (signAt f.ebits f.mbits a ^^ signAt f.ebits f.mbits b) = signAt f.ebits f.mbits c then
      Floats (.fpuFma o) s th c 0 (putX o.sd) else Floats (.fpuFma o) s th (canonicalNaN f.ebits f.mbits) 1 (putX o.sd)) ∧
    (if (signAt f.ebits f.mbits a ^^ signAt f.ebits f.mbits b) = signAt f.ebits f.mbits c then
      Floats (.fpuFms o) s th (canonicalNaN f.ebits f.mbits) 1 (putX o.sd)
      else Floats (.fpuFms o) s th (withSign f.ebits f.mbits (!signAt f.ebits f.mbits c) (infinity f.ebits f.mbits)) 0 (putX o.sd)) ∧
    (if (signAt f.ebits f.mbits a ^^ signAt f.ebits f.mbits b) = signAt f.ebits f.mbits c then
      Floats (.fpuFnma o) s th (canonicalNaN f.ebits f.mbits) 1 (putX o.sd) else Floats (.fpuFnma o) s th c 0 (putX o.sd)) := by
  have ha := h.isNan_false hp.left
  have hb := h.isNan_false hp.right
  have hma := fma_of_inf_inf f (modeOf th.rm) (signAt f.ebits f.mbits c) ha hb hp.inf hp.good
  have hms := fma_of_inf_inf f (modeOf th.rm) (!signAt f.ebits f.mbits c) ha hb hp.inf hp.good
  have hnma := fma_of_inf_inf f (modeOf th.rm) (x := (f.unpack a).negate) (signAt f.ebits f.mbits c) (by rwa [FVal.isNan_negate]) hb
    (by rw [FVal.isInf_negate]; exact hp.inf) (by rw [badProduct_negate]; exact hp.good)
  rw [h.neg?_unpack hp.left, h.neg?_unpack hp.right] at hma hms
  rw [h.neg?_negate hp.left, h.neg?_unpack hp.right, Bool.not_xor] at hnma
  rw [← h.unpack_inf hc] at hma hnma
  change f.fma _ _ _ (FVal.inf _).negate = _ at hms
  rw [← h.unpack_inf hc] at hms
  split
  next he => exact ⟨ends_self hc hl (W.fma (hma.trans (if_pos he)) (exceptions_inf ..)),
      h.ends_invalid (W.fms (hms.trans (if_neg (by simp [he]))) (exceptions_nan ..)),
      h.ends_invalid (W.fnma (hnma.trans (if_neg (by simp [he]))) (exceptions_nan ..))⟩
  next hne => exact ⟨h.ends_invalid (W.fma (hma.trans (if_neg hne)) (exceptions_nan ..)),
      W.fms (hms.trans (if_pos (Bool.eq_not.mpr hne))) (exceptions_inf ..),
      ends_self hc hl (W.fnma (hnma.trans (if_pos (Bool.not_eq.mpr hne))) (exceptions_inf ..))⟩

theorem FpuWords.fin_fin_inf (W : FpuWords f o s th a b c) (h : f.Ieee) (hl : c < 2 ^ (1 + (f.ebits + f.mbits)))
    (ha : isFinite f.ebits f.mbits a) (hb : isFinite f.ebits f.mbits b) (hc : isInf f.ebits f.mbits c) :
    Floats (.fpuFma o) s th c 0 (putX o.sd) ∧
    Floats (.fpuFms o) s th (withSign f.ebits f.mbits (!signAt f.ebits f.mbits c) (infinity f.ebits f.mbits)) 0 (putX o.sd) ∧
    Floats (.fpuFnma o) s th c 0 (putX o.sd) := by
  obtain ⟨m1, e1, ra⟩ := h.reads ha
  obtain ⟨m2, e2, rb⟩ := h.reads hb
  have hfma : ∀ n1 n2 n : Bool, f.fma (modeOf th.rm) (.fin n1 m1 e1) (.fin n2 m2 e2) (.inf n) = f.inf n := fun n1 n2 n => by
    rw [fma_of_inf_addend f _ n rfl rfl (by simp [badProduct, FVal.isInf])]
    rfl
  refine ⟨ends_self hc hl (W.fma ?_ (exceptions_inf ..)), W.fms (r := f.inf _) ?_ (exceptions_inf ..),
    ends_self hc hl (W.fnma ?_ (exceptions_inf ..))⟩
  · rw [ra.unpack, rb.unpack, h.unpack_inf hc, hfma]
  · rw [ra.unpack, rb.unpack, h.unpack_inf hc, FVal.negate, hfma]
  · rw [ra.unpack, rb.unpack, h.unpack_inf hc, FVal.negate, hfma]

/-! ## Division by zero -/

theorem isFinite_of_isZero (h : f.Ieee) (hz : isZero f.ebits f.mbits a) : isFinite f.ebits f.mbits a := by
  rw [isFinite, ((isZero_iff _ _ _).mp hz).1, emax]
  have : 2 ^ 2 ≤ 2 ^ f.ebits := Nat.pow_le_pow_right (by norm_num) h.ebits
  omega

theorem exceptions_divByZero : fDZ &&& exceptions = fDZ := by decide

theorem FpuWords.div_zero (W : FpuWords f o s th a b c) (h : f.Ieee) (hb : isZero f.ebits f.mbits b) :
    (isZero f.ebits f.mbits a → Floats (.fpuFdiv o) s th (canonicalNaN f.ebits f.mbits) 1 (putX o.sd)) ∧
    (isFinite f.ebits f.mbits a → ¬ isZero f.ebits f.mbits a →
      Floats (.fpuFdiv o) s th (withSign f.ebits f.mbits (signAt f.ebits f.mbits a ^^ signAt f.ebits f.mbits b)
        (infinity f.ebits f.mbits)) 2 (putX o.sd)) := by
  obtain ⟨m2, e2, rb⟩ := h.reads (isFinite_of_isZero h hb)
  have hm2 := rb.zero.mpr hb
  refine ⟨fun ha => ?_, fun ha hz => ?_⟩
  · obtain ⟨m1, e1, ra⟩ := h.reads (isFinite_of_isZero h ha)
    refine h.ends_invalid (W.div ?_ (exceptions_nan ..))
    rw [ra.unpack, rb.unpack]
    exact (if_pos hm2).trans (if_pos (ra.zero.mpr ha))
  · obtain ⟨m1, e1, ra⟩ := h.reads ha
    refine W.div (r := ⟨_, fDZ, false⟩) ?_ exceptions_divByZero
    rw [ra.unpack, rb.unpack]
    exact (if_pos hm2).trans (if_neg (mt ra.zero.mp hz))

end Sys2Proof.Machine
end

section
/-! The claims of special operands and of comparisons, put together (O13). -/

namespace Sys2Proof.Machine
open Claims

variable {f : Fmt} {a b : Nat}

/-- `fsqrt` of what is not a number that has a root. -/
theorem sqrt_special {o : Rr2} {s : State} {th : Thread} (h : s.Plain th) (hg : th.guardOk o.pg o.pn = true)
    (hr : th.Ready [o.sa] [o.sd]) {r : FRes}
    (he : (wFmt o.w).sqrt (modeOf th.rm) ((wFmt o.w).unpack (Claims.operand o.w (th.src o.sa))) = r) (hfl : r.fl &&& exceptions = r.fl) :
    Ends (.fpuFsqrt o) s th (putX o.sd) r :=
  floats_fpu2 (g := fun f m x => f.sqrt m x) h hg hr rfl he hfl

theorem Fmt.Ieee.sqrt_of_nan (h : f.Ieee) (md : Mode) (ha : isNaN f.ebits f.mbits a) :
    f.sqrt md (f.unpack a) = f.nan (f.unpack a).isSnan := by
  rw [h.unpack_nan ha]
  rfl

theorem Fmt.Ieee.sqrt_of_negative (h : f.Ieee) (md : Mode) (hn : ¬ isNaN f.ebits f.mbits a) (hs : signAt f.ebits f.mbits a = true)
    (hz : ¬ isZero f.ebits f.mbits a) : f.sqrt md (f.unpack a) = f.nan true := by
  rcases (not_isNaN_iff _ _ _).mp hn with ha | ha
  · obtain ⟨m, e, r⟩ := h.reads ha
    rw [r.unpack, hs]
    exact (if_neg (mt r.zero.mp hz)).trans (if_pos rfl)
  · rw [h.unpack_inf ha, hs]
    rfl

theorem Fmt.Ieee.sqrt_of_inf (h : f.Ieee) (md : Mode) (ha : isInf f.ebits f.mbits a) (hs : signAt f.ebits f.mbits a = false) :
    f.sqrt md (f.unpack a) = f.inf false := by
  rw [h.unpack_inf ha, hs]
  rfl

theorem floatSpecials : FloatSpecials := by
  unfold FloatSpecials
  simp only [ebOf_eq, mbOf_eq]
  refine fun s th h => ⟨fun o hg hr => ?_, fun o hg hr => ?_⟩
  · have hf := ieee_wFmt o.w
    have W := fpuWords h hg hr
    have hx := operand_lt o.w (th.src o.sa)
    have hy := operand_lt o.w (th.src o.sb)
    have hz := operand_lt o.w (th.x o.sd)
    refine ⟨fun i hi hn => W.nan2 hf hn i hi, fun i hi hn => W.nan3 hf hn i hi, W.inf_inf hf hx, W.inf_fin hf hx, W.fin_inf hf hy,
      fun hb => ?_, fun hi => ?_, W.fin_fin_inf hf hz, W.div_zero hf⟩
    · have hall := W.bad hf hb
      simp only [List.forall_mem_cons] at hall
      obtain ⟨hmul, hfma, hfms, hfnma, -⟩ := hall
      exact ⟨hmul, hfma, hfms, hfnma⟩
    · exact ⟨W.mul_inf hf (hf.infProduct hi), W.fused_inf_fin hf (hf.infProduct hi), W.fused_inf_inf hf hz (hf.infProduct hi)⟩
  · have hf := ieee_wFmt o.w
    refine ⟨fun hn => hf.ends_nan_of (sqrt_special h hg hr (hf.sqrt_of_nan _ hn) (exceptions_nan ..)) (hf.isSnan_unpack _),
      fun hn hs hz => hf.ends_invalid (sqrt_special h hg hr (hf.sqrt_of_negative _ hn hs hz) (exceptions_nan ..)),
      fun hi hs => sqrt_special (r := (wFmt o.w).inf false) h hg hr (hf.sqrt_of_inf _ hi hs) (exceptions_inf ..)⟩

/-! ## Comparisons (R137) -/

/-- A comparison writes its condition on two numbers, or what it gives of a NaN. -/
theorem floats_fcmp {i : Instr} {o : Rr3} {c : Int → Bool} {un quiet : Bool} {s : State} {th : Thread} (h : s.Plain th)
    (hg : th.guardOk o.pg o.pn = true) (hr : th.Ready [o.sa, o.sb] []) (hi : exec i s = fcmpBody o c un quiet s) {x y : FVal}
    (hx : (wFmt o.w).unpack (Claims.operand o.w (th.src o.sa)) = x) (hy : (wFmt o.w).unpack (Claims.operand o.w (th.src o.sb)) = y)
    {v : Bool} (hv : (if (x.isNan || y.isNan) = true then un else c (x.cmp y)) = v) {nv : Bool}
    (hnv : (x.isSnan || y.isSnan || ((x.isNan || y.isNan) && quiet)) = nv) :
    Floats i s th (if v then 1 else 0) (if nv then 1 else 0) fun u r => u.setP o.sd (r == 1) := by
  rw [operand_eq] at hx hy
  subst hx hy
  have hfl : ∀ nv : Bool, (if nv = true then fNV else 0) &&& exceptions = if nv = true then fNV else 0 := by decide
  refine floats_of_fpEnd (r := ⟨if v then 1 else 0, if nv then fNV else 0, false⟩) h hi (precheck_rr3P hg hr) rfl ?_
    (by unfold Thread.setP; split <;> rfl) (hfl nv)
  rw [← hv, ← hnv]
  rfl

section
variable {i : Instr} {o : Rr3} {c : Int → Bool} {un quiet : Bool} {s : State} {th : Thread} {x y : Nat}

theorem fcmp_of_nan (h : s.Plain th) (hg : th.guardOk o.pg o.pn = true) (hr : th.Ready [o.sa, o.sb] [])
    (hi : exec i s = fcmpBody o c un quiet s) (hx : Claims.operand o.w (th.src o.sa) = x) (hy : Claims.operand o.w (th.src o.sb) = y)
    (hn : isNaN (wFmt o.w).ebits (wFmt o.w).mbits x ∨ isNaN (wFmt o.w).ebits (wFmt o.w).mbits y) {nv : Bool}
    (hnv : nv = true ↔ (isSignalling (wFmt o.w).ebits (wFmt o.w).mbits x ∨ isSignalling (wFmt o.w).ebits (wFmt o.w).mbits y) ∨
      quiet = true) :
    Floats i s th (if un then 1 else 0) (if nv then 1 else 0) fun u r => u.setP o.sd (r == 1) := by
  have hn' : (((wFmt o.w).unpack x).isNan || ((wFmt o.w).unpack y).isNan) = true := by
    rw [Bool.or_eq_true, (ieee_wFmt o.w).isNan_unpack, (ieee_wFmt o.w).isNan_unpack]
    exact hn
  refine floats_fcmp h hg hr hi (congrArg _ hx) (congrArg _ hy) (if_pos hn') ?_
  rw [hn', Bool.true_and, Bool.eq_iff_iff, Bool.or_eq_true, signalling_or (ieee_wFmt o.w), hnv]

theorem fcmp_of_numbers (h : s.Plain th) (hg : th.guardOk o.pg o.pn = true) (hr : th.Ready [o.sa, o.sb] [])
    (hi : exec i s = fcmpBody o c un quiet s) (hx : Claims.operand o.w (th.src o.sa) = x) (hy : Claims.operand o.w (th.src o.sb) = y)
    (hnx : ¬ isNaN (wFmt o.w).ebits (wFmt o.w).mbits x) (hny : ¬ isNaN (wFmt o.w).ebits (wFmt o.w).mbits y) {v : Bool}
    (hv : v = true ↔ c (((wFmt o.w).unpack x).cmp ((wFmt o.w).unpack y)) = true) :
    Floats i s th (if v then 1 else 0) 0 fun u r => u.setP o.sd (r == 1) := by
  have hn : (((wFmt o.w).unpack x).isNan || ((wFmt o.w).unpack y).isNan) = false := by
    rw [(ieee_wFmt o.w).isNan_false hnx, (ieee_wFmt o.w).isNan_false hny, Bool.false_or]
  have hs : (((wFmt o.w).unpack x).isSnan || ((wFmt o.w).unpack y).isSnan) = false :=
    Bool.eq_false_of_not_eq_true fun hs => ((signalling_or (ieee_wFmt o.w) x y).mp hs).elim (fun hs => hnx hs.1) fun hs => hny hs.1
  refine floats_fcmp (nv := false) h hg hr hi (congrArg _ hx) (congrArg _ hy) ?_ (by rw [hs, hn, Bool.false_and, Bool.false_or])
  rw [hn, if_neg Bool.false_ne_true, Bool.eq_iff_iff, hv]

end

theorem value_lt_iff (eb mb a b : Nat) : value eb mb a < value eb mb b ↔ signedUnits eb mb a < signedUnits eb mb b := by
  rw [value_eq_signedUnits, value_eq_signedUnits, mul_lt_mul_iff_left₀ (by positivity), Int.cast_lt]

theorem value_inj_iff (eb mb a b : Nat) : value eb mb a = value eb mb b ↔ signedUnits eb mb a = signedUnits eb mb b := by
  rw [value_eq_signedUnits, value_eq_signedUnits, mul_left_inj' (by positivity), Int.cast_inj]

theorem units_infinity_pos (h : f.Ieee) : 0 < magUnits f.mbits (infinity f.ebits f.mbits) := by
  simpa using magUnits_strictMono f.mbits (infinity_pos h)

/-- The order of values, infinities at the ends, is that of the units. -/
theorem ordered_iff (h : f.Ieee) (ha : ¬ isNaN f.ebits f.mbits a) (hb : ¬ isNaN f.ebits f.mbits b) :
    signedUnits f.ebits f.mbits a < signedUnits f.ebits f.mbits b ↔
      (isFinite f.ebits f.mbits a ∧ isFinite f.ebits f.mbits b ∧ value f.ebits f.mbits a < value f.ebits f.mbits b) ∨
      (isInf f.ebits f.mbits a ∧ signAt f.ebits f.mbits a = true ∧ ¬ (isInf f.ebits f.mbits b ∧ signAt f.ebits f.mbits b = true)) ∨
      (isInf f.ebits f.mbits b ∧ signAt f.ebits f.mbits b = false ∧ ¬ (isInf f.ebits f.mbits a ∧ signAt f.ebits f.mbits a = false)) := by
  have hU := units_infinity_pos h
  rcases (not_isNaN_iff _ _ _).mp ha with ha | ha <;> rcases (not_isNaN_iff _ _ _).mp hb with hb | hb
  · simp only [ha, hb, not_isInf_of_isFinite ha, not_isInf_of_isFinite hb, value_lt_iff, true_and, false_and, or_false]
  · have hlt := abs_signedUnits_lt ha
    have hnb : ¬ isFinite f.ebits f.mbits b := fun hf => not_isInf_of_isFinite hf hb
    rw [signedUnits_of_isInf hb]
    cases signAt f.ebits f.mbits b <;> simp [sgInt, hb, hnb, not_isInf_of_isFinite ha] <;> omega
  · have hlt := abs_signedUnits_lt hb
    have hna : ¬ isFinite f.ebits f.mbits a := fun hf => not_isInf_of_isFinite hf ha
    rw [signedUnits_of_isInf ha]
    cases signAt f.ebits f.mbits a <;> simp [sgInt, ha, hna, not_isInf_of_isFinite hb] <;> omega
  · have hna : ¬ isFinite f.ebits f.mbits a := fun hf => not_isInf_of_isFinite hf ha
    rw [signedUnits_of_isInf ha, signedUnits_of_isInf hb]
    cases signAt f.ebits f.mbits a <;> cases signAt f.ebits f.mbits b <;> simp [sgInt, ha, hb, hna]
    exact hU

/-- Equality of values, an infinity equal to itself alone, is that of the units. -/
theorem equal_iff (h : f.Ieee) (hal : a < 2 ^ (1 + (f.ebits + f.mbits))) (hbl : b < 2 ^ (1 + (f.ebits + f.mbits)))
    (ha : ¬ isNaN f.ebits f.mbits a) (hb : ¬ isNaN f.ebits f.mbits b) :
    signedUnits f.ebits f.mbits a = signedUnits f.ebits f.mbits b ↔
      (isFinite f.ebits f.mbits a ∧ isFinite f.ebits f.mbits b ∧ value f.ebits f.mbits a = value f.ebits f.mbits b) ∨
      (isInf f.ebits f.mbits a ∧ a = b) := by
  have hU := units_infinity_pos h
  rcases (not_isNaN_iff _ _ _).mp ha with ha | ha
  · rcases (not_isNaN_iff _ _ _).mp hb with hb | hb
    · simp only [ha, hb, not_isInf_of_isFinite ha, value_inj_iff, true_and, false_and, or_false]
    · have hlt := abs_signedUnits_lt ha
      have hnb : ¬ isFinite f.ebits f.mbits b := fun hf => not_isInf_of_isFinite hf hb
      rw [signedUnits_of_isInf hb]
      cases signAt f.ebits f.mbits b <;> simp [sgInt, hnb, not_isInf_of_isFinite ha] <;> omega
  · have hna : ¬ isFinite f.ebits f.mbits a := fun hf => not_isInf_of_isFinite hf ha
    simp only [ha, hna, false_and, true_and, false_or]
    refine ⟨fun he => ?_, fun he => congrArg _ he⟩
    rw [signedUnits_of_isInf ha] at he
    rcases (not_isNaN_iff _ _ _).mp hb with hb | hb
    · have hlt := abs_signedUnits_lt hb
      cases hs : signAt f.ebits f.mbits a <;> simp [sgInt, hs] at he <;> omega
    · rw [signedUnits_of_isInf hb] at he
      have hs : signAt f.ebits f.mbits a = signAt f.ebits f.mbits b := by
        cases ha : signAt f.ebits f.mbits a <;> cases hb : signAt f.ebits f.mbits b <;> simp [sgInt, ha, hb] at he ⊢ <;> omega
      rw [encoding_eq hal, encoding_eq hbl, hs, mag_of_isInf ha, mag_of_isInf hb]

theorem exec_fcmpFeq (o : Rr3) (s : State) : exec (.fcmpFeq o) s = fcmpBody o (fun k => k == 0) false false s := rfl

theorem exec_fcmpFlt (o : Rr3) (s : State) : exec (.fcmpFlt o) s = fcmpBody o (fun k => decide (k < 0)) false true s := rfl

theorem exec_fcmpFle (o : Rr3) (s : State) : exec (.fcmpFle o) s = fcmpBody o (fun k => decide (k ≤ 0)) false true s := rfl

theorem exec_fcmpFun (o : Rr3) (s : State) : exec (.fcmpFun o) s = fcmpBody o (fun _ => false) true false s := rfl

theorem floatCompares : FloatCompares := by
  unfold FloatCompares
  simp only [ebOf_eq, mbOf_eq]
  intro o s th h hg hr
  have hf := ieee_wFmt o.w
  have hxl := operand_lt o.w (th.src o.sa)
  have hyl := operand_lt o.w (th.src o.sb)
  generalize hx : Claims.operand o.w (th.src o.sa) = x at hxl ⊢
  generalize hy : Claims.operand o.w (th.src o.sb) = y at hyl ⊢
  refine ⟨fun hn => ?_, fun hn => ?_⟩
  · refine ⟨fun hs => ?_, fun hs => ?_, ?_, ?_⟩
    · have hnv := iff_of_true (a := true = true) rfl (Or.inl (b := false = true) hs)
      exact ⟨fcmp_of_nan h hg hr (exec_fcmpFeq o s) hx hy hn hnv, fcmp_of_nan h hg hr (exec_fcmpFun o s) hx hy hn hnv⟩
    · have hnv := iff_of_false (a := false = true) nofun fun hq : _ ∨ false = true => hq.elim hs nofun
      exact ⟨fcmp_of_nan h hg hr (exec_fcmpFeq o s) hx hy hn hnv, fcmp_of_nan h hg hr (exec_fcmpFun o s) hx hy hn hnv⟩
    · exact fcmp_of_nan (nv := true) h hg hr (exec_fcmpFlt o s) hx hy hn (iff_of_true rfl (.inr rfl))
    · exact fcmp_of_nan (nv := true) h hg hr (exec_fcmpFle o s) hx hy hn (iff_of_true rfl (.inr rfl))
  · obtain ⟨hnx, hny⟩ := not_or.mp hn
    have hcmp := hf.cmp hnx hny
    refine ⟨fcmp_of_numbers (v := false) h hg hr (exec_fcmpFun o s) hx hy hnx hny Iff.rfl, fun lt eq hlt heq => ?_⟩
    rw [← ordered_iff hf hnx hny, ← hcmp.lt] at hlt
    rw [← equal_iff hf hxl hyl hnx hny, ← hcmp.eq] at heq
    have hle : (lt || eq) = true ↔ ((wFmt o.w).unpack x).cmp ((wFmt o.w).unpack y) ≤ 0 := by
      rw [Bool.or_eq_true, hlt, heq, le_iff_lt_or_eq]
    exact ⟨fcmp_of_numbers h hg hr (exec_fcmpFeq o s) hx hy hnx hny (heq.trans beq_iff_eq.symm),
      fcmp_of_numbers h hg hr (exec_fcmpFlt o s) hx hy hnx hny (hlt.trans decide_eq_true_iff.symm),
      fcmp_of_numbers h hg hr (exec_fcmpFle o s) hx hy hnx hny (hle.trans decide_eq_true_iff.symm)⟩

end Sys2Proof.Machine

namespace Sys2Proof
open Claims Machine

/-- Settles O13: special operands by the classes of their encodings (`FpuWords`), comparisons by the order of the encodings' units
(`Fmt.Ieee.cmp`). -/
theorem floatSpecialsAndCompares : Obligations.FloatSpecialsAndCompares := ⟨floatSpecials, floatCompares⟩

end Sys2Proof
end

section
/-! One rounding of a conversion; the exact widening of a format (R135). -/

namespace Sys2Proof.Machine
open Claims

variable {f fs : Fmt} {num : Nat} {e : Int}

/-! ## One rounding by every mode -/

/-- `g` rounds `x` to the format once, by whichever mode, a zero with the sign `zs`. -/
def OneRounding (f : Fmt) (g : Mode → FRes) (zs : Bool) (x : ℝ) : Prop :=
  ∃ (neg : Bool) (num : Nat) (e : Int), (∀ md, g md = f.roundZ md neg num 1 e) ∧ x = sg neg * exactMag num 1 e ∧ (num = 0 → zs = neg)

theorem exactMag_zero (den : Nat) (e : Int) : exactMag 0 den e = 0 := by simp [exactMag]

theorem exactMag_one (m : Nat) (e : Int) : exactMag m 1 e = m * (2 : ℝ) ^ e := by rw [exactMag, Nat.cast_one, div_one]

theorem OneRounding.rounded {g : Mode → FRes} {zs : Bool} {x : ℝ} (h : f.Ieee) (hg : OneRounding f g zs x) (rm : BitVec 3) :
    Rounded f.ebits f.mbits rm.toNat zs x (g (modeOf rm)).v (g (modeOf rm)).fl := by
  obtain ⟨neg, num, e, hround, rfl, hz⟩ := hg
  rw [hround, Fmt.roundZ]
  split
  next h0 =>
    rw [h0, exactMag_zero, mul_zero, ← hz h0]
    exact rounds_zero ..
  next h0 => exact rounded_round h rm zs (Nat.pos_of_ne_zero h0) one_pos

theorem OneRounding.drawn {g : Mode → FRes} {zs : Bool} {x : ℝ} (h : f.Ieee) (hg : OneRounding f g zs x) (u : Nat) :
    DrawnRound f.ebits f.mbits (largest f.ebits f.mbits) (some (infinity f.ebits f.mbits)) ((u : ℝ) / 2 ^ 24) zs x
      (g (.sr u)).v (g (.sr u)).fl := by
  obtain ⟨neg, num, e, hround, rfl, hz⟩ := hg
  rw [hround, Fmt.roundZ]
  split
  next h0 =>
    rw [h0, exactMag_zero, mul_zero, ← hz h0]
    have hbig : 0 ≤ value f.ebits f.mbits (largest f.ebits f.mbits) := by
      rw [value_largest h]
      positivity
    exact ⟨fun _ => ⟨rfl, rfl⟩, fun hc => absurd hc (by rw [abs_zero]; exact not_lt.mpr hbig), fun hc => absurd rfl hc⟩
  next h0 => exact drawnRound_round h u zs (Nat.pos_of_ne_zero h0) one_pos

theorem oneRounding_ofInt (f : Fmt) (v : Int) : OneRounding f (fun md => f.ofInt md v) false v := by
  refine ⟨decide (v < 0), v.natAbs, 0, fun _ => rfl, ?_, fun h0 => ?_⟩
  · rw [exactMag_one, zpow_zero, mul_one, ← sgInt_cast, sgInt_natAbs]
  · rw [Int.natAbs_eq_zero.mp h0]
    rfl

theorem oneRounding_convert (f : Fmt) {b m : Nat} (r : Reads fs b m e) :
    OneRounding f (fun md => f.convert md (fs.unpack b)) (signAt fs.ebits fs.mbits b) (value fs.ebits fs.mbits b) := by
  refine ⟨_, m, e, fun md => ?_, by rw [r.value, exactMag_one], fun _ => rfl⟩
  rw [r.unpack]
  rfl

/-! ## Values that a format holds -/

/-- What fits the significand, above the subnormals' last place, is exact. -/
theorem inexact_of_fits (hn : 0 < num) (hlt : num < 2 ^ (f.mbits + 1)) (hq : f.qmin ≤ e) : f.inexact num 1 e = false := by
  have hlog : ilog2 num 1 < f.mbits + 1 := by
    rw [← zpow_lt_zpow_iff_right₀ (one_lt_two (α := ℝ))]
    refine (ilog2_spec hn one_pos).1.trans_lt ?_
    rw [Nat.cast_one, div_one]
    exact_mod_cast hlt
  have hplace : f.lastPlace num 1 e ≤ e := max_le (by rw [topExp]; omega) hq
  rw [Fmt.inexact, quant, if_pos hplace, if_pos hplace]
  simp [Nat.mod_one]

/-- The encoding picked for an exact value has its value. -/
theorem units_of_exact (md : Mode) (neg : Bool) (hn : 0 < num) (hx : f.inexact num 1 e = false) :
    (magUnits f.mbits (f.pickMag md neg num 1 e) : ℝ) * (2 : ℝ) ^ f.qmin = num * (2 : ℝ) ^ e := by
  have h0 : (quant num 1 e (f.lastPlace num 1 e)).2.1 = 0 := by simpa [Fmt.inexact] using hx
  have hmag := exactMag_eq (f := f) (neg := neg) (num := num) (e := e) one_pos
  rw [h0, Nat.cast_zero, zero_div, add_zero, exactMag_one] at hmag
  rw [pickMag_of_exact one_pos hx, magUnits_pickMag hn one_pos, hmag]

/-- The largest number's units: a full significand at the highest exponent. -/
theorem magUnits_maxBits (h : f.Ieee) : magUnits f.mbits f.maxBits = (2 ^ (f.mbits + 1) - 1) * 2 ^ (2 ^ f.ebits - 3) := by
  have hm : 0 < 2 ^ f.mbits := by positivity
  have he : 2 ^ 2 ≤ 2 ^ f.ebits := Nat.pow_le_pow_right (by norm_num) h.ebits
  rw [← magUnits_mk (Nat.sub_le _ _) (fun _ => by rw [pow_succ]; omega), h.maxBits, largest, emax]
  obtain ⟨k, hk⟩ : ∃ k, 2 ^ f.ebits = k + 3 := ⟨2 ^ f.ebits - 3, by omega⟩
  rw [hk, pow_succ, show k + 3 - 1 = k + 2 by omega, Nat.add_sub_cancel, add_mul, Nat.add_sub_assoc (by omega), mul_comm 2]

/-- An exact value rounds to itself by every mode that draws nothing, and raises nothing. -/
theorem round_of_exact {md : Mode} (hm : md.plain = true) (neg : Bool) (hx : f.inexact num 1 e = false)
    (hr : f.pickMag .rtz neg num 1 e ≤ f.maxBits) :
    f.round md neg num 1 e = ⟨f.signed neg (f.pickMag .rtz neg num 1 e), 0, false⟩ := by
  rw [f.round_plain hm, pickMag_of_exact one_pos hx, if_neg (not_lt.mpr hr), Fmt.inRange, pickMag_of_exact one_pos hx, hx,
    Bool.false_and, if_neg Bool.false_ne_true, if_neg Bool.false_ne_true, BitVec.or_self]

/-- Every number of `fs` is one of `f`. -/
structure Widens (fs f : Fmt) : Prop where
  source : fs.Ieee
  target : f.Ieee
  mbits : fs.mbits ≤ f.mbits
  qmin : f.qmin ≤ fs.qmin
  top : fs.qmin + (2 ^ fs.ebits - 3 : Nat) + fs.mbits ≤ f.qmin + (2 ^ f.ebits - 3 : Nat) + f.mbits

theorem Widens.le_largest (w : Widens fs f) {b m : Nat} (r : Reads fs b m e) :
    (m : ℝ) * (2 : ℝ) ^ e ≤ magUnits f.mbits f.maxBits * (2 : ℝ) ^ f.qmin := by
  have hs : (1 : ℝ) ≤ 2 ^ (fs.mbits + 1) := one_le_pow₀ one_le_two
  have ht : (1 : ℝ) ≤ 2 ^ (f.mbits + 1) := one_le_pow₀ one_le_two
  have hm : (m : ℝ) ≤ 2 ^ (fs.mbits + 1) - 1 := by
    have : (m : ℝ) + 1 ≤ 2 ^ (fs.mbits + 1) := by exact_mod_cast r.lt
    linarith
  -- a full significand of the source, in the target's last place
  have hfull : ((2 : ℝ) ^ (fs.mbits + 1) - 1) * 2 ^ ((f.mbits : Int) - fs.mbits) ≤ 2 ^ (f.mbits + 1) - 1 := by
    have hp : (1 : ℝ) ≤ 2 ^ ((f.mbits : Int) - fs.mbits) := one_le_zpow₀ one_le_two (by have := w.mbits; omega)
    have : (2 : ℝ) ^ (fs.mbits + 1) * 2 ^ ((f.mbits : Int) - fs.mbits) = 2 ^ (f.mbits + 1) := by
      rw [← zpow_natCast, ← zpow_natCast, ← zpow_add₀ (by norm_num)]
      congr 1
      push_cast
      ring
    linarith
  have hexp : e ≤ (f.mbits : Int) - fs.mbits + ((2 ^ f.ebits - 3 : Nat) + f.qmin) := by
    have := r.high
    have := w.top
    omega
  rw [magUnits_maxBits w.target]
  push_cast [Nat.one_le_two_pow]
  calc (m : ℝ) * 2 ^ e ≤ (2 ^ (fs.mbits + 1) - 1) * 2 ^ ((f.mbits : Int) - fs.mbits + ((2 ^ f.ebits - 3 : Nat) + f.qmin)) :=
        mul_le_mul hm (zpow_le_zpow_right₀ one_le_two hexp) (by positivity) (by linarith)
    _ = (2 ^ (fs.mbits + 1) - 1) * 2 ^ ((f.mbits : Int) - fs.mbits) * 2 ^ (2 ^ f.ebits - 3) * 2 ^ f.qmin := by
        rw [zpow_add₀ (by norm_num), zpow_add₀ (by norm_num), zpow_natCast]
        ring
    _ ≤ _ := by gcongr

/-- A number of the narrower format converts to itself, whatever the mode. -/
theorem Widens.convert (w : Widens fs f) {b : Nat} (hb : isFinite fs.ebits fs.mbits b) {md : Mode} (hm : md.plain = true) :
    f.convert .rne (fs.unpack b) = f.convert md (fs.unpack b) := by
  obtain ⟨m, e, r⟩ := w.source.reads hb
  rw [r.unpack]
  change f.roundZ _ _ m 1 e = f.roundZ _ _ m 1 e
  unfold Fmt.roundZ
  split
  · rfl
  next h0 =>
    have hn := Nat.pos_of_ne_zero h0
    have hx : f.inexact m 1 e = false :=
      inexact_of_fits hn (r.lt.trans_le (Nat.pow_le_pow_right (by norm_num) (by have := w.mbits; omega))) (w.qmin.trans r.low)
    have hr : f.pickMag .rtz (signAt fs.ebits fs.mbits b) m 1 e ≤ f.maxBits := by
      have hle := w.le_largest r
      rw [← units_of_exact .rtz (signAt fs.ebits fs.mbits b) hn hx, mul_le_mul_iff_left₀ (by positivity), Nat.cast_le] at hle
      exact (magUnits_strictMono f.mbits).le_iff_le.mp hle
    rw [round_of_exact rfl _ hx hr, round_of_exact hm _ hx hr]

/-- The widening conversions round to themselves under every mode. -/
theorem Widens.rounded (w : Widens fs f) {b : Nat} (hb : isFinite fs.ebits fs.mbits b) (rm : BitVec 3) :
    Rounded f.ebits f.mbits rm.toNat (signAt fs.ebits fs.mbits b) (value fs.ebits fs.mbits b)
      (f.convert .rne (fs.unpack b)).v (f.convert .rne (fs.unpack b)).fl := by
  obtain ⟨m, e, r⟩ := w.source.reads hb
  rw [w.convert hb (plain_modeOf rm)]
  exact (oneRounding_convert f r).rounded w.target rm

theorem widens_fp32_fp64 : Widens fp32 fp64 := ⟨ieee_fp32, ieee_fp64, by decide, by decide, by decide⟩
theorem widens_bf16_wFmt (w : BitVec 1) : Widens bf16 (wFmt w) := by
  refine ⟨ieee_bf16, ieee_wFmt w, ?_, ?_, ?_⟩ <;> revert w <;> decide
theorem widens_fp16_wFmt (w : BitVec 1) : Widens fp16 (wFmt w) := by
  refine ⟨ieee_fp16, ieee_wFmt w, ?_, ?_, ?_⟩ <;> revert w <;> decide

end Sys2Proof.Machine
end

section
/-! The conversions between formats and from integers (O14). -/

namespace Sys2Proof.Machine
open Claims

variable {s : State} {th : Thread} {o : Rr2}

/-! ## How a conversion ends (R135, R225) -/

/-- The register write of a conversion that counts `n` draws. -/
def putCounted (d : BitVec 4) (n : W32) (u : Thread) (r : Nat) : Thread :=
  (u.setX d (BitVec.ofNat 64 r)).modC fun c => { c with cvc := c.cvc + n }

theorem putCounted_zero (d : BitVec 4) : putCounted d 0 = putX d := by
  funext u r
  simp [putCounted, putX, Thread.modC]

theorem countCvt_eq {u : Thread} {n : W32} (hn : n = if u.rm = 5 then 1 else 0) :
    u.countCvt 1 = u.modC fun c => { c with cvc := c.cvc + n } := by
  unfold Thread.countCvt Thread.stochastic
  by_cases h : u.rm = 5
  · rw [if_pos (beq_iff_eq.mpr h), hn, if_pos h]
    rfl
  · rw [if_neg (mt beq_iff_eq.mp h), hn, if_neg h]
    simp [Thread.modC]

theorem cvtMode_plain (h : th.rm ≠ 5) (k : Nat) : th.cvtMode k = modeOf th.rm := by
  rw [Thread.cvtMode, Thread.stochastic, if_neg (mt beq_iff_eq.mp h)]

/-- What a word's write does elsewhere does not matter. -/
theorem floats_of_write {i : Instr} {v : Nat} {fl : BitVec 6} {wr wr' : Thread → Nat → Thread} (hw : wr th.retire v = wr' th.retire v)
    (h : Floats i s th v fl wr) : Floats i s th v fl wr' := by
  unfold Floats at *
  rwa [← hw]

/-- A conversion that rounds ends with what its function gives under the thread's mode. -/
theorem ends_cvtRound {i : Instr} {g : Mode → Thread → FRes} (h : s.Plain th) (hg : th.guardOk o.pg o.pn = true)
    (hr : th.Ready [o.sa] [o.sd]) (hi : exec i s = cvtRound o g s) {r : FRes} (he : g (th.cvtMode 0) th = r)
    (hfl : r.fl &&& exceptions = r.fl) {n : W32} (hn : n = if th.rm = 5 then 1 else 0) :
    Ends i s th (putCounted o.sd n) r := by
  have hflags : th.cvtFlags r.fl r.draw = r.fl := by rw [Thread.cvtFlags, h.det, Bool.and_false, Bool.false_and]; rfl
  have hw : (th.retire.setX o.sd (BitVec.ofNat 64 r.v)).countCvt 1 = putCounted o.sd n th.retire r.v := countCvt_eq hn
  exact floats_of_write hw (floats_of_fpEnd (r := r) (wr := fun u v => (u.setX o.sd (BitVec.ofNat 64 v)).countCvt 1) h hi (precheck_rr2 hg hr)
    rfl (by rw [he, cvtEnd, hflags]) (by rw [hw]; rfl) hfl)

/-- An exact conversion draws nothing. -/
theorem ends_cvtExact {i : Instr} {g : Thread → FRes} (h : s.Plain th) (hg : th.guardOk o.pg o.pn = true)
    (hr : th.Ready [o.sa] [o.sd]) (hi : exec i s = cvtExact o g s) {r : FRes} (he : g th = r)
    (hfl : r.fl &&& exceptions = r.fl) : Ends i s th (putCounted o.sd 0) r := by
  rw [putCounted_zero]
  exact floats_of_fpEnd h hi (precheck_rr2 hg hr) rfl (he ▸ rfl) rfl hfl

/-! ## The conversions, by what they do (R135) -/

theorem fsrc_eq (th : Thread) (w : BitVec 1) (k : BitVec 5) : th.fsrc w k = Claims.operand w (th.src k) := (operand_eq w _).symm

theorem exec_f2f_narrow (h : o.w ≠ 1) (s : State) : exec (.fcvtF2f o) s =
    cvtRound o (fun m th => (wFmt o.w).convert m ((wFmt (o.w ^^^ 1)).unpack (Claims.operand (o.w ^^^ 1) (th.src o.sa)))) s := by
  have h0 : o.w = 0 := BitVec.eq_zero_or_eq_one o.w |>.resolve_right h
  change execFcvtF2f o s = _
  rw [execFcvtF2f, if_neg h]
  simp only [fsrc_eq, h0]
  rfl

theorem exec_f2f_widen (h : o.w = 1) (s : State) : exec (.fcvtF2f o) s =
    cvtExact o (fun th => (wFmt o.w).convert .rne ((wFmt (o.w ^^^ 1)).unpack (Claims.operand (o.w ^^^ 1) (th.src o.sa)))) s := by
  change execFcvtF2f o s = _
  rw [execFcvtF2f, if_pos h]
  simp only [fsrc_eq, h]
  rfl

theorem widens_f2f (h : o.w = 1) : Widens (wFmt (o.w ^^^ 1)) (wFmt o.w) := by
  rw [h]
  exact widens_fp32_fp64

theorem exec_i2f (o : Rr2) (s : State) :
    exec (.fcvtI2f o) s = cvtRound o (fun m th => (wFmt o.w).ofInt m (th.src o.sa).toInt) s := rfl

theorem exec_u2f (o : Rr2) (s : State) :
    exec (.fcvtU2f o) s = cvtRound o (fun m th => (wFmt o.w).ofInt m ((th.src o.sa).toNat : Int)) s := rfl

theorem exec_tobf16 (o : Rr2) (s : State) : exec (.fcvtTobf16 o) s =
    cvtRound o (fun m th => bf16.convert m ((wFmt o.w).unpack (Claims.operand o.w (th.src o.sa)))) s := by
  simp only [operand_eq]
  rfl

theorem exec_tofp16 (o : Rr2) (s : State) : exec (.fcvtTofp16 o) s =
    cvtRound o (fun m th => fp16.convert m ((wFmt o.w).unpack (Claims.operand o.w (th.src o.sa)))) s := by
  simp only [operand_eq]
  rfl

theorem exec_frombf16 (o : Rr2) (s : State) : exec (.fcvtFrombf16 o) s =
    cvtExact o (fun th => (wFmt o.w).convert .rne (bf16.unpack ((th.src o.sa).toNat % 2 ^ 16))) s := rfl

theorem exec_fromfp16 (o : Rr2) (s : State) : exec (.fcvtFromfp16 o) s =
    cvtExact o (fun th => (wFmt o.w).convert .rne (fp16.unpack ((th.src o.sa).toNat % 2 ^ 16))) s := rfl

/-- A conversion, as `conversions` lists it. -/
abbrev Conversion := (Rr2 → Instr) × (BitVec 1 → W64 → Prop) × (BitVec 1 → W64 → ℝ) × (BitVec 1 → W64 → Bool) ×
  (BitVec 1 → Nat × Nat)

/-- The conversion rounds its operand once to its format. -/
def Conversion.RoundsBy (c : Conversion) (o : Rr2) : Prop := ∃ (f : Fmt) (g : Mode → W64 → FRes), f.Ieee ∧
  c.2.2.2.2 o.w = (f.ebits, f.mbits) ∧ (∀ s, exec (c.1 o) s = cvtRound o (fun m th => g m (th.src o.sa)) s) ∧
  ∀ x, c.2.1 o.w x → OneRounding f (fun m => g m x) (c.2.2.2.1 o.w x) (c.2.2.1 o.w x)

/-- The conversion is exact: it is right under every mode. -/
def Conversion.ExactBy (c : Conversion) (o : Rr2) : Prop := ∃ (f : Fmt) (g : W64 → FRes), f.Ieee ∧
  c.2.2.2.2 o.w = (f.ebits, f.mbits) ∧ (∀ s, exec (c.1 o) s = cvtExact o (fun th => g (th.src o.sa)) s) ∧
  ∀ x, c.2.1 o.w x → ∀ rm : BitVec 3, Rounded f.ebits f.mbits rm.toNat (c.2.2.2.1 o.w x) (c.2.2.1 o.w x) (g x).v (g x).fl

/-- A conversion draws unless it widens. -/
def Draws (i : Instr) (o : Rr2) : Prop := i ≠ .fcvtFrombf16 o ∧ i ≠ .fcvtFromfp16 o ∧ (i = .fcvtF2f o → o.w = 0)

theorem oneRounding_between {fs ft : Fmt} (h : fs.Ieee) {b : Nat} (hb : isFinite fs.ebits fs.mbits b) :
    OneRounding ft (fun m => ft.convert m (fs.unpack b)) (signAt fs.ebits fs.mbits b) (value fs.ebits fs.mbits b) := by
  obtain ⟨m, e, r⟩ := h.reads hb
  exact oneRounding_convert ft r

/-- A conversion that draws rounds; one that draws nothing is exact. -/
theorem conversions_cases {c : Conversion} (hc : c ∈ conversions) (o : Rr2) :
    (Draws (c.1 o) o ∧ c.RoundsBy o) ∨ (¬ Draws (c.1 o) o ∧ c.ExactBy o) := by
  unfold conversions at hc
  simp only [ebOf_eq, mbOf_eq] at hc
  have hw := ieee_wFmt o.w
  simp only [List.mem_cons, List.not_mem_nil, or_false] at hc
  rcases hc with rfl | rfl | rfl | rfl | rfl | rfl | rfl
  · exact .inl ⟨⟨nofun, nofun, nofun⟩, _, fun m x => (wFmt o.w).ofInt m x.toInt, hw, rfl, exec_i2f o, fun x _ => oneRounding_ofInt _ _⟩
  · exact .inl ⟨⟨nofun, nofun, nofun⟩, _, fun m x => (wFmt o.w).ofInt m (x.toNat : Int), hw, rfl, exec_u2f o,
      fun x _ => oneRounding_ofInt _ (x.toNat : Int)⟩
  · by_cases h1 : o.w = 1
    · exact .inr ⟨fun hd => by simpa [h1] using hd.2.2 rfl, _,
        fun x => (wFmt o.w).convert .rne ((wFmt (o.w ^^^ 1)).unpack (Claims.operand (o.w ^^^ 1) x)), hw, rfl, exec_f2f_widen h1,
        fun x hx => (widens_f2f h1).rounded hx⟩
    · exact .inl ⟨⟨nofun, nofun, fun _ => BitVec.eq_zero_or_eq_one o.w |>.resolve_right h1⟩, _,
        fun m x => (wFmt o.w).convert m ((wFmt (o.w ^^^ 1)).unpack (Claims.operand (o.w ^^^ 1) x)), hw, rfl, exec_f2f_narrow h1,
        fun x hx => oneRounding_between (ieee_wFmt _) hx⟩
  · exact .inl ⟨⟨nofun, nofun, nofun⟩, bf16, fun m x => bf16.convert m ((wFmt o.w).unpack (Claims.operand o.w x)), ieee_bf16,
      rfl, exec_tobf16 o, fun x hx => oneRounding_between hw hx⟩
  · exact .inl ⟨⟨nofun, nofun, nofun⟩, fp16, fun m x => fp16.convert m ((wFmt o.w).unpack (Claims.operand o.w x)), ieee_fp16,
      rfl, exec_tofp16 o, fun x hx => oneRounding_between hw hx⟩
  · exact .inr ⟨fun hd => hd.1 rfl, _, fun x => (wFmt o.w).convert .rne (bf16.unpack (x.toNat % 2 ^ 16)), hw, rfl, exec_frombf16 o,
      fun x hx => (widens_bf16_wFmt o.w).rounded hx⟩
  · exact .inr ⟨fun hd => hd.2.1 rfl, _, fun x => (wFmt o.w).convert .rne (fp16.unpack (x.toNat % 2 ^ 16)), hw, rfl, exec_fromfp16 o,
      fun x hx => (widens_fp16_wFmt o.w).rounded hx⟩

end Sys2Proof.Machine

namespace Sys2Proof
open Claims Machine

/-- Settles O14: a conversion that draws is one rounding of its operand's value (`OneRounding`), a widening one is exact
(`Widens`), and the word ends with it (`ends_cvtRound`, `ends_cvtExact`). -/
theorem conversionsRoundOnce : Obligations.ConversionsRoundOnce := by
  unfold Obligations.ConversionsRoundOnce
  intro c hc o s th h hg hr hrm hx
  rcases conversions_cases hc o with ⟨-, f, g, hf, hfmt, hi, hone⟩ | ⟨-, f, g, hf, hfmt, hi, hexact⟩
  · have hround := (hone _ hx).rounded hf th.rm
    have hend := ends_cvtRound h hg hr (hi s) (by rw [cvtMode_plain hrm]) (exceptions_of_rounds hround) (if_neg hrm).symm
    rw [putCounted_zero] at hend
    rw [hfmt]
    exact ⟨_, _, hend, hround⟩
  · have hround := hexact _ hx th.rm
    have hend := ends_cvtExact h hg hr (hi s) rfl (exceptions_of_rounds hround)
    rw [putCounted_zero] at hend
    rw [hfmt]
    exact ⟨_, _, hend, hround⟩

end Sys2Proof
end

section
/-! Conversions of NaNs and infinities, conversions to integers and stochastic conversions (O15). -/

namespace Sys2Proof.Machine
open Claims

variable {s : State} {th : Thread} {o : Rr2}

/-! ## NaNs and infinities (R135) -/

theorem Fmt.Ieee.convert_nan {fs ft : Fmt} (ht : ft.Ieee) (hs : fs.Ieee) {b : Nat} (hb : isNaN fs.ebits fs.mbits b) (md : Mode) :
    ft.convert md (fs.unpack b) = ft.nan (fs.unpack b).isSnan := by
  rw [hs.unpack_nan hb]
  simp [Fmt.convert, Fmt.nan, FVal.isSnan, ht.ieee]

theorem Fmt.Ieee.convert_inf {fs ft : Fmt} (ht : ft.Ieee) (hs : fs.Ieee) {b : Nat} (hb : isInf fs.ebits fs.mbits b) (md : Mode) :
    ft.convert md (fs.unpack b) = ft.inf (signAt fs.ebits fs.mbits b) := by
  rw [hs.unpack_inf hb]
  exact if_pos ht.ieee

/-- A word that ends with a conversion's result, on NaNs and infinities; its write counts `n` draws where `P n` and `Q n`. -/
theorem conversion_specials {fs ft : Fmt} (hs : fs.Ieee) (ht : ft.Ieee) {i : Instr} {md : Mode} {b : Nat} {d : BitVec 4}
    {P Q : W32 → Prop}
    (hw : ∀ n, P n → Q n → ∀ r, ft.convert md (fs.unpack b) = r → r.fl &&& exceptions = r.fl → Ends i s th (putCounted d n) r) :
    (isNaN fs.ebits fs.mbits b →
      (isSignalling fs.ebits fs.mbits b →
        ∀ n, P n → Q n → Floats i s th (canonicalNaN ft.ebits ft.mbits) 1 (putCounted d n)) ∧
      (¬ isSignalling fs.ebits fs.mbits b →
        ∀ n, P n → Q n → Floats i s th (canonicalNaN ft.ebits ft.mbits) 0 (putCounted d n))) ∧
    (isInf fs.ebits fs.mbits b → ∀ n, P n → Q n →
      Floats i s th (withSign ft.ebits ft.mbits (signAt fs.ebits fs.mbits b) (infinity ft.ebits ft.mbits)) 0 (putCounted d n)) := by
  have hnan : isNaN fs.ebits fs.mbits b → ∀ n, P n → Q n → Ends i s th (putCounted d n) (ft.nan (fs.unpack b).isSnan) :=
    fun hb n hp hq => hw n hp hq _ (ht.convert_nan hs hb md) (exceptions_nan ..)
  exact ⟨fun hb => ⟨fun hsig n hp hq => (ht.ends_nan_of (hnan hb n hp hq) (hs.isSnan_unpack b)).1 hsig,
      fun hsig n hp hq => (ht.ends_nan_of (hnan hb n hp hq) (hs.isSnan_unpack b)).2 hsig⟩,
    fun hb n hp hq => hw n hp hq (ft.inf _) (ht.convert_inf hs hb md) (exceptions_inf ..)⟩

/-- The count of a conversion that rounds. -/
theorem count_of_draws {rm : BitVec 3} {D : Prop} {n : W32} (hD : D) (h1 : rm = 5 ∧ D → n = 1) (h0 : ¬ (rm = 5 ∧ D) → n = 0) :
    n = if rm = 5 then 1 else 0 := by
  split
  next h => exact h1 ⟨h, hD⟩
  next h => exact h0 fun hc => h hc.1

section
variable {i : Instr} {fs ft : Fmt} {b : Thread → Nat} {n : W32}

theorem ends_drawing (h : s.Plain th) (hg : th.guardOk o.pg o.pn = true) (hr : th.Ready [o.sa] [o.sd])
    (hi : exec i s = cvtRound o (fun m th => ft.convert m (fs.unpack (b th))) s) (hD : Draws i o)
    (h1 : th.rm = 5 ∧ Draws i o → n = 1) (h0 : ¬ (th.rm = 5 ∧ Draws i o) → n = 0) (r : FRes)
    (he : ft.convert (th.cvtMode 0) (fs.unpack (b th)) = r) (hfl : r.fl &&& exceptions = r.fl) : Ends i s th (putCounted o.sd n) r :=
  ends_cvtRound h hg hr hi he hfl (count_of_draws hD h1 h0)

theorem ends_widening (h : s.Plain th) (hg : th.guardOk o.pg o.pn = true) (hr : th.Ready [o.sa] [o.sd])
    (hi : exec i s = cvtExact o (fun th => ft.convert .rne (fs.unpack (b th))) s) (hD : ¬ Draws i o)
    (_ : th.rm = 5 ∧ Draws i o → n = 1) (h0 : ¬ (th.rm = 5 ∧ Draws i o) → n = 0) (r : FRes)
    (he : ft.convert .rne (fs.unpack (b th)) = r) (hfl : r.fl &&& exceptions = r.fl) : Ends i s th (putCounted o.sd n) r := by
  rw [h0 fun hc => hD hc.2]
  exact ends_cvtExact h hg hr hi he hfl
end

theorem draws_f2f (o : Rr2) : Draws (.fcvtF2f o) o ↔ o.w ≠ 1 := by
  refine ⟨fun hd h1 => ?_, fun h => ⟨nofun, nofun, fun _ => BitVec.eq_zero_or_eq_one o.w |>.resolve_right h⟩⟩
  have := hd.2.2 rfl
  rw [h1] at this
  cases this

theorem conversionSpecials : ConversionSpecials := by
  unfold ConversionSpecials
  intro o s th h hg hr
  have hw := ieee_wFmt o.w
  simp only [ebOf_eq, mbOf_eq]
  refine List.forall_mem_cons.mpr ⟨?_, List.forall_mem_cons.mpr ⟨?_, List.forall_mem_cons.mpr ⟨?_, List.forall_mem_cons.mpr ⟨?_,
    List.forall_mem_singleton.mpr ?_⟩⟩⟩⟩
  · by_cases h1 : o.w = 1
    · exact conversion_specials (ieee_wFmt _) hw fun n => ends_widening h hg hr (exec_f2f_widen h1 s) fun hd => (draws_f2f o).mp hd h1
    · exact conversion_specials (ieee_wFmt _) hw fun n => ends_drawing h hg hr (exec_f2f_narrow h1 s) ((draws_f2f o).mpr h1)
  · exact conversion_specials hw ieee_bf16 fun n => ends_drawing h hg hr (exec_tobf16 o s) ⟨nofun, nofun, nofun⟩
  · exact conversion_specials hw ieee_fp16 fun n => ends_drawing h hg hr (exec_tofp16 o s) ⟨nofun, nofun, nofun⟩
  · exact conversion_specials ieee_bf16 hw fun n => ends_widening h hg hr (exec_frombf16 o s) fun hd => hd.1 rfl
  · exact conversion_specials ieee_fp16 hw fun n => ends_widening h hg hr (exec_fromfp16 o s) fun hd => hd.2.1 rfl

end Sys2Proof.Machine
end

section
/-! Conversions to integers; conversions by a draw (O15). -/

namespace Sys2Proof.Machine
open Claims

variable {s : State} {th : Thread} {o : Rr2}

/-! ## The rounded integer is one (R212, R225) -/

/-- Two integers within one of a value are equal or neighbours around it. -/
theorem near_cases {x : ℝ} {r r' : Int} (h : |(r : ℝ) - x| < 1) (h' : |(r' : ℝ) - x| < 1) (hle : r ≤ r') :
    r = r' ∨ (r' = r + 1 ∧ (r : ℝ) < x ∧ x < r + 1) := by
  rw [abs_lt] at h h'
  have hlt : r' < r + 2 := by
    have : (r' : ℝ) < r + 2 := by linarith [h.1, h'.2]
    exact_mod_cast this
  rcases hle.eq_or_lt with he | hl
  · exact .inl he
  · obtain rfl : r' = r + 1 := by omega
    push_cast at h'
    exact .inr ⟨rfl, by linarith [h'.2], by linarith [h.1]⟩

/-- No rule of R212 allows both neighbours of a value between them. -/
theorem not_both_rounded {rm : Nat} {x : ℝ} {r : Int} (h : RoundedInt rm x r) (h' : RoundedInt rm x (r + 1)) (hlo : (r : ℝ) < x)
    (hhi : x < r + 1) : False := by
  by_cases h1 : rm = 1
  · have hz := h.towardZero h1
    have hz' := h'.towardZero h1
    push_cast at hz'
    rcases le_or_gt 0 r with h0 | h0
    · have : (0 : ℝ) ≤ r := by exact_mod_cast h0
      rw [abs_of_nonneg (by linarith), abs_of_nonneg (by linarith)] at hz'
      linarith
    · have : (r : ℝ) + 1 ≤ 0 := by exact_mod_cast h0
      rw [abs_of_nonpos (by linarith), abs_of_nonpos (by linarith)] at hz
      linarith
  by_cases h2 : rm = 2
  · linarith [h.up h2]
  by_cases h3 : rm = 3
  · have := h'.down h3
    push_cast at this
    linarith
  have hn := h.nearest h1 h2 h3
  have hn' := h'.nearest h1 h2 h3
  have ht := h.tie h1 h2 h3
  have ht' := h'.tie h1 h2 h3
  push_cast at hn' ht'
  rw [abs_of_nonpos (by linarith)] at hn ht
  rw [abs_of_nonneg (by linarith)] at hn' ht'
  replace ht := ht (by linarith)
  replace ht' := ht' (by linarith)
  by_cases h4 : rm = 4
  · rw [if_pos h4] at ht ht'
    rcases le_or_gt 0 r with h0 | h0
    · have : (0 : ℝ) ≤ r := by exact_mod_cast h0
      rw [abs_of_nonneg (by linarith), abs_of_nonneg this] at ht
      linarith
    · have : (r : ℝ) + 1 ≤ 0 := by exact_mod_cast h0
      rw [abs_of_nonpos (by linarith), abs_of_nonpos this] at ht'
      linarith
  · rw [if_neg h4] at ht ht'
    omega

theorem roundedInt_unique {rm : Nat} {x : ℝ} {r r' : Int} (h : RoundedInt rm x r) (h' : RoundedInt rm x r') : r = r' := by
  wlog hle : r ≤ r' generalizing r r'
  · exact (this h' h (le_of_not_ge hle)).symm
  rcases near_cases h.near h'.near hle with he | ⟨rfl, hlo, hhi⟩
  · exact he
  · exact (not_both_rounded h h' hlo hhi).elim

theorem drawnInt_unique {d x : ℝ} {r r' : Int} (h : DrawnInt d x r) (h' : DrawnInt d x r') : r = r' := by
  obtain ⟨hmag, hsign⟩ := h
  obtain ⟨hmag', hsign'⟩ := h'
  have heq : r.natAbs = r'.natAbs := by exact_mod_cast hmag.trans hmag'.symm
  by_cases h0 : r = 0
  · omega
  · have h1 : r < 0 ↔ r' < 0 := (hsign h0).trans (hsign' (by omega)).symm
    omega

/-! ## Conversion to an integer (R136) -/

/-- The integer that a mode takes a number to. -/
def toInt (md : Mode) (n : Bool) (m : Nat) (e : Int) : Int := sgInt n (md.pick n (quant m 1 e 0))

theorem toIntRes_fin (md : Mode) (lo hi : Int) (n : Bool) (m : Nat) (e : Int) : toIntRes md lo hi (.fin n m e) =
    if toInt md n m e > hi then (hi, fNV, false) else if toInt md n m e < lo then (lo, fNV, false)
    else (toInt md n m e, if (quant m 1 e 0).2.1 != 0 then fNX else 0, (quant m 1 e 0).2.1 != 0) := rfl

theorem unitParts_one (m : Nat) (e : Int) : UnitParts (m * (2 : ℝ) ^ e) (quant m 1 e 0) := by
  have := unitParts_quant (num := m) e 0 one_pos
  rwa [Nat.cast_one, div_one, sub_zero] at this

theorem toInt_meets {md : Mode} {R : ℝ → Int → Prop} (h : md.Meets R) (n : Bool) (m : Nat) (e : Int) :
    R (sg n * (m * (2 : ℝ) ^ e)) (toInt md n m e) := h n _ _ (unitParts_one m e)

/-- The integer is the value just where nothing is cut off. -/
theorem toInt_eq_iff (md : Mode) (n : Bool) (m : Nat) (e : Int) :
    (toInt md n m e : ℝ) = sg n * (m * (2 : ℝ) ^ e) ↔ (quant m 1 e 0).2.1 = 0 := by
  have hp := unitParts_one m e
  have hs : sg n ≠ 0 := by cases n <;> simp [sg]
  rw [toInt, sgInt_cast, mul_right_inj' hs, hp.eq]
  constructor
  · intro h
    rw [← hp.part_eq_zero]
    have hlt := hp.part_lt
    have hge := hp.part_nonneg
    rcases md.pick_eq_or n (quant m 1 e 0) with hk | hk
    · rw [hk] at h
      linarith
    · rw [hk] at h
      push_cast at h
      linarith
  · intro h
    rw [md.pick_of_exact n h hp.pos, hp.part_eq_zero.mpr h, add_zero]

/-- A word of f2i or f2u, and how its mode rounds. -/
structure ToInteger (i : Instr) (s : State) (th : Thread) (o : Rr2) (lo hi : Int) (R : ℝ → Int → Prop) : Prop where
  exec_eq : exec i s = cvtRound o (fun m th => intRes (toIntRes m lo hi ((wFmt o.w).unpack (Claims.operand o.w (th.src o.sa))))) s
  range : lo ≤ hi
  meets : (th.cvtMode 0).Meets R
  unique : ∀ {x r r'}, R x r → R x r' → r = r'

theorem exceptions_nv : fNV &&& exceptions = fNV := by decide

theorem exceptions_nx (b : Bool) : (if b = true then fNX else 0) &&& exceptions = if b = true then fNX else 0 := by
  revert b
  decide

section
variable {i : Instr} {lo hi : Int} {R : ℝ → Int → Prop} {n : W32} {x : Nat}

/-- The word writes the integer `v` and raises `fl`. -/
def WritesInt (i : Instr) (s : State) (th : Thread) (d : BitVec 4) (n : W32) (v : Int) (fl : BitVec 6) : Prop :=
  Floats i s th (v % 2 ^ 64).toNat fl (putCounted d n)

theorem ToInteger.writes (w : ToInteger i s th o lo hi R) (h : s.Plain th) (hg : th.guardOk o.pg o.pn = true)
    (hr : th.Ready [o.sa] [o.sd]) (hn : n = if th.rm = 5 then 1 else 0) {v : Int} {fl : BitVec 6} {dr : Bool}
    (he : toIntRes (th.cvtMode 0) lo hi ((wFmt o.w).unpack (Claims.operand o.w (th.src o.sa))) = (v, fl, dr))
    (hfl : fl &&& exceptions = fl) : WritesInt i s th o.sd n v fl :=
  ends_cvtRound (r := intRes (v, fl, dr)) h hg hr w.exec_eq (congrArg intRes he) hfl hn

theorem ToInteger.ends (w : ToInteger i s th o lo hi R) (h : s.Plain th) (hg : th.guardOk o.pg o.pn = true)
    (hr : th.Ready [o.sa] [o.sd]) (hn : n = if th.rm = 5 then 1 else 0) (hx : Claims.operand o.w (th.src o.sa) = x) :
    (isNaN (wFmt o.w).ebits (wFmt o.w).mbits x → WritesInt i s th o.sd n 0 1) ∧
    (isInf (wFmt o.w).ebits (wFmt o.w).mbits x →
      WritesInt i s th o.sd n (if signAt (wFmt o.w).ebits (wFmt o.w).mbits x then lo else hi) 1) ∧
    (isFinite (wFmt o.w).ebits (wFmt o.w).mbits x → ∀ r, R (value (wFmt o.w).ebits (wFmt o.w).mbits x) r →
      (hi < r → WritesInt i s th o.sd n hi 1) ∧ (r < lo → WritesInt i s th o.sd n lo 1) ∧
      (lo ≤ r → r ≤ hi → ((r : ℝ) ≠ value (wFmt o.w).ebits (wFmt o.w).mbits x → WritesInt i s th o.sd n r 16) ∧
        ((r : ℝ) = value (wFmt o.w).ebits (wFmt o.w).mbits x → WritesInt i s th o.sd n r 0))) := by
  subst hx
  refine ⟨fun hb => ?_, fun hb => ?_, fun hb r hR => ?_⟩
  · exact w.writes h hg hr hn (by rw [(ieee_wFmt o.w).unpack_nan hb]; rfl) exceptions_nv
  · exact w.writes h hg hr hn (by rw [(ieee_wFmt o.w).unpack_inf hb]; rfl) exceptions_nv
  · obtain ⟨m, e, rd⟩ := (ieee_wFmt o.w).reads hb
    rw [rd.value] at hR ⊢
    obtain rfl := w.unique (toInt_meets w.meets _ m e) hR
    have hres := toIntRes_fin (th.cvtMode 0) lo hi (signAt (wFmt o.w).ebits (wFmt o.w).mbits (Claims.operand o.w (th.src o.sa))) m e
    rw [← rd.unpack] at hres
    have hrange := w.range
    refine ⟨fun hgt => ?_, fun hlt => ?_, fun hlo hhi => ?_⟩
    · exact w.writes h hg hr hn (hres.trans (if_pos hgt)) exceptions_nv
    · exact w.writes h hg hr hn (hres.trans ((if_neg (by omega)).trans (if_pos hlt))) exceptions_nv
    · have hin := w.writes h hg hr hn (hres.trans ((if_neg (by omega)).trans (if_neg (by omega)))) (exceptions_nx _)
      rw [ne_eq, toInt_eq_iff]
      refine ⟨fun hne => ?_, fun he => ?_⟩
      · rwa [if_pos (bne_iff_ne.mpr hne)] at hin
      · rwa [if_neg (by simp [he])] at hin

end

theorem exec_f2i (o : Rr2) (s : State) : exec (.fcvtF2i o) s = cvtRound o (fun m th =>
    intRes (toIntRes m (-(2 ^ 63)) (2 ^ 63 - 1) ((wFmt o.w).unpack (Claims.operand o.w (th.src o.sa))))) s := by
  simp only [operand_eq]
  rfl

theorem exec_f2u (o : Rr2) (s : State) : exec (.fcvtF2u o) s = cvtRound o (fun m th =>
    intRes (toIntRes m 0 (2 ^ 64 - 1) ((wFmt o.w).unpack (Claims.operand o.w (th.src o.sa))))) s := by
  simp only [operand_eq]
  rfl

theorem integerConversions : IntegerConversions := by
  unfold IntegerConversions
  simp only [ebOf_eq, mbOf_eq]
  have hmeets : ∀ {th : Thread}, th.rm ≠ 5 → (th.cvtMode 0).Meets (RoundedInt th.rm.toNat) := fun hrm => by
    rw [cvtMode_plain hrm]
    exact meets_modeOf _
  refine List.forall_mem_cons.mpr ⟨?_, List.forall_mem_singleton.mpr ?_⟩
  all_goals intro o s th h hg hr hrm
  · have w : ToInteger (.fcvtF2i o) s th o _ _ _ := ⟨exec_f2i o s, by norm_num, hmeets hrm, roundedInt_unique⟩
    have := w.ends h hg hr (if_neg hrm).symm rfl
    simp only [WritesInt, putCounted_zero] at this
    exact this
  · have w : ToInteger (.fcvtF2u o) s th o _ _ _ := ⟨exec_f2u o s, by norm_num, hmeets hrm, roundedInt_unique⟩
    have := w.ends h hg hr (if_neg hrm).symm rfl
    simp only [WritesInt, putCounted_zero] at this
    exact this

/-! ## By a draw (R225) -/

theorem zeroExtend_shift_or (a b : BitVec 32) : a.zeroExtend 64 <<< 32 ||| b.zeroExtend 64 = a ++ b := by
  apply BitVec.eq_of_getLsbD_eq
  intro i hi
  rw [BitVec.getLsbD_append]
  by_cases h : i < 32
  · simp [h, hi]
  · simp [h, hi, BitVec.getLsbD_of_ge b i (by omega)]

/-- The draw that decides a conversion under RM = 5. -/
def drawUnits (th : Thread) : Nat :=
  drawU (th.lau.seed ^^^ th.srk.zeroExtend 64) (th.c.ord ++ (th.c.cvc + BitVec.ofNat 32 0))

theorem drawOf_eq (th : Thread) : drawOf th 0 = (drawUnits th : ℝ) / 2 ^ 24 := rfl

theorem cvtMode_stochastic (h5 : th.rm = 5) (hdet : th.det = false) : th.cvtMode 0 = .sr (drawUnits th) := by
  rw [Thread.cvtMode, Thread.stochastic, if_pos (beq_iff_eq.mpr h5), hdet, if_neg Bool.false_ne_true, zeroExtend_shift_or]
  rfl

/-- A drawn result raises none but exceptions. -/
theorem exceptions_of_drawn {eb mb big : Nat} {inf : Option Nat} {d : ℝ} {zs : Bool} {x : ℝ} {v : Nat} {fl : BitVec 6}
    (h : DrawnRound eb mb big inf d zs x v fl) : fl &&& exceptions = fl := by
  by_cases hx : x = 0
  · rw [(h.zero hx).2]
    rfl
  rcases lt_or_ge (value eb mb big) |x| with hb | hb
  · rw [(h.above hb).1]
    rfl
  · obtain ⟨E, k, n, -, -, -, -, -, h0, h1⟩ := h.within hx hb
    by_cases hv : value eb mb v = x
    · rw [h0 hv]
      rfl
    · rw [h1 hv]
      split <;> rfl

theorem stochasticConversions : StochasticConversions := by
  unfold StochasticConversions
  intro o s th h hg hr h5
  refine ⟨fun c hc hx hn1 hn2 hn3 => ?_, ?_⟩
  · rcases conversions_cases hc o with ⟨-, f, g, hf, hfmt, hi, hone⟩ | ⟨hnd, -⟩
    · have hdrawn := (hone _ hx).drawn hf (drawUnits th)
      have hend := ends_cvtRound h hg hr (hi s) (by rw [cvtMode_stochastic h5 h.det]) (exceptions_of_drawn hdrawn) (if_pos h5).symm
      rw [hfmt]
      exact ⟨_, _, hend, hdrawn⟩
    · exact absurd ⟨hn1, hn2, hn3⟩ hnd
  · simp only [ebOf_eq, mbOf_eq]
    have hmeets : (th.cvtMode 0).Meets (DrawnInt (drawOf th 0)) := by
      rw [cvtMode_stochastic h5 h.det]
      exact meets_sr _
    refine List.forall_mem_cons.mpr ⟨?_, List.forall_mem_singleton.mpr ?_⟩
    · have w : ToInteger (.fcvtF2i o) s th o _ _ _ := ⟨exec_f2i o s, by norm_num, hmeets, drawnInt_unique⟩
      exact w.ends h hg hr (if_pos h5).symm rfl
    · have w : ToInteger (.fcvtF2u o) s th o _ _ _ := ⟨exec_f2u o s, by norm_num, hmeets, drawnInt_unique⟩
      exact w.ends h hg hr (if_pos h5).symm rfl

end Sys2Proof.Machine

namespace Sys2Proof
open Claims Machine

/-- Settles O15: specials by their classes (`conversion_specials`), integers by the one integer that the mode allows
(`roundedInt_unique`, `drawnInt_unique`), draws by `OneRounding.drawn`. -/
theorem integerAndStochasticConversions : Obligations.IntegerAndStochasticConversions :=
  ⟨conversionSpecials, integerConversions, stochasticConversions⟩

end Sys2Proof
end
